-- ==== Sys2Proof/Word.lean ====
section
/-! DEFINITION. The word types of the FB512: a register of the control space is 64 bits (R647), memories and images are bytes. -/

namespace Sys2Proof

/-- A register of the control space, a general register of an engine, an element of a flit (R647, R69). -/
abbrev Word := BitVec 64

/-- A byte of an image, a store, a payload or an engine's data memory. -/
abbrev Byte := BitVec 8

end Sys2Proof
end

