-- ==== Sys2Proof/Types.lean ====
section
/-! DEFINITION. What travels between the package and the world outside it: Burek packets (Tables 04-5 and 04-7), PCI Express
TLPs as the bridge sees them, the masters of control space (Table 11-2), straps, and what a command may carry. -/

namespace Sys2Proof.Machine

/-- A Burek packet: the header fields of Table 04-5 and the payload in packet byte order (R200). -/
structure Packet where
  ptype : Nat := 0
  vc : Nat := 0
  cls : Nat := 0
  dest : Nat := 0
  src : Nat := 0
  tag : Nat := 0
  poison : Bool := false
  ro : Bool := false
  ido : Bool := false
  ns : Bool := false
  reqFn : Nat := 0
  len : Nat := 0
  status : Nat := 0
  window : Nat := 0
  sub : Nat := 0
  fbe : Nat := 0
  lbe : Nat := 0
  noWin : Bool := false
  addr : Nat := 0
  partition : Nat := 0
  hops : Nat := 0
  deadline : Nat := 0
  payload : List Byte := []
  deriving DecidableEq, Repr

/-- How much of a register an access of a PCI Express control port covers (R550): its aligned 8 bytes, an aligned half of them, or anything else. Every other
master accesses whole registers. -/
inductive AccessWidth where
  | whole
  | half (upper : Bool)
  | other
  deriving DecidableEq, Repr

/-- The TLPs the bridge carries (Table 05-2, chapter 06). -/
inductive TlpKind where
  | memRead | memWrite | memReadLock
  | fetchAdd | swap | cas
  | ioRead | ioWrite
  | cfgRead (type1 : Bool) | cfgWrite (type1 : Bool)
  | message (code : Nat)
  | vendorMessage
  | completion (status : Nat)
  | deferrableWrite
  | ide
  | other
  deriving DecidableEq, Repr

/-- A PCI Express TLP as the transaction layer sees it: its header fields and its data bytes in PCI Express byte order. For a
configuration request `addr` is the register offset and `target` the routing ID; for a completion `target` is the requester; for a
message `target` is the ID it is routed to and `at_` its routing, 2 by ID.
`header` is the header in Flit-mode form, which a barge carries unchanged (R207). -/
structure Tlp where
  kind : TlpKind := .other
  addr : Nat := 0
  len : Nat := 0
  firstBe : Nat := 15
  lastBe : Nat := 15
  reqId : Nat := 0
  tag : Nat := 0
  tc : Nat := 0
  ro : Bool := false
  ido : Bool := false
  ns : Bool := false
  poison : Bool := false
  target : Nat := 0
  at_ : Nat := 0
  header : List Byte := []
  data : List Byte := []
  deriving DecidableEq, Repr

/-- The status of a PCI Express completion (Table 10-1 and Table 10-2). -/
inductive CplStatus where
  | sc | ur | crs | ca
  deriving DecidableEq, Repr

/-- A master of control space (Table 11-2). `inband` is a control port of another package, with the PRIV bit of its packet
(R574); `debug` is the debug access of the port that holds Maintenance (R591); `lead` is the package lead endpoint. -/
inductive Master where
  | cp (n : Nat)
  | keeper (k : Nat)
  | inband (id : Nat) (priv : Bool)
  | debug
  | lead
  deriving DecidableEq, Repr

/-- An access of a register: the master that makes it, and how much of the register it covers (R550). -/
structure ControlAccess where
  master : Master
  width : AccessWidth := .whole
  deriving DecidableEq, Repr

/-- The straps sampled in Power-On Reset (R547, R552, R681): CP0_MODE, CP1_MODE, CP_SA and REFSELj, bit j, for regions 2j and 2j + 1 (R676). -/
structure Straps where
  cp0I3c : Bool := false
  cp1I3c : Bool := false
  cpSa : Nat := 0
  refSel : Nat := 0
  deriving DecidableEq, Repr

/-- A pop window of control space: the record queues, keepers' queue and telemetry stream of a die, the event queue of the
partition of a PU port, the event queue of a control port (R465, R474, R556, R570, R645). -/
inductive PopWindow where
  | fault (d : Nat) | bittern (d : Nat) | surrogate (d : Nat) | keepers (d : Nat) | telemetry (d : Nat)
  | partition (p : Nat) | controlPort (n : Nat)
  deriving DecidableEq, Repr

/-- An item of the keepers' shadow: kind and index of Table 13-7 and the value the shadow holds. -/
structure ShadowItem where
  item : Nat
  index : Nat
  value : List Nat
  deriving DecidableEq, Repr

/-- A work item for a transaction engine (Tables 01-9 and 01-10). -/
structure EngineItem where
  kind : Nat := 0
  port : Nat := 0
  requester : Nat := 0
  ctx : Nat := 0
  header : List Byte := []
  payload : List Byte := []
  deriving DecidableEq, Repr

/-- A physical function the FB512 finds on a device at link-up (R243): its number, its TotalVFs, First VF Offset and VF Stride, and
what its BARs 0 to 5, its Expansion ROM and its VF BARs read after all ones are written (Table 05-5), its extended capabilities and those of
its VFs as offset, ID and next offset (R219), its Vendor and Device IDs, its VFs' Device ID, and the register numbers at which its PCI Express
capability and that of its VFs stand (Table 05-5). -/
structure DeviceFunction where
  pf : Nat
  totalVfs : Nat := 0
  offset : Nat := 0
  stride : Nat := 0
  bars : List Nat := []
  rom : Nat := 0
  vfBars : List Nat := []
  caps : List (Nat × Nat × Nat) := []
  id : Nat := 0
  vfId : Nat := 0
  pcie : Nat := 16
  vfPcie : Nat := 16
  vfCaps : List (Nat × Nat × Nat) := []
  deriving DecidableEq, Repr

/-- What a PD link finds at link-up: the link's width, rate code and Flit mode, the device's tag completer support (R228), its
AtomicOp Completer Supported bits (bit 0 32-bit, bit 1 64-bit, bit 2 128-bit CAS, R329), its functions (R243), its encoded L1 Exit
Latency (R698), the credits PH, PD, NPH, NPD, CplH and CplD it advertises, 0 for infinite (Table 09-1), and whether it supports L0p (R224). -/
structure DeviceInfo where
  width : Nat := 0
  rate : Nat := 0
  flit : Bool := false
  tag10 : Bool := false
  tag14 : Bool := false
  atomics : Nat := 0
  functions : List DeviceFunction := []
  l1Exit : Nat := 0
  credits : List Nat := []
  l0p : Bool := false
  deriving DecidableEq, Repr, Inhabited

/-- What a PU link comes up with: non-Flit mode, or Flit mode with a partner that lacks or supports L0p (R217, R224). -/
inductive FlitMode where
  | off
  | flit
  | flitL0p
  deriving DecidableEq, Repr, Inhabited

/-- The link runs in Flit mode. -/
def FlitMode.on (m : FlitMode) : Bool := m ≠ .off

end Sys2Proof.Machine
end

