-- ==== Sys2Proof/Syntax.lean ====
section
/-! DEFINITION. The commands the block takes: one constructor for each row of spec/opcode_table.json, in its order, with the
operands the row carries. A `Master` operand is the originator of a control-space access (Table 11-2); lanes, ports, windows,
clusters and engines are named by their package numbers (R20, R21, R29, R65). -/

namespace Sys2Proof
open Machine

/-- A command to the package. -/
inductive Instr where
  /-- RESET_B_RELEASE (R596). With supplies good and AON_CLK running, the board releases RESET_B and the package enters Power-On Reset (M1). -/
  | resetBRelease (straps : Straps)
  /-- RESET_B_ASSERT (R682). RESET_B sampled low for 1 µs causes a package reset, and the package stays in M1 while the pin is held. -/
  | resetBAssert
  /-- AON_CLOCK_LOSS (R675). With no AON_CLK edge for 1 µs, the package behaves as if RESET_B were asserted. -/
  | aonClockLoss
  /-- SUPPLY_OUT_OF_RANGE (R670). A rail outside its operating range for 1 µs either sends the package to M0 or fences the die's regions and enters M7. -/
  | supplyOutOfRange (rail : Nat)
  /-- DIE_SELF_TEST_DONE (R50). Every present die has finished its built-in self-test, and die health is assessed for the move from M1 to M2. -/
  | dieSelfTestDone (pass : Nat) (supplies : Nat) (checks : Nat)
  /-- KEEPER_WATCHDOG_EXPIRY (R569). A keeper's watchdog expires without a KICK, which sets the cause and either changes the lead or restarts the keeper. -/
  | keeperWatchdogExpiry (k : Nat) (kicked : Bool)
  /-- WATCHDOG_KICK (R569). A keeper writes KICK to its own watchdog, which restarts the timeout. -/
  | watchdogKick (k : Nat)
  /-- FIRMWARE_VERIFIED (R597). The boot ROM verifies the firmware banks, boots the chosen bank and the package enters M3, or enters M11 when no bank passes. -/
  | firmwareVerified (sig0 : Bool) (sig1 : Bool)
  /-- SBS_STAGE_WRITE (R693). An aligned 8-byte write to PKG_SBS_STAGE appends to the staged image, or starts a new one. -/
  | sbsStageWrite (m : Master) (offset : Nat) (v : Word)
  /-- LOAD_STAGED_IMAGE (R89). CMD 0x1 of PKG_SBS_CTL starts validation and load of the staged image in M3. -/
  | loadStagedImage (m : Master)
  /-- WRITE_STAGED_TO_SLOT (R87). CMD 0x2 of PKG_SBS_CTL writes the staged image into the slot named in TARGET. -/
  | writeStagedToSlot (m : Master) (target : Nat)
  /-- SLOT_WRITE_COMPLETE (R82). A slot write finishes with read-back and a digest check, and the slot becomes Valid or Invalid. -/
  | slotWriteComplete (readBack : Bool)
  /-- START_PARTIAL_RELOAD (R95). CMD 0x3 of PKG_SBS_CTL starts a partial reload of RELOAD_REGION, and the package enters M8. -/
  | startPartialReload (m : Master) (region : Nat) (target : Nat)
  /-- DISCARD_STAGED_IMAGE (R87). CMD 0x4 of PKG_SBS_CTL discards the staged image. -/
  | discardStagedImage (m : Master)
  /-- BOOT_SEL_WRITE (R88). A write of BOOT_SEL is stored in the store directory before the write completes. -/
  | bootSelWrite (m : Master) (sel : Nat)
  /-- IMAGE_VALIDATION_DONE (R92). Validation of an image ends after the checks of Table 02-7, which either pass it or refuse it. -/
  | imageValidationDone
  /-- IMAGE_APPLY_COMPLETE (R585). A full image is applied, the ledgers are initialised, and the package enters Lane Bring-up (M4). -/
  | imageApplyComplete
  /-- RELOAD_DRAIN_START (R98). The reload drain begins once validation has passed and any fence has completed: bounds are republished and the region's sluice stops. -/
  | reloadDrainStart
  /-- RELOAD_DRAIN_END (R100). No admitted request of the region remains, so the image is measured and applied. -/
  | reloadDrainEnd
  /-- RELOAD_APPLY_DONE (R97). The apply step completes: bounds are republished, the sluice resumes, RELOAD_COUNT advances and the package returns to its mode. -/
  | reloadApplyDone
  /-- SEAL_COMMIT (R109). A write of COMMIT_TOKEN equal to TOKEN from a privileged SEM01 holder commits every staged seal request. -/
  | sealCommit (m : Master) (token : Nat)
  /-- FEC_CODEWORD_RECEIVE (R125). A received RS(544,528) codeword is decoded, and its blocks are passed on or flagged in error. -/
  | fecCodewordReceive (l : Nat) (symbols : List (BitVec 10))
  /-- BLOCK_LOCK_ACQUIRED (R126). Three consecutive decoding codewords establish the codeword boundary and block lock. -/
  | blockLockAcquired (l : Nat) (inverted : Bool)
  /-- BLOCK_LOCK_LOST (R127). Four consecutive uncorrectable codewords lose block lock, and the search restarts. -/
  | blockLockLost (l : Nat)
  /-- SLOT_SEND (R130). The transmitter sends the next slot as a flit slot, an IDLE control slot or a marker slot. -/
  | slotSend (p : Nat)
  /-- TRAIN_BLOCK_RECEIVE (R138). A TRAIN block is received, and its request and state are taken. -/
  | trainBlockReceive (l : Nat) (element : Word)
  /-- TRAIN_STATE_ADVANCE (R133). A lane meets the exit condition of its training state and moves to the next state. -/
  | trainStateAdvance (l : Nat) (fom : Nat)
  /-- TRAINING_TIMEOUT (R133). A lane exceeds the time limit of its training state, returns to Lock, and RETRAIN_COUNT advances. -/
  | trainingTimeout (l : Nat)
  /-- EQUALISE_TIMEOUT (R134). The Equalise limit expires, and the port bonds with the lanes that are done when they number at least MIN_LANES. -/
  | equaliseTimeout (p : Nat)
  /-- ADAPTER_CHECKPOINT (R144). After each 1 ms of healthy adaptation, the adapter saves its values as a checkpoint. -/
  | adapterCheckpoint (l : Nat) (values : Nat) (fom : Nat)
  /-- ADAPTER_IDLE_FREEZE (R142). After 10 ms of idle slots, the adapter freezes and loads its last checkpoint. -/
  | adapterIdleFreeze (l : Nat)
  /-- DRIFT_WATCHDOG_FIRE (R145). FOM has stayed below its threshold for DRIFT_TIME, so the lane is retrained or the PCI Express port enters Recovery. -/
  | driftWatchdogFire (l : Nat) (fom : Nat)
  /-- EYE_CONTOUR_COMPLETE (R152). An eye-scan contour completes, EYE_VALID sets and CONTOURS advances. -/
  | eyeContourComplete (l : Nat) (probes : List Nat)
  /-- EYE_TARGET_WRITE (R152). A write of TARGET in LN_EYE starts a new contour and clears EYE_VALID. -/
  | eyeTargetWrite (m : Master) (l : Nat) (target : Nat)
  /-- DOZE_IDLE_EXPIRY (R615). No booking has arrived for IDLE_US, so the transmit direction sends its DOZE slot. -/
  | dozeIdleExpiry (p : Nat)
  /-- TX_DOZE_ENTRY (R154). The transmitter enters Doze at the end of its DOZE slot. -/
  | txDozeEntry (p : Nat)
  /-- DOZE_BLOCK_RECEIVE (R154). The receiver decodes a DOZE block and enters Doze. -/
  | dozeBlockReceive (l : Nat)
  /-- TX_WAKE_ACTIVE (R155). 200 ns after the wake request, the transmitter is Active and sends 16 WAKE slots. -/
  | txWakeActive (p : Nat)
  /-- RX_ENERGY_DETECT (R155). A dozing receiver detects energy, leaves Doze and regains codeword lock. -/
  | rxEnergyDetect (l : Nat)
  /-- WAKE_PREAMBLE_END (R157). At the end of the wake preamble, lanes without lock drop out, or the port retrains. -/
  | wakePreambleEnd (p : Nat)
  /-- LANE_POWER_UP (R158). A direction leaving Off powers up within 20 µs, and its port trains from Lock. -/
  | lanePowerUp (p : Nat)
  /-- LANEMAP_RECEIVE (R161). A transmitter receives a LANEMAP and applies it when SWITCH lies ahead, or discards it. -/
  | lanemapReceive (p : Nat) (element : Word)
  /-- LANEMAP_REPEAT (R162). Every 256 slots, the receiver repeats its pending LANEMAP with a new SWITCH and MSEQ. -/
  | lanemapRepeat (p : Nat)
  /-- MASK_SWITCH (R167). At slot SWITCH, the transmit mask changes and is reported to the admission gate. -/
  | maskSwitch (p : Nat)
  /-- PCIE_LANE_LOSS (R168). A PCI Express lane loses lock, and the port narrows by L0p or retrains. -/
  | pcieLaneLoss (p : Nat) (lanesLeft : Nat)
  /-- INIT_FLIT_RECEIVE (R176). A good INIT flit is received, which sets PEER_SEEN and the session parameters. -/
  | initFlitReceive (p : Nat) (flit : List Word)
  /-- FLIT_RECEIVE (R180). A flit is received, checked, and accepted or discarded against the expected sequence number. -/
  | flitReceive (p : Nat) (flit : List Word) (flagged : Bool)
  /-- NAK_RETRY_TIMEOUT (R181). With flit E still not accepted after REPLAY_TIMEOUT, the receiver makes a new replay request. -/
  | nakRetryTimeout (p : Nat)
  /-- REPLAY_TIMER_EXPIRY (R184). The replay timer expires, and the transmitter rewinds. -/
  | replayTimerExpiry (p : Nat)
  /-- LINK_RETURN_TIMEOUT (R187). The port has not returned to Active within 20 ms, and the BF link is declared down. -/
  | linkReturnTimeout (p : Nat)
  /-- TALLY_SEND (R194). Every 1 ms, the side sends a TALLY flit with its SPENT, RETURNED and HELD totals. -/
  | tallySend (p : Nat)
  /-- TALLY_RECEIVE (R195). A TALLY flit is accepted, and the three checks are made for each pair. -/
  | tallyReceive (p : Nat) (flit : List Word)
  /-- TALLY_LATE (R420). With no TALLY flit accepted for 3 ms, tally-late is raised. -/
  | tallyLate (p : Nat)
  /-- TALLY_MISSING (R420). With no TALLY flit accepted for 10 ms, the link is declared down. -/
  | tallyMissing (p : Nat)
  /-- BF_PACKET_ARRIVAL (R270). A packet arriving at a BF port is decoded, delivered, answered, forwarded or admitted as transit. -/
  | bfPacketArrival (p : Nat)
  /-- WRITE_LOSS_EVENT_RECEIVE (R199). A WRITE-LOSS Event is entered in the bittern log of the source package. -/
  | writeLossEventReceive (p : Nat) (pkt : Packet)
  /-- ANNOUNCE_RECEIVE (R212). An ANNOUNCE block is received, and the parent port and DEPTH are chosen. -/
  | announceReceive (p : Nat) (element : Word)
  /-- SYNC_RECEIVE (R211). A SYNC block is received, and its arrival time T2 is taken. -/
  | syncReceive (p : Nat) (element : Word)
  /-- DREQ_RECEIVE (R213). A DREQ is received, and a DRESP is scheduled for the next marker slot. -/
  | dreqReceive (p : Nat) (element : Word)
  /-- DRESP_RECEIVE (R213). A DRESP is received, and the flight time and offset are formed. -/
  | drespReceive (p : Nat) (element : Word)
  /-- TIME_LOCK (R212). The offset has stayed within 16 ticks for 1 ms, and the package announces LOCKED 1. -/
  | timeLock
  /-- PD_LINK_UP (R243). At PD link-up, the bus number, tag pool, BARs and L1 latency are set and bindings are compared with the device. -/
  | pdLinkUp (p : Nat) (dev : DeviceInfo)
  /-- TAG_POOL_RESIZE (R228). The new pool size takes effect once no tag of the old pool is outstanding. -/
  | tagPoolResize (p : Nat)
  /-- PD_LINK_DOWN (R248). A PD link goes down, and the port enters containment. -/
  | pdLinkDown (p : Nat)
  /-- PU_LINK_UP (R244). The PU link reaches L0, and device requests for that host are carried again. -/
  | puLinkUp (p : Nat) (width : Nat) (rate : Nat) (flit : FlitMode) (credits : List Nat)
  /-- PU_LINK_DOWN (R244). A PU link goes down, and the virtual switch resets its emulated registers. -/
  | puLinkDown (p : Nat)
  /-- PU_HOT_RESET (R244). A hot reset at a PU port resets the emulation and is forwarded to each vDSP. -/
  | puHotReset (p : Nat)
  /-- PME_TURN_OFF (R226). A PME_Turn_Off from the host is forwarded to devices bound wholly to the partition. -/
  | pmeTurnOff (p : Nat)
  /-- PME_TO_ACK (R226). Once no request of the partition is in flight, PME_TO_Ack is sent. -/
  | pmeToAck (p : Nat)
  /-- CONFIG_REQUEST (R354). A configuration request at a PU port is routed to an emulated function or to a bound function. -/
  | configRequest (p : Nat) (t : Tlp)
  /-- SECONDARY_BUS_RESET (R245). A Secondary Bus Reset on a vDSP acts on each binding behind it. -/
  | secondaryBusReset (p : Nat) (vdsp : Nat)
  /-- FLR_WRITE (R246). An FLR written by the host to a bound function is sent to the device, or completed without it. -/
  | flrWrite (p : Nat) (vdsp : Nat) (fn : Nat)
  /-- FLR_COMPLETE (R247). The reset of a function ends, and waiting requests of its partition proceed. -/
  | flrComplete (p : Nat) (fn : Nat)
  /-- VDSP_DPC_TRIGGER (R249). A host software DPC trigger on a vDSP contains the port, or only the partition's view. -/
  | vdspDpcTrigger (p : Nat) (vdsp : Nat)
  /-- DPC_STATUS_CLEAR (R251). A host clears DPC Trigger Status, which releases the port when it was the last bound partition. -/
  | dpcStatusClear (p : Nat) (vdsp : Nat)
  /-- DPC_TRIGGER_WRITE (R248). A write of TRIGGER to PORT_DPC contains the PD port. -/
  | dpcTriggerWrite (m : Master) (p : Nat)
  /-- DPC_RELEASE_WRITE (R251). A write of RELEASE to PORT_DPC releases the port, which retrains. -/
  | dpcReleaseWrite (m : Master) (p : Nat)
  /-- DPC_TIMED_RELEASE (R251). DPC_RELEASE ms after the trigger, the port is released. -/
  | dpcTimedRelease (p : Nat)
  /-- ERROR_MESSAGE_RECEIVE (R254). A device error message at a PD port forms an ERR-MSG Event and may trigger containment. -/
  | errorMessageReceive (p : Nat) (severity : Nat) (fn : Nat)
  /-- ERR_MSG_EVENT_RECEIVE (R254). An ERR-MSG Event at the PU port is forwarded to the host with the function's host routing ID. -/
  | errMsgEventReceive (p : Nat) (pkt : Packet)
  /-- DOE_OBJECT_WRITE (R258). The last dword of a DOE request object is written, and the lead serves it in order. -/
  | doeObjectWrite (inst : Nat) (object : List Byte)
  /-- DOE_ABORT (R257). DOE Abort clears the instance's error and pending object. -/
  | doeAbort (inst : Nat)
  /-- GET_VERSION (R603). SPDM GET_VERSION is answered, which resets the connection state of its instance. -/
  | getVersion (inst : Nat) (request : List Byte)
  /-- GET_CAPABILITIES (R603). SPDM GET_CAPABILITIES is answered with the capabilities of Table 14-6. -/
  | getCapabilities (inst : Nat) (request : List Byte)
  /-- NEGOTIATE_ALGORITHMS (R604). SPDM NEGOTIATE_ALGORITHMS is answered, or refused when no algorithm matches. -/
  | negotiateAlgorithms (inst : Nat) (request : List Byte)
  /-- GET_DIGESTS (R603). SPDM GET_DIGESTS is answered for certificate slot 0. -/
  | getDigests (inst : Nat) (request : List Byte)
  /-- GET_CERTIFICATE (R603). SPDM GET_CERTIFICATE returns the slot 0 chain. -/
  | getCertificate (inst : Nat) (request : List Byte)
  /-- CHALLENGE (R602). SPDM CHALLENGE is answered with a response signed by the device identity key. -/
  | challenge (inst : Nat) (request : List Byte)
  /-- GET_MEASUREMENTS (R604). SPDM GET_MEASUREMENTS returns signed measurement blocks from one sample. -/
  | getMeasurements (inst : Nat) (request : List Byte)
  /-- REQUEST_RECEIVE (R266). A memory request enters a PU or PD ingress, is decoded against the cluster's windows, and its surrogate timer starts. -/
  | requestReceive (p : Nat) (t : Tlp)
  /-- PREFETCH_EXPIRY (R299). Prefetch data unused 10 µs after its arrival is cancelled. -/
  | prefetchExpiry (c : Nat) (no : Nat)
  /-- BUREK_COMPLETION_RECEIVE (R277). A Burek Completion reaches the near package, and the requester is answered or the data is gathered. -/
  | burekCompletionReceive (p : Nat) (pkt : Packet)
  /-- LOCK_GRANT_RECEIVE (R336). The Completion granting a Lock moves the near package lock to Held near. -/
  | lockGrantReceive (pkt : Packet)
  /-- LOCK_BUSY_RECEIVE (R350). A busy answer to a Lock starts a backoff, yielding the lock when the far rank is higher. -/
  | lockBusyReceive (pkt : Packet)
  /-- LOCK_BACKOFF_EXPIRY (R351). The backoff ends, and the near package takes its lock again and resends the Lock. -/
  | lockBackoffExpiry
  /-- ESCALATED_CLEAR (R290). Clearing ESCALATED returns LOSS_SINCE to zero, and later writes are posted again. -/
  | escalatedClear (m : Master) (w : Nat)
  /-- MSIX_EVENT_RECEIVE (R305). An MSI-X Event at a PU port is turned into a host memory write through a landing window. -/
  | msixEventReceive (p : Nat) (pkt : Packet)
  /-- INTX_MESSAGE_RECEIVE (R307). An INTx level change at a PD port sends an INTx Event to the partition's PU port. -/
  | intxMessageReceive (p : Nat) (pin : Nat) (level : Bool) (fn : Nat)
  /-- INTX_EVENT_RECEIVE (R308). An INTx Event adjusts the pin counts and may send Assert_INTx or Deassert_INTx. -/
  | intxEventReceive (p : Nat) (pkt : Packet)
  /-- VENDOR_MESSAGE_RECEIVE (R269). A vendor-defined message is carried as a barge, answered UR or discarded. -/
  | vendorMessageReceive (p : Nat) (t : Tlp)
  /-- DEVICE_COMPLETION_RECEIVE (R441). A PCI Express completion from a completer is translated to a Burek status. -/
  | deviceCompletionReceive (p : Nat) (t : Tlp)
  /-- PD_TLP_ACKNOWLEDGED (R284). The PD link layer acknowledges a Write-Ack's TLP, and the far bridge answers OK. -/
  | pdTlpAcknowledged (p : Nat) (tag : Nat)
  /-- PACKET_PLACE (R383). An ordering point places the eligible packet with the earliest local deadline. -/
  | packetPlace (point : Nat)
  /-- MRDLK_RECEIVE (R335). An MRdLk at a PU port acquires the package lock and sends a Lock, or waits, or is answered UR. -/
  | mrdlkReceive (p : Nat) (t : Tlp)
  /-- LOCK_PACKET_RECEIVE (R341). A Lock packet at the far package is granted, answered busy or answered NOT-MAPPED. -/
  | lockPacketReceive (p : Nat) (pkt : Packet)
  /-- UNLOCK_MESSAGE_RECEIVE (R337). A host Unlock message sends an Unlock packet and frees the near lock. -/
  | unlockMessageReceive (p : Nat)
  /-- UNLOCK_PACKET_RECEIVE (R345). The owner's Unlock packet unlocks the PD port and issues the held packets. -/
  | unlockPacketReceive (p : Nat) (pkt : Packet)
  /-- LOCK_HOLD_EXPIRY (R346). LOCKED has been held for HOLD_LIMIT, so the far package breaks the lock. -/
  | lockHoldExpiry (p : Nat)
  /-- LOCK_BOUND_EXPIRY (R352). The lock bound expires, and the near package answers a surrogate, sends Unlock and frees its lock. -/
  | lockBoundExpiry
  /-- CONFIG_PACKET_RECEIVE (R357). The PD handler engine issues a Config packet as a Type 0 request on bus 1. -/
  | configPacketReceive (p : Nat) (pkt : Packet)
  /-- CONFIG_RETRY_TIMER (R357). After Request Retry Status, the configuration request is reissued every 10 µs. -/
  | configRetryTimer (p : Nat)
  /-- CONFIG_RETRY_TIMEOUT (R357). Half of S passes with only retries, and the request is answered TARGET-ABORT. -/
  | configRetryTimeout (p : Nat)
  /-- PORT_LOCK_WRITE (R347). A write of LOCKABLE or HOLD_LIMIT changes the lock allowance and republishes the bounds. -/
  | portLockWrite (m : Master) (p : Nat) (v : Word)
  /-- REQUEST_ADMIT (R371). The sluice evaluates a head request against the admission checks and either admits it, holds it or answers it at once. -/
  | requestAdmit (p : Nat) (q : Nat)
  /-- CALENDAR_ADVANCE (R372). At each 80 ns boundary, the calendar advances by one bucket, and held requests are evaluated again. -/
  | calendarAdvance
  /-- TRANSIT_LATE_ADMIT (R381). A transit packet held for 38 µs is admitted late into basin partition 0x0C. -/
  | transitLateAdmit (p : Nat) (q : Nat)
  /-- SURROGATE_EXPIRY (R392). S passes without an answer, so the near package answers SURROGATE and writes a surrogate record. -/
  | surrogateExpiry (p : Nat) (id : Nat)
  /-- TAG_QUARANTINE_EXPIRY (R394). 2 × S after a surrogate answer or a reset, a quarantined tag and its charges are released. -/
  | tagQuarantineExpiry (p : Nat) (tag : Nat)
  /-- PD_COMPLETION_TIMEOUT (R395). A request on a PD link has no completion after 2 × S, and Completion Timeout is logged. -/
  | pdCompletionTimeout (p : Nat) (tag : Nat)
  /-- FAR_SURROGATE_EXPIRY (R395). The far package answers SURROGATE S after its own receipt of the request. -/
  | farSurrogateExpiry (p : Nat) (tag : Nat)
  /-- BOUNDS_ANNOUNCE (R387). Within 10 µs of a change, the package announces its V values to its BF neighbours. -/
  | boundsAnnounce
  /-- BOUNDS_RECEIVE (R578). A complete BOUNDS set is received and applied to form R_out. -/
  | boundsReceive (p : Nat) (pkt : Packet)
  /-- CBOOK_LOWER_APPLY (R397). Once the calendars fit the new capacity, a planned lowering of Cbook is made. -/
  | cbookLowerApply (p : Nat)
  /-- SETTLE_EXPIRY (R399). SETTLE passes, and a published lengthening takes effect at the egress. -/
  | settleExpiry
  /-- LEDGER_BREACH (R437). An uncorrectable ledger word or a failed ledger check writes a breach record and halts the package. -/
  | ledgerBreach (scope : Nat) (index : Nat) (lost : Nat) (injected : Bool)
  /-- D2D_TALLY_EXCHANGE (R421). Every 1 ms, the die-to-die ends compare their in-flight figures and fail the interface on a mismatch. -/
  | d2dTallyExchange (x : Nat) (first : Nat) (second : Nat)
  /-- D2D_INTERFACE_FAIL (R48). A die-to-die interface fails, and traffic is relayed or the die is fenced. -/
  | d2dInterfaceFail (x : Nat)
  /-- D2D_INTERFACE_RETURN (R48). A failed die-to-die interface returns, and the direct route and its bounds are restored. -/
  | d2dInterfaceReturn (x : Nat)
  /-- TALLY_SELECT_WRITE (R439). A write of CL_TALLY_SEL or DIE_TALLY_SEL latches the selected ledger's values. -/
  | tallySelectWrite (m : Master) (die : Bool) (c : Nat) (index : Nat)
  /-- FAULT_RECORD_CLOSE (R463). A fault record closes once its actions are in force and 1 µs has passed, and its events are sent. -/
  | faultRecordClose (scope : Nat)
  /-- POP_WINDOW_READ (R465). A read of word 0 of a pop window removes the head item and latches the rest. -/
  | popWindowRead (m : ControlAccess) (w : PopWindow)
  /-- PORT_CONTAIN_TRIGGER (R471). TRIGGER in PORT_CONTAIN contains a PU or BF port. -/
  | portContainTrigger (m : Master) (p : Nat)
  /-- PORT_CONTAIN_RELEASE (R471). RELEASE in PORT_CONTAIN releases a contained PU or BF port. -/
  | portContainRelease (m : Master) (p : Nat)
  /-- WINDOW_CONTAIN_TRIGGER (R471). TRIGGER in CL_WCON_CTL contains window WINDOW. -/
  | windowContainTrigger (m : Master) (w : Nat)
  /-- WINDOW_CONTAIN_RELEASE (R471). RELEASE in CL_WCON_CTL releases window WINDOW. -/
  | windowContainRelease (m : Master) (w : Nat)
  /-- CLUSTER_FENCE_RELEASE (R481). A write of 1 to a bit of PKG_FENCE_CL releases the cluster, and its ports train. -/
  | clusterFenceRelease (m : Master) (mask : Word)
  /-- CLUSTER_RESET (R481). CMD 0x1 of PKG_SCOPE_RESET resets a cluster or an x16 pair and holds it in reset. -/
  | clusterReset (m : Master) (c : Nat)
  /-- REGION_RESET (R481). CMD 0x2 of PKG_SCOPE_RESET resets the four clusters of a region. -/
  | regionReset (m : Master) (g : Nat)
  /-- EVENT_RING_WRITE (R475). The PU handler moves a partition queue entry into the host ring and advances TAIL. -/
  | eventRingWrite (p : Nat)
  /-- EVENT_RING_HEAD_WRITE (R476). A host HEAD write that leaves entries unconsumed raises vector 1 again. -/
  | eventRingHeadWrite (p : Nat) (head : Nat)
  /-- EVENT_RING_DISABLE (R477). When ENABLE falls, HEAD and TAIL return to 0 and entries stay queued. -/
  | eventRingDisable (p : Nat)
  /-- INJECT_GO (R478). GO in EVT_INJECT starts an injection of N words, or refuses it outside M10. -/
  | injectGo (m : Master) (block : Nat) (v : Word)
  /-- INJECT_ABORT (R480). ABORT in EVT_INJECT sets REMAIN to 0. -/
  | injectAbort (m : Master) (block : Nat) (v : Word)
  /-- TOLL_STAGE_WRITE (R499). A write to word 0, 1 or 2 of an entry is stored in the master's staging buffer. -/
  | tollStageWrite (m : Master) (d : Nat) (no : Nat) (w : Nat) (v : Word)
  /-- TOLL_COMMIT (R500). A write to word 3 commits the entry, or is refused, and advances the epoch. -/
  | tollCommit (m : Master) (d : Nat) (no : Nat) (v : Word)
  /-- TOLL_COMMIT_RELEASE (R509). A commit waiting for its epoch value's live count to reach zero takes effect. -/
  | tollCommitRelease (d : Nat)
  /-- TOLL_STAGING_TIMEOUT (R499). After 10 ms without a word from its in-band holder, the shared staging buffer is freed. -/
  | tollStagingTimeout (d : Nat)
  /-- FENCE_GO (R510). GO in TOLL_FENCE snapshots every die's epoch and starts a fence. -/
  | fenceGo (m : Master)
  /-- FENCE_COMPLETE (R510). No live access older than the snapshot remains, so BUSY clears and cause 1 is raised. -/
  | fenceComplete
  /-- VIOLATION_RECORD_READ (R515). A read of TOLL_VLAST word 0 latches words 1–3 of the same record. -/
  | violationRecordRead (m : ControlAccess) (d : Nat)
  /-- CROSSING_RELEASE (R541). Both halves have released, so the crossing leaves crossing-reset and RESET_SEEN sets. -/
  | crossingRelease (x : Nat)
  /-- CLOCK_RETURN (R545). A stopped clock runs again, and a pending reset of its side takes effect. -/
  | clockReturn (x : Nat) (far : Bool)
  /-- I3C_WRITE_ACCESS (R553). An I3C write-access transfer performs a register write. -/
  | i3cWriteAccess (n : Nat) (bytes : List Byte)
  /-- I3C_READ_SETUP (R554). An I3C read setup starts a register read, replacing any pending one. -/
  | i3cReadSetup (n : Nat) (bytes : List Byte)
  /-- I3C_READ_RESULT (R554). An I3C read result returns the value once, or a status. -/
  | i3cReadResult (n : Nat) (ready : Bool)
  /-- I3C_RSTACT (R562). RSTACT with a target reset takes the I3C control port's link down. -/
  | i3cRstact (n : Nat) (targetReset : Bool)
  /-- I3C_RSTDAA (R562). RSTDAA takes the I3C control port's link down. -/
  | i3cRstdaa (n : Nat)
  /-- I3C_ENTDAA (R552). The I3C CCC ENTDAA is answered. -/
  | i3cEntdaa (n : Nat) (address : Nat)
  /-- I3C_SETDASA (R552). The I3C CCC SETDASA is answered. -/
  | i3cSetdasa (n : Nat) (static : Nat) (address : Nat)
  /-- I3C_GETPID (R552). The I3C CCC GETPID is answered. -/
  | i3cGetpid (n : Nat)
  /-- I3C_GETBCR (R552). The I3C CCC GETBCR is answered. -/
  | i3cGetbcr (n : Nat)
  /-- I3C_GETDCR (R552). The I3C CCC GETDCR is answered. -/
  | i3cGetdcr (n : Nat)
  /-- I3C_GETSTATUS (R552). The I3C CCC GETSTATUS is answered. -/
  | i3cGetstatus (n : Nat)
  /-- CP_EVENT_NOTIFY (R556). While its queue holds an entry, the control port raises MSI-X vector 0 or an IBI, within the rate limit. -/
  | cpEventNotify (n : Nat)
  /-- CP_LINK_DOWN (R562). A control port's link goes down, and hardware releases the semaphores it holds. -/
  | cpLinkDown (n : Nat)
  /-- CP_PERST_ASSERT (R683). Assertion of CPn_PERST_B holds the PCI Express control port's link down. -/
  | cpPerstAssert (n : Nat)
  /-- SEMAPHORE_READ (R560). An 8-byte read of SEMnn acquires the semaphore when it is free, or reports the holder. -/
  | semaphoreRead (m : ControlAccess) (no : Nat)
  /-- SEMAPHORE_WRITE (R561). A write by the holder releases the semaphore, and any other write advances FOREIGN_WRITES. -/
  | semaphoreWrite (m : Master) (no : Nat) (v : Word)
  /-- TOWPATH_TIMEOUT (R568). A towpath command not in its crossing within 100 µs is withdrawn and answered TIMEOUT. -/
  | towpathTimeout (c : Nat)
  /-- IBA_CS_READ (R577). GO with OP CS_READ in IBA_CTL sends an in-band register read. -/
  | ibaCsRead (n : Nat) (rank : Nat) (cls : Nat) (offset : Nat)
  /-- IBA_CS_WRITE (R577). GO with OP CS_WRITE in IBA_CTL sends an in-band register write. -/
  | ibaCsWrite (n : Nat) (rank : Nat) (cls : Nat) (offset : Nat)
  /-- IBA_RESPONSE_RECEIVE (R577). An in-band response completes the access with its MSTAT and data. -/
  | ibaResponseReceive (pkt : Packet)
  /-- IBA_TIMEOUT (R577). With no response within 10 ms, the access completes with MSTAT 0x4. -/
  | ibaTimeout (n : Nat)
  /-- CS_READ_RECEIVE (R573). A CS_READ is accepted and performed as a control-space access, or answered not accepted. -/
  | csReadReceive (p : Nat) (pkt : Packet)
  /-- CS_WRITE_RECEIVE (R575). A CS_WRITE is accepted and performed, or answered not accepted. -/
  | csWriteReceive (p : Nat) (pkt : Packet)
  /-- NOTICE_RECEIVE (R562). A NOTICE releases semaphores and staging buffers held by the named control port. -/
  | noticeReceive (pkt : Packet)
  /-- RECONCILE_PASS (R579). Every 10 ms, the keepers compare their shadow with the data path and record disagreements. -/
  | reconcilePass (d : Nat) (reports : List ShadowItem)
  /-- RECON_ADOPT (R581). ADOPT copies the data-path state of an item into the shadow. -/
  | reconAdopt (m : Master) (d : Nat) (item : Nat) (index : Nat) (all : Bool)
  /-- RECON_FORCE (R581). FORCE writes the shadow into the data path for an access-control or containment item, or is refused. -/
  | reconForce (m : Master) (d : Nat) (item : Nat) (index : Nat)
  /-- BRINGUP_COMPLETE (R585). Every non-standby port has reached Active or L0, and the package enters Fabric Join (M5). -/
  | bringupComplete
  /-- BRINGUP_TIMEOUT (R585). After 100 ms in M4, the package enters M5. -/
  | bringupTimeout
  /-- JOIN_COMPLETE (R609). Every Fabric Join condition holds, and the package enters M6 or M7. -/
  | joinComplete
  /-- CLAIM_SEND (R606). A CLAIM is sent on every Active BF port each round. -/
  | claimSend
  /-- CLAIM_RECEIVE (R607). A received CLAIM is forwarded and checked for rank and partition conflicts. -/
  | claimReceive (p : Nat) (pkt : Packet)
  /-- BIND_RECEIVE (R608). A BIND set is received and compared under R242. -/
  | bindReceive (p : Nat) (pkt : Packet)
  /-- CLAIM_WINDOW_EXPIRY (R609). 3 ms after M5 entry with every claim held, CLAIMS sets. -/
  | claimWindowExpiry
  /-- JOIN_WAIT_EXPIRY (R609). After 10 ms, BINDS or BOUNDS sets, and missing peers are handled as unmatched bindings or Burek peers. -/
  | joinWaitExpiry (bounds : Bool)
  /-- MODE_DRAIN (R589). Command DRAIN stops admission at every port and enters M9. -/
  | modeDrain (m : Master)
  /-- DRAIN_COMPLETE (R589). No admitted request remains, and DRAINED sets. -/
  | drainComplete
  /-- MODE_RESUME (R590). Command RESUME returns the package to its mode before M9. -/
  | modeResume (m : Master)
  /-- MODE_MAINT (R591). Command MAINT enters Maintenance (M10), with the writing port as debug master and MR6 extended. -/
  | modeMaint (m : Master)
  /-- MODE_RESET (R594). Command RESET with KEY 0xC3 schedules a package reset. -/
  | modeReset (m : Master) (key : Nat)
  /-- PACKAGE_RESET_EFFECT (R595). 10 µs after RESET, the package resets to its reset values and keeps only the store and fuses. -/
  | packageResetEffect
  /-- MEASUREMENT_EXTEND (R599). EXTEND in PKG_MEAS_CTL extends MR7 with PKG_MEAS_X0–X5. -/
  | measurementExtend (m : Master)
  /-- MEASUREMENT_SELECT (R600). A write of SEL latches MR(SEL) into PKG_MEAS_D0–D5. -/
  | measurementSelect (m : Master) (sel : Nat)
  /-- POWER_SAMPLE (R625). Every 100 µs, the die power controller samples power and temperatures. -/
  | powerSample (d : Nat) (power : Nat) (temps : List Nat)
  /-- PORT_WAKE (R618). WAKE in PORT_WAKE brings a standby port into service to train. -/
  | portWake (m : Master) (p : Nat)
  /-- GATHER_GO (R644). GO in PMON_GATHER makes a keeper gather a counter batch into the telemetry stream. -/
  | gatherGo (m : Master) (d : Nat) (v : Word)
  /-- GATHER_COMPLETE (R644). The batch-end item is put, and BUSY clears. -/
  | gatherComplete (d : Nat)
  /-- COUNTERS_ALL_ON (R643). ALL_ON sets ENABLE of every selected counter in one cycle. -/
  | countersAllOn (m : Master) (c : Nat)
  /-- COUNTERS_ALL_OFF (R643). ALL_OFF clears ENABLE of every cluster counter in one cycle. -/
  | countersAllOff (m : Master) (c : Nat)
  /-- CHAINED_COUNTER_READ (R636). A read of the even counter of a chained pair latches the odd counter into PMON_CL_HI. -/
  | chainedCounterRead (m : ControlAccess) (die : Bool) (c : Nat) (n : Nat)
  /-- NVS_BLOCK_READ (R651). CMD 0x1 of PKG_NVS_CTL reads a 64-byte store block into PKG_NVS_DATA0–7. -/
  | nvsBlockRead (m : Master) (block : Nat)
  /-- NVS_BLOCK_WRITE (R652). CMD 0x2 of PKG_NVS_CTL writes a 64-byte block, or is refused. -/
  | nvsBlockWrite (m : Master) (block : Nat)
  /-- NVS_OPERATION_COMPLETE (R651). A store block read or write completes, and STATUS is set. -/
  | nvsOperationComplete (ok : Bool)
  /-- TIME_PULSE (R686). TIME_PULSE rises at each 1 ms multiple of the lead die's fabric time. -/
  | timePulse
  /-- REGISTER_WRITE (R12). A write to a register without behaviour of its own acts by the access codes of its fields. -/
  | registerWrite (m : ControlAccess) (a : Nat) (v : Word)
  /-- ENGINE_ITEM_ARRIVAL (R70). An item reaches a waiting engine, is written to the inbox, and the handler starts at its entry word. -/
  | engineItemArrival (te : Nat) (item : EngineItem)
  /-- ENGINE_TIMER_EXPIRY (R71). The engine's timer expires, and a TIMER item is delivered. -/
  | engineTimerExpiry (te : Nat)
  /-- HANDLER_WATCHDOG (R73). A handler retires 1,048,576 instructions without a WAIT, and the item is abandoned. -/
  | handlerWatchdog (te : Nat)
  /-- ILLEGAL_INSTRUCTION (R73). A word with a reserved OP or field, a bad address or an illegal SEND or ISSUE abandons the item. -/
  | illegalInstruction (te : Nat)
  /-- PROGRAM_WORD_UNCORRECTABLE (R73). An uncorrectable program word halts the engine until its program is reloaded. -/
  | programWordUncorrectable (te : Nat)
  /-- WAIT (R70). The handler ends, and the next item is taken. -/
  | wait (te : Nat)
  /-- LI (R71). D takes IMM18, sign-extended. -/
  | li (te : Nat) (rd : Nat) (imm : BitVec 18)
  /-- LIX (R71). D takes D shifted left by 16, ORed with IMM18[15:0]. -/
  | lix (te : Nat) (rd : Nat) (imm : BitVec 18)
  /-- ADD (R71). D takes A + B, modulo 2^64. -/
  | add (te : Nat) (rd : Nat) (ra : Nat) (rb : Nat)
  /-- SUB (R71). D takes A − B, modulo 2^64. -/
  | sub (te : Nat) (rd : Nat) (ra : Nat) (rb : Nat)
  /-- AND (R71). D takes A AND B. -/
  | and (te : Nat) (rd : Nat) (ra : Nat) (rb : Nat)
  /-- OR (R71). D takes A OR B. -/
  | or (te : Nat) (rd : Nat) (ra : Nat) (rb : Nat)
  /-- XOR (R71). D takes A XOR B. -/
  | xor (te : Nat) (rd : Nat) (ra : Nat) (rb : Nat)
  /-- SHL (R71). D takes A shifted left by B[5:0]. -/
  | shl (te : Nat) (rd : Nat) (ra : Nat) (rb : Nat)
  /-- SHR (R71). D takes A shifted right by B[5:0], with zeros entering. -/
  | shr (te : Nat) (rd : Nat) (ra : Nat) (rb : Nat)
  /-- ADDI (R71). D takes A plus the sign-extended IMM14. -/
  | addi (te : Nat) (rd : Nat) (ra : Nat) (imm : BitVec 14)
  /-- ANDI (R71). D takes A AND the zero-extended IMM14. -/
  | andi (te : Nat) (rd : Nat) (ra : Nat) (imm : BitVec 14)
  /-- SHLI (R71). D takes A shifted left by IMM14[5:0]. -/
  | shli (te : Nat) (rd : Nat) (ra : Nat) (imm : BitVec 14)
  /-- SHRI (R71). D takes A shifted right by IMM14[5:0], with zeros entering. -/
  | shri (te : Nat) (rd : Nat) (ra : Nat) (imm : BitVec 14)
  /-- SWAP (R71). D takes A with its bytes reversed within each aligned element of 2, 4 or 8 bytes. -/
  | swap (te : Nat) (rd : Nat) (ra : Nat) (imm : BitVec 14)
  /-- LD8 (R71). D takes the zero-extended byte at A + IMM14. -/
  | ld8 (te : Nat) (rd : Nat) (ra : Nat) (imm : BitVec 14)
  /-- LD16 (R71). D takes the zero-extended aligned 2 bytes at A + IMM14. -/
  | ld16 (te : Nat) (rd : Nat) (ra : Nat) (imm : BitVec 14)
  /-- LD32 (R71). D takes the zero-extended aligned 4 bytes at A + IMM14. -/
  | ld32 (te : Nat) (rd : Nat) (ra : Nat) (imm : BitVec 14)
  /-- LD64 (R71). D takes the aligned 8 bytes at A + IMM14. -/
  | ld64 (te : Nat) (rd : Nat) (ra : Nat) (imm : BitVec 14)
  /-- ST8 (R71). The low byte of D is stored at A + IMM14. -/
  | st8 (te : Nat) (rd : Nat) (ra : Nat) (imm : BitVec 14)
  /-- ST16 (R71). The low 2 bytes of D are stored, aligned, at A + IMM14. -/
  | st16 (te : Nat) (rd : Nat) (ra : Nat) (imm : BitVec 14)
  /-- ST32 (R71). The low 4 bytes of D are stored, aligned, at A + IMM14. -/
  | st32 (te : Nat) (rd : Nat) (ra : Nat) (imm : BitVec 14)
  /-- ST64 (R71). D is stored as 8 aligned bytes at A + IMM14. -/
  | st64 (te : Nat) (rd : Nat) (ra : Nat) (imm : BitVec 14)
  /-- BEQ (R71). When A equals B, execution branches by the sign-extended IMM14. -/
  | beq (te : Nat) (ra : Nat) (rb : Nat) (imm : BitVec 14)
  /-- BNE (R71). When A differs from B, execution branches by IMM14. -/
  | bne (te : Nat) (ra : Nat) (rb : Nat) (imm : BitVec 14)
  /-- BLTU (R71). When A is below B, unsigned, execution branches by IMM14. -/
  | bltu (te : Nat) (ra : Nat) (rb : Nat) (imm : BitVec 14)
  /-- BGEU (R71). When A is at least B, unsigned, execution branches by IMM14. -/
  | bgeu (te : Nat) (ra : Nat) (rb : Nat) (imm : BitVec 14)
  /-- JMP (R71). The next word is IMM18[11:0]. -/
  | jmp (te : Nat) (imm : BitVec 18)
  /-- CALL (R71). G15 takes the return word, and execution jumps to IMM18[11:0]. -/
  | call (te : Nat) (imm : BitVec 18)
  /-- JR (R71). The next word is A[11:0]. -/
  | jr (te : Nat) (ra : Nat)
  /-- SEND (R72). The Burek packet in the outbox is sent as a local booking, stalling until it is admitted. -/
  | send (te : Nat) (ra : Nat)
  /-- ISSUE (R72). The PD-link request in the outbox is issued on bus 1 by a PD port's handler engine. -/
  | issue (te : Nat) (ra : Nat)
  /-- REPLY (R72). The inbox item is answered once with a status and data. -/
  | reply (te : Nat) (ra : Nat) (rb : Nat)
  /-- TIME (R71). D takes the present fabric time. -/
  | time (te : Nat) (rd : Nat)
  /-- TIMER (R71). The engine timer is armed for A ticks, or disarmed when A is 0. -/
  | timer (te : Nat) (ra : Nat)
  /-- AMO_FETCHADD (R71). The 8 bytes at A indivisibly take old + B, and D takes old. -/
  | amoFetchadd (te : Nat) (rd : Nat) (ra : Nat) (rb : Nat)
  /-- AMO_SWAP (R71). The 8 bytes at A indivisibly take B, and D takes old. -/
  | amoSwap (te : Nat) (rd : Nat) (ra : Nat) (rb : Nat)
  /-- AMO_CAS (R71). The 8 bytes at A indivisibly take B when old equals D, and D takes old. -/
  | amoCas (te : Nat) (rd : Nat) (ra : Nat) (rb : Nat)
  /-- RAISE (R71). Cause 6 of the engine's event source is set. -/
  | raise (te : Nat)
  /-- AON_CLOCK_RETURN (R675). AON_CLK has run again for 1 ms after a loss, and the package may leave the M1 hold it imposed. -/
  | aonClockReturn
  /-- REFERENCE_CLOCK_LOSS (R677). REFCLK_RGg becomes absent or leaves its limits, the region's cluster PLLs unlock, cause 1 of cluster source 41 sets and the ports do not train. -/
  | referenceClockLoss (g : Nat)
  /-- REFERENCE_CLOCK_RETURN (R677). REFCLK_RGg returns within its limits, the cluster PLLs lock and the cluster's ports can train. -/
  | referenceClockReturn (g : Nat)
  /-- REGION_FENCE_DRAIN_END (R623). The drain of a region fenced by reaction bit 5 ends, and the region is gated with its lanes Off. -/
  | regionFenceDrainEnd (g : Nat)
  /-- FLOW_CONTROL_UPDATE (R376). A PCI Express link partner returns flow-control credits, the egress credit rises and held requests are evaluated again. -/
  | flowControlUpdate (p : Nat) (kind : Nat) (header : Nat) (data : Nat)
  /-- PCIE_RECOVERY (R396). A PCI Express port enters Recovery for a cause other than lane loss, RECOVERIES advances and a width or rate change republishes with code 0x3. -/
  | pcieRecovery (p : Nat) (width : Nat) (rate : Nat)
  /-- ASPM_L1_ENTRY (R225). A PCI Express port whose PM_ALLOW bit 1 is set enters ASPM L1 when the partner's configuration enables it and no partition request is in flight. -/
  | aspmL1Entry (p : Nat)
  /-- ASPM_L1_EXIT (R225). The link partner takes a PCI Express port out of ASPM L1 back to L0. -/
  | aspmL1Exit (p : Nat)
  /-- CP_LINK_UP (R683). The PCI Express link of a control port comes up again, LINK_UP sets and the port can once more hold semaphores. -/
  | cpLinkUp (n : Nat)
  /-- BASIN_PARTITION_FULL (R450). A basin partition has stayed full for 1 ms, and cause 3 of die source 1 sets. -/
  | basinPartitionFull (d : Nat) (part : Nat)
  /-- TIME_BASE_OUT_OF_STEP (R450). A die time-base master drifts more than 1 ns from the lead die's, or a cluster copy goes out of step, and the die source 6 or cluster source 41 cause sets. -/
  | timeBaseOutOfStep (cluster : Bool) (no : Nat)
  deriving DecidableEq, Repr

end Sys2Proof
end

