-- ==== Sys2Proof/Machine/Tab.lean ====
section
/-! DEFINITION. Sparse tables in one canonical form: a list of (key, value) pairs, keys strictly rising, no entry equal to
what an unlisted key reads as. Registers, byte memories, ledgers and per-port states are held so; equal tables are equal lists.
Beside them, the bit-field operations of a register word. -/

namespace Sys2Proof.Machine

/-- A sparse table from numbers to values. -/
abbrev Tab (α : Type) := List (Nat × α)

/-- The value at a key; a key that is not listed reads as its default. -/
def tabGet {α : Type} (dflt : Nat → α) : Tab α → Nat → α
  | [], k => dflt k
  | (k', v) :: t, k => if k' = k then v else tabGet dflt t k

/-- Put one entry in its place in rising order. -/
def tabInsert {α : Type} : Tab α → Nat → α → Tab α
  | [], k, v => [(k, v)]
  | (k', v') :: t, k, v => if k < k' then (k, v) :: (k', v') :: t else (k', v') :: tabInsert t k v

/-- Remove a key. -/
def tabErase {α : Type} : Tab α → Nat → Tab α
  | [], _ => []
  | (k', v') :: t, k => if k' = k then tabErase t k else (k', v') :: tabErase t k

/-- Write a value at a key, keeping the canonical form: the default is never listed. -/
def tabPut {α : Type} [DecidableEq α] (dflt : Nat → α) (t : Tab α) (k : Nat) (v : α) : Tab α :=
  if v = dflt k then tabErase t k else tabInsert (tabErase t k) k v

/-- Every key of the table is above k. -/
def tabAbove {α : Type} (k : Nat) : Tab α → Bool
  | [] => true
  | (k', _) :: t => decide (k < k') && tabAbove k t

/-- The canonical form of a table. -/
def tabWf {α : Type} [DecidableEq α] (dflt : Nat → α) : Tab α → Bool
  | [] => true
  | (k, v) :: t => decide (v ≠ dflt k) && tabAbove k t && tabWf dflt t

/-- Bits [lo + width - 1 : lo] of a register word, as a number. -/
def getBits (w : Word) (lo width : Nat) : Nat := (w.extractLsb' lo width).toNat

/-- The register word with bits [lo + width - 1 : lo] replaced by the low bits of v. -/
def setBits (w : Word) (lo width v : Nat) : Word :=
  let mask : Word := BitVec.ofNat 64 (2 ^ width - 1) <<< lo
  (w &&& ~~~mask) ||| ((BitVec.ofNat 64 v <<< lo) &&& mask)

/-- Least significant byte first, as the store and the images hold multi-byte fields (R75). -/
def leBytes : Nat → Nat → List Byte
  | 0, _ => []
  | n + 1, v => BitVec.ofNat 8 v :: leBytes n (v / 256)

/-- The number a list of bytes spells, least significant byte first (R75). -/
def leNat : List Byte → Nat
  | [] => 0
  | b :: bs => b.toNat + 256 * leNat bs

/-- Most significant byte first, as PCI Express and packet payload elements hold values (R200). -/
def beBytes (n v : Nat) : List Byte := (leBytes n v).reverse

/-- The number a list of bytes spells, most significant byte first. -/
def beNat (bs : List Byte) : Nat := leNat bs.reverse

/-- A sum that stops at the field's greatest value. -/
def satAdd (width a b : Nat) : Nat := min (a + b) (2 ^ width - 1)

/-- Bit i of a number. -/
def bit (n i : Nat) : Bool := n.testBit i

/-- A number with bit i set. -/
def withBit (n i : Nat) : Nat := n ||| 2 ^ i

/-- A number with bit i clear. -/
def withoutBit (n i : Nat) : Nat := if n.testBit i then n - 2 ^ i else n

/-- Quotient rounded up. -/
def ceilDiv (a b : Nat) : Nat := if b = 0 then 0 else (a + b - 1) / b

end Sys2Proof.Machine
end

