-- ==== Sys2Proof/Machine/Coding.lean ====
section
/-! DEFINITION. The Burek line coding (R116 to R126) and the flit CRC (R173), as computations on bits. -/

namespace Sys2Proof.Machine

/-! ### Blocks (R118 to R120) -/

/-- Bits of a number, most significant first. -/
def bitsMsb (n v : Nat) : List Bool := (List.range n).map fun i => v.testBit (n - 1 - i)

/-- The number that bits spell, most significant first. -/
def bitsValue (b : List Bool) : Nat := b.foldl (fun n x => 2 * n + if x then 1 else 0) 0

/-- The 66 bits of a block in transmission order, as a number: header, then the element's most significant bit first (R118, R119). A
control block has header 0b10 and a data block 0b01. -/
def blockOfElement (control : Bool) (e : Word) : Nat := (if control then 2 else 1) * 2 ^ 64 + e.toNat

/-- Header of a block. -/
def blockHeader (b : Nat) : Nat := b / 2 ^ 64 % 4

/-- Element of a block. -/
def blockElement (b : Nat) : Word := BitVec.ofNat 64 b

/-- Block types of Table 03-3. -/
def tyIdle : Nat := 0x0F
def tyTrain : Nat := 0x33
def tyTsync : Nat := 0x55
def tyBond : Nat := 0x66
def tyLanemap : Nat := 0x99
def tyDoze : Nat := 0xAA
def tyWake : Nat := 0xCC

/-- A control element of a type with content (R120). -/
def controlElement (ty content : Nat) : Word := BitVec.ofNat 64 (ty * 2 ^ 56 + content % 2 ^ 56)

/-- The type of a control element. -/
def elementType (e : Word) : Nat := getBits e 56 8

/-- A block error of R121, the slot rule aside. -/
def badBlock (b : Nat) : Bool :=
  let h := blockHeader b
  h = 0 || h = 3 || (h = 2 && ! [tyIdle, tyTrain, tyTsync, tyBond, tyLanemap, tyDoze, tyWake].contains (elementType (blockElement b)))

/-- A slot mixes data and control blocks (R128). -/
def mixedSlot (bs : List Nat) : Bool := bs.any (fun b => blockHeader b = 1) && bs.any fun b => blockHeader b = 2

/-- Block errors of a slot: each bad block, and one for a slot that mixes (R121, R128). -/
def slotErrors (bs : List Nat) : Nat := (bs.filter badBlock).length + if mixedSlot bs then 1 else 0

/-- The slots of a codeword that the receiver treats as in error: bit 0 the first, bit 1 the second (R128). -/
def slotFlags (bs : List Nat) : Nat := (if mixedSlot (bs.take 40) then 1 else 0) + if mixedSlot (bs.drop 40) then 2 else 0

/-- A slot is idle (R143). -/
def idleSlot (bs : List Nat) : Bool := bs.all fun b => blockHeader b = 2 && elementType (blockElement b) = tyIdle

/-! ### Scrambler (R122): the state holds the last 58 scrambled bits, the latest in bit 0 -/

/-- Scramble bits. -/
def scrambleBits : Nat → List Bool → List Bool × Nat
  | st, [] => ([], st)
  | st, d :: ds =>
    let o := (d ^^ st.testBit 38) ^^ st.testBit 57
    let (r, st') := scrambleBits ((2 * st + if o then 1 else 0) % 2 ^ 58) ds
    (o :: r, st')

/-- Descramble bits. -/
def descrambleBits : Nat → List Bool → List Bool × Nat
  | st, [] => ([], st)
  | st, x :: xs =>
    let d := (x ^^ st.testBit 38) ^^ st.testBit 57
    let (r, st') := descrambleBits ((2 * st + if x then 1 else 0) % 2 ^ 58) xs
    (d :: r, st')

/-- Scramble the payloads of blocks; headers pass (R122). -/
def scrambleBlocks : Nat → List Nat → List Nat × Nat
  | st, [] => ([], st)
  | st, b :: bs =>
    let (p, st) := scrambleBits st (bitsMsb 64 (b % 2 ^ 64))
    let (r, st) := scrambleBlocks st bs
    ((blockHeader b * 2 ^ 64 + bitsValue p) :: r, st)

/-- Descramble the payloads of blocks. -/
def descrambleBlocks : Nat → List Nat → List Nat × Nat
  | st, [] => ([], st)
  | st, b :: bs =>
    let (p, st) := descrambleBits st (bitsMsb 64 (b % 2 ^ 64))
    let (r, st) := descrambleBlocks st bs
    ((blockHeader b * 2 ^ 64 + bitsValue p) :: r, st)

/-! ### GF(2^10) by x^10 + x^3 + 1 and RS(544,528) (R123, R124) -/

/-- Multiply by the root α. -/
def gfDouble (a : Nat) : Nat := if a.testBit 9 then ((2 * a) ^^^ 0x409) % 1024 else 2 * a

/-- Multiply in the field, over n bits of b. -/
def gfMulFrom : Nat → Nat → Nat → Nat
  | 0, _, _ => 0
  | n + 1, a, b => (if b.testBit 0 then a else 0) ^^^ gfMulFrom n (gfDouble a) (b / 2)

/-- Multiply in the field. -/
def gfMul (a b : Nat) : Nat := gfMulFrom 10 a b

/-- α to a power. -/
def gfPow : Nat → Nat
  | 0 => 1
  | n + 1 => gfDouble (gfPow n)

/-- The inverse: the 1,022nd power, by squaring. -/
def gfInv (a : Nat) : Nat :=
  ((List.range 9).foldl (fun (x : Nat × Nat) _ => let s := gfMul x.1 x.1; (s, gfMul x.2 s)) (a, 1)).2

/-- A polynomial of coefficients from the highest degree, evaluated (Horner). -/
def gfEval (p : List Nat) (x : Nat) : Nat := p.foldl (fun v c => gfMul v x ^^^ c) 0

/-- Coefficients of g(x), highest degree first (R123). -/
def rsGenerator : List Nat :=
  (List.range 16).foldl (fun g i =>
    let a := gfPow i
    List.zipWith (fun u v => u ^^^ v) (g ++ [0]) (0 :: g.map (gfMul a))) [1]

/-- One step of the division by g(x). -/
def rsStep (g r : List Nat) (d : Nat) : List Nat :=
  let f := d ^^^ r.headD 0
  List.zipWith (fun u v => u ^^^ gfMul f v) (r.tail ++ [0]) (g.tail)

/-- The 16 parity symbols of 528 data symbols, highest degree first (R124). -/
def rsParity (data : List Nat) : List Nat := data.foldl (rsStep rsGenerator) (List.replicate 16 0)

/-- The 16 syndromes of a received word. -/
def rsSyndromes (r : List Nat) : List Nat := (List.range 16).map fun j => gfEval r (gfPow j)

/-- State of the Berlekamp–Massey search for the error locator, coefficients from degree 0. -/
structure Locator where
  c : List Nat
  b : List Nat
  l : Nat
  m : Nat
  d : Nat
  deriving DecidableEq, Repr

/-- p − f · x^m · q, coefficients from degree 0. -/
def gfAxpy (p q : List Nat) (f m : Nat) : List Nat :=
  let s := List.replicate m 0 ++ q.map (gfMul f)
  let n := max p.length s.length
  (List.range n).map fun i => p.getD i 0 ^^^ s.getD i 0

/-- One step of the search. -/
def Locator.step (syn : List Nat) (x : Locator) (n : Nat) : Locator :=
  let d := (List.range (x.l + 1)).foldl (fun v i => v ^^^ gfMul (x.c.getD i 0) (syn.getD (n - i) 0)) 0
  if d = 0 then { x with m := x.m + 1 }
  else
    let f := gfMul d (gfInv x.d)
    if 2 * x.l ≤ n then { c := gfAxpy x.c x.b f x.m, b := x.c, l := n + 1 - x.l, m := 1, d := d }
    else { x with c := gfAxpy x.c x.b f x.m, m := x.m + 1 }

/-- Evaluate coefficients from degree 0. -/
def gfEvalLow (p : List Nat) (x : Nat) : Nat := gfEval p.reverse x

/-- The decoder of R125: the corrected word and the number of symbols corrected, or none when more than 8 symbols are wrong. -/
def rsDecode (r : List Nat) : Option (List Nat × Nat) :=
  let syn := rsSyndromes r
  if syn.all fun x => decide (x = 0) then some (r, 0)
  else
    let x := (List.range 16).foldl (Locator.step syn) { c := [1], b := [1], l := 0, m := 1, d := 1 }
    -- Ω(x) = S(x) σ(x) mod x^16, and σ'(x)
    let omega := (List.range 16).map fun n => (List.range (n + 1)).foldl (fun v i => v ^^^ gfMul (x.c.getD i 0) (syn.getD (n - i) 0)) 0
    let deriv := (List.range x.c.length).map fun i => if i % 2 = 0 then x.c.getD (i + 1) 0 else 0
    let fixed := (List.range 544).map fun k =>
      let pos := gfPow (543 - k)
      let inv := gfInv pos
      if gfEvalLow x.c inv = 0 then
        (r.getD k 0 ^^^ gfMul pos (gfMul (gfEvalLow omega inv) (gfInv (gfEvalLow deriv inv))), 1)
      else (r.getD k 0, 0)
    let n := fixed.foldl (fun a y => a + y.2) 0
    let w := fixed.map (·.1)
    if decide (x.l ≤ 8) && decide (n = x.l) && (rsSyndromes w).all (fun y => decide (y = 0)) then some (w, n) else none

/-- Cut bits into groups of n. -/
def chunks {α : Type} (n : Nat) : Nat → List α → List (List α)
  | 0, _ => []
  | k + 1, l => l.take n :: chunks n k (l.drop n)

/-- The codeword of 80 scrambled blocks (R123, R124). -/
def encodeCodeword (blocks : List Nat) : List Nat :=
  let data := (chunks 10 528 (blocks.flatMap (bitsMsb 66))).map bitsValue
  data ++ rsParity data

/-- The 80 scrambled blocks of a corrected codeword. -/
def codewordBlocks (w : List Nat) : List Nat := (chunks 66 80 ((w.take 528).flatMap (bitsMsb 10))).map bitsValue

/-! ### PAM4 (R116, R117) -/

/-- Table 03-2. -/
def pam4 (a b : Bool) : Int := match a, b with
  | false, false => -3
  | false, true => -1
  | true, true => 1
  | true, false => 3

/-- The symbols of a codeword on the line. -/
def pam4Levels : List Bool → List Int
  | a :: b :: rest => pam4 a b :: pam4Levels rest
  | _ => []

/-- Every level of a 10-bit symbol inverted: the first bit of each pair flips (R117). -/
def invertSymbol (s : Nat) : Nat := s ^^^ 0b1010101010

/-! ### CRC-64 of a flit (R173) -/

/-- One bit of the CRC. -/
def crc64Bit (c : Nat) (b : Bool) : Nat :=
  let f := c.testBit 63 ^^ b
  let c := 2 * c % 2 ^ 64
  if f then c ^^^ 0x42F0E1EBA9EA3693 else c

/-- CRC-64 over bits in order. -/
def crc64 (bits : List Bool) : Nat := bits.foldl crc64Bit (2 ^ 64 - 1) ^^^ (2 ^ 64 - 1)

/-- Element 39 of a flit, from its elements 0 to 38. -/
def flitCrc (els : List Word) : Word := BitVec.ofNat 64 (crc64 (els.flatMap fun e => bitsMsb 64 e.toNat))

end Sys2Proof.Machine
end

