-- ==== Sys2Proof/Machine/Digest.lean ====
section
/-! DEFINITION. The checks over bytes that the spec names: CRC-32C (R77, Tables 02-13 and 10-9), the flit CRC of R173 and SHA-384
(R76, R599, FIPS 180-4). -/

namespace Sys2Proof.Machine

/-! ### CRC-32C -/

/-- One bit of a reflected CRC with the given polynomial. -/
def crcShift (poly v : Nat) : Nat := if v.testBit 0 then (v / 2) ^^^ poly else v / 2

/-- One byte of a reflected CRC. -/
def crcByte (poly v : Nat) (b : Byte) : Nat :=
  crcShift poly (crcShift poly (crcShift poly (crcShift poly
    (crcShift poly (crcShift poly (crcShift poly (crcShift poly (v ^^^ b.toNat))))))))

/-- CRC-32C over bytes: the Castagnoli polynomial, reflected, initial value and final XOR all ones. -/
def crc32c (bs : List Byte) : Nat := (bs.foldl (crcByte 0x82F63B78) 0xFFFFFFFF) ^^^ 0xFFFFFFFF

/-! ### SHA-384 -/

/-- The round constants of SHA-384 (FIPS 180-4). -/
def shaK : List Word :=
  [0x428A2F98D728AE22, 0x7137449123EF65CD, 0xB5C0FBCFEC4D3B2F, 0xE9B5DBA58189DBBC,
   0x3956C25BF348B538, 0x59F111F1B605D019, 0x923F82A4AF194F9B, 0xAB1C5ED5DA6D8118,
   0xD807AA98A3030242, 0x12835B0145706FBE, 0x243185BE4EE4B28C, 0x550C7DC3D5FFB4E2,
   0x72BE5D74F27B896F, 0x80DEB1FE3B1696B1, 0x9BDC06A725C71235, 0xC19BF174CF692694,
   0xE49B69C19EF14AD2, 0xEFBE4786384F25E3, 0x0FC19DC68B8CD5B5, 0x240CA1CC77AC9C65,
   0x2DE92C6F592B0275, 0x4A7484AA6EA6E483, 0x5CB0A9DCBD41FBD4, 0x76F988DA831153B5,
   0x983E5152EE66DFAB, 0xA831C66D2DB43210, 0xB00327C898FB213F, 0xBF597FC7BEEF0EE4,
   0xC6E00BF33DA88FC2, 0xD5A79147930AA725, 0x06CA6351E003826F, 0x142929670A0E6E70,
   0x27B70A8546D22FFC, 0x2E1B21385C26C926, 0x4D2C6DFC5AC42AED, 0x53380D139D95B3DF,
   0x650A73548BAF63DE, 0x766A0ABB3C77B2A8, 0x81C2C92E47EDAEE6, 0x92722C851482353B,
   0xA2BFE8A14CF10364, 0xA81A664BBC423001, 0xC24B8B70D0F89791, 0xC76C51A30654BE30,
   0xD192E819D6EF5218, 0xD69906245565A910, 0xF40E35855771202A, 0x106AA07032BBD1B8,
   0x19A4C116B8D2D0C8, 0x1E376C085141AB53, 0x2748774CDF8EEB99, 0x34B0BCB5E19B48A8,
   0x391C0CB3C5C95A63, 0x4ED8AA4AE3418ACB, 0x5B9CCA4F7763E373, 0x682E6FF3D6B2B8A3,
   0x748F82EE5DEFB2FC, 0x78A5636F43172F60, 0x84C87814A1F0AB72, 0x8CC702081A6439EC,
   0x90BEFFFA23631E28, 0xA4506CEBDE82BDE9, 0xBEF9A3F7B2C67915, 0xC67178F2E372532B,
   0xCA273ECEEA26619C, 0xD186B8C721C0C207, 0xEADA7DD6CDE0EB1E, 0xF57D4F7FEE6ED178,
   0x06F067AA72176FBA, 0x0A637DC5A2C898A6, 0x113F9804BEF90DAE, 0x1B710B35131C471B,
   0x28DB77F523047D84, 0x32CAAB7B40C72493, 0x3C9EBE0A15C9BEBC, 0x431D67C49C100D4C,
   0x4CC5D4BECB3E42B6, 0x597F299CFC657E2A, 0x5FCB6FAB3AD6FAEC, 0x6C44198C4A475817]

/-- The initial hash value of SHA-384 (FIPS 180-4). -/
def shaInit : List Word :=
  [0xCBBB9D5DC1059ED8, 0x629A292A367CD507, 0x9159015A3070DD17, 0x152FECD8F70E5939,
   0x67332667FFC00B31, 0x8EB44A8768581511, 0xDB0C2E0D64F98FA7, 0x47B5481DBEFA4FA4]

/-- Word i of a message block or schedule. -/
def wordAt (l : List Word) (i : Nat) : Word := l.getD i 0

/-- One new word of the message schedule from the last sixteen. -/
def shaExpand (w : List Word) : Word :=
  let a := wordAt w 14
  let b := wordAt w 1
  let s1 := a.rotateRight 19 ^^^ a.rotateRight 61 ^^^ (a >>> 6)
  let s0 := b.rotateRight 1 ^^^ b.rotateRight 8 ^^^ (b >>> 7)
  s1 + wordAt w 9 + s0 + wordAt w 0

/-- One round over the eight working words. -/
def shaRound (v : List Word) (k w : Word) : List Word :=
  match v with
  | [a, b, c, d, e, f, g, h] =>
    let t1 := h + (e.rotateRight 14 ^^^ e.rotateRight 18 ^^^ e.rotateRight 41) + ((e &&& f) ^^^ (~~~e &&& g)) + k + w
    let t2 := (a.rotateRight 28 ^^^ a.rotateRight 34 ^^^ a.rotateRight 39) + ((a &&& b) ^^^ (a &&& c) ^^^ (b &&& c))
    [t1 + t2, a, b, c, d + t1, e, f, g]
  | _ => v

/-- The eighty rounds: the constants left, the sixteen schedule words in hand, the working words. -/
def shaRounds : List Word → List Word → List Word → List Word
  | [], _, v => v
  | k :: ks, w, v => shaRounds ks (w.drop 1 ++ [shaExpand w]) (shaRound v k (wordAt w 0))

/-- Eight bytes, most significant first. -/
def beWord (bs : List Byte) : Word := BitVec.ofNat 64 (beNat bs)

/-- The sixteen words of a 128-byte block. -/
def blockWords (bs : List Byte) : List Word := (List.range 16).map fun i => beWord ((bs.drop (8 * i)).take 8)

/-- The compression of one block. -/
def shaBlock (h : List Word) (bs : List Byte) : List Word := List.zipWith (· + ·) h (shaRounds shaK (blockWords bs) h)

/-- n blocks of a padded message. -/
def shaBlocks : Nat → List Word → List Byte → List Word
  | 0, h, _ => h
  | n + 1, h, bs => shaBlocks n (shaBlock h (bs.take 128)) (bs.drop 128)

/-- The padded message: 0x80, zeros, and the length in bits in sixteen bytes. -/
def shaPad (bs : List Byte) : List Byte :=
  bs ++ [0x80] ++ List.replicate ((239 - bs.length % 128) % 128) 0 ++ beBytes 16 (8 * bs.length)

/-- SHA-384 of bytes: 48 bytes. -/
def sha384 (bs : List Byte) : List Byte :=
  let m := shaPad bs
  ((shaBlocks (m.length / 128) shaInit m).take 6).flatMap fun w => beBytes 8 w.toNat

end Sys2Proof.Machine
end

