-- ==== Sys2Proof/Config.lean ====
section
/-! DEFINITION. What an implementation fixes and the spec does not give: the free values of the model. None has a body, so no
proof can see what it is. -/

namespace Sys2Proof.Config
open Machine

/-- A value the spec says results without saying which: the n-th free 64-bit value (log entry 10). -/
opaque freeValue : Nat → BitVec 64

/-- A free 48-byte value, for a digest or signature half whose key material the spec does not give (log entry 11). -/
opaque freeDigest : Nat → List (BitVec 8)

/-- The ECDSA P-384 signature, r then s, that the attestation root makes over an SPDM transcript with the device identity
key (R601, R602). The key is fused and readable by no master, so the value is free (log entry 11). -/
opaque deviceSignature : List (BitVec 8) → List (BitVec 8)

/-- The certificate chain of SPDM slot 0, stored at manufacture (R602); its bytes are not in the spec (log entry 11). -/
opaque certificateChain : List (BitVec 8)

/-- The byte that stands in a completion where the request did not enable the byte (R280 moves enabled bytes only), by its
address (log entry 10). -/
opaque disabledByte : Nat → BitVec 8

/-- What an emulated function's configuration register reads when nothing has written it, for the registers whose place or content
the spec does not give: function number and register number (log entry 12). -/
opaque emulatedReset : Nat → Nat → Nat

/-- The register number at which the n-th capability of an emulated function stands: 0 PCI Express, 1 power management, 2 MSI-X, 3 AER, 4 ACS, 5 DPC,
6 DOE, 7 the event ring DVSEC. The spec names the capabilities and not their places (log entry 12). -/
opaque capability : Nat → Nat

/-- The credits of type i (PH, PD, NPH, NPD, CplH, CplD) that PCI Express port p advertises to its link partner; 0 stands for infinite (R407, R409, Table 09-1). The
spec does not give them (log entry 85). -/
opaque advertisedCredits : Nat → Nat → Nat

/-- The Flit-mode form of a TLP header in non-Flit form, and the non-Flit form of a header in Flit-mode form: the standard's, not the spec's (R207, log
entry 78). -/
opaque flitForm : List (BitVec 8) → List (BitVec 8)
/-- The non-Flit form of a header. -/
opaque plainForm : List (BitVec 8) → List (BitVec 8)

/-- The device behind a PD port of another package, by its fabric ID: the spec does not say how this package learns its functions (log
entry 12). -/
opaque remoteDevice : Nat → DeviceInfo

/-- A byte of the firmware bank image that both banks hold at manufacture (R6), by its place in the bank; its SVN and VERSION, and the
SHA-384 digests of its stages (log entry 15). -/
opaque factoryFirmware : Nat → BitVec 8
/-- SVN of the firmware of manufacture. -/
opaque factorySvn : Nat
/-- VERSION of the firmware of manufacture. -/
opaque factoryVersion : Nat
/-- Stage digests of the firmware of manufacture. -/
opaque factoryStages : List (List (BitVec 8))

/-- How many sample sets the telemetry stream of a die's power controller holds, which the spec does not give (R625, log entry 45). -/
opaque powerStream : Nat

/-- The 48-bit Provisioned ID of control port n under the I3C strap, its Bus Characteristics Register and its Device Characteristics Register, which the
spec does not give (log entry 50). -/
opaque i3cPid : Nat → BitVec 48
/-- Bus Characteristics Register. -/
opaque i3cBcr : Nat → BitVec 8
/-- Device Characteristics Register. -/
opaque i3cDcr : Nat → BitVec 8

end Sys2Proof.Config
end

