-- ==== Sys2Proof/Machine/Regs.lean ====
section
/-! DEFINITION. The registers of the control space, with the address that Tables 17-1 to 17-10 give each, and the
field maps of every chapter: for each field its lowest bit, its width, its access code (Table 00-3) and its reset value. -/

namespace Sys2Proof.Machine

/-- The access codes of Table 00-3. -/
inductive Access where
  | ro | rw | rwl | w1c | w1s | rc | wo | rws
  deriving DecidableEq, Repr

/-- One field of a register where it lies: the register's control-space offset, the field's lowest bit and its width. -/
structure FieldRef where
  addr : Nat
  lo : Nat
  width : Nat
  deriving DecidableEq, Repr

/-- One row of a field map. -/
structure FieldRow where
  lo : Nat
  width : Nat
  access : Access
  reset : Nat
  deriving DecidableEq, Repr

/-- An array of registers of one field map: `count` registers, `stride` bytes apart, from `base`. -/
structure RegRow where
  base : Nat
  stride : Nat
  count : Nat
  fields : List FieldRow
  deriving DecidableEq, Repr

/-- Die d's block (R646). An index beyond the last, here and below, gives an offset that the map leaves unassigned. -/
def dieBase (d : Nat) : Nat := 0x10000000 + min d 4 * 0x08000000
/-- The block of cluster c of the package (Table 01-5). -/
def clusterBase (c : Nat) : Nat := dieBase (c / 16) + 0x02000000 + (c % 16) * 0x00100000
/-- The registers of lane l of the package (Table 17-9). -/
def laneBase (l : Nat) : Nat := clusterBase (l / 8) + 0x1000 + 0x100 * (l % 8)
/-- The registers of port p of the package (Table 17-9). -/
def portBase (p : Nat) : Nat := clusterBase (p / 4) + 0x2000 + 0x200 * (p % 4)
/-- The registers of window w, by global number (Table 17-9). -/
def windowBase (w : Nat) : Nat := clusterBase (w / 1024) + 0x10000 + 64 * (w % 1024)
/-- The registers of control port CPn (Table 17-3). -/
def cpBase (n : Nat) : Nat := if n < 2 then 0x6000 + 0x800 * n else 0x8800
/-- The registers of event source e (R449, Tables 17-2, 17-7, 17-9 and 17-10). -/
def eventBase (e : Nat) : Nat :=
  if e < 4096 then clusterBase (e / 64) + 0x3000 + 32 * (e % 64)
  else if e < 4544 then dieBase ((e - 4096) / 112) + 0x1000 + 32 * ((e - 4096) % 112)
  else 0x9000 + 32 * min (e - 4544) 64

/-- PKG_ID (Table 17-4). -/
def PKG_ID.addr : Nat := 0x0
def PKG_ID.VENDOR_ID : FieldRef := ⟨PKG_ID.addr, 48, 16⟩
def PKG_ID.PART : FieldRef := ⟨PKG_ID.addr, 40, 8⟩
def PKG_ID.REV_ID : FieldRef := ⟨PKG_ID.addr, 32, 8⟩
def PKG_ID.STEPPING : FieldRef := ⟨PKG_ID.addr, 16, 16⟩
def PKG_ID.SBS_FORMAT : FieldRef := ⟨PKG_ID.addr, 8, 8⟩
def PKG_ID.MAP_VER : FieldRef := ⟨PKG_ID.addr, 0, 8⟩
def PKG_ID.fields : List FieldRow :=
  [⟨48, 16, .ro, 0x1F0D⟩,
   ⟨40, 8, .ro, 0x1⟩,
   ⟨32, 8, .ro, 0x2⟩,
   ⟨16, 16, .ro, 0x4101⟩,
   ⟨8, 8, .ro, 0x1⟩,
   ⟨0, 8, .ro, 0x1⟩]

/-- PKG_SERIAL (Table 17-5). -/
def PKG_SERIAL.addr : Nat := 0x8
def PKG_SERIAL.SERIAL : FieldRef := ⟨PKG_SERIAL.addr, 0, 64⟩
def PKG_SERIAL.fields : List FieldRow :=
  [⟨0, 64, .ro, 0x0⟩]

/-- PKG_LEAD (Table 01-4). -/
def PKG_LEAD.addr : Nat := 0x10
def PKG_LEAD.ELECT_COUNT : FieldRef := ⟨PKG_LEAD.addr, 40, 8⟩
def PKG_LEAD.DIE_HEALTHY : FieldRef := ⟨PKG_LEAD.addr, 32, 4⟩
def PKG_LEAD.DIE_PRESENT : FieldRef := ⟨PKG_LEAD.addr, 28, 4⟩
def PKG_LEAD.LEAD_VALID : FieldRef := ⟨PKG_LEAD.addr, 8, 1⟩
def PKG_LEAD.LEAD_KEEPER : FieldRef := ⟨PKG_LEAD.addr, 0, 3⟩
def PKG_LEAD.fields : List FieldRow :=
  [⟨40, 8, .ro, 0x0⟩,
   ⟨32, 4, .ro, 0x0⟩,
   ⟨28, 4, .ro, 0xF⟩,
   ⟨8, 1, .ro, 0x0⟩,
   ⟨0, 3, .ro, 0x0⟩]

/-- PKG_MODE (Table 14-10). -/
def PKG_MODE.addr : Nat := 0x1000
def PKG_MODE.MODE : FieldRef := ⟨PKG_MODE.addr, 60, 4⟩
def PKG_MODE.PREV_MODE : FieldRef := ⟨PKG_MODE.addr, 56, 4⟩
def PKG_MODE.LAST_RESET : FieldRef := ⟨PKG_MODE.addr, 52, 4⟩
def PKG_MODE.CHANGES : FieldRef := ⟨PKG_MODE.addr, 40, 8⟩
def PKG_MODE.REFUSED : FieldRef := ⟨PKG_MODE.addr, 32, 8⟩
def PKG_MODE.HALT_SRC : FieldRef := ⟨PKG_MODE.addr, 16, 13⟩
def PKG_MODE.JOIN : FieldRef := ⟨PKG_MODE.addr, 10, 6⟩
def PKG_MODE.DRAINED : FieldRef := ⟨PKG_MODE.addr, 9, 1⟩
def PKG_MODE.fields : List FieldRow :=
  [⟨60, 4, .ro, 0x2⟩,
   ⟨56, 4, .ro, 0x1⟩,
   ⟨52, 4, .ro, 0x1⟩,
   ⟨40, 8, .ro, 0x0⟩,
   ⟨32, 8, .ro, 0x0⟩,
   ⟨16, 13, .ro, 0x0⟩,
   ⟨10, 6, .ro, 0x0⟩,
   ⟨9, 1, .ro, 0x0⟩]

/-- PKG_MODE_CTL (Table 14-11). -/
def PKG_MODE_CTL.addr : Nat := 0x1008
def PKG_MODE_CTL.KEY : FieldRef := ⟨PKG_MODE_CTL.addr, 56, 8⟩
def PKG_MODE_CTL.CMD : FieldRef := ⟨PKG_MODE_CTL.addr, 52, 4⟩
def PKG_MODE_CTL.fields : List FieldRow :=
  [⟨56, 8, .wo, 0x0⟩,
   ⟨52, 4, .wo, 0x0⟩]

/-- PKG_FW (Table 14-12). -/
def PKG_FW.addr : Nat := 0x1010
def PKG_FW.VERSION : FieldRef := ⟨PKG_FW.addr, 32, 32⟩
def PKG_FW.SVN : FieldRef := ⟨PKG_FW.addr, 24, 8⟩
def PKG_FW.FLOOR : FieldRef := ⟨PKG_FW.addr, 16, 8⟩
def PKG_FW.OTHER_PASSED : FieldRef := ⟨PKG_FW.addr, 1, 1⟩
def PKG_FW.BANK : FieldRef := ⟨PKG_FW.addr, 0, 1⟩
def PKG_FW.fields : List FieldRow :=
  [⟨32, 32, .ro, 0x0⟩,
   ⟨24, 8, .ro, 0x0⟩,
   ⟨16, 8, .ro, 0x0⟩,
   ⟨1, 1, .ro, 0x0⟩,
   ⟨0, 1, .ro, 0x0⟩]

/-- PKG_BOUND (Table 08-11). -/
def PKG_BOUND.addr : Nat := 0x1018
def PKG_BOUND.BOUND_SEQ : FieldRef := ⟨PKG_BOUND.addr, 48, 16⟩
def PKG_BOUND.SUR_CODE : FieldRef := ⟨PKG_BOUND.addr, 44, 4⟩
def PKG_BOUND.LAST_CAUSE : FieldRef := ⟨PKG_BOUND.addr, 40, 4⟩
def PKG_BOUND.SETTLING : FieldRef := ⟨PKG_BOUND.addr, 39, 1⟩
def PKG_BOUND.SETTLE : FieldRef := ⟨PKG_BOUND.addr, 12, 20⟩
def PKG_BOUND.FINAL_MISSES : FieldRef := ⟨PKG_BOUND.addr, 0, 12⟩
def PKG_BOUND.fields : List FieldRow :=
  [⟨48, 16, .ro, 0x0⟩,
   ⟨44, 4, .ro, 0x6⟩,
   ⟨40, 4, .ro, 0x0⟩,
   ⟨39, 1, .ro, 0x0⟩,
   ⟨12, 20, .ro, 0x0⟩,
   ⟨0, 12, .ro, 0x0⟩]

/-- PKG_LOCK (Table 07-5). -/
def PKG_LOCK.addr : Nat := 0x1020
def PKG_LOCK.TARGET : FieldRef := ⟨PKG_LOCK.addr, 48, 16⟩
def PKG_LOCK.OWNER : FieldRef := ⟨PKG_LOCK.addr, 32, 16⟩
def PKG_LOCK.OWNER_PART : FieldRef := ⟨PKG_LOCK.addr, 22, 10⟩
def PKG_LOCK.STATE : FieldRef := ⟨PKG_LOCK.addr, 16, 3⟩
def PKG_LOCK.YIELDS : FieldRef := ⟨PKG_LOCK.addr, 8, 8⟩
def PKG_LOCK.LOCK_SURROGATE : FieldRef := ⟨PKG_LOCK.addr, 0, 8⟩
def PKG_LOCK.fields : List FieldRow :=
  [⟨48, 16, .ro, 0x0⟩,
   ⟨32, 16, .ro, 0x0⟩,
   ⟨22, 10, .ro, 0x0⟩,
   ⟨16, 3, .ro, 0x0⟩,
   ⟨8, 8, .ro, 0x0⟩,
   ⟨0, 8, .ro, 0x0⟩]

/-- PKG_FENCE_CL (Table 10-16). -/
def PKG_FENCE_CL.addr : Nat := 0x1028
def PKG_FENCE_CL.CLUSTERS : FieldRef := ⟨PKG_FENCE_CL.addr, 0, 64⟩
def PKG_FENCE_CL.fields : List FieldRow :=
  [⟨0, 64, .w1c, 0x0⟩]

/-- PKG_FENCE_RG (Table 10-16). -/
def PKG_FENCE_RG.addr : Nat := 0x1030
def PKG_FENCE_RG.REGIONS : FieldRef := ⟨PKG_FENCE_RG.addr, 0, 64⟩
def PKG_FENCE_RG.fields : List FieldRow :=
  [⟨0, 64, .ro, 0x0⟩]

/-- TOLL_FENCE (Table 11-9). -/
def TOLL_FENCE.addr : Nat := 0x1038
def TOLL_FENCE.SNAP_D3 : FieldRef := ⟨TOLL_FENCE.addr, 56, 8⟩
def TOLL_FENCE.SNAP_D2 : FieldRef := ⟨TOLL_FENCE.addr, 48, 8⟩
def TOLL_FENCE.SNAP_D1 : FieldRef := ⟨TOLL_FENCE.addr, 40, 8⟩
def TOLL_FENCE.SNAP_D0 : FieldRef := ⟨TOLL_FENCE.addr, 32, 8⟩
def TOLL_FENCE.FENCE_COUNT : FieldRef := ⟨TOLL_FENCE.addr, 24, 8⟩
def TOLL_FENCE.LAST_US : FieldRef := ⟨TOLL_FENCE.addr, 2, 22⟩
def TOLL_FENCE.BUSY : FieldRef := ⟨TOLL_FENCE.addr, 1, 1⟩
def TOLL_FENCE.GO : FieldRef := ⟨TOLL_FENCE.addr, 0, 1⟩
def TOLL_FENCE.fields : List FieldRow :=
  [⟨56, 8, .ro, 0x0⟩,
   ⟨48, 8, .ro, 0x0⟩,
   ⟨40, 8, .ro, 0x0⟩,
   ⟨32, 8, .ro, 0x0⟩,
   ⟨24, 8, .ro, 0x0⟩,
   ⟨2, 22, .ro, 0x0⟩,
   ⟨1, 1, .ro, 0x0⟩,
   ⟨0, 1, .wo, 0x0⟩]

/-- PKG_EVT_INJECT (Table 10-20). -/
def PKG_EVT_INJECT.addr : Nat := 0x1040
def PKG_EVT_INJECT.N : FieldRef := ⟨PKG_EVT_INJECT.addr, 48, 16⟩
def PKG_EVT_INJECT.CHECKER : FieldRef := ⟨PKG_EVT_INJECT.addr, 40, 8⟩
def PKG_EVT_INJECT.INSTANCE : FieldRef := ⟨PKG_EVT_INJECT.addr, 24, 16⟩
def PKG_EVT_INJECT.REMAIN : FieldRef := ⟨PKG_EVT_INJECT.addr, 8, 16⟩
def PKG_EVT_INJECT.MODE : FieldRef := ⟨PKG_EVT_INJECT.addr, 6, 2⟩
def PKG_EVT_INJECT.REFUSED : FieldRef := ⟨PKG_EVT_INJECT.addr, 2, 4⟩
def PKG_EVT_INJECT.ABORT : FieldRef := ⟨PKG_EVT_INJECT.addr, 1, 1⟩
def PKG_EVT_INJECT.GO : FieldRef := ⟨PKG_EVT_INJECT.addr, 0, 1⟩
def PKG_EVT_INJECT.fields : List FieldRow :=
  [⟨48, 16, .rw, 0x1⟩,
   ⟨40, 8, .rw, 0x0⟩,
   ⟨24, 16, .rw, 0x0⟩,
   ⟨8, 16, .ro, 0x0⟩,
   ⟨6, 2, .rw, 0x0⟩,
   ⟨2, 4, .ro, 0x0⟩,
   ⟨1, 1, .wo, 0x0⟩,
   ⟨0, 1, .wo, 0x0⟩]

/-- PKG_XSTAT (Table 12-9, by R557). -/
def PKG_XSTAT.addr : Nat := 0x1048
def PKG_XSTAT.OVERRUN : FieldRef := ⟨PKG_XSTAT.addr, 48, 16⟩
def PKG_XSTAT.RESET_SEEN : FieldRef := ⟨PKG_XSTAT.addr, 32, 16⟩
def PKG_XSTAT.IN_RESET : FieldRef := ⟨PKG_XSTAT.addr, 16, 16⟩
def PKG_XSTAT.UNC : FieldRef := ⟨PKG_XSTAT.addr, 12, 4⟩
def PKG_XSTAT.CORR : FieldRef := ⟨PKG_XSTAT.addr, 0, 12⟩
def PKG_XSTAT.fields : List FieldRow :=
  [⟨48, 16, .w1c, 0x0⟩,
   ⟨32, 16, .w1c, 0x0⟩,
   ⟨16, 16, .ro, 0x0⟩,
   ⟨12, 4, .ro, 0x0⟩,
   ⟨0, 12, .ro, 0x0⟩]

/-- PKG_SCOPE_RESET (Table 10-23). -/
def PKG_SCOPE_RESET.addr : Nat := 0x1050
def PKG_SCOPE_RESET.CMD : FieldRef := ⟨PKG_SCOPE_RESET.addr, 60, 4⟩
def PKG_SCOPE_RESET.REFUSED : FieldRef := ⟨PKG_SCOPE_RESET.addr, 40, 8⟩
def PKG_SCOPE_RESET.RESETS : FieldRef := ⟨PKG_SCOPE_RESET.addr, 32, 8⟩
def PKG_SCOPE_RESET.INDEX : FieldRef := ⟨PKG_SCOPE_RESET.addr, 0, 6⟩
def PKG_SCOPE_RESET.fields : List FieldRow :=
  [⟨60, 4, .wo, 0x0⟩,
   ⟨40, 8, .ro, 0x0⟩,
   ⟨32, 8, .ro, 0x0⟩,
   ⟨0, 6, .wo, 0x0⟩]

/-- PKG_SBS_CTL (Table 02-9). -/
def PKG_SBS_CTL.addr : Nat := 0x2000
def PKG_SBS_CTL.CMD : FieldRef := ⟨PKG_SBS_CTL.addr, 28, 4⟩
def PKG_SBS_CTL.RELOAD_REGION : FieldRef := ⟨PKG_SBS_CTL.addr, 20, 4⟩
def PKG_SBS_CTL.TARGET : FieldRef := ⟨PKG_SBS_CTL.addr, 16, 2⟩
def PKG_SBS_CTL.BOOT_SEL : FieldRef := ⟨PKG_SBS_CTL.addr, 8, 2⟩
def PKG_SBS_CTL.fields : List FieldRow :=
  [⟨28, 4, .wo, 0x0⟩,
   ⟨20, 4, .rw, 0x0⟩,
   ⟨16, 2, .rw, 0x0⟩,
   ⟨8, 2, .rw, 0x0⟩]

/-- PKG_SBS_STATUS (Table 02-10). -/
def PKG_SBS_STATUS.addr : Nat := 0x2008
def PKG_SBS_STATUS.REFUSE_CODE : FieldRef := ⟨PKG_SBS_STATUS.addr, 48, 8⟩
def PKG_SBS_STATUS.REFUSE_ENTRY : FieldRef := ⟨PKG_SBS_STATUS.addr, 32, 16⟩
def PKG_SBS_STATUS.SOURCE : FieldRef := ⟨PKG_SBS_STATUS.addr, 24, 4⟩
def PKG_SBS_STATUS.STATE : FieldRef := ⟨PKG_SBS_STATUS.addr, 20, 4⟩
def PKG_SBS_STATUS.PARTIAL : FieldRef := ⟨PKG_SBS_STATUS.addr, 16, 1⟩
def PKG_SBS_STATUS.RELOAD_COUNT : FieldRef := ⟨PKG_SBS_STATUS.addr, 0, 16⟩
def PKG_SBS_STATUS.fields : List FieldRow :=
  [⟨48, 8, .ro, 0x0⟩,
   ⟨32, 16, .ro, 0x0⟩,
   ⟨24, 4, .ro, 0x0⟩,
   ⟨20, 4, .ro, 0x0⟩,
   ⟨16, 1, .ro, 0x0⟩,
   ⟨0, 16, .ro, 0x0⟩]

/-- PKG_NVS_CTL (Table 17-6). -/
def PKG_NVS_CTL.addr : Nat := 0x2010
def PKG_NVS_CTL.CMD : FieldRef := ⟨PKG_NVS_CTL.addr, 60, 4⟩
def PKG_NVS_CTL.STATUS : FieldRef := ⟨PKG_NVS_CTL.addr, 48, 4⟩
def PKG_NVS_CTL.BLOCK : FieldRef := ⟨PKG_NVS_CTL.addr, 6, 21⟩
def PKG_NVS_CTL.fields : List FieldRow :=
  [⟨60, 4, .wo, 0x0⟩,
   ⟨48, 4, .ro, 0x0⟩,
   ⟨6, 21, .rw, 0x0⟩]

/-- PKG_NVS_DATA (R651). -/
def PKG_NVS_DATA.addr (k : Nat) : Nat := 0x2040 + 8 * min k 8
def PKG_NVS_DATA.DATA (k : Nat) : FieldRef := ⟨PKG_NVS_DATA.addr k, 0, 64⟩
def PKG_NVS_DATA.fields : List FieldRow :=
  [⟨0, 64, .rw, 0x0⟩]

/-- SEAL_CTL (Table 02-14). -/
def SEAL_CTL.addr : Nat := 0x4000
def SEAL_CTL.TOKEN : FieldRef := ⟨SEAL_CTL.addr, 48, 16⟩
def SEAL_CTL.COMMIT_TOKEN : FieldRef := ⟨SEAL_CTL.addr, 32, 16⟩
def SEAL_CTL.PENDING : FieldRef := ⟨SEAL_CTL.addr, 8, 5⟩
def SEAL_CTL.REFUSED : FieldRef := ⟨SEAL_CTL.addr, 0, 5⟩
def SEAL_CTL.fields : List FieldRow :=
  [⟨48, 16, .ro, 0x0⟩,
   ⟨32, 16, .wo, 0x0⟩,
   ⟨8, 5, .ro, 0x0⟩,
   ⟨0, 5, .w1c, 0x0⟩]

/-- SEAL_REMAIN (Table 02-15). -/
def SEAL_REMAIN.addr : Nat := 0x4008
def SEAL_REMAIN.DOMAIN_ID : FieldRef := ⟨SEAL_REMAIN.addr, 32, 8⟩
def SEAL_REMAIN.RANK : FieldRef := ⟨SEAL_REMAIN.addr, 24, 8⟩
def SEAL_REMAIN.FLOOR : FieldRef := ⟨SEAL_REMAIN.addr, 16, 8⟩
def SEAL_REMAIN.CEILING : FieldRef := ⟨SEAL_REMAIN.addr, 8, 8⟩
def SEAL_REMAIN.PRIV : FieldRef := ⟨SEAL_REMAIN.addr, 0, 8⟩
def SEAL_REMAIN.fields : List FieldRow :=
  [⟨32, 8, .ro, 0x10⟩,
   ⟨24, 8, .ro, 0x20⟩,
   ⟨16, 8, .ro, 0xFF⟩,
   ⟨8, 8, .ro, 0x8⟩,
   ⟨0, 8, .ro, 0x10⟩]

/-- SEM (Table 13-8). -/
def SEM.addr (n : Nat) : Nat := 0x5000 + 8 * min n 64
def SEM.HELD (n : Nat) : FieldRef := ⟨SEM.addr n, 63, 1⟩
def SEM.YOURS (n : Nat) : FieldRef := ⟨SEM.addr n, 62, 1⟩
def SEM.ACQUIRES (n : Nat) : FieldRef := ⟨SEM.addr n, 32, 16⟩
def SEM.FOREIGN_WRITES (n : Nat) : FieldRef := ⟨SEM.addr n, 24, 8⟩
def SEM.HOLDER (n : Nat) : FieldRef := ⟨SEM.addr n, 0, 16⟩
def SEM.fields : List FieldRow :=
  [⟨63, 1, .ro, 0x0⟩,
   ⟨62, 1, .ro, 0x0⟩,
   ⟨32, 16, .ro, 0x0⟩,
   ⟨24, 8, .ro, 0x0⟩,
   ⟨0, 16, .ro, 0x0⟩]

/-- PKG_CP_STATE (Table 13-9). -/
def PKG_CP_STATE.addr (n : Nat) : Nat := cpBase n
def PKG_CP_STATE.MODE (n : Nat) : FieldRef := ⟨PKG_CP_STATE.addr n, 63, 1⟩
def PKG_CP_STATE.PRIV (n : Nat) : FieldRef := ⟨PKG_CP_STATE.addr n, 62, 1⟩
def PKG_CP_STATE.LINK_UP (n : Nat) : FieldRef := ⟨PKG_CP_STATE.addr n, 61, 1⟩
def PKG_CP_STATE.MAINT (n : Nat) : FieldRef := ⟨PKG_CP_STATE.addr n, 60, 1⟩
def PKG_CP_STATE.LINK_DOWNS (n : Nat) : FieldRef := ⟨PKG_CP_STATE.addr n, 48, 8⟩
def PKG_CP_STATE.BAD_ACCESS (n : Nat) : FieldRef := ⟨PKG_CP_STATE.addr n, 32, 16⟩
def PKG_CP_STATE.DISCARDED (n : Nat) : FieldRef := ⟨PKG_CP_STATE.addr n, 16, 16⟩
def PKG_CP_STATE.EVQ_USED (n : Nat) : FieldRef := ⟨PKG_CP_STATE.addr n, 0, 11⟩
def PKG_CP_STATE.fields : List FieldRow :=
  [⟨63, 1, .ro, 0x0⟩,
   ⟨62, 1, .ro, 0x0⟩,
   ⟨61, 1, .ro, 0x0⟩,
   ⟨60, 1, .ro, 0x0⟩,
   ⟨48, 8, .ro, 0x0⟩,
   ⟨32, 16, .ro, 0x0⟩,
   ⟨16, 16, .ro, 0x0⟩,
   ⟨0, 11, .ro, 0x0⟩]

/-- PKG_CP_IBA_CTL (Table 13-10). -/
def PKG_CP_IBA_CTL.addr (n : Nat) : Nat := cpBase n + 0x8
def PKG_CP_IBA_CTL.RANK (n : Nat) : FieldRef := ⟨PKG_CP_IBA_CTL.addr n, 58, 6⟩
def PKG_CP_IBA_CTL.OP (n : Nat) : FieldRef := ⟨PKG_CP_IBA_CTL.addr n, 56, 2⟩
def PKG_CP_IBA_CTL.CLASS (n : Nat) : FieldRef := ⟨PKG_CP_IBA_CTL.addr n, 54, 2⟩
def PKG_CP_IBA_CTL.OFFSET (n : Nat) : FieldRef := ⟨PKG_CP_IBA_CTL.addr n, 3, 27⟩
def PKG_CP_IBA_CTL.GO (n : Nat) : FieldRef := ⟨PKG_CP_IBA_CTL.addr n, 0, 1⟩
def PKG_CP_IBA_CTL.fields : List FieldRow :=
  [⟨58, 6, .rw, 0x0⟩,
   ⟨56, 2, .rw, 0x0⟩,
   ⟨54, 2, .rw, 0x0⟩,
   ⟨3, 27, .rw, 0x0⟩,
   ⟨0, 1, .wo, 0x0⟩]

/-- PKG_CP_IBA_STAT (Table 13-11). -/
def PKG_CP_IBA_STAT.addr (n : Nat) : Nat := cpBase n + 0x10
def PKG_CP_IBA_STAT.LATE (n : Nat) : FieldRef := ⟨PKG_CP_IBA_STAT.addr n, 16, 16⟩
def PKG_CP_IBA_STAT.COMPLETED (n : Nat) : FieldRef := ⟨PKG_CP_IBA_STAT.addr n, 8, 8⟩
def PKG_CP_IBA_STAT.MSTAT (n : Nat) : FieldRef := ⟨PKG_CP_IBA_STAT.addr n, 1, 3⟩
def PKG_CP_IBA_STAT.BUSY (n : Nat) : FieldRef := ⟨PKG_CP_IBA_STAT.addr n, 0, 1⟩
def PKG_CP_IBA_STAT.fields : List FieldRow :=
  [⟨16, 16, .ro, 0x0⟩,
   ⟨8, 8, .ro, 0x0⟩,
   ⟨1, 3, .ro, 0x0⟩,
   ⟨0, 1, .ro, 0x0⟩]

/-- PKG_CP_IBA_DATA (Table 13-12). -/
def PKG_CP_IBA_DATA.addr (n : Nat) : Nat := cpBase n + 0x18
def PKG_CP_IBA_DATA.VALUE (n : Nat) : FieldRef := ⟨PKG_CP_IBA_DATA.addr n, 0, 64⟩
def PKG_CP_IBA_DATA.fields : List FieldRow :=
  [⟨0, 64, .rw, 0x0⟩]

/-- PKG_CP_EVOFFERED (Table 13-12). -/
def PKG_CP_EVOFFERED.addr (n : Nat) : Nat := cpBase n + 0x20
def PKG_CP_EVOFFERED.VALUE (n : Nat) : FieldRef := ⟨PKG_CP_EVOFFERED.addr n, 0, 64⟩
def PKG_CP_EVOFFERED.fields : List FieldRow :=
  [⟨0, 64, .ro, 0x0⟩]

/-- PKG_CP_EVDROPPED (Table 13-12). -/
def PKG_CP_EVDROPPED.addr (n : Nat) : Nat := cpBase n + 0x28
def PKG_CP_EVDROPPED.VALUE (n : Nat) : FieldRef := ⟨PKG_CP_EVDROPPED.addr n, 0, 64⟩
def PKG_CP_EVDROPPED.fields : List FieldRow :=
  [⟨0, 64, .ro, 0x0⟩]

/-- PKG_CP_EVQ (R465, R555). -/
def PKG_CP_EVQ.addr (n : Nat) (k : Nat) : Nat := cpBase n + 0x40 + 8 * min k 4
def PKG_CP_EVQ.VALUE (n : Nat) (k : Nat) : FieldRef := ⟨PKG_CP_EVQ.addr n k, 0, 64⟩
def PKG_CP_EVQ.fields : List FieldRow :=
  [⟨0, 64, .ro, 0x0⟩]

/-- PKG_MGT_ACCEPT (Table 13-12). -/
def PKG_MGT_ACCEPT.addr : Nat := 0x7000
def PKG_MGT_ACCEPT.VALUE : FieldRef := ⟨PKG_MGT_ACCEPT.addr, 0, 64⟩
def PKG_MGT_ACCEPT.fields : List FieldRow :=
  [⟨0, 64, .rw, 0xFFFFFFFFFFFFFFFF⟩]

/-- PKG_MGT_PRIV (Table 13-12). -/
def PKG_MGT_PRIV.addr : Nat := 0x7008
def PKG_MGT_PRIV.VALUE : FieldRef := ⟨PKG_MGT_PRIV.addr, 0, 64⟩
def PKG_MGT_PRIV.fields : List FieldRow :=
  [⟨0, 64, .rw, 0x0⟩]

/-- PKG_MGT_STAT (Table 13-13). -/
def PKG_MGT_STAT.addr : Nat := 0x7010
def PKG_MGT_STAT.SERVED : FieldRef := ⟨PKG_MGT_STAT.addr, 32, 32⟩
def PKG_MGT_STAT.NOT_ACCEPTED : FieldRef := ⟨PKG_MGT_STAT.addr, 16, 16⟩
def PKG_MGT_STAT.NOTICES : FieldRef := ⟨PKG_MGT_STAT.addr, 0, 16⟩
def PKG_MGT_STAT.fields : List FieldRow :=
  [⟨32, 32, .ro, 0x0⟩,
   ⟨16, 16, .ro, 0x0⟩,
   ⟨0, 16, .ro, 0x0⟩]

/-- PKG_MEAS_CTL (Table 14-13). -/
def PKG_MEAS_CTL.addr : Nat := 0x8000
def PKG_MEAS_CTL.EXTENDS : FieldRef := ⟨PKG_MEAS_CTL.addr, 48, 16⟩
def PKG_MEAS_CTL.EXTEND : FieldRef := ⟨PKG_MEAS_CTL.addr, 8, 1⟩
def PKG_MEAS_CTL.SEL : FieldRef := ⟨PKG_MEAS_CTL.addr, 0, 3⟩
def PKG_MEAS_CTL.fields : List FieldRow :=
  [⟨48, 16, .ro, 0x0⟩,
   ⟨8, 1, .wo, 0x0⟩,
   ⟨0, 3, .rw, 0x0⟩]

/-- PKG_MEAS_D (Table 14-14). -/
def PKG_MEAS_D.addr (k : Nat) : Nat := 0x8008 + 8 * min k 6
def PKG_MEAS_D.VALUE (k : Nat) : FieldRef := ⟨PKG_MEAS_D.addr k, 0, 64⟩
def PKG_MEAS_D.fields : List FieldRow :=
  [⟨0, 64, .ro, 0x0⟩]

/-- PKG_MEAS_X (Table 14-14). -/
def PKG_MEAS_X.addr (k : Nat) : Nat := 0x8038 + 8 * min k 6
def PKG_MEAS_X.VALUE (k : Nat) : FieldRef := ⟨PKG_MEAS_X.addr k, 0, 64⟩
def PKG_MEAS_X.fields : List FieldRow :=
  [⟨0, 64, .rw, 0x0⟩]

/-- DIE_TIME (Table 17-8). -/
def DIE_TIME.addr (d : Nat) : Nat := dieBase d
def DIE_TIME.TIME (d : Nat) : FieldRef := ⟨DIE_TIME.addr d, 0, 64⟩
def DIE_TIME.fields : List FieldRow :=
  [⟨0, 64, .ro, 0x0⟩]

/-- DIE_PWR (Table 15-7). -/
def DIE_PWR.addr (d : Nat) : Nat := dieBase d + 0x8
def DIE_PWR.POWER (d : Nat) : FieldRef := ⟨DIE_PWR.addr d, 48, 16⟩
def DIE_PWR.SHARE (d : Nat) : FieldRef := ⟨DIE_PWR.addr d, 32, 16⟩
def DIE_PWR.THROTTLES (d : Nat) : FieldRef := ⟨DIE_PWR.addr d, 24, 8⟩
def DIE_PWR.OVER_SHARE (d : Nat) : FieldRef := ⟨DIE_PWR.addr d, 2, 1⟩
def DIE_PWR.THROTTLING (d : Nat) : FieldRef := ⟨DIE_PWR.addr d, 1, 1⟩
def DIE_PWR.fields : List FieldRow :=
  [⟨48, 16, .ro, 0x0⟩,
   ⟨32, 16, .ro, 0x0⟩,
   ⟨24, 8, .ro, 0x0⟩,
   ⟨2, 1, .ro, 0x0⟩,
   ⟨1, 1, .ro, 0x0⟩]

/-- DIE_THERM (Table 15-8). -/
def DIE_THERM.addr (d : Nat) : Nat := dieBase d + 0x10
def DIE_THERM.TJ_MAX (d : Nat) : FieldRef := ⟨DIE_THERM.addr d, 56, 8⟩
def DIE_THERM.TJ_PEAK (d : Nat) : FieldRef := ⟨DIE_THERM.addr d, 48, 8⟩
def DIE_THERM.HOT_SENSOR (d : Nat) : FieldRef := ⟨DIE_THERM.addr d, 40, 8⟩
def DIE_THERM.T_WARN (d : Nat) : FieldRef := ⟨DIE_THERM.addr d, 32, 8⟩
def DIE_THERM.T_THROTTLE (d : Nat) : FieldRef := ⟨DIE_THERM.addr d, 24, 8⟩
def DIE_THERM.T_TRIP (d : Nat) : FieldRef := ⟨DIE_THERM.addr d, 16, 8⟩
def DIE_THERM.fields : List FieldRow :=
  [⟨56, 8, .ro, 0x0⟩,
   ⟨48, 8, .ro, 0x0⟩,
   ⟨40, 8, .ro, 0x0⟩,
   ⟨32, 8, .ro, 0x5A⟩,
   ⟨24, 8, .ro, 0x5F⟩,
   ⟨16, 8, .ro, 0x69⟩]

/-- DIE_KEEPER_WDT (Table 13-14). -/
def DIE_KEEPER_WDT.addr (k : Nat) : Nat := dieBase (k / 2) + 0x18 + 8 * (k % 2)
def DIE_KEEPER_WDT.EXPIRIES (k : Nat) : FieldRef := ⟨DIE_KEEPER_WDT.addr k, 40, 8⟩
def DIE_KEEPER_WDT.TIMEOUT (k : Nat) : FieldRef := ⟨DIE_KEEPER_WDT.addr k, 16, 10⟩
def DIE_KEEPER_WDT.KICK (k : Nat) : FieldRef := ⟨DIE_KEEPER_WDT.addr k, 0, 1⟩
def DIE_KEEPER_WDT.fields : List FieldRow :=
  [⟨40, 8, .ro, 0x0⟩,
   ⟨16, 10, .rw, 0x64⟩,
   ⟨0, 1, .wo, 0x0⟩]

/-- DIE_RECON (Table 13-15). -/
def DIE_RECON.addr (d : Nat) : Nat := dieBase d + 0x28
def DIE_RECON.PASSES (d : Nat) : FieldRef := ⟨DIE_RECON.addr d, 48, 16⟩
def DIE_RECON.DISAGREE (d : Nat) : FieldRef := ⟨DIE_RECON.addr d, 32, 16⟩
def DIE_RECON.ITEM (d : Nat) : FieldRef := ⟨DIE_RECON.addr d, 28, 4⟩
def DIE_RECON.INDEX (d : Nat) : FieldRef := ⟨DIE_RECON.addr d, 0, 24⟩
def DIE_RECON.fields : List FieldRow :=
  [⟨48, 16, .ro, 0x0⟩,
   ⟨32, 16, .ro, 0x0⟩,
   ⟨28, 4, .ro, 0x0⟩,
   ⟨0, 24, .ro, 0x0⟩]

/-- DIE_RECON_CTL (Table 13-16). -/
def DIE_RECON_CTL.addr (d : Nat) : Nat := dieBase d + 0x30
def DIE_RECON_CTL.ITEM (d : Nat) : FieldRef := ⟨DIE_RECON_CTL.addr d, 32, 4⟩
def DIE_RECON_CTL.INDEX (d : Nat) : FieldRef := ⟨DIE_RECON_CTL.addr d, 8, 24⟩
def DIE_RECON_CTL.ALL (d : Nat) : FieldRef := ⟨DIE_RECON_CTL.addr d, 3, 1⟩
def DIE_RECON_CTL.LAST_REFUSED (d : Nat) : FieldRef := ⟨DIE_RECON_CTL.addr d, 2, 1⟩
def DIE_RECON_CTL.FORCE (d : Nat) : FieldRef := ⟨DIE_RECON_CTL.addr d, 1, 1⟩
def DIE_RECON_CTL.ADOPT (d : Nat) : FieldRef := ⟨DIE_RECON_CTL.addr d, 0, 1⟩
def DIE_RECON_CTL.fields : List FieldRow :=
  [⟨32, 4, .rw, 0x0⟩,
   ⟨8, 24, .rw, 0x0⟩,
   ⟨3, 1, .rw, 0x0⟩,
   ⟨2, 1, .ro, 0x0⟩,
   ⟨1, 1, .wo, 0x0⟩,
   ⟨0, 1, .wo, 0x0⟩]

/-- DIE_XSTAT (Table 12-9). -/
def DIE_XSTAT.addr (d : Nat) : Nat := dieBase d + 0x38
def DIE_XSTAT.OVERRUN (d : Nat) : FieldRef := ⟨DIE_XSTAT.addr d, 48, 16⟩
def DIE_XSTAT.RESET_SEEN (d : Nat) : FieldRef := ⟨DIE_XSTAT.addr d, 32, 16⟩
def DIE_XSTAT.IN_RESET (d : Nat) : FieldRef := ⟨DIE_XSTAT.addr d, 16, 16⟩
def DIE_XSTAT.UNC (d : Nat) : FieldRef := ⟨DIE_XSTAT.addr d, 12, 4⟩
def DIE_XSTAT.CORR (d : Nat) : FieldRef := ⟨DIE_XSTAT.addr d, 0, 12⟩
def DIE_XSTAT.fields : List FieldRow :=
  [⟨48, 16, .w1c, 0x0⟩,
   ⟨32, 16, .w1c, 0x0⟩,
   ⟨16, 16, .ro, 0x0⟩,
   ⟨12, 4, .ro, 0x0⟩,
   ⟨0, 12, .ro, 0x0⟩]

/-- DIE_XDISCARD (Table 09-10). -/
def DIE_XDISCARD.addr (d : Nat) : Nat := dieBase d + 0x40
def DIE_XDISCARD.VALUE (d : Nat) : FieldRef := ⟨DIE_XDISCARD.addr d, 0, 64⟩
def DIE_XDISCARD.fields : List FieldRow :=
  [⟨0, 64, .ro, 0x0⟩]

/-- DIE_TALLY_SEL (Table 09-8). -/
def DIE_TALLY_SEL.addr (d : Nat) : Nat := dieBase d + 0x48
def DIE_TALLY_SEL.INDEX (d : Nat) : FieldRef := ⟨DIE_TALLY_SEL.addr d, 0, 8⟩
def DIE_TALLY_SEL.fields : List FieldRow :=
  [⟨0, 8, .rw, 0x0⟩]

/-- DIE_TALLY_A (Table 09-9). -/
def DIE_TALLY_A.addr (d : Nat) : Nat := dieBase d + 0x50
def DIE_TALLY_A.TOTAL (d : Nat) : FieldRef := ⟨DIE_TALLY_A.addr d, 32, 32⟩
def DIE_TALLY_A.OUT (d : Nat) : FieldRef := ⟨DIE_TALLY_A.addr d, 0, 32⟩
def DIE_TALLY_A.fields : List FieldRow :=
  [⟨32, 32, .ro, 0x0⟩,
   ⟨0, 32, .ro, 0x0⟩]

/-- DIE_TALLY_B (Table 09-10). -/
def DIE_TALLY_B.addr (d : Nat) : Nat := dieBase d + 0x58
def DIE_TALLY_B.VALUE (d : Nat) : FieldRef := ⟨DIE_TALLY_B.addr d, 0, 64⟩
def DIE_TALLY_B.fields : List FieldRow :=
  [⟨0, 64, .ro, 0x0⟩]

/-- DIE_TALLY_C (Table 09-10). -/
def DIE_TALLY_C.addr (d : Nat) : Nat := dieBase d + 0x60
def DIE_TALLY_C.VALUE (d : Nat) : FieldRef := ⟨DIE_TALLY_C.addr d, 0, 64⟩
def DIE_TALLY_C.fields : List FieldRow :=
  [⟨0, 64, .ro, 0x0⟩]

/-- DIE_TALLY_D (Table 09-11). -/
def DIE_TALLY_D.addr (d : Nat) : Nat := dieBase d + 0x68
def DIE_TALLY_D.ISSUED_HI (d : Nat) : FieldRef := ⟨DIE_TALLY_D.addr d, 48, 16⟩
def DIE_TALLY_D.RETURNED_HI (d : Nat) : FieldRef := ⟨DIE_TALLY_D.addr d, 32, 16⟩
def DIE_TALLY_D.CORRECTED (d : Nat) : FieldRef := ⟨DIE_TALLY_D.addr d, 16, 16⟩
def DIE_TALLY_D.fields : List FieldRow :=
  [⟨48, 16, .ro, 0x0⟩,
   ⟨32, 16, .ro, 0x0⟩,
   ⟨16, 16, .ro, 0x0⟩]

/-- DIE_TALLY_E (Table 09-10). -/
def DIE_TALLY_E.addr (d : Nat) : Nat := dieBase d + 0x70
def DIE_TALLY_E.VALUE (d : Nat) : FieldRef := ⟨DIE_TALLY_E.addr d, 0, 64⟩
def DIE_TALLY_E.fields : List FieldRow :=
  [⟨0, 64, .ro, 0x0⟩]

/-- DIE_EVT_INJECT (Table 10-20). -/
def DIE_EVT_INJECT.addr (d : Nat) : Nat := dieBase d + 0x78
def DIE_EVT_INJECT.N (d : Nat) : FieldRef := ⟨DIE_EVT_INJECT.addr d, 48, 16⟩
def DIE_EVT_INJECT.CHECKER (d : Nat) : FieldRef := ⟨DIE_EVT_INJECT.addr d, 40, 8⟩
def DIE_EVT_INJECT.INSTANCE (d : Nat) : FieldRef := ⟨DIE_EVT_INJECT.addr d, 24, 16⟩
def DIE_EVT_INJECT.REMAIN (d : Nat) : FieldRef := ⟨DIE_EVT_INJECT.addr d, 8, 16⟩
def DIE_EVT_INJECT.MODE (d : Nat) : FieldRef := ⟨DIE_EVT_INJECT.addr d, 6, 2⟩
def DIE_EVT_INJECT.REFUSED (d : Nat) : FieldRef := ⟨DIE_EVT_INJECT.addr d, 2, 4⟩
def DIE_EVT_INJECT.ABORT (d : Nat) : FieldRef := ⟨DIE_EVT_INJECT.addr d, 1, 1⟩
def DIE_EVT_INJECT.GO (d : Nat) : FieldRef := ⟨DIE_EVT_INJECT.addr d, 0, 1⟩
def DIE_EVT_INJECT.fields : List FieldRow :=
  [⟨48, 16, .rw, 0x1⟩,
   ⟨40, 8, .rw, 0x0⟩,
   ⟨24, 16, .rw, 0x0⟩,
   ⟨8, 16, .ro, 0x0⟩,
   ⟨6, 2, .rw, 0x0⟩,
   ⟨2, 4, .ro, 0x0⟩,
   ⟨1, 1, .wo, 0x0⟩,
   ⟨0, 1, .wo, 0x0⟩]

/-- TOLL_CTL (Table 11-8). -/
def TOLL_CTL.addr (d : Nat) : Nat := dieBase d + 0x80
def TOLL_CTL.EPOCH (d : Nat) : FieldRef := ⟨TOLL_CTL.addr d, 56, 8⟩
def TOLL_CTL.REFUSED (d : Nat) : FieldRef := ⟨TOLL_CTL.addr d, 32, 16⟩
def TOLL_CTL.LOCKED_COUNT (d : Nat) : FieldRef := ⟨TOLL_CTL.addr d, 16, 15⟩
def TOLL_CTL.COMMIT_WAIT (d : Nat) : FieldRef := ⟨TOLL_CTL.addr d, 0, 1⟩
def TOLL_CTL.fields : List FieldRow :=
  [⟨56, 8, .ro, 0x0⟩,
   ⟨32, 16, .ro, 0x0⟩,
   ⟨16, 15, .ro, 0x0⟩,
   ⟨0, 1, .ro, 0x0⟩]

/-- TOLL_VIOL (Table 11-10). -/
def TOLL_VIOL.addr (d : Nat) : Nat := dieBase d + 0x88
def TOLL_VIOL.COUNT (d : Nat) : FieldRef := ⟨TOLL_VIOL.addr d, 32, 32⟩
def TOLL_VIOL.FIRST_VALID (d : Nat) : FieldRef := ⟨TOLL_VIOL.addr d, 0, 1⟩
def TOLL_VIOL.fields : List FieldRow :=
  [⟨32, 32, .ro, 0x0⟩,
   ⟨0, 1, .w1c, 0x0⟩]

/-- TOLL_VFIRST (Table 11-11). -/
def TOLL_VFIRST.addr (d : Nat) (k : Nat) : Nat := dieBase d + 0x90 + 8 * min k 4
def TOLL_VFIRST.VALUE (d : Nat) (k : Nat) : FieldRef := ⟨TOLL_VFIRST.addr d k, 0, 64⟩
def TOLL_VFIRST.fields : List FieldRow :=
  [⟨0, 64, .ro, 0x0⟩]

/-- TOLL_VLAST (Table 11-11). -/
def TOLL_VLAST.addr (d : Nat) (k : Nat) : Nat := dieBase d + 0xB0 + 8 * min k 4
def TOLL_VLAST.VALUE (d : Nat) (k : Nat) : FieldRef := ⟨TOLL_VLAST.addr d k, 0, 64⟩
def TOLL_VLAST.fields : List FieldRow :=
  [⟨0, 64, .ro, 0x0⟩]

/-- PMON_GATHER (Table 16-7). -/
def PMON_GATHER.addr (d : Nat) : Nat := dieBase d + 0xD0
def PMON_GATHER.CLUSTERS (d : Nat) : FieldRef := ⟨PMON_GATHER.addr d, 48, 16⟩
def PMON_GATHER.COUNTERS (d : Nat) : FieldRef := ⟨PMON_GATHER.addr d, 16, 32⟩
def PMON_GATHER.DIE (d : Nat) : FieldRef := ⟨PMON_GATHER.addr d, 3, 1⟩
def PMON_GATHER.BUSY (d : Nat) : FieldRef := ⟨PMON_GATHER.addr d, 1, 1⟩
def PMON_GATHER.GO (d : Nat) : FieldRef := ⟨PMON_GATHER.addr d, 0, 1⟩
def PMON_GATHER.fields : List FieldRow :=
  [⟨48, 16, .rw, 0x0⟩,
   ⟨16, 32, .rw, 0x0⟩,
   ⟨3, 1, .rw, 0x0⟩,
   ⟨1, 1, .ro, 0x0⟩,
   ⟨0, 1, .wo, 0x0⟩]

/-- PMON_DIE_HI (Table 16-2). -/
def PMON_DIE_HI.addr (d : Nat) : Nat := dieBase d + 0xD8
def PMON_DIE_HI.HIGH (d : Nat) : FieldRef := ⟨PMON_DIE_HI.addr d, 0, 48⟩
def PMON_DIE_HI.fields : List FieldRow :=
  [⟨0, 48, .ro, 0x0⟩]

/-- PMON_TQ_OFFERED (Table 16-9). -/
def PMON_TQ_OFFERED.addr (d : Nat) : Nat := dieBase d + 0xE0
def PMON_TQ_OFFERED.VALUE (d : Nat) : FieldRef := ⟨PMON_TQ_OFFERED.addr d, 0, 64⟩
def PMON_TQ_OFFERED.fields : List FieldRow :=
  [⟨0, 64, .ro, 0x0⟩]

/-- PMON_TQ_DROPPED (Table 16-9). -/
def PMON_TQ_DROPPED.addr (d : Nat) : Nat := dieBase d + 0xE8
def PMON_TQ_DROPPED.VALUE (d : Nat) : FieldRef := ⟨PMON_TQ_DROPPED.addr d, 0, 64⟩
def PMON_TQ_DROPPED.fields : List FieldRow :=
  [⟨0, 64, .ro, 0x0⟩]

/-- EVT_LATCH (the latched words of EVT_FQ, EVT_BQ, EVT_SQ, EVT_KQ and PMON_TQ, R465). -/
def EVT_LATCH.addr (d : Nat) (k : Nat) : Nat := dieBase d + 0x2000 + 8 * min k 36
def EVT_LATCH.VALUE (d : Nat) (k : Nat) : FieldRef := ⟨EVT_LATCH.addr d k, 0, 64⟩
def EVT_LATCH.fields : List FieldRow :=
  [⟨0, 64, .ro, 0x0⟩]

/-- EVT_XQ_OFFERED (R435, R653). -/
def EVT_XQ_OFFERED.addr (d : Nat) (q : Nat) : Nat := dieBase d + 0x2200 + 16 * min q 4
def EVT_XQ_OFFERED.VALUE (d : Nat) (q : Nat) : FieldRef := ⟨EVT_XQ_OFFERED.addr d q, 0, 64⟩
def EVT_XQ_OFFERED.fields : List FieldRow :=
  [⟨0, 64, .ro, 0x0⟩]

/-- EVT_XQ_DROPPED (R435, R653). -/
def EVT_XQ_DROPPED.addr (d : Nat) (q : Nat) : Nat := dieBase d + 0x2208 + 16 * min q 4
def EVT_XQ_DROPPED.VALUE (d : Nat) (q : Nat) : FieldRef := ⟨EVT_XQ_DROPPED.addr d q, 0, 64⟩
def EVT_XQ_DROPPED.fields : List FieldRow :=
  [⟨0, 64, .ro, 0x0⟩]

/-- EVT_PQ (R465, R474, R653). -/
def EVT_PQ.addr (d : Nat) (p : Nat) (k : Nat) : Nat := dieBase d + 0x3000 + 32 * min p 64 + 8 * min k 4
def EVT_PQ.VALUE (d : Nat) (p : Nat) (k : Nat) : FieldRef := ⟨EVT_PQ.addr d p k, 0, 64⟩
def EVT_PQ.fields : List FieldRow :=
  [⟨0, 64, .ro, 0x0⟩]

/-- EVT_PQ_OFFERED (R435, R653). -/
def EVT_PQ_OFFERED.addr (d : Nat) (p : Nat) : Nat := dieBase d + 0x3800 + 16 * min p 64
def EVT_PQ_OFFERED.VALUE (d : Nat) (p : Nat) : FieldRef := ⟨EVT_PQ_OFFERED.addr d p, 0, 64⟩
def EVT_PQ_OFFERED.fields : List FieldRow :=
  [⟨0, 64, .ro, 0x0⟩]

/-- EVT_PQ_DROPPED (R435, R653). -/
def EVT_PQ_DROPPED.addr (d : Nat) (p : Nat) : Nat := dieBase d + 0x3808 + 16 * min p 64
def EVT_PQ_DROPPED.VALUE (d : Nat) (p : Nat) : FieldRef := ⟨EVT_PQ_DROPPED.addr d p, 0, 64⟩
def EVT_PQ_DROPPED.fields : List FieldRow :=
  [⟨0, 64, .ro, 0x0⟩]

/-- PMON_DIE_SEL (Table 16-1). -/
def PMON_DIE_SEL.addr (d : Nat) (n : Nat) : Nat := dieBase d + 0x4000 + 8 * min n 64
def PMON_DIE_SEL.EVENT (d : Nat) (n : Nat) : FieldRef := ⟨PMON_DIE_SEL.addr d n, 40, 8⟩
def PMON_DIE_SEL.QUAL (d : Nat) (n : Nat) : FieldRef := ⟨PMON_DIE_SEL.addr d n, 16, 16⟩
def PMON_DIE_SEL.CHAIN (d : Nat) (n : Nat) : FieldRef := ⟨PMON_DIE_SEL.addr d n, 3, 1⟩
def PMON_DIE_SEL.SAT (d : Nat) (n : Nat) : FieldRef := ⟨PMON_DIE_SEL.addr d n, 2, 1⟩
def PMON_DIE_SEL.ENABLE (d : Nat) (n : Nat) : FieldRef := ⟨PMON_DIE_SEL.addr d n, 0, 1⟩
def PMON_DIE_SEL.fields : List FieldRow :=
  [⟨40, 8, .rw, 0x0⟩,
   ⟨16, 16, .rw, 0x0⟩,
   ⟨3, 1, .rw, 0x0⟩,
   ⟨2, 1, .w1c, 0x0⟩,
   ⟨0, 1, .rw, 0x0⟩]

/-- PMON_DIE_CTR (Table 16-2). -/
def PMON_DIE_CTR.addr (d : Nat) (n : Nat) : Nat := dieBase d + 0x4200 + 8 * min n 64
def PMON_DIE_CTR.COUNT (d : Nat) (n : Nat) : FieldRef := ⟨PMON_DIE_CTR.addr d n, 0, 48⟩
def PMON_DIE_CTR.fields : List FieldRow :=
  [⟨0, 48, .rw, 0x0⟩]

/-- TOLL (the entry words of Table 11-1). -/
def TOLL.addr (d : Nat) (i : Nat) (k : Nat) : Nat := dieBase d + 0x1000000 + 32 * min i 16384 + 8 * min k 4
def TOLL.VALUE (d : Nat) (i : Nat) (k : Nat) : FieldRef := ⟨TOLL.addr d i k, 0, 64⟩
def TOLL.fields : List FieldRow :=
  [⟨0, 64, .ro, 0x0⟩]

/-- CL_XSTAT (Table 12-7). -/
def CL_XSTAT.addr (c : Nat) : Nat := clusterBase c
def CL_XSTAT.OVERRUN (c : Nat) : FieldRef := ⟨CL_XSTAT.addr c, 48, 16⟩
def CL_XSTAT.RESET_SEEN (c : Nat) : FieldRef := ⟨CL_XSTAT.addr c, 32, 16⟩
def CL_XSTAT.IN_RESET (c : Nat) : FieldRef := ⟨CL_XSTAT.addr c, 16, 16⟩
def CL_XSTAT.RELEASE_BAD (c : Nat) : FieldRef := ⟨CL_XSTAT.addr c, 8, 1⟩
def CL_XSTAT.fields : List FieldRow :=
  [⟨48, 16, .w1c, 0x0⟩,
   ⟨32, 16, .w1c, 0x0⟩,
   ⟨16, 16, .ro, 0x0⟩,
   ⟨8, 1, .w1c, 0x0⟩]

/-- CL_XERR (Table 12-8). -/
def CL_XERR.addr (c : Nat) (n : Nat) : Nat := clusterBase c + 0x8 + 8 * (n % 4)
def CL_XERR.UNC_3 (c : Nat) (n : Nat) : FieldRef := ⟨CL_XERR.addr c n, 60, 4⟩
def CL_XERR.CORR_3 (c : Nat) (n : Nat) : FieldRef := ⟨CL_XERR.addr c n, 48, 12⟩
def CL_XERR.UNC_2 (c : Nat) (n : Nat) : FieldRef := ⟨CL_XERR.addr c n, 44, 4⟩
def CL_XERR.CORR_2 (c : Nat) (n : Nat) : FieldRef := ⟨CL_XERR.addr c n, 32, 12⟩
def CL_XERR.UNC_1 (c : Nat) (n : Nat) : FieldRef := ⟨CL_XERR.addr c n, 28, 4⟩
def CL_XERR.CORR_1 (c : Nat) (n : Nat) : FieldRef := ⟨CL_XERR.addr c n, 16, 12⟩
def CL_XERR.UNC_0 (c : Nat) (n : Nat) : FieldRef := ⟨CL_XERR.addr c n, 12, 4⟩
def CL_XERR.CORR_0 (c : Nat) (n : Nat) : FieldRef := ⟨CL_XERR.addr c n, 0, 12⟩
def CL_XERR.fields : List FieldRow :=
  [⟨60, 4, .ro, 0x0⟩,
   ⟨48, 12, .ro, 0x0⟩,
   ⟨44, 4, .ro, 0x0⟩,
   ⟨32, 12, .ro, 0x0⟩,
   ⟨28, 4, .ro, 0x0⟩,
   ⟨16, 12, .ro, 0x0⟩,
   ⟨12, 4, .ro, 0x0⟩,
   ⟨0, 12, .ro, 0x0⟩]

/-- CL_TALLY_SEL (Table 09-8). -/
def CL_TALLY_SEL.addr (c : Nat) : Nat := clusterBase c + 0x28
def CL_TALLY_SEL.INDEX (c : Nat) : FieldRef := ⟨CL_TALLY_SEL.addr c, 0, 8⟩
def CL_TALLY_SEL.fields : List FieldRow :=
  [⟨0, 8, .rw, 0x0⟩]

/-- CL_TALLY_A (Table 09-9). -/
def CL_TALLY_A.addr (c : Nat) : Nat := clusterBase c + 0x30
def CL_TALLY_A.TOTAL (c : Nat) : FieldRef := ⟨CL_TALLY_A.addr c, 32, 32⟩
def CL_TALLY_A.OUT (c : Nat) : FieldRef := ⟨CL_TALLY_A.addr c, 0, 32⟩
def CL_TALLY_A.fields : List FieldRow :=
  [⟨32, 32, .ro, 0x0⟩,
   ⟨0, 32, .ro, 0x0⟩]

/-- CL_TALLY_B (Table 09-10). -/
def CL_TALLY_B.addr (c : Nat) : Nat := clusterBase c + 0x38
def CL_TALLY_B.VALUE (c : Nat) : FieldRef := ⟨CL_TALLY_B.addr c, 0, 64⟩
def CL_TALLY_B.fields : List FieldRow :=
  [⟨0, 64, .ro, 0x0⟩]

/-- CL_TALLY_C (Table 09-10). -/
def CL_TALLY_C.addr (c : Nat) : Nat := clusterBase c + 0x40
def CL_TALLY_C.VALUE (c : Nat) : FieldRef := ⟨CL_TALLY_C.addr c, 0, 64⟩
def CL_TALLY_C.fields : List FieldRow :=
  [⟨0, 64, .ro, 0x0⟩]

/-- CL_TALLY_D (Table 09-11). -/
def CL_TALLY_D.addr (c : Nat) : Nat := clusterBase c + 0x48
def CL_TALLY_D.ISSUED_HI (c : Nat) : FieldRef := ⟨CL_TALLY_D.addr c, 48, 16⟩
def CL_TALLY_D.RETURNED_HI (c : Nat) : FieldRef := ⟨CL_TALLY_D.addr c, 32, 16⟩
def CL_TALLY_D.CORRECTED (c : Nat) : FieldRef := ⟨CL_TALLY_D.addr c, 16, 16⟩
def CL_TALLY_D.fields : List FieldRow :=
  [⟨48, 16, .ro, 0x0⟩,
   ⟨32, 16, .ro, 0x0⟩,
   ⟨16, 16, .ro, 0x0⟩]

/-- CL_TALLY_E (Table 09-10). -/
def CL_TALLY_E.addr (c : Nat) : Nat := clusterBase c + 0x50
def CL_TALLY_E.VALUE (c : Nat) : FieldRef := ⟨CL_TALLY_E.addr c, 0, 64⟩
def CL_TALLY_E.fields : List FieldRow :=
  [⟨0, 64, .ro, 0x0⟩]

/-- CL_WCON_CTL (Table 10-14). -/
def CL_WCON_CTL.addr (c : Nat) : Nat := clusterBase c + 0x58
def CL_WCON_CTL.TRIGGER_COUNT (c : Nat) : FieldRef := ⟨CL_WCON_CTL.addr c, 24, 8⟩
def CL_WCON_CTL.RELEASE (c : Nat) : FieldRef := ⟨CL_WCON_CTL.addr c, 17, 1⟩
def CL_WCON_CTL.TRIGGER (c : Nat) : FieldRef := ⟨CL_WCON_CTL.addr c, 16, 1⟩
def CL_WCON_CTL.WINDOW (c : Nat) : FieldRef := ⟨CL_WCON_CTL.addr c, 0, 10⟩
def CL_WCON_CTL.fields : List FieldRow :=
  [⟨24, 8, .ro, 0x0⟩,
   ⟨17, 1, .wo, 0x0⟩,
   ⟨16, 1, .wo, 0x0⟩,
   ⟨0, 10, .rw, 0x0⟩]

/-- WIN_TRACK (Table 06-11). -/
def WIN_TRACK.addr (c : Nat) : Nat := clusterBase c + 0x60
def WIN_TRACK.TRACK_USED (c : Nat) : FieldRef := ⟨WIN_TRACK.addr c, 48, 12⟩
def WIN_TRACK.TRACK_PEAK (c : Nat) : FieldRef := ⟨WIN_TRACK.addr c, 36, 12⟩
def WIN_TRACK.NO_MATCH (c : Nat) : FieldRef := ⟨WIN_TRACK.addr c, 16, 16⟩
def WIN_TRACK.TRACK_FULL (c : Nat) : FieldRef := ⟨WIN_TRACK.addr c, 0, 16⟩
def WIN_TRACK.fields : List FieldRow :=
  [⟨48, 12, .ro, 0x0⟩,
   ⟨36, 12, .ro, 0x0⟩,
   ⟨16, 16, .ro, 0x0⟩,
   ⟨0, 16, .ro, 0x0⟩]

/-- PMON_CL_CTL (Table 16-6). -/
def PMON_CL_CTL.addr (c : Nat) : Nat := clusterBase c + 0x68
def PMON_CL_CTL.DEFERRED (c : Nat) : FieldRef := ⟨PMON_CL_CTL.addr c, 32, 16⟩
def PMON_CL_CTL.SLOTS (c : Nat) : FieldRef := ⟨PMON_CL_CTL.addr c, 3, 1⟩
def PMON_CL_CTL.ALL_OFF (c : Nat) : FieldRef := ⟨PMON_CL_CTL.addr c, 2, 1⟩
def PMON_CL_CTL.ALL_ON (c : Nat) : FieldRef := ⟨PMON_CL_CTL.addr c, 1, 1⟩
def PMON_CL_CTL.fields : List FieldRow :=
  [⟨32, 16, .ro, 0x0⟩,
   ⟨3, 1, .rw, 0x0⟩,
   ⟨2, 1, .wo, 0x0⟩,
   ⟨1, 1, .wo, 0x0⟩]

/-- PMON_CL_HI (Table 16-2). -/
def PMON_CL_HI.addr (c : Nat) : Nat := clusterBase c + 0x70
def PMON_CL_HI.HIGH (c : Nat) : FieldRef := ⟨PMON_CL_HI.addr c, 0, 48⟩
def PMON_CL_HI.fields : List FieldRow :=
  [⟨0, 48, .ro, 0x0⟩]

/-- CL_WCON_MAP (Table 10-15). -/
def CL_WCON_MAP.addr (c : Nat) (n : Nat) : Nat := clusterBase c + 0x80 + 8 * min n 16
def CL_WCON_MAP.CONTAINED (c : Nat) (n : Nat) : FieldRef := ⟨CL_WCON_MAP.addr c n, 0, 64⟩
def CL_WCON_MAP.fields : List FieldRow :=
  [⟨0, 64, .ro, 0x0⟩]

/-- LN_STATE (Table 03-16). -/
def LN_STATE.addr (l : Nat) : Nat := laneBase l
def LN_STATE.RETRAIN_COUNT (l : Nat) : FieldRef := ⟨LN_STATE.addr l, 48, 8⟩
def LN_STATE.DROP_COUNT (l : Nat) : FieldRef := ⟨LN_STATE.addr l, 40, 8⟩
def LN_STATE.TRAIN_STATE (l : Nat) : FieldRef := ⟨LN_STATE.addr l, 32, 4⟩
def LN_STATE.TX_SLEEP (l : Nat) : FieldRef := ⟨LN_STATE.addr l, 30, 2⟩
def LN_STATE.RX_SLEEP (l : Nat) : FieldRef := ⟨LN_STATE.addr l, 28, 2⟩
def LN_STATE.BLOCK_LOCK (l : Nat) : FieldRef := ⟨LN_STATE.addr l, 27, 1⟩
def LN_STATE.IN_MASK (l : Nat) : FieldRef := ⟨LN_STATE.addr l, 26, 1⟩
def LN_STATE.POL_INV (l : Nat) : FieldRef := ⟨LN_STATE.addr l, 25, 1⟩
def LN_STATE.ADAPT_FROZEN (l : Nat) : FieldRef := ⟨LN_STATE.addr l, 24, 1⟩
def LN_STATE.FREEZE_CAUSE (l : Nat) : FieldRef := ⟨LN_STATE.addr l, 20, 4⟩
def LN_STATE.ROLE (l : Nat) : FieldRef := ⟨LN_STATE.addr l, 0, 3⟩
def LN_STATE.fields : List FieldRow :=
  [⟨48, 8, .ro, 0x0⟩,
   ⟨40, 8, .ro, 0x0⟩,
   ⟨32, 4, .ro, 0x0⟩,
   ⟨30, 2, .ro, 0x2⟩,
   ⟨28, 2, .ro, 0x2⟩,
   ⟨27, 1, .ro, 0x0⟩,
   ⟨26, 1, .ro, 0x0⟩,
   ⟨25, 1, .ro, 0x0⟩,
   ⟨24, 1, .ro, 0x1⟩,
   ⟨20, 4, .ro, 0x4⟩,
   ⟨0, 3, .ro, 0x0⟩]

/-- LN_QUAL (Table 03-10). -/
def LN_QUAL.addr (l : Nat) : Nat := laneBase l + 0x8
def LN_QUAL.FOM (l : Nat) : FieldRef := ⟨LN_QUAL.addr l, 56, 8⟩
def LN_QUAL.BASELINE (l : Nat) : FieldRef := ⟨LN_QUAL.addr l, 48, 8⟩
def LN_QUAL.FLOOR (l : Nat) : FieldRef := ⟨LN_QUAL.addr l, 40, 8⟩
def LN_QUAL.DELTA (l : Nat) : FieldRef := ⟨LN_QUAL.addr l, 32, 8⟩
def LN_QUAL.DRIFT_TIME (l : Nat) : FieldRef := ⟨LN_QUAL.addr l, 16, 16⟩
def LN_QUAL.DENSE (l : Nat) : FieldRef := ⟨LN_QUAL.addr l, 3, 1⟩
def LN_QUAL.SAMPLER_OWNED (l : Nat) : FieldRef := ⟨LN_QUAL.addr l, 2, 1⟩
def LN_QUAL.DRIFT_LIVE (l : Nat) : FieldRef := ⟨LN_QUAL.addr l, 1, 1⟩
def LN_QUAL.DRIFT_SEEN (l : Nat) : FieldRef := ⟨LN_QUAL.addr l, 0, 1⟩
def LN_QUAL.fields : List FieldRow :=
  [⟨56, 8, .ro, 0x0⟩,
   ⟨48, 8, .ro, 0x0⟩,
   ⟨40, 8, .ro, 0x0⟩,
   ⟨32, 8, .ro, 0x0⟩,
   ⟨16, 16, .ro, 0x0⟩,
   ⟨3, 1, .ro, 0x0⟩,
   ⟨2, 1, .ro, 0x0⟩,
   ⟨1, 1, .ro, 0x0⟩,
   ⟨0, 1, .w1c, 0x0⟩]

/-- LN_EYE (Table 03-12). -/
def LN_EYE.addr (l : Nat) : Nat := laneBase l + 0x10
def LN_EYE.CONTOURS (l : Nat) : FieldRef := ⟨LN_EYE.addr l, 48, 16⟩
def LN_EYE.TARGET (l : Nat) : FieldRef := ⟨LN_EYE.addr l, 40, 4⟩
def LN_EYE.COLUMN (l : Nat) : FieldRef := ⟨LN_EYE.addr l, 24, 8⟩
def LN_EYE.EYE (l : Nat) : FieldRef := ⟨LN_EYE.addr l, 22, 2⟩
def LN_EYE.EYE_VALID (l : Nat) : FieldRef := ⟨LN_EYE.addr l, 16, 1⟩
def LN_EYE.TOP (l : Nat) : FieldRef := ⟨LN_EYE.addr l, 8, 8⟩
def LN_EYE.BOTTOM (l : Nat) : FieldRef := ⟨LN_EYE.addr l, 0, 8⟩
def LN_EYE.fields : List FieldRow :=
  [⟨48, 16, .ro, 0x0⟩,
   ⟨40, 4, .rw, 0x6⟩,
   ⟨24, 8, .rw, 0x0⟩,
   ⟨22, 2, .rw, 0x0⟩,
   ⟨16, 1, .ro, 0x0⟩,
   ⟨8, 8, .ro, 0x0⟩,
   ⟨0, 8, .ro, 0x0⟩]

/-- LN_TXEQ (Table 03-8). -/
def LN_TXEQ.addr (l : Nat) : Nat := laneBase l + 0x18
def LN_TXEQ.FORCE_PRESET (l : Nat) : FieldRef := ⟨LN_TXEQ.addr l, 36, 4⟩
def LN_TXEQ.PRESET_IN_USE (l : Nat) : FieldRef := ⟨LN_TXEQ.addr l, 32, 4⟩
def LN_TXEQ.MAIN (l : Nat) : FieldRef := ⟨LN_TXEQ.addr l, 16, 7⟩
def LN_TXEQ.POST (l : Nat) : FieldRef := ⟨LN_TXEQ.addr l, 8, 6⟩
def LN_TXEQ.PRE (l : Nat) : FieldRef := ⟨LN_TXEQ.addr l, 0, 6⟩
def LN_TXEQ.fields : List FieldRow :=
  [⟨36, 4, .rw, 0x0⟩,
   ⟨32, 4, .ro, 0x0⟩,
   ⟨16, 7, .ro, 0x40⟩,
   ⟨8, 6, .ro, 0x0⟩,
   ⟨0, 6, .ro, 0x0⟩]

/-- LN_FEC_CORR (Table 03-4). -/
def LN_FEC_CORR.addr (l : Nat) : Nat := laneBase l + 0x20
def LN_FEC_CORR.VALUE (l : Nat) : FieldRef := ⟨LN_FEC_CORR.addr l, 0, 64⟩
def LN_FEC_CORR.fields : List FieldRow :=
  [⟨0, 64, .ro, 0x0⟩]

/-- LN_FEC_UNC (Table 03-4). -/
def LN_FEC_UNC.addr (l : Nat) : Nat := laneBase l + 0x28
def LN_FEC_UNC.VALUE (l : Nat) : FieldRef := ⟨LN_FEC_UNC.addr l, 0, 64⟩
def LN_FEC_UNC.fields : List FieldRow :=
  [⟨0, 64, .ro, 0x0⟩]

/-- LN_BLK_ERR (Table 03-4). -/
def LN_BLK_ERR.addr (l : Nat) : Nat := laneBase l + 0x30
def LN_BLK_ERR.VALUE (l : Nat) : FieldRef := ⟨LN_BLK_ERR.addr l, 0, 64⟩
def LN_BLK_ERR.fields : List FieldRow :=
  [⟨0, 64, .ro, 0x0⟩]

/-- PORT_BOND (Table 03-15). -/
def PORT_BOND.addr (p : Nat) : Nat := portBase p
def PORT_BOND.WIDTH_CHANGES (p : Nat) : FieldRef := ⟨PORT_BOND.addr p, 40, 8⟩
def PORT_BOND.MIN_LANES (p : Nat) : FieldRef := ⟨PORT_BOND.addr p, 32, 5⟩
def PORT_BOND.TX_MASK (p : Nat) : FieldRef := ⟨PORT_BOND.addr p, 16, 16⟩
def PORT_BOND.RX_MASK (p : Nat) : FieldRef := ⟨PORT_BOND.addr p, 0, 16⟩
def PORT_BOND.fields : List FieldRow :=
  [⟨40, 8, .ro, 0x0⟩,
   ⟨32, 5, .ro, 0x1⟩,
   ⟨16, 16, .ro, 0x0⟩,
   ⟨0, 16, .ro, 0x0⟩]

/-- PORT_LINK (Table 04-13). -/
def PORT_LINK.addr (p : Nat) : Nat := portBase p + 0x8
def PORT_LINK.TX_NEXT (p : Nat) : FieldRef := ⟨PORT_LINK.addr p, 50, 14⟩
def PORT_LINK.RX_EXPECT (p : Nat) : FieldRef := ⟨PORT_LINK.addr p, 36, 14⟩
def PORT_LINK.HELD (p : Nat) : FieldRef := ⟨PORT_LINK.addr p, 23, 13⟩
def PORT_LINK.LL_STATE (p : Nat) : FieldRef := ⟨PORT_LINK.addr p, 20, 3⟩
def PORT_LINK.NAK_PENDING (p : Nat) : FieldRef := ⟨PORT_LINK.addr p, 19, 1⟩
def PORT_LINK.REACH_SHORT (p : Nat) : FieldRef := ⟨PORT_LINK.addr p, 18, 1⟩
def PORT_LINK.REWINDS (p : Nat) : FieldRef := ⟨PORT_LINK.addr p, 8, 8⟩
def PORT_LINK.NAKS_SENT (p : Nat) : FieldRef := ⟨PORT_LINK.addr p, 0, 8⟩
def PORT_LINK.fields : List FieldRow :=
  [⟨50, 14, .ro, 0x0⟩,
   ⟨36, 14, .ro, 0x0⟩,
   ⟨23, 13, .ro, 0x0⟩,
   ⟨20, 3, .ro, 0x0⟩,
   ⟨19, 1, .ro, 0x0⟩,
   ⟨18, 1, .ro, 0x0⟩,
   ⟨8, 8, .ro, 0x0⟩,
   ⟨0, 8, .ro, 0x0⟩]

/-- PORT_CRC_ERR (Table 04-14). -/
def PORT_CRC_ERR.addr (p : Nat) : Nat := portBase p + 0x10
def PORT_CRC_ERR.VALUE (p : Nat) : FieldRef := ⟨PORT_CRC_ERR.addr p, 0, 64⟩
def PORT_CRC_ERR.fields : List FieldRow :=
  [⟨0, 64, .ro, 0x0⟩]

/-- PORT_REPLAYED (Table 04-14). -/
def PORT_REPLAYED.addr (p : Nat) : Nat := portBase p + 0x18
def PORT_REPLAYED.VALUE (p : Nat) : FieldRef := ⟨PORT_REPLAYED.addr p, 0, 64⟩
def PORT_REPLAYED.fields : List FieldRow :=
  [⟨0, 64, .ro, 0x0⟩]

/-- PORT_MALFORMED (Table 04-14). -/
def PORT_MALFORMED.addr (p : Nat) : Nat := portBase p + 0x20
def PORT_MALFORMED.VALUE (p : Nat) : FieldRef := ⟨PORT_MALFORMED.addr p, 0, 64⟩
def PORT_MALFORMED.fields : List FieldRow :=
  [⟨0, 64, .ro, 0x0⟩]

/-- PORT_TALLY (Table 09-12). -/
def PORT_TALLY.addr (p : Nat) : Nat := portBase p + 0x28
def PORT_TALLY.TALLY_RX (p : Nat) : FieldRef := ⟨PORT_TALLY.addr p, 32, 32⟩
def PORT_TALLY.MISMATCHES (p : Nat) : FieldRef := ⟨PORT_TALLY.addr p, 24, 8⟩
def PORT_TALLY.LAST_CHECK (p : Nat) : FieldRef := ⟨PORT_TALLY.addr p, 20, 4⟩
def PORT_TALLY.LAST_PAIR (p : Nat) : FieldRef := ⟨PORT_TALLY.addr p, 16, 4⟩
def PORT_TALLY.LAST_AGE (p : Nat) : FieldRef := ⟨PORT_TALLY.addr p, 0, 16⟩
def PORT_TALLY.fields : List FieldRow :=
  [⟨32, 32, .ro, 0x0⟩,
   ⟨24, 8, .ro, 0x0⟩,
   ⟨20, 4, .ro, 0x0⟩,
   ⟨16, 4, .ro, 0x0⟩,
   ⟨0, 16, .ro, 0x0⟩]

/-- PORT_PCIE (Table 05-8). -/
def PORT_PCIE.addr (p : Nat) : Nat := portBase p + 0x30
def PORT_PCIE.LINK_STATE (p : Nat) : FieldRef := ⟨PORT_PCIE.addr p, 56, 4⟩
def PORT_PCIE.RATE (p : Nat) : FieldRef := ⟨PORT_PCIE.addr p, 52, 4⟩
def PORT_PCIE.WIDTH (p : Nat) : FieldRef := ⟨PORT_PCIE.addr p, 47, 5⟩
def PORT_PCIE.ACTIVE_WIDTH (p : Nat) : FieldRef := ⟨PORT_PCIE.addr p, 42, 5⟩
def PORT_PCIE.FLIT (p : Nat) : FieldRef := ⟨PORT_PCIE.addr p, 41, 1⟩
def PORT_PCIE.DL_ACTIVE (p : Nat) : FieldRef := ⟨PORT_PCIE.addr p, 40, 1⟩
def PORT_PCIE.TAG_BITS (p : Nat) : FieldRef := ⟨PORT_PCIE.addr p, 38, 2⟩
def PORT_PCIE.CLK_MODE (p : Nat) : FieldRef := ⟨PORT_PCIE.addr p, 36, 2⟩
def PORT_PCIE.TAGS_OUT (p : Nat) : FieldRef := ⟨PORT_PCIE.addr p, 16, 15⟩
def PORT_PCIE.LINK_DOWNS (p : Nat) : FieldRef := ⟨PORT_PCIE.addr p, 8, 8⟩
def PORT_PCIE.RECOVERIES (p : Nat) : FieldRef := ⟨PORT_PCIE.addr p, 0, 8⟩
def PORT_PCIE.fields : List FieldRow :=
  [⟨56, 4, .ro, 0x0⟩,
   ⟨52, 4, .ro, 0x0⟩,
   ⟨47, 5, .ro, 0x0⟩,
   ⟨42, 5, .ro, 0x0⟩,
   ⟨41, 1, .ro, 0x0⟩,
   ⟨40, 1, .ro, 0x0⟩,
   ⟨38, 2, .ro, 0x0⟩,
   ⟨36, 2, .ro, 0x0⟩,
   ⟨16, 15, .ro, 0x0⟩,
   ⟨8, 8, .ro, 0x0⟩,
   ⟨0, 8, .ro, 0x0⟩]

/-- PORT_DPC (Table 05-9). -/
def PORT_DPC.addr (p : Nat) : Nat := portBase p + 0x38
def PORT_DPC.TRIGGER_COUNT (p : Nat) : FieldRef := ⟨PORT_DPC.addr p, 40, 8⟩
def PORT_DPC.CLEAR_PENDING (p : Nat) : FieldRef := ⟨PORT_DPC.addr p, 32, 7⟩
def PORT_DPC.REASON (p : Nat) : FieldRef := ⟨PORT_DPC.addr p, 16, 8⟩
def PORT_DPC.RELEASE (p : Nat) : FieldRef := ⟨PORT_DPC.addr p, 2, 1⟩
def PORT_DPC.TRIGGER (p : Nat) : FieldRef := ⟨PORT_DPC.addr p, 1, 1⟩
def PORT_DPC.CONTAINED (p : Nat) : FieldRef := ⟨PORT_DPC.addr p, 0, 1⟩
def PORT_DPC.fields : List FieldRow :=
  [⟨40, 8, .ro, 0x0⟩,
   ⟨32, 7, .ro, 0x0⟩,
   ⟨16, 8, .ro, 0x0⟩,
   ⟨2, 1, .wo, 0x0⟩,
   ⟨1, 1, .wo, 0x0⟩,
   ⟨0, 1, .ro, 0x0⟩]

/-- PORT_LOCK (Table 07-6). -/
def PORT_LOCK.addr (p : Nat) : Nat := portBase p + 0x40
def PORT_LOCK.ATOMIC_REFUSED (p : Nat) : FieldRef := ⟨PORT_LOCK.addr p, 48, 16⟩
def PORT_LOCK.HOLD_LIMIT (p : Nat) : FieldRef := ⟨PORT_LOCK.addr p, 32, 16⟩
def PORT_LOCK.HELD (p : Nat) : FieldRef := ⟨PORT_LOCK.addr p, 16, 16⟩
def PORT_LOCK.BREAKS (p : Nat) : FieldRef := ⟨PORT_LOCK.addr p, 8, 8⟩
def PORT_LOCK.LOCKABLE (p : Nat) : FieldRef := ⟨PORT_LOCK.addr p, 1, 1⟩
def PORT_LOCK.LOCKED (p : Nat) : FieldRef := ⟨PORT_LOCK.addr p, 0, 1⟩
def PORT_LOCK.fields : List FieldRow :=
  [⟨48, 16, .ro, 0x0⟩,
   ⟨32, 16, .rw, 0x64⟩,
   ⟨16, 16, .ro, 0x0⟩,
   ⟨8, 8, .ro, 0x0⟩,
   ⟨1, 1, .rw, 0x0⟩,
   ⟨0, 1, .ro, 0x0⟩]

/-- PORT_CONTAIN (Table 10-13). -/
def PORT_CONTAIN.addr (p : Nat) : Nat := portBase p + 0x48
def PORT_CONTAIN.TRIGGER_COUNT (p : Nat) : FieldRef := ⟨PORT_CONTAIN.addr p, 40, 8⟩
def PORT_CONTAIN.REASON (p : Nat) : FieldRef := ⟨PORT_CONTAIN.addr p, 16, 8⟩
def PORT_CONTAIN.RELEASE (p : Nat) : FieldRef := ⟨PORT_CONTAIN.addr p, 2, 1⟩
def PORT_CONTAIN.TRIGGER (p : Nat) : FieldRef := ⟨PORT_CONTAIN.addr p, 1, 1⟩
def PORT_CONTAIN.CONTAINED (p : Nat) : FieldRef := ⟨PORT_CONTAIN.addr p, 0, 1⟩
def PORT_CONTAIN.fields : List FieldRow :=
  [⟨40, 8, .ro, 0x0⟩,
   ⟨16, 8, .ro, 0x0⟩,
   ⟨2, 1, .wo, 0x0⟩,
   ⟨1, 1, .wo, 0x0⟩,
   ⟨0, 1, .ro, 0x0⟩]

/-- PORT_BOUND (Table 08-12). -/
def PORT_BOUND.addr (p : Nat) : Nat := portBase p + 0x50
def PORT_BOUND.BULK (p : Nat) : FieldRef := ⟨PORT_BOUND.addr p, 42, 21⟩
def PORT_BOUND.STANDARD (p : Nat) : FieldRef := ⟨PORT_BOUND.addr p, 21, 21⟩
def PORT_BOUND.PROMPT (p : Nat) : FieldRef := ⟨PORT_BOUND.addr p, 0, 21⟩
def PORT_BOUND.fields : List FieldRow :=
  [⟨42, 21, .ro, 0x1FFFFF⟩,
   ⟨21, 21, .ro, 0x1FFFFF⟩,
   ⟨0, 21, .ro, 0x1FFFFF⟩]

/-- PORT_SLUICE (Table 08-13). -/
def PORT_SLUICE.addr (p : Nat) : Nat := portBase p + 0x58
def PORT_SLUICE.SURROGATES (p : Nat) : FieldRef := ⟨PORT_SLUICE.addr p, 48, 16⟩
def PORT_SLUICE.LATE_ANSWERS (p : Nat) : FieldRef := ⟨PORT_SLUICE.addr p, 32, 16⟩
def PORT_SLUICE.MISSES (p : Nat) : FieldRef := ⟨PORT_SLUICE.addr p, 16, 16⟩
def PORT_SLUICE.TRANSIT_HELD (p : Nat) : FieldRef := ⟨PORT_SLUICE.addr p, 0, 16⟩
def PORT_SLUICE.fields : List FieldRow :=
  [⟨48, 16, .ro, 0x0⟩,
   ⟨32, 16, .ro, 0x0⟩,
   ⟨16, 16, .ro, 0x0⟩,
   ⟨0, 16, .ro, 0x0⟩]

/-- PORT_HOLD (Table 08-14). -/
def PORT_HOLD.addr (p : Nat) : Nat := portBase p + 0x60
def PORT_HOLD.P_CAUSE (p : Nat) : FieldRef := ⟨PORT_HOLD.addr p, 28, 4⟩
def PORT_HOLD.NP_CAUSE (p : Nat) : FieldRef := ⟨PORT_HOLD.addr p, 24, 4⟩
def PORT_HOLD.NP_HELD (p : Nat) : FieldRef := ⟨PORT_HOLD.addr p, 0, 24⟩
def PORT_HOLD.fields : List FieldRow :=
  [⟨28, 4, .ro, 0x0⟩,
   ⟨24, 4, .ro, 0x0⟩,
   ⟨0, 24, .ro, 0x0⟩]

/-- PORT_WAKE (Table 15-9). -/
def PORT_WAKE.addr (p : Nat) : Nat := portBase p + 0x68
def PORT_WAKE.SLEEP (p : Nat) : FieldRef := ⟨PORT_WAKE.addr p, 2, 2⟩
def PORT_WAKE.STANDBY (p : Nat) : FieldRef := ⟨PORT_WAKE.addr p, 1, 1⟩
def PORT_WAKE.WAKE (p : Nat) : FieldRef := ⟨PORT_WAKE.addr p, 0, 1⟩
def PORT_WAKE.fields : List FieldRow :=
  [⟨2, 2, .ro, 0x0⟩,
   ⟨1, 1, .ro, 0x0⟩,
   ⟨0, 1, .wo, 0x0⟩]

/-- PMON_CL_SEL (Table 16-1). -/
def PMON_CL_SEL.addr (c : Nat) (n : Nat) : Nat := clusterBase c + 0x4000 + 8 * min n 32
def PMON_CL_SEL.EVENT (c : Nat) (n : Nat) : FieldRef := ⟨PMON_CL_SEL.addr c n, 40, 8⟩
def PMON_CL_SEL.QUAL (c : Nat) (n : Nat) : FieldRef := ⟨PMON_CL_SEL.addr c n, 16, 16⟩
def PMON_CL_SEL.CHAIN (c : Nat) (n : Nat) : FieldRef := ⟨PMON_CL_SEL.addr c n, 3, 1⟩
def PMON_CL_SEL.SAT (c : Nat) (n : Nat) : FieldRef := ⟨PMON_CL_SEL.addr c n, 2, 1⟩
def PMON_CL_SEL.ENABLE (c : Nat) (n : Nat) : FieldRef := ⟨PMON_CL_SEL.addr c n, 0, 1⟩
def PMON_CL_SEL.fields : List FieldRow :=
  [⟨40, 8, .rw, 0x0⟩,
   ⟨16, 16, .rw, 0x0⟩,
   ⟨3, 1, .rw, 0x0⟩,
   ⟨2, 1, .w1c, 0x0⟩,
   ⟨0, 1, .rw, 0x0⟩]

/-- PMON_CL_CTR (Table 16-2). -/
def PMON_CL_CTR.addr (c : Nat) (n : Nat) : Nat := clusterBase c + 0x4100 + 8 * min n 32
def PMON_CL_CTR.COUNT (c : Nat) (n : Nat) : FieldRef := ⟨PMON_CL_CTR.addr c n, 0, 48⟩
def PMON_CL_CTR.fields : List FieldRow :=
  [⟨0, 48, .rw, 0x0⟩]

/-- WIN_BASE (Table 06-9). -/
def WIN_BASE.addr (w : Nat) : Nat := windowBase w
def WIN_BASE.BASE (w : Nat) : FieldRef := ⟨WIN_BASE.addr w, 12, 52⟩
def WIN_BASE.fields : List FieldRow :=
  [⟨12, 52, .ro, 0x0⟩]

/-- WIN_LIMIT (R310). -/
def WIN_LIMIT.addr (w : Nat) : Nat := windowBase w + 0x8
def WIN_LIMIT.LIMIT (w : Nat) : FieldRef := ⟨WIN_LIMIT.addr w, 12, 52⟩
def WIN_LIMIT.fields : List FieldRow :=
  [⟨12, 52, .ro, 0x0⟩]

/-- WIN_REMOTE (R310). -/
def WIN_REMOTE.addr (w : Nat) : Nat := windowBase w + 0x10
def WIN_REMOTE.REMOTE (w : Nat) : FieldRef := ⟨WIN_REMOTE.addr w, 12, 52⟩
def WIN_REMOTE.fields : List FieldRow :=
  [⟨12, 52, .ro, 0x0⟩]

/-- WIN_ATTR (R310). -/
def WIN_ATTR.addr (w : Nat) : Nat := windowBase w + 0x18
def WIN_ATTR.VALUE (w : Nat) : FieldRef := ⟨WIN_ATTR.addr w, 0, 64⟩
def WIN_ATTR.fields : List FieldRow :=
  [⟨0, 64, .ro, 0x0⟩]

/-- WIN_STATE (Table 06-10). -/
def WIN_STATE.addr (w : Nat) : Nat := windowBase w + 0x20
def WIN_STATE.LOSS_COUNT (w : Nat) : FieldRef := ⟨WIN_STATE.addr w, 40, 24⟩
def WIN_STATE.LOSS_SINCE (w : Nat) : FieldRef := ⟨WIN_STATE.addr w, 24, 16⟩
def WIN_STATE.ACK_OUT (w : Nat) : FieldRef := ⟨WIN_STATE.addr w, 12, 12⟩
def WIN_STATE.FOLLOW_MOVES (w : Nat) : FieldRef := ⟨WIN_STATE.addr w, 4, 8⟩
def WIN_STATE.STREAM (w : Nat) : FieldRef := ⟨WIN_STATE.addr w, 3, 1⟩
def WIN_STATE.FAIL_HELD (w : Nat) : FieldRef := ⟨WIN_STATE.addr w, 2, 1⟩
def WIN_STATE.ESCALATED (w : Nat) : FieldRef := ⟨WIN_STATE.addr w, 1, 1⟩
def WIN_STATE.VALID (w : Nat) : FieldRef := ⟨WIN_STATE.addr w, 0, 1⟩
def WIN_STATE.fields : List FieldRow :=
  [⟨40, 24, .ro, 0x0⟩,
   ⟨24, 16, .ro, 0x0⟩,
   ⟨12, 12, .ro, 0x0⟩,
   ⟨4, 8, .ro, 0x0⟩,
   ⟨3, 1, .ro, 0x0⟩,
   ⟨2, 1, .ro, 0x0⟩,
   ⟨1, 1, .w1c, 0x0⟩,
   ⟨0, 1, .ro, 0x0⟩]

/-- EVT_SRC_A (Table 10-5). -/
def EVT_SRC_A.addr (e : Nat) : Nat := eventBase e
def EVT_SRC_A.CAUSE (e : Nat) : FieldRef := ⟨EVT_SRC_A.addr e, 48, 16⟩
def EVT_SRC_A.LIVE (e : Nat) : FieldRef := ⟨EVT_SRC_A.addr e, 32, 16⟩
def EVT_SRC_A.COUNT (e : Nat) : FieldRef := ⟨EVT_SRC_A.addr e, 0, 32⟩
def EVT_SRC_A.fields : List FieldRow :=
  [⟨48, 16, .w1c, 0x0⟩,
   ⟨32, 16, .ro, 0x0⟩,
   ⟨0, 32, .ro, 0x0⟩]

/-- EVT_SRC_B (Table 10-6). -/
def EVT_SRC_B.addr (e : Nat) : Nat := eventBase e + 0x8
def EVT_SRC_B.FIRST (e : Nat) : FieldRef := ⟨EVT_SRC_B.addr e, 0, 64⟩
def EVT_SRC_B.fields : List FieldRow :=
  [⟨0, 64, .ro, 0x0⟩]

/-- EVT_SRC_C (Table 10-6). -/
def EVT_SRC_C.addr (e : Nat) : Nat := eventBase e + 0x10
def EVT_SRC_C.LAST (e : Nat) : FieldRef := ⟨EVT_SRC_C.addr e, 0, 64⟩
def EVT_SRC_C.fields : List FieldRow :=
  [⟨0, 64, .ro, 0x0⟩]

/-- The package block (Tables 17-2 and 17-3). PKG_SBS_STAGE, the pop windows and PKG_CPn_DOE are not field maps. -/
def packageRegs : List RegRow :=
  [⟨0x0, 0x8, 1, PKG_ID.fields⟩,
   ⟨0x8, 0x8, 1, PKG_SERIAL.fields⟩,
   ⟨0x10, 0x8, 1, PKG_LEAD.fields⟩,
   ⟨0x1000, 0x8, 1, PKG_MODE.fields⟩,
   ⟨0x1008, 0x8, 1, PKG_MODE_CTL.fields⟩,
   ⟨0x1010, 0x8, 1, PKG_FW.fields⟩,
   ⟨0x1018, 0x8, 1, PKG_BOUND.fields⟩,
   ⟨0x1020, 0x8, 1, PKG_LOCK.fields⟩,
   ⟨0x1028, 0x8, 1, PKG_FENCE_CL.fields⟩,
   ⟨0x1030, 0x8, 1, PKG_FENCE_RG.fields⟩,
   ⟨0x1038, 0x8, 1, TOLL_FENCE.fields⟩,
   ⟨0x1040, 0x8, 1, PKG_EVT_INJECT.fields⟩,
   ⟨0x1048, 0x8, 1, PKG_XSTAT.fields⟩,
   ⟨0x1050, 0x8, 1, PKG_SCOPE_RESET.fields⟩,
   ⟨0x2000, 0x8, 1, PKG_SBS_CTL.fields⟩,
   ⟨0x2008, 0x8, 1, PKG_SBS_STATUS.fields⟩,
   ⟨0x2010, 0x8, 1, PKG_NVS_CTL.fields⟩,
   ⟨0x2040, 0x8, 8, PKG_NVS_DATA.fields⟩,
   ⟨0x4000, 0x8, 1, SEAL_CTL.fields⟩,
   ⟨0x4008, 0x8, 1, SEAL_REMAIN.fields⟩,
   ⟨0x5000, 0x8, 64, SEM.fields⟩,
   ⟨0x6000, 0x800, 2, PKG_CP_STATE.fields⟩,
   ⟨0x6008, 0x800, 2, PKG_CP_IBA_CTL.fields⟩,
   ⟨0x6010, 0x800, 2, PKG_CP_IBA_STAT.fields⟩,
   ⟨0x6018, 0x800, 2, PKG_CP_IBA_DATA.fields⟩,
   ⟨0x6020, 0x800, 2, PKG_CP_EVOFFERED.fields⟩,
   ⟨0x6028, 0x800, 2, PKG_CP_EVDROPPED.fields⟩,
   ⟨0x6040, 0x8, 4, PKG_CP_EVQ.fields⟩,
   ⟨0x6840, 0x8, 4, PKG_CP_EVQ.fields⟩,
   ⟨0x7000, 0x8, 1, PKG_MGT_ACCEPT.fields⟩,
   ⟨0x7008, 0x8, 1, PKG_MGT_PRIV.fields⟩,
   ⟨0x7010, 0x8, 1, PKG_MGT_STAT.fields⟩,
   ⟨0x8000, 0x8, 1, PKG_MEAS_CTL.fields⟩,
   ⟨0x8008, 0x8, 6, PKG_MEAS_D.fields⟩,
   ⟨0x8038, 0x8, 6, PKG_MEAS_X.fields⟩,
   ⟨0x9000, 0x20, 64, EVT_SRC_A.fields⟩,
   ⟨0x9008, 0x20, 64, EVT_SRC_B.fields⟩,
   ⟨0x9010, 0x20, 64, EVT_SRC_C.fields⟩]

/-- The die global area and the access-control table (Table 17-7). -/
def dieRegs : List RegRow :=
  [⟨0x0, 0x8, 1, DIE_TIME.fields⟩,
   ⟨0x8, 0x8, 1, DIE_PWR.fields⟩,
   ⟨0x10, 0x8, 1, DIE_THERM.fields⟩,
   ⟨0x28, 0x8, 1, DIE_RECON.fields⟩,
   ⟨0x30, 0x8, 1, DIE_RECON_CTL.fields⟩,
   ⟨0x38, 0x8, 1, DIE_XSTAT.fields⟩,
   ⟨0x40, 0x8, 1, DIE_XDISCARD.fields⟩,
   ⟨0x48, 0x8, 1, DIE_TALLY_SEL.fields⟩,
   ⟨0x50, 0x8, 1, DIE_TALLY_A.fields⟩,
   ⟨0x58, 0x8, 1, DIE_TALLY_B.fields⟩,
   ⟨0x60, 0x8, 1, DIE_TALLY_C.fields⟩,
   ⟨0x68, 0x8, 1, DIE_TALLY_D.fields⟩,
   ⟨0x70, 0x8, 1, DIE_TALLY_E.fields⟩,
   ⟨0x78, 0x8, 1, DIE_EVT_INJECT.fields⟩,
   ⟨0x80, 0x8, 1, TOLL_CTL.fields⟩,
   ⟨0x88, 0x8, 1, TOLL_VIOL.fields⟩,
   ⟨0xD0, 0x8, 1, PMON_GATHER.fields⟩,
   ⟨0xD8, 0x8, 1, PMON_DIE_HI.fields⟩,
   ⟨0xE0, 0x8, 1, PMON_TQ_OFFERED.fields⟩,
   ⟨0xE8, 0x8, 1, PMON_TQ_DROPPED.fields⟩,
   ⟨0x18, 0x8, 2, DIE_KEEPER_WDT.fields⟩,
   ⟨0x90, 0x8, 4, TOLL_VFIRST.fields⟩,
   ⟨0xB0, 0x8, 4, TOLL_VLAST.fields⟩,
   ⟨0x1000, 0x20, 112, EVT_SRC_A.fields⟩,
   ⟨0x1008, 0x20, 112, EVT_SRC_B.fields⟩,
   ⟨0x1010, 0x20, 112, EVT_SRC_C.fields⟩,
   ⟨0x2000, 0x8, 36, EVT_LATCH.fields⟩,
   ⟨0x2200, 0x10, 4, EVT_XQ_OFFERED.fields⟩,
   ⟨0x2208, 0x10, 4, EVT_XQ_DROPPED.fields⟩,
   ⟨0x3000, 0x8, 256, EVT_PQ.fields⟩,
   ⟨0x3800, 0x10, 64, EVT_PQ_OFFERED.fields⟩,
   ⟨0x3808, 0x10, 64, EVT_PQ_DROPPED.fields⟩,
   ⟨0x4000, 0x8, 64, PMON_DIE_SEL.fields⟩,
   ⟨0x4200, 0x8, 64, PMON_DIE_CTR.fields⟩,
   ⟨0x1000000, 0x8, 65536, TOLL.fields⟩]

/-- A cluster block (Table 17-9). Engine memories are held apart. -/
def clusterRegs : List RegRow :=
  [⟨0x0, 0x8, 1, CL_XSTAT.fields⟩,
   ⟨0x28, 0x8, 1, CL_TALLY_SEL.fields⟩,
   ⟨0x30, 0x8, 1, CL_TALLY_A.fields⟩,
   ⟨0x38, 0x8, 1, CL_TALLY_B.fields⟩,
   ⟨0x40, 0x8, 1, CL_TALLY_C.fields⟩,
   ⟨0x48, 0x8, 1, CL_TALLY_D.fields⟩,
   ⟨0x50, 0x8, 1, CL_TALLY_E.fields⟩,
   ⟨0x58, 0x8, 1, CL_WCON_CTL.fields⟩,
   ⟨0x60, 0x8, 1, WIN_TRACK.fields⟩,
   ⟨0x68, 0x8, 1, PMON_CL_CTL.fields⟩,
   ⟨0x70, 0x8, 1, PMON_CL_HI.fields⟩,
   ⟨0x8, 0x8, 4, CL_XERR.fields⟩,
   ⟨0x80, 0x8, 16, CL_WCON_MAP.fields⟩,
   ⟨0x1000, 0x100, 8, LN_STATE.fields⟩,
   ⟨0x1008, 0x100, 8, LN_QUAL.fields⟩,
   ⟨0x1010, 0x100, 8, LN_EYE.fields⟩,
   ⟨0x1018, 0x100, 8, LN_TXEQ.fields⟩,
   ⟨0x1020, 0x100, 8, LN_FEC_CORR.fields⟩,
   ⟨0x1028, 0x100, 8, LN_FEC_UNC.fields⟩,
   ⟨0x1030, 0x100, 8, LN_BLK_ERR.fields⟩,
   ⟨0x2000, 0x200, 4, PORT_BOND.fields⟩,
   ⟨0x2008, 0x200, 4, PORT_LINK.fields⟩,
   ⟨0x2010, 0x200, 4, PORT_CRC_ERR.fields⟩,
   ⟨0x2018, 0x200, 4, PORT_REPLAYED.fields⟩,
   ⟨0x2020, 0x200, 4, PORT_MALFORMED.fields⟩,
   ⟨0x2028, 0x200, 4, PORT_TALLY.fields⟩,
   ⟨0x2030, 0x200, 4, PORT_PCIE.fields⟩,
   ⟨0x2038, 0x200, 4, PORT_DPC.fields⟩,
   ⟨0x2040, 0x200, 4, PORT_LOCK.fields⟩,
   ⟨0x2048, 0x200, 4, PORT_CONTAIN.fields⟩,
   ⟨0x2050, 0x200, 4, PORT_BOUND.fields⟩,
   ⟨0x2058, 0x200, 4, PORT_SLUICE.fields⟩,
   ⟨0x2060, 0x200, 4, PORT_HOLD.fields⟩,
   ⟨0x2068, 0x200, 4, PORT_WAKE.fields⟩,
   ⟨0x3000, 0x20, 64, EVT_SRC_A.fields⟩,
   ⟨0x3008, 0x20, 64, EVT_SRC_B.fields⟩,
   ⟨0x3010, 0x20, 64, EVT_SRC_C.fields⟩,
   ⟨0x4000, 0x8, 32, PMON_CL_SEL.fields⟩,
   ⟨0x4100, 0x8, 32, PMON_CL_CTR.fields⟩,
   ⟨0x10000, 0x40, 1024, WIN_BASE.fields⟩,
   ⟨0x10008, 0x40, 1024, WIN_LIMIT.fields⟩,
   ⟨0x10010, 0x40, 1024, WIN_REMOTE.fields⟩,
   ⟨0x10018, 0x40, 1024, WIN_ATTR.fields⟩,
   ⟨0x10020, 0x40, 1024, WIN_STATE.fields⟩]

/-- The register row that holds block offset o. -/
def findRow : List RegRow → Nat → Option RegRow
  | [], _ => none
  | r :: rs, o =>
    if r.base ≤ o ∧ o < r.base + r.stride * r.count ∧ (o - r.base) % r.stride = 0 then some r else findRow rs o

/-- Which block of Table 17-1 an offset lies in. -/
inductive Block where
  | package (o : Nat)
  | die (d o : Nat)
  | cluster (c o : Nat)
  | reserved
  deriving DecidableEq, Repr

/-- Table 17-1: the block an offset of the control space lies in, and the offset within it (R646). -/
def blockOf (a : Nat) : Block :=
  if a < 0x01000000 then .package a
  else if a < 0x10000000 then .reserved
  else if a < 0x30000000 then
    let d := (a - 0x10000000) / 0x08000000
    let o := (a - 0x10000000) % 0x08000000
    if o < 0x02000000 then .die d o
    else if o < 0x03000000 then .cluster (16 * d + (o - 0x02000000) / 0x100000) ((o - 0x02000000) % 0x100000)
    else .reserved
  else .reserved

/-- The field map of the register at a control-space offset, when the spec assigns it one. -/
def fieldsAt (a : Nat) : Option (List FieldRow) :=
  match blockOf a with
  | .package o => (findRow packageRegs o).map (·.fields)
  | .die _ o => (findRow dieRegs o).map (·.fields)
  | .cluster _ o => (findRow clusterRegs o).map (·.fields)
  | .reserved => none

/-- The register value whose fields hold their reset values. -/
def resetValue : List FieldRow → Nat
  | [] => 0
  | f :: fs => f.reset * 2 ^ f.lo + resetValue fs

/-- What the register at an offset reads after reset (R14: reserved bits read zero). -/
def resetWord (a : Nat) : Word :=
  match fieldsAt a with
  | some fs => BitVec.ofNat 64 (resetValue fs)
  | none => 0

end Sys2Proof.Machine
end

