-- ==== Sys2Proof/Machine/State.lean ====
section
/-! DEFINITION. The state of the package: plain data, every piece of state the spec gives the block, and the queue of the
commands that wait. State.reset is the package right after a power-on reset, standing in M1. -/

namespace Sys2Proof.Machine

/-- What the package is: its part (R1), its stepping (R5, R649) and its fused serial number (R650). Fixed for its life. -/
structure Chip where
  fb512 : Bool := true
  letter : Nat := 0x41
  digit : Nat := 1
  serial : Word := 1
  deriving DecidableEq, Repr

/-- The fuse banks of a value-bank setting above bank 0: value and valid fuse of each bank programmed (R105, R106). -/
structure FuseBank where
  value : Nat
  valid : Bool
  deriving DecidableEq, Repr

/-- The seal fuses (R105). `floor` is the number of thermometer fuses blown. -/
structure Fuses where
  domain : List FuseBank := []
  rank : List FuseBank := []
  floor : Nat := 0
  ceiling : List FuseBank := []
  priv : List FuseBank := []
  deriving DecidableEq, Repr

/-- The sealed values in force, loaded from the fuses at package reset (R106, R107). -/
structure Sealed where
  domain : Nat := 0
  rank : Nat := 0
  floor : Nat := 0
  ceiling : Nat := 0
  priv : Nat := 3
  deriving DecidableEq, Repr

/-- A staged seal request (R108): the setting, the value asked and the first 16 bytes of the image's DIGEST. -/
structure SealRequest where
  setting : Nat
  new : Nat
  image : List Byte
  deriving DecidableEq, Repr

/-- The state of an SBS slot in the store directory (R82). -/
inductive SlotState where
  | empty | writing | valid | invalid
  deriving DecidableEq, Repr

/-- The store directory of Table 02-4, decoded: slot states, BOOT_SEL, firmware banks marked Invalid (R57), the
blocks of the two banks that no longer hold the image of manufacture (R6), the next seal log entry and the next block of the persistent record ring. Its bytes' layout is not in the spec (log entry 14). -/
structure StoreDir where
  slotA : SlotState := .empty
  slotB : SlotState := .empty
  bootSel : Nat := 0
  bankInvalid0 : Bool := false
  bankInvalid1 : Bool := false
  fwWritten : List Nat := []
  sealNext : Nat := 0
  recordNext : Nat := 0
  deriving DecidableEq, Repr

/-- Where a streamed image is staged (R86). -/
inductive StageHome where
  | basins | reserve | slotA | slotB
  deriving DecidableEq, Repr

/-- The staged image (R86, R87, R693): its bytes so far, newest first in 8-byte writes kept in order, where it lies, who
streamed it, whether it overflowed (writes ignored until CMD 0x4) and whether a CMD has used it. -/
structure Staged where
  bytes : List Byte := []
  home : StageHome := .basins
  port : Nat := 0
  overflow : Bool := false
  used : Bool := false
  active : Bool := false
  deriving DecidableEq, Repr

/-- Where a full image comes from (R88, Table 02-6). -/
inductive ImageSource where
  | slotA | slotB | streamed
  deriving DecidableEq, Repr

/-- A full-image load under way in M3: the image under validation or applied, its bytes, and the sources left (R89). -/
structure Load where
  source : ImageSource
  bytes : List Byte
  port : Nat
  validated : Bool
  deriving DecidableEq, Repr

/-- How far a partial reload is (R95 to R104). -/
inductive ReloadStage where
  | validating | validated | draining | applying
  deriving DecidableEq, Repr

/-- The partial reload in progress. -/
structure Reload where
  region : Nat
  image : List Byte
  fromSlot : Bool
  stage : ReloadStage
  hitless : Bool
  deriving DecidableEq, Repr

/-- A slot write in progress: the slot and the whole image (R82, R87). -/
structure SlotWrite where
  slotB : Bool
  image : List Byte
  written : Bool
  deriving DecidableEq, Repr

/-- A store block read or write in progress (R651). -/
structure NvsOp where
  write : Bool
  block : Nat
  data : List Byte
  deriving DecidableEq, Repr

/-- The write of a firmware bank by the store procedure under way (R57, log entry 56): the bank, whether its first block has been written, and whether
every block so far was written. -/
structure BankWrite where
  bank : Bool
  first : Bool := false
  good : Bool := true
  deriving DecidableEq, Repr

/-- An item of a lossy queue: an entry of 64-bit words, or a weir mark with its count and the fabric times of the first and the
latest drop (R432, Table 12-3). -/
inductive QueueItem where
  | entry (words : List Nat)
  | mark (count first last : Nat)
  deriving DecidableEq, Repr

/-- A lossy queue, with its totals (R433, R435) and the pending count of R434. -/
structure LossyQueue where
  items : List QueueItem := []
  offered : Nat := 0
  dropped : Nat := 0
  pend : Nat := 0
  pendFirst : Nat := 0
  pendLast : Nat := 0
  deriving DecidableEq, Repr

/-- A reaction of Table 10-8 that is not yet in force. The model carries it out before the next command (R458). -/
inductive Reaction where
  | containPort (p : Nat)
  | containWindow (w : Nat)
  | fenceCluster (c : Nat)
  | fenceRegion (g : Nat)
  | halt (src : Nat)
  | fire (src mask : Nat)
  deriving DecidableEq, Repr

/-- An open fault record (R461 to R463) of a scope instance: cluster c is scope c, die d scope 256 + d, the package 512. -/
structure OpenRecord where
  scope : Nat
  source : Nat
  cause : Nat
  react : Nat
  route : Nat
  injected : Bool
  mergeCount : Nat
  mergeMap : Nat
  opened : Nat
  detail : List Byte
  epoch : Nat
  owners : List Nat
  dests : List Nat
  word0 : Nat
  deriving DecidableEq, Repr

/-- What left the package in the last command: answers to control accesses, packets and TLPs put on links, link-layer and lane
blocks, interrupts and SPDM responses. It is what the outside sees, and no rule reads it back. -/
inductive Output where
  | controlAnswer (m : Master) (status value : Nat)
  | i3cBytes (n : Nat) (bytes : List Byte)
  | i3cCcc (n : Nat) (bytes : List Byte)
  | cpInterrupt (n vector : Nat)
  | packetOut (port : Nat) (p : Packet)
  | flitOut (port : Nat) (elements : List Word)
  | slotOut (port : Nat) (blocks : List Word)
  | laneLevels (lane : Nat) (levels : List Int)
  | tlpOut (port : Nat) (t : Tlp)
  | hostInterrupt (port function vector : Nat)
  | blocksIn (lane : Nat) (blocks : List Nat) (errors : Nat)
  | portSlotIn (port slot : Nat) (flits : List (List Word)) (error : Bool)
  | doe (inst : Nat) (object : List Byte)
  | pin (name : Nat) (level : Bool)
  deriving DecidableEq, Repr

/-- Who waits for the answer to a control-space access: the originator itself, the sender of an in-band packet, a control port's own in-band access,
or its I3C read. -/
inductive TowReply where
  | plain
  | packet (k : Packet)
  | inband (n : Nat)
  | i3c (n : Nat)
  deriving DecidableEq, Repr

/-- A towpath command that waits at crossing 11 of a cluster in reset, or behind one of its originator (R567, R568, R660). -/
structure TowCommand where
  master : Master
  addr : Nat
  write : Bool
  value : Nat
  since : Nat := 0
  reply : TowReply := .plain
  deriving DecidableEq, Repr

/-- An in-band access that a control port has outstanding (R577). -/
structure InBand where
  op : Nat
  rank : Nat
  tag : Nat
  sent : Nat := 0
  deriving DecidableEq, Repr

/-- A pending read setup of an I3C port (R554): its offset, whether the access has begun, and the status and value it ended with; none of a
malformed one. -/
structure I3cPending where
  offset : Option Nat := none
  sent : Bool := false
  done : Option (Nat × Nat) := none
  deriving DecidableEq, Repr

/-- What a control port keeps beside its registers: its I3C dynamic address and read setup, and when it last notified its controller (R556). -/
structure ControlPort where
  address : Nat := 0
  setup : Option I3cPending := none
  perst : Bool := false
  inband : Option InBand := none
  notified : Option Nat := none
  deriving DecidableEq, Repr

/-- What one master has staged for the Toll Table of a die: words 0 to 2, each with the entry that it is tagged with (R499). -/
structure TollStaging where
  word0 : Option (Nat × Nat) := none
  word1 : Option (Nat × Nat) := none
  word2 : Option (Nat × Nat) := none
  deriving DecidableEq, Repr

/-- A commit that waits under R509. -/
structure TollCommit where
  die : Nat
  entry : Nat
  words : List Nat
  deriving DecidableEq, Repr

/-- A crossing (Tables 12-4, 12-5 and 13-3): which half is held in reset by its own side, which half is in crossing-reset, which
clock has stopped, and which side's reset waits for its clock (R541, R545). A dual-clock queue has its words in `ram`, its write and read pointers, each
one bit wider than the word address, and the copy of each pointer that has crossed to the other side (R529, R530). -/
structure Crossing where
  ram : Tab Word := []
  wptr : Nat := 0
  rptr : Nat := 0
  wsync : Nat := 0
  rsync : Nat := 0
  nearReset : Bool := false
  farReset : Bool := false
  crossReset : Bool := false
  nearStopped : Bool := false
  farStopped : Bool := false
  nearPending : Bool := false
  deriving DecidableEq, Repr

/-- Modes and times of the package that no register shows. `restoring` are the ports that a partial reload has reset and whose bounds are still to be restored with
code 0x7 (R396). -/
structure ModeState where
  beforeReload : Nat := 6
  beforeDrain : Nat := 6
  resetDue : Nat := 0
  resetSource : Nat := 0
  resetHeld : Bool := false
  clockLost : Bool := false
  claimNo : Nat := 0
  claims : List (Nat × Nat) := []
  joinLost : Bool := false
  holder : Nat := 0
  selfCheck : Nat := 0
  bootStraps : Straps := {}
  refclkBad : Nat := 0
  settleAt : Nat := 0
  since : Nat := 0
  claimAt : Option Nat := none
  bindsFrom : List Nat := []
  restoring : List Nat := []
  bindsTo : List Nat := []
  deriving DecidableEq, Repr

/-- Why a step stops with a fault. No rule of the spec stops the block, so no meaning raises one. -/
inductive Fault where
  /-- Raised by nothing: every command of the table has an effect by the spec. Safe. -/
  | never
  deriving DecidableEq, Repr

/-- Why a command has no meaning. -/
inductive Refusal where
  /-- Raised by an arm of exec whose command is not modelled. Safe: no claim can be proved of the command's effect. -/
  | notModelled (mnemonic : String)
  deriving DecidableEq, Repr

/-- Units held of a ledger (R422). Ledger i of cluster c has key 256 × c + i, ledger i of die d key 16,384 + 256 × d + i. -/
structure Hold where
  ledger : Nat
  units : Nat
  deriving DecidableEq, Repr

/-- A conservation ledger (R406). `total` 0 is unlimited (R407). `hurt` is what an injection has left in its words (R436, R438): 1 an error that
the next read corrects, 2 one that it cannot, 3 none any more, but the cause of a corrected one is still to set. -/
structure Ledger where
  total : Nat := 0
  out : Nat := 0
  issued : Nat := 0
  returned : Nat := 0
  reclaimed : Nat := 0
  corrected : Nat := 0
  hurt : Nat := 0
  deriving DecidableEq, Repr

/-- A booking in a calendar (R372): the resource, the bucket counted from now, the bytes, and whether it is a local booking. -/
structure Booking where
  resource : Nat
  bucket : Nat
  bytes : Nat
  isLocal : Bool
  deriving DecidableEq, Repr

/-- A request that stands unadmitted at an ingress queue (R369, R370): the packets it forms, the outstanding request it belongs to
(0 for a posted one), what it holds, the code that holds it, and what an error in its words of the ingress buffer will do (R446). -/
structure Queued where
  id : Nat := 0
  transit : Bool := false
  pkts : List Packet := []
  holds : List Hold := []
  cause : Nat := 0
  received : Nat := 0
  heldOnce : Bool := false
  fullSeen : Bool := false
  requester : Nat := 0
  order : Nat := 0
  hurt : Nat := 0
  deriving DecidableEq, Repr

/-- An admitted packet that waits at an ordering point (R314), with the points still before it, and what an error in its words of the basin will do (R446). `order` of
a Completion is the number of the last request decoded before it was formed or came in (R313), and `group` the request of this package of which the packet is a
piece (R317). -/
structure Waiting where
  point : Nat
  path : List Nat := []
  pkt : Packet
  deadline : Nat := 0
  late : Bool := false
  ingress : Nat := 1023
  requester : Nat := 0
  holds : List Hold := []
  credit : List Hold := []
  books : List Booking := []
  stamp : Option Nat := none
  tlps : List Tlp := []
  ctx : Nat := 0
  hurt : Nat := 0
  order : Nat := 0
  group : Nat := 0
  deriving DecidableEq, Repr

/-- One piece of an outstanding request and its answer, with the attributes and the SRC of that answer (R273, R275, R278). -/
structure Piece where
  tag : Nat
  addr : Nat
  len : Nat
  status : Option Nat := none
  data : List Byte := []
  waits : Bool := false
  ro : Bool := false
  ido : Bool := false
  ns : Bool := false
  source : Option Nat := none
  deriving DecidableEq, Repr

/-- A non-posted request in its near package (R392), from receipt until it is answered, or until its tags return after a
surrogate answer (R394). `port` is the ingress port, or 1,024 + te for an engine. -/
structure Outstanding where
  id : Nat
  port : Nat
  tlp : Option Tlp := none
  native : Option Packet := none
  ptype : Nat
  cls : Nat := 1
  window : Nat := 0
  noWin : Bool := false
  partition : Nat := 0
  dest : Nat := 0xFFFF
  addr : Nat := 0
  received : Nat := 0
  admitted : Bool := false
  answered : Bool := false
  cancelled : Bool := false
  asWrite : Bool := false
  prefetch : Bool := false
  transit : Bool := false
  sent : Nat := 0
  tgt : Nat := 0
  element : Nat := 1
  pieces : List Piece := []
  holds : List Hold := []
  stamp : Option Nat := none
  ctx : Nat := 0
  endedAt : Nat := 0
  deriving DecidableEq, Repr

/-- A request that a PD link has outstanding (R228, R395): the port, its PD tag, and the Burek request it serves, or the engine
that issued it; whether its requester has been answered in the device's place, and whether its own time has passed. -/
structure DeviceRequest where
  port : Nat
  tag : Nat
  pkt : Option Packet := none
  engine : Option Nat := none
  ctx : Nat := 0
  issued : Nat := 0
  answered : Bool := false
  timedOut : Bool := false
  waitAck : Bool := false
  data : List Byte := []
  poison : Bool := false
  frame : Option Tlp := none
  deriving DecidableEq, Repr

/-- A failed acknowledged write that waits for its report (R286). -/
structure HeldFailure where
  cluster : Nat
  port : Nat
  requester : Nat
  window : Nat
  order : Nat
  status : Nat := 4
  deriving DecidableEq, Repr

/-- A prefetch stream (R296 to R300). -/
structure Stream where
  cluster : Nat
  port : Nat
  requester : Nat
  window : Nat
  next : Nat
  ahead : Nat
  blocks : List (Nat × List Byte × Nat)
  inFlight : List Nat
  holds : List Hold := []
  stamp : Option Nat := none
  used : Nat := 0
  deriving DecidableEq, Repr

/-- A host's MRdLk that waits for the package lock or holds it (R335, R350 to R352); `busy` counts its busy answers, and `untilTick` is the end of its wait. -/
structure LockedRead where
  id : Nat
  port : Nat
  tlp : Tlp
  busy : Nat := 0
  backoff : Bool := false
  untilTick : Nat := 0
  sent : Bool := false
  granted : Bool := false
  deriving DecidableEq, Repr

/-- A locked PD port: its owner and what it holds back (R341, R344). -/
structure PortLockState where
  owner : Nat := 0
  partition : Nat := 0
  since : Nat := 0
  limit : Nat := 0
  firstTag : Option Nat := none
  prev : Nat := 0
  held : List Waiting := []
  deriving DecidableEq, Repr

/-- A planned change that waits for the calendars or for SETTLE (R397, R399). -/
inductive Planned where
  | narrow (p width : Nat)
  | lockable (p : Nat)
  | holdLimit (p value : Nat)
  | sleep (p : Nat)
  deriving DecidableEq, Repr

/-- A BOUNDS set being assembled from one neighbour (R578). -/
structure BoundsSet where
  seq : Nat := 0
  count : Nat := 0
  parts : List (Nat × List Byte) := []
  deriving DecidableEq, Repr

/-- What an engine does now (R69 to R73). -/
inductive EngineRun where
  | waiting | running | halted | stalled
  deriving DecidableEq, Repr

/-- Where the answer to an engine's item goes (R72, R197). -/
inductive ReplyTo where
  | none
  | burek (pkt : Packet)
  | pcie (port : Nat) (tag reqId : Nat) (config : Bool)
  deriving DecidableEq, Repr

/-- A transaction engine (R69, R70): general registers that are not zero, program counter, items, timer, the time at which the item being handled reached it,
and the answers that handlers which have ended left owing, with that time (R73). -/
structure Engine where
  g : Tab Word := []
  pc : BitVec 12 := 0
  run : EngineRun := .waiting
  queue : List (EngineItem × ReplyTo × Nat) := []
  reply : ReplyTo := .none
  timer : Option Nat := none
  retired : Nat := 0
  since : Nat := 0
  owed : List (ReplyTo × Nat) := []
  deriving DecidableEq, Repr

/-- A flit held in the replay queue with the spent totals recorded at it (R179, R195), the packets whose headers it completes, and the ACK of a
TALLY flit, which stays that of the figures it carries (R194); `hurt` is what an error in its words of the replay buffer will do (R446). -/
structure HeldFlit where
  seq : Nat
  elements : List Word
  spent : List Nat
  pkts : List Packet := []
  first : Nat := 0x3F
  tally : Bool := false
  ack : Option Nat := none
  hurt : Nat := 0
  deriving DecidableEq, Repr

/-- What a BF port's partner says in INIT (Table 04-3). -/
structure PartnerInit where
  sender : Nat := 0
  domain : Nat := 0
  nextSeq : Nat := 0
  expect : Nat := 0
  width : Nat := 0
  replayFlits : Nat := 0
  hold : Nat := 0
  resume : Bool := false
  peerSeen : Bool := false
  txDoze : Bool := false
  limits : List Nat := []
  deriving DecidableEq, Repr

/-- What an ANNOUNCE block says (Table 04-11). -/
structure Announce where
  rootRank : Nat
  depth : Nat
  senderRank : Nat
  locked : Bool
  deriving DecidableEq, Repr

/-- The link session of a BF port (chapter 04), beside PORT_LINK, and what the port learns of its link's time (R210 to R214). The
lists of twelve are in the LIMIT order of Table 04-3. `txMarks` names the packets whose headers have not yet left whole, each with the place of
its header's last element among the elements to come, and `txEnds` those whose last element has not left, each with its place. `resumed`, `peerSeen` and `mismatch` belong to the INIT exchange: EXPECT has been acted on
(R186), a good INIT with PEER_SEEN was received (R176), the partner's latest INIT may not be joined (R178); `arrived` are packets accepted and not yet taken up, with the time (R392); `opened` says that the session has
once completed an exchange (R177). `lastNak`, `replayAt` and `leftAt` are when the last replay request was made (R181), the replay timer last
started (R184), the port last left Active (R187), and `activeAt` when it last reached Active (Table 14-8). `dreqs` are the DREQs sent and not answered, `dresps` those to answer (R213). `mapDue` is a
receive mask whose LANEMAP must leave, `rxMaskOld` the receive mask before slot `rxSwitch` (R160, R169). `withheld` are credits kept back by a reload (R98). `wakeAt` is a wake request not yet
served, and `bookedAt` the latest booking (R155, R615, R616). -/
structure LinkSession where
  held : List HeldFlit := []
  resendFrom : Nat := 0
  nakSeq : Nat := 0
  nakActed : Option Nat := none
  rewindsInRow : Nat := 0
  initsSent : Nat := 0
  initGood : Bool := false
  partner : Option PartnerInit := none
  spent : List Nat := List.replicate 12 0
  partnerReturned : List Nat := List.replicate 12 0
  received : List Nat := List.replicate 12 0
  returned : List Nat := List.replicate 12 0
  tallyNo : Nat := 0
  tallyDue : Bool := false
  crIndex : Nat := 0
  nullDue : Bool := false
  rxPartial : List Word := []
  txElements : List Word := []
  txMarks : List (Nat × Packet) := []
  txEnds : List (Nat × Waiting) := []
  withheld : List Nat := []
  arrived : List (Packet × Nat) := []
  resumed : Bool := false
  peerSeen : Bool := false
  mismatch : Bool := false
  opened : Bool := false
  lastNak : Nat := 0
  replayAt : Nat := 0
  leftAt : Nat := 0
  activeAt : Nat := 0
  flight : Option Nat := none
  offset : Nat := 0
  sync : Option (Nat × Nat) := none
  dreqs : List (Nat × Nat) := []
  dreqId : Nat := 0
  dresps : List (Nat × Nat) := []
  announce : Option Announce := none
  markers : Nat := 0
  slot : Nat := 0
  partnerSlot : Nat := 0
  mapPending : Option (Nat × Nat) := none
  mapSeq : Nat := 0
  mapDue : Option Nat := none
  switch : List (Nat × Nat × Nat) := []
  mapSeen : Nat := 0
  rxPending : List (Nat × Nat) := []
  rxMaskOld : Nat := 0
  rxSwitch : Nat := 0
  dozing : Nat := 0
  wakeAt : Option Nat := none
  bookedAt : Nat := 0
  tallyAt : Nat := 0
  ackSpent : List (Nat × List Nat) := []
  deriving DecidableEq, Repr

/-- What a lane unit holds beside LN_STATE, LN_QUAL, LN_EYE and LN_TXEQ: whether 10 ms of slots were idle (R142), the adapter's values
and its last checkpoint (R144), runs of codewords (R126, R127), the scrambler and the descrambler (R122), the slot that waits for the
second half of its codeword (R123), what the partner's last TRAIN block said, the eye contour (R151), the index that BOND gave the partner's latest slot with the
time it came and the slots kept for deskew, one in error without blocks (R132), and whether the lane is leaving the
mask (R166) or was left out of it when the Equalise limit expired (R134). -/
structure LaneState where
  idle : Bool := false
  values : Nat := 0
  checkpoint : Nat := 0
  goodRun : Nat := 0
  badRun : Nat := 0
  inverted : Bool := false
  scrambler : Nat := 0
  descrambler : Nat := 0
  half : List Nat := []
  peerState : Nat := 0
  peerWidth : Nat := 0
  peerRev : Bool := false
  peerFom : Nat := 0
  confirms : Nat := 0
  eqDone : Bool := false
  applied : Option Nat := none
  resp : Nat := 0
  request : Nat := 0
  requestSeq : Nat := 0
  contour : List Nat := []
  rxSlot : Option Nat := none
  rxAt : Nat := 0
  buffer : List (Nat × List Nat) := []
  leaving : Bool := false
  left : Bool := false
  deriving DecidableEq, Repr

/-- The package's place in the domain's time (R212 to R214): its parent port, whether it has stepped and is locked, since when its
offset has stayed within 16 ticks, and the cycles since the last slew. -/
structure TimeState where
  parent : Option Nat := none
  stepped : Bool := false
  locked : Bool := false
  steadySince : Option Nat := none
  slewWait : Nat := 0
  deriving DecidableEq, Repr

/-- What an emulated function of a virtual switch does by its registers: the vUSP's Max_Payload_Size code, a vDSP's AtomicOp Egress
Blocking (R330), DPC interrupt enable and DPC Trigger Status (R250, R251), the partition's view contained by a host's software
trigger (R249), the MSI-X vectors enabled (R476), the first uncorrectable error logged plus one, Correctable Error Status and the errors that
Device Status shows (R253, R255), and the changes that Slot Status shows (Table 05-4). -/
structure VirtPort where
  mps : Nat := 0
  atomicBlock : Bool := false
  dpcInterrupt : Bool := false
  dpcStatus : Bool := false
  view : Bool := false
  vectors : Nat := 0
  first : Nat := 0
  corr : Nat := 0
  detected : Nat := 0
  slotChanged : Nat := 0
  deriving DecidableEq, Repr

/-- A Config packet that the handler engine of a PD port carries out, one at a time in arrival order; `retryAt` is when one that was answered with Request Retry
Status is issued again (R357); `own` is a write of the FB512 itself that
waits for a tag (R228, R238). -/
structure ConfigJob where
  port : Nat
  pkt : Packet
  received : Nat
  retrying : Bool := false
  retryAt : Nat := 0
  issued : Bool := false
  own : Bool := false
  deriving DecidableEq, Repr

/-- A DOE instance (R256 to R259) and its SPDM connection (R603): the dwords written and not yet ended by Go, the object that waits, DOE Busy and
DOE Error, the response not yet read, how far the connection has come, its version, and the messages that a signature covers. -/
structure DoeState where
  partialObject : List Byte := []
  object : Option (List Byte) := none
  error : Bool := false
  response : List Byte := []
  phase : Nat := 0
  version : Nat := 0
  transcriptA : List Byte := []
  transcriptB : List Byte := []
  transcriptL : List Byte := []
  deriving DecidableEq, Repr

/-- The event ring of a vUSP (Table 10-18). -/
structure Ring where
  base : Nat := 0
  enable : Bool := false
  logSize : Nat := 0
  head : Nat := 0
  tail : Nat := 0
  dropped0 : Nat := 0
  raised : Option Nat := none
  deriving DecidableEq, Repr

/-- The package. -/
structure State where
  /-- The commands that wait, first in first out. -/
  pending : List Instr
  chip : Chip
  /-- Registers of the control space that differ from their reset word, by offset (R646). -/
  regs : Tab Word
  /-- C and A of R527. -/
  cycles : BitVec 60
  adjust : Word
  /-- The model's own count of free values taken. -/
  freeCount : Nat
  /-- Reactions that begin in the next cycle (R458). -/
  actions : List Reaction
  /-- What left the package in the last command. -/
  out : List Output
  /-- Packets the package's own logic has formed and not yet routed (R460, R199). -/
  outbox : List Packet
  fuses : Fuses
  sealed : Sealed
  sealRequests : List SealRequest
  /-- Bytes of the nonvolatile store that are not zero (Table 02-4). -/
  nvs : Tab Byte
  dir : StoreDir
  staged : Staged
  loading : Option Load
  loadOrder : List ImageSource
  reload : Option Reload
  slotWrite : Option SlotWrite
  nvsOp : Option NvsOp
  /-- Bytes of the running structure that are not zero, by section (R75 to R79). -/
  cfg : Tab Byte
  /-- MR0 to MR7 (R599). -/
  mr : Tab (List Byte)
  queues : Tab LossyQueue
  records : List OpenRecord
  tow : List TowCommand
  ports : Tab ControlPort
  staging : Tab TollStaging
  /-- The in-band master that holds a die's shared staging buffer (R499). -/
  stageHolder : Tab Nat
  /-- Live accesses of die d stamped with epoch e, at 256 × d + e (R508). -/
  live : Tab Nat
  commits : List TollCommit
  fenceStart : Nat
  crossings : Tab Crossing
  modes : ModeState
  /-- Ledgers, by the key of a Hold (R410, R411). -/
  ledgers : Tab Ledger
  /-- Unadmitted requests: queue q of port p at 16 × p + q; engine te at 16 × (1,024 + te). -/
  ingress : Tab (List Queued)
  waiting : List Waiting
  outstanding : List Outstanding
  nextId : Nat
  device : List DeviceRequest
  heldFailures : List HeldFailure
  streams : List Stream
  /-- Latest deadline stamped in a flow (R318) and on writes to a destination (R321), per ingress. -/
  flowLast : Tab (Option Nat)
  writeLast : Tab (Option Nat)
  lockWait : List LockedRead
  /-- The class of the Lock that sought the package lock for a host here (R337). -/
  lockClass : Nat
  portLocks : Tab PortLockState
  planned : List Planned
  /-- V values the neighbours announced, at (1,024 × 65,536) × class + 65,536 × port + destination, in ticks (R387). -/
  bounds : Tab Nat
  boundsSets : Tab BoundsSet
  /-- Posted pieces counted at a port and its requester table (R468). -/
  postedCount : Tab Nat
  requesters : Tab (List (Nat × Nat × Nat))
  engines : Tab Engine
  program : Tab (BitVec 32)
  dataMem : Tab Byte
  links : Tab LinkSession
  /-- The latest violation record of each die, in four words (R514, R515). -/
  vlast : Tab (List Nat)
  /-- Words with an injected error, by memory word: 1 correctable, 2 uncorrectable (R478). -/
  ecc : Tab Nat
  /-- L1 Exit Latency of the device of a PD port, in units of 10 ns (R619, R698). -/
  l1Exit : Tab Nat
  /-- BOUNDS of these BF ports must be announced (R387). -/
  announceDue : Bool
  /-- Clusters gated by the power controller, one bit each (R622, R623). -/
  gated : Nat
  /-- Standby ports that have been woken (R618), and directions that may sleep only after SETTLE (R399). -/
  woken : List Nat
  /-- What the FB512 found on the device of a PD port at link-up (R228, R243). -/
  devices : Tab DeviceInfo
  /-- Bindings not presented: index of the record, and 0 for R242, 1 for the whole record by R243, or 2 + fn for its function fn (R243). -/
  hidden : List (Nat × Nat)
  /-- PU port that a partition's hosting package named in its BIND records, plus one (R307). -/
  bindPu : Tab Nat
  /-- Emulated configuration registers that were written, at 65,536 × port + 1,024 × function + register number (R234, R237). -/
  virt : Tab Nat
  virtPorts : Tab VirtPort
  /-- Max_Payload_Size code of function 0 of a PD port's device (R275). -/
  deviceMps : Tab Nat
  /-- AER status logged at a port, or at 1,024 + 64 × PU port + function for a vDSP, one bit for each error as the standard numbers them, and the
  first header logged (R253, R255, R447). -/
  aer : Tab Nat
  aerHeader : Tab Tlp
  /-- Asserted INTx pins, at 1,024 × port + 4 × function + pin; counts of a PU port's pins at 4 × port + pin (R307, R308). -/
  intxLevel : Tab Nat
  /-- Pins whose level-1 Event was sent: the pin, the PU port and the partition it went to (R307, R309). -/
  intxSent : List (Nat × Nat × Nat)
  intxCount : Tab Nat
  /-- Functions under reset: PD port and device-side function (R245 to R247). -/
  flr : List (Nat × Nat)
  /-- Config packets that the handler engines of PD ports have not finished (R357). -/
  configJobs : List ConfigJob
  /-- PU ports that owe PME_TO_Ack (R226). -/
  pmeOff : List Nat
  rings : Tab Ring
  /-- Windows moved beyond 2^64 − 1 by follow mode, which match nothing (R302). -/
  beyond64 : List Nat
  /-- The lane units, by lane (chapter 03). -/
  lanes : Tab LaneState
  time : TimeState
  /-- When a PD port entered containment (R251). -/
  dpcSince : Tab Nat
  /-- The DOE instances: 0 and 1 of the control ports, 2 + p of the vUSP of PU port p; and those with a waiting object, first written first. -/
  doe : Tab DoeState
  doeOrder : List Nat
  /-- When each keeper's watchdog was last kicked (R569). -/
  kickAt : Tab Nat
  /-- The rank whose CLAIM names a partition, plus one (R605); BIND sets being assembled, by the sender's rank. -/
  hosts : Tab Nat
  bindSets : Tab BoundsSet
  /-- The last ten power samples of a die's controller, newest last, in units of 0.01 W (R626), and since when a die that throttles has been
  cool and within its share (R627). -/
  powerSamples : Tab (List Nat)
  coolSince : Tab (Option Nat)
  /-- Batches gathered on a die, modulo 4,096, and the values put in the batch under way (R644). -/
  batchNo : Tab Nat
  batchSize : Tab Nat
  /-- The keepers' shadow of items that differ from the data path (R579). -/
  shadow : Tab (List ShadowItem)
  /-- When the last in-band word reached a die's shared staging buffer (R499). -/
  stagedAt : Tab Nat
  /-- The firmware bank that the holder of SEM00 writes (R57, R84). -/
  bankWrite : Option BankWrite
  /-- The bank that each keeper runs; none for a keeper that runs no firmware (R598). -/
  keeperRun : Tab (Option Bool)
  /-- Sizes of the sections of the running structure, by section number (Table 02-2, R97). -/
  secSizes : Tab Nat
  /-- PCI Express ports whose link partner supports L0p (R168, R224). -/
  l0pPartners : List Nat
  /-- The latest pulse of a cause of a lane source that its crossing passed, at 16 × source + cause, as its time plus one (R523). -/
  pulses : Tab Nat
  /-- Dispatch slots of a cluster that moved something and whose cycle has not passed yet, at 2 × cluster for outbound and 2 × cluster + 1 for inbound
  slots (R638; the model's own). -/
  slotsUsed : Tab Nat
  deriving DecidableEq, Repr

/-- PKG_MODE while the package stands in M1 after a power-on reset: MODE 0x1, PREV_MODE 0x0, LAST_RESET 0x1 (Tables 14-3 and 14-10). -/
def modeAtPowerOn : Word := setBits (setBits (resetWord PKG_MODE.addr) 60 4 1) 56 4 0

/-- The package right after a power-on reset, standing in M1 (R594, R595): every register at its reset value, every queue and ledger empty,
the store and the fuses as made. -/
def State.reset : State :=
  { pending := [], chip := {}, regs := [(PKG_SERIAL.addr, 1), (PKG_MODE.addr, modeAtPowerOn)], cycles := 0, adjust := 0, freeCount := 0, actions := [], out := []
    outbox := [], fuses := {}, sealed := {}, sealRequests := [], nvs := [], dir := {}, staged := {}, loading := none, loadOrder := []
    reload := none, slotWrite := none, nvsOp := none, cfg := [], mr := [], queues := [], records := [], tow := [], ports := [], staging := []
    stageHolder := [], live := [], commits := [], fenceStart := 0, crossings := [], modes := {}, ledgers := [], ingress := [], waiting := []
    outstanding := [], nextId := 0, device := [], heldFailures := [], streams := [], flowLast := [], writeLast := [], lockWait := [], lockClass := 0
    portLocks := [], planned := [], bounds := [], boundsSets := [], postedCount := [], requesters := [], engines := [], program := []
    dataMem := [], links := [], vlast := [], ecc := [], l1Exit := [], announceDue := false, gated := 0, woken := [], devices := [], hidden := []
    bindPu := [], virt := [], virtPorts := [], deviceMps := [], aer := [], aerHeader := [], intxLevel := [], intxSent := [], intxCount := [], flr := []
    configJobs := [], pmeOff := [], rings := [], beyond64 := [], lanes := [], time := {}, dpcSince := [], doe := [], doeOrder := [], kickAt := []
    hosts := [], bindSets := []
    powerSamples := [], coolSince := [], batchNo := [], batchSize := [], shadow := [], stagedAt := []
    bankWrite := none, keeperRun := [], secSizes := [], l0pPartners := [], pulses := [], slotsUsed := []
  }

end Sys2Proof.Machine
end

