-- ==== Sys2Proof/Machine/Operands.lean ====
section
/-! DEFINITION. How a command reads its operands out of the state: the fields of registers, the records of the running
structure's sections, the numbering of ports, lanes and clusters (chapter 01), and fabric time (R527). -/

namespace Sys2Proof.Machine

/-- The register at a control-space offset. -/
def State.rd (s : State) (a : Nat) : Word := tabGet resetWord s.regs a

/-- Hardware writes the register at a control-space offset. -/
def State.wr (s : State) (a : Nat) (w : Word) : State := { s with regs := tabPut resetWord s.regs a w }

/-- A register field. -/
def State.get (s : State) (f : FieldRef) : Nat := getBits (s.rd f.addr) f.lo f.width

/-- Hardware updates a register field. -/
def State.set (s : State) (f : FieldRef) (v : Nat) : State := s.wr f.addr (setBits (s.rd f.addr) f.lo f.width v)

/-- A one-bit field. -/
def State.flag (s : State) (f : FieldRef) : Bool := s.get f ≠ 0

/-- Hardware sets or clears a one-bit field. -/
def State.setFlag (s : State) (f : FieldRef) (b : Bool) : State := s.set f (if b then 1 else 0)

/-- A count that saturates advances by n ("Saturates at" in every field map). -/
def State.bumpBy (s : State) (f : FieldRef) (n : Nat) : State := s.set f (satAdd f.width (s.get f) n)

/-- A count that saturates advances by one. -/
def State.bump (s : State) (f : FieldRef) : State := s.bumpBy f 1

/-- Bit i of a map field. -/
def State.bitOf (s : State) (f : FieldRef) (i : Nat) : Bool := (s.get f).testBit i

/-- Set or clear bit i of a map field. -/
def State.setBit (s : State) (f : FieldRef) (i : Nat) (b : Bool) : State :=
  s.set f (if b then withBit (s.get f) i else withoutBit (s.get f) i)

/-- Fabric time, 16 × C + A in ticks of 62.5 ps (R527). -/
def State.now (s : State) : Nat := (16 * s.cycles.toNat + s.adjust.toNat) % 2 ^ 64

/-- Ticks in a nanosecond (R527). -/
def ticksPerNs : Nat := 16

/-- The command marks the end of a wait: fabric time stands at t or later (log entry 4). -/
def State.waitUntil (s : State) (t : Nat) : State :=
  if s.now < t then { s with cycles := s.cycles + BitVec.ofNat 60 (ceilDiv (t - s.now) 16) } else s

/-- Something leaves the package. -/
def State.emit (s : State) (o : Output) : State := { s with out := s.out ++ [o] }

/-- Contacts of the package whose level this model shows: THERMTRIP_B (R684). -/
def pinThermtrip : Nat := 0
/-- TIME_PULSE (R686). -/
def pinTimePulse : Nat := 1
/-- HALT_B (R684). -/
def pinHalt : Nat := 2

/-- A value that the spec leaves open: the next free value (log entry 10). -/
def State.free (s : State) : Nat := (Config.freeValue s.freeCount).toNat

/-- The free value has been taken. -/
def State.tookFree (s : State) : State := { s with freeCount := s.freeCount + 1 }

/-! ### The part (Table 00-1, chapter 01) -/

/-- Dies of the part. -/
def State.numDies (s : State) : Nat := if s.chip.fb512 then 4 else 2
/-- Clusters of the part. -/
def State.numClusters (s : State) : Nat := 16 * s.numDies
/-- Regions of the part. -/
def State.numRegions (s : State) : Nat := 4 * s.numDies
/-- Ports of the part (R29). -/
def State.numPorts (s : State) : Nat := 4 * s.numClusters
/-- The die that holds the package lead (R51). -/
def State.leadDie (s : State) : Nat := s.get PKG_LEAD.LEAD_KEEPER / 2
/-- Die d is present and healthy (R50, R55). -/
def State.healthy (s : State) (d : Nat) : Bool := s.bitOf PKG_LEAD.DIE_HEALTHY d
/-- The healthy dies in rising order. -/
def State.healthyDies (s : State) : List Nat := (List.range s.numDies).filter s.healthy
/-- The present mode (R583). -/
def State.mode (s : State) : Nat := s.get PKG_MODE.MODE
/-- The fabric rank in force. -/
def State.rank (s : State) : Nat := s.sealed.rank
/-- The fabric ID of low ID n of this package (R59). -/
def State.fabricId (s : State) (n : Nat) : Nat := s.rank * 1024 + n

/-- Die of a port. -/
def portDie (p : Nat) : Nat := p / 64
/-- Cluster of a port (R29). -/
def portCluster (p : Nat) : Nat := p / 4
/-- Region of a cluster. -/
def clusterRegion (c : Nat) : Nat := c / 4
/-- Die of a cluster. -/
def clusterDie (c : Nat) : Nat := c / 16

/-! ### The running structure (chapter 02): bytes of its sections -/

/-- Where the bytes of a section stand: TYPE, SCOPE (0x1 cluster, 0x2 die, 0x3 package) and INDEX (Table 02-2). -/
def secKey (type scope index : Nat) : Nat := ((type * 4 + scope) * 1024 + index) * 1048576

/-- A byte of a byte memory whose unlisted bytes are zero. -/
def byteAt (t : Tab Byte) (a : Nat) : Byte := tabGet (fun _ => 0) t a

/-- n bytes from address a. -/
def bytesAt (t : Tab Byte) (a n : Nat) : List Byte := (List.range n).map fun i => byteAt t (a + i)

/-- Write bytes from address a. -/
def putBytes (t : Tab Byte) (a : Nat) : List Byte → Tab Byte
  | [] => t
  | b :: bs => putBytes (tabPut (fun _ => 0) t a b) (a + 1) bs

/-- The n-byte field at offset o of a section of the running structure (R75). -/
def State.sec (s : State) (key o n : Nat) : Nat := leNat (bytesAt s.cfg (key + o) n)

/-- The LANE section of cluster c (R141). -/
def laneSec (c : Nat) : Nat := secKey 1 1 c
/-- The PORT section of cluster c (R67). -/
def portSec (c : Nat) : Nat := secKey 2 1 c
/-- The WIN section of cluster c. -/
def winSec (c : Nat) : Nat := secKey 3 1 c
/-- The ENGINE section of cluster c (R74). -/
def engineSec (c : Nat) : Nat := secKey 4 1 c
/-- The EVENT section of cluster c (R456). -/
def eventSecCluster (c : Nat) : Nat := secKey 5 1 c
/-- The EVENT section of die d (R456). -/
def eventSecDie (d : Nat) : Nat := secKey 5 2 d
/-- The TOLL section of die d (R483). -/
def tollSec (d : Nat) : Nat := secKey 6 2 d
/-- The ROUTE section of die d (R359). -/
def routeSec (d : Nat) : Nat := secKey 7 2 d
/-- The BASIN section of die d (R412). -/
def basinSec (d : Nat) : Nat := secKey 8 2 d
/-- The CLASS section (R401). -/
def classSec : Nat := secKey 9 3 0
/-- The PART section (R240). -/
def partSec : Nat := secKey 10 3 0
/-- The POWER section (R613). -/
def powerSec : Nat := secKey 11 3 0
/-- The SEAL section (R113). -/
def sealSec : Nat := secKey 12 3 0

/-- A field of the port record of port p (Table 01-7). -/
def State.portRec (s : State) (p o n : Nat) : Nat := s.sec (portSec (p / 4)) (256 * (p % 4) + o) n

/-- PERSONALITY of the port in a slot: 0 none, 1 BF, 2 PU, 3 PD. -/
def State.personality (s : State) (p : Nat) : Nat := if s.portRec p 0 1 = 1 then s.portRec p 1 1 else 0
/-- The slot holds a BF port. -/
def State.isBf (s : State) (p : Nat) : Bool := s.personality p = 1
/-- The slot holds a PU port. -/
def State.isPu (s : State) (p : Nat) : Bool := s.personality p = 2
/-- The slot holds a PD port. -/
def State.isPd (s : State) (p : Nat) : Bool := s.personality p = 3
/-- The slot holds a port. -/
def State.isPort (s : State) (p : Nat) : Bool := s.personality p ≠ 0
/-- Width of the port in lanes (Table 01-7). -/
def State.portWidth (s : State) (p : Nat) : Nat := 2 ^ s.portRec p 2 1
/-- The port is an x16 port. -/
def State.isX16 (s : State) (p : Nat) : Bool := s.isPort p && s.portRec p 2 1 == 4
/-- The port's lowest lane, by package lane number. -/
def State.firstLane (s : State) (p : Nat) : Nat := 8 * (p / 4) + s.portRec p 3 1
/-- The lanes of a port by port lane (R31). -/
def State.portLanes (s : State) (p : Nat) : List Nat :=
  let up := (List.range (s.portWidth p)).map (s.firstLane p + ·)
  if (s.portRec p 4 1).testBit 0 then up.reverse else up
/-- Every port of the package that the structure defines. -/
def State.allPorts (s : State) : List Nat := (List.range s.numPorts).filter s.isPort

/-- The clusters that reset, fence and contain together: both of an x16 pair (R28, R36). -/
def State.pairOf (s : State) (c : Nat) : List Nat :=
  let lo := c - c % 2
  if s.isX16 (4 * lo) then [lo, lo + 1] else [c]

/-- The port a lane belongs to: its own cluster's, or the x16 port of its pair. -/
def State.lanePort (s : State) (l : Nat) : Option Nat :=
  let c := l / 8
  let cands := (List.range 4).map (4 * c + ·) ++ [4 * (c - c % 2)]
  cands.find? fun p => s.isPort p && decide (s.firstLane p ≤ l) && decide (l < s.firstLane p + s.portWidth p)

/-- A field of the lane record of lane l (Table 03-9). -/
def State.laneRec (s : State) (l o n : Nat) : Nat := s.sec (laneSec (l / 8)) (32 * (l % 8) + o) n

/-- A partition record (Table 05-6). -/
structure PartRec where
  partition : Nat
  puPort : Nat
  resMode : Nat
  deriving DecidableEq, Repr

/-- A binding record (Table 05-6). -/
structure BindRec where
  partition : Nat
  vdsp : Nat
  kind : Nat
  target : Nat
  pf : Nat
  flags : Nat
  vfFirst : Nat
  vfCount : Nat
  numVfs : Nat
  deriving DecidableEq, Repr

/-- Decode a partition record at offset o of the PART section held in a byte memory. -/
def partRecAt (t : Tab Byte) (a : Nat) : PartRec :=
  { partition := leNat (bytesAt t a 2), puPort := leNat (bytesAt t (a + 2) 2) % 1024, resMode := leNat (bytesAt t (a + 4) 1) }

/-- Decode a binding record. -/
def bindRecOf (b : List Byte) : BindRec :=
  { partition := leNat (b.take 2), vdsp := leNat ((b.drop 2).take 1), kind := leNat ((b.drop 3).take 1)
    target := leNat ((b.drop 4).take 2), pf := leNat ((b.drop 6).take 1), flags := leNat ((b.drop 7).take 1)
    vfFirst := leNat ((b.drop 8).take 2), vfCount := leNat ((b.drop 10).take 2), numVfs := leNat ((b.drop 12).take 2) }

/-- The partition records of the running structure (R240). -/
def State.partRecs (s : State) : List PartRec :=
  (List.range (s.sec partSec 0 4)).map fun i => partRecAt s.cfg (partSec + 16 + 16 * i)

/-- The bytes of the binding records of the running structure. -/
def State.bindBytes (s : State) : List (List Byte) :=
  let base := partSec + 16 + 16 * s.sec partSec 0 4
  (List.range (s.sec partSec 4 4)).map fun i => bytesAt s.cfg (base + 32 * i) 32

/-- The binding records of the running structure (R240). -/
def State.bindRecs (s : State) : List BindRec := s.bindBytes.map bindRecOf

/-- The partition of a PU port (R232). -/
def State.puPartition (s : State) (p : Nat) : Option Nat :=
  (s.partRecs.find? fun r => r.puPort = p).map (·.partition)

/-- The PU port of a partition that this package hosts. -/
def State.partitionPu (s : State) (n : Nat) : Option Nat :=
  (s.partRecs.find? fun r => r.partition = n).map (·.puPort)

/-- The bindings on PD port p of this package. -/
def State.bindingsOn (s : State) (p : Nat) : List BindRec :=
  s.bindRecs.filter fun b => decide (b.target = s.fabricId p)

/-- The partitions that own a port: a PU port's own, or every one with a binding on a PD port (R459). -/
def State.portOwners (s : State) (p : Nat) : List Nat :=
  if s.isPu p then (s.puPartition p).toList
  else if s.isPd p then ((s.bindingsOn p).map (·.partition)).eraseDups
  else []

/-- The BF ports of the package. -/
def State.bfPorts (s : State) : List Nat := s.allPorts.filter s.isBf

/-- Region g is fenced (Table 10-16). -/
def State.regionFenced (s : State) (g : Nat) : Bool := s.bitOf PKG_FENCE_RG.REGIONS g
/-- Cluster c is held in reset (Table 10-16). -/
def State.clusterHeld (s : State) (c : Nat) : Bool := s.bitOf PKG_FENCE_CL.CLUSTERS c
/-- The port's cluster or region is out of service. -/
def State.portDark (s : State) (p : Nat) : Bool :=
  s.clusterHeld (p / 4) || s.regionFenced (p / 16)
/-- Any region is fenced. -/
def State.anyFenced (s : State) : Bool := s.get PKG_FENCE_RG.REGIONS ≠ 0

/-- A control port's privilege in the binding in force (Table 02-12). -/
def State.cpPrivileged (s : State) (n : Nat) : Bool := s.sealed.priv.testBit n

/-- The fabric ID that names a master (Table 11-2). -/
def State.masterId (s : State) : Master → Nat
  | .cp n => s.fabricId (781 + n)
  | .keeper k => s.fabricId (768 + k)
  | .inband id _ => id
  | .debug => s.fabricId (781 + s.modes.holder)
  | .lead => s.fabricId 780

/-- Table 11-2: the master has the privilege of a control port with privilege, a keeper or the lead. An in-band access has it
when its PRIV is 1 and the bit of its rank is set in PKG_MGT_PRIV (R574). -/
def State.privileged (s : State) : Master → Bool
  | .cp n => s.cpPrivileged n
  | .keeper _ => true
  | .inband id priv => priv && s.bitOf PKG_MGT_PRIV.VALUE (id / 1024)
  | .debug => true
  | .lead => true

/-- Table 11-2: the level of a master. -/
def State.level (s : State) : Master → Nat
  | .debug => 3
  | m => if s.privileged m then 2 else 1

/-- The master holds semaphore n (R559). -/
def State.holdsSem (s : State) (m : Master) (n : Nat) : Bool :=
  s.flag (SEM.HELD n) && s.get (SEM.HOLDER n) == s.masterId m

end Sys2Proof.Machine
end

