-- ==== Sys2Proof/Machine/Inject.lean ====
section
/-! DEFINITION. Fault injection as it meets the words that this model holds (R478, R479, Table 10-19): entries of the access-control table, engine
memories, ledgers, flits sent, and the items of ingress buffers, replay buffers, basins and crossing queues. Other checkers protect words that the model does not
hold (log entry 46). -/

namespace Sys2Proof.Machine

/-- The mode in which the next word that a checker of die d protects is to be affected; 0 for none (R478). -/
def State.injectMode (s : State) (d checker inst : Nat) : Nat :=
  if s.get (DIE_EVT_INJECT.REMAIN d) ≠ 0 && s.get (DIE_EVT_INJECT.CHECKER d) = checker && s.get (DIE_EVT_INJECT.INSTANCE d) = inst
  then s.get (DIE_EVT_INJECT.MODE d) else 0

/-- One more word has been affected. -/
def State.injectUsed (s : State) (d : Nat) : State := s.set (DIE_EVT_INJECT.REMAIN d) (s.get (DIE_EVT_INJECT.REMAIN d) - 1)

/-- A word that stands at a control-space offset is written: its check bits are good, or inverted by an injection (R478). -/
def State.writeWord (s : State) (d checker inst a : Nat) : State :=
  let m := s.injectMode d checker inst
  if m = 1 || m = 2 then State.injectUsed { s with ecc := tabPut (fun _ => 0) s.ecc a m } d
  else { s with ecc := tabPut (fun _ => 0) s.ecc a 0 }

/-- What injected words will do to an item of `head` header words and `load` payload words when it is read (R446, R533): bit 0, a word is corrected; bit 1, a
header word is uncorrectable; bit 2, a payload word is. The next `left` words written are affected. -/
def hurtOf (mode left head load : Nat) : Nat :=
  if left = 0 || head + load = 0 then 0
  else if mode = 1 then 1
  else if mode = 2 then (if head = 0 then 0 else 2) + (if left ≤ head || load = 0 then 0 else 4)
  else 0

/-- An item is written in a buffer that a checker of die d protects, header words first (R478). -/
def State.writeItem (s : State) (d checker inst head load : Nat) : State × Nat :=
  let h := hurtOf (s.injectMode d checker inst) (s.get (DIE_EVT_INJECT.REMAIN d)) head load
  if h = 0 then (s, 0) else (s.set (DIE_EVT_INJECT.REMAIN d) (s.get (DIE_EVT_INJECT.REMAIN d) - (head + load)), h)

/-- What the check bits of a word say: 0 good, 1 one inverted, 2 uncorrectable. -/
def State.wordState (s : State) (a : Nat) : Nat := tabGet (fun _ => 0) s.ecc a

/-- Where the control space shows byte a of engine te's data memory (Table 17-9). -/
def dataAddr (te a : Nat) : Nat := clusterBase (te / 8) + 0x80000 + 0x8000 * (te % 8) + a
/-- Where the control space shows byte a of engine te's program memory (Table 17-9). -/
def programAddr (te a : Nat) : Nat := clusterBase (te / 8) + 0x40000 + 0x4000 * (te % 8) + a

/-- Where an engine's byte of data memory stands. -/
def dataKey (te a : Nat) : Nat := 32768 * te + a

/-- Program words are written one after the other. -/
def putWords (t : Tab (BitVec 32)) (a : Nat) : List (BitVec 32) → Tab (BitVec 32)
  | [] => t
  | w :: ws => putWords (tabPut (fun _ => 0) t a w) (a + 1) ws

/-- Bytes are written in an engine's data memory, word by word (checker 0x05). -/
def State.putEngine (s : State) (te a : Nat) (b : List Byte) : State :=
  let s : State := { s with dataMem := putBytes s.dataMem (dataKey te a) b }
  if s.ecc.isEmpty && s.injectMode (clusterDie (te / 8)) 5 (te % 128) = 0 then s
  else
    (List.range ((a % 8 + b.length + 7) / 8)).foldl (fun (s : State) k => s.writeWord (clusterDie (te / 8)) 5 (te % 128) (dataAddr te (a / 8 * 8 + 8 * k))) s

/-- The program memory of an engine is loaded: its check bits are good, but for the first words that an injection of checker 0x04 makes uncorrectable (R478). -/
def State.putProgram (s : State) (te : Nat) (words : List (BitVec 32)) : State :=
  let d := clusterDie (te / 8)
  let n := if s.injectMode d 4 (te % 128) = 2 then min 2048 (s.get (DIE_EVT_INJECT.REMAIN d)) else 0
  let good := s.ecc.filter fun x => decide (x.1 < programAddr te 0) || decide (programAddr te 0x4000 ≤ x.1)
  let s : State := { s with
    program := putWords (s.program.filter fun x => x.1 / 4096 ≠ te) (4096 * te) words
    ecc := (List.range n).foldl (fun t k => tabPut (fun _ => 0) t (programAddr te (8 * k)) 2) good }
  if n = 0 then s else s.set (DIE_EVT_INJECT.REMAIN d) (s.get (DIE_EVT_INJECT.REMAIN d) - n)

/-- The CRC element of a flit that a BF port sends, with the injection of checker 0x0C (R478). -/
def State.sentCrc (s : State) (p : Nat) (crc : Word) : State × Word :=
  if s.injectMode (portDie p) 0x0C (p % 64) = 3 then (s.injectUsed (portDie p), ~~~crc) else (s, crc)

end Sys2Proof.Machine
end

