-- ==== Sys2Proof/Machine/Count.lean ====
section
/-! DEFINITION. The performance counters (chapter 16): selections, chained and unchained counters, and how an event advances them. -/

namespace Sys2Proof.Machine

/-- The counter whose selection register stands at an offset: whether it is a die's, the block, and its number (Tables 17-7 and 17-9). -/
def counterAt (a : Nat) : Option (Bool × Nat × Nat) :=
  match blockOf a with
  | .cluster c o => if 0x4000 ≤ o && o < 0x4100 then some (false, c, (o - 0x4000) / 8) else none
  | .die d o => if 0x4000 ≤ o && o < 0x4200 then some (true, d, (o - 0x4000) / 8) else none
  | _ => none

/-- Where the selection of counter n of a block stands. -/
def selAddr (die : Bool) (i n : Nat) : Nat := if die then PMON_DIE_SEL.addr i n else PMON_CL_SEL.addr i n
/-- Where the value of counter n of a block stands. -/
def ctrAddr (die : Bool) (i n : Nat) : Nat := if die then PMON_DIE_CTR.addr i n else PMON_CL_CTR.addr i n

/-- A cluster's counters 24 to 31 form the slot set (R642). -/
def State.slotSet (s : State) (die : Bool) (i n : Nat) : Bool := !die && decide (24 ≤ n) && s.flag (PMON_CL_CTL.SLOTS i)

/-- A selection as it is in force (Table 16-1): a counter of the slot set reads as bound, the even ones to events 0x02 to 0x05, the odd ones
chained, all enabled (R642). -/
def State.selection (s : State) (die : Bool) (i n : Nat) : Word :=
  if s.slotSet die i n then (if n % 2 = 0 then BitVec.ofNat 64 ((2 + (n - 24) / 2) * 2 ^ 40 + 1) else 9) else s.rd (selAddr die i n)

/-- CHAIN of a counter; even counters have none. -/
def State.chained (s : State) (die : Bool) (i n : Nat) : Bool := n % 2 = 1 && (s.selection die i n).getLsbD 3

/-- Counter n advances (R630, R633, R635): a pair carries into its odd counter and counts only while both are enabled; an unchained counter
holds at its greatest value and sets SAT. -/
def State.addCounter (s : State) (die : Bool) (i n amount : Nat) : State :=
  let v := getBits (s.rd (ctrAddr die i n)) 0 48 + amount
  if n % 2 = 0 && s.chained die i (n + 1) then
    if !(s.selection die i (n + 1)).getLsbD 0 then s
    else
      let hi := getBits (s.rd (ctrAddr die i (n + 1))) 0 48 + v / 2 ^ 48
      (s.wr (ctrAddr die i n) (BitVec.ofNat 64 (v % 2 ^ 48))).wr (ctrAddr die i (n + 1)) (BitVec.ofNat 64 (hi % 2 ^ 48))
  else if v < 2 ^ 48 then s.wr (ctrAddr die i n) (BitVec.ofNat 64 v)
  else (s.wr (ctrAddr die i n) (BitVec.ofNat 64 (2 ^ 48 - 1))).wr (selAddr die i n) (setBits (s.rd (selAddr die i n)) 2 1 1)

/-- The counters whose selections are written. -/
def State.counters (s : State) : List (Bool × Nat × Nat) := s.regs.filterMap fun x => counterAt x.1

/-- Every enabled, unchained counter advances by what its event and qualifier give. -/
def State.countBy (s : State) (f : Bool → Nat → Nat → Nat → Nat) : State :=
  s.counters.foldl (fun (s : State) x =>
    let w := s.rd (selAddr x.1 x.2.1 x.2.2)
    let n := f x.1 x.2.1 (getBits w 40 8) (getBits w 16 16)
    if w.getLsbD 0 && n ≠ 0 && !s.slotSet x.1 x.2.1 x.2.2 && !s.chained x.1 x.2.1 x.2.2 then s.addCounter x.1 x.2.1 x.2.2 n else s) s

/-- A qualifier field that is a mask: zero means all (R637). -/
def maskHas (q lo width i : Nat) : Bool := q / 2 ^ lo % 2 ^ width = 0 || (q / 2 ^ lo % 2 ^ width).testBit i

/-- An event of cluster c (Table 16-3), with what its qualifier must hold. -/
def State.countCl (s : State) (c code amount : Nat) (test : Nat → Bool) : State :=
  s.countBy fun die i k q => if !die && i = c && k = code && test q then amount else 0

/-- An event of a port of the cluster, whose qualifier masks port slots. -/
def State.countPort (s : State) (p code amount : Nat) : State := s.countCl (p / 4) code amount fun q => maskHas q 0 4 (p % 4)

/-! ### Dispatch slots (R638 to R642) -/

/-- Slots of cluster c are counted in a class of Table 16-5: 0 retired, 1 wasted, 2 front-starved, 3 back-starved. -/
def State.slotClass (s : State) (c cls n : Nat) : State :=
  let s := s.countCl c (2 + cls) n fun _ => true
  if s.slotSet false c 24 then s.addCounter false c (24 + 2 * cls) n else s

/-- Slots of a direction have moved something: the cycles that have them are still to pass (log entry 44). -/
def State.useSlots (s : State) (c : Nat) (inbound : Bool) (n : Nat) : State :=
  let k := 2 * c + (if inbound then 1 else 0)
  { s with slotsUsed := tabPut (fun _ => 0) s.slotsUsed k (tabGet (fun _ => 0) s.slotsUsed k + n) }

/-- Slots that moved something whose fate is known (R639). -/
def State.moveSlots (s : State) (c : Nat) (inbound : Bool) (cls n : Nat) : State := (s.useSlots c inbound n).slotClass c cls n

/-- Slots that moved a prefetch Read, prefetch data or a Lock are deferred (R640). -/
def State.deferSlots (s : State) (c : Nat) (inbound : Bool) (n : Nat) : State :=
  (s.useSlots c inbound n).set (PMON_CL_CTL.DEFERRED c) (s.get (PMON_CL_CTL.DEFERRED c) + n)

/-- The fate of deferred slots is settled (R640); those that a reset has settled already are counted no more (R641). -/
def State.settleSlots (s : State) (c cls n : Nat) : State :=
  let n := min n (s.get (PMON_CL_CTL.DEFERRED c))
  (s.set (PMON_CL_CTL.DEFERRED c) (s.get (PMON_CL_CTL.DEFERRED c) - n)).slotClass c cls n

/-- Slots that a prefetch block took are wasted by its cancellation (R300, event 0x06). -/
def State.wasteSlots (s : State) (c n : Nat) : State :=
  (s.countCl c 6 (min n (s.get (PMON_CL_CTL.DEFERRED c))) fun _ => true).settleSlots c 1 n

/-- The slots that an item of a size takes (R638). -/
def slotsOf (bytes : Nat) : Nat := (bytes + 127) / 128

/-- An event of die d (Table 16-4). -/
def State.countDie (s : State) (d code amount : Nat) (test : Nat → Bool) : State :=
  s.countBy fun die i k q => if die && i = d && k = code && test q then amount else 0

end Sys2Proof.Machine
end

