-- ==== Sys2Proof/Machine/Flags.lean ====
section
/-! DEFINITION. The status the block reports: event sources and their causes (R449 to R455), reaction vectors (R456 to R459),
fault records (R461, R462), and the lossy queues that carry events out (R431 to R434). -/

namespace Sys2Proof.Machine

/-! ### Lossy queues -/

/-- The lossy queues of R431. -/
inductive QueueId where
  | fault (d : Nat) | bittern (d : Nat) | surrogate (d : Nat) | keepers (d : Nat) | telemetry (d : Nat)
  | power (d : Nat) | controlPort (n : Nat) | partition (p : Nat)
  deriving DecidableEq, Repr

/-- Where the state holds a queue. -/
def QueueId.key : QueueId → Nat
  | .fault d => d
  | .bittern d => 4 + d
  | .surrogate d => 8 + d
  | .keepers d => 12 + d
  | .telemetry d => 16 + d
  | .power d => 20 + d
  | .controlPort n => 24 + n
  | .partition p => 32 + p

/-- The stated capacity (R464, R474, R555, R570, R645); that of the power telemetry stream is a free value (R625, log entry 45). -/
def QueueId.capacity : QueueId → Nat
  | .fault _ => 1024
  | .bittern _ => 4096
  | .surrogate _ => 1024
  | .keepers _ => 1024
  | .telemetry _ => 4096
  | .power _ => Config.powerStream
  | .controlPort _ => 1024
  | .partition _ => 4096

/-- The registers that show a queue's offered and dropped totals (R433); the spec gives the power telemetry stream none. -/
def QueueId.totals : QueueId → Option (FieldRef × FieldRef)
  | .fault d => some (EVT_XQ_OFFERED.VALUE d 0, EVT_XQ_DROPPED.VALUE d 0)
  | .bittern d => some (EVT_XQ_OFFERED.VALUE d 1, EVT_XQ_DROPPED.VALUE d 1)
  | .surrogate d => some (EVT_XQ_OFFERED.VALUE d 2, EVT_XQ_DROPPED.VALUE d 2)
  | .keepers d => some (EVT_XQ_OFFERED.VALUE d 3, EVT_XQ_DROPPED.VALUE d 3)
  | .telemetry d => some (PMON_TQ_OFFERED.VALUE d, PMON_TQ_DROPPED.VALUE d)
  | .power _ => none
  | .controlPort n => some (PKG_CP_EVOFFERED.VALUE n, PKG_CP_EVDROPPED.VALUE n)
  | .partition p => some (EVT_PQ_OFFERED.VALUE (p / 64) (p % 64), EVT_PQ_DROPPED.VALUE (p / 64) (p % 64))

/-- The largest count a weir mark carries (R434). -/
def weirMax : Nat := 0xFFFFFFFF

/-- Offer an item to a lossy queue of a given capacity: the queue after, and whether a new weir mark was placed (R432 to R434). -/
def LossyQueue.offer (q : LossyQueue) (cap now : Nat) (words : List Nat) : LossyQueue × Bool :=
  let q := { q with offered := q.offered + 1 }
  if q.items.length < cap then ({ q with items := q.items ++ [.entry words] }, false)
  else
    let q := { q with dropped := q.dropped + 1 }
    match q.items.getLast? with
    | some (.mark n f _) =>
      if n < weirMax then ({ q with items := q.items.dropLast ++ [.mark (n + 1) f now] }, false)
      else ({ q with pend := q.pend + 1, pendFirst := if q.pend = 0 then now else q.pendFirst, pendLast := now }, false)
    | _ => ({ q with items := q.items ++ [.mark 1 now now] }, true)

/-- Take the head of a lossy queue; a pending count is placed in the slot that frees (R434). The third part is whether a mark
was placed. -/
def LossyQueue.pop (q : LossyQueue) : LossyQueue × Option QueueItem × Bool :=
  match q.items with
  | [] => (q, none, false)
  | i :: rest =>
    if q.pend = 0 then ({ q with items := rest }, some i, false)
    else
      let n := min q.pend weirMax
      ({ q with items := rest ++ [.mark n q.pendFirst q.pendLast], pend := q.pend - n }, some i, true)

/-- A lossy queue of the package. -/
def State.queue (s : State) (k : QueueId) : LossyQueue := tabGet (fun _ => {}) s.queues k.key

/-- Replace a lossy queue. -/
def State.setQueue (s : State) (k : QueueId) (q : LossyQueue) : State :=
  { s with queues := tabPut (fun _ => {}) s.queues k.key q }

/-- The event queue of a control port shows how many entries it holds (Table 13-9). -/
def State.showUsed (s : State) : QueueId → State
  | .controlPort n => s.set (PKG_CP_STATE.EVQ_USED n) (s.queue (.controlPort n)).items.length
  | _ => s

/-! ### Event sources -/

/-- Cluster source i of cluster c (R449). -/
def srcCluster (c i : Nat) : Nat := 64 * c + i
/-- Die source i of die d (R449). -/
def srcDie (d i : Nat) : Nat := 4096 + 112 * d + i
/-- Package source i (R449). -/
def srcPkg (i : Nat) : Nat := 4544 + i
/-- The lane source of lane l (Table 10-4). -/
def srcLane (l : Nat) : Nat := srcCluster (l / 8) (l % 8)
/-- The port link source of port p. -/
def srcLink (p : Nat) : Nat := srcCluster (p / 4) (8 + p % 4)
/-- The port transaction source of port p. -/
def srcTxn (p : Nat) : Nat := srcCluster (p / 4) (12 + p % 4)
/-- The port PCI Express source of port p. -/
def srcPcie (p : Nat) : Nat := srcCluster (p / 4) (16 + p % 4)
/-- The engine source of engine te. -/
def srcEngine (te : Nat) : Nat := srcCluster (te / 8) (20 + te % 8)
/-- The slice source of window w. -/
def srcSlice (w : Nat) : Nat := srcCluster (w / 1024) (28 + w % 1024 / 128)

/-- The failing request a cause names, when there is one (R458, Table 10-9); `foreign` says that it is of another package. -/
structure Cause where
  request : Bool := false
  addr : Nat := 0
  window : Nat := 0
  src : Nat := 0
  tag : Nat := 0
  noWin : Bool := true
  port : Option Nat := none
  foreign : Bool := false
  injected : Bool := false
  deriving DecidableEq, Repr

/-- Bytes of the EVENT record that is in force for a source (R456). -/
def State.eventRec (s : State) (e o n : Nat) : Nat :=
  if e < 4096 then s.sec (eventSecCluster (e / 64)) (16 * (e % 64) + o) n
  else if e < 4544 then s.sec (eventSecDie ((e - 4096) / 112)) (16 * ((e - 4096) % 112) + o) n
  else s.sec (eventSecDie s.leadDie) (16 * (112 + (e - 4544)) + o) n

/-- The scope instance of a source (R461). -/
def scopeOf (e : Nat) : Nat := if e < 4096 then e / 64 else if e < 4544 then 256 + (e - 4096) / 112 else 512

/-- The source's number within its scope. -/
def localSource (e : Nat) : Nat := if e < 4096 then e % 64 else if e < 4544 then (e - 4096) % 112 else e - 4544

/-- The port a source stands for: a port source's own, a lane source's port (Table 10-8). -/
def State.sourcePort (s : State) (e : Nat) : Option Nat :=
  if e < 4096 then
    let i := e % 64
    if i < 8 then s.lanePort (8 * (e / 64) + i)
    else if i < 20 then some (4 * (e / 64) + i % 4)
    else none
  else none

/-- The object of contain port: the source's port, or the port named by the failing request. -/
def State.containObject (s : State) (e : Nat) (c : Cause) : Option Nat :=
  match s.sourcePort e with
  | some p => some p
  | none => c.port

/-- The owner partitions of a source (R459). A window that a request of another package names is not one of this package; a transaction source whose cause names
no request is taken as a source of its port. DEDUCED: log entry 98. -/
def State.owners (s : State) (e : Nat) (c : Cause) : List Nat :=
  let i := e % 64
  if e < 4096 ∧ (28 ≤ i ∧ i < 36 ∨ 12 ≤ i ∧ i < 16) ∧ c.request = true then
    if c.noWin || c.foreign then [] else [getBits (s.rd (WIN_ATTR.addr c.window)) 33 10]
  else if e < 4096 ∧ 8 ≤ i ∧ i < 20 then s.portOwners (4 * (e / 64) + i % 4)
  else []

/-- The reactions of Table 10-8 that a REACT byte asks of a source: bits without an object are ignored (R457). A lane source
contains no window, and neither does a request of another package, whose window is not here. -/
def State.reactions (s : State) (e react : Nat) (c : Cause) : List Reaction :=
  let port := s.containObject e c
  let cluster := if e < 4096 then some (e / 64) else port.map portCluster
  (if react.testBit 2 then (port.map Reaction.containPort).toList else []) ++
  (if react.testBit 3 ∧ c.request = true ∧ c.noWin = false ∧ c.foreign = false then [Reaction.containWindow c.window] else []) ++
  (if react.testBit 4 then (cluster.map Reaction.fenceCluster).toList else []) ++
  (if react.testBit 5 then (cluster.map fun k => Reaction.fenceRegion (clusterRegion k)).toList else []) ++
  (if react.testBit 6 then [Reaction.halt e] else [])

/-- The DETAIL bytes 40 to 55 of a fault record (Table 10-9). -/
def State.detail (s : State) (e : Nat) (c : Cause) : List Byte :=
  if c.request then
    leBytes 8 c.addr ++ leBytes 2 (if c.noWin then 0 else c.window) ++ leBytes 2 c.src ++ leBytes 2 c.tag ++
      [if c.noWin then 1 else 0] ++ [0]
  else match s.sourcePort e with
    | some p => leBytes 2 (s.fabricId p) ++ List.replicate 14 0
    | none => List.replicate 16 0

/-- Word 0 of an event entry (Table 10-17). -/
def entryWord0 (kind source cause status window object : Nat) (noWin : Bool) (state : Nat) : Nat :=
  kind * 2 ^ 60 + source * 2 ^ 47 + cause * 2 ^ 43 + status * 2 ^ 40 + (if noWin then 0 else window) * 2 ^ 24 +
    object * 2 ^ 8 + (if noWin then 2 ^ 7 else 0) + state

/-- The lowest bit set of a mask of causes. -/
def firstCause (mask : Nat) : Nat := ((List.range 16).find? fun i => mask.testBit i).getD 0

/-- The die whose keepers and queues a source's events use: its own, or the lead's for a package source (R460, R463). -/
def State.sourceDie (s : State) (e : Nat) : Nat :=
  if e < 4096 then e / 1024 else if e < 4544 then (e - 4096) / 112 else s.leadDie

/-- The causes of a source set (R451, R454): CAUSE, COUNT, FIRST and LAST. Those whose pulse merged with one before it do not advance COUNT (R523). -/
def State.setCauses (s : State) (e mask : Nat) (merged : Nat := 0) : State :=
  let was := s.get (EVT_SRC_A.CAUSE e)
  let n := ((List.range 16).filter fun i => mask.testBit i && !merged.testBit i).length
  let s := s.set (EVT_SRC_A.CAUSE e) (was ||| mask)
  let s := s.bumpBy (EVT_SRC_A.COUNT e) n
  let s := if was = 0 then s.set (EVT_SRC_B.FIRST e) s.now else s
  s.set (EVT_SRC_C.LAST e) s.now

/-- How long a pulse of a lane's causes occupies its crossing, in ticks: three periods of CK_LRX and three of CK_CORE (R521, R523, Table 12-1). A PCI Express lane's
CK_LRX runs at its line bit rate divided by 128. -/
def State.pulseTicks (s : State) (p : Nat) : Nat :=
  if s.isBf p then 45
  else match s.get (PORT_PCIE.RATE p) with
    | 1 => 2474 | 2 => 1245 | 3 => 784 | 4 => 400 | 5 => 208 | 6 => 112 | 7 => 64
    | _ => 0

/-- The causes of a lane source whose pulse comes within the occupancy after the last one, and merges with it (R523; log entry 81). -/
def State.mergedPulses (s : State) (e mask : Nat) : Nat :=
  if 4096 ≤ e || decide (8 ≤ e % 64) then 0
  else
    let span := match s.sourcePort e with
      | some p => s.pulseTicks p
      | none => 0
    ((List.range 16).filter fun i =>
      let t := tabGet (fun _ => 0) s.pulses (16 * e + i)
      mask.testBit i && decide (t ≠ 0) && decide (t - 1 < s.now) && decide (s.now < t - 1 + span)).foldl (fun n i => n + 2 ^ i) 0

/-- The pulses of a lane source's causes that cross now. -/
def State.notePulses (s : State) (e mask : Nat) : State :=
  if 4096 ≤ e || decide (8 ≤ e % 64) then s
  else { s with pulses := ((List.range 16).filter fun i => mask.testBit i).foldl (fun (t : Tab Nat) i => tabPut (fun _ => 0) t (16 * e + i) (s.now + 1)) s.pulses }

/-- Whether a condition cause holds now (R451). -/
def State.setLive (s : State) (e cause : Nat) (b : Bool) : State := s.setBit (EVT_SRC_A.LIVE e) cause b

/-- The open fault record of a scope instance. -/
def State.openRecord (s : State) (scope : Nat) : Option OpenRecord := s.records.find? fun r => r.scope = scope

/-- Replace the record of its scope. -/
def replaceRecord (r : OpenRecord) : List OpenRecord → List OpenRecord
  | [] => []
  | x :: xs => if x.scope = r.scope then r :: xs else x :: replaceRecord r xs

/-- A Burek packet that the package forms and gives to a port or to a destination of its own. -/
inductive Outgoing where
  | event (dest : Nat) (pkt : Packet)
  deriving DecidableEq, Repr

/-- An Event of kind FAULT (Table 04-9, R460), from the event collector of the source's die or of the package. -/
def State.faultEvent (s : State) (e dest : Nat) : Packet :=
  { ptype := 8, vc := 0, cls := 0, dest := dest, src := s.fabricId (if e < 4544 then 776 + s.sourceDie e else 783)
    sub := 4, addr := e, noWin := true, deadline := s.now % 2 ^ 48 }

end Sys2Proof.Machine
end

