-- ==== Sys2Proof/Machine/Ops.lean ====
section
/-! DEFINITION. The shared operations: raising causes and the reactions they trigger, events and records, ledgers, the numbering of
ordering points, routes, and the packets that the package's own logic sends. -/

namespace Sys2Proof.Machine

/-! ### Offering to the lossy queues -/

/-- The cause of die source 10 that a weir mark in a queue sets (R464, Table 10-4), with the die. -/
def QueueId.markCause : QueueId → Option (Nat × Nat)
  | .fault d => some (d, 0)
  | .bittern d => some (d, 1)
  | .surrogate d => some (d, 2)
  | .partition p => some (p / 64, 3)
  | _ => none

/-- The reaction of a weir mark's cause, which fires in the next cycle. -/
def State.markPlaced (s : State) (k : QueueId) : State :=
  match k.markCause with
  | some (d, c) =>
    let s := s.setCauses (srcDie d 10) (2 ^ c)
    { s with actions := s.actions ++ [.fire (srcDie d 10) (2 ^ c)] }
  | none => s

/-- Offer an item to a lossy queue: the totals advance, a full queue counts the drop in a weir mark (R432 to R434). -/
def State.offer (s : State) (k : QueueId) (words : List Nat) : State :=
  let (q, marked) := (s.queue k).offer k.capacity s.now words
  let s := s.setQueue k q
  let s : State := match k.totals with
    | some (offered, dropped) => (s.set offered q.offered).set dropped q.dropped
    | none => s
  let s := if marked then s.markPlaced k else s
  s.showUsed k

/-- The words of a record of bytes, least significant byte first (R463, R474). -/
def wordsOf (n : Nat) (b : List Byte) : List Nat := (List.range n).map fun i => leNat ((b.drop (8 * i)).take 8)

/-- Place an entry in the event queue of a partition hosted here (R474). -/
def State.partitionEntry (s : State) (n : Nat) (words : List Nat) : State :=
  match s.partitionPu n with
  | some p => s.offer (.partition p) words
  | none => s

/-! ### Packets that the package's own logic forms -/

/-- A packet of the package's own logic joins the packets that wait to be routed out (R460, R199, R572). -/
def State.originate (s : State) (p : Packet) : State := { s with outbox := s.outbox ++ [p] }

/-! ### Firing a reaction vector (R456 to R462) -/

/-- The event action of a vector, once for each destination of a ROUTE byte (R460, R463). -/
def State.sendEvents (s : State) (e : Nat) (word0 : Nat) (route : Nat) (owners dests : List Nat) : State :=
  let words := [word0, s.now, 0, 0]
  let s := if route.testBit 0 then owners.foldl (fun s n => s.partitionEntry n words) s else s
  let s := if route.testBit 1 then s.offer (.controlPort 0) words else s
  let s := if route.testBit 2 then s.offer (.controlPort 1) words else s
  let s := if route.testBit 3 then s.offer (.keepers (s.sourceDie e)) words else s
  if route.testBit 4 then dests.foldl (fun s d => s.originate (s.faultEvent e d)) s else s

/-- Word 0 of a fault entry (Table 10-17). -/
def State.faultWord (s : State) (e mask : Nat) (c : Cause) : Nat :=
  entryWord0 1 e (firstCause mask) 0 c.window
    (match s.containObject e c with | some p => s.fabricId p | none => 0) c.noWin 0

/-- A triggered vector acts: it merges into the open record of its scope, or opens one, or sends its event at once; every action
it adds begins in the next cycle (R458, R461, R462). -/
def State.fire (s : State) (e mask : Nat) (c : Cause) : State :=
  let react := s.eventRec e 0 1
  let route := s.eventRec e 1 1
  let dest := s.eventRec e 2 2
  let owners := if route.testBit 0 then s.owners e c else []
  let dests := if route.testBit 4 then [dest] else []
  let acts := s.reactions e react c
  match s.openRecord (scopeOf e) with
  | some r =>
    let r := { r with
      mergeCount := satAdd 16 r.mergeCount 1
      mergeMap := withBit r.mergeMap (localSource e)
      react := r.react ||| react
      route := r.route ||| route
      injected := r.injected || c.injected
      owners := (r.owners ++ owners).eraseDups
      dests := (r.dests ++ dests).eraseDups }
    { s with records := replaceRecord r s.records, actions := s.actions ++ acts }
  | none =>
    if react.testBit 0 then
      let r : OpenRecord :=
        { scope := scopeOf e, source := e, cause := mask, react := react, route := route, injected := c.injected
          mergeCount := 0, mergeMap := 0, opened := s.now, detail := s.detail e c
          epoch := s.get (TOLL_CTL.EPOCH (s.sourceDie e)), owners := owners, dests := dests
          word0 := s.faultWord e mask c }
      { s with records := s.records ++ [r], actions := s.actions ++ acts }
    else
      let s := if react.testBit 1 then s.sendEvents e (s.faultWord e mask c) route owners dests else s
      { s with actions := s.actions ++ acts }

/-- The causes of a set that trigger the source's vector (R457). -/
def State.triggered (s : State) (e mask : Nat) : Nat :=
  if s.eventRec e 0 1 = 0 then 0 else mask &&& s.eventRec e 4 2

/-- Causes set, and those that come as pulses of their own trigger the reaction vector (R451 to R458). -/
def State.receiveCauses (s : State) (e mask merged : Nat) (c : Cause) : State :=
  let s := s.setCauses e mask merged
  let t := s.triggered e (mask - merged)
  if t = 0 then s else s.fire e t c

/-- Causes of one source set in one cycle, and trigger its reaction vector (R451 to R458). A pulse of a lane that merges with the one before it sets OVERRUN of
its crossing (R523). -/
def State.raiseMask (s : State) (e mask : Nat) (c : Cause) : State :=
  if mask = 0 then s else
  let m := s.mergedPulses e mask
  let s := ((s.notePulses e (mask - m)).receiveCauses e mask m c)
  if m = 0 then s else (s.setBit (CL_XSTAT.OVERRUN (e / 64)) (e % 64) true).receiveCauses (srcCluster (e / 64) 40) 1 0 {}

/-- One cause of a source sets. -/
def State.raise (s : State) (e cause : Nat) (c : Cause := {}) : State := s.raiseMask e (2 ^ cause) c

/-! ### Mode changes (R585) -/

/-- The package changes mode: PREV_MODE and CHANGES, cause 0 of package source 7, and cause 1 on entry to M11 (R585). DEDUCED: leaving M1 does not count, as
CHANGES is 0x00 then (R15, Table 14-10, log entry 65). -/
def State.enterMode (s : State) (m : Nat) : State :=
  if s.mode = m then s else
  let s := State.set { s with modes := { s.modes with since := s.now } } PKG_MODE.PREV_MODE s.mode
  let s := if s.get PKG_MODE.PREV_MODE = 1 then s.set PKG_MODE.MODE m else (s.set PKG_MODE.MODE m).bump PKG_MODE.CHANGES
  s.raiseMask (srcPkg 7) (if m = 11 then 3 else 1) {}

/-- M8 or M9 is left: the mode before it, or M7 when any region is then fenced (Table 14-2). -/
def State.backTo (s : State) (m : Nat) : State :=
  if s.mode ≠ 8 && s.mode ≠ 9 then s else s.enterMode (if s.anyFenced ∧ m ≠ 5 then 7 else m)

/-! ### Ledgers (R406 to R411) -/

/-- The key of ledger i of cluster c (R410). -/
def clusterLedger (c i : Nat) : Nat := 256 * c + i
/-- The key of ledger i of die d (R411). -/
def dieLedger (d i : Nat) : Nat := 16384 + 256 * d + i
/-- Ledger i of the port's slot (Table 09-1). -/
def portLedger (p i : Nat) : Nat := clusterLedger (p / 4) (32 * (p % 4) + i)

/-- A ledger of the package. -/
def State.ledger (s : State) (k : Nat) : Ledger := tabGet (fun _ => {}) s.ledgers k

/-- The injection that meets the next write of a ledger's word (R438, checkers 0x07 and 0x08): die and mode. -/
def State.ledgerInjection (s : State) (k : Nat) : Nat × Nat :=
  if k < 16384 then (k / 4096, s.injectMode (k / 4096) 7 (k % 4096)) else ((k - 16384) / 256, s.injectMode ((k - 16384) / 256) 8 (k % 256))

/-- A ledger's words are read: one bit in error is corrected and counted (R436). -/
def Ledger.read (l : Ledger) : Ledger := if l.hurt = 1 then { l with corrected := l.corrected + 1, hurt := 3 } else l

/-- Replace a ledger, whose words are read first and may meet an injection as they are written (R438). An uncorrectable one is carried out in M10 only, and an
error that it has left stays until the tally reads it. -/
def State.setLedger (s : State) (k : Nat) (l : Ledger) : State :=
  let (d, m) := s.ledgerInjection k
  let l := l.read
  let l := if l.hurt = 2 then l else if m = 1 || (m = 2 && s.mode = 10) then { l with hurt := m } else l
  let s : State := { s with ledgers := tabPut (fun _ => {}) s.ledgers k l }
  if m = 2 && s.mode ≠ 10 then (s.bump (DIE_EVT_INJECT.REFUSED d)).set (DIE_EVT_INJECT.REMAIN d) 0 else if m = 1 || m = 2 then s.injectUsed d else s

/-- Units are issued (R406). -/
def Ledger.issue (l : Ledger) (n : Nat) : Ledger := { l with out := l.out + n, issued := l.issued + n }
/-- Units come back (R406). -/
def Ledger.giveBack (l : Ledger) (n : Nat) : Ledger := { l with out := l.out - n, returned := l.returned + min n l.out }
/-- The tally takes units back under reset or link-down rules (R422). -/
def Ledger.reclaim (l : Ledger) (n : Nat) : Ledger :=
  { l with out := l.out - n, returned := l.returned + min n l.out, reclaimed := l.reclaimed + min n l.out }
/-- Units free; an unlimited ledger always has room (R407). -/
def Ledger.room (l : Ledger) (n : Nat) : Bool := l.total = 0 || decide (l.out + n ≤ l.total)
/-- The checks of R406. -/
def Ledger.ok (l : Ledger) : Bool :=
  l.issued = l.out + l.returned && (l.total = 0 || decide (l.out ≤ l.total)) && decide (l.reclaimed ≤ l.returned)

/-- Issue units of a ledger. -/
def State.issue (s : State) (k n : Nat) : State := s.setLedger k ((s.ledger k).issue n)
/-- Issue what a list of holds names. -/
def State.issueAll (s : State) (h : List Hold) : State := h.foldl (fun s x => s.issue x.ledger x.units) s
/-- Return what a list of holds names. -/
def State.returnAll (s : State) (h : List Hold) : State :=
  h.foldl (fun s x => s.setLedger x.ledger ((s.ledger x.ledger).giveBack x.units)) s
/-- Reclaim what a list of holds names. -/
def State.reclaimAll (s : State) (h : List Hold) : State :=
  h.foldl (fun s x => s.setLedger x.ledger ((s.ledger x.ledger).reclaim x.units)) s

/-! ### Die-to-die interfaces (R45 to R48, R411) -/

/-- The number x of die d's interface to die o: in ascending order of the other die (R411). -/
def d2dIndex (d o : Nat) : Nat := if o < d then o else o - 1
/-- The die that interface x of die d joins it to. -/
def d2dPeer (d x : Nat) : Nat := if x < d then x else x + 1
/-- The two dies of interface 0 to 5: XD01, XD02, XD03, XD12, XD13, XD23 (R45). -/
def d2dEnds (x : Nat) : Nat × Nat :=
  match x with
  | 0 => (0, 1) | 1 => (0, 2) | 2 => (0, 3) | 3 => (1, 2) | 4 => (1, 3) | _ => (2, 3)

/-- The interface between two dies is healthy: cause 0 of its source does not hold (R48). -/
def State.d2dUp (s : State) (d o : Nat) : Bool := !s.bitOf (EVT_SRC_A.LIVE (srcDie d (3 + d2dIndex d o))) 0

/-- The dies a packet crosses from die d to die o: direct, or by the lowest healthy relay (R47, R48); none when cut off. -/
def State.diePath (s : State) (d o : Nat) : Option (List Nat) :=
  if d = o then some [d]
  else if s.d2dUp d o then some [d, o]
  else (s.healthyDies.find? fun r => r ≠ d && r ≠ o && s.d2dUp d r && s.d2dUp r o).map fun r => [d, r, o]

/-! ### Crossings (R537 to R540) -/

/-- Where a crossing of a cluster stands. -/
def clusterCrossing (c k : Nat) : Nat := 16 * c + k
/-- Where a crossing of a die stands. -/
def dieCrossing (d k : Nat) : Nat := 1024 + 16 * d + k
/-- Where a crossing of the package block stands. -/
def packageCrossing (k : Nat) : Nat := 2048 + k

/-- A crossing. -/
def State.crossing (s : State) (x : Nat) : Crossing := tabGet (fun _ => {}) s.crossings x

/-- Replace a crossing. -/
def State.setCrossing (s : State) (x : Nat) (y : Crossing) : State := { s with crossings := tabPut (fun _ => {}) s.crossings x y }

/-- Words of a crossing's dual-clock queue (Tables 12-4 and 12-5); 0 for one without such a queue. -/
def crossingDepth (x : Nat) : Nat :=
  if x < 1024 then
    let k := x % 16
    if k < 8 then 32 else if k = 8 then 256 else if k = 9 || k = 10 then 512 else if k = 12 || k = 13 then 64 else 0
  else if x < 2048 then
    let k := x % 16
    if k < 6 then 1024 else if k = 7 then 64 else 0
  else 0

/-- The tag that a read of an empty queue returns (R532). -/
def notValid : Nat := 0x7FFFFFFFFFFFFFFF

/-- The producer's level (R530): its write pointer less the synchronised read pointer. -/
def Crossing.produced (y : Crossing) (depth : Nat) : Nat := (y.wptr + 2 * depth - y.rsync) % (2 * depth)
/-- The consumer's level (R530): the synchronised write pointer less its read pointer. -/
def Crossing.consumed (y : Crossing) (depth : Nat) : Nat := (y.wsync + 2 * depth - y.rptr) % (2 * depth)
/-- FULL, as the producer sees it (R530, R542): also in crossing-reset, and while a clock of the crossing stands (R522). -/
def Crossing.full (y : Crossing) (depth : Nat) : Bool :=
  y.crossReset || y.nearStopped || y.farStopped || (decide (0 < depth) && y.produced depth = depth)
/-- EMPTY, as the consumer sees it (R530, R542). -/
def Crossing.empty (y : Crossing) (depth : Nat) : Bool := y.crossReset || y.nearStopped || y.farStopped || y.consumed depth = 0

/-- A word is written (R529). A producer does not write into a full queue. -/
def Crossing.push (y : Crossing) (depth : Nat) (w : Word) : Crossing :=
  if y.full depth then y else { y with ram := tabPut (fun _ => 0) y.ram (y.wptr % depth) w, wptr := (y.wptr + 1) % (2 * depth) }

/-- The pointers cross to the other side (R524, R529). -/
def Crossing.sync (y : Crossing) : Crossing := { y with wsync := y.wptr, rsync := y.rptr }

/-- A word is read, with its valid indication; a read of an empty queue returns the not-valid tag and removes nothing (R532). -/
def Crossing.pop (y : Crossing) (depth : Nat) : Crossing × Word × Bool :=
  if y.empty depth then (y, BitVec.ofNat 64 notValid, false)
  else ({ y with rptr := (y.rptr + 1) % (2 * depth) }, tabGet (fun _ => 0) y.ram (y.rptr % depth), true)

/-- Words go through a queue one after the other: written, and read once the pointer has crossed (R529; log entry 82). -/
def Crossing.carry (y : Crossing) (depth : Nat) (ws : List Word) : Crossing :=
  ws.foldl (fun y w => ((((y.push depth w).sync).pop depth).1).sync) y

/-- Words go through the queue of a crossing. -/
def State.carryWords (s : State) (x : Nat) (ws : List Word) : State := s.setCrossing x ((s.crossing x).carry (crossingDepth x) ws)

/-! ### Ordering points (R314) -/

/-- The entry of cluster c's switch into the die crossbar. -/
def pointEntry (c : Nat) : Nat := c
/-- The output of the die crossbar toward cluster c. -/
def pointOut (c : Nat) : Nat := 100 + c
/-- The sending side of interface x of die d. -/
def pointD2d (d x : Nat) : Nat := 200 + 4 * d + x
/-- The flit scheduler of a BF port, or the issue of TLPs on a PCI Express link. -/
def pointPort (p : Nat) : Nat := 1000 + p
/-- An internal endpoint of this package, by low ID. -/
def pointEndpoint (n : Nat) : Nat := 2000 + n

/-- The die-to-die points of a path of dies. -/
def d2dPoints : List Nat → List Nat
  | d :: o :: rest => pointD2d d (d2dIndex d o) :: d2dPoints (o :: rest)
  | _ => []

/-- The die of an internal endpoint: an engine's, a keeper's or collector's, else the lead's. -/
def State.endpointDie (s : State) (n : Nat) : Nat :=
  if n < 768 then (n - 256) / 128 else if n < 776 then (n - 768) / 2 else if n < 780 then n - 776 else s.leadDie

/-! ### Routes (R323, R359, R360) -/

/-- The region of a port is in the drain or apply step of a partial reload (R98). -/
def State.reloading (s : State) (g : Nat) : Bool :=
  match s.reload with
  | some r => r.region = g && (r.stage = .draining || r.stage = .applying)
  | none => false

/-- A BF port is in Active with its session running. -/
def State.bfUp (s : State) (p : Nat) : Bool :=
  s.isBf p && s.get (PORT_LINK.LL_STATE p) == 2 && !s.flag (PORT_CONTAIN.CONTAINED p) && !s.portDark p

/-- No bound of the port is in force in a class (R365). -/
def noBound : Nat := 0x1FFFFF

/-- H(e, c) of a port in units of 10 ns (Table 08-12). -/
def State.hopUnits (s : State) (p c : Nat) : Nat :=
  s.get (if c = 0 then PORT_BOUND.PROMPT p else if c = 1 then PORT_BOUND.STANDARD p else PORT_BOUND.BULK p)

/-- The ROUTE entry of die d for a destination: PRIMARY and SECOND (Table 07-8). -/
def State.routeEntry (s : State) (d dest : Nat) : Nat × Nat :=
  (s.sec (routeSec d) (4 * dest) 2, s.sec (routeSec d) (4 * dest + 2) 2)

/-- A BF port takes traffic of other ranks: it is in Active, and neither contained nor withdrawn by a reload (R101, R360). -/
def State.routable (s : State) (p : Nat) : Bool := s.bfUp p && !s.reloading (p / 16)

/-- The BF port by which die d routes a destination of another rank (R360). -/
def State.routeBf (s : State) (d dest : Nat) : Option Nat :=
  let (a, b) := s.routeEntry d dest
  if a ≠ 0xFFFF && s.routable a then some a else if b ≠ 0xFFFF && s.routable b then some b else none

/-- Where a destination lies as die d sees it. -/
inductive Egress where
  | port (p : Nat)
  | endpoint (n : Nat)
  | none
  deriving DecidableEq, Repr

/-- An internal endpoint that the part has (Table 04-10). -/
def State.endpointExists (s : State) (n : Nat) : Bool :=
  decide (256 ≤ n) && decide (n < 784) &&
    !(decide (n < 768) && decide (256 + 8 * s.numClusters ≤ n)) &&
    !(decide (768 ≤ n) && decide (n < 776) && decide (768 + 2 * s.numDies ≤ n)) &&
    !(decide (776 ≤ n) && decide (n < 780) && decide (776 + s.numDies ≤ n))

/-- The egress of this package for a destination, by the route table of die d (R323, R360). -/
def State.egress (s : State) (d dest : Nat) : Egress :=
  if dest / 1024 = s.rank then
    let n := dest % 1024
    if n < 256 then (if s.isPort n then .port n else .none)
    else if s.endpointExists n then .endpoint n else .none
  else match s.routeBf d dest with
    | some p => .port p
    | none => .none

/-- The last ordering point of a packet and its die. -/
def State.finalPoint (s : State) : Egress → Option (Nat × Nat)
  | .port p => some (pointPort p, portDie p)
  | .endpoint n => some (pointEndpoint n, s.endpointDie n)
  | .none => none

/-- The ordering points from the switch of cluster c to an egress (R314). -/
def State.pathFrom (s : State) (c : Nat) (e : Egress) : Option (List Nat) :=
  match s.finalPoint e with
  | none => none
  | some (fin, die) =>
    match s.diePath (clusterDie c) die with
    | none => none
    | some dies =>
      let out := match e with
        | .port p => [pointOut (p / 4)]
        | .endpoint n => if n < 768 then [pointOut ((n - 256) / 8)] else []
        | .none => []
      some (pointEntry c :: d2dPoints dies ++ out ++ [fin])

/-! ### Packets: channels and sizes (Tables 04-4, 04-7) -/

/-- The virtual channel of a packet type; a barge and a completion state their own. -/
def vcOfType (t : Nat) : Nat :=
  if t = 2 || t = 8 then 0 else if t = 7 then 2 else if t = 0xA then 3 else 1

/-- The packet waits for an answer (R197). -/
def Packet.nonPosted (p : Packet) : Bool := p.vc = 1
/-- A completion or completion barge. -/
def Packet.isCompletion (p : Packet) : Bool := p.vc = 2
/-- A Write, posted barge or Write-Ack: what a joined packet must follow (R320). -/
def Packet.isWrite (p : Packet) : Bool := p.ptype = 2 || p.ptype = 3 || (p.ptype = 0xB && p.vc = 0)

/-- Payload elements of a packet (R201). -/
def Packet.payloadElements (p : Packet) : Nat :=
  if p.ptype = 2 || p.ptype = 3 || p.ptype = 4 then (p.addr % 8 + p.len + 7) / 8
  else if p.ptype = 7 then (if p.len = 0 then 0 else (p.addr % 8 + p.len + 7) / 8)
  else if p.ptype = 9 || p.ptype = 0xA || p.ptype = 0xB then (p.len + 7) / 8
  else 0

/-- Bytes of the packet on the flit: 32 of header and eight for each payload element (Table 04-4). -/
def Packet.flitBytes (p : Packet) : Nat := 32 + 8 * p.payloadElements

/-- Credits, and units of 32 bytes, that a packet costs (R191, R414). -/
def Packet.credits (p : Packet) : Nat := (p.flitBytes + 31) / 32

/-- The channel and class pair in the LIMIT order (Table 04-3). -/
def Packet.pair (p : Packet) : Nat := 3 * p.vc + p.cls

/-- The largest completion a non-posted request can produce, in bytes on the flit (R377, R414). -/
def Packet.largestCompletion (p : Packet) : Nat :=
  if p.ptype = 1 || p.ptype = 5 then 32 + 8 * ((p.addr % 8 + p.len + 7) / 8)
  else if p.ptype = 4 then 32 + 8 * ((p.addr % 8 + (if p.sub = 3 then p.len / 2 else p.len) + 7) / 8)
  else if p.ptype = 9 then 40
  else if p.ptype = 0xB then 32 + 4128
  else 32

/-! ### Link sessions, and wake requests (R155, R156, R615, R616) -/

/-- A session of a BF port. -/
def State.link (s : State) (p : Nat) : LinkSession := tabGet (fun _ => {}) s.links p

/-- Replace the link session of a BF port. -/
def State.setLink (s : State) (p : Nat) (l : LinkSession) : State := { s with links := tabPut (fun _ => {}) s.links p l }

/-- A wake request for the transmit direction of a BF port: one that dozes, or sends its DOZE slot, keeps it until it is Active (R155, R156). -/
def State.wakeRequest (s : State) (p : Nat) : State :=
  let x := s.link p
  if x.dozing = 0 || x.wakeAt.isSome then s else s.setLink p { x with wakeAt := some s.now }

/-- A packet is booked on an egress: its idle timer restarts and a dozing direction is woken (R615, R616). -/
def State.bookedOn (s : State) (p : Nat) : State :=
  if s.isBf p then (s.setLink p { s.link p with bookedAt := s.now }).wakeRequest p else s

/-- The egress of a packet that has been booked. -/
def State.bookedTo (s : State) : Egress → State
  | .port p => s.bookedOn p
  | _ => s

/-- ACK, NAK or a credit count has changed: a NULL flit is due in the next flit slot (R182), for which a dozing direction wakes (log entry 69). -/
def State.noteNull (s : State) (p : Nat) : State := (s.setLink p { s.link p with nullDue := true }).wakeRequest p

/-! ### Sending what the package itself forms -/

/-- The die that routes what the package's own logic forms: that of the packet's source, the lead's for one that names no port or endpoint here. -/
def State.packetDie (s : State) (p : Packet) : Nat :=
  let n := p.src % 1024
  if p.src / 1024 ≠ s.rank then s.leadDie else if n < 256 then portDie n else s.endpointDie n

/-- A die looks for a route of a packet and finds none: a destination of another rank sets cause 2 of its source 2 (R360). -/
def State.noteRoute (s : State) (d dest : Nat) : Egress → State
  | .none => if dest / 1024 ≠ s.rank then s.raise (srcDie d 2) 2 else s
  | _ => s

/-- The byte enables of the first and the last element of n bytes from an address (R200). -/
def elementEnables (addr n : Nat) : Nat × Nat :=
  if n = 0 then (0, 0)
  else
    let first := addr % 8
    let fin := first + n
    if fin ≤ 8 then (2 ^ fin - 2 ^ first, 0)
    else (2 ^ 8 - 2 ^ first, 2 ^ ((fin - 1) % 8 + 1) - 1)

/-- The words of a packet, header and payload, as a buffer or a queue holds them. -/
def Packet.loadWords (p : Packet) : Nat := p.payloadElements

/-! ### Tunnelled frames (R207, R293) -/

/-- Where the header base of a frame in Flit-mode form begins: after its local prefixes, one word each whose first byte is 0x8D (PRESUMED, the standard's form;
log entry 79). -/
def frameBase : Nat → List Byte → Nat
  | 0, _ => 0
  | n + 1, h => if h.head?.getD 0 = 0x8D#8 then 4 + frameBase n (h.drop 4) else 0

/-- Byte i of the header base. -/
def frameByte (h : List Byte) (i : Nat) : Nat := (h.getD (frameBase 4 h + i) 0).toNat

/-- Bytes of a frame's address: eight when bit 5 of its type says a base of four words, else four (PRESUMED, log entry 79). -/
def frameAddrBytes (h : List Byte) : Nat := if (frameByte h 0).testBit 5 then 8 else 4

/-- The address of a frame: from byte 8 of its header base. -/
def frameAddr (h : List Byte) : Nat := beNat ((h.drop (frameBase 4 h + 8)).take (frameAddrBytes h))

/-- Bytes of a list are replaced from a place on. -/
def overwrite (h : List Byte) (i : Nat) (b : List Byte) : List Byte := h.take i ++ b ++ h.drop (i + b.length)

/-- The far end adds H2 to a frame's address, modulo the address's width (R207, R293). -/
def rebaseFrame (h : List Byte) (offset : Nat) : List Byte :=
  let n := frameAddrBytes h
  overwrite h (frameBase 4 h + 8) (beBytes n ((frameAddr h + offset) % 2 ^ (8 * n)))

/-- The tag in a frame: the low 14 bits of bytes 6 and 7 of its header base. -/
def frameTag (h : List Byte) (tag : Nat) : List Byte :=
  let v := 256 * frameByte h 6 + frameByte h 7
  overwrite h (frameBase 4 h + 6) (beBytes 2 (v / 16384 * 16384 + tag % 16384))

/-- A 16-bit ID in a frame, at a byte of its header base: 4 the requester ID of a request, 8 that of a completion. -/
def frameId (h : List Byte) (at_ id : Nat) : List Byte := overwrite h (frameBase 4 h + at_) (beBytes 2 (id % 65536))

/-- A frame's request is an AtomicOp: its type ends in 0b0_1100 to 0b0_1110. -/
def frameAtomic (h : List Byte) : Bool := decide (12 ≤ frameByte h 0 % 32) && decide (frameByte h 0 % 32 ≤ 14)

/-- Data bytes that the completions of a tunnelled request bring: Length DWs of a read, of which 0 stands for 1,024; an AtomicOp ends with its first (0). -/
def frameWanted (h : List Byte) : Nat :=
  if frameAtomic h then 0
  else
    let n := frameByte h 2 % 4 * 256 + frameByte h 3
    4 * (if n = 0 then 1024 else n)

/-- Bytes of the header that padded bytes hold: prefixes, a base of three or four words, and the words of OHC that bits 0 to 4 of byte 1 of the base announce (PRESUMED,
the standard's form; log entry 79). Where that does not end within the last element, all of them. -/
def frameLength (h : List Byte) : Nat :=
  let x := frameByte h 1
  let e := x / 8 % 4
  let n := frameBase 4 h + (if (frameByte h 0).testBit 5 then 16 else 12) + 4 * (x % 2 + x / 2 % 2 + x / 4 % 2 + (if e = 3 then 4 else e))
  if decide (h.length < n + 8) && decide (n ≤ h.length) then n else h.length

/-- The header of a barge's frame, without the zeros that fill its last element (R207). -/
def Packet.frameHead (p : Packet) : List Byte := let h := p.payload.take (8 * (p.sub % 16)); h.take (frameLength h)
/-- The data of a barge's frame. -/
def Packet.frameData (p : Packet) : List Byte := p.payload.drop (8 * (p.sub % 16))

/-- A completion barge is the last of its request when it brings no data or all that is wanted (R294). -/
def lastBarge (wanted got : Nat) (p : Packet) : Bool := p.frameData.isEmpty || decide (wanted ≤ got + p.frameData.length)

/-- Send a Completion for a packet (R197): data that it returns is enabled as it lies in its elements (R200). -/
def completionFor (p : Packet) (status : Nat) (data : List Byte) (poison : Bool) : Packet :=
  { ptype := 7, vc := 2, cls := p.cls, dest := p.src, src := p.dest, tag := p.tag, poison := poison, ro := p.ro, ido := p.ido
    ns := p.ns, len := data.length, status := status, window := p.window, noWin := p.noWin
    addr := if data.isEmpty then 0 else p.addr, partition := p.partition, payload := data
    fbe := (elementEnables p.addr data.length).1, lbe := (elementEnables p.addr data.length).2 }

end Sys2Proof.Machine
end

