-- ==== Sys2Proof/Machine/Records.lean ====
section
/-! DEFINITION. The records of chapter 10: write losses (R466 to R469), surrogate answers (R470), containment changes (R474), fault
records (R463), and the persistent record area of the store. -/

namespace Sys2Proof.Machine

/-- The surrogate bound S in ticks (Table 08-6). -/
def State.surrogateBound (s : State) : Nat := 250000 * 2 ^ s.get PKG_BOUND.SUR_CODE

/-- The local port that a fabric ID names. -/
def State.localPort (s : State) (id : Nat) : Option Nat :=
  if id / 1024 = s.rank ∧ id % 1024 < 256 ∧ s.isPort (id % 1024) = true then some (id % 1024) else none

/-! ### Write losses -/

/-- What a write-loss record says (Table 10-10), its requester and length aside. -/
structure Loss where
  window : Nat
  noWin : Bool
  partition : Nat
  status : Nat
  src : Nat
  addr : Nat
  tag : Nat
  reporter : Nat
  len : Nat
  acknowledged : Bool := false
  barge : Bool := false
  injected : Bool := false
  requester : Option Nat := none
  deriving DecidableEq, Repr

/-- The requester a posted piece's TAG names at its SRC port, and whether it is uncertain (R468). -/
def State.requesterOf (s : State) (p tag : Nat) : Nat × Bool :=
  if s.isPd p then (0x100 + tag % 256, false)
  else match (tabGet (fun _ => []) s.requesters p).find? fun x => x.1 = tag % 256 with
    | some (_, r, t) => (r, decide (s.now < t + 2 * s.surrogateBound) && decide (t ≠ 0))
    | none => (0, false)

/-- The bytes of a write-loss record (Table 10-10). -/
def State.lossBytes (s : State) (l : Loss) (p : Nat) : List Byte :=
  let (req, unsure) := match l.requester with
    | some r => (r, false)
    | none => if s.isBf p then (0, false) else s.requesterOf p l.tag
  let flags := (if l.acknowledged then 1 else 0) + (if l.barge then 2 else 0) + (if l.injected then 4 else 0) +
    (if l.noWin then 8 else 0) + (if unsure then 16 else 0)
  leBytes 2 (if l.noWin then 0 else l.window) ++ leBytes 2 l.partition ++ leBytes 1 l.status ++ leBytes 1 flags ++
    leBytes 2 l.src ++ leBytes 8 l.addr ++ leBytes 2 l.tag ++ leBytes 2 req ++ leBytes 2 l.reporter ++ leBytes 2 l.len ++
    leBytes 8 s.now

/-- A loss through a window advances its counts, and escalates the window when LOSS_SINCE reaches 2^(n-1) (R467, R290). -/
def State.countLoss (s : State) (w : Nat) : State :=
  let s := (s.bump (WIN_STATE.LOSS_COUNT w)).bump (WIN_STATE.LOSS_SINCE w)
  let n := getBits (s.rd (WIN_ATTR.addr w)) 26 4
  if n ≠ 0 && decide (2 ^ (n - 1) ≤ s.get (WIN_STATE.LOSS_SINCE w)) && !s.flag (WIN_STATE.ESCALATED w) then
    (s.setFlag (WIN_STATE.ESCALATED w) true).raise (srcSlice w) 3
      { request := true, window := w, noWin := false, port := none }
  else s

/-- A write-loss record is written in the bittern log of the die of its SRC port (R466, R467). -/
def State.recordLoss (s : State) (l : Loss) (p : Nat) : State :=
  let bytes := s.lossBytes l p
  let s := (s.offer (.bittern (portDie p)) (wordsOf 4 bytes)).countDie (portDie p) 0x0C 1 fun _ => true
  let s := if l.noWin then s else s.countLoss l.window
  let s := s.raise (srcTxn p) 5
    { request := true, addr := l.addr, window := l.window, src := l.src, tag := l.tag, noWin := l.noWin, port := some p
      injected := l.injected }
  if l.noWin then s
  else s.partitionEntry l.partition
    [entryWord0 2 0x1FFF 0 l.status l.window l.src false 0, s.now, l.addr,
     leNat ((bytes.drop 18).take 2) * 2 ^ 32 + l.tag * 2 ^ 16 + l.len]

/-- The internal endpoint of this package that a fabric ID names (Table 04-10). -/
def State.localEndpoint (s : State) (id : Nat) : Option Nat :=
  if id / 1024 = s.rank ∧ s.endpointExists (id % 1024) = true then some (id % 1024) else none

/-- A write of an internal endpoint's own is entered in the bittern log of its die: it has no port, whose counts and causes R467 names (log entry 73). -/
def State.recordEndpointLoss (s : State) (l : Loss) (n : Nat) : State :=
  let d := s.endpointDie n
  let bytes := s.lossBytes { l with requester := some 0 } 0
  (s.offer (.bittern d) (wordsOf 4 bytes)).countDie d 0x0C 1 fun _ => true

/-- A lost write is entered in its source package (R199, R466). -/
def State.enterLoss (s : State) (l : Loss) : State :=
  match s.localPort l.src, s.localEndpoint l.src with
  | some q, _ => s.recordLoss l q
  | none, some n => s.recordEndpointLoss l n
  | none, none => s

/-- A WRITE-LOSS Event to the source of a write that failed here (R199). -/
def lossEvent (l : Loss) (cls now : Nat) : Packet :=
  { ptype := 8, vc := 0, cls := cls, dest := l.src, src := l.reporter, tag := l.tag, status := l.status, sub := 3
    window := l.window, noWin := l.noWin, partition := l.partition, len := l.len, addr := l.addr, deadline := now % 2 ^ 48 }

/-- A posted packet has failed in this package with a status: it is recorded here when its SRC is of this package, else
reported to its SRC (R199, R466). A lost Event is counted at the same place; it carries no payload. -/
def State.lose (s : State) (p : Packet) (status reporter : Nat) (injected : Bool := false) : State :=
  let l : Loss :=
    { window := p.window, noWin := p.noWin, partition := p.partition, status := status, src := p.src, addr := p.addr
      tag := p.tag, reporter := reporter, len := if p.ptype = 8 then 0 else p.len, barge := p.ptype = 0xB, injected := injected }
  if (s.localPort p.src).isSome || (s.localEndpoint p.src).isSome then s.enterLoss l else s.originate (lossEvent l p.cls s.now)

/-! ### Surrogate records -/

/-- A surrogate record is written for a request received at port p (Table 10-11, R470). -/
def State.surrogateRecord (s : State) (p : Nat) (o : Outstanding) (reason target : Nat) : State :=
  let req := match o.tlp, o.native with
    | some t, _ => (t.reqId, t.tag, t.addr)
    | none, some n => (n.src, n.tag, n.addr)
    | none, none => (0, 0, o.addr)
  let bytes := leBytes 2 (s.fabricId p) ++ leBytes 2 req.1 ++ leBytes 2 req.2.1 ++
    leBytes 2 (if o.noWin then 0 else o.window) ++ leBytes 8 req.2.2 ++ leBytes 1 o.ptype ++ leBytes 1 reason ++
    leBytes 2 target ++ leBytes 2 o.partition ++ leBytes 1 (if o.noWin then 1 else 0) ++ leBytes 1 0 ++ leBytes 8 s.now
  (s.offer (.surrogate (portDie p)) (wordsOf 4 bytes)).countDie (portDie p) 0x0D 1 fun _ => true

/-! ### Containment changes -/

/-- A containment change is placed in the queue of each partition with a binding behind the port (R474). -/
def State.containmentEntry (s : State) (p : Nat) (contained : Bool) : State :=
  (s.portOwners p).foldl
    (fun s n => s.partitionEntry n [entryWord0 3 (srcPcie p) 0 0 0 (s.fabricId p) true (if contained then 1 else 0), s.now, 0, 0]) s

/-- The same for a window: the queue of its owning partition. -/
def State.windowEntry (s : State) (w : Nat) (contained : Bool) : State :=
  s.partitionEntry (getBits (s.rd (WIN_ATTR.addr w)) 33 10)
    [entryWord0 3 (srcSlice w) 0 0 w 0 false (if contained then 1 else 0), s.now, 0, 0]

/-! ### The persistent record area (Table 02-4, R463, R437) -/

/-- The bytes of a breach record; a field with a lost word reads as all ones. `lost` has bit 0 for TOTAL, then OUT, ISSUED, RETURNED and
RECLAIMED. -/
def breachBytes (kind scope where_ index now : Nat) (injected : Bool) (l : Ledger) (lost : Nat) : List Byte :=
  let field := fun (i n v : Nat) => if lost.testBit i then List.replicate n (0xFF : Byte) else leBytes n v
  let b := leBytes 1 kind ++ leBytes 1 scope ++ leBytes 2 where_ ++ leBytes 1 index ++ [if injected then 1 else 0, 0, 0] ++ leBytes 8 now ++
    field 0 4 l.total ++ field 1 4 l.out ++ field 2 10 l.issued ++ field 3 10 l.returned ++ field 4 8 l.reclaimed ++ [0, 0, 0, 0]
  b ++ leBytes 4 (crc32c b) ++ [0, 0, 0, 0]

/-- The bytes of the breach record that an injection leaves: every word of ledger k is uncorrectable (R438). -/
def injectedBreach (k now : Nat) (l : Ledger) : List Byte :=
  if k < 16384 then breachBytes 1 1 (k / 256) (k % 256) now true l 0b11111 else breachBytes 1 2 ((k - 16384) / 256) ((k - 16384) % 256) now true l 0b11111

/-- A ledger of a cluster, or of die scope − 64. -/
def scopeLedger (scope index : Nat) : Nat := if scope < 64 then clusterLedger scope index else dieLedger (scope - 64) index

/-- A record is written at the next block of the ring (Table 02-4). -/
def State.persist (s : State) (bytes : List Byte) : State :=
  { s with
    nvs := putBytes s.nvs (0x07000000 + 64 * s.dir.recordNext) (bytes ++ List.replicate (64 - bytes.length) 0)
    dir := { s.dir with recordNext := (s.dir.recordNext + 1) % 262144 } }

/-- The bytes of a closing fault record (Table 10-9). -/
def faultBytes (r : OpenRecord) (closed : Nat) (copied : Bool) : List Byte :=
  let b := leBytes 2 r.source ++ leBytes 2 r.cause ++ leBytes 1 r.react ++
    leBytes 1 ((if r.injected then 1 else 0) + (if copied then 2 else 0)) ++ leBytes 2 r.mergeCount ++
    leBytes 8 r.opened ++ leBytes 8 closed ++ leBytes 16 r.mergeMap ++ r.detail ++ leBytes 1 r.epoch ++ [0, 0, 0]
  b ++ leBytes 4 (crc32c b)

/-- A fault record closes: it enters its die's queue, is copied when it fences or halts, and its events go out (R463). -/
def State.closeRecord (s : State) (r : OpenRecord) : State :=
  let copied := r.react.testBit 4 || r.react.testBit 5 || r.react.testBit 6
  let bytes := faultBytes r s.now copied
  let s := { s with records := s.records.filter fun x => x.scope ≠ r.scope }
  let s := s.offer (.fault (s.sourceDie r.source)) (wordsOf 8 bytes)
  let s := if copied then s.persist bytes else s
  if r.react.testBit 1 then s.sendEvents r.source r.word0 r.route r.owners r.dests else s

end Sys2Proof.Machine
end

