-- ==== Sys2Proof/Machine/Toll.lean ====
section
/-! DEFINITION. Access control (chapter 11): the Toll Table and the check, violation records, staging and commits, rule epochs and
live accesses, and the rule-epoch fence. -/

namespace Sys2Proof.Machine

/-! ### Entries (Table 11-1) -/

/-- Word k of entry i of die d. -/
def State.tollWord (s : State) (d i k : Nat) : Word := s.rd (TOLL.addr d i k)

/-- An access-control entry, decoded (Table 11-1). -/
structure TollEntry where
  base : Nat
  size : Nat
  target : Nat
  srcId : Nat
  srcMask : Nat
  reqId : Nat
  reqMask : Nat
  partition : Nat
  kinds : Nat
  priv : Nat
  flags : Nat
  last : Nat
  deriving DecidableEq, Repr

/-- The entry that four words hold. -/
def tollEntry (w0 w1 w2 w3 : Word) : TollEntry :=
  { base := w0.toNat, size := w1.toNat, target := getBits w2 0 16, srcId := getBits w2 16 16, srcMask := getBits w2 32 16
    reqId := getBits w2 48 16, reqMask := getBits w3 0 16, partition := getBits w3 16 16, kinds := getBits w3 32 8
    priv := getBits w3 40 8, flags := getBits w3 48 8, last := getBits w3 56 8 }

/-- Entry i of die d in force. -/
def State.toll (s : State) (d i : Nat) : TollEntry :=
  tollEntry (s.tollWord d i 0) (s.tollWord d i 1) (s.tollWord d i 2) (s.tollWord d i 3)

/-- VALID of an entry. -/
def TollEntry.valid (e : TollEntry) : Bool := e.flags.testBit 0
/-- LOCK of an entry. -/
def TollEntry.locked (e : TollEntry) : Bool := e.flags.testBit 1

/-- The values of Table 11-1 that a valid entry keeps. -/
def TollEntry.inRange (e : TollEntry) : Bool :=
  decide (e.base % 4096 = 0) && decide (1 ≤ e.size) && decide (e.size ≤ 2 ^ 52) &&
    decide (e.base + 4096 * e.size ≤ 2 ^ 64) && (decide (e.partition ≤ 1023) || decide (e.partition = 0xFFFF)) &&
    decide (e.kinds < 128) && decide (e.priv ≤ 3) && decide (e.flags < 4) && decide (e.last = 0)

/-! ### The check (R485 to R497) -/

/-- A kind of request, by its bit in KINDS (Table 11-1). -/
inductive Kind where
  | read | write | atomic | lock | config | message | event
  deriving DecidableEq, Repr

/-- The bit of a kind in KINDS. -/
def Kind.bit : Kind → Nat
  | .read => 0 | .write => 1 | .atomic => 2 | .lock => 3 | .config => 4 | .message => 5 | .event => 6

/-- Who falls back on the default map, and with what rights (Table 11-4). -/
inductive Fallback where
  | none | keeper | controlPort | debug
  deriving DecidableEq, Repr

/-- The master of a checked request (R485, Table 11-2). -/
structure Subject where
  id : Nat
  requester : Option Nat := none
  partition : Option Nat := none
  level : Nat := 0
  fallback : Fallback := .none
  deriving DecidableEq, Repr

/-- The subject of a master of control space. -/
def State.subject (s : State) (m : Master) : Subject :=
  { id := s.masterId m, level := s.level m
    fallback := match m with
      | .keeper _ => .keeper
      | .lead => .keeper
      | .debug => .debug
      | _ => if s.privileged m then .controlPort else .none }

/-- The default map (Table 11-4). -/
def defaultPermits (f : Fallback) (k : Kind) (control : Bool) : Bool :=
  match f, control with
  | .none, _ => false
  | _, true => k = .read || k = .write
  | .keeper, false => k ≠ .lock
  | .controlPort, false => k = .read || k = .write || k = .config
  | .debug, false => k = .read || k = .write

/-- An entry matches a request (R489). -/
def TollEntry.matches (e : TollEntry) (u : Subject) (target addr : Nat) : Bool :=
  e.valid && (e.target = target || (e.target = 0xFFFF && target ≠ 0xFFFE)) &&
    decide (e.base ≤ addr) && decide (addr < e.base + 4096 * e.size) &&
    decide (u.id &&& e.srcMask = e.srcId &&& e.srcMask) &&
    (decide (e.reqMask = 0) || match u.requester with
      | some r => decide (r &&& e.reqMask = e.reqId &&& e.reqMask)
      | none => false) &&
    (decide (e.partition = 0xFFFF) || decide (u.partition = some e.partition))

/-- The entries of die d whose word 3 has VALID, as the register table lists them. -/
def State.tollValid (s : State) (d : Nat) : List Nat :=
  s.regs.filterMap fun x =>
    if TOLL.addr d 0 0 ≤ x.1 ∧ x.1 < TOLL.addr d 16384 0 ∧ (x.1 - TOLL.addr d 0 0) % 32 = 24 ∧ x.2.getLsbD 48 = true
    then some ((x.1 - TOLL.addr d 0 0) / 32) else none

/-- The entries of die d with a word whose stored error is uncorrectable (R495). -/
def State.tollUnreadable (s : State) (d : Nat) : Bool :=
  s.ecc.any fun x => decide (TOLL.addr d 0 0 ≤ x.1) && decide (x.1 < TOLL.addr d 16384 0) && decide (x.2 = 2)

/-- The lowest of some entries. -/
def lowest : List Nat → Option Nat
  | [] => none
  | x :: xs => match lowest xs with
    | none => some x
    | some y => some (min x y)

/-- The outcome of a check: permitted, or refused with a RESULT and the deciding entry or 0xFFFF (Table 11-6). -/
inductive Verdict where
  | permit
  | refuse (result entry : Nat)
  deriving DecidableEq, Repr

/-- The decision of the lowest-numbered matching entry (R491). -/
def TollEntry.decides (e : TollEntry) (i : Nat) (u : Subject) (k : Kind) : Verdict :=
  if !e.kinds.testBit k.bit then .refuse 2 i else if u.level < e.priv then .refuse 3 i else .permit

/-- The check of a request in die d (R491 to R495). The debug master is bound by locked entries only (R493). -/
def State.tollCheck (s : State) (d : Nat) (u : Subject) (k : Kind) (target addr : Nat) : Verdict :=
  if s.tollUnreadable d then .refuse 6 0xFFFF
  else
    let lockedWrite := target = 0xFFFE && k = .write && decide (TOLL.addr d 0 0 ≤ addr) &&
      decide (addr < TOLL.addr d 16384 0) && (s.toll d ((addr - TOLL.addr d 0 0) / 32)).locked
    if lockedWrite then .refuse 5 ((addr - TOLL.addr d 0 0) / 32)
    else
      let cands := (s.tollValid d).filter fun i =>
        (s.toll d i).matches u target addr && (u.fallback ≠ .debug || (s.toll d i).locked)
      match lowest cands with
      | some i => (s.toll d i).decides i u k
      | none =>
        if u.fallback = .none then .refuse 1 0xFFFF
        else if defaultPermits u.fallback k (target = 0xFFFE) then .permit else .refuse 4 0xFFFF

/-- A word of die d's table with one bit in error. -/
def tollHurt (d : Nat) (x : Nat × Nat) : Bool := decide (TOLL.addr d 0 0 ≤ x.1) && decide (x.1 < TOLL.addr d 16384 0) && decide (x.2 = 1)

/-- The search reads the entries of die d: a word with one bit in error is corrected, and die source 0 sets cause 2 (R491, Table 10-4). -/
def State.searchToll (s : State) (d : Nat) : State :=
  if s.ecc.any (tollHurt d) then State.raise { s with ecc := s.ecc.filter fun x => !tollHurt d x } (srcDie d 0) 2 { injected := true } else s

/-- What a refusal is recorded of (Table 11-6). -/
structure Refused where
  addr : Nat
  target : Nat
  kind : Kind
  result : Nat
  entry : Nat
  tag : Nat := 0
  window : Nat := 0
  noWin : Bool := true
  port : Option Nat := none
  deriving DecidableEq, Repr

/-- The violation record of a refusal (Table 11-6). -/
def State.violationBytes (s : State) (d : Nat) (u : Subject) (r : Refused) : List Byte :=
  leBytes 8 r.addr ++ leBytes 2 r.target ++ leBytes 2 u.id ++ leBytes 2 (u.requester.getD 0) ++
    leBytes 2 (u.partition.getD 0xFFFF) ++ leBytes 1 r.kind.bit ++ leBytes 1 u.level ++ leBytes 1 r.result ++
    leBytes 1 (s.get (TOLL_CTL.EPOCH d)) ++ leBytes 2 r.entry ++ leBytes 2 r.tag ++ leBytes 8 s.now

/-- A refusal writes its violation record, advances COUNT and sets cause 0 of die source 0 (R497, R514). -/
def State.violate (s : State) (d : Nat) (u : Subject) (r : Refused) : State :=
  let words := wordsOf 4 (s.violationBytes d u r)
  let s := s.countDie d 0x08 1 fun _ => true
  let s := { s with vlast := tabPut (fun _ => []) s.vlast d words }
  let s := s.wr (TOLL_VLAST.addr d 0) (BitVec.ofNat 64 (words.getD 0 0))
  let s := if s.flag (TOLL_VIOL.FIRST_VALID d) then s
    else (List.range 4).foldl (fun s i => s.wr (TOLL_VFIRST.addr d i) (BitVec.ofNat 64 (words.getD i 0)))
      (s.setFlag (TOLL_VIOL.FIRST_VALID d) true)
  let s := s.bump (TOLL_VIOL.COUNT d)
  let c : Cause := { request := true, addr := r.addr, window := r.window, src := u.id, tag := r.tag, noWin := r.noWin, port := r.port, foreign := u.id / 1024 ≠ s.rank
                     injected := decide (r.result = 6) }
  s.raiseMask (srcDie d 0) (if r.result = 6 then 3 else 1) c

/-! ### Rule epochs and live accesses (R504 to R509) -/

/-- The rule epoch of die d (R504). -/
def State.epoch (s : State) (d : Nat) : Nat := s.get (TOLL_CTL.EPOCH d)

/-- Live accesses of die d with stamp e (R508). -/
def State.liveAt (s : State) (d e : Nat) : Nat := tabGet (fun _ => 0) s.live (256 * d + e)

/-- A checked access becomes live; its stamp is die and epoch together (R505, R508). -/
def State.stampLive (s : State) (d : Nat) : State × Nat :=
  let k := 256 * d + s.epoch d
  ({ s with live := tabPut (fun _ => 0) s.live k (tabGet (fun _ => 0) s.live k + 1) }, k)

/-- A stamped access ends (Table 11-5). -/
def State.endLive (s : State) (stamp : Option Nat) : State :=
  match stamp with
  | none => s
  | some k => { s with live := tabPut (fun _ => 0) s.live k (tabGet (fun _ => 0) s.live k - 1) }

end Sys2Proof.Machine
end

