-- ==== Sys2Proof/Machine/Bounds.lean ====
section
/-! DEFINITION. Delivery bounds (R361 to R368, R386 to R400): capacities, hop bounds in force, the bounds of neighbours, and
republishing. -/

namespace Sys2Proof.Machine

/-! ### Capacities (Table 08-4) -/

/-- Tenths of a GT/s of a rate code (Table 03-9). -/
def rateTenths (code : Nat) : Nat :=
  match code with
  | 1 => 25 | 2 => 50 | 3 => 80 | 4 => 160 | 5 => 320 | 6 => 640 | 7 => 1280 | _ => 0

/-- The coding factor of a rate and mode over 16,640: 236/256 in Flit mode, 128/130 at 8 GT/s and above, 8/10 below. -/
def codingFactor (code : Nat) (flit : Bool) : Nat := if flit then 15340 else if code ≥ 3 then 16384 else 13312

/-- A capacity as a numerator over 16,640 bytes in 80 ns. -/
def pcieCapacity (code width : Nat) (flit : Bool) : Nat := rateTenths code * width * codingFactor code flit

/-- Lanes set in a mask. -/
def maskCount (m : Nat) : Nat := ((List.range 16).filter fun i => m.testBit i).length

/-- DROP_COVER of a port (Table 08-10). -/
def State.dropCover (s : State) (p : Nat) : Bool := s.sec classSec (64 + 8 * p + 2) 1 = 1
/-- TRANSIT_SHARE of a port. -/
def State.transitShare (s : State) (p : Nat) : Nat := s.sec classSec (64 + 8 * p) 1
/-- CPL_SHARE of a port. -/
def State.cplShare (s : State) (p : Nat) : Nat := s.sec classSec (64 + 8 * p + 1) 1

/-- Lanes that a BF port of M lanes books (Table 08-4). -/
def bookedLanes (m : Nat) (cover : Bool) : Nat := if cover && m > 1 then m - 1 else m

/-- Cfull of a port over 16,640 (R364). -/
def State.capFull (s : State) (p : Nat) : Nat :=
  if s.isBf p then s.portWidth p * 1848 * 16640
  else
    let r := s.laneRec (s.firstLane p) 1 1
    let flit := r ≥ 6 || s.portRec p 65 1 = 1 || r < 3
    pcieCapacity r (s.portWidth p) flit

/-- The width a PCI Express port books: its active width, or the narrower one that is planned (R397). -/
def State.bookedWidth (s : State) (p : Nat) : Nat :=
  s.planned.foldl (fun n x => match x with
    | .narrow q w => if q = p then min n w else n
    | _ => n) (s.get (PORT_PCIE.ACTIVE_WIDTH p))

/-- Replay allotment of a BF port (R38, R68). -/
def State.replayFlits (s : State) (p : Nat) : Nat :=
  let own := s.portRec p 8 2
  if own ≠ 0 then own
  else
    let all := if s.isX16 p then 6552 else 3276
    let ports := ((List.range 4).map (4 * (p / 4) + ·)).filter s.isBf
    let taken := ports.foldl (fun n q => n + s.portRec q 8 2) 0
    let widths := ports.foldl (fun n q => if s.portRec q 8 2 = 0 then n + s.portWidth q else n) 0
    if widths = 0 then 0 else (all - taken) * s.portWidth p / widths

/-- The allotment a transmitter holds to (R179). -/
def State.allotment (s : State) (p : Nat) : Nat := min (s.replayFlits p) 8191

/-- The round trip that a port's allotment covers, and the one it needs, in tenths of a tick: flit times of 12.8 ns over the width, and the learnt round
trip plus 200 ns (R188, Table 01-3). -/
def State.reach (s : State) (p : Nat) : Nat × Nat :=
  (s.allotment p * 2048 / s.portWidth p, 10 * (2 * (s.link p).flight.getD 0 + 200 * ticksPerNs))

/-- The capacity that the allotment sustains: as many flits in a round trip as it holds, whatever the width (R188). -/
def State.reachLimit (s : State) (p cap : Nat) : Nat :=
  let (has, needs) := s.reach p
  if s.flag (PORT_LINK.REACH_SHORT p) then min cap (s.capFull p * has / needs) else cap

/-- Cbook of a port over 16,640: what the sluice books at present, never above Cfull (R364). -/
def State.capBook (s : State) (p : Nat) : Nat :=
  if s.isBf p then
    s.reachLimit p (bookedLanes (maskCount (s.get (PORT_BOND.TX_MASK p))) (s.dropCover p) * 1848 * 16640)
  else
    min (s.capFull p) (pcieCapacity (s.get (PORT_PCIE.RATE p)) (s.bookedWidth p) (s.flag (PORT_PCIE.FLIT p)))

/-- The bytes of a bucket of a port (R374). -/
def State.bucketBytes (s : State) (p : Nat) : Nat := s.capBook p / 16640

/-- The bytes of a bucket at full width, with the drop-out cover of a BF port (Table 09-1, calendar). -/
def State.fullBucketBytes (s : State) (p : Nat) : Nat :=
  if s.isBf p then bookedLanes (s.portWidth p) (s.dropCover p) * 1848 else s.capFull p / 16640

/-- The bytes of a bucket of a die-to-die interface. -/
def d2dBucket : Nat := 160000

/-! ### Hop bounds (R361 to R365) -/

/-- The class bounds in units of 10 ns (Table 08-1). -/
def classBound (c : Nat) : Nat := if c = 0 then 80 else if c = 1 then 400 else 4000

/-- The power plan's POLICY of a port (Table 15-3). -/
def State.policy (s : State) (p : Nat) : Nat := s.sec powerSec (64 + 16 * p) 1

/-- The port is a standby port not yet woken (R618). -/
def State.asleep (s : State) (p : Nat) : Bool := s.policy p = 3 && !s.woken.contains p

/-- The transmit direction of a BF port may Doze at this moment (R615, R619). -/
def State.mayDoze (s : State) (p : Nat) : Bool :=
  s.policy p = 1 || (s.policy p = 2 && s.flag (DIE_PWR.THROTTLING (portDie p)))

/-- A path from some die to the port's die uses two crossings (Table 08-2, Relay). -/
def State.relayed (s : State) (p : Nat) : Bool :=
  s.healthyDies.any fun d => match s.diePath d (portDie p) with
    | some l => decide (l.length = 3)
    | none => false

/-- The allowance A(e, c) in units of 10 ns (Table 08-2, Table 15-4). A link's round trip of ticks is rounded up. -/
def State.allowance (s : State) (p : Nat) : Nat :=
  let link :=
    if s.isBf p then
      ceilDiv (2 * (s.link p).flight.getD 0) 160 + (if s.dropCover p then 125 else 25) +
        (if s.mayDoze p then 41 else 0) +
        (match (s.link p).partner with | some i => if i.txDoze then 41 else 0 | none => 0)
    else if s.sec powerSec (64 + 16 * p + 5) 1 = 1 then (if s.isPu p then 6400 else max 400 (tabGet (fun _ => 0) s.l1Exit p)) else 0
  let lock := if s.isPd p && s.flag (PORT_LOCK.LOCKABLE p) then 100 * s.get (PORT_LOCK.HOLD_LIMIT p) else 0
  link + lock + (if s.relayed p then 10 else 0)

/-- The port can carry traffic: its link is up and no containment, fence, reset, reload or standby withdraws it (R365, R396). -/
def State.inService (s : State) (p : Nat) : Bool :=
  s.isPort p && !s.portDark p && !s.asleep p && !s.reloading (p / 16) &&
    (if s.isBf p then s.bfUp p && (s.link p).flight.isSome
     else s.flag (PORT_PCIE.DL_ACTIVE p) && !(if s.isPu p then s.flag (PORT_CONTAIN.CONTAINED p) else s.flag (PORT_DPC.CONTAINED p)))

/-- The hop bound of a port in a class, in units of 10 ns; none when no bound is in force (R364, R365). -/
def State.hopBound (s : State) (p c : Nat) : Nat :=
  let book := s.capBook p
  if !s.inService p || book = 0 then noBound
  else min (ceilDiv (classBound c * s.capFull p) book + s.allowance p) (noBound - 1)

/-- H(e, c) in ticks, when a bound is in force. -/
def State.hopTicks (s : State) (p c : Nat) : Option Nat :=
  if s.hopUnits p c = noBound then none else some (160 * s.hopUnits p c)

/-! ### Bounds beyond the package (R366, R386 to R389) -/

/-- Where V of a destination in a class, as announced on a BF port, is held. -/
def boundKey (p dest c : Nat) : Nat := (c * 1024 + p) * 65536 + dest

/-- A V value with its HOPS as announced; nothing listed means not announced. -/
def State.announced (s : State) (p dest c : Nat) : Option (Nat × Nat) :=
  let v := tabGet (fun _ => 0) s.bounds (boundKey p dest c)
  if v = 0 then none else some ((v - 1) % 2 ^ 32, (v - 1) / 2 ^ 32)

/-- The neighbour on a BF port has announced bounds in this session. -/
def State.boundsSeen (s : State) (p : Nat) : Bool := tabGet (fun _ => 0) s.bounds (boundKey p 0 3) ≠ 0
/-- The neighbour is treated as a Burek peer (R388, R609). DESIGN CHOICE: once taken for one, it stays one while its link goes down and comes back (log entry 96). -/
def State.isPeer (s : State) (p : Nat) : Bool := tabGet (fun _ => 0) s.bounds (boundKey p 1 3) ≠ 0

/-- The longest V in force that is announced on BF port p for the ports of a rank in a class, with its HOPS (R387). -/
def State.longestAnnounced (s : State) (p rank c : Nat) : Option (Nat × Nat) :=
  s.bounds.foldl (fun m b =>
    let dest := b.1 % 65536
    if b.1 / 65536 ≠ c * 1024 + p || dest / 1024 ≠ rank || decide (256 ≤ dest % 1024) then m
    else match s.announced p dest c with
      | none => m
      | some x => if x.1 = 0xFFFFFFFF then m else match m with
        | some y => if y.1 < x.1 then some x else m
        | none => some x) none

/-- The bound beyond BF port p for a destination in ticks, with the BF links of it (R387, R388). A destination without a record takes that of its rank, and an
internal endpoint of the neighbour's own rank the longest over that rank's ports (R695). -/
def State.beyond (s : State) (p dest c : Nat) : Option (Nat × Nat) :=
  match (s.link p).flight with
  | none => none
  | some d =>
    if s.boundsSeen p then
      let v := match s.announced p dest c with
        | some x => some x
        | none => match s.announced p (dest / 1024 * 1024 + 0x3FF) c with
          | some x => some x
          | none => if dest % 1024 < 256 then none else s.longestAnnounced p (dest / 1024) c
      match v with
      | some (t, h) => if t = 0xFFFFFFFF then none else some (d + t, h + 1)
      | none => none
    else if s.isPeer p then
      match (s.link p).partner with
      | some i => if i.sender / 1024 = dest / 1024 then some (d, 1) else some (d + 1600 * i.hold, 1)
      | none => none
    else none

/-- The destinations that some die routes through BF port p and for which a bound beyond it is known: one with a record, a port of a rank with one, or any beyond a
Burek peer. -/
def State.destsBeyond (s : State) (p : Nat) : List Nat :=
  let ports := fun r : Nat => (List.range 256).map (1024 * r + ·)
  let dests := if s.boundsSeen p then
      s.bounds.flatMap fun b => if b.1 / 65536 % 1024 = p && decide (b.1 / 65536 / 1024 < 3) then
        (if b.1 % 1024 = 0x3FF then ports (b.1 % 65536 / 1024) else [b.1 % 65536]) else []
    else if s.isPeer p then (List.range 64).flatMap ports else []
  dests.filter fun x => x / 1024 ≠ s.rank && s.healthyDies.any fun d => s.routeBf d x = some p

/-- The path bound from this package through BF port p, H(e, c) + R_out(dest, c) in ticks, with its BF links (R386, R389). -/
def State.pathBound (s : State) (p dest c : Nat) : Option (Nat × Nat) :=
  match s.hopTicks p c, s.beyond p dest c with
  | some h, some (v, n) => some (h + v, n)
  | _, _ => none

/-- The half of a path bound that the package holds, H of BF port p and R_out beyond it, is at or above the surrogate bound for a destination that some die routes
through p (R389). -/
def State.halfTooLong (s : State) (p : Nat) : Bool :=
  (s.destsBeyond p).any fun x => (List.range 3).any fun c => match s.pathBound p x c with
    | some (v, _) => decide (s.surrogateBound ≤ v)
    | none => false

/-- R_out(dest, c) as die d holds it, in ticks: zero in this package (R366, R387). -/
def State.rOut (s : State) (d dest c : Nat) : Option Nat :=
  if dest / 1024 = s.rank then some 0
  else match s.routeBf d dest with
    | some p => (s.beyond p dest c).map (·.1)
    | none => none

/-- The BF links of the longest path bound in force that the package holds (R399): its own ports' hop bounds have none. Of equal bounds the one with more links
counts. -/
def State.longestPath (s : State) : Nat :=
  let longer := fun (m : Nat × Nat) (x : Option (Nat × Nat)) => match x with
    | some y => if m.1 < y.1 || (m.1 = y.1 && decide (m.2 < y.2)) then y else m
    | none => m
  let own := s.allPorts.foldl (fun m p => (List.range 3).foldl (fun m c => longer m ((s.hopTicks p c).map fun h => (h, 0))) m) (0, 0)
  (s.bfPorts.foldl (fun m p => (s.destsBeyond p).foldl (fun m x => (List.range 3).foldl (fun m c => longer m (s.pathBound p x c)) m) m) own).2

/-- The longest Bulk hop bound in force, in ticks (R390). -/
def State.longestBulk (s : State) : Nat :=
  s.allPorts.foldl (fun m p => match s.hopTicks p 2 with | some t => max m t | none => m) 640000

/-! ### Republishing (R396 to R400) -/

/-- Every PORT_BOUND takes the bounds that now hold. -/
def State.recomputeBounds (s : State) : State :=
  s.allPorts.foldl (fun t p =>
    ((t.set (PORT_BOUND.PROMPT p) (s.hopBound p 0)).set (PORT_BOUND.STANDARD p) (s.hopBound p 1)).set (PORT_BOUND.BULK p) (s.hopBound p 2)) s

/-- The bounds that now hold differ from those published (R396). -/
def State.boundsMove (s : State) : Bool :=
  let t := s.recomputeBounds
  s.allPorts.any fun p => decide (s.rd (PORT_BOUND.addr p) ≠ t.rd (PORT_BOUND.addr p))

/-- Republish with a code of Table 08-7: the bounds in force, BOUND_SEQ, LAST_CAUSE, SETTLE, the announcement due, and cause 0 of
package source 5. Nothing is republished when no bound changed and none beyond did (R396). -/
def State.republish (s : State) (code : Nat) (beyond : Bool := false) : State :=
  let t := s.recomputeBounds
  if !beyond && !s.boundsMove then t else
  let t := t.set PKG_BOUND.BOUND_SEQ ((t.get PKG_BOUND.BOUND_SEQ + 1) % 65536)
  let t := t.set PKG_BOUND.LAST_CAUSE code
  let t := t.set PKG_BOUND.SETTLE (min (ceilDiv t.surrogateBound 16000 + 10 * t.longestPath) (2 ^ 20 - 1))
  State.raise { t with announceDue := true } (srcPkg 5) 0

/-- A port's bounds may be restored (R396): with code 0x7 when a partial reload has reset the port, else with 0xA. -/
def State.restore (s : State) (p : Nat) (beyond : Bool := false) : State :=
  if s.modes.restoring.contains p then
    let s := s.republish 7 beyond
    if s.inService p then { s with modes := { s.modes with restoring := s.modes.restoring.filter (· ≠ p) } } else s
  else s.republish 0xA beyond

/-- A hop bound in force that is published is shorter than the one that now holds (R399). -/
def State.lengthens (s : State) : Bool :=
  let t := s.recomputeBounds
  s.allPorts.any fun p => (List.range 3).any fun c => s.hopUnits p c ≠ noBound && t.hopUnits p c ≠ noBound && decide (s.hopUnits p c < t.hopUnits p c)

/-- Planned changes that lengthen bounds are published at once and wait for SETTLE at the egress, which runs from the announcement of the last of them (R399, log
entry 83). Where they lengthen no bound there is nothing to wait for. -/
def State.planLengthening (s : State) (xs : List Planned) (code : Nat) (beyond : Bool := false) : State :=
  let t := s.republish code beyond
  if s.lengthens then { t.setFlag PKG_BOUND.SETTLING true with planned := t.planned ++ xs, modes := { t.modes with settleAt := 0 } } else t

end Sys2Proof.Machine
end

