-- ==== Sys2Proof/Machine/Window.lean ====
section
/-! DEFINITION. The windows in force, decoded from their registers (R264 to R267), and the window that decides on a request. -/

namespace Sys2Proof.Machine

/-- A window entry in force. -/
structure Window where
  n : Nat
  base : Nat
  limit : Nat
  remote : Nat
  attr : Word
  deriving DecidableEq, Repr

/-- KIND of Table 06-2. -/
def Window.kind (w : Window) : Nat := getBits w.attr 60 3
/-- SRC_KIND 1: the window decodes Burek-native requests. -/
def Window.native (w : Window) : Bool := w.attr.getLsbD 59
/-- TARGET of Table 06-2. -/
def Window.target (w : Window) : Nat := getBits w.attr 43 16
/-- PARTITION of Table 06-2. -/
def Window.partition (w : Window) : Nat := getBits w.attr 33 10
/-- CLASS of Table 06-2. -/
def Window.cls (w : Window) : Nat := getBits w.attr 31 2
/-- WRITE_MODE of Table 06-2. -/
def Window.acknowledged (w : Window) : Bool := w.attr.getLsbD 30
/-- Element size of the BYTE_RULE; 1 is address-invariant. -/
def Window.element (w : Window) : Nat := 2 ^ getBits w.attr 24 2
/-- SEF of Table 06-2. -/
def Window.sef (w : Window) : Bool := w.attr.getLsbD 23
/-- PF_DEPTH or VEC_SHIFT. -/
def Window.depth (w : Window) : Nat := getBits w.attr 20 3
/-- LOCK_OK of Table 06-2. -/
def Window.lockOk (w : Window) : Bool := w.attr.getLsbD 19
/-- REBASE of Table 06-2. -/
def Window.rebase (w : Window) : Bool := w.attr.getLsbD 18
/-- FOLLOW of Table 06-2. -/
def Window.follow (w : Window) : Bool := w.attr.getLsbD 17

/-- Window n in force. -/
def State.window (s : State) (n : Nat) : Window :=
  { n := n, base := (s.rd (WIN_BASE.addr n)).toNat, limit := (s.rd (WIN_LIMIT.addr n)).toNat
    remote := (s.rd (WIN_REMOTE.addr n)).toNat, attr := s.rd (WIN_ATTR.addr n) }

/-- The window is in use. -/
def State.windowValid (s : State) (n : Nat) : Bool := (s.rd (WIN_ATTR.addr n)).getLsbD 63 && !s.beyond64.contains n

/-- The local windows of cluster c that are in use, in rising order: those whose attribute register is listed. -/
def State.windowsOf (s : State) (c : Nat) : List Nat :=
  s.regs.filterMap fun x =>
    if WIN_ATTR.addr (1024 * c) ≤ x.1 ∧ x.1 ≤ WIN_ATTR.addr (1024 * c + 1023) ∧ (x.1 - WIN_ATTR.addr (1024 * c)) % 64 = 0
    then some (1024 * c + (x.1 - WIN_ATTR.addr (1024 * c)) / 64) else none

/-- Which port a request to be decoded came in at. -/
inductive Ingress where
  | pu | pd | bf
  deriving DecidableEq, Repr

/-- A window's KIND decodes requests from a port (Table 06-3). -/
def kindDecodes (kind : Nat) (i : Ingress) : Bool :=
  kind = 0 || kind = 4 || ((kind = 1 || kind = 2) && i = .pd)

/-- A window matches a request (R266). -/
def State.windowMatches (s : State) (i : Ingress) (part addr n : Nat) : Bool :=
  let w := s.window n
  s.windowValid n && (w.native == (i == .bf)) && kindDecodes w.kind i && w.partition = part &&
    decide (w.base ≤ addr) && decide (addr ≤ w.limit + 0xFFF)

/-- The window that decides: the lowest that matches (R266). -/
def State.decodeWindow (s : State) (c : Nat) (i : Ingress) (part addr : Nat) : Option Window :=
  ((s.windowsOf c).find? (s.windowMatches i part addr)).map s.window

/-- The window is contained (Table 10-15). -/
def State.windowContained (s : State) (n : Nat) : Bool :=
  s.bitOf (CL_WCON_MAP.CONTAINED (n / 1024) (n % 1024 / 64)) (n % 64)

/-- The event-source window in which a cluster's PU port lands the MSI-X Events of a partition (R305). -/
def State.landWindow (s : State) (c part : Nat) : Option Window :=
  ((s.windowsOf c).find? fun n => s.windowValid n && (s.window n).kind = 3 && (s.window n).partition = part).map s.window

/-- The host address of an MSI-X Event's vector through its window (R305). -/
def Window.vectorAddr (w : Window) (k : Packet) : Nat := w.remote + k.addr / 2 ^ 32 % 65536 * 2 ^ (w.depth + 2)

end Sys2Proof.Machine
end

