-- ==== Sys2Proof/Machine/Calendar.lean ====
section
/-! DEFINITION. Calendars and costs of the admission gate (R372 to R377, R414), deadlines (R366 to R368) and the passing rules of
Table 07-1. -/

namespace Sys2Proof.Machine

/-! ### Deadlines, compared modulo 2^48 (R368) -/

/-- The later of two deadlines. -/
def later (a b : Nat) : Nat := if (b + 2 ^ 48 - a % 2 ^ 48) % 2 ^ 48 < 2 ^ 47 then b % 2 ^ 48 else a % 2 ^ 48

/-- Deadline a is before deadline b. -/
def before (a b : Nat) : Bool :=
  let d := (b + 2 ^ 48 - a % 2 ^ 48) % 2 ^ 48
  decide (0 < d) && decide (d < 2 ^ 47)

/-- Ticks from the present to t, when t is not past (R375). -/
def State.ahead (s : State) (t : Nat) : Option Nat :=
  let d := (t + 2 ^ 48 - s.now % 2 ^ 48) % 2 ^ 48
  if d < 2 ^ 47 then some d else none

/-! ### Max_Payload_Size (R275) -/

/-- What acts in an emulated function. -/
def State.vport (s : State) (p f : Nat) : VirtPort := tabGet (fun _ => {}) s.virtPorts (64 * p + f)

/-- The Max_Payload_Size in force for requesters at a port. -/
def State.mps (s : State) (p : Nat) : Nat :=
  128 * 2 ^ (if s.isPu p then (s.vport p 0).mps else tabGet (fun _ => 0) s.deviceMps p)

/-! ### Costs (R373) -/

/-- Whole DWs, in bytes, that hold n bytes from an address. -/
def wholeDws (addr n : Nat) : Nat := if n = 0 then 0 else 4 * ceilDiv (addr % 4 + n) 4

/-- The data of each TLP that a packet becomes on a PCI Express link, in whole DWs: a write above the maximum payload is cut as it is issued (R278), a
Completion's data as the near package gives it to its requester (R275). An MSI-X Event becomes a write of one DW; other Events and an Unlock become messages without
data (R254, R305, R308, R345). -/
def Packet.linkData (k : Packet) (mps : Nat) : List Nat :=
  if k.ptype = 2 || k.ptype = 3 then
    let cut := mps - k.addr % mps
    if k.len ≤ mps then [wholeDws k.addr k.len] else [wholeDws k.addr (min cut k.len), wholeDws 0 (k.len - cut)]
  else if k.ptype = 7 then wholeDws k.addr k.len :: List.replicate (ceilDiv k.len mps - 1) 0
  else if k.ptype = 4 || k.ptype = 9 then [k.len]
  else if k.ptype = 8 && k.sub = 1 then [4]
  else if k.ptype = 0xB then [wholeDws 0 (k.len - 8 * (k.sub % 16))]
  else [0]

/-- Framing and LCRC of a TLP in non-Flit mode (R373). -/
def State.framing (s : State) (p : Nat) : Nat := if s.flag (PORT_PCIE.FLIT p) then 0 else 8

/-- Bytes of the TLPs that a packet becomes on a PCI Express link: header, data in whole DWs, and 8 bytes in non-Flit mode, for each (R373). -/
def State.tlpBytes (s : State) (p : Nat) (k : Packet) : Nat :=
  let head := if k.ptype = 7 || k.ptype = 9 then 12
    else if k.ptype = 0xB then (if s.flag (PORT_PCIE.FLIT p) then k.frameHead else Config.plainForm k.frameHead).length
    else if k.ptype = 6 then 16
    else if k.ptype = 8 then (match s.landWindow (portCluster p) k.partition with
      | some w => if k.sub = 1 && decide (w.vectorAddr k < 2 ^ 32) then 12 else 16
      | none => 16)
    else if k.addr < 2 ^ 32 then 12 else 16
  (k.linkData (s.mps p)).foldl (fun n d => n + head + s.framing p + d) 0

/-- Bytes of completion TLPs on a PCI Express link (R373). -/
def State.wireBytes (s : State) (p : Nat) (ts : List Tlp) : Nat :=
  ts.foldl (fun n t => n + (if t.header.isEmpty then 12 else t.header.length) + s.framing p + wholeDws t.addr t.data.length) 0

/-- The cost of a packet at a port. -/
def State.costAt (s : State) (p : Nat) (k : Packet) : Nat := if s.isBf p then k.flitBytes else s.tlpBytes p k

/-- The credits that a packet takes at an egress port (R376): Burek credits of its pair, or the partner's header and data credits. -/
def State.creditCost (s : State) (p : Nat) (k : Packet) : List Hold :=
  if s.isBf p then [⟨portLedger p (2 + k.pair), k.credits⟩]
  else
    let f := if k.vc = 0 then 0 else if k.vc = 1 then 2 else 4
    let tlps := k.linkData (s.mps p)
    let data := tlps.foldl (fun n d => n + ceilDiv d 16) 0
    -- a Write-Ack becomes a posted write at its destination (R278), an Unlock a message (R345)
    let f := if k.ptype = 3 || k.ptype = 6 then 0 else f
    ⟨portLedger p (2 + f), tlps.length⟩ :: (if data = 0 then [] else [⟨portLedger p (3 + f), data⟩])

/-- Every hold fits its ledger. -/
def State.roomFor (s : State) (h : List Hold) : Bool := h.all fun x => (s.ledger x.ledger).room x.units

/-! ### Deadlines stamped (R318, R321, R366, R367) -/

/-- A joined kind of R320: an interrupt or error Event, a Completion or completion barge with RO 0, a Config, Lock or Unlock. -/
def Packet.joined (p : Packet) : Bool :=
  (p.ptype = 8 && (p.sub = 1 || p.sub = 2 || p.sub = 6)) ||
    ((p.ptype = 7 || (p.ptype = 0xB && p.vc = 2)) && !p.ro) || p.ptype = 9 || p.ptype = 5 || p.ptype = 6

/-- The local deadline of a packet at die d (R367). -/
def State.localDeadline (s : State) (d dest cls deadline : Nat) : Nat := (deadline + 2 ^ 48 - (s.rOut d dest cls).getD 0 % 2 ^ 48) % 2 ^ 48

/-- Where the latest deadline of a packet's flow stands: by SRC, DEST and CLASS (R312). -/
def Packet.flowKey (k : Packet) : Nat := (k.src * 65536 + k.dest) * 4 + k.cls

/-- A deadline computed for a packet that the sluice of an ingress stamps is moved no earlier than the last of its flow (R318) and, of a joined kind, behind the
writes to its destination that were stamped at the same ingress (R321). -/
def State.notBefore (s : State) (port : Nat) (k : Packet) (dl : Nat) : Nat :=
  let dl := match tabGet (fun _ => none) s.flowLast k.flowKey with
    | some x => later dl x
    | none => dl
  if k.joined then match tabGet (fun _ => none) s.writeLast (port * 65536 + k.dest) with
    | some x => later dl (x + 1)
    | none => dl
  else dl

/-- A deadline has been stamped at an ingress on a packet (R318, R321). -/
def State.noteStamp (s : State) (port : Nat) (k : Packet) (dl : Nat) : State :=
  let s : State := { s with flowLast := tabPut (fun _ => none) s.flowLast k.flowKey (some dl) }
  if k.isWrite then { s with writeLast := tabPut (fun _ => none) s.writeLast (port * 65536 + k.dest) (some dl) } else s

/-! ### Calendars (R372 to R375) -/

/-- The resource number of interface x of die d, in the direction that die d sends. -/
def d2dResource (d x : Nat) : Nat := 4096 + 4 * d + x

/-- The bytes booked in a resource in buckets 0 to j; only local ones when asked. Those of a packet of a BF port last until its last element has left (R372). -/
def State.booked (s : State) (r j : Nat) (onlyLocal : Bool) : Nat :=
  (s.waiting ++ if r < 256 then (s.link r).txEnds.map (·.2) else []).foldl (fun n w => w.books.foldl (fun n b =>
    if b.resource = r && decide (b.bucket ≤ j) && (!onlyLocal || b.isLocal) then n + b.bytes else n) n) 0

/-- The bytes of a bucket of a resource. -/
def State.resourceBucket (s : State) (r : Nat) : Nat := if r < 4096 then s.bucketBytes r else d2dBucket

/-- The local capacity of a resource in sixty-fourths of a bucket (R374); less at the egresses of a die that throttles (R627). -/
def State.localShare (s : State) (r : Nat) : Nat :=
  let n := 64 - s.transitShare r - s.cplShare r
  if r < 4096 && s.flag (DIE_PWR.THROTTLING (portDie r)) then min n (s.sec powerSec 5 1) else n

/-- A request fits a resource at its calendar bucket (R375). -/
def State.fits (s : State) (r k cost : Nat) (isLocal : Bool) : Bool :=
  let cap := s.resourceBucket r
  (List.range 512).all fun j =>
    decide (j < k) ||
      (decide (s.booked r j false + cost ≤ (j + 1) * cap) &&
        (!isLocal || decide (64 * (s.booked r j true + cost) ≤ (j + 1) * cap * s.localShare r)))

/-- The bucket of a calendar time, when it is not past (R373). -/
def State.bucketOf (s : State) (t : Nat) : Option Nat := (s.ahead t).map fun d => min (d / 1280) 511

/-- The allowance of an egress port in ticks; an endpoint has none (R695). -/
def State.allowTicks (s : State) : Egress → Nat
  | .port p => 160 * s.allowance p
  | _ => 0

/-- The calendar time of a packet at its egress (R373). -/
def State.calendarTime (s : State) (e : Egress) (loc : Nat) : Nat := (loc + 2 ^ 48 - (s.allowTicks e + 300 * ticksPerNs) % 2 ^ 48) % 2 ^ 48

/-- The greatest charge of the completion account of a port in a class, in bytes (R377). -/
def State.accountLimit (s : State) (p c : Nat) : Nat :=
  let book := s.capBook p
  let w := if book = 0 then 0 else ceilDiv (classBound c * s.capFull p) book
  s.cplShare p * s.bucketBytes p * (w - 32) / 512

/-! ### Passing (Table 07-1, R320) -/

/-- The four columns and rows of Table 07-1. -/
inductive OrderClass where
  | posted | event | writeAck | nonPosted | lock | completion
  deriving DecidableEq, Repr

/-- Where a packet stands in Table 07-1; Management packets stand nowhere. -/
def Packet.orderClass (p : Packet) : Option OrderClass :=
  if p.ptype = 0xA then none
  else if p.ptype = 7 || (p.ptype = 0xB && p.vc = 2) then some .completion
  else if p.ptype = 2 || (p.ptype = 0xB && p.vc = 0) then some .posted
  else if p.ptype = 8 then some .event
  else if p.ptype = 3 then some .writeAck
  else if p.ptype = 5 || p.ptype = 6 then some .lock
  else some .nonPosted

/-- Table 07-1: the later packet may be placed ahead of the earlier one of its flow (R315). -/
def mayPass (l e : OrderClass) (ro : Bool) : Bool :=
  match l, e with
  | .posted, .posted => ro | .posted, .event => ro | .posted, .writeAck => ro
  | .posted, _ => true
  | .event, .posted => false | .event, .event => false | .event, .writeAck => false
  | .event, _ => true
  | .writeAck, .posted => ro | .writeAck, .event => ro | .writeAck, .writeAck => ro
  | .writeAck, _ => true
  | .nonPosted, .posted => false | .nonPosted, .event => false | .nonPosted, .writeAck => false
  | .nonPosted, _ => true
  | .lock, .completion => true
  | .lock, _ => false
  | .completion, .posted => ro | .completion, .event => ro | .completion, .writeAck => ro
  | .completion, _ => true

/-- Two packets of another package that pass through may be pieces of one request: their headers differ in nothing that its pieces share, the deadline stamped on
all of them included (R366). DEDUCED: log entry 91. -/
def mayBePieces (l e : Packet) : Bool :=
  (l.ptype = 1 || l.ptype = 2 || l.ptype = 3) && l.ptype = e.ptype && l.src = e.src && l.dest = e.dest && l.cls = e.cls && l.window = e.window &&
    l.noWin = e.noWin && l.partition = e.partition && l.deadline = e.deadline

/-- Pieces of one request keep their order (R317); PCI Express completions of one read keep address order (Table 07-1). -/
def sameRequest (l e : Waiting) : Bool :=
  if l.pkt.isCompletion || e.pkt.isCompletion then l.pkt.isCompletion && e.pkt.isCompletion && l.requester ≠ 0 && l.requester = e.requester
  else (l.requester ≠ 0 && l.requester = e.requester && l.ingress = e.ingress && l.pkt.ptype = e.pkt.ptype) ||
    (if l.group = 0 && e.group = 0 then mayBePieces l.pkt e.pkt else l.group = e.group)

/-- An earlier packet at a point holds a later one back there (R314, R317, R320). -/
def holdsBack (l e : Waiting) : Bool :=
  let flow := l.pkt.src = e.pkt.src && l.pkt.dest = e.pkt.dest && l.pkt.cls = e.pkt.cls
  let table := match l.pkt.orderClass, e.pkt.orderClass with
    | some a, some b => flow && !mayPass a b l.pkt.ro
    | _, _ => false
  let joined := l.pkt.joined && e.pkt.isWrite && l.pkt.src = e.pkt.src && l.pkt.dest = e.pkt.dest
  table || joined || sameRequest l e

/-- A packet at a point is eligible when nothing earlier there holds it back (R383). -/
def eligible (earlier : List Waiting) (w : Waiting) : Bool := earlier.all fun e => !(e.point = w.point && holdsBack w e)

/-- The eligible packets of a point, in order of arrival. -/
def eligibleAt (point : Nat) : List Waiting → List Waiting → List Waiting
  | _, [] => []
  | done, w :: ws =>
    if w.point = point && eligible done w then w :: eligibleAt point (done ++ [w]) ws
    else eligibleAt point (done ++ [w]) ws

/-- What R383 looks at first: a Management packet leaves after booked packets, and a late packet last. -/
def rankOf (w : Waiting) : Nat := if w.late then 2 else if w.pkt.ptype = 0xA then 1 else 0

/-- w is chosen before v, when v arrived earlier: the earlier local deadline, then the lower class. Management packets have no deadline. -/
def chosenBefore (w v : Waiting) : Bool :=
  if rankOf w ≠ rankOf v then decide (rankOf w < rankOf v)
  else if rankOf w = 1 then false
  else if before w.deadline v.deadline then true
  else if before v.deadline w.deadline then false
  else decide (w.pkt.cls < v.pkt.cls)

/-- The packet that R383 places next, of those eligible. -/
def choose : List Waiting → Option Waiting
  | [] => none
  | w :: ws => match choose ws with
    | none => some w
    | some v => if chosenBefore v w then some v else some w

end Sys2Proof.Machine
end

