-- ==== Sys2Proof/Machine/Virt.lean ====
section
/-! DEFINITION. The virtual switches (R232 to R247): emulated registers, bindings and the functions they bind, requester IDs on the
two sides, AER, and the windows in force (Tables 06-1 to 06-3). -/

namespace Sys2Proof.Machine

/-! ### Emulated functions -/

/-- The emulated function behind a vDSP: function 0 is the vUSP, function n + 1 the vDSP n (R233). -/
def vdspFn (n : Nat) : Nat := n + 1

/-- Where an emulated register stands. -/
def virtKey (p f dw : Nat) : Nat := 65536 * p + 1024 * f + dw

/-- Where an emulated BAR of a bound function stands (Table 05-5): behind vDSP v, host function number fn, register dw. -/
def barKey (p v fn dw : Nat) : Nat := 0x1000000 + ((p * 32 + v) * 256 + fn) * 1024 + dw

/-- The PU port whose virtual switch holds a register. -/
def virtOwner (k : Nat) : Nat := if k < 0x1000000 then k / 65536 else (k - 0x1000000) / 0x800000

/-- The standard's reset of AER's Uncorrectable Error Mask: Uncorrectable Internal Error (log entry 75). -/
def aerMaskReset : Nat := 0x00400000
/-- The standard's reset of Uncorrectable Error Severity (log entry 75). -/
def aerSeverityReset : Nat := 0x00462030
/-- The standard's reset of Correctable Error Mask: Advisory Non-Fatal Error (log entry 75). -/
def aerCorrMaskReset : Nat := 0x2000

/-- What is kept of an emulated register before anything writes it (Table 05-4). Registers 0 to 15 are those of the standard's header; the capabilities stand
where Config.capability puts them, and what neither the spec nor the standard fixes is free (log entry 12). Control registers begin with nothing
enabled. -/
def State.virtReset (s : State) (f dw : Nat) : Nat :=
  if dw = 0 then s.get PKG_ID.VENDOR_ID + 65536 * (if f = 0 then 0x0F51 else 0x0F52)
  else if dw = 2 then 0x06040000 + s.get PKG_ID.REV_ID
  else if dw = 3 then 0x00010000
  else if dw = 1 then 0x00100000
  else if dw < 16 && dw ≠ 13 then 0
  else
    let c := Config.capability
    let free := Config.emulatedReset f dw % 2 ^ 32
    if dw = c 0 + 2 then free &&& 0x7F10
    else if dw = c 0 + 4 || dw = c 0 + 6 || dw = c 0 + 10 || dw = c 1 + 1 || dw = c 2 || dw = c 4 + 1 then 0
    else if dw = c 3 + 2 then aerMaskReset
    else if dw = c 3 + 3 then aerSeverityReset
    else if dw = c 3 + 5 then aerCorrMaskReset
    else if dw = c 5 + 1 then free % 65536
    else free

/-- An emulated register. An entry holds the value written plus one. -/
def State.virtGet (s : State) (p f dw : Nat) : Nat :=
  let v := tabGet (fun _ => 0) s.virt (virtKey p f dw)
  if v = 0 then s.virtReset f dw else v - 1

/-- Write an emulated register. -/
def State.virtPut (s : State) (p f dw v : Nat) : State :=
  { s with virt := tabPut (fun _ => 0) s.virt (virtKey p f dw) (v % 2 ^ 32 + 1) }

/-- Replace what acts in an emulated function. -/
def State.setVport (s : State) (p f : Nat) (v : VirtPort) : State :=
  { s with virtPorts := tabPut (fun _ => {}) s.virtPorts (64 * p + f) v }

/-- Where the AER of an emulated function of PU port p stands: the vUSP's is the port's own, beside it those of the vDSPs (R253, R255). -/
def aerKey (p f : Nat) : Nat := if f = 0 then p else 1024 + 64 * p + f

/-- The AER at a place is not that of an emulated function of a port. -/
def aerApart (p k : Nat) : Bool := decide (k ≠ p) && !(decide (1024 + 64 * p ≤ k) && decide (k < 1088 + 64 * p))

/-- Every emulated register of a virtual switch returns to its reset value (R244). -/
def State.resetVirt (s : State) (p : Nat) : State :=
  { s with virt := s.virt.filter fun x => decide (virtOwner x.1 ≠ p)
           aer := s.aer.filter fun x => aerApart p x.1
           aerHeader := s.aerHeader.filter fun x => aerApart p x.1
           virtPorts := s.virtPorts.filter fun x => decide (x.1 / 64 ≠ p)
           doe := s.doe.filter fun x => decide (x.1 ≠ 2 + p)
           doeOrder := s.doeOrder.filter fun n => decide (n ≠ 2 + p)
           rings := s.rings.filter fun x => decide (x.1 ≠ p) }

/-- Bus Master Enable of a vDSP (R236). -/
def State.busMaster (s : State) (p n : Nat) : Bool := (s.virtGet p (vdspFn n) 1).testBit 2
/-- Memory Space Enable of a vDSP (R236). -/
def State.memSpace (s : State) (p n : Nat) : Bool := (s.virtGet p (vdspFn n) 1).testBit 1
/-- The secondary bus of an emulated bridge. -/
def State.secondaryBus (s : State) (p f : Nat) : Nat := s.virtGet p f 6 / 256 % 256
/-- The subordinate bus of an emulated bridge. -/
def State.subordinateBus (s : State) (p f : Nat) : Nat := s.virtGet p f 6 / 65536 % 256

/-! ### Bindings (R240 to R243) -/

/-- The device found behind a PD port, local or remote. -/
def State.deviceOf (s : State) (id : Nat) : DeviceInfo :=
  if id / 1024 = s.rank then tabGet (fun _ => {}) s.devices (id % 1024)
  else Config.remoteDevice id

/-- Device-side number of VF k of a function (the worked binding of chapter 05). -/
def DeviceFunction.vf (f : DeviceFunction) (k : Nat) : Nat := f.pf + f.offset + f.stride * (k - 1)

/-- The function of a PF number. -/
def DeviceInfo.pfOf (d : DeviceInfo) (pf : Nat) : DeviceFunction := (d.functions.find? fun f => f.pf = pf).getD { pf := pf }

/-- The PF that a device-side function is, or is a VF of. -/
def DeviceInfo.pfFor (d : DeviceInfo) (fn : Nat) : Option DeviceFunction :=
  d.functions.find? fun f => f.pf = fn || (List.range f.totalVfs).any fun k => f.vf (k + 1) = fn

/-- The device has a function. -/
def DeviceInfo.has (d : DeviceInfo) (fn : Nat) : Bool := (d.pfFor fn).isSome

/-- A device-side function as its configuration registers show it (Table 05-5): a VF has no BARs of its own, and one presented alone those of its PF's VFs. -/
def DeviceInfo.shown (d : DeviceInfo) (fn : Nat) (alone : Bool) : DeviceFunction :=
  match d.pfFor fn with
  | some f => if f.pf = fn then f else if alone then { pf := fn, bars := f.vfBars } else { pf := fn }
  | none => { pf := fn }

/-- The extended capabilities of a device-side function, a VF's in its own chain (R219). -/
def DeviceInfo.capsOf (d : DeviceInfo) (fn : Nat) : List (Nat × Nat × Nat) :=
  match d.pfFor fn with
  | some f => if f.pf = fn then f.caps else f.vfCaps
  | none => []

/-- The register number of a device-side function's Device Control, which holds Max_Payload_Size and, in bit 15, Initiate FLR. -/
def DeviceInfo.devControl (d : DeviceInfo) (fn : Nat) : Nat :=
  match d.pfFor fn with
  | some f => (if f.pf = fn then f.pcie else f.vfPcie) + 2
  | none => 18

/-- The register number of a PF's SR-IOV capability, ID 0x10: SR-IOV Control stands 2 after it, NumVFs 4 and the VF BARs 9. -/
def DeviceFunction.sriov (f : DeviceFunction) : Option Nat := (f.caps.find? fun c => c.2.1 = 0x10).map fun c => c.1 / 4

/-- The device-side functions of a binding (Table 05-6); a whole-device binding names every function. -/
def BindRec.functions (b : BindRec) (d : DeviceInfo) : List Nat :=
  if b.kind = 1 then d.functions.flatMap fun f => f.pf :: (List.range f.totalVfs).map fun k => f.vf (k + 1)
  else if b.kind = 2 then [b.pf]
  else (List.range b.vfCount).map fun k => (d.pfOf b.pf).vf (b.vfFirst + k)

/-- The binding binds a device-side function. -/
def BindRec.binds (b : BindRec) (d : DeviceInfo) (fn : Nat) : Bool := b.kind = 1 || (b.functions d).contains fn

/-- The binding records with their indices. -/
def State.indexedBinds (s : State) : List (Nat × BindRec) := (List.range s.bindRecs.length).zip s.bindRecs

/-- A binding record is presented (R242, R243). -/
def State.presented (s : State) (i : Nat) : Bool := !s.hidden.any fun h => h.1 = i && decide (h.2 < 2)

/-- Function fn of binding record i is not presented: the device lacks it (R243). -/
def State.lacks (s : State) (i fn : Nat) : Bool := s.hidden.contains (i, 2 + fn)

/-- The device-side functions of a binding that are presented (R243). -/
def State.functionsOf (s : State) (b : BindRec) : List Nat :=
  (b.functions (s.deviceOf b.target)).filter fun f => !s.indexedBinds.any fun x => x.2 = b && s.lacks x.1 f

/-- The presented binding of a function behind a PD port of a partition, if the partition matters. -/
def State.bindingOf (s : State) (id fn : Nat) (part : Option Nat) : Option BindRec :=
  (s.indexedBinds.find? fun x => x.2.target = id && (part.isNone || part = some x.2.partition) && s.presented x.1 &&
    !s.lacks x.1 fn && x.2.binds (s.deviceOf id) fn).map (·.2)

/-- A binding of a function, presented or not. -/
def State.anyBindingOf (s : State) (id fn : Nat) : Option BindRec :=
  s.bindRecs.find? fun b => b.target = id && b.binds (s.deviceOf id) fn

/-- The number that the host knows for a function of a binding: 0 for a VF bound alone, else its device-side number (R243). -/
def State.hostFn (s : State) (b : BindRec) (fn : Nat) : Nat :=
  if b.kind = 3 && b.vfCount = 1 && !s.bindRecs.any fun x => x.partition = b.partition && x.target = b.target && x.kind = 2 && x.pf = b.pf
  then 0 else fn

/-- The host routing ID of a function (R230). -/
def State.hostRid (s : State) (p : Nat) (b : BindRec) (fn : Nat) : Nat := 256 * s.secondaryBus p (vdspFn b.vdsp) + s.hostFn b fn

/-- The PU port of a partition as a fabric ID: hosted here, or named by the hosting package at Fabric Join (R307). -/
def State.puOf (s : State) (n : Nat) : Option Nat :=
  match s.partitionPu n with
  | some p => some (s.fabricId p)
  | none => match tabGet (fun _ => 0) s.bindPu n with
    | 0 => none
    | k + 1 => some k

/-! ### AER (R447) -/

/-- The AER that log an error of a port: its own and, for a PD port bound wholly to a partition hosted here, its vDSP's (R253, R255). -/
def State.aerOf (s : State) (p : Nat) : List Nat :=
  if !s.isPd p then [p]
  else match s.indexedBinds.find? fun x => x.2.target = s.fabricId p && x.2.kind = 1 && s.presented x.1 with
    | none => [p]
    | some x => match s.partitionPu x.2.partition with
      | some q => [p, aerKey q (vdspFn x.2.vdsp)]
      | none => [p]

/-- A TLP waits for an answer. -/
def Tlp.nonPosted (t : Tlp) : Bool :=
  match t.kind with
  | .memWrite | .message _ | .vendorMessage | .completion _ | .ide => false
  | _ => true

/-- The routing ID of an emulated function (R233). -/
def State.emulatedRid (s : State) (p f : Nat) : Nat := if f = 0 then 256 * (s.virtGet p 0 6 % 256) else 256 * s.secondaryBus p 0 + 8 * (f - 1)

/-- The emulated function whose AER stands at a place. -/
def State.aerFn (s : State) (k : Nat) : Option (Nat × Nat) :=
  if k < 1024 then (if s.isPu k then some (k, 0) else none) else some ((k - 1024) / 64, (k - 1024) % 64)

/-- An emulated function sends an error message to its host when Device Control, or SERR# Enable for other than a correctable error, reports that
severity: 0 ERR_COR, 1 ERR_NONFATAL, 2 ERR_FATAL, message codes 0x30, 0x31 and 0x33 (R253, log entry 75). -/
def State.reportError (s : State) (p f severity : Nat) : State :=
  if s.flag (PORT_PCIE.DL_ACTIVE p) && ((s.virtGet p f (Config.capability 0 + 2)).testBit severity || (decide (0 < severity) && (s.virtGet p f 1).testBit 8))
  then s.emit (.tlpOut p { kind := .message (if severity = 2 then 0x33 else 0x30 + severity), reqId := s.emulatedRid p f }) else s

/-- A correctable error, by the standard's bit, in an emulated function. -/
def State.logCorrAt (s : State) (bit : Nat) (k : Nat) : State :=
  match s.aerFn k with
  | none => s
  | some (p, f) =>
    let v := s.vport p f
    let s := s.setVport p f { v with corr := withBit v.corr bit, detected := withBit v.detected 0 }
    if (s.virtGet p f (Config.capability 3 + 5)).testBit bit then s else s.reportError p f 0

/-- An uncorrectable error in an emulated function is fatal by its severity register. -/
def State.aerFatal (s : State) (p f bit : Nat) : Bool := (s.virtGet p f (Config.capability 3 + 3)).testBit bit

/-- A non-fatal answer to a non-posted request is advisory, as the standard has it (log entry 75). -/
def State.aerAdvisory (s : State) (p f bit : Nat) (t : Option Tlp) : Bool :=
  !s.aerFatal p f bit && (bit = 15 || bit = 20 || bit = 21) && t.any Tlp.nonPosted

/-- The masks of an emulated function silence an error: its status bit is set and nothing else is recorded (R253, log entry 75). -/
def State.aerMasked (s : State) (p f bit : Nat) (t : Option Tlp) : Bool :=
  (s.virtGet p f (Config.capability 3 + 2)).testBit bit || (s.aerAdvisory p f bit t && (s.virtGet p f (Config.capability 3 + 5)).testBit 13)

/-- What an emulated function does with an uncorrectable error beside its status bit, as the standard has it: Device Status, and where no mask silences the error
its First Error Pointer and header and the message of its severity (R253, R255, log entry 75). -/
def State.noteAer (s : State) (bit : Nat) (t : Option Tlp) (k : Nat) : State :=
  match s.aerFn k with
  | none => s
  | some (p, f) =>
    let fatal := s.aerFatal p f bit
    let advisory := s.aerAdvisory p f bit t
    let masked := s.aerMasked p f bit t
    let v := s.vport p f
    let seen := withBit v.detected (if advisory then 0 else if fatal then 2 else 1)
    let s := s.setVport p f { v with first := if masked || v.first ≠ 0 then v.first else bit + 1, corr := if advisory then withBit v.corr 13 else v.corr
                                     detected := if bit = 20 then withBit seen 3 else seen }
    if masked then s else s.reportError p f (if advisory then 0 else if fatal then 2 else 1)

/-- The masks at the place of an AER silence an error; the registers of a PD port have none. -/
def State.aerSilent (s : State) (bit : Nat) (t : Option Tlp) (k : Nat) : Bool :=
  match s.aerFn k with
  | some (p, f) => s.aerMasked p f bit t
  | none => false

/-- An error is logged in one AER: the standard's bit of Uncorrectable Error Status, and the first header. -/
def State.logAerAt (s : State) (bit : Nat) (t : Option Tlp) (k : Nat) : State :=
  let old := tabGet (fun _ => 0) s.aer k
  let s := { s with aer := tabPut (fun _ => 0) s.aer k (withBit old bit) }
  let s : State := match t with
    | some t => if tabGet (fun _ => {}) s.aerHeader k = {} && !s.aerSilent bit (some t) k then { s with aerHeader := tabPut (fun _ => {}) s.aerHeader k t } else s
    | none => s
  s.noteAer bit t k

/-- Errors of the link itself, and of TLPs that no cause of the transaction source names: Surprise Down, Unexpected Completion, Malformed TLP (Table 10-4,
log entry 75). -/
def ownLinkError (bit : Nat) : Bool := bit = 5 || bit = 16 || bit = 18

/-- An error of a port is logged; one of its own link sets cause 9 of its PCI Express source (R253, R255, Table 10-4). -/
def State.logAer (s : State) (p bit : Nat) (t : Option Tlp) : State :=
  let s := (s.aerOf p).foldl (fun s k => s.logAerAt bit t k) s
  if ownLinkError bit then s.raise (srcPcie p) 9 { port := some p } else s

/-- A correctable error of a port's own link, cause 8 of its PCI Express source (R253, R255, Table 10-4). -/
def State.logCorrectable (s : State) (p bit : Nat) : State :=
  ((s.aerOf p).foldl (fun s k => s.logCorrAt bit k) s).raise (srcPcie p) 8 { port := some p }

/-- Receiver Error, a correctable error. -/
def aerReceiver : Nat := 0
/-- Surprise Down. -/
def aerSurprise : Nat := 5
/-- Poisoned TLP Received. -/
def aerPoisoned : Nat := 12
/-- Completion Timeout. -/
def aerTimeout : Nat := 14
/-- Completer Abort. -/
def aerAbort : Nat := 15
/-- Unexpected Completion. -/
def aerUnexpected : Nat := 16
/-- Malformed TLP. -/
def aerMalformed : Nat := 18
/-- Unsupported Request Error. -/
def aerUnsupported : Nat := 20
/-- ACS Violation. -/
def aerAcs : Nat := 21

end Sys2Proof.Machine
end

