-- ==== Sys2Proof/Machine/Pieces.lean ====
section
/-! DEFINITION. Byte lanes and pieces (R271 to R281): which bytes a request moves, where the window's rule puts them, and the Burek
packets it is carried in. -/

namespace Sys2Proof.Machine

/-- The byte enable of byte i of a TLP of n data bytes. -/
def Tlp.enabled (t : Tlp) (i : Nat) : Bool :=
  let dw := i / 4
  if dw = 0 then t.firstBe.testBit (i % 4)
  else if dw = t.len / 4 - 1 then t.lastBe.testBit (i % 4)
  else true

/-- The enabled bytes of a memory request, by offset from its address; `len` counts whole DWs in bytes. -/
def Tlp.enabledOffsets (t : Tlp) : List Nat := (List.range t.len).filter t.enabled

/-- The first byte address of a request (R266). -/
def Tlp.firstByte (t : Tlp) : Nat := t.addr + (t.enabledOffsets.head?.getD 0)

/-- P(x) of R280: bytes reverse within aligned elements of s bytes. -/
def lane (s x : Nat) : Nat := x - x % s + (s - 1 - x % s)

/-- Maximal runs of contiguous bytes, cut at every 256-byte aligned address, of bytes in rising order (R273). -/
def cutRuns : List (Nat × Byte) → List (Nat × List Byte)
  | [] => []
  | (a, b) :: rest =>
    match cutRuns rest with
    | (a', bs) :: more => if a' = a + 1 && a' % 256 ≠ 0 then (a, b :: bs) :: more else (a, [b]) :: (a', bs) :: more
    | [] => [(a, [b])]

/-- Bytes in rising order of address. -/
def inOrder (bs : List (Nat × Byte)) : List (Nat × Byte) := bs.foldl (fun t x => tabInsert (tabErase t x.1) x.1 x.2) []

/-- What a decoded request moves: the destination bytes by the window's rule (R273, R279, R280). A read's bytes carry no data. -/
def destinationBytes (w : Window) (target : Nat) (offs : List Nat) (data : List Byte) : List (Nat × Byte) :=
  inOrder (offs.map fun i => (lane w.element (target + i), data.getD i 0))

/-- A packet of a piece (R271, R273). -/
def pieceOf (tmpl : Packet) (run : Nat × List Byte) (write : Bool) : Packet :=
  let n := run.2.length
  let be := elementEnables run.1 n
  { tmpl with addr := run.1, len := n, fbe := be.1, lbe := be.2, payload := if write then run.2 else [] }

/-- The pieces of a translated request: ascending destination addresses (R273). A read with no enabled byte is one piece of LEN 0. -/
def piecesOf (tmpl : Packet) (w : Window) (target : Nat) (offs : List Nat) (data : List Byte) (write : Bool) : List Packet :=
  if offs.isEmpty then (if write then [] else [{ tmpl with addr := target, len := 0, fbe := 0, lbe := 0, payload := [] }])
  else (cutRuns (destinationBytes w target offs data)).map fun r => pieceOf tmpl r write

/-- Operand bytes in elements of s reversed, when the rule is data-invariant (R281). -/
def reverseIn (s : Nat) : Nat → List Byte → List Byte
  | 0, _ => []
  | n + 1, bs => if bs.isEmpty then [] else (bs.take s).reverse ++ reverseIn s n (bs.drop s)

/-- An AtomicOp's operand bytes through a window, or none when the window cannot carry it (R281). -/
def atomicOperands (w : Window) (size : Nat) (data : List Byte) : Option (List Byte) :=
  if w.element = 1 then some data
  else if w.element = size then some (reverseIn size (data.length / size + 1) data) else none

/-- The size of one value of an AtomicOp (Table 07-3). -/
def atomicSize (sub len : Nat) : Nat := if sub = 3 then len / 2 else len

/-- Atomic SUB of a TLP kind (Table 07-3). -/
def TlpKind.atomicSub : TlpKind → Nat
  | .fetchAdd => 1 | .swap => 2 | .cas => 3 | _ => 0

/-- The completion data a requester's read receives, from the bytes of the answered pieces (R275, R280): requester bytes from its
first to its last enabled one. A byte that was not enabled has no stated value (log entry 10). -/
def readBack (element target : Nat) (offs : List Nat) (have_ : Nat → Option Byte) : List (Option Byte) :=
  match offs.head?, offs.getLast? with
  | some lo, some hi =>
    (List.range (hi + 1 - lo)).map fun k =>
      if offs.contains (lo + k) then have_ (lane element (target + lo + k))
      else some (Config.disabledByte (target + lo + k))
  | _, _ => []

/-- The bytes that answered pieces hold, by destination address. -/
def heldBytes (ps : List Piece) (a : Nat) : Option Byte :=
  match ps.find? fun p => decide (p.addr ≤ a) && decide (a < p.addr + p.len) with
  | some p => if p.status = some 0 || p.status = some 5 then p.data[a - p.addr]? else none
  | none => none

end Sys2Proof.Machine
end

