-- ==== Sys2Proof/Machine/Answer.lean ====
section
/-! DEFINITION. How requesters are answered: completions by Table 10-1, reads returned in address order (R275 to R277), acknowledged
writes and their failures (R283 to R289), surrogate answers (R392 to R394). -/

namespace Sys2Proof.Machine

/-! ### Burek statuses (Table 04-8) -/

/-- OK. -/
def stOk : Nat := 0
/-- NOT-MAPPED. -/
def stNotMapped : Nat := 1
/-- DENIED. -/
def stDenied : Nat := 2
/-- TARGET-ABORT. -/
def stTargetAbort : Nat := 3
/-- SURROGATE. -/
def stSurrogate : Nat := 4
/-- POISONED. -/
def stPoisoned : Nat := 5
/-- CONTAINED. -/
def stContained : Nat := 6

/-- Completion status codes of PCI Express. -/
def CplStatus.code : CplStatus → Nat
  | .sc => 0 | .ur => 1 | .crs => 2 | .ca => 4

/-- Table 10-1. -/
def cplOf (status : Nat) : CplStatus := if status = stOk then .sc else if status = stNotMapped then .ur else .ca

/-- A completion for a request TLP. -/
def cplFor (t : Tlp) (st : CplStatus) (addr : Nat) (data : List Byte) : Tlp :=
  { kind := .completion st.code, addr := addr, len := data.length, reqId := t.reqId, tag := t.tag, ro := t.ro, ido := t.ido, ns := t.ns
    target := t.reqId, data := data }

/-- A TLP leaves at a port; a UR or CA completion sets its cause of the transaction source (Table 10-4). -/
def State.sendTlp (s : State) (p : Nat) (t : Tlp) : State :=
  let s := s.emit (.tlpOut p t)
  match t.kind with
  | .completion 1 => s.raise (srcTxn p) 2 { port := some p }
  | .completion 4 => s.raise (srcTxn p) 3 { port := some p }
  | _ => s

/-- A request TLP is answered at its own port, on a status formed in this package (R440, Table 10-3). An answer that is formed as its request is decoded leaves at once,
as the TLP of the same step (log entry 92). -/
def State.answerTlp (s : State) (p : Nat) (t : Tlp) (status : Nat) : State :=
  let s := s.sendTlp p (cplFor t (cplOf status) t.addr [])
  let s := s.logAer p (if status = stNotMapped then aerUnsupported else aerAbort) (some t)
  if status = stContained then s.raise (srcTxn p) 8 { port := some p } else s

/-- A request TLP is answered Unsupported Request, or dropped and logged when it is posted (R267). -/
def State.unsupported (s : State) (p : Nat) (t : Tlp) : State :=
  if t.nonPosted then s.answerTlp p t stNotMapped else s.logAer p aerUnsupported (some t)

/-! ### Packets that answer (R378) -/

/-- The booking of a completion in the calendar of its egress port (R378). -/
def State.answerBooks (s : State) (w : Waiting) (e : Egress) : List Booking :=
  match e with
  | .port p => [{ resource := p, bucket := (s.bucketOf (s.calendarTime e w.deadline)).getD 0
                  bytes := if w.tlps.isEmpty then s.costAt p w.pkt else s.wireBytes p w.tlps, isLocal := false }]
  | _ => []

/-- The die of an egress. -/
def State.egressDie (s : State) : Egress → Nat
  | .port p => portDie p
  | .endpoint n => s.endpointDie n
  | .none => 0

/-- What a completion's bookings hold of the calendar ledger of its egress (Table 09-1). -/
def calendarHolds (bs : List Booking) : List Hold := bs.map fun b => ⟨portLedger b.resource 31, b.bytes⟩

/-- A packet that nothing tests waits at the points of a path, booked in the calendar of its egress (R378), in the basin, whose words an injection may have met (R446);
without a path it is gone. -/
def State.sendOn (s : State) (w : Waiting) (e : Egress) (path : Option (List Nat)) : State :=
  match path with
  | some (x :: xs) =>
    let books := s.answerBooks w e
    let s := s.issueAll (calendarHolds books)
    let load := if w.tlps.isEmpty then w.pkt.loadWords else w.tlps.foldl (fun n t => n + (t.data.length + 7) / 8) 0
    let (s, h) := s.writeItem (s.egressDie e) 9 w.pkt.pair 4 load
    State.bookedTo { s with waiting := s.waiting ++ [
      { w with point := x, path := xs, books := w.books ++ books, holds := w.holds ++ calendarHolds books, order := s.nextId, hurt := h }] } e
  | _ => (s.returnAll w.holds).endLive w.stamp

/-- The points of a packet that is formed at cluster c: of a cluster that is held in reset, whose crossings pass nothing, the die forms it (R424, R542). -/
def State.pathOut (s : State) (c : Nat) (e : Egress) : Option (List Nat) := (s.pathFrom c e).map fun l => if s.clusterHeld c then l.drop 1 else l

/-- Completions and other packets that the package forms at cluster c wait at the points of their path; nothing tests them (R378). One of another rank
without a route sets its cause (R360). -/
def State.sendFrom (s : State) (c : Nat) (w : Waiting) (e : Egress) : State :=
  let s := s.noteRoute (clusterDie c) w.pkt.dest e
  s.sendOn w e (s.pathOut c e)

/-- The deadline of a packet that is formed now at die d, before the order of its flow moves it (R366). -/
def State.stampNow (s : State) (d dest cls : Nat) : Nat :=
  let h := match s.egress d dest with
    | .port p => (s.hopTicks p cls).getD 0
    | _ => 160 * classBound cls
  (s.now + h + (s.rOut d dest cls).getD 0) % 2 ^ 48

/-- The ingress at which deadlines of a source are stamped: a port, or an endpoint counted from 1,024; a source of another package, in whose name this one answers,
has none here and is counted from 2,048. -/
def State.stampedAt (s : State) (src : Nat) : Nat :=
  if src / 1024 ≠ s.rank then 2048 + src else if src % 1024 < 256 then src % 1024 else src % 1024 + 768

/-- The deadline stamped on a Completion that is formed at die d, in the flow of its source (R318, R321, R366, R378). -/
def State.stampAnswer (s : State) (d : Nat) (k : Packet) : Nat := s.notBefore (s.stampedAt k.src) k (s.stampNow d k.dest k.cls)

/-- A Completion has been stamped. -/
def State.noteAnswer (s : State) (k : Packet) : State := s.noteStamp (s.stampedAt k.src) k k.deadline

/-- The kind of a packet (Table 11-3). -/
def Packet.kind (k : Packet) : Kind :=
  if k.ptype = 1 then .read
  else if k.ptype = 2 || k.ptype = 3 then .write
  else if k.ptype = 4 then .atomic
  else if k.ptype = 5 || k.ptype = 6 then .lock
  else if k.ptype = 9 then .config
  else if k.ptype = 8 then .event
  else if k.sub / 16 % 8 = 2 then .message
  else if k.vc = 0 then .write
  else
    if frameAtomic k.frameHead then .atomic else .read

/-- The address of a packet that is checked (Table 11-3). -/
def Packet.checkedAddr (k : Packet) : Nat :=
  if k.ptype = 6 || k.ptype = 9 || k.ptype = 8 then 0
  else if k.ptype = 0xB then
    if k.sub / 16 % 8 = 2 then 0
    else
      frameAddr (if k.sub.testBit 7 then rebaseFrame k.frameHead k.addr else k.frameHead)
  else k.addr

/-- Check a packet in a die; a refusal is recorded (R497). -/
def State.checkPacket (s : State) (d : Nat) (u : Subject) (k : Packet) (port : Option Nat) : State × Bool :=
  if k.isCompletion || k.ptype = 0xA then (s, true)
  else
    let s := (s.countDie d 0x07 1 fun _ => true).searchToll d
    match s.tollCheck d u k.kind k.dest k.checkedAddr with
    | .permit => (s, true)
    | .refuse r e =>
      (s.violate d u { addr := k.checkedAddr, target := k.dest, kind := k.kind, result := r, entry := e, tag := k.tag, window := k.window
                       noWin := k.noWin, port := port }, false)

/-- Route a packet of the package's own logic at the die of its source: toward a port or endpoint, in its order, with no test of the sluice
(R572 for Management packets; for the Events of R460 and R199, which are stamped as they leave, see log entry 20). An Event of an event collector is checked as its
master's (R485 to R487). A packet without a route is dropped (R360); an
undeliverable WRITE-LOSS Event sets cause 4 of source 10 of the die (R466). -/
def State.dispatch (s : State) (p : Packet) : State :=
  let d := s.packetDie p
  let s := s.noteRoute d p.dest (s.egress d p.dest)
  match s.finalPoint (s.egress d p.dest) with
  | some (fin, _) =>
    let collector := p.ptype = 8 && 776 ≤ p.src % 1024 && p.src % 1024 < 784
    let (s, ok) := if collector then s.checkPacket d { id := p.src, level := 2, fallback := .keeper } p none else (s, true)
    if !ok then s.lose p stDenied p.src
    else
      let (s, stamp) := if collector then (let (s, x) := s.stampLive d; (s, some x)) else (s, none)
      let k := if p.ptype = 0xA then p else { p with deadline := s.stampAnswer d p }
      let s := if p.ptype = 0xA then s else s.noteAnswer k
      let loc := if p.ptype = 0xA then p.deadline else s.localDeadline d k.dest k.cls k.deadline
      State.bookedTo { s with waiting := s.waiting ++ [{ point := fin, pkt := k, deadline := loc, ingress := p.src % 1024, stamp := stamp }] } (s.egress d p.dest)
  | none => if p.ptype = 8 && p.sub = 3 then s.raise (srcDie d 10) 4 else s

/-- A Completion or completion barge formed at cluster c leaves toward its requester, with what its request held here (R197, R378). -/
def State.sendAnswer (s : State) (c : Nat) (k : Packet) (ingress : Nat) (holds : List Hold) (stamp : Option Nat) : State :=
  let d := clusterDie c
  let k := { k with deadline := s.stampAnswer d k }
  (s.noteAnswer k).sendFrom c
    { point := 0, pkt := k, deadline := s.localDeadline d k.dest k.cls k.deadline, ingress := ingress, holds := holds, stamp := stamp } (s.egress d k.dest)

/-- A Completion formed at cluster c for a packet leaves toward its source (R197). -/
def State.complete (s : State) (c : Nat) (p : Packet) (status : Nat) (data : List Byte) (poison : Bool) (holds : List Hold := [])
    (stamp : Option Nat := none) : State := s.sendAnswer c (completionFor p status data poison) (p.dest % 1024) holds stamp

/-- The header of an answer that is formed now, in this package, for the requester at a port or engine: its deadline is one hop bound away (R366, R378). -/
def State.answerHere (s : State) (port cls : Nat) : Packet :=
  { ptype := 7, vc := 2, cls := cls, src := s.fabricId (if port < 1024 then port else 256 + (port - 1024))
    deadline := if port < 1024 then s.stampNow (portDie port) (s.fabricId port) cls else s.now % 2 ^ 48 }

/-! ### Outstanding requests -/

/-- Replace an outstanding request. -/
def State.setOutstanding (s : State) (o : Outstanding) : State :=
  { s with outstanding := s.outstanding.map fun x => if x.id = o.id then o else x }

/-- Remove an outstanding request. -/
def State.dropOutstanding (s : State) (id : Nat) : State := { s with outstanding := s.outstanding.filter fun x => x.id ≠ id }

/-- The requester that tracks and streams name (R283): the requester ID, or the packet's SRC. -/
def Outstanding.requester (o : Outstanding) : Nat :=
  match o.tlp, o.native with
  | some t, _ => t.reqId
  | none, some k => k.src
  | none, none => 0

/-- The requester tag of an outstanding request. -/
def Outstanding.tag (o : Outstanding) : Nat :=
  match o.tlp, o.native with
  | some t, _ => t.tag
  | none, some k => k.tag
  | none, none => 0

/-- Every piece is answered. -/
def Outstanding.done (o : Outstanding) : Bool := o.pieces.all fun x => x.status.isSome

/-- The cluster of the port or engine a request came in at. -/
def ingressCluster (port : Nat) : Nat := if port < 1024 then port / 4 else (port - 1024) / 8

/-- The fabric ID under which a request's tags stand. -/
def State.tagOwner (s : State) (o : Outstanding) : Nat :=
  if o.port < 1024 then s.fabricId o.port
  else match o.native with
    | some k => k.src
    | none => s.fabricId (256 + (o.port - 1024))

/-- The port whose Burek tag pool a request's tags come from: its ingress port, or the port an engine names as SRC; an engine's own
endpoint has a pool of its own and no ledger (R72, R272). -/
def tagPort (port src : Nat) : Option Nat := if port < 1024 then some port else if src % 1024 < 256 then some (src % 1024) else none

/-- A Burek tag of a request comes back. -/
def State.returnTag (s : State) (o : Outstanding) : State :=
  match tagPort o.port (match o.native with | some k => k.src | none => 1023) with
  | some p => s.returnAll [⟨portLedger p 26, 1⟩]
  | none => s

/-- The deciding window's byte rule and target that an answer uses. -/
def Outstanding.offsets (o : Outstanding) : List Nat :=
  match o.tlp, o.native with
  | some t, _ => if t.kind = .memRead || t.kind = .memReadLock then t.enabledOffsets else List.range t.len
  | none, some k => List.range k.len
  | none, none => []

/-- The answer of a request goes to the requester, with what the request holds (R275, R276); an engine's answer is an item (R70). -/
def State.deliver (s : State) (o : Outstanding) (tlps : List Tlp) (native : Option Packet) (last : Bool) (cpl : Packet) : State :=
  let holds := if last then o.holds else []
  let stamp := if last then o.stamp else none
  match native with
  | some k =>
    if o.port < 1024 then s.sendAnswer (portCluster o.port) k o.port holds stamp
    else s.sendOn { point := 0, pkt := k, deadline := k.deadline, ingress := o.port, holds := holds, stamp := stamp, requester := o.id, ctx := o.ctx }
      (.endpoint (256 + (o.port - 1024))) (some [pointEndpoint (256 + (o.port - 1024))])
  | none =>
    s.sendOn { point := 0, pkt := { cpl with ptype := if cpl.ptype = 0xB then 0xB else 7, vc := 2, dest := s.fabricId o.port }, deadline := cpl.deadline, ingress := cpl.src % 1024
               holds := holds, stamp := stamp, tlps := tlps, requester := o.id } (.port o.port) (some [pointPort o.port])

/-- Cut requester bytes from `start` into completions that end at multiples of 128 and are no longer than the limit (R275). -/
def cutSpans : Nat → Nat → Nat → Nat → List (Nat × Nat)
  | 0, _, _, _ => []
  | fuel + 1, start, fin, mps =>
    if fin ≤ start then []
    else
      let stop := (start + mps) / 128 * 128
      if fin ≤ start + mps then [(start, fin - start)]
      else if stop ≤ start then [(start, fin - start)]
      else (start, stop - start) :: cutSpans fuel stop fin mps

/-- Earlier Write-Acks of a requester and window that no answer has reached (R285). -/
def State.writesBefore (s : State) (port requester window order : Nat) : Bool :=
  s.outstanding.any fun x => x.asWrite && x.port / 4 = port / 4 && x.requester = requester && x.window = window &&
    decide (x.id < order) && !x.answered && !x.done

/-- A request is a flushing request (R285). -/
def Outstanding.flushing (o : Outstanding) : Bool := (o.ptype = 1 || o.ptype = 4 || o.ptype = 5) && !o.noWin && !o.prefetch

/-- Failures held that a flushing request reports: those that no flushing request between the write and it is still to report (R286). -/
def State.failuresBefore (s : State) (port requester window order : Nat) : List HeldFailure :=
  s.heldFailures.filter fun f => f.cluster = port / 4 && f.requester = requester && f.window = window && decide (f.order < order) &&
    !s.outstanding.any fun y => y.flushing && !y.transit && !y.answered && y.port / 4 = port / 4 && y.requester = requester && y.window = window &&
      decide (f.order < y.id) && decide (y.id < order)

/-- The failures a flushing request reports are no longer held; FAIL_HELD clears when none remains (R286). -/
def State.reportFailures (s : State) (port requester window order : Nat) : State :=
  let gone := s.failuresBefore port requester window order
  let s := { s with heldFailures := s.heldFailures.filter fun f => !gone.contains f }
  if s.heldFailures.any fun f => f.window = window then s else s.setFlag (WIN_STATE.FAIL_HELD window) false

/-- The status of the earliest failure that an answer reports, for a Burek-native requester (R286). -/
def State.failureStatus (s : State) (port requester window order : Nat) : Nat :=
  match (s.failuresBefore port requester window order).head? with
  | some f => f.status
  | none => stTargetAbort

/-- The requester's offset at which a piece begins (R277). -/
def Outstanding.pieceStart (o : Outstanding) (p : Piece) : Nat :=
  ((List.range (max p.len 1)).map fun i => lane o.element (p.addr + i) - o.tgt).foldl min (p.addr - o.tgt + 4096)

/-- A request is answered with a status formed in this package and no data, and ends (R277, R286, R694). -/
def State.endWith (s : State) (o : Outstanding) (status : Nat) : State :=
  let cpl := s.answerHere o.port o.cls
  let s := s.dropOutstanding o.id
  match o.tlp with
  | some t =>
    let s := s.logAer o.port (if status = stNotMapped then aerUnsupported else aerAbort) (some t)
    let s := if status = stContained then s.raise (srcTxn o.port) 8 { port := some o.port } else s
    s.deliver o [cplFor t (cplOf status) (t.addr + o.sent) []] none true cpl
  | none => match o.native with
    | some k =>
      let a := completionFor k status [] false
      s.deliver o [] (some { a with deadline := cpl.deadline }) true cpl
    | none => s

/-- A native Write-Ack through a posted window takes no tracker entry; each of its pieces that failed is entered as acknowledged (R283, R288). -/
def State.nativeLosses (s : State) (o : Outstanding) (status reporter : Nat) (injected : Bool := false) : State :=
  match o.native with
  | some k =>
    if k.ptype = 3 && !o.asWrite && o.port < 1024 then
      (o.pieces.filter fun x => x.status ≠ some stOk).foldl (fun s x =>
        s.recordLoss { window := o.window, noWin := o.noWin, partition := o.partition, status := x.status.getD status, src := s.fabricId o.port
                       addr := x.addr, tag := x.tag, reporter := reporter, len := x.len, acknowledged := true, requester := some 0, injected := injected } o.port) s
    else s
  | none => s

/-- A request TLP with the attributes that the answer of a piece carried (R278). Completions made of several pieces carry those of the first (log entry 80). -/
def Tlp.withAnswer (t : Tlp) (x : Option Piece) : Tlp :=
  match x with
  | some y => { t with ro := y.ro, ido := y.ido, ns := y.ns }
  | none => t

/-- The answer of a request is carried on as far as its pieces allow (R275 to R277, R285, R286). -/
def State.progress (s : State) (id : Nat) (cpl : Packet) : State :=
  match s.outstanding.find? fun x => x.id = id with
  | none => s
  | some o =>
    if o.asWrite || o.transit || o.answered || o.prefetch then s
    else if o.flushing && s.writesBefore o.port o.requester o.window o.id then s
    else if o.flushing && !(s.failuresBefore o.port o.requester o.window o.id).isEmpty then
      if !o.done then s
      else
        let st := s.failureStatus o.port o.requester o.window o.id
        let s := s.reportFailures o.port o.requester o.window o.id
        s.endWith o (if o.tlp.isSome then stTargetAbort else st)
    else
      match o.tlp with
      | some r =>
        let t := r.withAnswer o.pieces.head?
        let data := readBack o.element o.tgt o.offsets (heldBytes o.pieces)
        let lo := t.addr + o.offsets.head?.getD 0
        let avail := (data.takeWhile Option.isSome).length
        let failed := o.pieces.find? fun x => x.status.isSome && x.status ≠ some stOk
        match failed with
        | some f =>
          let before := o.pieces.takeWhile fun x => x ≠ f
          let stop := if o.ptype = 4 then 0 else max ((t.addr + o.pieceStart f) / 128 * 128 - lo) o.sent
          let spans := cutSpans 40 (lo + o.sent) (lo + stop) (s.mps o.port)
          let tl := spans.map fun x => cplFor t .sc x.1 ((data.drop (x.1 - lo)).take x.2 |>.map fun b => b.getD 0)
          if before.all fun x => x.status = some stOk then
            let s := s.dropOutstanding o.id
            let st := f.status.getD stTargetAbort
            -- a status formed in this package is logged at the ingress port (Table 10-3)
            let s := if (f.source.getD cpl.src) / 1024 = s.rank && (st = stDenied || st = stSurrogate || st = stPoisoned || st = stContained)
              then s.logAer o.port aerAbort (some t) else s
            s.deliver o (tl ++ [cplFor (r.withAnswer (some f)) (cplOf st) (lo + stop) []]) none true cpl
          else
            -- data before the failed piece goes out as it comes to be held (R275)
            let now_ := min stop ((lo + avail) / 128 * 128 - lo)
            if o.ptype = 4 || now_ ≤ o.sent then s
            else
              let tl := (cutSpans 40 (lo + o.sent) (lo + now_) (s.mps o.port)).map fun x =>
                cplFor t .sc x.1 ((data.drop (x.1 - lo)).take x.2 |>.map fun b => b.getD 0)
              (s.setOutstanding { o with sent := now_ }).deliver o tl none false cpl
        | none =>
          if o.done then
            let s := s.dropOutstanding o.id
            if o.ptype = 4 then
              let d := (o.pieces.head?.map (·.data)).getD []
              let d := if o.element = 1 then d else d.reverse
              s.deliver o [cplFor t .sc t.addr d] none true cpl
            else if data.isEmpty then s.deliver o [cplFor t .sc t.addr []] none true cpl
            else
              let tl := (cutSpans 40 (lo + o.sent) (lo + data.length) (s.mps o.port)).map fun x =>
                cplFor t .sc x.1 ((data.drop (x.1 - lo)).take x.2 |>.map fun b => b.getD 0)
              s.deliver o tl none true cpl
          else
            let stop := (lo + avail) / 128 * 128 - lo
            if o.ptype = 4 || stop ≤ o.sent then s
            else
              let tl := (cutSpans 40 (lo + o.sent) (lo + stop) (s.mps o.port)).map fun x =>
                cplFor t .sc x.1 ((data.drop (x.1 - lo)).take x.2 |>.map fun b => b.getD 0)
              (s.setOutstanding { o with sent := stop }).deliver o tl none false cpl
      | none => match o.native with
        | none => if o.done then ((s.dropOutstanding o.id).returnAll o.holds).endLive o.stamp else s
        | some k =>
          if !o.done then s
          else
            let s := s.dropOutstanding o.id
            let failed := o.pieces.filter fun x => x.status ≠ some stOk
            let s := s.nativeLosses o stTargetAbort cpl.src
            let data := (readBack o.element o.tgt o.offsets (heldBytes o.pieces)).map fun b => b.getD 0
            let data := if o.ptype = 4 then
                let d := (o.pieces.head?.map (·.data)).getD []
                if o.element = 1 then d else d.reverse
              else if k.ptype = 1 then data else []
            let a := match failed.head? with
              | none => completionFor k stOk data false
              | some f =>
                if failed.all fun x => x.status = some stPoisoned then completionFor k stPoisoned data true
                else completionFor k (f.status.getD stTargetAbort) [] (f.status = some stPoisoned)
            s.deliver o [] (some { a with deadline := cpl.deadline }) true cpl

/-- Every read that a Write-Ack's answer may set free is carried on (R285). -/
def State.progressWindow (s : State) (port window : Nat) (cpl : Packet) : State :=
  (s.outstanding.filter fun o => o.port / 4 = port / 4 && o.window = window && o.admitted && o.done && !o.asWrite).foldl
    (fun s o => s.progress o.id cpl) s

/-! ### Acknowledged writes (R283 to R288) -/

/-- TRACK_USED and TRACK_PEAK follow the tracker's ledger, and so does whether it is full; ACK_OUT counts the window's Write-Acks. -/
def State.showTracker (s : State) (c w : Nat) : State :=
  let used := (s.ledger (clusterLedger c 128)).out
  let s := s.set (WIN_TRACK.TRACK_USED c) used
  let s := s.setLive (srcCluster c 38) 0 (decide (used = 2048))
  let s := s.set (WIN_TRACK.TRACK_PEAK c) (max (s.get (WIN_TRACK.TRACK_PEAK c)) used)
  let out := s.outstanding.foldl (fun n o => if o.asWrite && o.window = w && !o.answered then
    n + (o.pieces.filter fun x => x.status.isNone).length else n) 0
  s.set (WIN_STATE.ACK_OUT w) out

/-- A Write-Ack has failed: it is held against its requester and window and entered in the bittern log as acknowledged
(R286, R288). -/
def State.failWrite (s : State) (o : Outstanding) (x : Piece) (status reporter : Nat) (injected : Bool := false) : State :=
  let s := { s with heldFailures := s.heldFailures ++
    [({ cluster := o.port / 4, port := o.port, requester := o.requester, window := o.window, order := o.id, status := status } : HeldFailure)] }
  let s := s.setFlag (WIN_STATE.FAIL_HELD o.window) true
  s.recordLoss { window := o.window, noWin := o.noWin, partition := o.partition, status := status, src := s.fabricId o.port
                 addr := x.addr, tag := x.tag, reporter := reporter, len := x.len, acknowledged := true
                 requester := some (if o.tlp.isSome then o.requester else 0), injected := injected } o.port

/-- A Write-Ack's piece has its answer: the tracker entry and the tag come back (R284). -/
def State.ackWrite (s : State) (o : Outstanding) (x : Piece) (status reporter : Nat) (cpl : Packet) : State :=
  let s := s.returnAll [⟨clusterLedger (o.port / 4) 128, 1⟩]
  let s := if o.done then (s.returnAll o.holds).endLive o.stamp |>.dropOutstanding o.id else s
  let s := if status = stOk then s else s.failWrite o x status reporter
  -- a Burek-native Write-Ack receives its own Completion (R197)
  let s := match o.native with
    | some k =>
      if k.ptype = 3 && o.done then
        let st := match (o.pieces.filter fun (y : Piece) => decide (y.status ≠ some stOk)).head? with
          | some y => y.status.getD stTargetAbort
          | none => stOk
        s.complete (ingressCluster o.port) k st [] false
      else s
    | none => s
  (s.showTracker (o.port / 4) o.window).progressWindow o.port o.window cpl

/-! ### Completions arrive -/

/-- The piece of an outstanding request that a Completion answers. -/
def State.findPiece (s : State) (dest tag : Nat) : Option Outstanding :=
  s.outstanding.find? fun o => !o.transit && o.admitted && s.tagOwner o = dest && o.pieces.any fun x => x.tag = tag && x.status.isNone

/-- Record the answer of a piece, with its attributes and its source. -/
def answerPiece (k : Packet) : List Piece → List Piece
  | [] => []
  | x :: xs => if x.tag = k.tag && x.status.isNone
    then { x with status := some k.status, data := k.payload, ro := k.ro, ido := k.ido, ns := k.ns, source := some k.src } :: xs else x :: answerPiece k xs

/-- An answer of a request that no longer waits for it is discarded and counted at its ingress port (R394, R426). -/
def State.lateAnswer (s : State) (p : Nat) : State :=
  if p < 1024 then (s.bump (PORT_SLUICE.LATE_ANSWERS p)).raise (srcTxn p) 1 { port := some p } else s

/-- Prefetch data arrives, or is discarded (R296 to R300): a Read that was cancelled in flight wastes the slots of its data. The slots of data that is kept are
settled later, and those of a Read that failed are wasted (R640). -/
def State.prefetchArrives (s : State) (o : Outstanding) (k : Packet) : State :=
  let s := (s.dropOutstanding o.id).returnTag o |>.endLive o.stamp
  let c := portCluster o.port
  if o.answered then
    let s := s.returnAll o.holds
    let s : State := if o.cancelled then s else s.lateAnswer o.port
    if k.status = stOk then (s.countCl c 6 2 fun _ => true).moveSlots c true 1 2 else s
  else if k.status = stOk then
    let s := s.deferSlots c true 2
    { s with streams := s.streams.map fun x =>
        if x.window = o.window && x.requester = o.ctx && x.inFlight.contains o.addr then
          { x with inFlight := x.inFlight.filter (· ≠ o.addr), blocks := x.blocks ++ [(o.addr, k.payload, s.now)], holds := x.holds ++ o.holds }
        else x }
  else
    let s := (s.returnAll o.holds).wasteSlots c 1
    { s with streams := s.streams.map fun x =>
        if x.window = o.window && x.requester = o.ctx then { x with inFlight := x.inFlight.filter (· ≠ o.addr) } else x }

/-- A completion barge reaches the PD port of its frame (R294): the frame goes to the device at once, in the form of its link and with its own requester ID and
tag, and the last one ends the request. After a surrogate answer it is discarded (R394). -/
def State.bargeArrives (s : State) (o : Outstanding) (k : Packet) : State :=
  match o.tlp with
  | none => s
  | some t =>
    let last := lastBarge (o.pieces.foldl (fun n x => n + x.len) 0) o.sent k
    let late (s : State) : State :=
      if o.answered && o.port < 1024 then (s.bump (PORT_SLUICE.LATE_ANSWERS o.port)).raise (srcTxn o.port) 1 { port := some o.port } else s
    let s := if last then
        let s := late ((s.returnTag o).dropOutstanding o.id)
        if o.answered then s.returnAll o.holds else s
      else s.setOutstanding { o with sent := o.sent + k.frameData.length }
    if o.answered then s
    else
      let h := frameTag (frameId k.frameHead 8 t.reqId) t.tag
      s.deliver o [{ kind := .other, header := if s.flag (PORT_PCIE.FLIT o.port) then h else Config.plainForm h, data := k.frameData, reqId := t.reqId
                     tag := t.tag, target := t.reqId, ro := k.ro, ido := k.ido, ns := k.ns, poison := k.poison }] none last k

/-- A Burek Completion reaches its near package (R272, R284, R394, R426). -/
def State.completionArrives (s : State) (k : Packet) : State :=
  match s.findPiece k.dest k.tag with
  | none => s
  | some o =>
    match o.pieces.find? fun x => x.tag = k.tag && x.status.isNone with
    | none => s
    | some x =>
      let o' := { o with pieces := answerPiece k o.pieces }
      if k.ptype = 0xB then s.bargeArrives o k
      else if o.prefetch then s.prefetchArrives o' k
      else
        let s := s.returnTag o
        if o.answered then
          -- R394: a real answer after the surrogate answer is discarded; its tag returns, and with the last the account and reservation
          let s := s.lateAnswer o.port
          if o'.done then (s.returnAll o'.holds).dropOutstanding o.id else s.setOutstanding o'
        else
          let s := s.setOutstanding o'
          if o.asWrite then s.ackWrite o' x k.status k.src k
          else if 1024 ≤ o.port then (s.dropOutstanding o.id).deliver o' [] (some k) true k
          else s.progress o.id k

/-! ### Surrogate answers (R392 to R394) -/

/-- An engine. -/
def State.engine (s : State) (te : Nat) : Engine := tabGet (fun _ => {}) s.engines te

/-- Replace an engine. -/
def State.setEngine (s : State) (te : Nat) (e : Engine) : State := { s with engines := tabPut (fun _ => {}) s.engines te e }

/-- An answer that a handler left owing, and that a request of this package waits for: the item that asked for it reached the engine after the request was
received. -/
def State.owes (s : State) (o : Outstanding) (x : ReplyTo × Nat) : Bool :=
  decide (o.received ≤ x.2) && match x.1 with
    | .burek k => k.src = s.tagOwner o && o.pieces.any fun y => y.tag = k.tag
    | .pcie p tag req _ => o.port = p && o.tlp.any fun t => t.tag = tag && t.reqId = req
    | .none => false

/-- The engine of this package whose handler left a request unanswered (R73). -/
def State.owedBy (s : State) (o : Outstanding) : Option Nat := (s.engines.find? fun x => x.2.owed.any (s.owes o)).map (·.1)

/-- The surrogate bound of a request that an engine's handler left unanswered expires: cause 5 of its source sets, and the answer is no longer owed (R73). -/
def State.owedOver (s : State) (te : Nat) (gone : ReplyTo × Nat → Bool) : State :=
  let e := s.engine te
  (s.setEngine te { e with owed := e.owed.filter fun x => !gone x }).raise (srcEngine te) 5

/-- The surrogate bounds that requesters of other packages have on what an engine owes have expired: as far as this package can tell, S after the item reached the
engine (R73, log entry 68). -/
def State.owedFar (s : State) : State :=
  let late := fun (x : ReplyTo × Nat) => decide (x.2 + s.surrogateBound ≤ s.now) && match x.1 with
    | .burek k => k.src / 1024 ≠ s.rank
    | _ => false
  (s.engines.filter fun x => x.2.owed.any late).foldl (fun (s : State) x => s.owedOver x.1 late) s

/-- The near package answers SURROGATE in the target's place, and records it (R392, R393, R470). -/
def State.surrogateAnswer (s : State) (o : Outstanding) (reason : Nat) : State :=
  let target := if o.admitted then o.dest else 0xFFFF
  let s := if o.port < 1024 then
      let s := s.surrogateRecord o.port o reason target
      ((s.bump (PORT_SLUICE.SURROGATES o.port)).countPort o.port 0x17 1).raise (srcTxn o.port) 0
        { request := true, addr := o.addr, window := o.window, src := s.fabricId o.port, tag := o.tag, noWin := o.noWin, port := some o.port }
    else s
  -- an engine whose handler left the request unanswered (R73)
  let s := match s.owedBy o with
    | some te => s.owedOver te (s.owes o)
    | none => s
  if o.asWrite then
    let open_ := o.pieces.filter fun x => x.status.isNone
    -- a write that was never admitted has no tracker entry
    let s := if o.admitted then
        (s.returnAll [⟨clusterLedger (o.port / 4) 128, open_.length⟩]).setOutstanding { o with answered := true, stamp := none, endedAt := s.now }
      else s.dropOutstanding o.id
    let s := s.endLive o.stamp
    let s := open_.foldl (fun s x => s.failWrite o x stSurrogate (s.fabricId o.port)) s
    -- a Burek-native Write-Ack receives the surrogate answer (R197)
    let s := match o.native with
      | some k => if k.ptype = 3 then s.complete (ingressCluster o.port) k stSurrogate [] false else s
      | none => s
    (s.showTracker (o.port / 4) o.window).progressWindow o.port o.window (s.answerHere o.port o.cls)
  else
    -- pieces that wait for a prefetch block have no answer to come
    let keep := { o with answered := true, stamp := none, endedAt := s.now
                         pieces := o.pieces.map fun y => if y.waits then { y with waits := false, status := some stSurrogate } else y }
    let s := if !o.admitted then s.dropOutstanding o.id else if keep.done then (s.returnAll o.holds).dropOutstanding o.id else s.setOutstanding keep
    let s := s.endLive o.stamp
    match o.tlp with
    -- behind the completions of the same read that still wait (Table 07-1)
    | some t => (s.deliver { o with holds := [], stamp := none } [cplFor t .ca (t.addr + o.sent) []] none true (s.answerHere o.port o.cls)).logAer o.port aerAbort (some t)
    | none => match o.native with
      | some k =>
        let s := s.nativeLosses o stSurrogate (s.fabricId o.port)
        let a := completionFor k stSurrogate [] false
        if o.port < 1024 then s.sendAnswer (portCluster o.port) a o.port [] none
        else s.sendOn { point := 0, pkt := { a with deadline := s.now % 2 ^ 48 }, deadline := s.now % 2 ^ 48, ingress := o.port, ctx := o.ctx }
          (.endpoint (256 + (o.port - 1024))) (some [pointEndpoint (256 + (o.port - 1024))])
      | none => s

end Sys2Proof.Machine
end

