-- ==== Sys2Proof/Machine/Admission.lean ====
section
/-! DEFINITION. The admission gate, or sluice (R369 to R382, R694, R695): the checks of Table 08-3 in their order, what admission books,
the access check that follows (R486), and the stamps of R318 and R321. -/

namespace Sys2Proof.Machine

/-! ### Queues of a port's ingress buffer -/

/-- Where the queue q of a port or engine stands. -/
def ingressKey (port q : Nat) : Nat := 16 * port + q

/-- A queue of unadmitted requests. -/
def State.ingressQ (s : State) (k : Nat) : List Queued := tabGet (fun _ => []) s.ingress k

/-- Replace a queue. -/
def State.setIngress (s : State) (k : Nat) (l : List Queued) : State := { s with ingress := tabPut (fun _ => []) s.ingress k l }

/-- Units of the receive credits of a port: ledgers 14 to 25 of its slot (Table 09-1). -/
def receiveCredit (p : Nat) (h : Hold) : Bool := decide (portLedger p 14 ≤ h.ledger) && decide (h.ledger < portLedger p 26)

/-- A request joins its queue: it takes ingress space and receive credits (R417). What it holds in the ingress buffer is written there, header words first
(checker 0x01): two of a TLP, four of a packet. -/
def State.enqueue (s : State) (k : Nat) (q : Queued) : State :=
  let p := k / 16
  let (s, h) := if 1024 ≤ p || q.holds.isEmpty then (s, 0)
    else s.writeItem (portDie p) 1 (p / 4 % 16) (if s.isBf p then 4 else 2) (q.pkts.foldl (fun n x => n + x.loadWords) 0)
  -- the receive credits of a Burek packet were issued with its header
  (s.issueAll (if p < 1024 && s.isBf p then q.holds.filter fun x => !receiveCredit p x else q.holds)).setIngress k (s.ingressQ k ++ [{ q with hurt := h }])

/-- The units a list of holds asks of a ledger. -/
def unitsOf (h : List Hold) (k : Nat) : Nat := h.foldl (fun n x => if x.ledger = k then n + x.units else n) 0

/-- Receive credits of a port return, f i of ledger 14 + i: to the link partner of a BF port (R192), where a NULL flit reports them if no flit does (R182), or as
flow-control credits of a PU or PD port. While the port's region drains and applies a reload they are kept back (R98). -/
def State.creditsBack (s : State) (p : Nat) (f : Nat → Nat) : State :=
  let l := s.link p
  if s.reloading (p / 16) then s.setLink p { l with withheld := (List.range 12).map fun i => l.withheld.getD i 0 + f i }
  else
    let s := s.returnAll (((List.range 12).map fun i => (⟨portLedger p (14 + i), f i⟩ : Hold)).filter fun h => h.units ≠ 0)
    if s.isBf p then (s.setLink p { l with returned := (List.range 12).map fun i => l.returned.getD i 0 + f i }).noteNull p else s

/-- The receive credits that a request held in a port's ingress buffer return (R417, R191). -/
def State.returnHeld (s : State) (p : Nat) (holds : List Hold) : State := s.creditsBack p fun i => unitsOf holds (portLedger p (14 + i))

/-- Credits of a BF port that return to the link partner (R417, R191). -/
def State.returnLinkCredits (s : State) (p : Nat) (k : Packet) : State :=
  s.creditsBack p fun i => if i = k.pair && decide (k.cls < 3) then k.credits else 0

/-- The ports of a region return the credits that a reload kept back (R98). -/
def State.releaseCredits (s : State) (g : Nat) : State :=
  ((List.range 16).map (16 * g + ·)).foldl (fun (s : State) p =>
    let l := s.link p
    if l.withheld.isEmpty then s
    else (s.setLink p { l with withheld := [] }).creditsBack p fun i => l.withheld.getD i 0) s

/-- The code that holds the heads of some queues of a port: that of the head decoded first, of those held; 0 when none is. DESIGN CHOICE: log entry 100. -/
def State.heldCode (s : State) (p : Nat) (qs : List Nat) : Nat :=
  let heads := qs.filterMap fun i => match s.ingressQ (ingressKey p i) with
    | x :: _ => if x.cause = 0 then none else some x
    | [] => none
  ((heads.foldl (fun (m : Option Queued) x => match m with
    | some y => if x.order < y.order then some x else m
    | none => some x) none).map (·.cause)).getD 0

/-- PORT_HOLD shows what holds the head of the posted and of the non-posted queue, at a BF port of the channel's queues (Table 08-14). -/
def State.showHold (s : State) (p : Nat) : State :=
  (s.set (PORT_HOLD.P_CAUSE p) (s.heldCode p (if s.isBf p then [0, 1, 2] else [0]))).set (PORT_HOLD.NP_CAUSE p) (s.heldCode p (if s.isBf p then [3, 4, 5] else [1]))

/-- A request leaves its queue: its ingress space and receive credits return (R417). -/
def State.dequeue (s : State) (k : Nat) (q : Queued) : State :=
  let p := k / 16
  let s := s.returnAll (q.holds.filter fun x => !receiveCredit p x)
  let s := s.setIngress k ((s.ingressQ k).filter fun x => x.id ≠ q.id)
  let s := if p < 1024 then s.returnHeld p q.holds else s
  -- the new head is not yet held
  if p ≥ 1024 then s
  else (if k % 16 = 0 || (s.isBf p && k % 16 < 3) then s else s.set (PORT_HOLD.NP_HELD p) 0).showHold p

/-- The order code that holds a head request shows in PORT_HOLD (R371). One that the same code held before stays as it is. -/
def State.hold (s : State) (k : Nat) (q : Queued) (code : Nat) : State :=
  let p := k / 16
  if q.heldOnce && q.cause = code then s else
  let s := s.setIngress k ((s.ingressQ k).map fun x => if x.id = q.id then { x with cause := code, heldOnce := true, fullSeen := x.fullSeen || code = 2 } else x)
  let s := if q.transit && !q.heldOnce then s.bump (PORT_SLUICE.TRANSIT_HELD p) else s
  let s := if code = 2 then
      let s := s.raise (srcCluster (ingressCluster p) 38) 0
      if q.fullSeen then s else s.bump (WIN_TRACK.TRACK_FULL (ingressCluster p))
    else s
  let s := if code = 8 then s.countDie (clusterDie (ingressCluster p)) 0x04 1 fun _ => true else s
  if p ≥ 1024 then s else s.showHold p

/-! ### Answers at the gate -/

/-- The package lock returns to Free. -/
def State.freeLock (s : State) : State :=
  (((s.set PKG_LOCK.STATE 0).set PKG_LOCK.OWNER 0).set PKG_LOCK.OWNER_PART 0).set PKG_LOCK.TARGET 0

/-- The near side lets its lock go: Held near is then Free, and Held both is Held far (R337). -/
def State.releaseNear (s : State) : State :=
  if s.get PKG_LOCK.STATE = 4 then s.set PKG_LOCK.STATE 3 else s.freeLock

/-- The lock that a PU port owns for a target is let go: its Unlock has been sent, or cannot be (R337, R352), or a Lock yields to a higher rank (R350). -/
def State.unlockSent (s : State) (port dest : Nat) : State :=
  let st := s.get PKG_LOCK.STATE
  if decide (port < 1024) && (st = 1 || st = 2 || st = 4) && s.get PKG_LOCK.OWNER = s.fabricId port && s.get PKG_LOCK.TARGET = dest then s.releaseNear else s

/-- A locked read is answered without a grant: it is no longer waiting, and a lock that it was acquiring is Free again (R498). -/
def State.endSought (s : State) (id : Nat) : State :=
  let mine := s.lockWait.any fun x => x.id = id && x.sent
  let s := { s with lockWait := s.lockWait.filter fun x => x.id ≠ id }
  if mine && s.get PKG_LOCK.STATE = 1 then s.freeLock else s

/-- A queued request is answered with a status formed in this package: its non-posted request completes, its posted packets are
recorded (R471, R497, R694), with the injected flag where an injection put its words in error (R479). -/
def State.answerQueued (s : State) (k : Nat) (q : Queued) (status : Nat) (injected : Bool := false) : State :=
  let p := k / 16
  let s := s.dequeue k q
  match s.outstanding.find? fun o => o.id = q.requester && q.requester ≠ 0 with
  | some o =>
    if o.asWrite then
      let s := s.dropOutstanding o.id
      let s := if status = stContained && p < 1024 then s.raise (srcTxn p) 8 { port := some p } else s
      let s := o.pieces.foldl (fun s x => s.failWrite o x status (s.fabricId p) injected) s
      -- a Burek-native Write-Ack receives its own Completion (R284)
      let s := match o.native with
        | some x => if x.ptype = 3 then s.complete (ingressCluster p) x status [] false else s
        | none => s
      s.progressWindow o.port o.window (s.answerHere o.port o.cls)
    else if o.transit then
      let s := s.dropOutstanding o.id
      match o.native with
      | some x =>
        let s := if status = stContained && p < 1024 then s.raise (srcTxn p) 8 { port := some p } else s
        s.complete (ingressCluster p) x status [] false
      | none => s
    else ((if o.ptype = 5 then s.endSought o.id else if o.ptype = 6 then s.unlockSent p o.dest else s).nativeLosses o status (s.fabricId p) injected).endWith o status
  | none =>
    q.pkts.foldl (fun s x => if x.isCompletion || x.ptype = 0xA then s else s.lose x status (s.fabricId (if p < 1024 then p else 256 + (p - 1024))) injected) s

/-! ### Check 1: a path with a bound in force (R371, R413, R694) -/

/-- The basin partition of a packet on a die has a size (R413). -/
def State.basinPresent (s : State) (d part : Nat) : Bool := s.sec (basinSec d) (16 + 8 * part) 4 ≠ 0

/-- Why no path with a bound in force exists, or none when one does (R694). -/
def State.pathFault (s : State) (c dest cls : Nat) (k : Packet) (ret : Option Nat) : Option Nat :=
  let d := clusterDie c
  let e := s.egress d dest
  let absent := !s.basinPresent (s.egressDie e) k.pair ||
    (match ret with | some r => !s.basinPresent (portDie r) (6 + cls) | none => false)
  match e with
  | .none =>
    if dest / 1024 = s.rank then some stNotMapped
    else
      let (a, b) := s.routeEntry d dest
      -- no BF port, or none but standby ports not yet woken
      if [a, b].all fun x => x = 0xFFFF || s.asleep x then some stNotMapped else some stContained
  | .port p =>
    if s.asleep p && s.isPort p then some stNotMapped
    else if s.hopUnits p cls = noBound then some stContained
    else if (s.rOut d dest cls).isNone then some stContained
    else if (s.diePath d (portDie p)).isNone then some stContained
    else if absent then some stNotMapped else none
  | .endpoint n =>
    if n < 768 && (s.portDark (4 * ((n - 256) / 8)) || s.reloading ((n - 256) / 32)) then some stContained
    else if (s.diePath d (s.endpointDie n)).isNone then some stContained
    else if absent then some stNotMapped else none

/-! ### What admission takes -/

/-- Every ledger of a list of holds has room for all of them together. -/
def State.roomSum (s : State) (h : List Hold) : Bool := h.all fun x => (s.ledger x.ledger).room (unitsOf h x.ledger)

/-- The basin space of a packet on the die of its egress (R414). -/
def basinHold (d : Nat) (k : Packet) : Hold := ⟨dieLedger d k.pair, k.credits⟩

/-- The charge of the completion account and the completion reservation of a non-posted packet (R377, R414). -/
def completionHolds (ret : Nat) (k : Packet) : List Hold :=
  [⟨portLedger ret (28 + k.cls), k.largestCompletion⟩, ⟨dieLedger (portDie ret) (6 + k.cls), (k.largestCompletion + 31) / 32⟩]

/-- The completion account has room (R377): under the limit that now holds, and under the ledger's total. -/
def State.accountRoom (s : State) (ret cls n : Nat) : Bool :=
  (s.ledger (portLedger ret (28 + cls))).room n && decide ((s.ledger (portLedger ret (28 + cls))).out + n ≤ s.accountLimit ret cls)

/-- The die-to-die interfaces of a path of dies as pairs of a die and its interface. -/
def d2dHops : List Nat → List (Nat × Nat)
  | d :: o :: rest => (d, d2dIndex d o) :: d2dHops (o :: rest)
  | _ => []

/-- PU tags in use at a PU port, and the pool of R231. -/
def State.puTagsOut (s : State) (p : Nat) : Nat := (s.device.filter fun x => x.port = p).length
/-- Admitted non-posted requests on their way to a PU port, each of which takes a PU tag there (R231). -/
def State.puTagsBooked (s : State) (p : Nat) : Nat :=
  (s.waiting.filter fun w => (w.path.getLast?).getD w.point = pointPort p && w.pkt.nonPosted).length
/-- The pool of R231: the widest tag size within TAG_MAX that the link mode allows. -/
def State.puPool (s : State) (p : Nat) : Nat :=
  let m := s.portRec p 70 1
  if m = 0 then 256 else if m = 2 && s.flag (PORT_PCIE.FLIT p) then 16384 else 1024

/-- The Burek tags in use of a fabric ID: those of admitted pieces without an answer (R272). A piece that is not admitted yet has none. -/
def State.usedTags (s : State) (owner : Nat) : List Nat :=
  s.outstanding.flatMap fun o => if o.admitted && s.tagOwner o = owner then
    (o.pieces.filter fun x => x.status.isNone && !x.waits && decide (x.tag < 2 ^ 14)).map (·.tag) else []

/-- The n lowest free tags of a fabric ID's tag space (R198, R272). -/
def State.freeTags (s : State) (owner : Nat) (n : Nat) : List Nat :=
  let used := s.usedTags owner
  ((List.range (used.length + n)).filter fun t => !used.contains t).take n

/-! ### The access check of a packet (R485 to R488) -/

/-- The master of a request at an ingress (Table 11-2). -/
def State.ingressSubject (s : State) (port : Nat) (k : Packet) (requester : Nat) : Subject :=
  if port ≥ 1024 then
    if k.src % 1024 ≥ 256 then { id := k.src, level := 1 }
    else { id := k.src, partition := some k.partition }
  else if s.isBf port then { id := k.src, partition := some k.partition }
  else { id := k.src, requester := some requester, partition := some k.partition }

/-! ### The gate -/

/-- What a head request's evaluation comes to (Table 08-3). -/
inductive Gate where
  | answer (status : Nat)
  | failure
  | hold (code : Nat)
  | go
  deriving DecidableEq, Repr

/-- The requester of a Burek-native request that a BF port decoded. -/
def State.nativeSrc (s : State) (q : Queued) : Option Nat :=
  (s.outstanding.find? fun o => o.id = q.requester && q.requester ≠ 0).bind fun o => o.native.map (·.src)

/-- The packets of a request whose answer leaves the package by a port, and so charges its account: an Unlock's answer is absorbed where it was sent (R337, R377). -/
def Queued.accounted (q : Queued) : List Packet := q.pkts.filter fun k => k.nonPosted && (q.transit || k.ptype ≠ 6)

/-- The return egress of a request: the port its completion leaves by (R377); of one that came in at a BF port, the port by which its source is reached. -/
def State.returnEgress (s : State) (port c : Nat) (q : Queued) : Option Nat :=
  let by_ := fun (src : Nat) => match s.egress (clusterDie c) src with
    | .port p => some p
    | _ => none
  match q.accounted with
  | [] => none
  | k :: _ =>
    if q.transit then by_ k.src
    else if 1024 ≤ port then none
    else match s.nativeSrc q with
      | some src => by_ src
      | none => some port

/-- Requests wait for earlier ones of their flow, whichever queue they stand in; a posted one may pass non-posted ones (R318). A joined kind waits for every earlier
write of its source and destination (R320). -/
def State.flowBlocked (s : State) (q : Queued) (k : Packet) : Bool :=
  s.ingress.any fun l => l.2.any fun x =>
    x.id ≠ q.id && decide (x.order < q.order) && !x.transit && x.pkts.any fun y =>
      y.src = k.src && y.dest = k.dest && ((y.cls = k.cls && !(k.vc = 0 && y.vc = 1)) || (k.joined && y.isWrite))

/-- The bindings of a partition that a window's TARGET leads to. -/
def State.bindingsTo (s : State) (part target : Nat) : List BindRec := s.bindRecs.filter fun b => b.partition = part && b.target = target

/-- AtomicOp Egress Blocking of a vDSP of this package stops an Atomic that an engine sends, or that comes from another package, for the functions of its partition
behind a PD port, unless it comes from the vDSP's own host (R330, log entry 76). -/
def State.atomicStop (s : State) (e : Egress) (k : Packet) : Bool :=
  match e with
  | .port p => k.ptype = 4 && s.isPd p && ((s.bindingsTo k.partition (s.fabricId p)).any fun b => match s.partitionPu b.partition with
      | some q => s.fabricId q ≠ k.src && (s.vport q (vdspFn b.vdsp)).atomicBlock
      | none => false)
  | _ => false

/-- The deadline that admission at this moment stamps (R366, R318, R321). -/
def State.deadlineFor (s : State) (port c : Nat) (k : Packet) : Nat :=
  let d := clusterDie c
  let h := match s.egress d k.dest with
    | .port p => (s.hopTicks p k.cls).getD 0
    | _ => 160 * classBound k.cls
  s.notBefore port k ((s.now + h + (s.rOut d k.dest k.cls).getD 0) % 2 ^ 48)

/-- The dies of the path from a cluster to an egress. -/
def State.diesTo (s : State) (c : Nat) (e : Egress) : List Nat := (s.diePath (clusterDie c) (s.egressDie e)).getD []

/-- The bucket of a calendar time; a transit packet past its time takes bucket 0 (R380). -/
def State.bucketFor (s : State) (t : Nat) (transit : Bool) : Option Nat :=
  match s.bucketOf t with
  | some k => some k
  | none => if transit then some 0 else none

/-- The calendars' part of the test (orders 10 and 11): the code that holds the request. -/
def State.calendarHold (s : State) (c : Nat) (e : Egress) (loc : Nat) (pkts : List Packet) (transit : Bool) : Option Nat :=
  let t := s.calendarTime e loc
  let flit := pkts.foldl (fun n k => n + k.flitBytes) 0
  let d2d := (d2dHops (s.diesTo c e)).all fun x =>
    match s.bucketFor (t + 2 ^ 48 - 80 * ticksPerNs) transit with
    | some b => s.fits (d2dResource x.1 x.2) b flit false
    | none => false
  if !d2d then some 8
  else match e with
    | .port p =>
      let cost := pkts.foldl (fun n k => n + s.costAt p k) 0
      (match s.bucketFor t transit with
       | some b => if s.fits p b cost (!transit) then none else some 7
       | none => some 7)
    | _ => none

/-- Egress credits, basin, and completion account of a list of packets (orders 7 to 9); `np` are those whose answers leave by the return egress. A late packet needs
room in basin partition 0x0C, which must be present (R381, R413). -/
def State.resourceHold (s : State) (e : Egress) (ret : Option Nat) (pkts np : List Packet) (late : Bool) : Option Nat :=
  let credits := match e with
    | .port p => if late then [] else pkts.flatMap fun k => s.creditCost p k
    | _ => []
  let d := s.egressDie e
  let lateRoom := !late || s.basinPresent d 12
  let basin := (if late then pkts.map fun k => ⟨dieLedger d 12, k.credits⟩ else pkts.map (basinHold d)) ++
    (match ret with | some r => np.flatMap fun k => [⟨dieLedger (portDie r) (6 + k.cls), (k.largestCompletion + 31) / 32⟩] | none => [])
  let usable := match e with
    | .port p => !s.isBf p || credits.all fun x => (s.ledger x.ledger).total ≠ 0
    | _ => true
  if !s.roomSum credits || !usable then some 5
  else if !lateRoom || !s.roomSum basin then some 6
  else match ret, np with
    | some r, k :: _ => if s.accountRoom r k.cls (np.foldl (fun n k => n + k.largestCompletion) 0) then none else some 9
    | _, _ => none

/-- The tag pool of a PCI Express egress has room for n requests (R229, R231). -/
def State.egressTags (s : State) (e : Egress) (n : Nat) : Bool :=
  match e with
  | .port p =>
    if s.isPd p then (s.ledger (portLedger p 27)).room n
    else if s.isPu p then decide (s.puTagsOut p + s.puTagsBooked p + n ≤ s.puPool p) else true
  | _ => true

/-- The package lock allows a locked read (R335): it is Free, it is sought by this very request, or it is held by its partition for its
target. -/
def State.lockAllows (s : State) (q : Queued) (k : Packet) : Bool :=
  let st := s.get PKG_LOCK.STATE
  st = 0 || (st = 1 && s.lockWait.any fun x => x.id = q.requester && x.sent) ||
    ((st = 2 || st = 4) && s.get PKG_LOCK.OWNER_PART = k.partition && s.get PKG_LOCK.OWNER = k.src && s.get PKG_LOCK.TARGET = k.dest)

/-- The owner of the package lock asks for another target (R335). -/
def State.lockElsewhere (s : State) (k : Packet) : Bool :=
  let st := s.get PKG_LOCK.STATE
  (st = 2 || st = 4) && s.get PKG_LOCK.OWNER_PART = k.partition && s.get PKG_LOCK.OWNER = k.src && s.get PKG_LOCK.TARGET ≠ k.dest

/-- A Free package lock is requested for a packet (R335). -/
def State.lockFor (s : State) (k : Packet) : State :=
  if s.get PKG_LOCK.STATE ≠ 0 then s
  else
    let s := State.set { s with lockClass := k.cls } PKG_LOCK.STATE 1
    let s := s.set PKG_LOCK.OWNER k.src
    let s := s.set PKG_LOCK.OWNER_PART k.partition
    s.set PKG_LOCK.TARGET k.dest

/-- A locked read's admission takes the package lock when it is Free (R335). -/
def State.takeLock (s : State) (q : Queued) (k : Packet) : State :=
  State.lockFor { s with lockWait := s.lockWait.map fun x => if x.id = q.requester then { x with sent := true, backoff := false } else x } k

/-- The Burek tag pool of a request has n tags free: a port's, or the 256 of an engine's own endpoint (R72, R272). -/
def State.tagRoom (s : State) (port src n : Nat) : Bool :=
  match tagPort port src with
  | some p => (s.ledger (portLedger p 26)).room n
  | none => decide ((s.usedTags src).length + n ≤ 256)

/-- The egress is a PD port whose link is in Hot Reset: requests of its partition wait for its end (R247). -/
def State.hotResets (s : State) (e : Egress) : Bool :=
  match e with
  | .port p => s.isPd p && s.get (PORT_PCIE.LINK_STATE p) = 7 && !s.portDark p && !s.flag (PORT_DPC.CONTAINED p)
  | _ => false

/-- The checks of Table 08-3 for a head request, in order (R371, R379). -/
def State.evaluate (s : State) (key : Nat) (q : Queued) (late : Bool) : Gate :=
  let port := key / 16
  let c := ingressCluster port
  match q.pkts with
  | [] => .go
  | k :: _ =>
    let e := s.egress (clusterDie c) k.dest
    let np := q.pkts.filter Packet.nonPosted
    let ret := s.returnEgress port c q
    match s.pathFault c k.dest k.cls k ret with
    | some st => if s.mode = 5 || s.hotResets e then .hold 0 else .answer st
    | none =>
      if !q.transit && !k.noWin && s.windowContained k.window then .answer stContained
      else if !q.transit && port < 1024 && s.isPu port && s.flag (PORT_CONTAIN.CONTAINED port) then .answer stContained
      else if (q.transit || 1024 ≤ port) && s.atomicStop e k then .answer stNotMapped
      else if !q.transit && s.flowBlocked q k then .hold 0xA
      else
        let o := s.outstanding.find? fun x => x.id = q.requester && q.requester ≠ 0
        let asWrite := match o with | some x => x.asWrite | none => false
        let tags := (np.isEmpty || q.transit || s.tagRoom port k.src np.length) &&
          (np.isEmpty || s.egressTags e np.length)
        if !tags then .hold 1
        else if asWrite && !(s.ledger (clusterLedger c 128)).room np.length then .hold 2
        else
          let flush := match o with | some x => x.flushing && !x.transit | none => false
          let free := match o with | some x => x.ptype = 1 && (s.window x.window).sef | none => false
          let req := match o with | some x => x.requester | none => 0
          let ord := match o with | some x => x.id | none => 0
          if flush && !free && !(s.failuresBefore port req k.window ord).isEmpty then .failure
          else if flush && !free && s.writesBefore port req k.window ord then .hold 3
          else if k.ptype = 5 && !q.transit && s.lockElsewhere k then .answer stNotMapped
          else if k.ptype = 5 && !q.transit && !s.lockAllows q k then .hold 4
          else match s.resourceHold e ret q.pkts q.accounted late with
            | some code => .hold code
            | none =>
              if late then .go
              else
                let loc := s.localDeadline (clusterDie c) k.dest k.cls (if q.transit then k.deadline else s.deadlineFor port c k)
                match s.calendarHold c e loc q.pkts q.transit with
                | some code => .hold code
                | none => .go

/-- The bookings of one packet at the calendars of its path (R372, R376), and the ledgers that show them. -/
def State.booksOf (s : State) (c : Nat) (e : Egress) (loc : Nat) (k : Packet) (transit : Bool) : List Booking × List Hold :=
  let t := s.calendarTime e loc
  let hops := d2dHops (s.diesTo c e)
  let d2d := hops.map fun x =>
    ({ resource := d2dResource x.1 x.2, bucket := (s.bucketFor (t + 2 ^ 48 - 80 * ticksPerNs) true).getD 0, bytes := k.flitBytes, isLocal := false } : Booking)
  let dh := hops.map fun x => (⟨dieLedger x.1 (64 + x.2), k.flitBytes⟩ : Hold)
  match e with
  | .port p =>
    (d2d ++ [{ resource := p, bucket := (s.bucketFor t true).getD 0, bytes := s.costAt p k, isLocal := !transit }],
     dh ++ [⟨portLedger p 31, s.costAt p k⟩])
  | _ => (d2d, dh)

/-- Number of packets of a list stamped with their tags. -/
def withTags : List Packet → List Nat → List Packet
  | [], _ => []
  | k :: ks, ts => if k.nonPosted then { k with tag := ts.headD 0 } :: withTags ks ts.tail else k :: withTags ks ts

/-- The pieces of an outstanding request that packets carry now take their tags. -/
def tagPieces (xs : List Piece) (pkts : List Packet) : List Piece :=
  xs.map fun x => match pkts.find? fun k => k.addr = x.addr && x.status.isNone && !x.waits with
    | some k => { x with tag := k.tag }
    | none => x

/-- A head request that passed every check is admitted: checked, booked, stamped and sent on its path (R366, R375, R376, R486). -/
def State.takeIn (s : State) (key : Nat) (q : Queued) (late : Bool) : State :=
  let port := key / 16
  let c := ingressCluster port
  match q.pkts with
  | [] => s.dequeue key q
  | k :: _ =>
    let d := clusterDie c
    let e := s.egress d k.dest
    let o := s.outstanding.find? fun x => x.id = q.requester && q.requester ≠ 0
    let req := match o with | some x => x.requester | none => if s.isPu port || s.isPd port then q.requester else 0
    let checked := !q.transit || k.dest / 1024 = s.rank
    let (s, ok) := if checked then s.checkPacket d (s.ingressSubject port k req) k (if port < 1024 then some port else none) else (s, true)
    if !ok then s.answerQueued key q stDenied
    else
      let (s, stamp) := if checked && !k.isCompletion && k.ptype ≠ 0xA then
          let (s, x) := s.stampLive d; (s, some x) else (s, none)
      let np := q.pkts.filter Packet.nonPosted
      let ret := s.returnEgress port c q
      let dl := if q.transit then k.deadline else s.deadlineFor port c k
      let loc := s.localDeadline d k.dest k.cls dl
      let owner := if port < 1024 then s.fabricId port else k.src
      let tags := if q.transit then np.map (·.tag) else s.freeTags owner np.length
      let pkts := (withTags q.pkts tags).map fun x => { x with deadline := dl }
      -- tags, tracker, completion account and reservation
      let s := if q.transit || np.isEmpty then s else match tagPort port k.src with
        | some p => s.issue (portLedger p 26) np.length
        | none => s
      let asWrite := match o with | some x => x.asWrite | none => false
      let s := if asWrite then (s.issue (clusterLedger c 128) np.length).countCl c 0x1A np.length fun _ => true else s
      -- the slot of a Lock waits for its answer (R640)
      let s := if k.ptype = 5 && !q.transit && port < 1024 then s.deferSlots c false (slotsOf k.flitBytes) else s
      let here := fun (x : Nat) => (if port < 1024 then maskHas x 0 4 (port % 4) else x % 16 = 0) && maskHas x 4 3 k.cls
      let s := (s.countCl c 0x10 1 here).countCl c 0x11 (q.pkts.foldl (fun n x => n + x.flitBytes) 0) here
      let s := if late then s.countDie d 0x0B 1 fun _ => true else s
      let cpl := match ret with | some r => q.accounted.flatMap fun x => completionHolds r x | none => []
      let s := s.issueAll cpl
      let egTags := match e with | .port p => if s.isPd p && !np.isEmpty then np.length else 0 | _ => 0
      let s := match e with | .port p => if egTags = 0 then s else s.issue (portLedger p 27) egTags | _ => s
      -- packets on their way
      let path := (s.pathFrom c e).getD []
      let n := pkts.length
      let (s, _) := pkts.foldl (fun (a : State × Nat) x =>
        let (s, i) := a
        let (books, bh) := if late then ([], []) else s.booksOf c e loc x q.transit
        let basin : Hold := if late then ⟨dieLedger (s.egressDie e) 12, x.credits⟩ else basinHold (s.egressDie e) x
        let credit := match e with | .port p => if late then [] else s.creditCost p x | _ => []
        let (s, h) := s.writeItem (s.egressDie e) 9 (if late then 12 else x.pair) 4 x.loadWords
        let holds := basin :: bh
        let s := (s.issueAll holds).issueAll credit
        let last := i + 1 = n
        let w : Waiting :=
          { point := path.headD 0, path := path.tail, pkt := x, deadline := loc, late := late, ingress := port, requester := q.requester
            holds := holds, credit := credit, books := books, stamp := if np.isEmpty && last then stamp else none, hurt := h
            group := if q.transit then 0 else q.id }
        (State.bookedTo { s with waiting := s.waiting ++ [w] } e, i + 1)) (s, 0)
      -- stamps of the flow (R318, R321)
      let s := if q.transit then s else s.noteStamp port k dl
      let s := match o with
        | some x => s.setOutstanding { x with admitted := true, holds := x.holds ++ cpl, stamp := stamp
                                              pieces := if q.transit then x.pieces else tagPieces x.pieces (pkts.filter Packet.nonPosted) }
        | none => s
      let s := if asWrite then s.showTracker c k.window else s
      let s := if k.ptype = 5 && !q.transit && port < 1024 then s.takeLock q k else s
      let s := if k.ptype = 6 && !q.transit then s.unlockSent port k.dest else s
      s.dequeue key q

/-- Admission is open at a port in this mode (Table 14-1, R589, R609). -/
def State.gateOpen (s : State) (port : Nat) : Bool :=
  let m := s.mode
  let region := (ingressCluster port) / 4
  (m = 6 || m = 7 || m = 8 || (m = 5 && s.bitOf PKG_MODE.JOIN 4)) && !s.regionFenced region && !s.clusterHeld (ingressCluster port) &&
    !s.reloading region

/-- A request for an engine with a packet of more than 256 bytes, which no engine takes (R70). -/
def State.tooLong (s : State) (c : Nat) (q : Queued) : Bool :=
  q.pkts.any fun k => !k.isCompletion && decide (256 < k.payload.length) && (match s.egress (clusterDie c) k.dest with
    | .endpoint n => decide (n < 768)
    | _ => false)

/-- Such a request is answered NOT-MAPPED, or Unsupported Request, at its ingress; a posted one is dropped and logged as Unsupported Request (R70). -/
def State.refuseLong (s : State) (key : Nat) (q : Queued) : State :=
  if q.pkts.any Packet.nonPosted then s.answerQueued key q stNotMapped
  else
    let s := s.dequeue key q
    if s.isPu (key / 16) || s.isPd (key / 16) then s.logAer (key / 16) aerUnsupported none else s

/-- An item is read from a buffer whose words may be in error (R446): the causes of its source that set, counted from the cause of a corrected word. -/
def State.readItem (s : State) (src hurt port : Nat) : State :=
  if hurt = 0 then s
  else s.raiseMask src ((if hurt.testBit 0 then 1 else 0) + (if hurt.testBit 1 then 2 else 0) + (if hurt.testBit 2 then 4 else 0)) { port := some port, injected := true }

/-- A request whose words were in error is read from the ingress buffer: with an uncorrectable header word it is discarded and answered under R424, with an
uncorrectable payload word it goes on with POISON 1 (R446). -/
def State.readQueued (s : State) (key : Nat) (q : Queued) (late : Bool) : State :=
  let p := key / 16
  if q.hurt = 0 then s.takeIn key q late
  else
    let s := s.readItem (srcCluster (ingressCluster p) 36) q.hurt p
    if q.hurt.testBit 1 then s.answerQueued key q stContained true
    else if q.hurt.testBit 2 then s.takeIn key { q with hurt := 0, pkts := q.pkts.map fun k => { k with poison := true } } late
    else s.takeIn key { q with hurt := 0 } late

/-- The sluice evaluates the head of a queue (R370, R371). -/
def State.gate (s : State) (key : Nat) (late : Bool) : State :=
  match s.ingressQ key with
  | [] => s
  | q :: _ =>
    if !s.gateOpen (key / 16) then s
    else if s.tooLong (ingressCluster (key / 16)) q then s.refuseLong key q
    else match s.evaluate key q late with
      | .answer st =>
        let d := clusterDie (ingressCluster (key / 16))
        let s := match q.pkts with
          | k :: _ => s.noteRoute d k.dest (s.egress d k.dest)
          | [] => s
        s.answerQueued key q st
      | .failure =>
        (match s.outstanding.find? fun o => o.id = q.requester with
         | some o =>
           let st := s.failureStatus o.port o.requester o.window o.id
           let s := s.reportFailures o.port o.requester o.window o.id
           ((if o.ptype = 5 then s.endSought o.id else s).dequeue key q).endWith o (if o.tlp.isSome then stTargetAbort else st)
         | none => s)
      | .hold code => if late then s.raise (srcLink (key / 16)) 8 { port := some (key / 16) } else s.hold key q code
      | .go => s.readQueued key q late

/-- The queues that hold an unadmitted request. -/
def State.heldQueues (s : State) : List Nat := (s.ingress.filter fun x => !x.2.isEmpty).map (·.1)

/-- Held requests are evaluated again (R370, R371). -/
def State.evaluateHeld (s : State) : State := s.heldQueues.foldl (fun (s : State) k => s.gate k false) s

/-- The queues whose head has been evaluated and is held. -/
def State.heldHeads (s : State) : List Nat :=
  (s.ingress.filter fun x => match x.2 with
    | q :: _ => q.heldOnce
    | [] => false).map (·.1)

/-- What holds a request may have changed in the last command: each held head is evaluated again (R371, log entry 93). -/
def State.evaluateAgain (s : State) : State := s.heldHeads.foldl (fun (s : State) k => s.gate k false) s

end Sys2Proof.Machine
end

