-- ==== Sys2Proof/Machine/Receive.lean ====
section
/-! DEFINITION. Requests enter (chapter 06): decoding at PU, PD and BF ports, translation into pieces, barges, Events, prefetch, and the
messages of Table 06-5. -/

namespace Sys2Proof.Machine

/-! ### Posted TAGs (R468) -/

/-- The TAG of the next posted piece of an initiator at a port. -/
def State.postedTag (s : State) (p requester : Nat) : State × Nat :=
  let n := tabGet (fun _ => 0) s.postedCount p
  let s := { s with postedCount := tabPut (fun _ => 0) s.postedCount p ((n + 1) % 64) }
  if s.isPd p then (s, n % 64 * 256 + requester % 256)
  else
    -- the table in order of use, the least recent first: index, requester, fabric time of its last reassignment
    let l := tabGet (fun _ => []) s.requesters p
    let (l, i) := match l.find? fun x => x.2.1 = requester with
      | some x => ((l.filter fun y => y.1 ≠ x.1) ++ [x], x.1)
      | none =>
        if l.length < 256 then (l ++ [(l.length, requester, 0)], l.length)
        else match l with
          | x :: rest => (rest ++ [(x.1, requester, s.now)], x.1)
          | [] => ([(0, requester, 0)], 0)
    ({ s with requesters := tabPut (fun _ => []) s.requesters p l }, n % 64 * 256 + i)

/-- Give every packet of a posted request its TAG. -/
def State.postedTags (s : State) (p requester : Nat) : List Packet → State × List Packet
  | [] => (s, [])
  | k :: ks =>
    let (s, t) := s.postedTag p requester
    let (s, rest) := s.postedTags p requester ks
    (s, { k with tag := t } :: rest)

/-! ### Ingress space (R417) -/

/-- Ingress units of a TLP: its header, its data in whole DWs, rounded up. -/
def Tlp.ingressUnits (t : Tlp) : Nat := ((if t.header.isEmpty then 16 else t.header.length) + 4 * ceilDiv t.data.length 4 + 31) / 32

/-- What a TLP holds in its port's ingress buffer: space and the credits of its type (Table 09-1). -/
def State.ingressHolds (p : Nat) (t : Tlp) : List Hold :=
  let f := if t.nonPosted then 16 else 14
  [⟨portLedger p 0, t.ingressUnits⟩, ⟨portLedger p f, 1⟩] ++
    (if t.data.isEmpty then [] else [⟨portLedger p (f + 1), ceilDiv t.data.length 16⟩])

/-- A number for a request in the order of decoding (R313). -/
def State.newId (s : State) : State × Nat := ({ s with nextId := s.nextId + 1 }, s.nextId + 1)

/-! ### Prefetch (R296 to R300) -/

/-- The template of the packets a TLP forms through a window (R271, R230). -/
def State.template (s : State) (p : Nat) (t : Tlp) (w : Window) (part ptype : Nat) : Packet :=
  { ptype := ptype, vc := vcOfType ptype, cls := w.cls
    dest := if w.kind = 4 then s.fabricId (w.target % 1024) else w.target
    src := s.fabricId p, poison := t.poison, ro := t.ro, ido := t.ido, ns := t.ns
    reqFn := if s.isPd p then t.reqId % 256 else 0, window := w.n, partition := part }

/-- A piece waits for a block of its stream. -/
def Piece.waitsFor (y : Piece) (addr : Nat) : Bool := y.waits && y.addr - y.addr % 256 = addr

/-- The requests of a stream with pieces that wait for a block. -/
def State.waitingOn (s : State) (window requester addr : Nat) : List Outstanding :=
  s.outstanding.filter fun x => x.window = window && x.requester = requester && !x.prefetch && !x.answered && x.pieces.any fun y => y.waitsFor addr

/-- The Read packets of a request's pieces that wait for a block. -/
def State.piecePackets (s : State) (x : Outstanding) (addr : Nat) : List Packet :=
  let base : Packet := match x.tlp, x.native with
    | some t, _ => s.template x.port t (s.window x.window) x.partition 1
    | none, some n => { n with ptype := 1, vc := 1, src := s.fabricId x.port, window := x.window, noWin := false, partition := x.partition, hops := 0, reqFn := 0, payload := [] }
    | none, none => {}
  (x.pieces.filter fun y => y.waitsFor addr).map fun y =>
    { base with cls := x.cls, dest := x.dest, addr := y.addr, len := y.len, fbe := (elementEnables y.addr y.len).1, lbe := (elementEnables y.addr y.len).2 }

/-- Pieces that wait for a block that will not come are issued on their own (R298, R299). They have no tag yet. -/
def State.issueWaiting (s : State) (window requester addr : Nat) : State :=
  (s.waitingOn window requester addr).foldl (fun (s : State) x =>
    let (s, id) := (s.setOutstanding { x with pieces := x.pieces.map fun y => if y.waitsFor addr then { y with waits := false, tag := 2 ^ 14 } else y }).newId
    s.enqueue (ingressKey x.port (match x.native with | some n => n.pair | none => 1))
      { id := id, pkts := s.piecePackets x addr, requester := x.id, order := x.id, received := s.now }) s

/-- Data of a stream, held or in flight, is cancelled for the blocks of a test (R299, R300): what it holds returns, the slots it took without use are wasted, what
is in flight is discarded when it arrives, and pieces that wait for it are issued on their own. -/
def State.cancelData (s : State) (x : Stream) (hit : Nat → Bool) : State :=
  let c := x.cluster
  let per := x.holds.length / x.blocks.length
  let both := x.blocks.zip ((List.range x.blocks.length).map fun i => (x.holds.drop (per * i)).take per)
  let gone := both.filter fun y => hit y.1.1
  let keep := both.filter fun y => !hit y.1.1
  let lost := x.inFlight.filter hit
  let y := { x with blocks := keep.map (·.1), holds := keep.flatMap (·.2), inFlight := x.inFlight.filter fun b => !hit b }
  let s : State := { s with streams := s.streams.map fun z => if z = x then y else z }
  let s := (s.returnAll (gone.flatMap (·.2))).wasteSlots c (3 * (gone.filter fun y => y.1.2.2 ≠ 0).length + lost.length)
  let s : State := { s with outstanding := s.outstanding.map fun o =>
    if o.prefetch && !o.answered && o.window = x.window && o.ctx = x.requester && lost.contains o.addr then
      { o with answered := true, cancelled := true, endedAt := s.now } else o }
  lost.foldl (fun (s : State) b => s.issueWaiting x.window x.requester b) s

/-- Prefetch streams end: their data is cancelled and their stamps ended (R299, Table 11-5). -/
def State.cancelStreams (s : State) (p : Stream → Bool) : State :=
  (s.streams.filter p).foldl (fun (s : State) x =>
    let s := s.cancelData x fun _ => true
    let s := State.endLive { s with streams := s.streams.filter fun y => !(y.window = x.window && y.requester = x.requester) } x.stamp
    if s.streams.any fun y => y.window = x.window then s else s.setFlag (WIN_STATE.STREAM x.window) false) s

/-- The prefetch data that a write overlaps is cancelled: same cluster, same TARGET (R299). The write is given by its runs of bytes. -/
def State.cancelOverlap (s : State) (c target : Nat) (runs : List (Nat × Nat)) : State :=
  (s.streams.filter fun x => x.cluster = c && (s.window x.window).target = target).foldl (fun (s : State) x =>
    s.cancelData x fun b => runs.any fun r => decide (r.1 < b + 256) && decide (b < r.1 + r.2)) s

/-- The bytes that packets write. -/
def runsOf (pkts : List Packet) : List (Nat × Nat) := pkts.map fun k => (k.addr, k.len)

/-- The stream of a requester in a window. -/
def State.stream (s : State) (w requester : Nat) : Option Stream := s.streams.find? fun x => x.window = w && x.requester = requester

/-- Pieces served from held prefetch data, or waiting for a block in flight (R298). A piece without bytes is issued in the usual way. -/
def servePiece (st : Option Stream) (k : Packet) : Piece :=
  let base := k.addr - k.addr % 256
  let whole := decide (0 < k.len) && decide (k.addr + k.len ≤ base + 256)
  match st with
  | none => { tag := 0, addr := k.addr, len := k.len }
  | some x => match x.blocks.find? fun b => b.1 = base && whole with
    | some b => { tag := 0, addr := k.addr, len := k.len, status := some 0, data := (b.2.1.drop (k.addr - base)).take k.len }
    | none => { tag := 0, addr := k.addr, len := k.len, waits := whole && x.inFlight.contains base }

/-- Demand pieces use held prefetch data: the blocks they take from no longer expire, and a block read to its end leaves the store (R298,
R299, R415). Each block holds the three units its Read took. The last part is how many blocks are used for the first time. -/
def usePieces (ks : List Packet) (x : Stream) : Stream × List Hold × Nat :=
  let used (b : Nat × List Byte × Nat) : Bool := ks.any fun k => decide (b.1 ≤ k.addr) && decide (k.addr + k.len ≤ b.1 + 256)
  let ended (b : Nat × List Byte × Nat) : Bool := ks.any fun k => decide (b.1 ≤ k.addr) && k.addr + k.len = b.1 + 256
  let per := x.holds.length / x.blocks.length
  let units := (List.range x.blocks.length).map fun i => (x.holds.drop (per * i)).take per
  let both := x.blocks.zip units
  let keep := both.filter fun y => !ended y.1
  let gone := both.filter fun y => ended y.1
  ({ x with blocks := keep.map fun y => if used y.1 then (y.1.1, y.1.2.1, 0) else y.1, holds := keep.flatMap (·.2) }, gone.flatMap (·.2),
   (x.blocks.filter fun b => used b && decide (b.2.2 ≠ 0)).length)

/-- The stream of a requester in a window gives data to demand pieces; the three slots that each block took are then retired (R640). -/
def State.useStream (s : State) (w requester : Nat) (ks : List Packet) : State :=
  match s.stream w requester with
  | none => s
  | some x =>
    let (y, back, fresh) := usePieces (ks.filter fun k => decide (0 < k.len)) x
    (State.returnAll { s with streams := s.streams.map fun z => if z.window = w && z.requester = requester then y else z } back).settleSlots x.cluster 0 (3 * fresh)

/-- The aligned blocks that cover the 2^(v+7) bytes from byte `fin`, where a demand read ends (R296). -/
def prefetchBlocks (fin depth limit : Nat) (have_ : List Nat) : List Nat :=
  let first := fin / 256
  ((List.range ((fin + 2 ^ (depth + 7) - 1) / 256 + 1 - first)).map fun i => 256 * (first + i)).filter fun b =>
    decide (b + 255 ≤ limit) && !have_.contains b

/-- The queues whose head is held: what stands in the others has not been evaluated yet. -/
def State.onlyHeld (s : State) : State :=
  { s with ingress := s.ingress.filter fun x => match x.2 with
      | q :: _ => decide (q.cause ≠ 0)
      | [] => false }

/-- One prefetch Read is issued when the sluice admits it at once in class Bulk, a tag is free and partition 0x0D has room (R297); one that the access check
refuses is gone, with its violation record. -/
def State.prefetchOne (s : State) (p : Nat) (w : Window) (part requester addr : Nat) : State :=
  let d := portDie p
  let hold : Hold := ⟨dieLedger d 13, 8⟩
  let k : Packet := { ptype := 1, vc := 1, cls := 2, dest := w.target, src := s.fabricId p, window := w.n, partition := part, addr := addr
                      len := 256, fbe := 0xFF, lbe := 0xFF, reqFn := if s.isPd p then requester % 256 else 0 }
  let (s', id) := s.newId
  let q : Queued := { id := id, pkts := [k], requester := id, order := id, received := s.now }
  let o : Outstanding :=
    { id := id, port := p, ptype := 1, cls := 2, window := w.n, partition := part, dest := w.target, addr := addr, received := s.now
      prefetch := true, ctx := requester, pieces := [{ tag := 0, addr := addr, len := 256 }] }
  let t := { s' with outstanding := s'.outstanding ++ [o] }
  if !s.gateOpen p || !s.basinPresent d 13 || !s.roomSum [hold] then s
  -- requests that have only come in, such as the demand read itself, hold nothing back
  else match t.onlyHeld.evaluate (ingressKey p 15) q false with
    | .go =>
      let t := t.setIngress (ingressKey p 15) [q]
      let t := t.takeIn (ingressKey p 15) q false
      if !(t.outstanding.any fun x => x.id = id) then t
      else
      let t := ((t.issueAll [hold]).countCl (portCluster p) 0x18 1 fun _ => true).deferSlots (portCluster p) false 1
      { t with outstanding := t.outstanding.map fun x => if x.id = id then { x with holds := x.holds ++ [hold] } else x
               streams := t.streams.map fun x => if x.window = w.n && x.requester = requester then { x with inFlight := x.inFlight ++ [addr] } else x }
    | _ => s

/-- A demand read starts or moves its stream and prefetches ahead of it (R296); `fin` is the byte after its last, 0 for a read of none. A new stream replaces the least recently used, by the numbers of the
reads. -/
def State.runAhead (s : State) (p : Nat) (w : Window) (part requester fin : Nat) : State :=
  if w.kind ≠ 0 || !w.sef || w.depth = 0 || fin = 0 then s
  else
    let c := portCluster p
    let old := s.stream w.n requester
    let s : State := match old with
      | some _ => s
      | none =>
        let mine := s.streams.filter fun (x : Stream) => decide (x.cluster = c)
        let s : State := if mine.length < 64 then s
          else match mine.foldl (fun (m : Option Stream) x => match m with | none => some x | some y => if x.used < y.used then some x else m) none with
            | some y => s.cancelStreams fun x => x == y
            | none => s
        { s with streams := s.streams ++ [({ cluster := c, port := p, requester := requester, window := w.n, next := fin, ahead := 0, blocks := [], inFlight := [] } : Stream)] }
    let s := s.setFlag (WIN_STATE.STREAM w.n) true
    let s := { s with streams := s.streams.map fun x => if x.window = w.n && x.requester = requester then { x with used := s.nextId, next := fin } else x }
    let have_ := match s.stream w.n requester with | some x => x.blocks.map (·.1) ++ x.inFlight | none => []
    (prefetchBlocks fin w.depth (w.remote + (w.limit - w.base) + 0xFFF) have_).foldl (fun s b => s.prefetchOne p w part requester b) s

/-- Waiting pieces of a requester's reads take a prefetch block that arrived, or are issued on their own when it failed
(R298, R299). Data of a Read that was cancelled serves none: its pieces have been issued. -/
def State.fillWaiting (s : State) (o : Outstanding) (k : Packet) : State :=
  if o.answered then s
  else if k.status ≠ stOk then s.issueWaiting o.window o.ctx o.addr
  else
    (s.waitingOn o.window o.ctx o.addr).foldl (fun (s : State) x =>
      let n := (x.pieces.filter fun y => y.waitsFor o.addr).length
      let s := s.useStream o.window o.ctx (s.piecePackets x o.addr)
      let take (y : Piece) : Piece := { y with waits := false, status := some 0, data := (k.payload.drop (y.addr - o.addr)).take y.len }
      let x := { x with pieces := x.pieces.map fun y => if y.waitsFor o.addr then take y else y }
      ((s.setOutstanding x).progress x.id k).countCl (portCluster x.port) 0x19 n fun _ => true) s

/-! ### Requests at PU and PD ports -/

/-- A frame in a barge: header padded to whole elements, then the data (R207). -/
def bargePayload (head data : List Byte) : List Byte :=
  let h := (head.length + 7) / 8
  head ++ List.replicate (8 * h - head.length) 0 ++ data

/-- The header of a TLP that entered at a port, in Flit-mode form (R207, R292). -/
def State.flitHead (s : State) (p : Nat) (t : Tlp) : List Byte := if s.flag (PORT_PCIE.FLIT p) then t.header else Config.flitForm t.header

/-- A barge for a TLP through a tunnel window, or for a message, in Flit-mode form (R207, R292). -/
def State.bargeOf (s : State) (p : Nat) (t : Tlp) (dest cls part kind : Nat) (w : Option Window) : Packet :=
  let head := s.flitHead p t
  let load := bargePayload head t.data
  let rebase := match w with | some x => x.rebase | none => false
  { ptype := 0xB, vc := match t.kind with | .completion _ => 2 | _ => if t.nonPosted then 1 else 0
    cls := cls, dest := dest, src := s.fabricId p, poison := t.poison, ro := t.ro, ido := t.ido, ns := t.ns
    reqFn := if s.isPd p then t.reqId % 256 else 0, len := load.length
    sub := (if rebase then 128 else 0) + 16 * kind + (head.length + 7) / 8
    window := match w with | some x => x.n | none => 0
    noWin := w.isNone
    addr := match w with | some x => if x.rebase then (x.remote + 2 ^ 64 - x.base) % 2 ^ 64 else 0 | none => 0
    partition := part, payload := load }

/-- A request waits in its port's ingress buffer with its outstanding record when it is non-posted (R369, R392). -/
def State.accept (s : State) (p : Nat) (t : Tlp) (pkts : List Packet) (o : Option Outstanding) (id : Nat) : State :=
  let s := match o with | some x => { s with outstanding := s.outstanding ++ [x] } | none => s
  if pkts.isEmpty then s
  else s.enqueue (ingressKey p (if t.nonPosted then 1 else 0))
    { id := id, pkts := pkts, holds := State.ingressHolds p t, received := s.now, requester := match o with | some _ => id | none => 0, order := id }

/-- The bindings behind the vDSP that a window of a partition belongs to: a window that follows a BAR names its vDSP, any other may stand for every vDSP of
its TARGET (R236, R249, log entry 76). -/
def State.windowBinds (s : State) (part : Nat) (w : Window) : List BindRec :=
  let bs := s.bindingsTo part w.target
  if w.follow then bs.filter fun b => b.vdsp = getBits w.attr 12 5 else bs

/-- AtomicOp Egress Blocking of the vDSP that leads to the functions of a request's own partition stops every Atomic but its own host's (R330, log entry 76). -/
def State.atomicBlocked (s : State) (p part : Nat) (w : Window) : Bool :=
  (s.windowBinds part w).any fun b => match s.partitionPu b.partition with
    | some q => q ≠ p && (s.vport q (vdspFn b.vdsp)).atomicBlock
    | none => false

/-- A memory request decoded to a Translate or Engine window (R268, R271 to R281, R282, R283). -/
def State.translate (s : State) (p : Nat) (t : Tlp) (w : Window) (part : Nat) : State :=
  let a := t.firstByte
  let target := w.remote + (a - w.base) - (a - t.addr)
  let offs := t.enabledOffsets
  let (s, id) := s.newId
  let base (ptype : Nat) : Outstanding :=
    { id := id, port := p, tlp := some t, ptype := ptype, cls := w.cls, window := w.n, partition := part
      dest := (s.template p t w part ptype).dest, addr := a, received := s.now, tgt := target, element := w.element }
  match t.kind with
  | .memWrite =>
    let ack := w.acknowledged || s.flag (WIN_STATE.ESCALATED w.n)
    let pkts := piecesOf (s.template p t w part (if ack then 3 else 2)) w target offs t.data true
    let s := s.cancelOverlap (portCluster p) w.target (runsOf pkts)
    if ack then
      s.accept p t pkts (if pkts.isEmpty then none else
        some { base 3 with asWrite := true, pieces := pkts.map fun k => { tag := 0, addr := k.addr, len := k.len } }) id
    else
      let (s, pkts) := s.postedTags p t.reqId pkts
      s.accept p t pkts none id
  | .memRead =>
    let pkts := piecesOf (s.template p t w part 1) w target offs [] false
    let ps := pkts.map (servePiece (s.stream w.n t.reqId))
    let s := (s.useStream w.n t.reqId pkts).countCl (portCluster p) 0x19 (ps.filter fun x => x.status.isSome).length fun _ => true
    let left := (pkts.zip ps).filterMap fun x => if x.2.status.isNone && !x.2.waits then some x.1 else none
    let o := { base 1 with pieces := ps, admitted := left.isEmpty }
    let s := s.accept p t left (some o) id
    let s := if left.isEmpty then s.progress id (s.answerHere p w.cls) else s
    s.runAhead p w part t.reqId (match offs.getLast? with | some i => target + i + 1 | none => 0)
  | _ =>
    let sub := t.kind.atomicSub
    let size := atomicSize sub t.data.length
    match atomicOperands w size t.data with
    | none => s.unsupported p t
    | some d =>
      let k := { s.template p t w part 4 with sub := sub, addr := target, len := d.length, payload := d
                                              fbe := (elementEnables target d.length).1, lbe := (elementEnables target d.length).2 }
      if s.atomicBlocked p part w then s.unsupported p t
      else s.accept p t [k] (some { base 4 with pieces := [{ tag := 0, addr := target, len := size }], element := w.element }) id

/-- A device's write to an event-source window becomes an MSI-X Event (R304). -/
def State.msixFromDevice (s : State) (p : Nat) (t : Tlp) (w : Window) (part : Nat) : State :=
  if t.len ≠ 4 || t.firstBe % 16 = 0 then s.logAer p aerUnsupported (some t)
  else
    let data := leNat ((List.range 4).map fun i => if t.firstBe.testBit i then t.data.getD i 0 else 0)
    let vector := (t.firstByte - w.base) / 2 ^ (w.depth + 2)
    let (s, id) := s.newId
    s.accept p t [{ ptype := 8, vc := 0, cls := w.cls, dest := w.target, src := s.fabricId p, tag := t.reqId % 256, reqFn := t.reqId % 256
                    sub := 1, window := w.n, partition := part, addr := vector % 65536 * 2 ^ 32 + data, ro := t.ro, ido := t.ido, ns := t.ns, poison := t.poison }] none id

/-- A request decoded to no window (R267). -/
def State.noMatch (s : State) (p : Nat) (t : Tlp) : State :=
  let s := s.bump (WIN_TRACK.NO_MATCH (portCluster p))
  let s := s.raise (srcTxn p) 6 { request := true, addr := t.firstByte, src := s.fabricId p, tag := t.tag, port := some p }
  s.unsupported p t

/-- What the emulation lets through: Memory Space Enable and a partition's contained view at a PU port, Bus Master Enable at a PD port
(R236, R249). The answer it gives, if it stops the request. -/
def State.virtStop (s : State) (p part : Nat) (w : Window) (fn : Nat) : Option Nat :=
  if s.isPu p then
    let bs := s.windowBinds part w
    if !bs.isEmpty && bs.all fun b => (s.vport p (vdspFn b.vdsp)).view then some stContained
    else if !bs.isEmpty && bs.all fun b => !s.memSpace p b.vdsp then some stNotMapped
    else none
  else match s.bindingOf (s.fabricId p) fn (some part), s.partitionPu part with
    | some b, some q => if w.target = s.fabricId q && !s.busMaster q b.vdsp then some stNotMapped else none
    | _, _ => none

/-- The requester ID of a TLP from a device is that of a function on bus 1 that the device has (R227). -/
def State.sourceValid (s : State) (p : Nat) (t : Tlp) : Bool := t.reqId / 256 = 1 && (s.deviceOf (s.fabricId p)).has (t.reqId % 256)

/-- The partition of a request at a PU or PD port (R265): at a PD port its requester ID must be that of a function on bus 1 that the device has and that is bound
(Table 05-7, R227). -/
def State.requestPartition (s : State) (p : Nat) (t : Tlp) : Option Nat :=
  if s.isPu p then s.puPartition p
  else if !s.sourceValid p t then none
  else (s.bindingOf (s.fabricId p) (t.reqId % 256) none).map (·.partition)

/-- A link enters L2/L3 Ready: PME_TO_Ack, message code 0x1B, has passed on it in L0 (R217, Table 05-8, log entry 77). -/
def State.readyL23 (s : State) (p : Nat) : State := if s.get (PORT_PCIE.LINK_STATE p) = 3 then s.set (PORT_PCIE.LINK_STATE p) 8 else s

/-- A memory request enters a PU or PD ingress (R265 to R269, R443, Table 05-2). -/
def State.receiveRequest (s : State) (p : Nat) (t : Tlp) : State :=
  let s := if t.poison then (s.raise (srcTxn p) 4 { port := some p }).logAer p aerPoisoned (some t) else s
  match t.kind with
  | .ioRead | .ioWrite | .deferrableWrite | .other => s.unsupported p t
  | .message c => if c = 0x1B && s.isPd p then s.readyL23 p else s.logAer p aerUnsupported (some t)
  | .vendorMessage => s.logAer p aerUnsupported (some t)
  | .ide => s.logAer p aerMalformed (some t)
  | .completion _ | .cfgRead _ | .cfgWrite _ => s
  | .memReadLock => if s.isPd p then s.unsupported p t else s
  | .memRead | .memWrite | .fetchAdd | .swap | .cas =>
    if t.at_ ≠ 0 then
      let s := if s.isPd p then (s.raise (srcTxn p) 7 { port := some p }).logAer p aerAcs (some t) else s
      s.unsupported p t
    else match s.requestPartition p t with
      | none =>
        let s := if s.isPd p then (s.raise (srcTxn p) 7 { port := some p }).logAer p aerAcs (some t) else s
        s.unsupported p t
      | some part =>
        match s.decodeWindow (portCluster p) (if s.isPu p then .pu else .pd) part t.firstByte with
        | none => s.noMatch p t
        | some w =>
          match s.virtStop p part w (t.reqId % 256) with
          | some st =>
            if t.nonPosted then s.answerTlp p t st
            else if st = stNotMapped then s.logAer p aerUnsupported (some t)
            else
              let (s, ks) := s.postedTags p t.reqId (piecesOf (s.template p t w part 2) w (w.remote + (t.addr - w.base)) t.enabledOffsets t.data true)
              ks.foldl (fun s k => s.lose k st (s.fabricId p)) s
          | none =>
            if w.kind = 0 || w.kind = 4 then s.translate p t w part
            else if w.kind = 1 then
              let (s, id) := s.newId
              let k := s.bargeOf p t w.target w.cls part 1 (some w)
              if t.nonPosted then
                s.accept p t [k] (some { id := id, port := p, tlp := some t, ptype := 0xB, cls := w.cls, window := w.n, partition := part
                                         dest := w.target, addr := t.firstByte, received := s.now, tgt := k.addr
                                         pieces := [{ tag := 0, addr := k.addr, len := if t.kind = .memRead then t.len else 0 }] }) id
              else
                -- its destination bytes at the same TARGET (R299)
                let dst := if w.rebase then w.remote + (t.addr - w.base) else t.addr
                let s := s.cancelOverlap (portCluster p) w.target (match t.enabledOffsets.head?, t.enabledOffsets.getLast? with
                  | some a, some b => [(dst + a, b + 1 - a)]
                  | _, _ => [])
                let (s, ks) := s.postedTags p t.reqId [k]
                s.accept p t ks none id
            else if t.kind = .memWrite then s.msixFromDevice p t w part
            else s.unsupported p t

/-! ### Burek-native requests at a BF port's own ID (R265 to R267, R270) -/

/-- What a packet holds in a BF port's ingress buffer. -/
def bfHolds (p : Nat) (k : Packet) : List Hold := [⟨portLedger p 0, k.credits⟩, ⟨portLedger p (14 + k.pair), k.credits⟩]

/-- A packet of a Burek source that cannot be taken is answered, or dropped when it is posted (R267, R270, R442). -/
def State.refuseNative (s : State) (c : Nat) (k : Packet) (status : Nat) : State :=
  if k.nonPosted then s.complete c k status [] false else s

/-- A request for a BF port's own fabric ID, accepted at a time, is decoded against the windows with SRC_KIND 1 (R270); its surrogate timer runs from that time (R392). -/
def State.receiveNative (s : State) (p : Nat) (k : Packet) (at_ : Nat) : State :=
  let c := portCluster p
  if !(k.ptype = 1 || k.ptype = 2 || k.ptype = 3 || k.ptype = 4) then (s.refuseNative c k stNotMapped).returnLinkCredits p k
  else match s.decodeWindow c .bf k.partition k.addr with
    | none =>
      let s := s.bump (WIN_TRACK.NO_MATCH c)
      let s := s.raise (srcTxn p) 6 { request := true, addr := k.addr, src := k.src, tag := k.tag, port := some p }
      (s.refuseNative c k stNotMapped).returnLinkCredits p k
    | some w =>
      let target := w.remote + (k.addr - w.base)
      let ack := w.acknowledged || s.flag (WIN_STATE.ESCALATED w.n)
      let isW := k.ptype = 2 || k.ptype = 3
      let ty := if isW then (if ack || k.ptype = 3 then 3 else 2) else k.ptype
      let tmpl : Packet :=
        { k with ptype := ty, vc := vcOfType ty, cls := w.cls, dest := if w.kind = 4 then s.fabricId (w.target % 1024) else w.target
                 src := s.fabricId p, window := w.n, noWin := false, partition := k.partition, hops := 0, reqFn := 0 }
      let (s, id) := s.newId
      let made := if k.ptype = 4 then
          (match atomicOperands w (atomicSize k.sub k.len) k.payload with
           | some d => if s.atomicBlocked p k.partition w then none else some [{ tmpl with addr := target, payload := d }]
           | none => none)
        else some (piecesOf tmpl w target (List.range k.len) k.payload isW)
      match made with
      | none => (s.refuseNative c k stNotMapped).returnLinkCredits p k
      | some pkts =>
        let s := if isW then s.cancelOverlap c w.target (runsOf pkts) else s
        let o : Outstanding :=
          { id := id, port := p, native := some k, ptype := ty, cls := w.cls, window := w.n, partition := k.partition, dest := tmpl.dest
            addr := k.addr, received := at_, tgt := target, element := w.element, asWrite := isW && ack
            pieces := pkts.map fun x =>
              if k.ptype = 1 then servePiece (s.stream w.n k.src) x
              else { tag := 0, addr := x.addr, len := if k.ptype = 4 then atomicSize k.sub k.len else x.len } }
        let s := if k.ptype = 1 then
            (s.useStream w.n k.src pkts).countCl c 0x19 (o.pieces.filter fun x => x.status.isSome).length fun _ => true
          else s
        let left := (pkts.zip o.pieces).filterMap fun x => if x.2.status.isNone && !x.2.waits then some x.1 else none
        let np := ty ≠ 2
        let s := if np then { s with outstanding := s.outstanding ++ [{ o with admitted := left.isEmpty }] } else s
        let (s, left) := if np then (s, left) else s.postedTags p 0 left
        let s := if left.isEmpty then
            (s.returnLinkCredits p k).progress id (s.answerHere p w.cls)
          else s.enqueue (ingressKey p k.pair)
            { id := id, pkts := left, holds := bfHolds p k, received := at_, requester := if np then id else 0, order := id }
        if k.ptype = 1 then s.runAhead p w k.partition k.src (if k.len = 0 then 0 else target + k.len) else s

/-! ### Interrupts and messages (R304 to R309, Table 06-5) -/

/-- A posted packet that a PD or PU port itself forms joins the port's posted queue. -/
def State.formPosted (s : State) (p : Nat) (k : Packet) : State :=
  let (s, id) := s.newId
  s.enqueue (ingressKey p 0) { id := id, pkts := [k], received := s.now, order := id }

/-- A function's INTx pin has a level at its PD port. -/
def intxKey (p fn pin : Nat) : Nat := 1024 * p + 4 * fn + pin

/-- The INTx Event of a level (R307). -/
def State.intxEvent (s : State) (p dest part fn pin : Nat) (level : Bool) : Packet :=
  { ptype := 8, vc := 0, cls := 0, dest := dest, src := s.fabricId p, tag := fn, reqFn := fn, sub := 2, noWin := true, partition := part
    addr := pin % 4 + (if level then 4 else 0) }

/-- The Events that a pin's level asks for (R307, R309): level 1 once its binding is presented, level 0 once it is deasserted or its binding is
presented no longer, which counts as deasserted. -/
def State.settlePin (s : State) (k : Nat) : State :=
  let p := k / 1024
  let fn := k % 1024 / 4
  let high := tabGet (fun _ => 0) s.intxLevel k ≠ 0
  match s.intxSent.find? fun x => x.1 = k with
  | some (_, d, part) =>
    if high && (s.bindingOf (s.fabricId p) fn (some part)).isSome then s
    else
      State.formPosted { s with intxSent := s.intxSent.filter fun x => x.1 ≠ k, intxLevel := tabPut (fun _ => 0) s.intxLevel k 0 } p
        (s.intxEvent p d part fn (k % 4) false)
  | none =>
    if !high then s
    else match s.bindingOf (s.fabricId p) fn none with
      | none => s
      | some b => match s.puOf b.partition with
        | some d => State.formPosted { s with intxSent := s.intxSent ++ [(k, d, b.partition)] } p (s.intxEvent p d b.partition fn (k % 4) true)
        | none => s

/-- Every pin that is asserted, or whose assertion was sent, is settled after bindings begin or cease to be presented (R307, R309). -/
def State.settlePins (s : State) : State :=
  (s.intxLevel.map (·.1) ++ s.intxSent.map (·.1)).eraseDups.foldl (fun s k => s.settlePin k) s

/-- An INTx message at a PD port (R307): a change of level acts, and a message of a function that is bound to no partition sets its cause. -/
def State.intxFromDevice (s : State) (p pin fn : Nat) (level : Bool) : State :=
  let k := intxKey p fn (pin % 4)
  match s.anyBindingOf (s.fabricId p) fn with
  | none => s.raise (srcPcie p) 11 { port := some p }
  | some _ =>
    if (tabGet (fun _ => 0) s.intxLevel k ≠ 0) = level then s
    else State.settlePin { s with intxLevel := tabPut (fun _ => 0) s.intxLevel k (if level then 1 else 0) } k

/-- Every asserted pin of the functions of a PD port that satisfy a test is treated as deasserted (R309). -/
def State.deassertPins (s : State) (p : Nat) (f : Nat → Bool) : State :=
  (s.intxLevel.filter fun x => x.1 / 1024 = p && f (x.1 % 1024 / 4)).foldl
    (fun s x => State.settlePin { s with intxLevel := tabPut (fun _ => 0) s.intxLevel x.1 0 } x.1) s

/-- An INTx Event acts on the counts of a PU port's pins, and the vUSP sends the message (R308). Message codes 0x20 and 0x24 begin Assert and Deassert_INTx. -/
def State.intxAtHost (s : State) (p : Nat) (k : Packet) : State :=
  match s.bindingOf k.src k.reqFn (s.puPartition p) with
  | none => s.raise (srcPcie p) 11 { port := some p }
  | some b =>
    let pin := (k.addr % 4 + b.vdsp) % 4
    let n := tabGet (fun _ => 0) s.intxCount (4 * p + pin)
    let level := k.addr.testBit 2
    let n' := if level then n + 1 else n - 1
    let s := { s with intxCount := tabPut (fun _ => 0) s.intxCount (4 * p + pin) n' }
    if n = 0 && level then s.sendTlp p { kind := .message (0x20 + pin), reqId := s.emulatedRid p 0 }
    else if n = 1 && !level then s.sendTlp p { kind := .message (0x24 + pin), reqId := s.emulatedRid p 0 }
    else s

/-- An MSI-X Event at a PU port becomes a host memory write (R305). -/
def State.msixAtHost (s : State) (p : Nat) (k : Packet) : State :=
  match s.landWindow (portCluster p) k.partition with
  | none => s.raise (srcSlice (1024 * portCluster p)) 4
  | some w =>
    let req := match s.bindingOf k.src (k.tag % 256) (s.puPartition p) with
      | some b => s.hostRid p b (k.tag % 256)
      | none => 0
    s.sendTlp p { kind := .memWrite, addr := w.vectorAddr k, len := 4, firstBe := 15, lastBe := 0
                  reqId := req, data := leBytes 4 k.addr, ro := k.ro, ido := k.ido, ns := k.ns, poison := k.poison }

/-- A device's error message forms an ERR-MSG Event, and the PD port's error event (R254). -/
def State.errorFromDevice (s : State) (p severity fn : Nat) : State :=
  let s := match s.anyBindingOf (s.fabricId p) fn with
    | none => s.raise (srcPcie p) 11 { port := some p }
    | some b => match s.puOf b.partition with
      | some d => s.formPosted p { ptype := 8, vc := 0, cls := 0, dest := d, src := s.fabricId p, reqFn := fn, tag := fn, sub := 6, noWin := true
                                   partition := b.partition, addr := severity % 4 }
      | none => s
  s.raiseMask (srcPcie p) (2 ^ severity + 2 ^ 10) { port := some p }

/-- An ERR-MSG Event at a PU port is forwarded on the partition's link with the host routing ID (R254). Message codes 0x30, 0x31 and
0x33 are ERR_COR, ERR_NONFATAL and ERR_FATAL. -/
def State.errorAtHost (s : State) (p : Nat) (k : Packet) : State :=
  match s.bindingOf k.src k.reqFn (s.puPartition p) with
  | none => s.raise (srcPcie p) 11 { port := some p }
  | some b => s.sendTlp p { kind := .message (if k.addr % 4 = 2 then 0x33 else 0x30 + k.addr % 4), reqId := s.hostRid p b k.reqFn }

/-- A vendor-defined message (Table 06-5). Type 0 is message code 0x7E and Type 1 is 0x7F. -/
def State.vendorMessage (s : State) (p : Nat) (t : Tlp) : State :=
  if s.isPd p then
    match if s.sourceValid p t then s.anyBindingOf (s.fabricId p) (t.reqId % 256) else none with
    | none => s.raise (srcPcie p) 11 { port := some p }
    | some b => match s.puOf b.partition with
      | some d => s.formPosted p (s.bargeOf p t d 1 b.partition 2 none)
      | none => s
  else if t.at_ = 2 then
    let part := (s.puPartition p).getD 0
    let hit := s.indexedBinds.find? fun x => x.2.partition = part && s.presented x.1 && s.secondaryBus p (vdspFn x.2.vdsp) = t.target / 256 &&
      (s.functionsOf x.2).any fun f => s.hostFn x.2 f = t.target % 256
    match hit with
    | some (_, b) => s.formPosted p (s.bargeOf p t b.target 1 part 2 none)
    | none => s.logAer p aerUnsupported (some t)
  else if t.kind = .message 0x7F then s
  else s.logAer p aerUnsupported (some t)

end Sys2Proof.Machine
end

