-- ==== Sys2Proof/Machine/Commit.lean ====
section
/-! DEFINITION. Changes of the access-control table: staging and commits (R499 to R503, R509), which end the prefetch data of their die, and the rule-epoch fence
(R510 to R513). -/

namespace Sys2Proof.Machine

/-! ### Staging and commits (R499 to R503) -/

/-- The staging buffer of a master for die d (R499): in-band masters share one. -/
def stagingKey (d : Nat) : Master → Nat
  | .cp n => 16 * d + n
  | .keeper k => 16 * d + 2 + k
  | .debug => 16 * d + 10
  | .inband _ _ => 16 * d + 11
  | .lead => 16 * d + 12

/-- What a master has staged for die d. -/
def State.staged' (s : State) (d : Nat) (m : Master) : TollStaging := tabGet (fun _ => {}) s.staging (stagingKey d m)

/-- Replace what a master has staged. -/
def State.setStaged (s : State) (d : Nat) (m : Master) (x : TollStaging) : State :=
  { s with staging := tabPut (fun _ => {}) s.staging (stagingKey d m) x }

/-- The in-band master that holds die d's shared buffer; 0 when none does (fabric ID + 1 otherwise). -/
def State.stageHeldBy (s : State) (d : Nat) : Nat := tabGet (fun _ => 0) s.stageHolder d

/-- Free die d's shared in-band buffer (R499). -/
def State.freeStaging (s : State) (d : Nat) : State :=
  { s with stageHolder := tabPut (fun _ => 0) s.stageHolder d 0
           staging := tabPut (fun _ => {}) s.staging (16 * d + 11) {} }

/-- A write to word 0, 1 or 2 of entry i by a master is staged; MSTAT 0x1 to an in-band master while another holds the shared
buffer (R499). -/
def State.tollStage (s : State) (m : Master) (d i w : Nat) (v : Nat) : State × Nat :=
  let taken := match m with
    | .inband id _ => s.stageHeldBy d ≠ 0 && s.stageHeldBy d ≠ id + 1
    | _ => false
  if taken then (s.bump (TOLL_CTL.REFUSED d), 1)
  else
    let s := match m with
      | .inband id _ => { s with stageHolder := tabPut (fun _ => 0) s.stageHolder d (id + 1) }
      | _ => s
    let x := s.staged' d m
    let x := if w = 0 then { x with word0 := some (i, v) } else if w = 1 then { x with word1 := some (i, v) } else { x with word2 := some (i, v) }
    (s.setStaged d m x, 0)

/-- The staging buffer empties at a commit; the shared one is freed (R499, R500). -/
def State.emptyStaging (s : State) (m : Master) (d : Nat) : State :=
  match m with
  | .inband _ _ => s.freeStaging d
  | _ => s.setStaged d m {}

/-- Write the words of an entry, as the injection of its checker affects them (R478, checker 0x0A). -/
def State.writeEntry (s : State) (d i : Nat) (ws : List Nat) : State :=
  (List.range 4).foldl (fun (s : State) k =>
    (s.writeWord d 0x0A 0 (TOLL.addr d i k)).wr (TOLL.addr d i k) (BitVec.ofNat 64 (ws.getD k 0))) s

/-- A commit takes effect: the entry changes, the epoch advances, prefetch data of the die is cancelled (R500, R502, R504). -/
def State.applyCommit (s : State) (d i : Nat) (ws : List Nat) : State :=
  let was := (s.toll d i).locked
  let s := (s.writeEntry d i ws).countDie d 0x09 1 fun _ => true
  let s := if (s.toll d i).locked && !was then s.bump (TOLL_CTL.LOCKED_COUNT d) else s
  let s := s.set (TOLL_CTL.EPOCH d) ((s.epoch d + 1) % 256)
  let s := s.cancelStreams fun x => clusterDie x.cluster = d
  s.raise (srcDie d 11) 0

/-- A commit that may not advance the epoch yet waits in arrival order (R509). -/
def State.commitOrWait (s : State) (d i : Nat) (ws : List Nat) : State :=
  if s.liveAt d ((s.epoch d + 1) % 256) ≠ 0 || s.commits.any fun c => c.die = d then
    State.setFlag { s with commits := s.commits ++ [{ die := d, entry := i, words := ws }] } (TOLL_CTL.COMMIT_WAIT d) true
  else s.applyCommit d i ws

/-- A write to word 3 of entry i commits what the master staged for it, or is refused (R500 to R502). -/
def State.tollCommit (s : State) (m : Master) (d i v : Nat) : State :=
  let x := s.staged' d m
  let mine := match m with | .inband id _ => decide (s.stageHeldBy d = id + 1) | _ => true
  let word (o : Option (Nat × Nat)) (k : Nat) : Nat := match o with
    | some (j, n) => if mine && j = i then n else (s.tollWord d i k).toNat
    | none => (s.tollWord d i k).toNat
  let ws := [word x.word0 0, word x.word1 1, word x.word2 2, v]
  let e := tollEntry (BitVec.ofNat 64 (ws.getD 0 0)) (BitVec.ofNat 64 (ws.getD 1 0)) (BitVec.ofNat 64 (ws.getD 2 0)) (BitVec.ofNat 64 v)
  let ws := if e.valid then ws else [0, 0, 0, 0]
  let foreign := match m with
    | .inband id _ => s.stageHeldBy d ≠ 0 && s.stageHeldBy d ≠ id + 1
    | _ => false
  let refused := (s.toll d i).locked || (e.valid && !e.inRange) || decide (s.mode < 4) || s.mode = 11
  let s := if foreign then s else s.emptyStaging m d
  if refused then s.bump (TOLL_CTL.REFUSED d) else s.commitOrWait d i ws

/-- The first waiting commit of die d takes effect when its epoch value has no live access (R509). It is refused then if the commits before it have locked its
entry, or in M11 (R501, R502). -/
def State.releaseCommit (s : State) (d : Nat) : State :=
  match s.commits.find? fun c => c.die = d with
  | none => s
  | some c =>
    if s.liveAt d ((s.epoch d + 1) % 256) ≠ 0 then s
    else
      let s := { s with commits := s.commits.eraseP fun x => x.die = d }
      let s := if (s.toll d c.entry).locked || s.mode = 11 then s.bump (TOLL_CTL.REFUSED d) else s.applyCommit d c.entry c.words
      if s.commits.any fun x => x.die = d then s else s.setFlag (TOLL_CTL.COMMIT_WAIT d) false

/-! ### The rule-epoch fence (R510 to R513) -/

/-- The snapshot field of die d. -/
def snapField (d : Nat) : FieldRef :=
  if d = 0 then TOLL_FENCE.SNAP_D0 else if d = 1 then TOLL_FENCE.SNAP_D1 else if d = 2 then TOLL_FENCE.SNAP_D2 else TOLL_FENCE.SNAP_D3

/-- GO in TOLL_FENCE: a snapshot of the epoch of every healthy die starts a fence (R510, R512). -/
def State.fenceGo (s : State) : State :=
  let s := s.bump TOLL_FENCE.FENCE_COUNT
  let s := if s.flag TOLL_FENCE.BUSY then s else { s with fenceStart := s.now }
  s.healthyDies.foldl (fun s d => s.set (snapField d) (s.epoch d)) (s.setFlag TOLL_FENCE.BUSY true)

/-- The age of a stamp (R510). -/
def State.age (s : State) (d e : Nat) : Nat := (s.epoch d + 256 - e) % 256

/-- No live access of die d is older than its snapshot (R510). -/
def State.fenceClear (s : State) (d : Nat) : Bool :=
  (List.range 256).all fun e => !(decide (s.age d (s.get (snapField d)) < s.age d e) && decide (0 < s.liveAt d e))

/-- Every healthy die passes the test of the fence. -/
def State.fenceDone (s : State) : Bool := s.healthyDies.all s.fenceClear

/-- The fence completes: BUSY clears, LAST_US is the duration in µs rounded up, cause 1 of die source 11 of every healthy die
(R510). -/
def State.fenceComplete (s : State) : State :=
  if s.flag TOLL_FENCE.BUSY && s.fenceDone then
    let s := s.setFlag TOLL_FENCE.BUSY false
    let s := s.set TOLL_FENCE.LAST_US (min (ceilDiv (s.now - s.fenceStart) 16000) (2 ^ 22 - 1))
    s.healthyDies.foldl (fun s d => s.raise (srcDie d 11) 1) s
  else s

end Sys2Proof.Machine
end

