-- ==== Sys2Proof/Machine/Near.lean ====
section
/-! DEFINITION. Completions for requests of this package (R320, R336, R343, R350, R378, R394): how they go to the cluster of their requester, and what they
come to there, the answers of a locked read among them. -/

namespace Sys2Proof.Machine

/-! ### Answers of a locked read -/

/-- A locked read has its answer: the list no longer names it. -/
def State.endLocked (s : State) (id : Nat) : State := { s with lockWait := s.lockWait.filter fun x => x.id ≠ id }

/-- The Completion that grants a Lock, or that ends it with a failure, reaches the near package (R336, R343, R498). -/
def State.lockGranted (s : State) (k : Packet) : State :=
  match s.findPiece k.dest k.tag with
  | none => s
  | some o =>
    if o.ptype ≠ 5 || o.answered then s.completionArrives k
    else
      let st := s.get PKG_LOCK.STATE
      let s := if k.status = stOk then (if st = 1 then s.set PKG_LOCK.STATE (if o.dest / 1024 = s.rank then 4 else 2) else s)
        else if st = 1 then s.freeLock else s
      -- the slot of the Lock is settled by its answer (R640)
      ((s.settleSlots (portCluster o.port) 0 1).endLocked o.id).completionArrives k

/-- A busy answer: STATUS OK with no data and H2 zero, to a Lock (R342). -/
def busyAnswer (k : Packet) : Bool := k.status = stOk && k.len = 0 && k.addr = 0

/-- The wait after the k-th busy answer from a package of rank r (R350, log entry 29): facing a higher rank the round trip of the link toward it, 1 µs and a time
drawn from 0 to 0.5 µs × 2^min(k, 5); facing a lower one a time drawn from 0 to 500 ns; both in steps of 10 ns. The draw is a free value. -/
def State.backoffWait (s : State) (r dest k : Nat) : Nat :=
  if s.rank < r then
    let flight := match s.routeBf s.leadDie dest with
      | some p => (s.link p).flight.getD 0
      | none => 0
    2 * flight + 1000 * ticksPerNs + 10 * ticksPerNs * (s.free % (50 * 2 ^ min k 5 + 1))
  else 10 * ticksPerNs * (s.free % 51)

/-- A busy answer reaches the near package, which backs off; facing a higher rank it yields (R350). -/
def State.lockBusy (s : State) (k : Packet) : State :=
  match s.findPiece k.dest k.tag with
  | none => s
  | some o =>
    if o.ptype ≠ 5 || o.answered then s.completionArrives k
    else
      let s := (s.returnTag o).returnAll o.holds |>.endLive o.stamp
      -- the slots of the Lock and of its busy answer are wasted (R639, R640, event 0x08)
      let s := ((s.countCl (portCluster o.port) 8 2 fun _ => true).settleSlots (portCluster o.port) 1 1).moveSlots (portCluster o.port) true 1 1
      let s := s.setOutstanding { o with admitted := false, holds := [], stamp := none, pieces := o.pieces.map fun x => { x with tag := 2 ^ 14 } }
      let s := State.tookFree { s with lockWait := s.lockWait.map fun x =>
        if x.id = o.id then { x with busy := x.busy + 1, backoff := true, untilTick := s.now + s.backoffWait (o.dest / 1024) o.dest (x.busy + 1) } else x }
      if s.rank < o.dest / 1024 then
        let s := (s.unlockSent o.port o.dest).bump PKG_LOCK.YIELDS
        { s with lockWait := s.lockWait.map fun x => if x.id = o.id then { x with sent := false } else x }
      else s

/-! ### Completions -/

/-- A Completion for a request of this package is taken up there (R378, R394): a locked read's goes to the lock. -/
def State.completionHere (s : State) (k : Packet) : State :=
  match s.findPiece k.dest k.tag with
  | some o =>
    if o.ptype = 5 then (if busyAnswer k then s.lockBusy k else s.lockGranted k)
    else if o.prefetch then
      match o.pieces with
      | x :: _ => (s.prefetchArrives { o with pieces := [{ x with status := some k.status }] } k).fillWaiting o k
      | [] => s
    else s.completionArrives k
  | none => s

/-- A Completion for a request of this package goes from cluster c to the output of the die crossbar at its requester's cluster, behind the writes that it
may not pass (R314, R320, R378). One that answers no request any more, or one that is answered, is taken up at once and discarded (R394, R426). -/
def State.carryNear (s : State) (c : Nat) (k : Packet) (ingress : Nat) : State :=
  match s.findPiece k.dest k.tag with
  | none => s
  | some o =>
    if o.answered then s.completionHere k
    else
      let e := s.egress (clusterDie c) k.dest
      s.sendOn { point := 0, pkt := k, deadline := k.deadline, ingress := ingress } e ((s.pathOut c e).map List.dropLast)

/-- A Completion that is formed at cluster c for a request of this package is stamped and sent. -/
def State.sendNear (s : State) (c : Nat) (k : Packet) : State :=
  let k := { k with deadline := s.stampAnswer (clusterDie c) k }
  (s.noteAnswer k).carryNear c k (k.src % 1024)

end Sys2Proof.Machine
end

