-- ==== Sys2Proof/Machine/Device.lean ====
section
/-! DEFINITION. The PCI Express side of a bridge (R227 to R231, R278, R284, R329, R357, R441): TLPs issued on a PU or PD link, the
completions that come back, and the configuration requests of a PD port's handler engine. -/

namespace Sys2Proof.Machine

/-! ### Items for engines (R70) -/

/-- An engine's item queue has room (R70). -/
def State.itemRoom (s : State) (te : Nat) : Bool := decide ((s.engine te).queue.length < 32)

/-- DESC of an item (Table 01-9). -/
def EngineItem.desc (i : EngineItem) : Nat :=
  i.kind % 16 * 2 ^ 60 + i.payload.length % 4096 * 2 ^ 48 + i.port % 65536 * 2 ^ 32 + i.requester % 65536 * 2 ^ 16 + i.ctx % 65536

/-- What the inbox holds of an item that reached the engine at a time: DESC, TIME, zeros, HEADER padded to 32 bytes, PAYLOAD (Table 01-9). -/
def EngineItem.inbox (i : EngineItem) (time : Nat) : List Byte :=
  leBytes 8 i.desc ++ leBytes 8 time ++ List.replicate 16 0 ++ (i.header ++ List.replicate (32 - i.header.length) 0).take 32 ++ i.payload.take 256

/-- The engine's handler ends: an answer that it still owes is left to its requester's surrogate bound (R73). -/
def Engine.ended (e : Engine) : Engine := if e.reply = .none then e else { e with reply := .none, owed := e.owed ++ [(e.reply, e.since)] }

/-- The engine ends its handler and takes the next item, or waits for one (R70). -/
def State.nextItem (s : State) (te : Nat) : State :=
  let e := (s.engine te).ended
  match e.queue with
  | [] => s.setEngine te { e with run := .waiting, retired := 0 }
  | (i, r, t) :: rest =>
    (s.putEngine te 0x7C00 (i.inbox t)).setEngine te
      { e with queue := rest, run := .running, reply := r, retired := 0, since := t, pc := BitVec.ofNat 12 (i.kind % 16) }

/-- An item joins an engine's queue, and a waiting engine takes it; a halted engine's items are discarded (R70, R73). -/
def State.pushItem (s : State) (te : Nat) (i : EngineItem) (r : ReplyTo) : State :=
  let e := s.engine te
  if e.run = .halted then s
  else
    let s := s.setEngine te { e with queue := e.queue ++ [(i, r, s.now)] }
    if e.run = .waiting then s.nextItem te else s

/-- The handler engine of a PU or PD port (R334). -/
def handlerOf (p : Nat) : Nat := 8 * (p / 4) + 2 * (p % 4)

/-- The handler engine of a port serves items of a kind as the spec states the service of the port handler program that Amiolmob supplies: it is not halted, and its
program memory holds no program of the integrator's own for the kind. DESIGN CHOICE: the supplied program, whose words the spec does not give, stands as entry
words of WAIT (log entry 68). -/
def State.serves (s : State) (p kind : Nat) : Bool :=
  (s.engine (handlerOf p)).run ≠ .halted && tabGet (fun _ => 0) s.program (4096 * handlerOf p + kind) = 0

/-- A request of a PCI Express requester that an item carries stands outstanding at its port until it is answered (R73, R392). -/
def State.oweItem (s : State) (r : ReplyTo) : State :=
  match r with
  | .pcie p tag req config =>
    let (s, id) := s.newId
    { s with outstanding := s.outstanding ++ [
      { id := id, port := p, tlp := some { kind := if config then .cfgRead false else .other, reqId := req, tag := tag, target := req }
        ptype := 0, noWin := true, received := s.now } ] }
  | _ => s

/-- The fast path hands a TLP of a port to a handler engine that holds another program: an item of KIND 3 or 4 (Table 01-10). One that the engine discards or
does not answer is answered at its surrogate bound (R73, R334). At a full item queue the TLP stays on the link (log entry 68). -/
def State.handTlp (s : State) (p kind : Nat) (t : Tlp) (asks : Bool) : State :=
  if (s.engine (handlerOf p)).run ≠ .halted && !s.itemRoom (handlerOf p) then s else
  let r : ReplyTo := if asks then .pcie p t.tag t.reqId (kind = 3) else .none
  (s.oweItem r).pushItem (handlerOf p)
    { kind := kind, port := s.fabricId p, requester := t.reqId, header := if s.flag (PORT_PCIE.FLIT p) then t.header else Config.flitForm t.header, payload := t.data } r

/-- H0 to H3 of a packet as four values (Table 04-5), as a flit and the inbox hold them. -/
def Packet.elements (k : Packet) : List Nat :=
  [k.ptype * 2 ^ 60 + k.vc * 2 ^ 58 + k.cls * 2 ^ 56 + k.dest * 2 ^ 40 + k.src * 2 ^ 24 + k.tag * 2 ^ 10 +
     (if k.poison then 2 ^ 7 else 0) + (if k.ro then 2 ^ 6 else 0) + (if k.ido then 2 ^ 5 else 0) + (if k.ns then 2 ^ 4 else 0) +
     k.reqFn / 16 % 16,
   k.len * 2 ^ 51 + k.status * 2 ^ 48 + k.window * 2 ^ 32 + k.sub * 2 ^ 24 + k.fbe * 2 ^ 16 + k.lbe * 2 ^ 8 +
     (if k.noWin then 2 ^ 7 else 0) + k.reqFn % 16,
   k.addr,
   k.partition * 2 ^ 54 + k.hops * 2 ^ 50 + k.deadline]

/-- The words of a packet as flits and queues hold them: its header, then its payload elements; the payload begins with the element that holds ADDR, or at
element 0 (R200, R201). -/
def Packet.words (k : Packet) : List Word :=
  let first := if k.ptype = 9 || k.ptype = 0xA || k.ptype = 0xB then 0 else k.addr % 8
  let body := List.replicate first (0 : Byte) ++ k.payload ++ List.replicate ((8 - (first + k.len) % 8) % 8) (0 : Byte)
  k.elements.map (BitVec.ofNat 64) ++ (List.range k.payloadElements).map fun i => BitVec.ofNat 64 (beNat ((body.drop (8 * i)).take 8))

/-- Bits of a number. -/
def fieldOf (v lo width : Nat) : Nat := v / 2 ^ lo % 2 ^ width

/-- The packet whose header four elements hold; its payload is not in them. -/
def headerOf (h0 h1 h2 h3 : Nat) : Packet :=
  { ptype := fieldOf h0 60 4, vc := fieldOf h0 58 2, cls := fieldOf h0 56 2, dest := fieldOf h0 40 16, src := fieldOf h0 24 16
    tag := fieldOf h0 10 14, poison := h0.testBit 7, ro := h0.testBit 6, ido := h0.testBit 5, ns := h0.testBit 4
    reqFn := fieldOf h0 0 4 * 16 + fieldOf h1 0 4, len := fieldOf h1 51 13, status := fieldOf h1 48 3, window := fieldOf h1 32 16
    sub := fieldOf h1 24 8, fbe := fieldOf h1 16 8, lbe := fieldOf h1 8 8, noWin := h1.testBit 7, addr := h2
    partition := fieldOf h3 54 10, hops := fieldOf h3 50 4, deadline := fieldOf h3 0 48 }

/-! ### Answers to packets that came from a source -/

/-- The transit record of a non-posted packet that this package carries (R379). -/
def State.transitOf (s : State) (k : Packet) : Option Outstanding :=
  s.outstanding.find? fun o => o.transit && match o.native with
    | some n => n.src = k.src && n.tag = k.tag && n.dest = k.dest
    | none => false

/-- A Burek packet issued at cluster c has its answer: a Completion toward its source, in this package or with the reservation and charge made for it
(R197, R414, R508). Where a reset has taken the reservation back, the answer is discarded (R426). -/
def State.answerTo (s : State) (c : Nat) (k : Packet) (status : Nat) (data : List Byte) (poison : Bool) : State :=
  if k.src / 1024 = s.rank then s.sendNear c (completionFor k status data poison)
  else match s.transitOf k with
    | some o =>
      if o.answered then (s.dropOutstanding o.id).lateAnswer o.port else (s.dropOutstanding o.id).complete c k status data poison o.holds o.stamp
    | none => s.complete c k status data poison

/-- A completion barge that answers a tunnelled frame goes toward the frame's source; the last one takes the reservation and charge made for it
(R208, R294, R414). -/
def State.answerBarge (s : State) (c : Nat) (k b : Packet) (last : Bool) : State :=
  if k.src / 1024 = s.rank then s.sendNear c b
  else match s.transitOf k with
    | some o =>
      if o.answered then (if last then (s.dropOutstanding o.id).lateAnswer o.port else s)
      else if last then (s.dropOutstanding o.id).sendAnswer c b (k.dest % 1024) o.holds o.stamp
      else s.sendAnswer c b (k.dest % 1024) [] none
    | none => s.sendAnswer c b (k.dest % 1024) [] none

/-- The reporter of a failure at a port. -/
def State.failPacket (s : State) (p : Nat) (k : Packet) (status : Nat) : State :=
  if k.isCompletion then s
  else if k.nonPosted then s.answerTo (portCluster p) k status [] false
  else if k.ptype = 2 || k.ptype = 8 || k.ptype = 0xB then s.lose k status (s.fabricId p) else s

/-! ### Requests on PCI Express links -/

/-- The lowest tag free at a PCI Express link (R228, R231). -/
def State.linkTag (s : State) (p : Nat) : Nat :=
  let used := (s.device.filter fun x => x.port = p && !x.waitAck).map (·.tag)
  ((List.range (used.length + 1)).find? fun t => !used.contains t).getD 0

/-- TAGS_OUT of a PD port. -/
def State.showTags (s : State) (p : Nat) : State :=
  if s.isPd p then s.set (PORT_PCIE.TAGS_OUT p) (s.device.filter fun x => x.port = p && !x.waitAck).length else s

/-- The requester ID a TLP carries on a link: the host's name for the function at a PU port, zero at a PD port (R227, R230). -/
def State.linkRequester (s : State) (p : Nat) (k : Packet) : Nat :=
  if s.isPd p then 0
  else match s.bindingOf k.src k.reqFn (s.puPartition p) with
    | some b => s.hostRid p b k.reqFn
    | none => 0

/-- A memory request TLP for bytes from an address: whole DWs and the byte enables of its ends. -/
def memoryTlp (kind : TlpKind) (k : Packet) (addr n : Nat) (data : List Byte) (req tag : Nat) : Tlp :=
  let lo := addr % 4
  let dws := if n = 0 then 1 else (lo + n + 3) / 4
  let last := (lo + n - 1) % 4
  { kind := kind, addr := addr - lo, len := 4 * dws
    firstBe := if n = 0 then 0 else if dws = 1 then (2 ^ (lo + n) - 2 ^ lo) % 16 else 16 - 2 ^ lo
    lastBe := if dws = 1 then 0 else 2 ^ (last + 1) - 1
    reqId := req, tag := tag, ro := k.ro, ido := k.ido, ns := k.ns, poison := k.poison
    data := List.replicate lo 0 ++ data ++ List.replicate (4 * dws - lo - n) 0 }

/-- A request joins those outstanding on a link. -/
def State.ask (s : State) (d : DeviceRequest) : State := ({ s with device := s.device ++ [d] }).showTags d.port

/-- One Type 0 configuration request of a PD port's handler engine (R357). -/
def State.issueConfig (s : State) (p : Nat) (k : Packet) : State :=
  let tag := s.linkTag p
  let fn := k.addr / 65536 % 65536
  let control := (s.deviceOf (s.fabricId p)).devControl (fn % 256)
  let s := s.ask { port := p, tag := tag, pkt := some k, issued := s.now }
  -- a write of Initiate FLR, bit 15, starts the reset of the function (R246)
  let s : State := if k.sub = 1 && k.addr % 4096 / 4 = control && k.fbe.testBit 1 && (leNat k.payload).testBit 15 && !s.flr.contains (p, fn % 256)
    then { s with flr := s.flr ++ [(p, fn % 256)] } else s
  s.sendTlp p { kind := if k.sub = 1 then .cfgWrite false else .cfgRead false, addr := k.addr % 4096, len := 4, firstBe := k.fbe % 16, lastBe := 0
                reqId := 0, tag := tag, target := 256 + fn % 256, data := if k.sub = 1 then k.payload else [], poison := k.poison }

/-- A function is under reset by its own partition (R247). -/
def State.underReset (s : State) (p : Nat) (k : Packet) : Bool := s.flr.contains (p, k.addr / 65536 % 256)

/-- The lock of a PD port. -/
def State.portLock (s : State) (p : Nat) : PortLockState := tabGet (fun _ => {}) s.portLocks p

/-- LOCKED is set, and a packet is not its owner's: nothing of it is issued on the link (R344). -/
def State.lockedOut (s : State) (p : Nat) (k : Packet) : Bool :=
  let l := s.portLock p
  s.isPd p && s.flag (PORT_LOCK.LOCKED p) && !(k.src = l.owner && k.partition = l.partition)

/-- The handler engine of a PD port issues the first waiting configuration request when none is out (R357), a locked port one of its owner's (R344); one of the FB512's own takes a tag of the
pool (R228). -/
def State.nextConfig (s : State) (p : Nat) : State :=
  if s.configJobs.any fun j => j.port = p && j.issued then s
  else match s.configJobs.find? fun j => j.port = p && !s.underReset p j.pkt && !s.lockedOut p j.pkt with
    | none => s
    | some j =>
      if j.own && !(s.ledger (portLedger p 27)).room 1 then s
      else
        let s : State := if j.own then s.issue (portLedger p 27) 1 else s
        ({ s with configJobs := s.configJobs.map fun x => if x = j then { x with issued := true } else x }).issueConfig p j.pkt

/-- A VF of the PF numbered fn is bound outside the PF's partition (R243, Table 05-5). -/
def State.sharedPf (s : State) (p fn : Nat) : Bool :=
  match s.anyBindingOf (s.fabricId p) fn with
  | some b => s.bindRecs.any fun x => x.target = s.fabricId p && x.kind = 3 && x.pf = fn && x.partition ≠ b.partition
  | none => false

/-- A register after a write of the enabled bytes. -/
def mergeBytes (old new be : Nat) : Nat := leNat ((List.range 4).map fun i => BitVec.ofNat 8 ((if be.testBit i then new else old) / 256 ^ i))

/-- A VF presented alone (Table 05-5). -/
def State.vfAlone (s : State) (p fn : Nat) : Option BindRec :=
  match s.anyBindingOf (s.fabricId p) fn with
  | some b => if b.kind = 3 && s.hostFn b fn ≠ fn then some b else none
  | none => none

/-- The bytes of a register of a bound function that the handler engine of its PD port keeps from the device, as byte enables, and what they read (Table 05-5). A
VF presented alone shows its PF's Vendor ID, the SR-IOV VF Device ID and header type 0x00; a PF whose VFs are bound elsewhere shows the SR-IOV Control and the
NumVFs that the FB512 set. -/
def State.keptBytes (s : State) (p fn dw : Nat) : Nat × Nat :=
  match (s.deviceOf (s.fabricId p)).pfFor fn with
  | none => (0, 0)
  | some f =>
    if (s.vfAlone p fn).isSome then
      (if dw = 0 then (15, f.id % 65536 + 65536 * (f.vfId % 65536)) else if dw = 3 then (4, 0) else (0, 0))
    else match f.sriov with
      | none => (0, 0)
      | some v =>
        if !s.sharedPf p fn then (0, 0)
        else if dw = v + 2 then (3, 1)
        else if dw = v + 4 then (3, (s.bindRecs.find? fun b => b.target = s.fabricId p && b.kind = 2 && b.pf = fn).map (·.numVfs) |>.getD 0)
        else (0, 0)

/-- What the handler engine of a PD port answers itself, of a Config packet (Table 05-5): a read of a register that it keeps whole, or a write that enables no
byte for the device. -/
def State.intercept (s : State) (p : Nat) (k : Packet) : Option (List Byte) :=
  let (mask, v) := s.keptBytes p (k.addr / 65536 % 256) (k.addr % 4096 / 4)
  if mask = 0 then none
  else if k.sub = 1 then (if k.fbe &&& (15 - mask) = 0 then some [] else none)
  else if mask = 15 then some (leBytes 4 v) else none

/-- The Config packet as it goes to the device: without the bytes that the engine keeps, and Initiate FLR of a PF whose VFs are bound elsewhere is not sent
(R245, Table 05-5). -/
def State.toDevice (s : State) (p : Nat) (k : Packet) : Packet :=
  let fn := k.addr / 65536 % 256
  let k := if k.sub = 1 then { k with fbe := k.fbe &&& (15 - (s.keptBytes p fn (k.addr % 4096 / 4)).1) } else k
  if k.sub = 1 && s.sharedPf p fn && k.addr % 4096 / 4 = (s.deviceOf (s.fabricId p)).devControl fn
  then { k with payload := leBytes 4 (withoutBit (leNat k.payload) 15) } else k

/-- Extended capability IDs that the engine hides: ATS, PRI, PASID, IDE, LTR, PTM and L1 PM Substates, by the standard's numbers
(R219). -/
def hiddenCaps : List Nat := [0x0F, 0x13, 0x1B, 0x30, 0x18, 0x1F, 0x1E]

/-- The first capability of a chain from an offset that is not hidden (R219). -/
def visibleFrom (caps : List (Nat × Nat × Nat)) : Nat → Nat → Nat
  | 0, o => o
  | n + 1, o => match caps.find? fun c => c.1 = o with
    | some c => if hiddenCaps.contains c.2.1 then visibleFrom caps n c.2.2 else o
    | none => o

/-- The data of a configuration read as the host sees it: Next Capability Offset skips the hidden capabilities of the function's own chain (R219), and Initiate
FLR of a PF whose VFs are bound elsewhere reads 0, and the bytes that the engine keeps read as it keeps them (Table 05-5). -/
def State.rewriteCaps (s : State) (p : Nat) (k : Packet) (data : List Byte) : List Byte :=
  let d := s.deviceOf (s.fabricId p)
  let fn := k.addr / 65536 % 256
  let (mask, v) := s.keptBytes p fn (k.addr % 4096 / 4)
  let data := if mask = 0 then data else leBytes 4 (mergeBytes (leNat data) v mask)
  let caps := d.capsOf fn
  if s.sharedPf p fn && k.addr % 4096 / 4 = d.devControl fn then leBytes 4 (withoutBit (leNat data) 15)
  else match caps.find? fun c => c.1 = k.addr % 4096 with
  | some c => leBytes 4 (leNat data % 2 ^ 20 + visibleFrom caps caps.length c.2.2 * 2 ^ 20)
  | none => data

/-- A Config packet reaches the handler engine of a PD port (R356, R357). -/
def State.configArrives (s : State) (p : Nat) (k : Packet) : State :=
  match s.intercept p k with
  | some d => (s.returnAll [⟨portLedger p 27, 1⟩]).answerTo (portCluster p) k stOk d false
  | none => State.nextConfig { s with configJobs := s.configJobs ++ [{ port := p, pkt := s.toDevice p k, received := s.now }] } p

/-- The configuration request that a PD port has out. -/
def State.configOut (s : State) (p : Nat) : Option ConfigJob := s.configJobs.find? fun j => j.port = p && j.issued

/-- A configuration request ends (R357); data that came with EP 1 goes on with POISON 1 (R441). -/
def State.endConfig (s : State) (p : Nat) (j : ConfigJob) (status : Nat) (data : List Byte) (poison : Bool := false) : State :=
  let s := { s with configJobs := s.configJobs.filter fun x => !(x.port = p && x.issued) }
  let s := if j.pkt.sub = 1 && status = stOk && j.pkt.addr % 4096 / 4 = (s.deviceOf (s.fabricId p)).devControl 0 && j.pkt.addr / 65536 % 256 = 0 && j.pkt.fbe.testBit 0 then
      { s with deviceMps := tabPut (fun _ => 0) s.deviceMps p (leNat j.pkt.payload / 32 % 8) } else s
  (if j.own then s else s.answerTo (portCluster p) j.pkt status data poison).nextConfig p

/-- A request of a device of another package has come to its host, and the vDSP behind which its function is bound does not let it through: Bus Master Enable is 0
(R236). That of a device of this package is stopped where it is decoded. -/
def State.masterOff (s : State) (p : Nat) (k : Packet) : Bool :=
  s.isPu p && k.src / 1024 ≠ s.rank && (k.ptype = 1 || k.ptype = 2 || k.ptype = 3 || k.ptype = 4 || (k.ptype = 8 && k.sub = 1) || (k.ptype = 0xB && k.vc < 2 && k.sub / 16 % 8 = 1)) &&
    match s.bindingOf k.src k.reqFn (some k.partition) with
    | some b => !s.busMaster p b.vdsp
    | none => false

/-- A Burek packet leaves on a PU or PD link (R278, R284, R329, R207). -/
def State.issueOn (s : State) (p : Nat) (k : Packet) : State :=
  if s.masterOff p k then (if k.nonPosted then s.answerTo (portCluster p) k stNotMapped [] false else s.logAer p aerUnsupported none) else
  let req := s.linkRequester p k
  let tag := s.linkTag p
  let mps := s.mps p
  if k.ptype = 1 then
    let s := s.ask { port := p, tag := tag, pkt := some k, issued := s.now }
    let t := memoryTlp .memRead k k.addr k.len [] req tag
    s.sendTlp p { t with data := [] }
  else if k.ptype = 2 || k.ptype = 3 then
    let cut := (k.addr / mps + 1) * mps - k.addr
    let s := if k.len ≤ mps then s.sendTlp p (memoryTlp .memWrite k k.addr k.len k.payload req 0)
      else (s.sendTlp p (memoryTlp .memWrite k k.addr (min cut k.len) (k.payload.take cut) req 0)).sendTlp p
        (memoryTlp .memWrite k (k.addr + cut) (k.len - cut) (k.payload.drop cut) req 0)
    -- a Write-Ack leaves as a posted write and takes no tag of the link
    if k.ptype = 3 then (if s.isPd p then s.returnAll [⟨portLedger p 27, 1⟩] else s).ask { port := p, tag := tag, pkt := some k, issued := s.now, waitAck := true } else s
  else if k.ptype = 4 then
    let size := atomicSize k.sub k.len
    let can := !s.isPd p || (s.deviceOf (s.fabricId p)).atomics.testBit (if size = 4 then 0 else if size = 8 then 1 else 2)
    if can then
      let s := s.ask { port := p, tag := tag, pkt := some k, issued := s.now }
      s.sendTlp p { memoryTlp (if k.sub = 1 then .fetchAdd else if k.sub = 2 then .swap else .cas) k k.addr k.len k.payload req tag with tag := tag }
    else
      let s := (s.bump (PORT_LOCK.ATOMIC_REFUSED p)).raise (srcTxn p) 10 { port := some p }
      (s.returnAll [⟨portLedger p 27, 1⟩]).answerTo (portCluster p) k stTargetAbort [] false
  else if k.ptype = 5 then
    let s := s.ask { port := p, tag := tag, pkt := some k, issued := s.now }
    s.sendTlp p { memoryTlp .memReadLock k k.addr k.len [] req tag with data := [] }
  else if k.ptype = 8 then
    if s.isPd p then s
    else if k.sub = 1 then s.msixAtHost p k else if k.sub = 2 then s.intxAtHost p k else if k.sub = 6 then s.errorAtHost p k else s
  else if k.ptype = 9 then (if s.isPd p then s.configArrives p k else s.answerTo (portCluster p) k stNotMapped [] false)
  else if k.ptype = 0xB then
    -- R293: the address when it is rebased, the requester ID on a PU link, the tag of a non-posted frame (R228, R231), and the form of the header
    let head := if k.sub.testBit 7 then rebaseFrame k.frameHead k.addr else k.frameHead
    let head := if s.isPu p then frameId head 4 req else head
    let head := if k.nonPosted then frameTag head tag else head
    let f : Tlp := { kind := if k.sub / 16 % 8 = 2 then .vendorMessage else .other, header := if s.flag (PORT_PCIE.FLIT p) then head else Config.plainForm head
                     data := k.frameData, reqId := req, tag := if k.nonPosted then tag else 0, ro := k.ro, ido := k.ido, ns := k.ns, poison := k.poison }
    let s := if k.nonPosted then s.ask { port := p, tag := tag, pkt := some k, issued := s.now } else s
    s.sendTlp p f
  else s

/-! ### Completions from a link (R441) -/

/-- The tag of a link request comes back. -/
def State.endAsk (s : State) (d : DeviceRequest) : State :=
  let s := { s with device := s.device.filter fun x => x ≠ d }
  let s := if s.isPd d.port && !d.waitAck then s.returnAll [⟨portLedger d.port 27, 1⟩] else s
  s.showTags d.port

/-- Table 10-2 of a completion's status code; CRS to other than a configuration request is TARGET-ABORT. -/
def statusOf (code : Nat) (poison : Bool) : Nat :=
  if code = 0 then (if poison then stPoisoned else stOk) else if code = 1 then stNotMapped else stTargetAbort

/-- Data bytes that a request's completions bring, as the answer carries them (R197, R278): a Read of LEN 0 has none. -/
def wantedBytes (k : Packet) : Nat :=
  if k.ptype = 1 || k.ptype = 5 then k.len else if k.ptype = 4 then atomicSize k.sub k.len else 0

/-- A completion to a request that engine te issued (R70, R72): the data of its completions together make one ISSUED item. At a full item queue it waits where
it is; more than 256 bytes are never delivered, and are logged as Unsupported Request. -/
def State.engineAnswered (s : State) (p : Nat) (d : DeviceRequest) (te code : Nat) (t : Tlp) : State :=
  let data := d.data ++ t.data
  let wanted := match d.frame with
    | some x => if x.kind = .memRead then x.len else 0
    | none => 0
  if code = 0 && decide (data.length < wanted) then
    { s with device := s.device.map fun x => if x = d then { d with data := data } else x }
  else if 256 < data.length then (s.endAsk d).logAer p aerUnsupported (some t)
  else if s.itemRoom te then
    (s.endAsk d).pushItem te { kind := 5, port := s.fabricId p, ctx := d.ctx, header := if s.flag (PORT_PCIE.FLIT p) then t.header else Config.flitForm t.header, payload := data } .none
  else s

/-- A completion to a tunnelled frame goes back whole as a barge on CPL (R208, R294); a failed one, or one that completes what is wanted, is the last. -/
def State.bargeFromLink (s : State) (p : Nat) (d : DeviceRequest) (k : Packet) (code : Nat) (t : Tlp) : State :=
  let head := s.flitHead p t
  let load := bargePayload head t.data
  let b := { completionFor k stOk [] t.poison with
    ptype := 0xB, ro := t.ro, ido := t.ido, ns := t.ns, sub := 16 + (head.length + 7) / 8, len := load.length, payload := load }
  let last := code ≠ 0 || t.data.isEmpty || decide (frameWanted k.frameHead ≤ d.data.length + t.data.length)
  let s := if last then s.endAsk d
    else { s with device := s.device.map fun x => if x = d then { d with data := d.data ++ t.data } else x }
  s.answerBarge (portCluster p) k b last

/-- A PCI Express completion arrives at a PU or PD port (R441, R395, R278). What an answered request passes to the lock is for the
caller; `done` carries out a finished one. -/
def State.completionFromLink (s : State) (p : Nat) (t : Tlp) (done : State → Packet → Nat → List Byte → Bool → State) : State :=
  match t.kind with
  | .completion code =>
    match s.device.find? fun d => d.port = p && d.tag = t.tag && !d.waitAck with
    | none => s.logAer p aerUnexpected (some t)
    | some d =>
      if d.timedOut then (s.endAsk d).logAer p aerUnexpected (some t)
      -- the answer to one that was answered in the device's place is discarded
      else if d.answered then s.endAsk d
      else match d.pkt, d.engine with
        | none, some te => s.engineAnswered p d te code t
        | none, none => (s.endAsk d).nextConfig p
        | some k, _ =>
          if k.ptype = 9 && code = 2 then
            -- its tag stays taken (R229)
            { State.showTags { s with device := s.device.filter fun x => x ≠ d } p with
              configJobs := s.configJobs.map fun j => if j.port = p && j.issued then { j with retrying := true, retryAt := d.issued + 10000 * ticksPerNs } else j }
          else
            let s := if code = 2 then s.logAer p aerMalformed (some t) else s
            let s := if t.poison then (s.raise (srcTxn p) 4 { port := some p }).logAer p aerPoisoned (some t) else s
            let data := d.data ++ t.data
            let poison := d.poison || t.poison
            if k.ptype = 0xB then s.bargeFromLink p d k code t
            else if code = 0 && k.ptype ≠ 9 && decide (data.length < wantedBytes k) then
              { s with device := s.device.map fun x => if x = d then { d with data := data, poison := poison } else x }
            else
              let s := s.endAsk d
              let st := statusOf code poison
              let keep := st = stOk || st = stPoisoned
              -- the attributes of the last completion go with the answer (R278; log entry 80)
              done s { k with ro := t.ro, ido := t.ido, ns := t.ns } st
                (if !keep then [] else if k.ptype = 9 then data else data.take (wantedBytes k)) (st = stPoisoned)
  | _ => s

/-- A request that was issued on a link for a Burek packet is finished: a configuration or a memory request (R278, R357). -/
def State.finishAsk (s : State) (p : Nat) (k : Packet) (status : Nat) (data : List Byte) (poison : Bool) : State :=
  if k.ptype = 9 then match s.configOut p with
    | some j => s.endConfig p j status (if k.sub = 1 then [] else s.rewriteCaps p k data) poison
    | none => s
  else s.answerTo (portCluster p) k status data poison

end Sys2Proof.Machine
end

