-- ==== Sys2Proof/Machine/Lock.lean ====
section
/-! DEFINITION. Locked sequences (R333 to R352): the package lock on its near and far sides, and the locked PD port. PKG_LOCK and PORT_LOCK
hold the states. -/

namespace Sys2Proof.Machine

/-- Replace the lock of a PD port; HELD shows the packets it holds back. -/
def State.setPortLock (s : State) (p : Nat) (l : PortLockState) : State :=
  let s := { s with portLocks := tabPut (fun _ => {}) s.portLocks p l }
  s.set (PORT_LOCK.HELD p) l.held.length

/-! ### Near side -/

/-- An Unlock packet of the package for the partition at a PU port (R337, R338, R352). -/
def State.sendUnlock (s : State) (p dest cls part : Nat) : State :=
  let (s, id) := s.newId
  let o : Outstanding :=
    { id := id, port := p, ptype := 6, cls := cls, noWin := true, partition := part, dest := dest, received := s.now, pieces := [{ tag := 0, addr := 0, len := 0 }] }
  State.enqueue { s with outstanding := s.outstanding ++ [o] } (ingressKey p 1)
    { id := id, pkts := [{ ptype := 6, vc := 1, cls := cls, dest := dest, src := s.fabricId p, noWin := true, partition := part }]
      received := s.now, requester := id, order := id }

/-- The bytes that the Lock packet of an MRdLk reads. DESIGN CHOICE: of one with no byte enabled the first, since a Lock has at least one (Table 04-7, log entry
94). -/
def Tlp.lockOffsets (t : Tlp) : List Nat := if t.enabledOffsets.isEmpty then [0] else t.enabledOffsets

/-- An MRdLk enters a PU port (R335, R336, R274, R268). One that the port's handler engine does not serve becomes its item (R334). -/
def State.receiveLocked (s : State) (p : Nat) (t : Tlp) : State :=
  if !s.serves p 4 then s.handTlp p 4 t true else
  match s.puPartition p with
  | none => s.unsupported p t
  | some part =>
    match s.decodeWindow (portCluster p) .pu part t.firstByte with
    | none => s.noMatch p t
    | some w =>
      let target := w.remote + (t.firstByte - w.base) - (t.firstByte - t.addr)
      match piecesOf (s.template p t w part 5) w target t.lockOffsets [] false with
      | [k] =>
        let st := s.get PKG_LOCK.STATE
        let other := (st = 2 || st = 4) && s.get PKG_LOCK.OWNER = s.fabricId p && s.get PKG_LOCK.TARGET ≠ w.target
        if !w.lockOk || w.kind ≠ 0 || other then s.unsupported p t
        else match s.virtStop p part w 0 with
          | some st => s.answerTlp p t st
          | none =>
            let (s, id) := s.newId
            let s := { s with lockWait := s.lockWait ++ [({ id := id, port := p, tlp := t } : LockedRead)] }
            s.accept p t [k] (some
              { id := id, port := p, tlp := some t, ptype := 5, cls := w.cls, window := w.n, partition := part, dest := w.target, addr := t.firstByte
                received := s.now, tgt := target, element := w.element, pieces := [{ tag := 0, addr := k.addr, len := k.len }] }) id
      | _ => s.unsupported p t

/-- A backoff ends: the Lock goes to the head of its queue again (R350, R351). -/
def State.lockAgain (s : State) (x : LockedRead) : State :=
  match s.outstanding.find? fun o => o.id = x.id with
  | none => s.endLocked x.id
  | some o =>
    let w := s.window o.window
    match piecesOf (s.template x.port x.tlp w o.partition 5) w o.tgt x.tlp.lockOffsets [] false with
    | k :: _ =>
      let (s, id) := s.newId
      let q : Queued := { id := id, pkts := [k], requester := o.id, order := o.id, received := s.now }
      let s := s.setIngress (ingressKey x.port 1) (q :: s.ingressQ (ingressKey x.port 1))
      { s with lockWait := s.lockWait.map fun y => if y.id = x.id then { y with backoff := false } else y }
    | [] => s

/-- An Unlock of a port whose cluster is held in reset, where the sluice admits nothing, is sent at once, or there is no path for it (R338). -/
def State.unlockNow (s : State) (p : Nat) : State :=
  match (s.ingressQ (ingressKey p 1)).getLast? with
  | none => s
  | some q => match q.pkts with
    | [] => s
    | k :: _ => match s.pathFault (portCluster p) k.dest k.cls k none with
      | some st => s.answerQueued (ingressKey p 1) q st
      | none => s.takeIn (ingressKey p 1) q true

/-- An Unlock message from the host at a PU port, or on its behalf (R337, R338). The owner may still be acquiring the lock, which it keeps until the Unlock is sent. -/
def State.unlockNear (s : State) (p : Nat) : State :=
  let st := s.get PKG_LOCK.STATE
  if (st = 1 || st = 2 || st = 4) && s.get PKG_LOCK.OWNER = s.fabricId p then
    let s := s.sendUnlock p (s.get PKG_LOCK.TARGET) s.lockClass (s.get PKG_LOCK.OWNER_PART)
    if s.clusterHeld (portCluster p) then s.unlockNow p else s
  else s

/-- The lock bound expires without a grant (R352): the host is answered in the target's place, and an Unlock goes to the target, with which the port's lock ends. -/
def State.lockExpired (s : State) (x : LockedRead) : State :=
  match s.outstanding.find? fun o => o.id = x.id with
  | none => s.endLocked x.id
  | some o =>
    let s := s.surrogateRecord o.port o 3 (if o.admitted then o.dest else 0xFFFF)
    let s := (s.deliver { o with holds := [], stamp := none } [cplFor x.tlp .ca x.tlp.addr []] none true (s.answerHere o.port o.cls)).logAer o.port aerAbort (some x.tlp)
    let s := match (s.ingressQ (ingressKey o.port 1)).find? fun q => q.requester = o.id with
      | some q => s.dequeue (ingressKey o.port 1) q
      | none => s
    let s := (if o.admitted then s.setOutstanding { o with answered := true, stamp := none, endedAt := s.now } else s.dropOutstanding o.id).endLive o.stamp
    let s := (if o.admitted then s.settleSlots (portCluster o.port) 0 1 else s).endLocked x.id
    (s.sendUnlock o.port o.dest o.cls o.partition).bump PKG_LOCK.LOCK_SURROGATE

/-! ### Far side -/

/-- The PD tag taken for a packet that is not issued comes back. -/
def State.spareTag (s : State) (p : Nat) : State := if s.isPd p then s.returnAll [⟨portLedger p 27, 1⟩] else s

/-- LOCKABLE as the port acts on it: a set that waits for SETTLE is not yet in force (R399). -/
def State.lockable (s : State) (p : Nat) : Bool :=
  s.isPd p && s.flag (PORT_LOCK.LOCKABLE p) && !s.planned.any fun x => x = .lockable p

/-- HOLD_LIMIT as a grant takes it: a larger one that waits for SETTLE is not yet applied (R399). -/
def State.holdLimit (s : State) (p : Nat) : Nat :=
  s.planned.foldl (fun n x => match x with
    | .holdLimit q v => if q = p then min n v else n
    | _ => n) (s.get (PORT_LOCK.HOLD_LIMIT p))

/-- A Lock packet reaches its port (R340, R341). -/
def State.lockArrives (s : State) (p : Nat) (k : Packet) : State :=
  if !s.lockable p then (s.spareTag p).answerTo (portCluster p) k stNotMapped [] false
  else
    let st := s.get PKG_LOCK.STATE
    let own := k.src / 1024 = s.rank
    if st = 0 || (st = 1 && own && s.get PKG_LOCK.OWNER = k.src) then
      let s := ((s.set PKG_LOCK.STATE (if own then 4 else 3)).set PKG_LOCK.OWNER k.src).set PKG_LOCK.OWNER_PART k.partition
      let s := (s.set PKG_LOCK.TARGET (s.fabricId p)).setFlag (PORT_LOCK.LOCKED p) true
      let s := s.setPortLock p { owner := k.src, partition := k.partition, since := s.now, limit := s.holdLimit p
                                 firstTag := some k.tag, prev := st }
      s.issueOn p k
    else if (st = 3 || st = 4) && s.get PKG_LOCK.OWNER = k.src && s.get PKG_LOCK.OWNER_PART = k.partition && s.get PKG_LOCK.TARGET = s.fabricId p then
      s.issueOn p k
    else (s.spareTag p).answerTo (portCluster p) { k with addr := 0 } stOk [] false

/-- Port p is the final egress of a packet (R384, R388): a PU or PD port, or a BF port toward the Burek peer of its destination's rank. -/
def State.finalEgress (s : State) (p : Nat) (k : Packet) : Bool :=
  s.isPu p || s.isPd p || (s.isPeer p && !s.boundsSeen p && match (s.link p).partner with
    | some i => i.sender / 1024 = k.dest / 1024
    | none => false)

/-- A packet's last bit leaves a port: late packets are counted (R384). A Management packet has no bound (R572). -/
def State.countMiss (s : State) (p : Nat) (w : Waiting) : State :=
  if w.pkt.ptype = 0xA then s
  else
    let s := if before w.deadline (s.now % 2 ^ 48) then ((s.bump (PORT_SLUICE.MISSES p)).countPort p 0x13 1).raise (srcTxn p) 9 { port := some p } else s
    if s.finalEgress p w.pkt && before w.pkt.deadline (s.now % 2 ^ 48) then s.bump PKG_BOUND.FINAL_MISSES else s

/-- A held packet is issued: its lock-hold space and what it still holds return (R415), and it leaves now (R384). -/
def State.issueHeld (s : State) (p : Nat) (w : Waiting) : State :=
  let s := (s.countMiss p w).returnAll w.holds
  (if w.tlps.isEmpty then s.issueOn p w.pkt else w.tlps.foldl (fun s t => s.sendTlp p t) s).endLive w.stamp

/-- A held packet is answered CONTAINED, or recorded, as the end of its port's lock gives (R348): its units are reclaimed by a reset and otherwise returned. -/
def State.failHeld (s : State) (p : Nat) (reset : Bool) (w : Waiting) : State :=
  let units := w.holds ++ (if s.flag (PORT_PCIE.DL_ACTIVE p) then w.credit else [])
  let s := (if reset then s.reclaimAll units else s.returnAll units).endLive w.stamp
  if !w.tlps.isEmpty then s else (if w.pkt.nonPosted then s.spareTag p else s).failPacket p w.pkt stContained

/-- A port's lock ends: an Unlock message goes out, LOCKED clears, the held packets are issued in order and the package lock leaves the far side (R345, R346); where the
held packets are answered instead, the message goes out only on a link in L0 (R348). Message code 0x00 is Unlock. -/
def State.releasePort (s : State) (p : Nat) (issue : Bool) (reset : Bool := false) : State :=
  if !s.flag (PORT_LOCK.LOCKED p) then s
  else
    let l := s.portLock p
    let s := if issue || s.get (PORT_PCIE.LINK_STATE p) = 3 then s.sendTlp p { kind := .message 0 } else s
    let s := (s.setFlag (PORT_LOCK.LOCKED p) false).setPortLock p {}
    let st := s.get PKG_LOCK.STATE
    let s := if s.get PKG_LOCK.TARGET = s.fabricId p then
        (if st = 4 then s.set PKG_LOCK.STATE 2 else if st = 3 then s.freeLock else s) else s
    (l.held.foldl (fun s w => if issue then s.issueHeld p w else s.failHeld p reset w) s).nextConfig p

/-- The far package breaks a lock (R346). -/
def State.breakLock (s : State) (p : Nat) : State :=
  ((s.releasePort p true).bump (PORT_LOCK.BREAKS p)).raise (srcPcie p) 7 { port := some p }

/-- A locked port's lock ends with its containment, link, reset or reload (R348); the held packets are answered CONTAINED. -/
def State.dropLock (s : State) (p : Nat) (reset : Bool := false) : State :=
  if s.flag (PORT_LOCK.LOCKED p) then ((s.releasePort p false reset).bump (PORT_LOCK.BREAKS p)).raise (srcPcie p) 7 { port := some p } else s

/-- An Unlock packet reaches its port (R345). -/
def State.unlockArrives (s : State) (p : Nat) (k : Packet) : State :=
  let l := s.portLock p
  let s := if s.flag (PORT_LOCK.LOCKED p) && l.owner = k.src && l.partition = k.partition then s.releasePort p true else s
  (s.spareTag p).answerTo (portCluster p) k stOk [] false

/-- The device has answered a locked read (R341, R343). -/
def State.lockRead (s : State) (p : Nat) (k : Packet) (status : Nat) (data : List Byte) (poison : Bool) : State :=
  let l := s.portLock p
  let s := if status ≠ stOk && l.firstTag = some k.tag && l.owner = k.src && s.flag (PORT_LOCK.LOCKED p) then
      let s := (s.setFlag (PORT_LOCK.LOCKED p) false)
      let held := l.held
      let s := s.setPortLock p {}
      let s := if l.prev = 0 then s.freeLock else s.set PKG_LOCK.STATE l.prev
      (held.foldl (fun s w => s.issueHeld p w) s).nextConfig p
    else if status = stOk then s.setPortLock p { l with firstTag := none } else s
  s.answerTo (portCluster p) k status data poison

/-- Whether a locked port holds a packet back (R344): it comes from other than the owner and is no completion to the device's own
requests. -/
def State.heldBack (s : State) (p : Nat) (k : Packet) : Bool :=
  s.lockedOut p k && !k.isCompletion && k.ptype ≠ 5 && k.ptype ≠ 6

/-- A locked port holds a packet back in partition 0x0E of its die; without room there the lock is broken first (R344, R416). -/
def State.holdBack (s : State) (p : Nat) (w : Waiting) : State :=
  let hold : Hold := ⟨dieLedger (portDie p) 14, w.pkt.credits⟩
  if s.basinPresent (portDie p) 14 && s.roomSum [hold] then
    let l := s.portLock p
    (s.issueAll [hold]).setPortLock p { l with held := l.held ++ [{ w with holds := [hold], books := [] }] }
  else (s.breakLock p).issueHeld p { w with holds := [] }

end Sys2Proof.Machine
end

