-- ==== Sys2Proof/Machine/Place.lean ====
section
/-! DEFINITION. How admitted packets move (R314, R323, R383, R384): one placement at an ordering point, and what a packet meets at the
end of its path in this package. Packets that arrive at a BF port are delivered, decoded, forwarded or refused here (R203, R270,
R378, R379). -/

namespace Sys2Proof.Machine

/-! ### Leaving a port -/

/-- The last ordering point of a packet in this package. -/
def lastPoint (w : Waiting) : Nat := (w.path.getLast?).getD w.point

/-- What a packet holds comes back as it leaves, and what it booked is cleared (R415, R377, R372). -/
def State.letGo (s : State) (w : Waiting) : State := (s.returnAll w.holds).endLive w.stamp

/-- A packet is placed for the flits of a BF port: HOPS advances, its elements join the packet space (R204, R205). What it holds and has booked stays until the flit with
its last element leaves (R362, R415). -/
def State.toFlits (s : State) (p : Nat) (w : Waiting) : State :=
  let k := { w.pkt with hops := w.pkt.hops + 1 }
  let l := s.link p
  let l := { l with txElements := l.txElements ++ k.words
                    txMarks := l.txMarks ++ [(l.txElements.length + 3, k)]
                    txEnds := l.txEnds ++ [(l.txElements.length + k.words.length - 1, w)] }
  (s.setLink p l).emit (.packetOut p k)

/-- The link partner's completion credits that completion TLPs take. -/
def tlpCredits (p : Nat) (ts : List Tlp) : List Hold :=
  let data := ts.foldl (fun n t => n + ceilDiv (wholeDws t.addr t.data.length) 16) 0
  ⟨portLedger p 6, ts.length⟩ :: (if data = 0 then [] else [⟨portLedger p 7, data⟩])

/-- A credit for a packet that admission did not take one for: Management packets, late transit and completions spend unspent credit at
placement (R191, R381). -/
def State.spendNow (s : State) (p : Nat) (w : Waiting) : Option State :=
  if w.credit.isEmpty then
    let c := if w.tlps.isEmpty then s.creditCost p w.pkt else tlpCredits p w.tlps
    if s.roomSum c && (!s.isBf p || c.all fun x => (s.ledger x.ledger).total ≠ 0) then some (s.issueAll c) else none
  else some s

/-- A packet bound for a port that is contained, down or in reset is discarded and answered (R424, R471): its units are reclaimed by a
reset and otherwise returned. Its record has the injected flag where an injection is the reason (R479). -/
def State.discardPacket (s : State) (p : Nat) (w : Waiting) (reset : Bool) (injected : Bool := false) : State :=
  let units := w.holds ++ w.credit
  let s := (if reset then s.reclaimAll units else s.returnAll units).endLive w.stamp
  let k := w.pkt
  if k.isCompletion || !w.tlps.isEmpty then s.bump (PORT_SLUICE.LATE_ANSWERS p)
  else if k.ptype = 0xA then s
  else if k.nonPosted then
    ((s.raise (srcTxn p) 8 { port := some p, injected := injected }).spareTag p).answerTo (portCluster p) k stContained [] false
  else s.lose k stContained (s.fabricId p) injected

/-- The port takes no packet: its cluster is in reset or fenced, it is contained, or its PCI Express link is down; during a hot reset of a PD
link packets wait (R247). A contained PU port still
passes completions to its host (Table 10-12). -/
def State.refuses (s : State) (p : Nat) (w : Waiting) : Bool :=
  s.portDark p || (s.isBf p && s.flag (PORT_CONTAIN.CONTAINED p)) || (s.isPd p && s.flag (PORT_DPC.CONTAINED p)) ||
    (!s.isBf p && !s.flag (PORT_PCIE.DL_ACTIVE p) && !(s.isPd p && s.get (PORT_PCIE.LINK_STATE p) = 7)) ||
    (s.isPu p && s.flag (PORT_CONTAIN.CONTAINED p) && !w.pkt.isCompletion && w.tlps.isEmpty)

/-- The PCI Express requester ID of a packet's request here, or 0 (Table 01-9). -/
def State.itemRequester (s : State) (w : Waiting) : Nat :=
  match s.outstanding.find? fun o => o.id = w.requester && w.requester ≠ 0 && !w.pkt.isCompletion with
  | some o => (match o.tlp with
    | some t => t.reqId
    | none => 0)
  | none => 0

/-- The item of a packet that reaches an engine's endpoint (Tables 01-9 and 01-10): PORT is the port of this package that carried it. -/
def State.itemOf (s : State) (w : Waiting) : EngineItem :=
  { kind := if w.pkt.isCompletion then 2 else 1, port := if w.ingress < 256 then s.fabricId w.ingress else 0, requester := s.itemRequester w
    ctx := if w.pkt.isCompletion then w.ctx else 0, header := w.pkt.elements.flatMap fun x => leBytes 8 x, payload := w.pkt.payload }

/-- A Lock, Unlock or Config packet reaches a PD port whose handler engine holds another program: it becomes the engine's REQUEST item, and waits at a full queue. A
halted engine discards it, and its source is answered at its surrogate bound (R70, R73, R334). -/
def State.handPacket (s : State) (p : Nat) (w : Waiting) : Option State :=
  let te := handlerOf p
  if (s.engine te).run = .halted || s.itemRoom te then
    some (((s.letGo { w with stamp := none }).spareTag p).pushItem te (s.itemOf w) (if w.pkt.nonPosted then .burek w.pkt else .none))
  else none

/-- A packet leaves a port (R383, R384), or stays when nothing lets it go. -/
def State.leavePort (s : State) (p : Nat) (w : Waiting) : Option State :=
  if s.refuses p w then some (s.discardPacket p w (s.portDark p))
  else if s.isBf p then
    if !s.bfUp p then none
    -- a BF port of this package is no PD port (R340)
    else if (w.pkt.ptype = 5 || w.pkt.ptype = 6) && w.pkt.dest / 1024 = s.rank then
      some (((s.letGo { w with stamp := none }).returnAll w.credit).answerTo (portCluster p) w.pkt (if w.pkt.ptype = 5 then stNotMapped else stOk) [] false)
    else (s.spendNow p w).map fun s => s.toFlits p w
  else if s.get (PORT_PCIE.LINK_STATE p) ≠ 3 then none
  else if w.tlps.isEmpty && w.pkt.isCompletion then some ((s.countMiss p w).letGo w)
  else (s.spendNow p w).bind fun s =>
    if !w.tlps.isEmpty then some (w.tlps.foldl (fun s t => s.sendTlp p t) ((s.countMiss p w).letGo w))
    else if s.heldBack p w.pkt then some ((s.returnAll w.holds).holdBack p w)
    else
    let s := s.countMiss p w
    if s.isPd p && (w.pkt.ptype = 5 || w.pkt.ptype = 6 || w.pkt.ptype = 9) && !s.serves p 1 then s.handPacket p w
    else if w.pkt.ptype = 5 then some ((s.letGo { w with stamp := none }).lockArrives p w.pkt)
    else if w.pkt.ptype = 6 then some ((s.letGo { w with stamp := none }).unlockArrives p w.pkt)
    else some ((s.letGo { w with stamp := if w.pkt.nonPosted then none else w.stamp }).issueOn p w.pkt)

/-- The cluster at which an internal endpoint's answers are formed: its engine's, or the first of its die. -/
def State.endpointCluster (s : State) (n : Nat) : Nat := if n < 768 then (n - 256) / 8 else 16 * s.endpointDie n

/-- What an internal endpoint does with a packet: a Lock is answered NOT-MAPPED, since no endpoint is a PD port, and an Unlock, whose source owns no lock there, OK
(R340, R345). An engine takes any other as an item, and never one of more than 256 bytes (R70); management packets and Events for the package's own
endpoints are taken up by the commands that carry them (log entry 20). -/
def State.atEndpoint (s : State) (n : Nat) (w : Waiting) : Option State :=
  if w.pkt.ptype = 5 || w.pkt.ptype = 6 then
    some ((s.letGo { w with stamp := none }).answerTo (s.endpointCluster n) w.pkt (if w.pkt.ptype = 5 then stNotMapped else stOk) [] false)
  else if n < 768 then
    let te := n - 256
    if 256 < w.pkt.payload.length then some (s.letGo w)
    else if s.itemRoom te then some ((s.letGo w).pushItem te (s.itemOf w) (if w.pkt.nonPosted then .burek w.pkt else .none))
    else none
  else some (s.letGo w)

/-! ### Placement -/

/-- The bookings of a die-to-die interface leave with the packet that crosses it. -/
def dropBooks (r : Nat) (w : Waiting) : Waiting := { w with books := w.books.filter fun b => b.resource ≠ r }

/-- Remove a packet from those that wait. -/
def State.unwait (s : State) (w : Waiting) : State := { s with waiting := s.waiting.erase w }

/-- The packet crosses a die-to-die interface: its calendar bookings return, and it is in flight until it is placed on the other die
(R411). -/
def State.crossD2d (s : State) (d x : Nat) (w : Waiting) : Option (State × Waiting) :=
  let fly : Hold := ⟨dieLedger d (67 + x), w.pkt.credits⟩
  if !s.roomSum [fly] then none
  else
    let cal : Hold := ⟨dieLedger d (64 + x), w.pkt.flitBytes⟩
    let booked := w.holds.contains cal
    let s := if booked then s.returnAll [cal] else s
    let s := s.countDie d 0x03 w.pkt.flitBytes fun q => q % 4 = x
    some (s.issueAll [fly], dropBooks (d2dResource d x) { w with holds := fly :: (if booked then w.holds.erase cal else w.holds) })

/-- Units in flight that the packet holds: it has reached the far die now. -/
def inFlightOf (w : Waiting) : List Hold :=
  w.holds.filter fun h => decide (16384 ≤ h.ledger) && decide (67 ≤ h.ledger % 256) && decide (h.ledger % 256 < 70)

/-- The count of corrected or of uncorrectable words of crossing k of a cluster (Table 12-8). -/
def crossingCount (c k : Nat) (unc : Bool) : FieldRef := ⟨CL_XERR.addr c (k / 4), 16 * (k % 4) + (if unc then 12 else 0), if unc then 4 else 12⟩

/-- Items discarded in the crossings of die d (R428): DIE_XDISCARD is 64 bits wide (R435). -/
def State.countDiscards (s : State) (d n : Nat) : State := s.set (DIE_XDISCARD.VALUE d) (s.get (DIE_XDISCARD.VALUE d) + n)

/-- The blocks of a lane go through crossing k of their cluster, 0 to 7 as received and 8 as sent; whether an injection has left a word of them uncorrectable, which
discards them (R533; log entry 82). -/
def State.crossLane (s : State) (c k : Nat) (blocks : List Nat) : State × Bool :=
  let (s, h) := (s.carryWords (clusterCrossing c k) (blocks.map fun b => BitVec.ofNat 64 b)).writeItem (clusterDie c) 0x0B (16 * (c % 16) + k) 0 blocks.length
  if h = 0 then (s, false)
  else
    let bad := decide (2 ≤ h)
    let s := (s.raiseMask (srcCluster c 40) (if bad then 8 else 4) { injected := true }).bump (crossingCount c k bad)
    (if bad then s.countDiscards (clusterDie c) 1 else s, bad)

/-- The crossings that a packet goes through when it is placed at an ordering point: 9 of its cluster into the die crossbar, 10 into a cluster, 3 to 5 of a die and
0 to 2 of the other for an interface (Tables 12-4 and 12-5). -/
def crossingsAt (point : Nat) : List Nat :=
  if point < 100 then [clusterCrossing point 9]
  else if point < 200 then [clusterCrossing (point - 100) 10]
  else if point < 300 then
    let d := (point - 200) / 4
    let x := (point - 200) % 4
    [dieCrossing d (3 + x), dieCrossing (d2dPeer d x) (d2dIndex (d2dPeer d x) d)]
  else []

/-- The producer at an ordering point sees a crossing full (R522, R530, R542). -/
def State.shutAt (s : State) (point : Nat) : Bool := (crossingsAt point).any fun x => (s.crossing x).full (crossingDepth x)

/-- Words in whole entries of 128 bytes, the rest of the last one zero (Table 12-4, crossings 9 and 10). -/
def inEntries (ws : List Word) : List Word := ws ++ List.replicate ((16 - ws.length % 16) % 16) 0

/-- A packet goes through a crossing of a cluster, whose queue an injection may have met (R533): what becomes of it is coded as in `hurtOf`. -/
def State.crossCluster (s : State) (x : Nat) (k : Packet) : State × Nat :=
  let c := x / 16
  let ws := inEntries k.words
  let (s, h) := (s.carryWords x ws).writeItem (clusterDie c) 0x0B (16 * (c % 16) + x % 16) 4 (ws.length - 4)
  let s := if h = 0 then s else s.raiseMask (srcCluster c 40) ((if h.testBit 0 then 4 else 0) + (if 2 ≤ h then 8 else 0)) { injected := true }
  let s := if h.testBit 0 then s.bump (crossingCount c (x % 16) false) else s
  (if 2 ≤ h then s.bump (crossingCount c (x % 16) true) else s, h)

/-- A packet goes through the crossings of an ordering point. -/
def State.cross (s : State) (point : Nat) (k : Packet) : State × Nat :=
  (crossingsAt point).foldl (fun (a : State × Nat) x =>
    if x < 1024 then (let (s, h) := a.1.crossCluster x k; (s, a.2 ||| h)) else (a.1.carryWords x k.words, a.2)) (s, 0)

/-- A packet, and the TLPs that answer with it, carry POISON 1. -/
def Waiting.poisoned (w : Waiting) : Waiting :=
  { w with pkt := { w.pkt with poison := true }, tlps := w.tlps.map fun t => if t.data.isEmpty then t else { t with poison := true } }

/-- A packet that is discarded, wherever it was bound for, is answered under R424: its units are reclaimed. -/
def State.discardWaiting (s : State) (w : Waiting) (injected : Bool := false) : State :=
  let p := lastPoint w
  if 1000 ≤ p && p < 2000 then s.discardPacket (p - 1000) w true injected
  else
    let s := (s.reclaimAll (w.holds ++ w.credit)).endLive w.stamp
    if w.pkt.isCompletion then (if w.pkt.dest % 1024 < 256 then s.bump (PORT_SLUICE.LATE_ANSWERS (w.pkt.dest % 1024)) else s)
    else if w.pkt.ptype = 0xA then s
    else if w.pkt.nonPosted then s.answerTo (ingressCluster w.ingress) w.pkt stContained [] false
    else s.lose w.pkt stContained w.pkt.dest injected

/-- A completion whose slots are counted where it is taken up: prefetch data, whose fate is open, and a busy answer (R640). -/
def State.slotsLater (s : State) (w : Waiting) : Bool :=
  w.path.isEmpty && w.pkt.isCompletion && match s.findPiece w.pkt.dest w.pkt.tag with
    | some o => (o.prefetch && w.pkt.status = stOk) || (o.ptype = 5 && !o.answered && busyAnswer w.pkt)
    | none => false

/-- The dispatch slots of a placement (R638, R640): a packet into crossing 9 or out of crossing 10 takes one for each 128 bytes. Those of prefetch Reads and of Locks
were deferred when they were admitted. -/
def State.dispatchSlots (s : State) (point : Nat) (w : Waiting) : State :=
  if point < 100 then
    let deferred := (w.pkt.ptype = 5 && w.pkt.src / 1024 = s.rank) || s.outstanding.any fun o => o.prefetch && o.id = w.requester && w.requester ≠ 0
    if deferred then s else s.moveSlots point false 0 (slotsOf w.pkt.flitBytes)
  else if point < 200 then (if s.slotsLater w then s else s.moveSlots (point - 100) true 0 (slotsOf w.pkt.flitBytes))
  else s

/-- A memory request to a function of its own partition that is under reset waits for the reset to end (R247): a window that follows a BAR names the function,
any other request may be for each function of its partition on the port (log entry 76). -/
def State.flrWaits (s : State) (p : Nat) (k : Packet) : Bool :=
  s.isPd p && !k.isCompletion && (k.ptype = 1 || k.ptype = 2 || k.ptype = 3 || k.ptype = 4 || k.ptype = 5 || (k.ptype = 0xB && k.sub / 16 % 8 = 1)) &&
    s.flr.any fun x => x.1 = p && match s.bindingOf (s.fabricId p) x.2 (some k.partition) with
      | none => false
      | some b =>
        let w := s.window k.window
        !(k.src / 1024 = s.rank && !k.noWin && w.follow && getBits w.attr 1 3 ≠ 7) || getBits w.attr 4 8 = s.hostFn b x.2

/-- A Completion waits for requests of its source that were decoded before it and may not be passed, and stand unadmitted (R313, R314, R320, R325). -/
def State.behindIngress (s : State) (w : Waiting) : Bool :=
  w.pkt.isCompletion && s.ingress.any fun l => l.2.any fun q => decide (q.order ≤ w.order) && q.pkts.any fun y => holdsBack w { point := w.point, pkt := y }

/-- The packets that may be placed at an ordering point. -/
def State.placeable (s : State) (point : Nat) : List Waiting :=
  (eligibleAt point [] s.waiting).filter fun w => !s.behindIngress w && !(w.path.isEmpty && decide (1000 ≤ point) && decide (point < 2000) && s.flrWaits (point - 1000) w.pkt)

/-- A Completion with an uncorrectable payload word has POISON 1, and its data fails as POISONED (R445, R446). -/
def Packet.poisonedAnswer (k : Packet) : Packet := { k with poison := true, status := if k.ptype = 7 && k.status = stOk then stPoisoned else k.status }

/-- A packet passes an ordering point's crossings (R533): one with an uncorrectable header word is discarded there and counted, one with an uncorrectable payload
word goes on with POISON 1. A Completion for a request of this package is taken up behind the last of its points. -/
def State.passOn (s : State) (point : Nat) (w : Waiting) (last : Bool) : State :=
  let (s, h) := s.cross point w.pkt
  let s := s.dispatchSlots point w
  if h.testBit 1 then
    let d := if point < 100 then clusterDie point else clusterDie (point - 100)
    State.discardWaiting (s.countDiscards d 1) w true
  else if last then s.completionHere (if h.testBit 2 then w.pkt.poisonedAnswer else w.pkt)
  else { s with waiting := s.waiting ++ [if h.testBit 2 then w.poisoned else w] }

/-- A packet is read from the basin on its last way (R446): with an uncorrectable header word it is discarded and answered under R424. -/
def State.readBasin (s : State) (w : Waiting) : Option (State × Waiting) :=
  if w.hurt = 0 then some (s, w)
  else if w.hurt.testBit 1 then none
  else some (s, if w.hurt.testBit 2 then w.poisoned else w)

/-- A packet is placed at an ordering point, or not when what it needs is not free. -/
def State.placeOne (s : State) (point : Nat) (w : Waiting) : Option State :=
    let fly := inFlightOf w
    let s0 := (s.unwait w).returnAll fly
    let w := { w with holds := w.holds.filter fun h => !fly.contains h }
    match w.path with
    | x :: xs =>
      let next := { w with point := x, path := xs }
      if 200 ≤ point && point < 300 then
        match s0.crossD2d ((point - 200) / 4) ((point - 200) % 4) next with
        | some (t, v) => some (t.passOn point v false)
        | none => none
      else
        let s0 := if point < 100 then s0.countDie (clusterDie point) 0x02 1 fun q => maskHas q 0 16 (point % 16) else s0
        some (s0.passOn point next false)
    | [] =>
      if point < 1000 then
        let s0 := s0.readItem (srcDie (clusterDie (point % 100)) 1) w.hurt (w.pkt.dest % 1024)
        if w.hurt.testBit 1 then some (s0.discardWaiting w true)
        else some (s0.passOn point (if w.hurt.testBit 2 then { w with pkt := w.pkt.poisonedAnswer } else w) true)
      else
      let s0 := s0.readItem (srcDie (if 2000 ≤ point then s.endpointDie (point - 2000) else portDie (point - 1000)) 1) w.hurt (point - 1000)
      match s0.readBasin w with
      | none => some (s0.discardWaiting w true)
      | some (s0, w) =>
        if 2000 ≤ point then s0.atEndpoint (point - 2000) w
        else s0.leavePort (point - 1000) w

/-- Of packets that arrived at a point in this order, the one that R383 chooses among those that can be placed; one that what it needs is not free for never holds
back another that may pass it (R315). -/
def State.placeBest (s : State) (point : Nat) : Nat → List Waiting → Option State
  | 0, _ => none
  | n + 1, ws => match choose ws with
    | none => none
    | some w => match s.placeOne point w with
      | some t => some t
      | none => s.placeBest point n (ws.erase w)

/-- One packet is placed at an ordering point. A late packet is eligible only when no other is (R383). Nothing happens when none can be placed. -/
def State.place (s : State) (point : Nat) : State :=
  if s.shutAt point then s
  else
    let ws := s.placeable point
    let now := if ws.any fun w => !w.late then ws.filter fun w => !w.late else ws
    (s.placeBest point now.length now).getD s

/-! ### Packets that arrive at a BF port -/

/-- The types and channels of Table 04-7. -/
def Packet.channelOk (k : Packet) : Bool :=
  if k.ptype = 0xB then decide (k.vc < 3)
  else decide (1 ≤ k.ptype) && decide (k.ptype < 0xB) && k.vc = vcOfType k.ptype

/-- LEN, SUB and byte enables as the chapter allows them (Table 04-7, R200 to R202, R328). -/
def Packet.shapeOk (k : Packet) : Bool :=
  let be := elementEnables k.addr k.len
  let enables := k.fbe = be.1 && k.lbe = be.2
  let in4k := decide (k.addr % 4096 + k.len ≤ 4096)
  if k.ptype = 1 then decide (k.len ≤ 256) && k.sub = 0 && in4k && enables
  else if k.ptype = 2 || k.ptype = 3 then decide (1 ≤ k.len) && decide (k.len ≤ 256) && k.sub = 0 && in4k && enables
  else if k.ptype = 4 then
    let size := atomicSize k.sub k.len
    decide (1 ≤ k.sub) && decide (k.sub ≤ 3) && (if k.sub = 3 then k.len = 8 || k.len = 16 || k.len = 32 else k.len = 4 || k.len = 8) &&
      decide (k.addr % size = 0) && in4k && enables
  else if k.ptype = 5 then decide (1 ≤ k.len) && decide (k.len ≤ 256) && k.sub = 0 && in4k && enables
  else if k.ptype = 6 then k.len = 0 && k.sub = 0
  else if k.ptype = 7 then decide (k.len ≤ 256) && k.sub = 0 && in4k && enables
  else if k.ptype = 8 then if k.sub = 3 then decide (1 ≤ k.len) && decide (k.len ≤ 4096) else k.len = 0 && decide (1 ≤ k.sub) && decide (k.sub ≤ 6)
  else if k.ptype = 9 then ((k.sub = 0 && k.len = 0) || (k.sub = 1 && k.len = 4)) && decide (k.fbe < 16) && k.lbe = 0
  else if k.ptype = 0xA then decide (k.len ≤ 256) && (k.lbe = 0 || decide (8 < k.len)) && ((decide (1 ≤ k.sub % 64) && decide (k.sub % 64 ≤ 4)) || (decide (0x10 ≤ k.sub % 64) && decide (k.sub % 64 < 0x20)))
  else decide (k.len ≤ 4128) && k.fbe = 0 && k.lbe = 0 && (k.sub / 16 % 8 = 1 || k.sub / 16 % 8 = 2) && decide (1 ≤ k.sub % 16) &&
    decide (k.sub % 16 ≤ 4) && decide (8 * (k.sub % 16) ≤ k.len)

/-- A packet is malformed at a BF port (R203). -/
def State.malformed (s : State) (p : Nat) (k : Packet) : Bool :=
  !k.channelOk || k.cls = 3 || !k.shapeOk || decide (15 ≤ k.hops) || s.portRec p (16 + 2 * k.pair) 2 = 0

/-- A malformed packet is discarded: its credits return, the event is raised and it is counted (R203). -/
def State.discardMalformed (s : State) (p : Nat) (k : Packet) : State :=
  ((s.returnLinkCredits p k).wr (PORT_MALFORMED.addr p) (s.rd (PORT_MALFORMED.addr p) + 1)).raise (srcLink p) 6 { port := some p }

/-- A packet that this package delivers or forwards, accepted at a time, waits in the ingress buffer as transit (R379). A tag that comes again ends the wait for the
answer of a request whose reservation a reset took back (R426). -/
def State.transitIn (s : State) (p : Nat) (k : Packet) (at_ : Nat) : State :=
  let (s, id) := s.newId
  let o : Outstanding :=
    { id := id, port := p, native := some k, ptype := k.ptype, cls := k.cls, window := k.window, noWin := k.noWin, partition := k.partition
      dest := k.dest, addr := k.addr, received := at_, transit := true, pieces := [] }
  let stale := fun (x : Outstanding) => x.transit && x.answered && (match x.native with | some n => n.src = k.src && n.tag = k.tag | none => false)
  let s := if k.nonPosted then { s with outstanding := (s.outstanding.filter fun x => !stale x) ++ [o] } else s
  s.enqueue (ingressKey p k.pair)
    { id := id, transit := true, pkts := [k], holds := bfHolds p k, received := at_, requester := if k.nonPosted then id else 0, order := id }

/-- A WRITE-LOSS Event reaches the package of the lost write (R199, R466). -/
def State.writeLossHere (s : State) (k : Packet) : State :=
  s.enterLoss { window := k.window, noWin := k.noWin, partition := k.partition, status := k.status, src := k.dest, addr := k.addr
                tag := k.tag, reporter := k.src, len := k.len }

/-- A Lock or Unlock packet for a port that is no PD port is checked as an access of kind lock and refused (R340). -/
def State.refuseLock (s : State) (p : Nat) (k : Packet) : State :=
  let (s, ok) := s.checkPacket (portDie p) { id := k.src, partition := some k.partition } k (some p)
  s.refuseNative (portCluster p) k (if ok then stNotMapped else stDenied)

/-- A packet that a BF port has accepted at a time (R203, R209, R270, R378, R379). -/
def State.arriveBf (s : State) (p : Nat) (k : Packet) (at_ : Nat) : State :=
  let c := portCluster p
  let n := k.dest % 1024
  if s.malformed p k then s.discardMalformed p k
  else if k.dest / 1024 ≠ s.rank then
    if k.isCompletion || k.ptype = 0xA then
      let loc := s.localDeadline (clusterDie c) k.dest k.cls k.deadline
      -- a completion that passes through takes the reservation its request made
      match s.outstanding.find? fun o => k.isCompletion && o.transit && (match o.native with | some r => r.src = k.dest && r.tag = k.tag | none => false) with
      | some o =>
        let s := s.dropOutstanding o.id
        (if o.answered then s.lateAnswer o.port
          else s.sendFrom c { point := 0, pkt := k, deadline := loc, ingress := p, holds := o.holds, stamp := o.stamp } (s.egress (clusterDie c) k.dest)).returnLinkCredits p k
      | none => (s.sendFrom c { point := 0, pkt := k, deadline := loc, ingress := p } (s.egress (clusterDie c) k.dest)).returnLinkCredits p k
    else s.transitIn p k at_
  else if k.isCompletion then (s.carryNear c k p).returnLinkCredits p k
  else if n ≥ 256 && !(k.ptype = 8 && k.sub = 3 && s.endpointExists n) then
    if !s.endpointExists n then
      if k.nonPosted then (s.complete c k stNotMapped [] false).returnLinkCredits p k else s.discardMalformed p k
    else if k.ptype = 0xA then
      (s.sendFrom c { point := 0, pkt := k, deadline := k.deadline, ingress := p } (.endpoint n)).returnLinkCredits p k
    else s.transitIn p k at_
  else if k.ptype = 8 && k.sub = 3 then
    let (s, ok) := s.checkPacket (clusterDie c) { id := k.src, partition := some k.partition } k (some p)
    (if ok then s.writeLossHere k else s).returnLinkCredits p k
  else if (k.ptype = 5 || k.ptype = 6) && (s.isBf n || !s.isPort n) then (s.refuseLock p k).returnLinkCredits p k
  else if n = p then s.receiveNative p k at_
  else if s.isBf n || !s.isPort n then (s.refuseNative c k stNotMapped).returnLinkCredits p k
  else s.transitIn p k at_

/-- The first packet of a list that may be taken up, after packets that wait. One that would leave the receiver at once waits while earlier packets of
its pair stand in the ingress buffer, and no packet passes an earlier one of its pair (R190). -/
def State.takeArrival (s : State) (p : Nat) (waiting : List (Packet × Nat)) : List (Packet × Nat) → State
  | [] => s
  | (k, at_) :: rest =>
    let t := (s.setLink p { s.link p with arrived := waiting ++ rest }).arriveBf p k at_
    let here := s.ingressQ (ingressKey p k.pair)
    if (waiting.any fun x => x.1.pair = k.pair) || (!here.isEmpty && decide ((t.ingressQ (ingressKey p k.pair)).length ≤ here.length))
    then s.takeArrival p (waiting ++ [(k, at_)]) rest
    else t

/-- The oldest packet that the link layer of a BF port has accepted and that may be taken up. -/
def State.nextArrival (s : State) (p : Nat) : State := s.takeArrival p [] (s.link p).arrived

/-- Every packet that a BF port has accepted is taken up: its link goes down. -/
def State.allArrive (s : State) (p : Nat) : State :=
  (s.link p).arrived.foldl (fun (s : State) x => s.arriveBf p x.1 x.2) (s.setLink p { s.link p with arrived := [] })

end Sys2Proof.Machine
end

