-- ==== Sys2Proof/Machine/Route.lean ====
section
/-! DEFINITION. Routes change (R324, R360, R389): waiting packets move to the egress that their destination now has. -/

namespace Sys2Proof.Machine

/-- The die of an ordering point. -/
def State.pointDie (s : State) (x : Nat) : Nat :=
  if x < 100 then clusterDie x else if x < 200 then clusterDie (x - 100) else if x < 300 then (x - 200) / 4
  else if x < 2000 then portDie (x - 1000) else s.endpointDie (x - 2000)

/-- The points that a packet at a point must still pass to reach an egress. -/
def State.pathOn (s : State) (x : Nat) (e : Egress) : Option (List Nat) :=
  if x < 100 then s.pathFrom x e
  else match s.finalPoint e with
    | none => none
    | some (fin, die) => match s.diePath (s.pointDie x) die with
      | none => none
      | some dies =>
        let out := match e with
          | .port p => [pointOut (p / 4)]
          | .endpoint n => if n < 768 then [pointOut ((n - 256) / 8)] else []
          | .none => []
        let pts := d2dPoints dies ++ out ++ [fin]
        some (if pts.contains x then pts.dropWhile fun y => y ≠ x else pts)

/-- Bookings, credits and calendar units of a packet follow it to its new egress port. -/
def State.rebook (s : State) (w : Waiting) (old new : Nat) : State × Waiting :=
  let isOld := fun (h : Hold) => h.ledger = portLedger old 31
  let cal := w.holds.filter isOld
  let s := (s.returnAll cal).returnAll w.credit
  let moved : List Hold := cal.map fun h => ⟨portLedger new 31, h.units⟩
  let basin := w.holds.filter fun h => decide (16384 ≤ h.ledger) && decide (h.ledger % 256 < 16)
  let nb : List Hold := basin.map fun h => ⟨dieLedger (portDie new) (h.ledger % 256), h.units⟩
  let s := ((s.returnAll basin).issueAll nb).issueAll moved
  let keep := w.holds.filter fun h => !isOld h && !basin.contains h
  (s, { w with credit := [], holds := keep ++ moved ++ nb
               books := w.books.map fun b => if b.resource = old then { b with resource := new } else b })

/-- The cluster at which a packet that waits came in or was formed. -/
def State.sourceCluster (s : State) (w : Waiting) : Nat :=
  if w.ingress < 256 then w.ingress / 4
  else if 1024 ≤ w.ingress then (w.ingress - 1024) / 8
  else if w.ingress < 768 then (w.ingress - 256) / 8 else 16 * s.endpointDie w.ingress

/-- The points that a packet must now pass, the one where it waits first, when its destination has egress e and that is not the way it goes already. A packet whose
point no longer lies on the way goes to the first point of it on its die, or to the new egress itself, so that nothing of its flow overtakes it by a shorter path
(R324; DESIGN CHOICE, log entry 95). -/
def State.newPath (s : State) (w : Waiting) (e : Egress) : Option (List Nat) :=
  match (s.pathFrom (s.sourceCluster w) e).orElse fun _ => s.pathOn w.point e with
  | none => none
  | some l =>
    -- a Completion for a request of this package ends at its requester's cluster
    let full := if lastPoint w < 1000 then l.dropLast else l
    match full.getLast? with
    | none => none
    | some fin =>
      if (w.point :: w.path).isSuffixOf full || (s.diePath (s.pointDie w.point) (s.pointDie fin)).isNone then none
      else if full.contains w.point then some (full.dropWhile fun x => x ≠ w.point)
      else match full.dropWhile fun x => decide (x < 100) || s.pointDie x ≠ s.pointDie w.point with
        | [] => some [fin]
        | pts => some pts

/-- The die-to-die interfaces among ordering points, as die and interface. -/
def interfacesOf (pts : List Nat) : List (Nat × Nat) :=
  (pts.filter fun x => decide (200 ≤ x) && decide (x < 300)).map fun x => ((x - 200) / 4, (x - 200) % 4)

/-- What a packet booked at die-to-die interfaces follows its new way: bookings of interfaces that it no longer meets are cleared, and those that it meets now take
them. -/
def State.rebookDies (s : State) (w : Waiting) (pts : List Nat) : State × Waiting :=
  let before := interfacesOf (w.point :: w.path)
  let after := interfacesOf pts
  let hold := fun (x : Nat × Nat) => (⟨dieLedger x.1 (64 + x.2), w.pkt.flitBytes⟩ : Hold)
  let lost := (before.filter fun x => !after.contains x).filter fun x => w.holds.contains (hold x)
  let new := if w.books.isEmpty then [] else after.filter fun x => !before.contains x
  let s := (s.returnAll (lost.map hold)).issueAll (new.map hold)
  let bucket := (w.books.map (·.bucket)).foldl min 511
  (s, { w with holds := (lost.foldl (fun (h : List Hold) x => h.erase (hold x)) w.holds) ++ new.map hold
               books := (w.books.filter fun b => !lost.any fun x => b.resource = d2dResource x.1 x.2) ++
                 new.map fun x => { resource := d2dResource x.1 x.2, bucket := bucket, bytes := w.pkt.flitBytes, isLocal := false } })

/-- Waiting packets move in their order to the egress that their destination now has (R324): those that were further on their way before the others, behind what waits
there already. -/
def State.reroute (s : State) : State :=
  let (s, stay, moved) := s.waiting.foldl (fun (a : State × List Waiting × List (Nat × Waiting)) w =>
    let (s, stay, moved) := a
    if w.pkt.ptype = 0xA && w.path.isEmpty then (s, stay ++ [w], moved)
    else match s.newPath w (s.egress (clusterDie (s.sourceCluster w)) w.pkt.dest) with
      | some (x :: xs) =>
        let old := lastPoint w
        let new := (xs.getLast?).getD x
        let left := w.path.length
        let here := w.point
        let (s, w) := s.rebookDies w (x :: xs)
        let (s, w) := if old ≠ new && decide (1000 ≤ old) && decide (old < 2000) && decide (1000 ≤ new) && decide (new < 2000)
          then (let (s, w) := s.rebook w (old - 1000) (new - 1000); (s.bookedOn (new - 1000), w)) else (s, w)
        let w := { w with point := x, path := xs }
        if x = here then (s, stay ++ [w], moved) else (s, stay, moved ++ [(left, w)])
      | _ => (s, stay ++ [w], moved)) (s, [], [])
  let most := moved.foldl (fun n x => max n x.1) 0
  { s with waiting := stay ++ (List.range (most + 1)).flatMap fun n => (moved.filter fun x => x.1 = n).map (·.2) }

/-- Routes have changed since a state: dies form R_out anew, where a path bound too long is reported (R389), and waiting packets move (R324, R360). -/
def State.routesMoved (s before : State) : State :=
  (if s.bfPorts.any fun q => s.halfTooLong q && !before.halfTooLong q then s.raise (srcPkg 5) 1 else s).reroute

end Sys2Proof.Machine
end

