-- ==== Sys2Proof/Machine/Lanes.lean ====
section
/-! DEFINITION. Lane units (chapter 03): the adapter, the samplers, transmit taps, entry to Lock, and how a BF port leaves Active. -/

namespace Sys2Proof.Machine

/-- A lane unit. -/
def State.laneSt (s : State) (l : Nat) : LaneState := tabGet (fun _ => {}) s.lanes l

/-- Replace a lane unit. -/
def State.setLaneSt (s : State) (l : Nat) (x : LaneState) : State := { s with lanes := tabPut (fun _ => {}) s.lanes l x }

/-- The lanes of a cluster. -/
def clusterLanes (c : Nat) : List Nat := (List.range 8).map (8 * c + ·)

/-! ### The adapter (R142, R144) -/

/-- FREEZE_CAUSE: the first condition of R142 that fails, by its code (Table 03-16). -/
def State.freezeCause (s : State) (l : Nat) : Nat :=
  if !s.flag (LN_STATE.BLOCK_LOCK l) then 4
  else if s.get (LN_QUAL.FOM l) < s.laneRec l 3 1 then 2
  else if s.get (LN_STATE.RX_SLEEP l) ≠ 0 then 3
  else if (s.laneSt l).idle then 1 else 0

/-- The figure of merit is below what R145 allows. -/
def State.driftLow (s : State) (l : Nat) : Bool :=
  decide (s.get (LN_QUAL.FOM l) + s.laneRec l 4 1 < s.get (LN_QUAL.BASELINE l)) || decide (s.get (LN_QUAL.FOM l) < s.laneRec l 3 1)

/-- The drift watchdog runs: the receiver is awake and the lane in Active, a PCI Express lane in the standard's states (R145; log entry 69). -/
def State.driftRuns (s : State) (l : Nat) : Bool :=
  s.get (LN_STATE.RX_SLEEP l) = 0 && (s.get (LN_STATE.TRAIN_STATE l) = 5 || s.get (LN_STATE.TRAIN_STATE l) = 6)

/-- DRIFT_LIVE says whether a condition of the watchdog holds now (Table 03-10). -/
def State.updateDrift (s : State) (l : Nat) : State := s.setFlag (LN_QUAL.DRIFT_LIVE l) (s.driftRuns l && s.driftLow l)

/-- The adapter freezes or resumes with the conditions of R142; on freezing it loads the last checkpoint (R144). -/
def State.updateAdapter (s : State) (l : Nat) : State :=
  let c := s.freezeCause l
  let was := s.flag (LN_STATE.ADAPT_FROZEN l)
  let s := ((s.set (LN_STATE.FREEZE_CAUSE l) c).setFlag (LN_STATE.ADAPT_FROZEN l) (decide (c ≠ 0))).updateDrift l
  if !was && decide (c ≠ 0) then let x := s.laneSt l; s.setLaneSt l { x with values := x.checkpoint } else s

/-- Something other than logical or electrical idle has come on a PCI Express port: a link in L1 is back in L0, and its lanes are idle no longer (R142, R143,
R225, log entry 77). -/
def State.portHeard (s : State) (p : Nat) : State :=
  let s := if s.get (PORT_PCIE.LINK_STATE p) = 5 then s.set (PORT_PCIE.LINK_STATE p) 3 else s
  (s.portLanes p).foldl (fun (s : State) l =>
    if (s.laneSt l).idle then (s.setLaneSt l { s.laneSt l with idle := false }).updateAdapter l else s) s

/-! ### Offset samplers and eye scans (R148 to R152) -/

/-- A lane is active (R148). -/
def State.laneActive (s : State) (l : Nat) : Bool := decide (s.get (LN_STATE.RX_SLEEP l) ≠ 2)

/-- The eye scan of a lane discards its contour (R150, R152). -/
def State.stopScan (s : State) (l : Nat) : State :=
  let s := (s.setFlag (LN_EYE.EYE_VALID l) false).set (LN_EYE.CONTOURS l) 0
  let s := (s.set (LN_EYE.TOP l) 0).set (LN_EYE.BOTTOM l) 0
  s.setLaneSt l { s.laneSt l with contour := [] }

/-- The samplers of a cluster follow its active lanes (R148 to R150). -/
def State.updateSamplers (s : State) (c : Nat) : State :=
  let ls := clusterLanes c
  let dense := decide (4 < (ls.filter s.laneActive).length)
  let was := s.flag (LN_QUAL.DENSE (8 * c))
  let s : State := if dense = was then s
    else (ls.foldl (fun (s : State) l => (s.stopScan l).setFlag (LN_QUAL.DENSE l) dense) s).raise (srcCluster c 41) 0
  ls.foldl (fun (s : State) l =>
    let own := !dense && s.laneActive l
    let s : State := if s.flag (LN_QUAL.SAMPLER_OWNED l) && !own then s.stopScan l else s
    s.setFlag (LN_QUAL.SAMPLER_OWNED l) own) s

/-- A direction of a lane changes its sleep state (Table 03-13). -/
def State.setSleep (s : State) (l : Nat) (tx rx : Nat) : State :=
  let s := (s.set (LN_STATE.TX_SLEEP l) tx).set (LN_STATE.RX_SLEEP l) rx
  (s.updateSamplers (l / 8)).updateAdapter l

/-- A lane is Off in both directions (R32, Table 14-1). -/
def State.laneOff (s : State) (l : Nat) : State :=
  let s := ((s.set (LN_STATE.TRAIN_STATE l) 0).setFlag (LN_STATE.BLOCK_LOCK l) false).setFlag (LN_STATE.IN_MASK l) false
  let s := s.setFlag (LN_STATE.POL_INV l) false
  let s := (s.stopScan l).setLaneSt l {}
  s.setSleep l 2 2

/-! ### Transmit taps (R137 to R140) -/

/-- Table 03-7: the pre-cursor and post-cursor of a preset. -/
def presetTaps (n : Nat) : Nat × Nat :=
  match n with
  | 0 => (0, 0) | 1 => (0, 8) | 2 => (0, 16) | 3 => (0, 24) | 4 => (4, 8) | 5 => (4, 16) | 6 => (8, 12) | _ => (8, 20)

/-- Taps inside R137. -/
def tapsAllowed (pre post : Nat) : Bool := decide (pre ≤ 16) && decide (post ≤ 24) && decide (pre + post ≤ 40)

/-- The taps of a lane take values; the main cursor is what remains of 64. -/
def State.setTaps (s : State) (l pre post used : Nat) : State :=
  (((s.set (LN_TXEQ.PRE l) pre).set (LN_TXEQ.POST l) post).set (LN_TXEQ.MAIN l) (64 - pre - post)).set (LN_TXEQ.PRESET_IN_USE l) used

/-- The preset a BF lane trains with (R140, Table 03-9). DESIGN CHOICE: FORCE_PRESET 0x1 to 0x7, which Table 03-8 gives no meaning, leaves the preset to the lane
record as 0x0 does (log entry 88). -/
def State.trainPreset (s : State) (l : Nat) : Nat :=
  let f := s.get (LN_TXEQ.FORCE_PRESET l)
  if 8 ≤ f then f - 8 else s.laneRec l 2 1 % 8

/-! ### Training (Table 03-5) -/

/-- The lane is one of its port's transmit mask: its transmitter carries flits. -/
def State.carries (s : State) (l : Nat) : Bool :=
  match s.lanePort l with
  | some p => s.isBf p && (s.get (PORT_BOND.TX_MASK p)).testBit ((s.portLanes p).findIdx fun x => x = l)
  | none => false

/-- The transmitter of a BF lane that trains takes the initial preset (Table 03-5, R140). -/
def State.initialTaps (s : State) (l : Nat) : State :=
  let n := s.trainPreset l
  s.setTaps l (presetTaps n).1 (presetTaps n).2 n

/-- A BF lane enters Lock; `again` when it returns there (R133). A transmitter that carries flits keeps its taps until it leaves the transmit mask
(R165; log entry 69). -/
def State.enterLock (s : State) (l : Nat) (again : Bool) : State :=
  let s := (s.set (LN_STATE.TRAIN_STATE l) 1).setFlag (LN_STATE.IN_MASK l) false
  let s := if again then s.bump (LN_STATE.RETRAIN_COUNT l) else s
  let s := if s.carries l then s else s.initialTaps l
  let x := s.laneSt l
  let s := s.setLaneSt l { x with peerState := 0, confirms := 0, eqDone := false, applied := none, resp := 0, request := 0, requestSeq := 0, leaving := false }
  s.setSleep l 0 0

/-- MIN_LANES of a BF port (R159). -/
def State.minLanes (s : State) (p : Nat) : Nat := s.portRec p 5 1

/-- The lane with a port lane number. -/
def State.laneOf (s : State) (p i : Nat) : Nat := (s.portLanes p).getD i 0

/-- The port lane number of a lane. -/
def State.portLane (s : State) (p l : Nat) : Nat := (s.portLanes p).findIdx fun x => x = l

/-- No lane of the port is left out any more (R134). -/
def State.noneLeft (s : State) (p : Nat) : State :=
  (s.portLanes p).foldl (fun (s : State) l => s.setLaneSt l { s.laneSt l with left := false }) s

/-- A BF port leaves Active and trains from Lock on all its lanes; its session is kept (R164, R185, R186), and what it routed moves where there is a second route
(R360). -/
def State.retrainPort (s : State) (p : Nat) : State :=
  let st := s.get (PORT_LINK.LL_STATE p)
  let was := decide (s.get (PORT_BOND.TX_MASK p) ≠ 0)
  let s := (s.set (PORT_BOND.TX_MASK p) 0).set (PORT_BOND.RX_MASK p) 0
  let s := ((s.portLanes p).foldl (fun (s : State) l => s.enterLock l true) s).noneLeft p
  let x := s.link p
  let s := s.setLink p { x with initGood := false, peerSeen := false, mismatch := false, resumed := false, initsSent := 0, mapPending := none
                                mapDue := none, switch := [], rxPending := [], dozing := 0, wakeAt := none
                                leftAt := if was then s.now else x.leftAt }
  if st = 0 || st = 4 then s else (State.republish (s.set (PORT_LINK.LL_STATE p) 3) 0xA).routesMoved s

/-! ### Masks (R160 to R167) -/

/-- The link's round trip in slots, rounded up: 64 µs before it is learnt (R160). -/
def State.roundTripSlots (s : State) (p : Nat) : Nat :=
  match (s.link p).flight with
  | some d => ceilDiv (2 * d * 10) 2048
  | none => 5000

/-- A LANEMAP element (Table 03-3). -/
def lanemapElement (mask mseq switch : Nat) : Word :=
  controlElement tyLanemap (mask % 2 ^ 16 * 2 ^ 40 + mseq % 16 * 2 ^ 36 + switch % 2 ^ 24)

/-- The mask that waits to be seen applied, with the first SWITCH sent for it, and the flit slots seen from there (R162). -/
def LinkSession.repeats (x : LinkSession) (mask sw : Nat) : Nat × Nat × Nat :=
  match x.mapPending with
  | some (m, k) => if m = mask then (m, k, x.mapSeen) else (mask, sw, 0)
  | none => (mask, sw, 0)

/-- The receiver of a direction has a LANEMAP to send: the next slot that is no marker slot carries it, well within 16 slots (R160, R162). -/
def State.sendLanemap (s : State) (p mask : Nat) : State := (s.setLink p { s.link p with mapDue := some mask }).wakeRequest p

/-- A receive mask waits for its SWITCH: the nearest first, of equal ones the first announced. -/
def insertMask (e : Nat × Nat) : List (Nat × Nat) → List (Nat × Nat)
  | [] => [e]
  | x :: rest => if e.2 < x.2 then e :: x :: rest else x :: insertMask e rest

/-- The LANEMAP that leaves now, with a new SWITCH and MSEQ (R160, R162). -/
def State.formLanemap (s : State) (p mask : Nat) : State × Word :=
  let x := s.link p
  let sw := x.partnerSlot + s.roundTripSlots p + 64
  let n := (x.mapSeq + 1) % 16
  let (m, k, seen) := x.repeats mask sw
  (s.setLink p { x with mapSeq := n, mapPending := some (m, k), mapDue := none, rxPending := insertMask (mask, sw) x.rxPending, mapSeen := seen },
   lanemapElement mask n sw)

/-- The mask that the receiver of a port is moving to. -/
def State.wantedMask (s : State) (p : Nat) : Nat :=
  match (s.link p).mapDue, (s.link p).mapPending with
  | some m, _ => m
  | none, some (m, _) => m
  | none, none => s.get (PORT_BOND.RX_MASK p)

/-- The receiver takes port lane i out of its mask, or retrains the port (R160, R164). -/
def State.dropLane (s : State) (p i : Nat) : State :=
  let mask := withoutBit (s.wantedMask p) i
  let s := s.bump (LN_STATE.DROP_COUNT (s.laneOf p i))
  if maskCount mask < s.minLanes p then s.retrainPort p else s.sendLanemap p mask

/-- The port's session is in Active: its lanes carry flits. -/
def State.portActive (s : State) (p : Nat) : Bool := s.isBf p && decide (s.get (PORT_BOND.TX_MASK p) ≠ 0)

/-- BLOCK_LOCK falls, and the lane's run of codewords starts anew (R127). -/
def State.clearLock (s : State) (l : Nat) : State :=
  let s := (s.setFlag (LN_STATE.BLOCK_LOCK l) false).stopScan l
  (s.setLaneSt l { s.laneSt l with goodRun := 0, badRun := 0, rxSlot := none, buffer := [] }).updateAdapter l

/-- What follows the loss of block lock: its causes, and for a lane in its port's mask the way to Lock and out of the mask (R152, R160). -/
def State.lockLost (s : State) (l : Nat) : State :=
  match s.lanePort l with
  | some p =>
    let i := s.portLane p l
    let inMask := s.portActive p && (s.wantedMask p).testBit i
    let s := s.raiseMask (srcLane l) (if inMask then 3 else 1) { port := some p }
    if inMask then (s.enterLock l true).dropLane p i else s
  | none => s.raise (srcLane l) 0

/-- A lane loses block lock (R127, R152, R160). -/
def State.loseLock (s : State) (l : Nat) : State :=
  if s.flag (LN_STATE.BLOCK_LOCK l) then (s.clearLock l).lockLost l else s

/-- The receive mask takes a value that was announced, from slot sw on (R169). -/
def State.takeRxMask (s : State) (p m sw : Nat) : State :=
  if s.get (PORT_BOND.RX_MASK p) = m then s
  else
    let s := s.setLink p { s.link p with rxMaskOld := s.get (PORT_BOND.RX_MASK p), rxSwitch := sw }
    let s := (s.set (PORT_BOND.RX_MASK p) m).bump (PORT_BOND.WIDTH_CHANGES p)
    (List.range (s.portWidth p)).foldl (fun (s : State) i =>
      let l := s.laneOf p i
      let was := s.flag (LN_STATE.IN_MASK l)
      let s := s.setFlag (LN_STATE.IN_MASK l) (m.testBit i)
      if m.testBit i && !was then ((s.set (LN_STATE.TRAIN_STATE l) 5).set (LN_QUAL.BASELINE l) (s.get (LN_QUAL.FOM l))).updateDrift l
      else if !m.testBit i && (s.laneSt l).leaving then s.enterLock l true
      else s) s

/-- The receive mask takes each value that was announced, at its SWITCH (R169). -/
def State.applyRxMask (s : State) (p : Nat) : State :=
  let x := s.link p
  let due := x.rxPending.takeWhile fun y => decide (y.2 ≤ x.partnerSlot)
  if due.isEmpty then s else
  let s := s.setLink p { x with rxPending := x.rxPending.drop due.length }
  due.foldl (fun (s : State) y => s.takeRxMask p y.1 y.2) s

/-- The receive mask in force at a slot of the partner (R169). -/
def State.rxMaskAt (s : State) (p slot : Nat) : Nat :=
  if slot < (s.link p).rxSwitch then (s.link p).rxMaskOld else s.get (PORT_BOND.RX_MASK p)

/-! ### The transmit mask (R161, R164, R167) -/

/-- SWITCH lies 1 to 2^23 slots ahead, modulo 2^24 (R161). -/
def switchAhead (slot sw : Nat) : Bool :=
  let d := (sw + 2 ^ 24 - slot % 2 ^ 24) % 2 ^ 24
  decide (1 ≤ d) && decide (d ≤ 2 ^ 23)

/-- A LANEMAP waits for its SWITCH: the nearest first, of equal ones the first received. -/
def insertSwitch (slot : Nat) (e : Nat × Nat × Nat) : List (Nat × Nat × Nat) → List (Nat × Nat × Nat)
  | [] => [e]
  | x :: rest =>
    if (e.2.1 + 2 ^ 24 - slot % 2 ^ 24) % 2 ^ 24 < (x.2.1 + 2 ^ 24 - slot % 2 ^ 24) % 2 ^ 24 then e :: x :: rest else x :: insertSwitch slot e rest

/-- The transmit mask takes a value (R161, R164, R167): a lane that leaves it trains from the initial preset. -/
def State.takeTxMask (s : State) (p m : Nat) : State :=
  let was := s.get (PORT_BOND.TX_MASK p)
  if !s.portActive p || m = was then s
  else if maskCount m < s.minLanes p then s.retrainPort p
  else
    let s := (s.set (PORT_BOND.TX_MASK p) m).bump (PORT_BOND.WIDTH_CHANGES p)
    let s := (List.range (s.portWidth p)).foldl (fun (s : State) i =>
      let l := s.laneOf p i
      if was.testBit i && !m.testBit i then
        let s := (s.initialTaps l).setLaneSt l { s.laneSt l with applied := none, resp := 0 }
        -- the direction sleeps in the lanes of its mask only (R154, R165)
        if s.get (LN_STATE.TX_SLEEP l) = 1 then s.setSleep l 0 (s.get (LN_STATE.RX_SLEEP l)) else s
      else if !was.testBit i && m.testBit i && (s.link p).dozing = 2 then
        (s.setLaneSt l { s.laneSt l with half := [] }).setSleep l 1 (s.get (LN_STATE.RX_SLEEP l))
      else s) s
    s.republish (if maskCount m < maskCount was then 1 else 2)

/-- At the start of a slot, the transmit masks whose SWITCH has come apply (R161, R169). -/
def State.applyTxMask (s : State) (p slot : Nat) : State :=
  let x := s.link p
  let due := x.switch.takeWhile fun e => !switchAhead slot e.2.1
  if due.isEmpty then s else
  let s := s.setLink p { x with switch := x.switch.drop due.length }
  due.foldl (fun (s : State) e => s.takeTxMask p e.1) s

/-- Every lane of a port is Off (Table 03-5, Quiet). -/
def State.quietPort (s : State) (p : Nat) : State := (s.portLanes p).foldl (fun (s : State) l => s.laneOff l) s

end Sys2Proof.Machine
end

