-- ==== Sys2Proof/Machine/Link.lean ====
section
/-! DEFINITION. The Burek link layer (R171 to R209): flits and their headers, sequence, acknowledgement and replay, the INIT exchange, credit
returns, the tally exchange, packing, and link down. -/

namespace Sys2Proof.Machine

/-! ### Flit headers (Table 04-1) -/

/-- Own LIMIT of a pair (Table 01-7). -/
def State.ownLimit (s : State) (p i : Nat) : Nat := s.portRec p (16 + 2 * i) 2

/-- The CR field of pair i: channel, class and the low 12 bits of the credits returned. -/
def creditField (x : LinkSession) (i : Nat) : Nat := (i / 3 * 4 + i % 3) * 4096 + (x.returned.getD i 0) % 4096

/-- The ACK that a header carries from the end of the INIT exchange (R182). -/
def State.ackNow (s : State) (p : Nat) : Nat := (s.get (PORT_LINK.RX_EXPECT p) + 2 ^ 14 - 1) % 2 ^ 14

/-- The two elements of a flit header (R172). The sender rotates through the twelve pairs (R193). -/
def State.flitHeader (s : State) (p ftype seq first ack : Nat) : List Word :=
  let x := s.link p
  let st := s.get (PORT_LINK.LL_STATE p)
  let valid := decide (st = 2)
  let nak := s.flag (PORT_LINK.NAK_PENDING p)
  let c1 := creditField x ((x.crIndex + 1) % 12)
  let h := ftype * 2 ^ 124 + seq % 2 ^ 14 * 2 ^ 110 +
    (if valid then ack % 2 ^ 14 * 2 ^ 96 + 2 ^ 95 + (if nak then 2 ^ 94 else 0) + x.nakSeq % 4 * 2 ^ 92 else 0) +
    first * 2 ^ 86 + creditField x x.crIndex * 2 ^ 70 + c1 * 2 ^ 54
  [BitVec.ofNat 64 (h / 2 ^ 64), BitVec.ofNat 64 h]

/-- A flit leaves: header, packet space and CRC; the next header reports the next two pairs (R193). -/
def State.sendFlit (s : State) (p ftype seq first ack : Nat) (space : List Word) : State :=
  let body := s.flitHeader p ftype seq first ack ++ space ++ List.replicate (37 - space.length) 0
  let x := s.link p
  let (s, crc) := s.sentCrc p (flitCrc body)
  (s.setLink p { x with crIndex := (x.crIndex + 2) % 12, nullDue := false }).emit (.flitOut p (body ++ [crc]))

/-- PORT_LINK shows the flits held; the replay ledger holds as many (Table 09-1). -/
def State.showHeld (s : State) (p : Nat) : State :=
  let n := (s.link p).held.length
  let k := portLedger p 1
  let out := (s.ledger k).out
  let s := if out < n then s.issue k (n - out) else if n < out then s.returnAll [⟨k, out - n⟩] else s
  s.set (PORT_LINK.HELD p) n

/-- A new sequenced flit is held until it is acknowledged, and leaves (R179). -/
def State.sendSequenced (s : State) (p ftype first : Nat) (space : List Word) (pkts : List Packet) : State :=
  let seq := s.get (PORT_LINK.TX_NEXT p)
  let x := s.link p
  -- its words are written in the replay buffer (checker 0x02)
  let (s, h) := s.writeItem (portDie p) 2 (p / 4 % 16) space.length 0
  let f : HeldFlit := { seq := seq, elements := space, spent := x.spent, pkts := pkts, first := first, tally := ftype = 3
                        ack := if ftype = 3 then some (s.ackNow p) else none, hurt := h }
  let s := (s.setLink p { x with held := x.held ++ [f], resendFrom := x.resendFrom + (if x.resendFrom = x.held.length then 1 else 0)
                                 replayAt := if x.held.isEmpty then s.now else x.replayAt })
  let s := (s.set (PORT_LINK.TX_NEXT p) ((seq + 1) % 2 ^ 14)).showHeld p
  s.sendFlit p ftype seq first (s.ackNow p) space

/-! ### Packing (R205, R206) -/

/-- The next PKT flit's packet space: up to 37 elements of the packets placed, padded with zeros. The credits of the packets whose headers it
completes are spent (R191, R418). FIRST names the first header that begins in it. Packets whose last element it carries have left the port (R362, R384, R415). -/
def State.sendPackets (s : State) (p : Nat) : State :=
  let x := s.link p
  let here := x.txMarks.filter fun m => decide (m.1 < 37)
  let first := match x.txMarks.find? fun m => decide (3 ≤ m.1) && decide (m.1 < 40) with
    | some m => m.1 - 3
    | none => 0x3F
  let s := s.setLink p { x with
    txElements := x.txElements.drop 37
    txMarks := (x.txMarks.filter fun m => decide (37 ≤ m.1)).map fun m => (m.1 - 37, m.2)
    txEnds := (x.txEnds.filter fun m => decide (37 ≤ m.1)).map fun m => (m.1 - 37, m.2)
    spent := (List.range 12).map fun i => here.foldl (fun n m => if m.2.pair = i then n + m.2.credits else n) (x.spent.getD i 0) }
  let s := (s.sendSequenced p 1 first (x.txElements.take 37) (here.map (·.2))).countPort p 0x14 1
  (x.txEnds.filter fun m => decide (m.1 < 37)).foldl (fun (s : State) m => (s.countMiss p m.2).letGo m.2) s

/-- A held flit is resent in SEQ order (R183); PORT_REPLAYED counts it, and its dispatch slots are wasted (R638, event 0x07). -/
def State.resend (s : State) (p : Nat) (f : HeldFlit) : State :=
  let x := s.link p
  let s := s.setLink p { x with resendFrom := x.resendFrom + 1 }
  let s := (s.wr (PORT_REPLAYED.addr p) (s.rd (PORT_REPLAYED.addr p) + 1)).countPort p 0x15 1
  let s := (s.countCl (portCluster p) 7 (slotsOf 320) fun _ => true).moveSlots (portCluster p) true 1 (slotsOf 320)
  s.sendFlit p (if f.tally then 3 else 1) f.seq f.first (f.ack.getD (s.ackNow p)) f.elements

/-! ### INIT (Table 04-3) -/

/-- The width code of Table 03-6. -/
def State.widthCode (s : State) (p : Nat) : Nat := s.portRec p 2 1

/-- The packet space of the INIT flit a port sends. -/
def State.initSpace (s : State) (p : Nat) : List Word :=
  let x := s.link p
  let resume := s.get (PORT_LINK.LL_STATE p) = 3
  let doze := s.policy p = 1 || s.policy p = 2
  [BitVec.ofNat 64 (s.fabricId p * 2 ^ 48 + s.sealed.domain % 2 ^ 32 * 2 ^ 16 + 0x0100 + (if x.initGood then 2 ^ 7 else 0) +
     (if resume then 2 ^ 6 else 0) + (if doze then 2 ^ 5 else 0)),
   BitVec.ofNat 64 (s.get (PORT_LINK.TX_NEXT p) * 2 ^ 50 + s.get (PORT_LINK.RX_EXPECT p) * 2 ^ 36 + s.widthCode p * 2 ^ 32 +
     s.allotment p * 2 ^ 16 + 0x0190)] ++
  (List.range 3).map fun j => BitVec.ofNat 64 ((List.range 4).foldl (fun n i => n * 65536 + s.ownLimit p (4 * j + i)) 0)

/-- What an INIT flit's packet space says. -/
def initOf (e : List Word) : PartnerInit :=
  let a := (e.getD 0 0).toNat
  let b := (e.getD 1 0).toNat
  { sender := fieldOf a 48 16, domain := fieldOf a 16 32, peerSeen := a.testBit 7, resume := a.testBit 6, txDoze := a.testBit 5
    nextSeq := fieldOf b 50 14, expect := fieldOf b 36 14, width := fieldOf b 32 4, replayFlits := fieldOf b 16 16, hold := fieldOf b 0 16
    limits := (List.range 12).map fun i => fieldOf (e.getD (2 + i / 4) 0).toNat (48 - 16 * (i % 4)) 16 }

/-- A LIMIT that is not zero and below R177. -/
def badLimit (l : List Nat) : Bool :=
  (List.range 12).any fun i => let v := l.getD i 0; v ≠ 0 && decide (v < if i < 9 then 130 else 9)

/-- Set a ledger's TOTAL. -/
def State.setTotal (s : State) (k n : Nat) : State := s.setLedger k { s.ledger k with total := n }

/-- A fresh session begins: both sequence counters are zero, credits start from the INIT flits (R177, R409). -/
def State.startSession (s : State) (p : Nat) : State :=
  let x := s.link p
  let s := s.setLink p { arrived := x.arrived, dresps := x.dresps, dreqs := x.dreqs, dreqId := x.dreqId, sync := x.sync, flight := x.flight, slot := x.slot, partnerSlot := x.partnerSlot, mapSeq := x.mapSeq
                         txElements := x.txElements, txMarks := x.txMarks, txEnds := x.txEnds, spent := List.replicate 12 0, announce := x.announce, tallyAt := s.now, bookedAt := s.now }
  let s := (s.wr (PORT_LINK.addr p) 0).set (PORT_TALLY.TALLY_RX p) 0
  s.set (PORT_LINK.LL_STATE p) 1

/-- The INIT exchange is complete when a good INIT with PEER_SEEN was received and 16 INIT flits with PEER_SEEN were sent (R176), unless the partner's
latest INIT holds it (R178). The first one of a session sets the credit limits (R177), whether or not a retrain broke it. -/
def State.initDone (s₀ : State) (p : Nat) : State :=
  let s := s₀
  let st := s.get (PORT_LINK.LL_STATE p)
  let x := s.link p
  match x.partner with
  | none => s
  | some i =>
    if !(st = 1 || st = 3) || !x.initGood || !x.peerSeen || x.mismatch || decide (x.initsSent < 16) then s
    else
      let s := if x.opened then s else (List.range 12).foldl (fun (s : State) j =>
          (s.setTotal (portLedger p (2 + j)) (i.limits.getD j 0)).setTotal (portLedger p (14 + j)) (s.ownLimit p j)) s
      let s := (s.set (PORT_LINK.LL_STATE p) 2).setLive (srcLink p) 0 false
      ((s.setLink p { s.link p with tallyAt := s.now, activeAt := s.now, opened := true }).restore p).routesMoved s₀

/-! ### Rewind (R183 to R185) -/

/-- The transmitter rewinds to the mark, and its replay timer starts anew; four rewinds in a row without an advance send the port to train from Lock
(R184, R185). -/
def State.rewind (s : State) (p : Nat) : State :=
  let x := s.link p
  let s := (s.setLink p { x with resendFrom := 0, rewindsInRow := x.rewindsInRow + 1, replayAt := s.now }).bump (PORT_LINK.REWINDS p)
  if 4 ≤ x.rewindsInRow + 1 then (s.setLink p { s.link p with rewindsInRow := 0 }).retrainPort p else s

/-! ### Unadmitted requests of a port that goes down (R696) -/

/-- One unadmitted request is discarded and accounted for (R696). -/
def State.discardQueued (s : State) (p : Nat) (q : Queued) : State :=
  let s := s.reclaimAll q.holds
  match s.outstanding.find? fun o => o.id = q.requester && q.requester ≠ 0 with
  | some o =>
    let s := (s.dropOutstanding o.id).endSought o.id
    if o.transit then s
    else if o.asWrite then o.pieces.foldl (fun s x => s.failWrite o x stContained (s.fabricId p)) s
    else (s.returnAll o.holds).surrogateRecord p o 5 0xFFFF
  | none =>
    q.pkts.foldl (fun s k => if k.isCompletion || k.ptype = 0xA then s else s.lose k stContained (s.fabricId p)) s

/-- Every unadmitted request of a port (R696). -/
def State.ingressDiscard (s : State) (p : Nat) : State :=
  let s := (List.range 16).foldl (fun (s : State) i =>
    let qs := s.ingressQ (ingressKey p i)
    qs.foldl (fun s q => s.discardQueued p q) (s.setIngress (ingressKey p i) [])) s
  ((s.set (PORT_HOLD.P_CAUSE p) 0).set (PORT_HOLD.NP_CAUSE p) 0).set (PORT_HOLD.NP_HELD p) 0

/-- What is out of a ledger is reclaimed (R422, R427). -/
def State.reclaimLedger (s : State) (k : Nat) : State := s.setLedger k ((s.ledger k).reclaim (s.ledger k).out)

/-- Ingress space, replay allotment and link credits of a port in both directions are reclaimed (Table 09-5, R427). Packets that wait
for the port no longer hold credits of it. -/
def State.reclaimLink (s : State) (p : Nat) : State :=
  let s := (List.range 26).foldl (fun (s : State) i => s.reclaimLedger (portLedger p i)) s
  let mine := fun (h : Hold) => decide (portLedger p 0 ≤ h.ledger) && decide (h.ledger < portLedger p 26)
  { s with waiting := s.waiting.map fun w => { w with credit := w.credit.filter fun h => !mine h } }

/-! ### The parent of time (R212) -/

/-- A candidate for the parent: a BF port whose locked ANNOUNCE names a lower root than this package (R212). -/
def State.parentRank (s : State) (p : Nat) : Option (Nat × Nat × Nat) :=
  if s.bfUp p then match (s.link p).announce with
    | some a => if a.locked && decide (a.rootRank < s.rank) then some (a.rootRank, a.depth, a.senderRank) else none
    | none => none
  else none

/-- Decides between two ports: the lowest ROOT_RANK, DEPTH, SENDER_RANK; the earlier port wins a tie (R212). -/
def betterParent (x y : Nat × Nat × Nat) : Bool :=
  decide (x.1 < y.1) || (x.1 = y.1 && (decide (x.2.1 < y.2.1) || (x.2.1 = y.2.1 && decide (x.2.2 < y.2.2))))

/-- The parent port of R212. -/
def State.chooseParent (s : State) : Option Nat :=
  (s.bfPorts.foldl (fun (m : Option (Nat × Nat × Nat × Nat)) p => match s.parentRank p, m with
    | some x, none => some (p, x)
    | some x, some y => if betterParent x y.2 then some (p, x) else m
    | none, _ => m) none).map (·.1)

/-- The package is the domain's time root, the package of lowest fabric rank (R212): every BF port in Active has announced a root, and none a lower
one (log entry 37). -/
def State.isRoot (s : State) : Bool :=
  s.time.parent.isNone && (s.bfPorts.filter s.bfUp).all fun p => match (s.link p).announce with
    | some a => decide (s.rank ≤ a.rootRank)
    | none => false

/-- The package announces LOCKED 1: it is the time root, or its offset has stayed within 16 ticks for 1 ms (R212). -/
def State.announcesLocked (s : State) : Bool := s.isRoot || s.time.locked

/-- Condition bits of JOIN: BOUNDS 0, BINDS 1, CLAIMS 2, TIME_LOCKED 3, TIME_STEPPED 4, PORTS 5 (Table 14-10). -/
def joinBounds : Nat := 0
/-- BINDS. -/
def joinBinds : Nat := 1
/-- CLAIMS. -/
def joinClaims : Nat := 2
/-- TIME_LOCKED. -/
def joinLocked : Nat := 3
/-- TIME_STEPPED. -/
def joinStepped : Nat := 4
/-- PORTS. -/
def joinPorts : Nat := 5

/-- JOIN shows from M5 on whether fabric time has stepped and whether the package announces LOCKED 1 (R609, Table 14-8). -/
def State.showTime (s : State) : State :=
  if !s.bitOf PKG_MODE.JOIN joinPorts then s
  else (s.setBit PKG_MODE.JOIN joinStepped (s.time.stepped || s.isRoot)).setBit PKG_MODE.JOIN joinLocked s.announcesLocked

/-- DEPTH that the package announces (R212). -/
def State.timeDepth (s : State) : Nat :=
  match s.time.parent with
  | some p => match (s.link p).announce with
    | some a => a.depth + 1
    | none => 1
  | none => 0

/-- The package takes the parent port that R212 now gives; with another one, or none, it is locked no longer. A DEPTH beyond 8 that it had not before raises the
time-depth event (R215). -/
def State.takeParent (s : State) (depth : Nat) : State :=
  let now := s.chooseParent
  let s : State := if s.time.parent = now then s else { s with time := { s.time with parent := now, locked := false, steadySince := none } }
  let s := s.showTime
  if 8 < s.timeDepth && s.timeDepth ≠ depth then s.raise (srcPkg 2) 2 else s

/-! ### Link down (R187, R427, R696) -/

/-- The packets in a port's flits that are lost with its link: posted ones are entered in the write-loss ledger, completions counted; a
non-posted request has its surrogate answer when its bound expires, or CONTAINED where a reset discards it before it has left whole (R187, R324, R424). What those that have not left whole hold is reclaimed by a reset and otherwise
returned. -/
def State.loseFlits (s : State) (p : Nat) (reset : Bool) : State :=
  let x := s.link p
  let s := x.txEnds.foldl (fun (s : State) m => (if reset then s.reclaimAll m.2.holds else s.returnAll m.2.holds).endLive m.2.stamp) s
  let lost := x.held.flatMap (·.pkts) ++ x.txMarks.map (·.2)
  lost.foldl (fun (s : State) k =>
    if k.isCompletion then s.bump (PORT_SLUICE.LATE_ANSWERS p)
    else if k.vc = 0 then s.lose k stContained (s.fabricId p)
    else if reset && k.nonPosted && x.txEnds.any (fun m => m.2.pkt = k) then
      (s.raise (srcTxn p) 8 { port := some p }).answerTo (portCluster p) k stContained [] false
    else s) s

/-- A BF link is declared down (R187). -/
def State.bfLinkDown (s₀ : State) (p : Nat) : State :=
  let s := s₀
  let st := s.get (PORT_LINK.LL_STATE p)
  if st = 0 || st = 4 then s
  else
    let depth := s.timeDepth
    let s := ((s.loseFlits p false).allArrive p).ingressDiscard p
    let s := s.reclaimLink p
    let x := s.link p
    -- a DREQ that was taken is still answered (R213)
    let s := s.setLink p { slot := x.slot, partnerSlot := x.partnerSlot, mapSeq := x.mapSeq, dresps := x.dresps }
    let s := (s.wr (PORT_LINK.addr p) 0).set (PORT_LINK.LL_STATE p) 4
    -- a Burek peer stays one (R388)
    let s := { s with bounds := s.bounds.filter fun b => decide (b.1 / 65536 % 1024 ≠ p) || b.1 = boundKey p 1 3 }
    let s := (s.set (PORT_BOND.TX_MASK p) 0).set (PORT_BOND.RX_MASK p) 0
    let s := ((s.portLanes p).foldl (fun (s : State) l => s.enterLock l true) s).noneLeft p
    let s := s.takeParent depth
    let s := (s.raise (srcLink p) 0 { port := some p }).setLive (srcLink p) 0 true
    (s.republish 0xA true).routesMoved s₀

/-! ### Receiving flits -/

/-- The receiver makes a replay request, unless one is pending (R180, R181). -/
def State.requestReplay (s : State) (p : Nat) (again : Bool) : State :=
  if s.flag (PORT_LINK.NAK_PENDING p) && !again then s
  else
    let x := s.link p
    let s := (s.setLink p { x with nakSeq := (x.nakSeq + 1) % 4, lastNak := s.now }).noteNull p
    (s.setFlag (PORT_LINK.NAK_PENDING p) true).bump (PORT_LINK.NAKS_SENT p)

/-- The spent totals of the flits released last, the latest last; no ACK lies further back than half the sequence values (R180, R195). -/
def keepSpent (old : List (Nat × List Nat)) (gone : List HeldFlit) : List (Nat × List Nat) :=
  let l := old ++ gone.map fun f => (f.seq, f.spent)
  l.drop (l.length - 8192)

/-- The flits held before a sequence number: how many of them lie from the mark up to it, modulo 2^14. -/
def State.heldBefore (s : State) (p seq : Nat) : Nat :=
  let mark := match (s.link p).held with
    | f :: _ => f.seq
    | [] => s.get (PORT_LINK.TX_NEXT p)
  (seq + 2 ^ 14 - mark) % 2 ^ 14

/-- The first n held flits are released: the mark advances, the replay timer starts anew and the row of rewinds ends (R183 to R185). -/
def State.release (s : State) (p n : Nat) : State :=
  if n = 0 then s
  else
    let x := s.link p
    (s.setLink p { x with held := x.held.drop n, resendFrom := x.resendFrom - n, rewindsInRow := 0, replayAt := s.now
                          ackSpent := keepSpent x.ackSpent (x.held.take n) }).showHeld p

/-- ACK and NAK of a header act on the replay queue (R183): an ACK behind the mark releases nothing, one beyond the last SEQ sent is a release that the queue
refuses, which sets RELEASE_BAD and ends the session (R187, R536). -/
def State.takeAck (s : State) (p ack : Nat) (nak : Bool) (nakSeq : Nat) : State :=
  let n := s.heldBefore p (ack + 1)
  if decide ((s.link p).held.length < n) && decide (n < 2 ^ 13) then (s.setFlag (CL_XSTAT.RELEASE_BAD (portCluster p)) true).bfLinkDown p
  else
    let s := s.release p (if n ≤ (s.link p).held.length then n else 0)
    if nak && (s.link p).nakActed ≠ some nakSeq then (s.setLink p { s.link p with nakActed := some nakSeq }).rewind p else s

/-- A CR field adds credits for its pair (R192). -/
def State.takeCredit (s : State) (p sel count : Nat) : State :=
  if sel % 4 = 3 || decide (12 ≤ sel / 4 * 3 + sel % 4) then s
  else
    let i := sel / 4 * 3 + sel % 4
    let x := s.link p
    let was := x.partnerReturned.getD i 0
    let d := (count + 4096 - was % 4096) % 4096
    let s := s.setLink p { x with partnerReturned := (List.range 12).map fun j => x.partnerReturned.getD j 0 + (if j = i then d else 0) }
    s.returnAll [⟨portLedger p (2 + i), d⟩]

/-- The payload bytes of a packet whose payload elements are given (R200, R201). -/
def payloadOf (k : Packet) (els : List Word) : List Byte :=
  let bs := els.flatMap fun e => beBytes 8 e.toNat
  if k.ptype = 9 || k.ptype = 0xA || k.ptype = 0xB then bs.take k.len else (bs.drop (k.addr % 8)).take k.len

/-- Credits of a pair that the receiver still offers (R697). -/
def State.creditsLeft (s : State) (p : Nat) (k : Packet) : Nat :=
  let x := s.link p
  s.ownLimit p k.pair - (x.received.getD k.pair 0 - x.returned.getD k.pair 0)

/-- A malformed or uncredited packet ends the session (R203, R697). -/
def State.malformedDown (s : State) (p : Nat) : State :=
  ((s.wr (PORT_MALFORMED.addr p) (s.rd (PORT_MALFORMED.addr p) + 1)).raise (srcLink p) 6 { port := some p }).bfLinkDown p

/-- The elements of an accepted PKT flit's packet space join the packet in progress; whole packets arrive (R205, R206, R418, R697). -/
def State.takeElements (s : State) (p : Nat) : List Word → State
  | [] => s
  | e :: rest =>
    if s.get (PORT_LINK.LL_STATE p) = 4 then s
    else
      let x := s.link p
      if x.rxPartial.isEmpty && getBits e 60 4 = 0 then s
      else
        let els := x.rxPartial ++ [e]
        let k := headerOf (els.getD 0 0).toNat (els.getD 1 0).toNat (els.getD 2 0).toNat (els.getD 3 0).toNat
        if els.length < 4 then State.takeElements (s.setLink p { x with rxPartial := els }) p rest
        else if els.length = 4 && decide (0xC ≤ k.ptype) then s.malformedDown p
        else if els.length = 4 && decide (k.cls < 3) && decide (s.creditsLeft p k < k.credits) then s.malformedDown p
        else
          let s := if els.length = 4 then
              let s := s.setLink p { x with received := (List.range 12).map fun j => x.received.getD j 0 + (if j = k.pair && decide (k.cls < 3) then k.credits else 0) }
              if k.cls < 3 then s.issue (portLedger p (14 + k.pair)) k.credits else s
            else s
          let x := s.link p
          if els.length < 4 + k.payloadElements then State.takeElements (s.setLink p { x with rxPartial := els }) p rest
          else State.takeElements (s.setLink p { x with rxPartial := [], arrived := x.arrived ++ [({ k with payload := payloadOf k (els.drop 4) }, s.now)] }) p rest

/-- A 32-bit total of a TALLY flit: total i of the group at an element. -/
def tallyTotal (e : List Word) (at_ i : Nat) : Nat := let w := (e.getD (at_ + i / 2) 0).toNat; if i % 2 = 0 then w / 2 ^ 32 else w % 2 ^ 32

/-- The first check of R195 that fails for a pair. -/
def State.tallyCheck (s : State) (p ack : Nat) (e : List Word) (i : Nat) : Option Nat :=
  let x := s.link p
  let m := 2 ^ 32
  let spentThen := match x.ackSpent.find? fun y => y.1 = ack with
    | some y => y.2.getD i 0
    | none => 0
  if tallyTotal e 0 i ≠ x.received.getD i 0 % m then some 1
  else if (tallyTotal e 6 i + tallyTotal e 12 i) % m ≠ spentThen % m then some 2
  else if 2 ^ 31 ≤ (tallyTotal e 6 i + m - x.partnerReturned.getD i 0 % m) % m then some 3
  else none

/-- A TALLY flit is accepted: the three checks of R195 for each pair. A failed one declares the link down (R419). -/
def State.takeTally (s : State) (p ack : Nat) (e : List Word) : State :=
  let s := (s.bump (PORT_TALLY.TALLY_RX p)).setLink p { s.link p with tallyAt := s.now }
  match (List.range 12).find? fun i => (s.tallyCheck p ack e i).isSome with
  | some i =>
    let s := (s.bump (PORT_TALLY.MISMATCHES p)).set (PORT_TALLY.LAST_CHECK p) ((s.tallyCheck p ack e i).getD 0)
    let s := s.set (PORT_TALLY.LAST_PAIR p) i
    (s.raise (srcLink p) 4 { port := some p }).bfLinkDown p
  | none =>
    let s := (List.range 12).foldl (fun (s : State) i =>
      let x := s.link p
      let d := (tallyTotal e 6 i + 2 ^ 32 - x.partnerReturned.getD i 0 % 2 ^ 32) % 2 ^ 32
      (s.setLink p { x with partnerReturned := (List.range 12).map fun j => x.partnerReturned.getD j 0 + (if j = i then d else 0) }).returnAll
        [⟨portLedger p (2 + i), d⟩]) s
    let x := s.link p
    s.setLink p { x with ackSpent := if x.ackSpent.any fun y => y.1 = ack then x.ackSpent.dropWhile fun y => y.1 ≠ ack else x.ackSpent }

/-- A good INIT flit (R176 to R178, R186). One that names another domain or a LIMIT below R177 holds the port in its INIT exchange: a running port goes back
to it (log entry 72). After a retrain, the first INIT that does not releases the flits before EXPECT and rewinds to it. -/
def State.takeInit (s : State) (p : Nat) (e : List Word) : State :=
  let i := initOf e
  let st := s.get (PORT_LINK.LL_STATE p)
  let bad := i.domain ≠ s.sealed.domain || badLimit i.limits
  let x := s.link p
  let s := s.setLink p { x with initGood := true, peerSeen := x.peerSeen || i.peerSeen, partner := some i, mismatch := bad }
  if bad then (if st = 2 then s.set (PORT_LINK.LL_STATE p) 1 else s).raise (srcLink p) 1 { port := some p }
  else if st = 3 && !x.resumed then
    let n := s.heldBefore p i.expect
    if x.held.length < n then s.bfLinkDown p
    else (((s.setLink p { s.link p with resumed := true }).release p n).rewind p).initDone p
  else if st = 2 then s
  else s.initDone p

/-- A flit with its CRC (R173, R174). -/
def goodFlit (flit : List Word) (flagged : Bool) : Bool :=
  !flagged && flit.length = 40 && decide (flit.getD 39 0 = flitCrc (flit.take 39)) && decide (getBits (flit.getD 0 0) 60 4 < 4)

/-- A flit arrives (R174, R180 to R183, R192, R195): a bad one asks for a replay; the ACK, NAK and credits of a good header act whatever its type, and
a sequenced flit is accepted once a good INIT has come (R176). -/
def State.receiveFlit (s : State) (p : Nat) (flit : List Word) (flagged : Bool) : State :=
  let st := s.get (PORT_LINK.LL_STATE p)
  if !(st = 1 || st = 2 || st = 3) then s
  else if !goodFlit flit flagged then
    let s := ((s.wr (PORT_CRC_ERR.addr p) (s.rd (PORT_CRC_ERR.addr p) + 1)).countPort p 0x16 1).raise (srcLink p) 5 { port := some p }
    s.requestReplay p false
  else
    let h := (flit.getD 0 0).toNat * 2 ^ 64 + (flit.getD 1 0).toNat
    let space := (flit.drop 2).take 37
    let ftype := fieldOf h 124 4
    let s := if ftype = 2 then s.takeInit p space else s
    if s.get (PORT_LINK.LL_STATE p) = 4 then s
    else
      let s := if h.testBit 95 then s.takeAck p (fieldOf h 96 14) (h.testBit 94) (fieldOf h 92 2) else s
      if s.get (PORT_LINK.LL_STATE p) = 4 then s
      else
        let s := (s.takeCredit p (fieldOf h 82 4) (fieldOf h 70 12)).takeCredit p (fieldOf h 66 4) (fieldOf h 54 12)
        if ftype = 0 || ftype = 2 || !(s.link p).initGood then s
        else
          let e := s.get (PORT_LINK.RX_EXPECT p)
          let seq := fieldOf h 110 14
          if seq = e then
            let s := (s.set (PORT_LINK.RX_EXPECT p) ((e + 1) % 2 ^ 14)).setFlag (PORT_LINK.NAK_PENDING p) false
            let s := s.noteNull p
            if ftype = 1 then s.takeElements p space else s.takeTally p (fieldOf h 96 14) space
          else if (e + 2 ^ 14 - seq) % 2 ^ 14 ≤ 8192 then s
          else s.requestReplay p false

/-- REPLAY_TIMEOUT in ticks (R184). -/
def State.replayTimeout (s : State) (p : Nat) : Nat :=
  match (s.link p).flight with
  | some d => 2 * d + 2000 * ticksPerNs
  | none => 64000 * ticksPerNs

end Sys2Proof.Machine
end

