-- ==== Sys2Proof/Machine/Contain.lean ====
section
/-! DEFINITION. Containment, fences and resets of the scopes of Table 10-12 (R42, R248 to R251, R422 to R428, R471 to R482, R541 to R545), the
lead's election (R51 to R57), Fault Halt (R593), and the settling of what one command leaves to the next cycle. -/

namespace Sys2Proof.Machine

/-! ### What a port gives up -/

/-- Every packet bound for a point that satisfies a test leaves the queues. -/
def State.egressDiscard (s : State) (p : Nat) (reset : Bool) (f : Waiting → Bool) : State :=
  let gone := s.waiting.filter fun w => lastPoint w = pointPort p && f w
  let s := { s with waiting := s.waiting.filter fun w => !(lastPoint w = pointPort p && f w) }
  gone.foldl (fun s w => s.discardPacket p w reset) s

/-- The requests that a PCI Express link has outstanding, and those its handler engine holds, are answered CONTAINED (R250, R424). -/
def State.failAsks (s : State) (p : Nat) : State :=
  let asks := s.device.filter fun d => d.port = p
  let jobs := s.configJobs.filter fun j => j.port = p
  let out := asks.any fun d => match d.pkt with | some k => k.ptype = 9 | none => false
  let s := asks.foldl (fun s d => s.endAsk d) s
  let s := { s with configJobs := s.configJobs.filter fun j => j.port ≠ p }
  let s := asks.foldl (fun s d => match d.pkt with
    | some k => if d.answered || d.timedOut || k.ptype = 9 then s
      else (s.raise (srcTxn p) 8 { port := some p }).answerTo (portCluster p) k stContained [] false
    | none => s) s
  (jobs.filter fun j => !j.own).foldl (fun s j =>
    let s := if j.issued && out then s else s.spareTag p
    (s.raise (srcTxn p) 8 { port := some p }).answerTo (portCluster p) j.pkt stContained [] false) s

/-- The vDSPs of this package behind which functions of a PD port are bound: PU port and vDSP number. -/
def State.vdspsOf (s : State) (p : Nat) : List (Nat × Nat) :=
  ((s.bindingsOn p).filterMap fun b => (s.partitionPu b.partition).map fun q => (q, b.vdsp)).eraseDups

/-- The vDSPs that exist: those that a binding record names (R233). -/
def State.vdsps (s : State) (p : Nat) : List Nat :=
  ((s.bindRecs.filter fun b => some b.partition = s.puPartition p).map (·.vdsp)).eraseDups

/-- A vDSP presents a hot-plug slot: FLAGS bit 0 of a binding record that names it (Tables 05-4 and 05-6). -/
def State.slotShown (s : State) (p v : Nat) : Bool :=
  s.bindRecs.any fun b => some b.partition = s.puPartition p && b.vdsp = v && b.flags.testBit 0

/-- Slot Status of a vDSP notes a change, bit 3 of presence or bit 8 of the link, and interrupts its host when Slot Control asks for it (Table 05-4). -/
def State.slotNote (s : State) (bit : Nat) (x : Nat × Nat) : State :=
  if !s.slotShown x.1 x.2 then s
  else
    let f := vdspFn x.2
    let v := s.vport x.1 f
    let control := s.virtGet x.1 f (Config.capability 0 + 6)
    let s := s.setVport x.1 f { v with slotChanged := withBit v.slotChanged bit }
    if control.testBit 5 && control.testBit (if bit = 8 then 12 else 3) then s.emit (.hostInterrupt x.1 f 0) else s

/-- The vDSPs behind which functions of a PD port are bound note that its link changed (Table 05-4). -/
def State.linkChanged (s : State) (p : Nat) : State := (s.vdspsOf p).foldl (fun (s : State) x => s.slotNote 8 x) s

/-- A PCI Express port's link is not up: no rate, no width. -/
def State.pcieDown (s : State) (p state : Nat) : State :=
  let s : State := if s.isPd p && s.flag (PORT_PCIE.DL_ACTIVE p) then s.linkChanged p else s
  let s := (s.setFlag (PORT_PCIE.DL_ACTIVE p) false).set (PORT_PCIE.LINK_STATE p) state
  ((s.set (PORT_PCIE.RATE p) 0).set (PORT_PCIE.WIDTH p) 0).set (PORT_PCIE.ACTIVE_WIDTH p) 0

/-! ### PD ports (R248 to R251) -/

/-- A PD port enters containment with a REASON of Table 05-9. -/
def State.containPd (s : State) (p reason : Nat) : State :=
  let s := s.bump (PORT_DPC.TRIGGER_COUNT p)
  if s.flag (PORT_DPC.CONTAINED p) then s
  else
    let s := (s.setFlag (PORT_DPC.CONTAINED p) true).set (PORT_DPC.REASON p) reason
    let s := s.set (PORT_DPC.CLEAR_PENDING p) (s.portOwners p).length
    let s := { s with dpcSince := tabPut (fun _ => 0) s.dpcSince p s.now }
    let s : State := if s.flag (PORT_PCIE.DL_ACTIVE p) then (s.ingressDiscard p).reclaimLink p else s
    let s := s.pcieDown p 6
    let s := (s.vdspsOf p).foldl (fun (s : State) x =>
      let v := s.vport x.1 (vdspFn x.2)
      let s := s.setVport x.1 (vdspFn x.2) { v with dpcStatus := true }
      if v.dpcInterrupt then s.emit (.hostInterrupt x.1 (vdspFn x.2) 0) else s) s
    let s := s.dropLock p
    let s := (s.failAsks p).egressDiscard p false fun _ => true
    let s := s.deassertPins p fun _ => true
    let s := { s with flr := s.flr.filter fun x => x.1 ≠ p }
    let s := s.raise (srcPcie p) 3 { port := some p }
    (s.containmentEntry p true).republish 0xA

/-- A PD port is released; it retrains (R251). A partition's own contained view of it stays until its trigger status is cleared (R249). -/
def State.releasePd (s : State) (p : Nat) : State :=
  if !s.flag (PORT_DPC.CONTAINED p) then s
  else
    let s := ((s.setFlag (PORT_DPC.CONTAINED p) false).set (PORT_DPC.CLEAR_PENDING p) 0).set (PORT_PCIE.LINK_STATE p) 0
    let s := (s.vdspsOf p).foldl (fun (s : State) x =>
      let v := s.vport x.1 (vdspFn x.2)
      s.setVport x.1 (vdspFn x.2) { v with dpcStatus := v.view }) s
    ((s.raise (srcPcie p) 4 { port := some p }).containmentEntry p false).republish 0xA

/-- A PD port loses one bound partition whose trigger status is still set; with the last, it is released (R251). -/
def State.clearPending (s : State) (q : Nat) : State :=
  if !s.flag (PORT_DPC.CONTAINED q) then s
  else
    let s := s.set (PORT_DPC.CLEAR_PENDING q) (s.get (PORT_DPC.CLEAR_PENDING q) - 1)
    if s.get (PORT_DPC.CLEAR_PENDING q) = 0 then s.releasePd q else s

/-- The record of a vDSP's bindings that a PU port's partition has, presented or not: all of them name one PD port (R241). -/
def State.recordOf (s : State) (p v : Nat) : Option BindRec := s.bindRecs.find? fun b => some b.partition = s.puPartition p && b.vdsp = v

/-- DPC Trigger Status of a vDSP is cleared (R249, R251). A partition has cleared its status when none of its vDSPs on the port shows it. -/
def State.clearStatus (s : State) (p v : Nat) : State :=
  let x := s.vport p (vdspFn v)
  if !x.dpcStatus then s
  else
    let s := s.setVport p (vdspFn v) { x with dpcStatus := false, view := false }
    match s.recordOf p v with
    | none => s
    | some b =>
      let q := b.target % 1024
      if b.target / 1024 ≠ s.rank || ((s.vdspsOf q).any fun y => y.1 = p && (s.vport p (vdspFn y.2)).dpcStatus) then s else s.clearPending q

/-- Every emulated register of a virtual switch returns to its reset value, and with them each trigger status (R244, R251). -/
def State.resetSwitch (s : State) (p : Nat) : State := ((s.vdsps p).foldl (fun (s : State) v => s.clearStatus p v) s).resetVirt p

/-! ### PU and BF ports (Table 10-12) -/

/-- Unadmitted requests of a port whose link stays up are answered CONTAINED (R471, R696). -/
def State.ingressContained (s : State) (p : Nat) : State :=
  (List.range 16).foldl (fun (s : State) i =>
    (s.ingressQ (ingressKey p i)).foldl (fun s q => s.answerQueued (ingressKey p i) q stContained) s) s

/-- A PU or BF port enters containment with a REASON of Table 10-13. -/
def State.containFabric (s : State) (p reason : Nat) : State :=
  let s := s.bump (PORT_CONTAIN.TRIGGER_COUNT p)
  if s.flag (PORT_CONTAIN.CONTAINED p) then s
  else
    let s := (s.setFlag (PORT_CONTAIN.CONTAINED p) true).set (PORT_CONTAIN.REASON p) reason
    let s : State := if s.isBf p then
        ((s.bfLinkDown p).quietPort p).egressDiscard p false fun _ => true
      else (s.ingressContained p).egressDiscard p false fun w => !w.pkt.isCompletion && w.tlps.isEmpty
    ((s.containmentEntry p true).republish 0xA).reroute

/-- A PU or BF port is released. A BF port then trains from Lock. -/
def State.releaseFabric (s : State) (p : Nat) : State :=
  if !s.flag (PORT_CONTAIN.CONTAINED p) then s
  else
    let s := s.setFlag (PORT_CONTAIN.CONTAINED p) false
    let s : State := if s.isBf p && !s.portDark p then (s.portLanes p).foldl (fun (s : State) l => s.enterLock l false) s else s
    (s.containmentEntry p false).republish 0xA

/-- A port is contained by its personality. -/
def State.containPort (s : State) (p : Nat) (pdReason fabricReason : Nat) : State :=
  if s.isPd p then s.containPd p pdReason else if s.isPort p then s.containFabric p fabricReason else s

/-! ### Windows -/

/-- A window enters containment (Table 10-12). -/
def State.containWindow (s : State) (w : Nat) : State :=
  let s := s.bump (CL_WCON_CTL.TRIGGER_COUNT (w / 1024))
  if s.windowContained w then s
  else
    let s := s.setBit (CL_WCON_MAP.CONTAINED (w / 1024) (w % 1024 / 64)) (w % 64) true
    (s.cancelStreams fun x => x.window = w).windowEntry w true

/-- A window is released. -/
def State.releaseWindow (s : State) (w : Nat) : State :=
  if !s.windowContained w then s
  else (s.setBit (CL_WCON_MAP.CONTAINED (w / 1024) (w % 1024 / 64)) (w % 64) false).windowEntry w false

/-! ### Crossings (R541 to R545) -/

/-- IN_RESET and RESET_SEEN of a crossing. -/
def crossingStatus (x : Nat) : FieldRef × FieldRef × Nat :=
  if x < 1024 then (CL_XSTAT.IN_RESET (x / 16), CL_XSTAT.RESET_SEEN (x / 16), x % 16)
  else if x < 2048 then (DIE_XSTAT.IN_RESET ((x - 1024) / 16), DIE_XSTAT.RESET_SEEN ((x - 1024) / 16), x % 16)
  else (PKG_XSTAT.IN_RESET, PKG_XSTAT.RESET_SEEN, x % 16)

/-- One side of a crossing is reset: its half at once, the other enters crossing-reset (R541); its queue is empty. A side whose clock is stopped is reset when the
clock returns (R545). -/
def State.resetCrossing (s : State) (x : Nat) : State :=
  let y := s.crossing x
  if y.nearStopped then s.setCrossing x { y with nearPending := true }
  else
    let s := s.setCrossing x { y with nearReset := true, farReset := true, crossReset := true, wptr := 0, rptr := 0, wsync := 0, rsync := 0 }
    s.setBit (crossingStatus x).1 (crossingStatus x).2.2 true

/-- The side that was reset releases its half; the crossing may now leave crossing-reset. -/
def State.releaseHalf (s : State) (x : Nat) : State := s.setCrossing x { s.crossing x with nearReset := false }

/-- The crossing leaves crossing-reset when both sides have reset and released, and both clocks run (R541, R542, R545). -/
def State.leaveReset (s : State) (x : Nat) : State :=
  let y := s.crossing x
  if !y.crossReset || y.nearReset || y.nearStopped || y.farStopped then s
  else
    let s := s.setCrossing x { y with farReset := false, crossReset := false }
    let (i, r, k) := crossingStatus x
    let s := (s.setBit i k false).setBit r k true
    if x < 1024 then s.raise (srcCluster (x / 16) 40) 1 else s

/-- Crossings 0 to 13 of a cluster (Table 12-4); crossing 14 holds no queue. -/
def clusterCrossings (c : Nat) : List Nat := (List.range 14).map (clusterCrossing c)

/-! ### Cluster and region reset (R422 to R426, R481) -/

/-- Completions on their way to a requester of this package whose requests a reset has ended are discarded, counted and return their tags (R424, R426). -/
def State.discardNear (s : State) (id : Nat) : State :=
  let mine := fun (w : Waiting) => decide (lastPoint w < 1000) && w.pkt.isCompletion && w.pkt.dest = id
  let gone := s.waiting.filter mine
  gone.foldl (fun (s : State) w => s.completionHere w.pkt) { s with waiting := s.waiting.filter fun w => !mine w }

/-- The return egress of an admitted request: the port whose completion account it is charged to (R377). -/
def Outstanding.returnPort (o : Outstanding) : Option Nat :=
  (o.holds.find? fun h => decide (h.ledger < 16384) && decide (28 ≤ h.ledger % 32) && decide (h.ledger % 32 ≤ 30)).map fun h =>
    h.ledger / 256 * 4 + h.ledger % 256 / 32

/-- A reset ends a request whose ingress port or return egress it resets: the charge and the reservation made for its answer are reclaimed, the answer will be
discarded, and its Burek tags stay out until then (R422, R425, R426). -/
def State.endByReset (s : State) (o : Outstanding) : State :=
  let s := (s.reclaimAll o.holds).endLive o.stamp
  if !o.admitted then s.dropOutstanding o.id
  else s.setOutstanding { o with answered := true, holds := [], stamp := none, endedAt := s.now }

/-- Everything of a port that a reset of its cluster takes back (Table 09-5). -/
def State.resetPort (s : State) (p : Nat) : State :=
  let depth := s.timeDepth
  let s := s.dropLock p true
  let s := s.egressDiscard p true fun _ => true
  let s := (((s.loseFlits p true).allArrive p).ingressDiscard p).reclaimLink p
  let s := (s.reclaimLedger (portLedger p 27)).failAsks p
  let mine := s.outstanding.filter fun o => (!o.transit && o.port = p) || o.returnPort = some p
  let s := mine.foldl (fun (s : State) o => s.endByReset o) s
  let s := { s with lockWait := s.lockWait.filter fun x => x.port ≠ p }
  let s := s.discardNear (s.fabricId p)
  let s := [28, 29, 30, 31].foldl (fun (s : State) i => s.reclaimLedger (portLedger p i)) s
  let s := s.deassertPins p fun _ => true
  let s := { s with flr := s.flr.filter (fun x => x.1 ≠ p), intxCount := s.intxCount.filter (fun x => x.1 / 4 ≠ p)
                    pmeOff := s.pmeOff.filter (· ≠ p), bounds := s.bounds.filter (fun b => b.1 / 65536 % 1024 ≠ p || b.1 = boundKey p 1 3)
                    modes := { s.modes with restoring := s.modes.restoring.filter (· ≠ p) } }
  let s := if s.isPu p then s.resetSwitch p else s
  let s := (s.pcieDown p 0).quietPort p
  let s := (s.set (PORT_BOND.TX_MASK p) 0).set (PORT_BOND.RX_MASK p) 0
  -- R338: the owner of a lock has lost its link
  ((s.setLink p {}).wr (PORT_LINK.addr p) 0).takeParent depth |>.unlockNear p

/-- The items of an engine in a scope that is reset are discarded; what they owe an answer is answered CONTAINED (R424). The engine stops until
the scope is released. -/
def State.resetEngine (s : State) (te : Nat) : State :=
  let e := s.engine te
  let owed := (e.queue.map (·.2.1)) ++ [e.reply]
  let s := s.setEngine te { run := if e.run = .halted then .halted else .stalled }
  let gone := s.waiting.filter fun w => lastPoint w = pointEndpoint (256 + te)
  let s := { s with waiting := s.waiting.filter fun w => lastPoint w ≠ pointEndpoint (256 + te) }
  let s := gone.foldl (fun (s : State) w =>
    let s := (s.reclaimAll (w.holds ++ w.credit)).endLive w.stamp
    if w.pkt.isCompletion || w.pkt.ptype = 0xA then s
    else if w.pkt.nonPosted then s.answerTo (te / 8) w.pkt stContained [] false
    else s.lose w.pkt stContained (s.fabricId (256 + te))) s
  let s := owed.foldl (fun (s : State) r => match r with
    | .burek k => if k.nonPosted then s.answerTo (te / 8) k stContained [] false else s
    | _ => s) s
  let mine := s.outstanding.filter fun o => o.port = 1024 + te
  let s := mine.foldl (fun (s : State) o =>
    ((s.reclaimAll o.holds).endLive o.stamp).setOutstanding { o with answered := true, holds := [], stamp := none, endedAt := s.now }) s
  let s := s.discardNear (s.fabricId (256 + te))
  let k := ingressKey (1024 + te) 0
  { s with ingress := s.ingress.filter fun x => x.1 / 16 ≠ k / 16, device := s.device.filter fun d => d.engine ≠ some te }

/-- The ports of a cluster that the structure defines. -/
def State.clusterPorts (s : State) (c : Nat) : List Nat := ((List.range 4).map (4 * c + ·)).filter s.isPort

/-- The engines of a cluster. -/
def clusterEngines (c : Nat) : List Nat := (List.range 8).map (8 * c + ·)

/-- The failures that a cluster holds are discarded (R291). -/
def State.dropFailures (s : State) (c : Nat) : State :=
  let wins := (s.heldFailures.filter fun f => f.cluster = c).map (·.window)
  wins.foldl (fun (s : State) w => s.setFlag (WIN_STATE.FAIL_HELD w) false) { s with heldFailures := s.heldFailures.filter fun f => f.cluster ≠ c }

/-- The tracker of a cluster is discarded (R291); a write that no tracker entry stands for yet is not touched. -/
def State.dropTracker (s : State) (c : Nat) : State :=
  let mine := s.outstanding.filter fun o => o.asWrite && ingressCluster o.port = c && o.port < 1024 && o.admitted
  let s := mine.foldl (fun (s : State) o =>
    let n := (o.pieces.filter fun x => x.status.isNone).length
    let s := if o.answered then s else s.reclaimAll [⟨clusterLedger c 128, n⟩]
    s.setOutstanding { o with answered := true, endedAt := s.now }) s
  let s := (s.reclaimLedger (clusterLedger c 128)).set (WIN_TRACK.TRACK_USED c) 0
  (mine.map (·.window)).foldl (fun (s : State) w => s.set (WIN_STATE.ACK_OUT w) 0) s

/-- Prefetch of a cluster is cancelled and its space reclaimed (Table 09-5). -/
def State.dropStreams (s : State) (c : Nat) : State :=
  let mine := s.streams.filter fun x => x.cluster = c
  let s := mine.foldl (fun (s : State) x => s.reclaimAll x.holds) s
  let s := { s with streams := s.streams.map fun (x : Stream) => if x.cluster = c then { x with holds := [] } else x }
  s.cancelStreams fun x => x.cluster = c

/-- Packets that were admitted at a cluster go on to their egresses when it is reset (R422): their space is in the basin of the egress. -/
def State.leaveEntry (s : State) (c : Nat) : State :=
  { s with waiting := s.waiting.map fun w =>
      if w.point = pointEntry c then (match w.path with | x :: xs => { w with point := x, path := xs } | [] => w) else w }

/-- The reset of one cluster takes effect; it is held in reset. -/
def State.resetCluster (s : State) (c : Nat) : State :=
  if s.clusterHeld c then s
  else
    let s := (s.setBit PKG_FENCE_CL.CLUSTERS c true).setLive (srcCluster c 41) 4 true
    let s := (s.leaveEntry c).dropTracker c
    let s := (((s.clusterPorts c).foldl (fun (s : State) p => s.resetPort p) s).dropFailures c).leaveEntry c
    let s := (clusterEngines c).foldl (fun (s : State) te => s.resetEngine te) s
    let s := s.dropStreams c
    -- deferred slots whose items the reset discards are wasted (R641)
    let s := s.settleSlots c 1 (s.get (PMON_CL_CTL.DEFERRED c))
    let s := (clusterLanes c).foldl (fun (s : State) l => s.laneOff l) s
    let s := (clusterCrossings c).foldl (fun (s : State) x => s.resetCrossing x) s
    s.raiseMask (srcCluster c 41) 0b11000 {}

/-- Clusters are fenced together, each with the other of its x16 pair (R36); routes to their ports are withdrawn. -/
def State.fenceClusters (s₀ : State) (cs : List Nat) : State :=
  let s := (cs.flatMap s₀.pairOf).foldl (fun (s : State) k => s.resetCluster k) s₀
  (s.republish 0xA).routesMoved s₀

/-- A cluster is fenced, both of an x16 pair together (R36); routes to its ports are withdrawn. -/
def State.fenceCluster (s : State) (c : Nat) : State := s.fenceClusters [c]

/-- An engine starts: its START item (R70, Table 01-10). A halted engine stays so until its program is loaded (R73). -/
def State.startEngine (s : State) (te : Nat) : State :=
  if (s.engine te).run = .halted then s else (s.setEngine te { queue := [({ kind := 0 }, .none, s.now)] }).nextItem te

/-- A cluster leaves reset: its crossings may be released, its engines start again, its ports train (R481). -/
def State.releaseCluster (s : State) (c : Nat) : State :=
  if !s.clusterHeld c then s
  else
    let s := (s.setBit PKG_FENCE_CL.CLUSTERS c false).setLive (srcCluster c 41) 4 false
    let s := (clusterCrossings c).foldl (fun (s : State) x => s.releaseHalf x) s
    let s := (clusterEngines c).foldl (fun (s : State) te => s.startEngine te) s
    s.raise (srcCluster c 41) 5

/-- A partial reload of a region ends with the fence of the region (R104). -/
def State.endReloadOf (s : State) (g : Nat) : State :=
  if s.reload.any fun r => r.region = g then State.set { s with reload := none } PKG_SBS_STATUS.STATE 0 else s

/-- A fence makes M6, and M8 with no reload left, M7 (R585, Table 14-2). -/
def State.afterFence (s : State) : State := if s.mode = 6 || (s.mode = 8 && s.reload.isNone) then s.enterMode 7 else s

/-- A partial reload has begun its drain (R98, R104). -/
def State.reloadPastDrain (s : State) (g : Nat) : Bool := s.reload.any fun r => r.region = g && (r.stage = .draining || r.stage = .applying)

/-- A region is fenced (Table 10-12, R41): its clusters stop as a reset does, and M6 becomes M7. Of a region that is fenced already a fence ends only the
reload that has begun its drain (R104). -/
def State.fenceRegion (s : State) (g : Nat) : State :=
  if s.regionFenced g then (if s.reloadPastDrain g then (s.endReloadOf g).afterFence else s)
  else
    let t := ((List.range 4).map (4 * g + ·)).foldl (fun (s : State) c => s.resetCluster c) s
    let t := (t.setBit PKG_FENCE_RG.REGIONS g true).endReloadOf g
    ((t.republish 0xA).routesMoved s).afterFence

/-- Every region of a die is fenced. -/
def State.fenceDie (s : State) (d : Nat) : State := ((List.range 4).map (4 * d + ·)).foldl (fun (s : State) g => s.fenceRegion g) s

/-! ### Dies that no interface joins (R48, R49) -/

/-- The part has an interface. -/
def State.hasD2d (s : State) (x : Nat) : Bool := x = 0 || (s.chip.fb512 && decide (x < 6))

/-- The die of an interface's pair that is fenced when the pair is cut off: D1 of the FB256, else the one without the lead or the higher one. -/
def State.cutLoser (s : State) (x : Nat) : Nat :=
  let (a, b) := d2dEnds x
  if !s.chip.fb512 then 1 else if s.leadDie = b then a else b

/-- Every region of a die is fenced already. -/
def State.dieFenced (s : State) (d : Nat) : Bool := (List.range 4).all fun g => s.regionFenced (4 * d + g)

/-- The dies of an interface's pair have neither the interface nor a relay, and neither is fenced as a whole (log entry 52). -/
def State.cutOff (s : State) (x : Nat) : Bool :=
  let (a, b) := d2dEnds x
  s.hasD2d x && (s.diePath a b).isNone && !s.dieFenced a && !s.dieFenced b

/-- Of every pair that is cut off, one die is fenced, the pairs in the order of their interfaces (log entry 52). -/
def State.fenceCutOff (s : State) : State := (List.range 6).foldl (fun (s : State) x => if s.cutOff x then s.fenceDie (s.cutLoser x) else s) s

/-! ### Fault Halt (R593, R437, R463) -/

/-- Entry to M11: open records close first, then every lane turns Off. HALT_B is asserted, low (R684). -/
def State.halt (s : State) (src : Nat) : State :=
  if s.mode = 0 || s.mode = 11 then s
  else
    let s := s.records.foldl (fun (s : State) r => s.closeRecord r) s
    let s := s.set PKG_MODE.HALT_SRC src
    let s := (s.enterMode 11).emit (.pin pinHalt false)
    s.allPorts.foldl (fun (s : State) p =>
      let s := if s.isBf p then s.bfLinkDown p else (s.ingressDiscard p).pcieDown p 0
      s.quietPort p) s

/-! ### Election (R51 to R57, R259) -/

/-- The keepers of a die that passed their self-check at the last reset, one bit each (R51). -/
def State.keeperOk (s : State) (k : Nat) : Bool := s.modes.selfCheck.testBit k

/-- The lowest healthy die provides the lead (R51); none is healthy in R52. -/
def State.elect (s : State) : State :=
  match s.healthyDies.head? with
  | none => (s.setFlag PKG_LEAD.LEAD_VALID false).halt 0x1FFD
  | some d =>
    let k := if s.keeperOk (2 * d) then 2 * d else 2 * d + 1
    ((s.set PKG_LEAD.LEAD_KEEPER k).setFlag PKG_LEAD.LEAD_VALID true).bump PKG_LEAD.ELECT_COUNT

/-- A slot of the store enters a state (R82). -/
def State.setSlot (s : State) (b : Bool) (x : SlotState) : State :=
  { s with dir := if b then { s.dir with slotB := x } else { s.dir with slotA := x } }

/-- The staged image is discarded, as by CMD 0x4 (R57, R87); a slot that held it is Invalid, and streaming that waits for more words ends. -/
def State.discardStaged (s : State) : State :=
  let s := match s.staged.home with
    | .slotA => s.setSlot false .invalid
    | .slotB => s.setSlot true .invalid
    | _ => s
  let s : State := { s with staged := {} }
  if s.get PKG_SBS_STATUS.STATE = 1 then s.set PKG_SBS_STATUS.STATE 0 else s

/-- A slot write ends, and leaves the slot Invalid (R57, R565). -/
def State.endSlotWrite (s : State) : State :=
  match s.slotWrite with
  | some x => (State.setSlot { s with slotWrite := none } x.slotB .invalid).set PKG_SBS_STATUS.STATE 0
  | none => s

/-- A firmware bank is marked Invalid in the store directory, or no longer (R57). -/
def State.markBank (s : State) (b invalid : Bool) : State :=
  { s with dir := if b then { s.dir with bankInvalid1 := invalid } else { s.dir with bankInvalid0 := invalid } }

/-- The procedure that writes a firmware bank is abandoned, and leaves the bank Invalid (R57). -/
def State.abandonBank (s : State) : State :=
  match s.bankWrite with
  | some w => State.markBank { s with bankWrite := none } w.bank true
  | none => s

/-- A block read or write of the store is abandoned (R57); the STATUS that then shows is a free value (log entry 10). -/
def State.abandonNvs (s : State) : State :=
  match s.nvsOp with
  | some _ => State.tookFree (State.set { s with nvsOp := none } PKG_NVS_CTL.STATUS (s.free % 16))
  | none => s

/-- What a lead change abandons: a seal procedure, a partial reload and a store write (R56, R57). A reload past its drain's start leaves its region fenced
and the mode M7, also where the region was fenced before (R104). -/
def State.abandonAll (s : State) : State :=
  let s := { s with sealRequests := [] }
  let s := (s.set SEAL_CTL.PENDING 0).discardStaged.endSlotWrite.abandonBank.abandonNvs
  match s.reload with
  | none => s
  | some r =>
    let s := State.releaseCredits { s with reload := none } r.region
    let s := s.set PKG_SBS_STATUS.STATE 0
    if r.stage = .draining || r.stage = .applying then (s.fenceRegion r.region).afterFence
    else s.backTo s.modes.beforeReload

/-- The lead stops answering (R54, R588): the arbiter elects a new lead without the failed lead's die, whose regions are fenced; that die relays no
more (R48, log entry 52). -/
def State.leadLost (s : State) : State :=
  if s.mode < 2 then s
  else
    let d := s.leadDie
    let s := (s.setBit PKG_LEAD.DIE_HEALTHY d false).setFlag PKG_LEAD.LEAD_VALID false
    let s := s.abandonAll
    let s := ((List.range 4).map (4 * d + ·)).foldl (fun (s : State) g => s.fenceRegion g) s
    let s := s.elect.fenceCutOff
    let s := s.raise (srcPkg 0) 0
    if s.mode = 2 then { s with mr := [] } else s

end Sys2Proof.Machine
end

