-- ==== Sys2Proof/Machine/Sem.lean ====
section
/-! DEFINITION. The hardware semaphores SEM00 to SEM63 (R559 to R565), and what a control port whose link has gone down loses (R499, R562). -/

namespace Sys2Proof.Machine

/-- Only a control port holds a semaphore; the debug master acquires as the port that holds M10 (R559). -/
def Master.acquires : Master → Bool
  | .cp _ | .inband _ _ | .debug => true
  | .keeper _ | .lead => false

/-- What a master reads of a semaphore: YOURS is 1 to its holder (Table 13-8). -/
def State.semWord (s : State) (m : Master) (i : Nat) : Nat := (s.rd (SEM.addr i)).toNat + (if s.holdsSem m i && m.acquires then 2 ^ 62 else 0)

/-- An 8-byte read (R560): a free semaphore is acquired. -/
def State.semRead (s : State) (m : Master) (i : Nat) : State × Nat :=
  let s := if s.flag (SEM.HELD i) || !m.acquires then s
    else ((s.setFlag (SEM.HELD i) true).set (SEM.HOLDER i) (s.masterId m)).bump (SEM.ACQUIRES i)
  (s, s.semWord m i)

/-- A semaphore becomes free. -/
def State.semFree (s : State) (i : Nat) : State := (s.setFlag (SEM.HELD i) false).set (SEM.HOLDER i) 0

/-- The holder of SEM00 ends its store procedure by releasing it (R84). A write of a firmware bank completes then, and the bank is Invalid no longer, when
its first block and every block asked for have been written and none is in progress (R57, log entry 56). -/
def State.endBankWrite (s : State) : State :=
  match s.bankWrite with
  | some w => if w.first && w.good && s.nvsOp.isNone then State.markBank { s with bankWrite := none } w.bank false else { s with bankWrite := none }
  | none => s

/-- A write (R561): the holder releases, and any other master's write is counted. -/
def State.semWrite (s : State) (m : Master) (i : Nat) : State :=
  if s.holdsSem m i && m.acquires then (if i = 0 then s.endBankWrite.semFree 0 else s.semFree i) else s.bump (SEM.FOREIGN_WRITES i)

/-- A write of the integrator area ends (R565); its STATUS is a free value (log entry 10). -/
def State.endNvsWrite (s : State) : State :=
  match s.nvsOp with
  | some op =>
    if op.write && decide (0x800 ≤ op.block) && decide (op.block < 0x20000) then
      State.tookFree (State.set { s with nvsOp := none } PKG_NVS_CTL.STATUS (s.free % 16))
    else s
  | none => s

/-- The store procedure of the holder of SEM00 ends (R565). A partial reload runs on; a firmware bank it wrote stays as it is (log entry 56). -/
def State.endStore (s : State) : State :=
  let s := s.discardStaged.endSlotWrite.endNvsWrite
  { s with bankWrite := none }

/-- Hardware releases a semaphore (R562, R565). -/
def State.semLost (s : State) (i : Nat) : State :=
  let s := s.semFree i
  if i = 0 then s.endStore else s

/-- The control port of a fabric ID loses its semaphores, and the shared staging buffers it holds (R499, R562). -/
def State.dropHolder (s : State) (id : Nat) : State :=
  let s := (List.range 64).foldl (fun (s : State) i => if s.flag (SEM.HELD i) && s.get (SEM.HOLDER i) = id then s.semLost i else s) s
  (List.range 4).foldl (fun (s : State) d => if s.stageHeldBy d = id + 1 then s.freeStaging d else s) s

/-- The in-band masters that hold a semaphore or a staging buffer. -/
def State.inbandHolders (s : State) : List Nat :=
  let sems := s.regs.filterMap fun x => if decide (0x5000 ≤ x.1) && decide (x.1 < 0x5200) && x.2.getLsbD 63 then some (getBits x.2 0 16) else none
  (sems ++ s.stageHolder.map fun (x : Nat × Nat) => x.2 - 1).filter fun id => id / 1024 ≠ s.rank

/-- The route to a holder's rank is withdrawn: it loses what it holds (R499, R562). -/
def State.dropUnrouted (s : State) : State :=
  (s.inbandHolders.filter fun id => (s.routeBf s.leadDie id).isNone).foldl (fun (s : State) id => s.dropHolder id) s

end Sys2Proof.Machine
end

