-- ==== Sys2Proof/Machine/Settle.lean ====
section
/-! DEFINITION. What stands between two commands: the reactions that begin in the cycle after their causes (R458), the packets that the package
has formed and not yet routed, the fuses' values (R106), and the package reset (R594, R595). -/

namespace Sys2Proof.Machine

/-- One reaction of Table 10-8 takes place. -/
def State.react (s : State) (r : Reaction) : State :=
  match r with
  | .containPort p => s.containPort p 6 6
  | .containWindow w => s.containWindow w
  | .fenceCluster c => s.fenceCluster c
  | .fenceRegion g => s.fenceRegion g
  | .halt src => if s.mode < 2 then s else s.halt src
  | .fire src mask =>
    let t := s.triggered src mask
    if t = 0 then s else s.fire src t {}

/-- The reactions of the last cycle take place. -/
def State.reactAll (s : State) : State :=
  s.actions.foldl (fun s r => s.react r) { s with actions := [] }

/-- Packets that wait to be routed leave toward their destinations. -/
def State.routeAll (s : State) : State := s.outbox.foldl (fun s k => s.dispatch k) { s with outbox := [] }

/-- Reactions begin and formed packets are routed. A reaction may set further causes; what is still due after eight cycles waits for the
next command. -/
def State.settle (s : State) : State := (List.range 8).foldl (fun s _ => if s.actions.isEmpty && s.outbox.isEmpty then s else s.reactAll.routeAll) s

/-- The tally reads every ledger in every cycle (R406): what an injection has left in a word since the last command appears. One bit in error is corrected and
counted, with its cause; an uncorrectable word is recorded (R436, R438). -/
def State.readTally (s : State) : State :=
  let hurt := s.ledgers.filter fun (x : Nat × Ledger) => x.2.hurt ≠ 0
  if hurt.isEmpty then s
  else
    let s : State := { s with ledgers := s.ledgers.map fun (x : Nat × Ledger) => (x.1, { x.2.read with hurt := 0 }) }
    hurt.foldl (fun (s : State) x => if x.2.hurt = 2 then (if s.mode = 10 then s.persist (injectedBreach x.1 s.now x.2) else s)
      else if x.1 < 16384 then s.raise (srcCluster (x.1 / 256) 39) 0 else s) s

/-- A command begins: what the last one left to the next cycle happens first, and the list of what leaves the package is empty. Requests that are held are evaluated
again, since the last command may have changed what holds them (R371). -/
def beginStep (s : State) : State := (State.settle (State.readTally { s with out := [] })).evaluateAgain

/-- The value of a value-bank setting: the highest bank whose valid fuse is blown, else the factory value (R106). -/
def bankValue (factory : Nat) (l : List FuseBank) : Nat :=
  match l.reverse.find? (·.valid) with
  | some x => x.value
  | none => factory

/-- The sealed values in force from the fuses (R106, R107). -/
def Fuses.values (f : Fuses) : Sealed :=
  { domain := bankValue 0 f.domain, rank := bankValue 0 f.rank, floor := f.floor, ceiling := bankValue 0 f.ceiling, priv := bankValue 3 f.priv }

/-- The words of the registers that the fuses and the part fix: PKG_ID, PKG_SERIAL, PKG_LEAD and SEAL_REMAIN (R649, R650, Table 02-15).
DESIGN CHOICE: SEAL_REMAIN follows the fuses, also where the recovery of R111 has blown some since the reset (log entry 89). -/
def State.identityWords (s : State) : State :=
  let s := ((s.set PKG_ID.PART (if s.chip.fb512 then 1 else 2)).set PKG_ID.STEPPING (256 * s.chip.letter + s.chip.digit)).set PKG_ID.REV_ID (8 * (s.chip.letter - 0x41) + s.chip.digit + 1) |>.wr PKG_SERIAL.addr s.chip.serial
  let s := s.set PKG_LEAD.DIE_PRESENT (if s.chip.fb512 then 15 else 3)
  let s := (s.set SEAL_REMAIN.DOMAIN_ID (16 - s.fuses.domain.length)).set SEAL_REMAIN.RANK (32 - s.fuses.rank.length)
  let s := (s.set SEAL_REMAIN.FLOOR (255 - s.fuses.floor)).set SEAL_REMAIN.CEILING (8 - s.fuses.ceiling.length)
  s.set SEAL_REMAIN.PRIV (16 - s.fuses.priv.length)

/-- Slots of a direction that move nothing in cycles that pass: all but those that moved something before (R638, log entry 44). -/
def State.idleSlots (s : State) (c : Nat) (inbound : Bool) (cycles : Nat) : Nat :=
  cycles - min cycles (tabGet (fun _ => 0) s.slotsUsed (2 * c + (if inbound then 1 else 0)))

/-- The hold code of the oldest held head of a cluster (R641). -/
def State.oldestHeld (s : State) (c : Nat) : Option Nat :=
  let heads := s.ingress.filterMap fun x => if ingressCluster (x.1 / 16) = c then (match x.2 with | q :: _ => if q.cause = 0 then none else some q | [] => none) else none
  (heads.foldl (fun (m : Option Queued) q => match m with | some y => if q.order < y.order then some q else m | none => some q) none).map (·.cause)

/-- What holds an idle outbound slot: the code of the oldest held head, 0xE for an admitted item that waits for crossing 9; none starves it (Tables 16-3 and 16-5, R641). -/
def State.outboundCause (s : State) (c : Nat) : Option Nat :=
  if s.clusterHeld c then none
  else match s.oldestHeld c with
    | some k => some k
    | none => if s.waiting.any fun w => w.point = pointEntry c then some 0xE else none

/-- What holds an idle inbound slot: 0xF for an item in crossing 10. -/
def State.inboundCause (s : State) (c : Nat) : Option Nat :=
  if s.clusterHeld c then none else if s.waiting.any fun w => w.point = pointOut c then some 0xF else none

/-- Idle slots of a cluster that a cause starves from behind, over cycles that pass; cause 0 counts them all. -/
def State.backStarved (s : State) (c cause cycles : Nat) : Nat :=
  let one (k : Option Nat) (n : Nat) : Nat := match k with
    | some x => if cause = 0 || cause = x then n else 0
    | none => 0
  one (s.outboundCause c) (s.idleSlots c false cycles) + one (s.inboundCause c) (s.idleSlots c true cycles)

/-- What a counter's event gives for cycles of CK_CORE that pass, by the state in which they pass: cycles, starved slots, held heads, a full tracker or
partition, occupancy, waiting commits, throttling (Tables 16-3 and 16-4). -/
def State.timedEvent (s : State) (die : Bool) (i code q cycles : Nat) : Nat :=
  let slots := (List.range 4).filter fun k => maskHas q 0 4 k
  if !die then
    if s.gated.testBit i then 0
    else if code = 0x01 then cycles
    else if code = 0x04 then s.idleSlots i false cycles + s.idleSlots i true cycles - s.backStarved i 0 cycles
    else if code = 0x05 then s.backStarved i 0 cycles
    else if code = 0x09 then s.backStarved i (q % 16) cycles
    else if code = 0x12 then
      let held := slots.any fun k => (List.range 16).any fun j => (s.ingressQ (ingressKey (4 * i + k) j)).any fun x =>
        x.cause ≠ 0 && (q / 256 % 16 = 0 || q / 256 % 16 = x.cause)
      if held then cycles else 0
    else if code = 0x1B then (if (s.ledger (clusterLedger i 128)).out = 2048 then cycles else 0)
    else if code = 0x20 then cycles * slots.foldl (fun n k => n + (s.ledger (clusterLedger i (32 * k))).out) 0
    else 0
  else
    if code = 0x01 then cycles
    else if code = 0x05 then
      let parts := if q.testBit 4 then List.range 16 else [q % 16]
      cycles * parts.foldl (fun n k => n + (s.ledger (dieLedger i k)).out) 0
    else if code = 0x06 then
      let l := s.ledger (dieLedger i (q % 16))
      if l.total ≠ 0 && l.out = l.total then cycles else 0
    else if code = 0x0A then (if s.commits.any fun x => x.die = i then cycles else 0)
    else if code = 0x0E then (if s.flag (DIE_PWR.THROTTLING i) then cycles else 0)
    else 0

/-- The slot set of a cluster takes the idle slots of cycles that pass (R639, R642); those that moved something were counted as they moved. -/
def State.countSlotSet (s before : State) (c cycles : Nat) : State :=
  if before.gated.testBit c then s
  else
    let back := before.backStarved c 0 cycles
    (s.addCounter false c 28 (before.idleSlots c false cycles + before.idleSlots c true cycles - back)).addCounter false c 30 back

/-- The performance counters over the time that a command takes: three cycles of CK_CORE for each of CK_TIME (Table 12-1). -/
def State.countTime (before after : State) : State :=
  let cycles := 3 * (after.cycles.toNat - before.cycles.toNat)
  if cycles = 0 then after
  else
    let before := { before with slotsUsed := after.slotsUsed }
    let s := after.countBy fun die i k q => before.timedEvent die i k q cycles
    let sets := s.regs.filterMap fun x => match blockOf x.1 with
      | .cluster c o => if o = 0x68 && x.2.getLsbD 3 then some c else none
      | _ => none
    let s := sets.foldl (fun (s : State) c => s.countSlotSet before c cycles) s
    { s with slotsUsed := s.slotsUsed.foldl (fun (t : Tab Nat) x => if s.gated.testBit (x.1 / 2) then t else tabPut (fun _ => 0) t x.1 (x.2 - min cycles x.2)) s.slotsUsed }

/-- The end of every command: holders without a route lose what they hold, the queue is what the step left of it, the part is the part it was, and
the registers that fuses and part fix show them. -/
def endStep (before after : State) : State :=
  State.identityWords { State.countTime before after.dropUnrouted with pending := before.pending, chip := before.chip }

/-- A command has taken place. -/
def finish (before after : State) : Host.Outcome State Fault Refusal := .next (endStep before after)

/-- A slot that reads as Writing at the next boot is Invalid (R85). -/
def bootSlot (x : SlotState) : SlotState := if x = .writing then .invalid else x

/-- A package reset (R595): every register and state returns to its reset value; the store, the fuses, LAST_RESET and HALT_SRC are kept. A
power-on reset clears the last. The package stands in M1. THERMTRIP_B and HALT_B are released (R684). -/
def State.packageReset (s : State) (source : Nat) : State :=
  let halt := s.get PKG_MODE.HALT_SRC
  let was := s.mode
  let t : State := { State.reset with
    pending := s.pending, chip := s.chip, fuses := s.fuses, sealed := s.fuses.values, nvs := s.nvs, out := s.out, freeCount := s.freeCount, modes := { bootStraps := s.modes.bootStraps }
    dir := { s.dir with slotA := bootSlot s.dir.slotA, slotB := bootSlot s.dir.slotB } }
  let t := (t.set PKG_MODE.LAST_RESET source).set PKG_MODE.PREV_MODE was
  let t := if source = 1 then t else t.set PKG_MODE.HALT_SRC halt
  State.identityWords ((t.emit (.pin pinThermtrip true)).emit (.pin pinHalt true))

end Sys2Proof.Machine
end

