-- ==== Sys2Proof/Machine/Slots.lean ====
section
/-! DEFINITION. What a BF port sends in a slot (R128 to R132, R175, R212, R213), and the time-sync blocks it places there. -/

namespace Sys2Proof.Machine

/-! ### Time-sync blocks (Table 04-11) -/

/-- A TSYNC element. -/
def tsyncElement (kind id body : Nat) : Word := controlElement tyTsync (kind * 2 ^ 52 + id % 16 * 2 ^ 48 + body % 2 ^ 48)

/-- ROOT_RANK that the package announces. -/
def State.rootRank (s : State) : Nat :=
  match s.time.parent with
  | some p => match (s.link p).announce with
    | some a => a.rootRank
    | none => s.rank
  | none => s.rank

/-- ANNOUNCE of the package. -/
def State.announceBlock (s : State) : Word :=
  tsyncElement 1 0 (s.rootRank % 64 * 2 ^ 42 + s.timeDepth % 64 * 2 ^ 36 + s.rank % 64 * 2 ^ 30 + if s.announcesLocked then 2 ^ 29 else 0)

/-- The TSYNC blocks of a marker slot: ANNOUNCE and SYNC, DREQ in every 16th, a DRESP for every DREQ that waits (R212, R213). A DREQ replaces the one
of its ID that was never answered. -/
def State.timeBlocks (s : State) (p : Nat) : State × List Word :=
  let x := s.link p
  let now := s.now % 2 ^ 48
  let resp := (x.dresps.take 36).map fun y => tsyncElement 4 y.1 y.2
  let ask := x.markers % 16 = 0
  let id := (x.dreqId + 1) % 16
  let req := if ask then [tsyncElement 3 id now] else []
  let x := { x with dresps := x.dresps.drop 36, markers := x.markers + 1 }
  let x := if ask then { x with dreqId := id, dreqs := (id, now) :: x.dreqs.filter fun y => y.1 ≠ id } else x
  (s.setLink p x, [s.announceBlock, tsyncElement 2 0 now] ++ resp ++ req)

/-! ### Control slots -/

/-- A control slot: blocks given, then IDLE to 40. -/
def controlSlot (els : List Word) : List Nat :=
  ((els ++ List.replicate (40 - els.length) (controlElement tyIdle 0)).take 40).map (blockOfElement true)

/-- A BOND element with the slot index. -/
def bondElement (slot : Nat) : Word := controlElement tyBond (slot % 2 ^ 48 * 2 ^ 8)

/-- The STATE a lane's TRAIN block carries (Table 03-6). -/
def State.trainCode (s : State) (l : Nat) : Nat :=
  let st := s.get (LN_STATE.TRAIN_STATE l)
  if st = 1 then 1 else if st = 2 then (if (s.laneSt l).eqDone then 3 else 2) else if st = 3 then 3 else 4

/-- The TRAIN block of a lane: its own state, and the request and answer it carries (Table 03-6). -/
def State.trainElement (s : State) (p l : Nat) : Word :=
  let x := s.laneSt l
  controlElement tyTrain
    (s.trainCode l * 2 ^ 52 + s.portLane p l * 2 ^ 48 + s.widthCode p * 2 ^ 45 + (if (s.portRec p 4 1).testBit 0 then 2 ^ 44 else 0) +
      x.request % 2 ^ 17 * 2 ^ 27 + x.resp % 4 * 2 ^ 25 + s.get (LN_QUAL.FOM l) * 2 ^ 17 + x.requestSeq % 256)

/-- The slot of a lane leaves: the first of a codeword waits, the second completes it, scrambled and coded (R122 to R124, R116). -/
def State.sendSlot (s : State) (l : Nat) (blocks : List Nat) : State :=
  -- crossing 8 of the cluster carries the blocks (Table 12-4); blocks that are discarded there leave without a block header
  let (s, bad) := s.crossLane (l / 8) 8 blocks
  let blocks := if bad then blocks.map fun _ => 0 else blocks
  let x := s.laneSt l
  if x.half.isEmpty then s.setLaneSt l { x with half := blocks }
  else
    let (bs, st) := scrambleBlocks x.scrambler (x.half ++ blocks)
    let cw := encodeCodeword bs
    (s.setLaneSt l { x with half := [], scrambler := st }).emit (.laneLevels l (pam4Levels (cw.flatMap (bitsMsb 10))))

/-- The lanes of a port's transmit mask, in port-lane order. -/
def State.maskLanes (s : State) (p : Nat) : List Nat :=
  ((List.range (s.portWidth p)).filter fun i => (s.get (PORT_BOND.TX_MASK p)).testBit i).map (s.laneOf p)

/-- A lane that trains asks its partner for coefficients while it equalises: the request's values are the adapter's own, which the spec leaves
to the receiver (log entry 10). -/
def State.nextRequest (s : State) (l : Nat) : State :=
  if s.get (LN_STATE.TRAIN_STATE l) = 2 && !(s.laneSt l).eqDone then
    let x := s.laneSt l
    (s.setLaneSt l { x with request := s.free % 2 ^ 17, requestSeq := (x.requestSeq + 1) % 256 }).tookFree
  else s

/-- The flits of a port flit slot are striped over the lanes of the mask (R131). -/
def State.stripe (s : State) (p : Nat) (flits : List (List Word)) : State :=
  let lanes := s.maskLanes p
  let m := lanes.length
  let blocks := flits.flatMap fun f => f.map (blockOfElement false)
  ((List.range m).zip lanes).foldl (fun (s : State) x =>
    s.sendSlot x.2 ((List.range 40).map fun j => blocks.getD (j * m + x.1) 0)) s

/-- The flits that this command has put on a port, in order. -/
def State.flitsOut (s : State) (p : Nat) : List (List Word) :=
  s.out.filterMap fun o => match o with
    | .flitOut q e => if q = p && e.length = 40 then some e else none
    | _ => none

/-- Twelve 32-bit totals, two to an element, high half first (Table 04-6). -/
def totalsElements (l : List Nat) : List Word :=
  (List.range 6).map fun j => BitVec.ofNat 64 (l.getD (2 * j) 0 % 2 ^ 32 * 2 ^ 32 + l.getD (2 * j + 1) 0 % 2 ^ 32)

/-- The packet space of a TALLY flit (Table 04-6). -/
def State.tallySpace (s : State) (p : Nat) : List Word :=
  let x := s.link p
  totalsElements x.spent ++ totalsElements x.returned ++
    totalsElements ((List.range 12).map fun i => x.received.getD i 0 - x.returned.getD i 0) ++
    [BitVec.ofNat 64 (x.tallyNo % 2 ^ 32 * 2 ^ 32), BitVec.ofNat 64 s.now]

/-- The TALLY flit that is due leaves: sequenced and held (R179, R194). -/
def State.sendTally (s : State) (p : Nat) : State :=
  let s := s.sendSequenced p 3 0x3F (s.tallySpace p) []
  s.setLink p { s.link p with tallyNo := (s.link p).tallyNo + 1, tallyDue := false }

/-- One flit of a port slot: INIT, a flit to resend, a TALLY flit that is due, a new flit of packets, or NULL (R176, R179, R183, R194). -/
def State.sendOne (s : State) (p : Nat) : State :=
  let st := s.get (PORT_LINK.LL_STATE p)
  let x := s.link p
  if st = 1 || st = 3 then
    let s := s.sendFlit p 2 (s.get (PORT_LINK.TX_NEXT p)) 0x3F (s.ackNow p) (s.initSpace p)
    if x.initGood then (s.setLink p { s.link p with initsSent := x.initsSent + 1 }).initDone p else s
  else match x.held[x.resendFrom]? with
    | some f =>
      -- an uncorrectable word of the replay buffer ends the session (R446, R187)
      let s := if f.hurt = 0 then s else s.raiseMask (srcCluster (portCluster p) 37) ((if f.hurt.testBit 0 then 1 else 0) + (if 2 ≤ f.hurt then 2 else 0)) { port := some p, injected := true }
      if 2 ≤ f.hurt then s.bfLinkDown p else s.resend p f
    | none =>
      if x.tallyDue && decide (x.held.length < s.allotment p) then s.sendTally p
      else if !x.txElements.isEmpty && decide (x.held.length < s.allotment p) then s.sendPackets p
      else s.sendFlit p 0 (s.get (PORT_LINK.TX_NEXT p)) 0x3F (s.ackNow p) []

/-- The port has something for a flit slot (R130, R179, R182). -/
def State.flitDue (s : State) (p : Nat) : Bool :=
  let st := s.get (PORT_LINK.LL_STATE p)
  let x := s.link p
  st = 1 || st = 3 || (st = 2 && (x.nullDue || decide (x.resendFrom < x.held.length) || x.tallyDue || !x.txElements.isEmpty))

/-- The transmitter of a lane is awake and trains or carries slots (Table 03-5). -/
def State.trains (s : State) (l : Nat) : Bool :=
  decide (0 < s.get (LN_STATE.TRAIN_STATE l)) && decide (s.get (LN_STATE.TRAIN_STATE l) ≤ 5) && decide (s.get (LN_STATE.TX_SLEEP l) = 0)

/-- Awake lanes outside the transmit mask send TRAIN in a slot (R165), or the marker. One begins a codeword with the others of its port, not while one of them
stands in its second half (R123). -/
def State.outsideSlot (s : State) (p slot : Nat) : State :=
  let awake := (s.portLanes p).filter s.trains
  let s := (awake.filter fun l => decide (s.get (LN_STATE.TRAIN_STATE l) < 5)).foldl (fun (s : State) l => s.nextRequest l) s
  let mask := s.maskLanes p
  let mid := awake.any fun l => !(s.laneSt l).half.isEmpty
  (awake.filter fun l => !mask.contains l && !(mid && (s.laneSt l).half.isEmpty)).foldl (fun (s : State) l =>
    s.sendSlot l (controlSlot [if slot % 1024 = 0 then bondElement slot else s.trainElement p l])) s

/-- The next slot of a BF port (R128 to R132): a marker slot, a control slot with a LANEMAP, a flit slot, a control slot of TRAIN feedback, or IDLE.
A transmit mask whose SWITCH has come applies at its start (R161). Lanes whose transmitter is outside the mask send TRAIN in the same slot, and the
feedback of every lane that trains goes on the mask's lanes, naming it (R165). -/
def State.nextSlot (s : State) (p : Nat) : State :=
  let slot := (s.link p).slot + 1
  let s := (s.setLink p { s.link p with slot := slot }).applyTxMask p slot
  let s := s.outsideSlot p slot
  let back := ((s.portLanes p).filter fun l => s.trains l && decide (s.get (LN_STATE.TRAIN_STATE l) < 5)).map (s.trainElement p)
  let mask := s.maskLanes p
  match mask with
  | [] => s
  | lo :: _ =>
    if (s.link p).dozing ≠ 0 then s
    else if slot % 1024 = 0 then
      let (s, ts) := s.timeBlocks p
      mask.foldl (fun (s : State) l => s.sendSlot l (controlSlot (bondElement slot :: if l = lo then ts else []))) s
    else if (s.link p).mapDue.isSome then
      let (s, e) := s.formLanemap p (s.wantedMask p)
      mask.foldl (fun (s : State) l => s.sendSlot l (controlSlot (if l = lo then e :: back else []))) s
    else if s.flitDue p then
      let n := (s.flitsOut p).length
      let s := (List.range mask.length).foldl (fun (s : State) _ => s.sendOne p) s
      s.stripe p ((s.flitsOut p).drop n)
    else
      mask.foldl (fun (s : State) l => s.sendSlot l (controlSlot (if l = lo then back else []))) s

end Sys2Proof.Machine
end

