-- ==== Sys2Proof/Machine/Lane.lean ====
section
/-! DEFINITION. The commands of the lanes (chapter 03). -/

namespace Sys2Proof.Machine

/-! ### Codewords and block lock (R121 to R128) -/

/-- A codeword that decodes: corrected symbols and block errors are counted, its blocks are passed on (R121, R125, R143). -/
def State.goodCodeword (s : State) (l : Nat) (w : List Nat) (fixed : Nat) : State :=
  let x := s.laneSt l
  let (bs, d) := descrambleBlocks x.descrambler (codewordBlocks w)
  let errs := slotErrors (bs.take 40) + slotErrors (bs.drop 40)
  let idle := idleSlot (bs.take 40) && idleSlot (bs.drop 40)
  let s := s.wr (LN_FEC_CORR.addr l) (s.rd (LN_FEC_CORR.addr l) + BitVec.ofNat 64 fixed)
  let s := s.setLaneSt l { x with badRun := 0, descrambler := d, idle := x.idle && idle }
  let s := if errs = 0 then s else
    (s.wr (LN_BLK_ERR.addr l) (s.rd (LN_BLK_ERR.addr l) + BitVec.ofNat 64 errs)).raise (srcLane l) 6 { port := s.lanePort l }
  (s.updateAdapter l).emit (.blocksIn l bs (slotFlags bs))

/-- The slot index that a slot's BOND block carries (Table 03-3). -/
def slotBond (bs : List Nat) : Option Nat :=
  (bs.find? fun y => blockHeader y = 2 && elementType (blockElement y) = tyBond).map fun y => getBits (blockElement y) 8 48

/-- The index of the second slot of a codeword: the BOND block of either tells it, else it follows the last one; none before a lane's first BOND. -/
def lastSlot (old : Option Nat) (blocks : List Nat) : Option Nat :=
  match slotBond (blocks.take 40), slotBond (blocks.drop 40) with
  | _, some n => some n
  | some n, none => some (n + 1)
  | none, none => old.map (· + 2)

/-- Consecutive flit slots decoded that begin at or after a SWITCH, up to 16 (R162). -/
def flitRun (sw seen slot : Nat) (flit : Bool) : Nat := if 16 ≤ seen then seen else if sw ≤ slot && flit then seen + 1 else 0

/-- A port slot has been put together: 16 flit slots from a SWITCH on end the repeats of its LANEMAP (R162). -/
def State.countFlitSlot (s : State) (p slot : Nat) (flit : Bool) : State :=
  let x := s.link p
  match x.mapPending with
  | none => s
  | some (_, sw) =>
    let seen := flitRun sw x.mapSeen slot flit
    if 16 ≤ seen then s.setLink p { x with mapPending := none, mapSeen := 0 } else s.setLink p { x with mapSeen := seen }

/-- Two lanes lie within the skew that deskew tolerates: 20 ns, from the times at which slots of their indices came (R37, R132). -/
def LaneState.inSkew (x y : LaneState) : Bool :=
  match x.rxSlot, y.rxSlot with
  | some i, some j =>
    let a := 10 * x.rxAt + 2048 * j
    let b := 10 * y.rxAt + 2048 * i
    decide (a ≤ b + 200 * ticksPerNs) && decide (b ≤ a + 200 * ticksPerNs)
  | _, _ => false

/-- The slot of an index that a lane keeps for deskew. -/
def LaneState.slotAt (x : LaneState) (n : Nat) : Option (List Nat) := (x.buffer.find? fun y => y.1 = n).map (·.2)

/-- The flits of a port slot: block b of the slot came on lane b mod M in position b div M (R131). -/
def unstripe (slots : List (List Nat)) : List (List Word) :=
  let m := slots.length
  (List.range m).map fun f => (List.range 40).map fun j =>
    let b := 40 * f + j
    blockElement ((slots.getD (b % m) []).getD (b / m) 0)

/-- The port slot of an index is put together once every lane of the receive mask has it, within the skew (R131, R132). It is in error when the slot of
any lane is. -/
def State.formSlot (s : State) (p n : Nat) : State :=
  let m := s.rxMaskAt p n
  let lanes := ((List.range (s.portWidth p)).filter fun i => m.testBit i).map (s.laneOf p)
  let xs := lanes.map s.laneSt
  if lanes.isEmpty || !(xs.all fun x => (x.slotAt n).isSome && xs.all fun y => x.inSkew y) then s
  else
    let slots := xs.map fun x => (x.slotAt n).getD []
    let error := slots.any fun b => b.isEmpty
    let flit := !error && slots.all fun b => b.all fun y => blockHeader y = 1
    let s := lanes.foldl (fun (s : State) l => s.setLaneSt l { s.laneSt l with buffer := (s.laneSt l).buffer.filter fun y => decide (n < y.1) }) s
    (s.countFlitSlot p n flit).emit (.portSlotIn p n (if flit then unstripe slots else []) error)

/-- Two slots of the partner have come on a lane, or have not decoded (no blocks). BOND aligns them (R132); they tell how far the partner's slots have
come, the masks announced apply at their SWITCH (R169), and the port slots that are whole are put together. -/
def State.takeSlots (s : State) (l : Nat) (blocks : List Nat) (flags : Nat) : State :=
  -- crossing l of the cluster carries the blocks (Table 12-4)
  let (s, bad) := s.crossLane (l / 8) (l % 8) blocks
  let flags := if bad then 3 else flags
  let x := s.laneSt l
  match s.lanePort l, lastSlot x.rxSlot blocks with
  | some p, some n =>
    let a := if flags.testBit 0 then [] else blocks.take 40
    let b := if flags.testBit 1 then [] else blocks.drop 40
    let s := s.setLaneSt l { x with rxSlot := some n, rxAt := s.now, buffer := (x.buffer ++ [(n - 1, a), (n, b)]).drop (x.buffer.length - 2) }
    if !(s.rxMaskAt p n).testBit (s.portLane p l) then s
    else
      let s := (s.setLink p { s.link p with partnerSlot := max (s.link p).partnerSlot n }).applyRxMask p
      (s.formSlot p (n - 1)).formSlot p n
  | _, _ => s

/-- Block lock is acquired (R126, R117). -/
def State.gainLock (s : State) (l : Nat) (inverted : Bool) : State :=
  let s := (s.setFlag (LN_STATE.BLOCK_LOCK l) true).setFlag (LN_STATE.POL_INV l) inverted
  (s.setLaneSt l { s.laneSt l with goodRun := 0, badRun := 0 }).updateAdapter l

/-- An uncorrectable codeword is counted, the n-th in a row, and its slots are delivered as flagged (R122, R125, R127). -/
def State.badCodeword (s : State) (l : Nat) (r : List Nat) (n : Nat) : State :=
  let s := (s.wr (LN_FEC_UNC.addr l) (s.rd (LN_FEC_UNC.addr l) + 1)).countCl (l / 8) 0x1D 1 fun q => maskHas q 0 8 (l % 8)
  let x := s.laneSt l
  let (bs, d) := descrambleBlocks x.descrambler (codewordBlocks r)
  let s := (s.setLaneSt l { x with badRun := n, descrambler := d }).raise (srcLane l) 5 { port := s.lanePort l }
  s.emit (.blocksIn l bs 3)

/-- The slots of the blocks that a lane has just delivered are aligned and put together. -/
def State.alignDelivered (s : State) (l : Nat) : State :=
  match s.out.getLast? with
  | some (.blocksIn _ bs flags) => s.takeSlots l bs flags
  | _ => s

/-- A codeword on a lane with block lock, by what the decoder makes of it (R125, R127). -/
def State.lockedCodeword (s : State) (l : Nat) (r : List Nat) : State :=
  match rsDecode r with
  | some (w, n) => (s.goodCodeword l w n).alignDelivered l
  | none =>
    let n := (s.laneSt l).badRun + 1
    let s := (s.badCodeword l r n).takeSlots l [] 3
    if 4 ≤ n then s.loseLock l else s

/-- The symbols are a codeword whose blocks all have a header. -/
def validCodeword (r : List Nat) : Bool :=
  match rsDecode r with
  | some (w, _) => (codewordBlocks w).all fun b => blockHeader b = 1 || blockHeader b = 2
  | none => false

/-- The search for block lock, in either polarity (R126). -/
def State.seekLock (s : State) (l : Nat) (r : List Nat) : State :=
  let a := validCodeword r
  let x := s.laneSt l
  if !a && !validCodeword (r.map invertSymbol) then s.setLaneSt l { x with goodRun := 0 }
  else
    let n := if decide (x.goodRun ≠ 0) && x.inverted == !a then x.goodRun + 1 else 1
    let s := s.setLaneSt l { x with goodRun := n, inverted := !a }
    if 3 ≤ n then s.gainLock l (!a) else s

/-- A codeword is received (R125 to R127). `symbols` are those of the line: a lane that found inverted polarity inverts them (R117). -/
def State.codeword (s : State) (l : Nat) (symbols : List (BitVec 10)) : State :=
  if symbols.length ≠ 544 || s.get (LN_STATE.RX_SLEEP l) ≠ 0 then s
  else if s.flag (LN_STATE.BLOCK_LOCK l) then
    s.lockedCodeword l (symbols.map fun x => if s.flag (LN_STATE.POL_INV l) then invertSymbol x.toNat else x.toNat)
  else s.seekLock l (symbols.map (·.toNat))

/-- A flit of the standard on a lane in Flit mode: the counters of Table 03-4 advance by its corrections, and by one for an uncorrectable flit and for a
framing error. The standard's coding, which decides them, is not in the spec: free values (R115, R125, log entry 70). -/
def State.pcieFlit (s : State) (l : Nat) : State :=
  let fixed := s.free
  let s := s.tookFree
  let bad := s.free % 2
  let s := s.tookFree
  let frame := s.free % 2
  let s := s.tookFree
  let s := s.wr (LN_FEC_CORR.addr l) (s.rd (LN_FEC_CORR.addr l) + BitVec.ofNat 64 fixed)
  let s := s.wr (LN_FEC_UNC.addr l) (s.rd (LN_FEC_UNC.addr l) + BitVec.ofNat 64 bad)
  s.wr (LN_BLK_ERR.addr l) (s.rd (LN_BLK_ERR.addr l) + BitVec.ofNat 64 frame)

/-- FEC_CODEWORD_RECEIVE (R125): a codeword of a BF lane, or a flit of a PCI Express lane in Flit mode. -/
def execFecCodewordReceive (l : Nat) (symbols : List (BitVec 10)) (s₀ : State) : Host.Outcome State Fault Refusal :=
  let s := beginStep s₀
  finish s₀ (match s.lanePort l with
    | some p =>
      if s.isBf p then s.codeword l symbols
      else if s.flag (PORT_PCIE.DL_ACTIVE p) && s.flag (PORT_PCIE.FLIT p) && s.get (LN_STATE.RX_SLEEP l) = 0 then s.pcieFlit l
      else s
    | none => s)

/-- BLOCK_LOCK_ACQUIRED (R126, R117). -/
def execBlockLockAcquired (l : Nat) (inverted : Bool) (s₀ : State) : Host.Outcome State Fault Refusal :=
  let s := beginStep s₀
  finish s₀ (if s.get (LN_STATE.RX_SLEEP l) = 0 then s.gainLock l inverted else s)

/-- BLOCK_LOCK_LOST (R127, R154, R160). -/
def execBlockLockLost (l : Nat) (s₀ : State) : Host.Outcome State Fault Refusal := finish s₀ ((beginStep s₀).loseLock l)

/-- SLOT_SEND (R129 to R132, R212). -/
def execSlotSend (p : Nat) (s₀ : State) : Host.Outcome State Fault Refusal :=
  let s := beginStep s₀
  finish s₀ (if s.isBf p && !s.portDark p then s.nextSlot p else s)

/-! ### Training (R133 to R138) -/

/-- A TRAIN block's request acts on the transmitter that LANE names, once for each SEQ (R138, Table 03-6, Table 03-8). -/
def State.takeRequest (s : State) (tl : Nat) (e : Word) : State :=
  let kind := getBits e 30 2
  let seq := getBits e 0 8
  let x := s.laneSt tl
  if kind = 0 || kind = 3 || x.applied = some seq then s
  else if 8 ≤ s.get (LN_TXEQ.FORCE_PRESET tl) then s.setLaneSt tl { x with applied := some seq, resp := 2 }
  else if kind = 1 then
    let n := getBits e 27 3
    (s.setTaps tl (presetTaps n).1 (presetTaps n).2 n).setLaneSt tl { x with applied := some seq, resp := 1 }
  else
    let pre := getBits e 38 6
    let post := getBits e 32 6
    if tapsAllowed pre post then (s.setTaps tl pre post 0xF).setLaneSt tl { x with applied := some seq, resp := 1 }
    else s.setLaneSt tl { x with applied := some seq, resp := 2 }

/-- A TRAIN block arrives on a lane (Table 03-6, R165): state, width, reversal and figure of merit of the partner's end of the lane that LANE
names. -/
def State.takeTrain (s : State) (p l : Nat) (e : Word) : State :=
  let tl := s.laneOf p (getBits e 48 4)
  let s := s.takeRequest tl e
  let x := s.laneSt tl
  let st := getBits e 52 4
  let w := getBits e 45 3
  let rev := e.getLsbD 44
  let good := st = 4 && w = s.widthCode p && rev == (s.portRec p 4 1).testBit 0
  let s := s.setLaneSt tl { x with peerState := st, peerWidth := w, peerRev := rev, peerFom := getBits e 17 8 }
  let y := s.laneSt l
  s.setLaneSt l { y with confirms := if good then y.confirms + 1 else 0 }

/-- TRAIN_BLOCK_RECEIVE (R138). -/
def execTrainBlockReceive (l : Nat) (element : Word) (s₀ : State) : Host.Outcome State Fault Refusal :=
  let s := beginStep s₀
  finish s₀ (match s.lanePort l with
    | some p => if s.isBf p && elementType element = tyTrain && decide (getBits element 48 4 < s.portWidth p) then s.takeTrain p l element else s
    | none => s)

/-- A port may train: the mode runs its lanes, and nothing holds it Quiet (Table 14-1, Table 10-12). -/
def State.mayTrain (s : State) (p : Nat) : Bool :=
  s.isPort p && decide (4 ≤ s.mode) && decide (s.mode ≤ 10) && !s.portDark p && !s.asleep p && !s.modes.refclkBad.testBit (p / 16) &&
    !(!s.isPd p && s.isBf p && s.flag (PORT_CONTAIN.CONTAINED p)) && !(s.isPd p && s.flag (PORT_DPC.CONTAINED p))

/-- A port's lanes power up and train (R158, Table 03-5). PCI Express lanes follow the standard's machine (R115). -/
def State.powerUpPort (s : State) (p : Nat) : State :=
  if s.isBf p then
    (s.portLanes p).foldl (fun (s : State) l => if s.get (LN_STATE.TRAIN_STATE l) = 0 then s.enterLock l false else s.setSleep l 0 0) s
  else (s.portLanes p).foldl (fun (s : State) l => (s.set (LN_STATE.TRAIN_STATE l) 6).setSleep l 0 0) s

/-- A lane enters Active: BASELINE takes the present FOM (R136). -/
def State.laneUp (s : State) (l : Nat) : State :=
  (((s.set (LN_STATE.TRAIN_STATE l) 5).setFlag (LN_STATE.IN_MASK l) true).set (LN_QUAL.BASELINE l) (s.get (LN_QUAL.FOM l))).updateDrift l

/-- The port reaches Active on the lanes that stand in Confirm: masks, and the INIT exchange of a fresh or resumed session. -/
def State.portUp (s : State) (p : Nat) (lanes : List Nat) : State :=
  let mask := lanes.foldl (fun m l => withBit m (s.portLane p l)) 0
  let s := (lanes.foldl (fun (s : State) l => s.laneUp l) s).noneLeft p
  let s := ((s.set (PORT_BOND.TX_MASK p) mask).set (PORT_BOND.RX_MASK p) mask).set (PORT_BOND.WIDTH_CHANGES p) 0
  let s := s.set (PORT_BOND.MIN_LANES p) (s.minLanes p)
  let slot := (lanes.filterMap fun l => (s.laneSt l).rxSlot).foldl max 0
  let s := s.setLink p { s.link p with partnerSlot := slot, rxSwitch := 0 }
  if s.get (PORT_LINK.LL_STATE p) = 3 then s else s.startSession p

/-- A lane is aligned: BOND has told its slot index, and it lies within the skew of every lane of the port that BOND has aligned (R132, R37). -/
def State.aligned (s : State) (p l : Nat) : Bool :=
  (s.laneSt l).rxSlot.isSome && (s.portLanes p).all fun k => (s.laneSt k).rxSlot.isNone || (s.laneSt l).inSkew (s.laneSt k)

/-- A lane in Bond compares WIDTH and REV (R135); an aligned lane goes on to Confirm, and one outside the mask of an Active port rejoins (R165). -/
def State.bondStep (s : State) (p l : Nat) : State :=
  let x := s.laneSt l
  if x.peerWidth ≠ s.widthCode p || x.peerRev ≠ (s.portRec p 4 1).testBit 0 then
    (if s.portActive p then s.retrainPort p else ((s.portLanes p).foldl (fun (s : State) k => s.enterLock k true) s).noneLeft p).raise
      (srcLane l) 4 { port := some p }
  else if !s.aligned p l then s
  else if s.portActive p then
    let i := s.portLane p l
    if (s.wantedMask p).testBit i then s else s.sendLanemap p (withBit (s.wantedMask p) i)
  else if x.left then s
  else s.set (LN_STATE.TRAIN_STATE l) 4

/-- A lane meets the exit condition of its state (Table 03-5). -/
def State.advance (s : State) (p l fom : Nat) : State :=
  let s := (s.set (LN_QUAL.FOM l) fom).updateAdapter l
  let st := s.get (LN_STATE.TRAIN_STATE l)
  let x := s.laneSt l
  if st = 0 then (if s.mayTrain p then s.enterLock l false else s)
  else if st = 1 then
    if s.flag (LN_STATE.BLOCK_LOCK l) && decide (1 ≤ x.peerState) then s.set (LN_STATE.TRAIN_STATE l) 2 else s
  else if st = 2 then
    let own := decide (s.laneRec l 3 1 ≤ s.get (LN_QUAL.FOM l))
    let s := s.setLaneSt l { x with eqDone := own }
    if own && decide (3 ≤ x.peerState) then s.set (LN_STATE.TRAIN_STATE l) 3 else s
  else if st = 3 then s.bondStep p l
  else if st = 4 then
    let ready := (s.portLanes p).filter fun k => s.get (LN_STATE.TRAIN_STATE k) = 4 && !(s.laneSt k).left
    if ready.all (fun k => decide (16 ≤ (s.laneSt k).confirms)) &&
        (s.portLanes p).all (fun k => s.get (LN_STATE.TRAIN_STATE k) = 4 || (s.laneSt k).left) &&
        decide (s.minLanes p ≤ ready.length)
    then s.portUp p ready else s
  else s

/-- TRAIN_STATE_ADVANCE (R133, Table 03-5). -/
def execTrainStateAdvance (l fom : Nat) (s₀ : State) : Host.Outcome State Fault Refusal :=
  let s := beginStep s₀
  finish s₀ (match s.lanePort l with
    | some p => if s.isBf p && !s.portDark p then s.advance p l (fom % 256) else s
    | none => s)

/-- TRAINING_TIMEOUT (R133). -/
def execTrainingTimeout (l : Nat) (s₀ : State) : Host.Outcome State Fault Refusal :=
  let s := beginStep s₀
  let st := s.get (LN_STATE.TRAIN_STATE l)
  finish s₀ (if 1 ≤ st && st ≤ 4 then (s.enterLock l true).raise (srcLane l) 3 { port := s.lanePort l } else s)

/-- EQUALISE_TIMEOUT (R134, R133). -/
def execEqualiseTimeout (p : Nat) (s₀ : State) : Host.Outcome State Fault Refusal :=
  let s := beginStep s₀
  let inEq := (s.portLanes p).filter fun l => s.get (LN_STATE.TRAIN_STATE l) = 2
  let ready := (s.portLanes p).filter fun l => s.get (LN_STATE.TRAIN_STATE l) = 3 || s.get (LN_STATE.TRAIN_STATE l) = 4 ||
    (s.get (LN_STATE.TRAIN_STATE l) = 2 && (s.laneSt l).eqDone)
  finish s₀ (if !s.isBf p || inEq.isEmpty then s
    else
      let go := decide (s.minLanes p ≤ ready.length)
      let s := inEq.foldl (fun (s : State) l =>
        if go && (s.laneSt l).eqDone then s.set (LN_STATE.TRAIN_STATE l) 3
        else (s.enterLock l true).raise (srcLane l) 3 { port := some p }) s
      if go && !s.portActive p then
        ((s.portLanes p).filter fun l => !ready.contains l).foldl (fun (s : State) l => s.setLaneSt l { s.laneSt l with left := true }) s
      else s)

/-! ### The adapter and the drift watchdog (R142 to R147) -/

/-- ADAPTER_CHECKPOINT (R144). -/
def execAdapterCheckpoint (l values fom : Nat) (s₀ : State) : Host.Outcome State Fault Refusal :=
  let s := beginStep s₀
  let s := (s.set (LN_QUAL.FOM l) fom).updateAdapter l
  finish s₀ (if s.flag (LN_STATE.ADAPT_FROZEN l) then s
    else s.setLaneSt l { s.laneSt l with values := values, checkpoint := values })

/-- ADAPTER_IDLE_FREEZE (R142, R144). -/
def execAdapterIdleFreeze (l : Nat) (s₀ : State) : Host.Outcome State Fault Refusal :=
  let s := beginStep s₀
  finish s₀ ((s.setLaneSt l { s.laneSt l with idle := true }).updateAdapter l)

/-- The standard's presets and coefficient requests set the taps of a PCI Express port's lanes, rounded to 1/64 and inside R137: what the partner asks for
is not in the spec, free values shown as negotiated coefficients (R139, log entry 70). -/
def State.equalisePcie (s : State) (p : Nat) : State :=
  (s.portLanes p).foldl (fun (s : State) l =>
    let pre := s.free % 17
    let s := s.tookFree
    let post := s.free % 25
    s.tookFree.setTaps l pre (min post (40 - pre)) 0xF) s

/-- Entry of a PCI Express port to Recovery, where equalisation is done anew (R146, R139, Table 05-8), by an error of the link (log entry 75). -/
def State.enterRecovery (s : State) (p : Nat) : State :=
  if !s.flag (PORT_PCIE.DL_ACTIVE p) then s
  else (((((s.set (PORT_PCIE.LINK_STATE p) 4).bump (PORT_PCIE.RECOVERIES p)).equalisePcie p).portHeard p).logCorrectable p aerReceiver).raise (srcLink p) 7 { port := some p }

/-- DRIFT_WATCHDOG_FIRE (R145 to R147, R166). -/
def execDriftWatchdogFire (l fom : Nat) (s₀ : State) : Host.Outcome State Fault Refusal :=
  let s := beginStep s₀
  let s := (s.set (LN_QUAL.FOM l) fom).updateAdapter l
  finish s₀ (match s.lanePort l with
    | none => s
    | some p =>
      if !s.driftLow l || s.get (LN_STATE.RX_SLEEP l) ≠ 0 then s
      else
        let s := s.setFlag (LN_QUAL.DRIFT_SEEN l) true
        if s.isBf p then
          let i := s.portLane p l
          if s.get (LN_STATE.TRAIN_STATE l) ≠ 5 || (s.laneSt l).leaving || !(s.wantedMask p).testBit i then s
          else
            let s := s.raise (srcLane l) 2 { port := some p }
            (s.setLaneSt l { s.laneSt l with leaving := true }).dropLane p i
        else if s.get (PORT_PCIE.LINK_STATE p) = 3 then s.enterRecovery p
        else s)

/-! ### Eye scans (R149 to R153) -/

/-- TOP and BOTTOM show the contour at COLUMN and EYE (Table 03-12). DESIGN CHOICE: a COLUMN above 63, and EYE 0b11, show 0 (log entry 88). -/
def State.showEye (s : State) (l : Nat) : State :=
  let v := if s.get (LN_EYE.COLUMN l) < 64 then (s.laneSt l).contour.getD (64 * s.get (LN_EYE.EYE l) + s.get (LN_EYE.COLUMN l)) 0 else 0
  if s.flag (LN_EYE.EYE_VALID l) then (s.set (LN_EYE.TOP l) (v / 256)).set (LN_EYE.BOTTOM l) v
  else (s.set (LN_EYE.TOP l) 0).set (LN_EYE.BOTTOM l) 0

/-- The steps that a binary search of six probes finds to pass, counted from its first: each probe is given by the samples it took without an error, and
passes at `need` of them (R151; log entry 71). -/
def edgeSearch (need : Nat) (probes : List Nat) : Nat :=
  (List.range 6).foldl (fun n i => if need ≤ probes.getD i 0 then n + 2 ^ (5 - i) else n) 0

/-- TOP × 256 + BOTTOM of a column: the search up found n steps above step 64 to pass, and the search down m steps below step 63. A column of which no probe
passes is closed (Table 03-12, log entry 71). -/
def eyeColumn (n m : Nat) : Nat := if n = 0 && m = 0 then 0 else (64 + n) * 256 + (63 - m)

/-- The contour of three eyes of 64 columns, from the six probes of the upper edge and the six of the lower edge of each (R151). -/
def contourOf (target : Nat) (probes : List Nat) : List Nat :=
  let need := 3 * 10 ^ target
  (List.range 192).map fun i =>
    eyeColumn (edgeSearch need ((probes.drop (12 * i)).take 6)) (edgeSearch need ((probes.drop (12 * i + 6)).take 6))

/-- EYE_CONTOUR_COMPLETE (R149, R151 to R153). `probes` holds, for the 2,304 points that a contour probes, the samples taken without an error: eye by eye
and column by column, six of the upper edge and six of the lower. -/
def execEyeContourComplete (l : Nat) (probes : List Nat) (s₀ : State) : Host.Outcome State Fault Refusal :=
  let s := beginStep s₀
  finish s₀ (if s.flag (LN_QUAL.SAMPLER_OWNED l) && s.get (LN_STATE.RX_SLEEP l) = 0 && s.flag (LN_STATE.BLOCK_LOCK l) then
      let columns := contourOf (s.get (LN_EYE.TARGET l)) probes
      let s := (s.setLaneSt l { s.laneSt l with contour := columns }).setFlag (LN_EYE.EYE_VALID l) true
      (s.bump (LN_EYE.CONTOURS l)).showEye l
    else s)

/-! ### Sleep (R154 to R158, R615) -/

/-- The transmit direction of a BF port may enter Doze (R615, Table 03-9): it is allowed, and nothing waits for it. -/
def State.canDoze (s : State) (p : Nat) : Bool :=
  s.isBf p && s.get (PORT_LINK.LL_STATE p) = 2 && s.mayDoze p && !(s.planned.any fun x => x = .sleep p) &&
    (s.maskLanes p).all (fun l => (s.laneRec l 8 1).testBit 0) && !(s.waiting.any fun w => lastPoint w = pointPort p) &&
    !s.flitDue p && (s.link p).mapDue.isNone

/-- IDLE_US of a port in ticks (Table 15-3). -/
def State.idleTicks (s : State) (p : Nat) : Nat := 1000 * ticksPerNs * s.sec powerSec (64 + 16 * p + 2) 2

/-- The DOZE slot ends a codeword, so that it leaves before its transmitter does: a slot as any other goes first where the codeword is still to begin (R123, R154;
log entry 69). -/
def State.beginPair (s : State) (p : Nat) : State :=
  if (s.maskLanes p).any fun l => (s.laneSt l).half.isEmpty then s.nextSlot p else s

/-- A control slot of one kind of block after BOND goes on the lanes of the mask, at whose start a transmit mask whose SWITCH has come applies (R154, R155, R161);
awake lanes outside the mask train in it (R165). DESIGN CHOICE: a slot of DOZE or WAKE blocks is sent as such also where its index is a multiple of 1,024 (log
entry 69). -/
def State.sleepSlot (s : State) (p ty : Nat) : State :=
  let slot := (s.link p).slot + 1
  let s := ((s.setLink p { s.link p with slot := slot }).applyTxMask p slot).outsideSlot p slot
  (s.maskLanes p).foldl (fun (s : State) l => s.sendSlot l (controlSlot (bondElement slot :: List.replicate 39 (controlElement ty 0)))) s

/-- DOZE_IDLE_EXPIRY (R154, R615): nothing has been booked for IDLE_US. -/
def execDozeIdleExpiry (p : Nat) (s₀ : State) : Host.Outcome State Fault Refusal :=
  let s := beginStep s₀
  finish s₀ (if s.canDoze p && (s.link p).dozing = 0 then
      let s := (s.waitUntil ((s.link p).bookedAt + s.idleTicks p)).beginPair p
      -- a mask that applied in the first slot may have made the port retrain
      if s.canDoze p then (s.setLink p { s.link p with dozing := 1, wakeAt := none }).sleepSlot p tyDoze else s
    else s)

/-- TX_DOZE_ENTRY (R154): a wake request that came during the DOZE slot counts from now (R156). -/
def execTxDozeEntry (p : Nat) (s₀ : State) : Host.Outcome State Fault Refusal :=
  let s := beginStep s₀
  finish s₀ (if (s.link p).dozing = 1 then
      let s := s.setLink p { s.link p with dozing := 2, wakeAt := (s.link p).wakeAt.map fun _ => s.now }
      let s := s.set (PORT_WAKE.SLEEP p) 1
      (s.maskLanes p).foldl (fun (s : State) l => s.setSleep l 1 (s.get (LN_STATE.RX_SLEEP l))) s
    else s)

/-- DOZE_BLOCK_RECEIVE (R154): the receiver enters Doze where SLEEP_ALLOW bit 2 is set, and else stays powered and listens (R617). -/
def execDozeBlockReceive (l : Nat) (s₀ : State) : Host.Outcome State Fault Refusal :=
  let s := beginStep s₀
  finish s₀ (if s.flag (LN_STATE.BLOCK_LOCK l) && s.get (LN_STATE.RX_SLEEP l) = 0 then
      let s := s.setFlag (LN_STATE.BLOCK_LOCK l) false
      let s := s.setLaneSt l { s.laneSt l with goodRun := 0, badRun := 0, rxSlot := none, buffer := [] }
      s.setSleep l (s.get (LN_STATE.TX_SLEEP l)) (if (s.laneRec l 8 1).testBit 2 then 1 else 0)
    else s)

/-- A transmit direction in Doze is Active 200 ns after the wake request, then sends 16 control slots of WAKE (R155, R156). -/
def State.txWake (s : State) (p : Nat) : State :=
  match (s.link p).dozing, (s.link p).wakeAt with
  | 2, some t =>
    let s := s.waitUntil (t + 200 * ticksPerNs)
    -- lanes outside the mask that stand in a codeword end it first
    let s := if (s.portLanes p).any fun l => s.trains l && !(s.laneSt l).half.isEmpty then s.nextSlot p else s
    let s := (s.maskLanes p).foldl (fun (s : State) l => s.setSleep l 0 (s.get (LN_STATE.RX_SLEEP l))) s
    let s := s.set (PORT_WAKE.SLEEP p) 0
    let s := s.setLink p { s.link p with dozing := 0, wakeAt := none }
    (List.range 16).foldl (fun (s : State) _ => s.sleepSlot p tyWake) s
  | _, _ => s

/-- TX_WAKE_ACTIVE (R155, R156). -/
def execTxWakeActive (p : Nat) (s₀ : State) : Host.Outcome State Fault Refusal :=
  let s := beginStep s₀
  finish s₀ (s.txWake p)

/-- RX_ENERGY_DETECT (R155): the receiver leaves Doze, and regains codeword lock from the codewords that follow (R126). -/
def execRxEnergyDetect (l : Nat) (s₀ : State) : Host.Outcome State Fault Refusal :=
  let s := beginStep s₀
  finish s₀ (if s.get (LN_STATE.RX_SLEEP l) = 1 then s.setSleep l (s.get (LN_STATE.TX_SLEEP l)) 0 else s)

/-- WAKE_PREAMBLE_END (R157). -/
def execWakePreambleEnd (p : Nat) (s₀ : State) : Host.Outcome State Fault Refusal :=
  let s := beginStep s₀
  let mask := (List.range (s.portWidth p)).filter fun i => (s.get (PORT_BOND.RX_MASK p)).testBit i
  let dark := mask.filter fun i => !s.flag (LN_STATE.BLOCK_LOCK (s.laneOf p i))
  finish s₀ (if !s.portActive p || dark.isEmpty then s
    else
      -- the lock that Doze suspended is lost (R152)
      let s := dark.foldl (fun (s : State) i => s.stopScan (s.laneOf p i)) s
      if dark.length = mask.length then s.retrainPort p else
      let s := dark.foldl (fun (s : State) i => ((s.enterLock (s.laneOf p i) true).bump (LN_STATE.DROP_COUNT (s.laneOf p i))).raise
        (srcLane (s.laneOf p i)) 1 { port := some p }) s
      let want := dark.foldl (fun m i => withoutBit m i) (s.wantedMask p)
      if maskCount want < s.minLanes p then s.retrainPort p else s.sendLanemap p want)

/-- LANE_POWER_UP (R158). -/
def execLanePowerUp (p : Nat) (s₀ : State) : Host.Outcome State Fault Refusal :=
  let s := beginStep s₀
  finish s₀ (if s.mayTrain p then s.powerUpPort p else s)

/-! ### Masks (R159 to R168) -/

/-- LANEMAP_RECEIVE (R161). -/
def execLanemapReceive (p : Nat) (element : Word) (s₀ : State) : Host.Outcome State Fault Refusal :=
  let s := beginStep s₀
  let x := s.link p
  finish s₀ (if s.portActive p && elementType element = tyLanemap && switchAhead x.slot (getBits element 0 24) then
      s.setLink p { x with switch := insertSwitch x.slot (getBits element 40 16, getBits element 0 24, getBits element 36 4) x.switch }
    else s)

/-- LANEMAP_REPEAT (R162). -/
def execLanemapRepeat (p : Nat) (s₀ : State) : Host.Outcome State Fault Refusal :=
  let s := beginStep s₀
  finish s₀ (if (s.link p).mapPending.isSome then s.sendLanemap p (s.wantedMask p) else s)

/-- MASK_SWITCH (R161, R167, R169): the slot about to begin is a SWITCH. The masks due there apply; SLOT_SEND applies one that is still due. -/
def execMaskSwitch (p : Nat) (s₀ : State) : Host.Outcome State Fault Refusal :=
  let s := beginStep s₀
  finish s₀ (s.applyTxMask p ((s.link p).slot + 1))

/-- The widest width the standard allows within the lanes left. -/
def pcieWidth (n : Nat) : Nat := if 16 ≤ n then 16 else if 8 ≤ n then 8 else if 4 ≤ n then 4 else if 2 ≤ n then 2 else n

/-- The port may change width by L0p: PM_ALLOW permits it, the link is in Flit mode and the partner supports it (R168, R224, Table 05-3). -/
def State.l0pAllowed (s : State) (p : Nat) : Bool := (s.portRec p 66 1).testBit 0 && s.flag (PORT_PCIE.FLIT p) && s.l0pPartners.contains p

/-- PCIE_LANE_LOSS (R168, R167): L0p where both ends and PM_ALLOW permit it, else a retrain to a width the standard allows. -/
def execPcieLaneLoss (p lanesLeft : Nat) (s₀ : State) : Host.Outcome State Fault Refusal :=
  let s := beginStep s₀
  let w := pcieWidth (min lanesLeft (s.get (PORT_PCIE.ACTIVE_WIDTH p)))
  finish s₀ (if s.isBf p || !s.flag (PORT_PCIE.DL_ACTIVE p) || w = 0 then s
    else
      let l0p := s.l0pAllowed p
      let s := s.set (PORT_PCIE.ACTIVE_WIDTH p) w
      let s := if l0p then s else (s.set (PORT_PCIE.WIDTH p) w).enterRecovery p
      s.republish 3)

end Sys2Proof.Machine
end

