-- ==== Sys2Proof/Machine/LinkCommands.lean ====
section
/-! DEFINITION. The commands of the Burek link layer (chapter 04). -/

namespace Sys2Proof.Machine

/-- The running port of a session. -/
def State.linkRuns (s : State) (p : Nat) : Bool := s.isBf p && decide (s.get (PORT_LINK.LL_STATE p) = 2)

/-- A flit of the line: FTYPE is INIT. -/
def flitType (flit : List Word) : Nat := getBits (flit.getD 0 0) 60 4

/-- INIT_FLIT_RECEIVE (R176 to R178, R186). -/
def execInitFlitReceive (p : Nat) (flit : List Word) (s₀ : State) : Host.Outcome State Fault Refusal :=
  let s := beginStep s₀
  finish s₀ (if s.isBf p && flitType flit = 2 then s.receiveFlit p flit false else s)

/-- FLIT_RECEIVE (R174, R180 to R183, R192). `flagged` says that a block or codeword of the flit had an error (R174). -/
def execFlitReceive (p : Nat) (flit : List Word) (flagged : Bool) (s₀ : State) : Host.Outcome State Fault Refusal :=
  let s := beginStep s₀
  finish s₀ (if s.isBf p then s.receiveFlit p flit flagged else s)

/-- NAK_RETRY_TIMEOUT (R181): REPLAY_TIMEOUT has passed since the last request. -/
def execNakRetryTimeout (p : Nat) (s₀ : State) : Host.Outcome State Fault Refusal :=
  let s := beginStep s₀
  finish s₀ (if s.linkRuns p && s.flag (PORT_LINK.NAK_PENDING p) then (s.waitUntil ((s.link p).lastNak + s.replayTimeout p)).requestReplay p true else s)

/-- REPLAY_TIMER_EXPIRY (R184, R185): REPLAY_TIMEOUT has passed since the timer last started. -/
def execReplayTimerExpiry (p : Nat) (s₀ : State) : Host.Outcome State Fault Refusal :=
  let s := beginStep s₀
  finish s₀ (if s.linkRuns p && !(s.link p).held.isEmpty then (s.waitUntil ((s.link p).replayAt + s.replayTimeout p)).rewind p else s)

/-- LINK_RETURN_TIMEOUT (R187): the port left Active 20 ms ago and is not back. -/
def execLinkReturnTimeout (p : Nat) (s₀ : State) : Host.Outcome State Fault Refusal :=
  let s := beginStep s₀
  finish s₀ (if s.isBf p && decide (s.get (PORT_LINK.LL_STATE p) = 3) && !s.portActive p
    then (s.waitUntil ((s.link p).leftAt + 20000000 * ticksPerNs)).bfLinkDown p else s)

/-- TALLY_SEND (R194): a TALLY flit is due. It leaves in a flit slot of the port, after the flits to be resent (R183) and once the allotment has room
for it (R179), with the figures of that instant; a dozing direction wakes for it (log entry 69). -/
def execTallySend (p : Nat) (s₀ : State) : Host.Outcome State Fault Refusal :=
  let s := beginStep s₀
  finish s₀ (if s.linkRuns p then (s.setLink p { s.link p with tallyDue := true }).wakeRequest p else s)

/-- TALLY_RECEIVE (R195, R419). -/
def execTallyReceive (p : Nat) (flit : List Word) (s₀ : State) : Host.Outcome State Fault Refusal :=
  let s := beginStep s₀
  finish s₀ (if s.isBf p && flitType flit = 3 then s.receiveFlit p flit false else s)

/-- TALLY_LATE (R420). -/
def execTallyLate (p : Nat) (s₀ : State) : Host.Outcome State Fault Refusal :=
  let s := beginStep s₀
  finish s₀ (if s.linkRuns p then (s.waitUntil ((s.link p).tallyAt + 3000000 * ticksPerNs)).raise (srcLink p) 3 { port := some p } else s)

/-- TALLY_MISSING (R420, R187). -/
def execTallyMissing (p : Nat) (s₀ : State) : Host.Outcome State Fault Refusal :=
  let s := beginStep s₀
  finish s₀ (if s.linkRuns p then (s.waitUntil ((s.link p).tallyAt + 10000000 * ticksPerNs)).bfLinkDown p else s)

end Sys2Proof.Machine
end

