-- ==== Sys2Proof/Machine/Traffic.lean ====
section
/-! DEFINITION. The commands of traffic (chapters 05 to 07): requests, packets, completions, interrupts, messages and locked sequences as they
reach the package, and placement. -/

namespace Sys2Proof.Machine

/-- A PU or PD port whose link is up takes TLPs (Table 14-1, R248). -/
def State.pcieUp (s : State) (p : Nat) : Bool := (s.isPu p || s.isPd p) && s.flag (PORT_PCIE.DL_ACTIVE p) && !s.portDark p

/-- A BF port that takes packets. -/
def State.bfTakes (s : State) (p : Nat) : Bool := s.isBf p && !s.portDark p

/-! ### Packets at BF ports -/

/-- BF_PACKET_ARRIVAL (R203, R270, R378, R379): the oldest packet that the link layer of the port has accepted. -/
def execBfPacketArrival (p : Nat) (s₀ : State) : Host.Outcome State Fault Refusal :=
  let s := beginStep s₀
  finish s₀ (if s.bfTakes p then s.nextArrival p else s)

/-- WRITE_LOSS_EVENT_RECEIVE (R199, R466, R467): the Event is checked as every packet (R486). -/
def execWriteLossEventReceive (p : Nat) (pkt : Packet) (s₀ : State) : Host.Outcome State Fault Refusal :=
  let s := beginStep s₀
  finish s₀ (if s.bfTakes p && pkt.ptype = 8 && pkt.sub = 3 then
      let (s, ok) := s.checkPacket (portDie p) { id := pkt.src, partition := some pkt.partition } pkt (some p)
      if ok then s.writeLossHere pkt else s
    else s)

/-- BUREK_COMPLETION_RECEIVE (R275 to R277, R284, R394). -/
def execBurekCompletionReceive (p : Nat) (pkt : Packet) (s₀ : State) : Host.Outcome State Fault Refusal :=
  let s := beginStep s₀
  finish s₀ (if s.bfTakes p && pkt.isCompletion && pkt.dest / 1024 = s.rank then s.completionHere pkt else s)

/-! ### PU and PD ports -/

/-- REQUEST_RECEIVE (R266). -/
def execRequestReceive (p : Nat) (t : Tlp) (s₀ : State) : Host.Outcome State Fault Refusal :=
  let s := beginStep s₀
  finish s₀ (if s.pcieUp p then (s.portHeard p).receiveRequest p t else s)

/-- A completion from a link is finished as its request asks: a locked read grants or restores the lock (R343). -/
def State.finishFromLink (s : State) (p : Nat) (k : Packet) (status : Nat) (data : List Byte) (poison : Bool) : State :=
  if k.ptype = 5 then s.lockRead p k status data poison
  else s.finishAsk p k status data poison

/-- DEVICE_COMPLETION_RECEIVE (R441, R343, R278). -/
def execDeviceCompletionReceive (p : Nat) (t : Tlp) (s₀ : State) : Host.Outcome State Fault Refusal :=
  let s := beginStep s₀
  finish s₀ (if s.pcieUp p then (s.portHeard p).completionFromLink p t (fun s k st b x => s.finishFromLink p k st b x) else s)

/-- PD_TLP_ACKNOWLEDGED (R284): `tag` is the Burek TAG of the Write-Ack. -/
def execPdTlpAcknowledged (p tag : Nat) (s₀ : State) : Host.Outcome State Fault Refusal :=
  let s := beginStep s₀
  finish s₀ (match s.device.find? fun d => d.port = p && d.waitAck && (match d.pkt with | some k => k.tag = tag | none => false) with
    | some d =>
      let s := s.endAsk d
      match d.pkt with
      | some k => if d.answered || d.timedOut then s else s.answerTo (portCluster p) k stOk [] false
      | none => s
    | none => s)

/-- PREFETCH_EXPIRY (R299): data of stream i of cluster c that no demand piece has used for 10 µs is cancelled. -/
def execPrefetchExpiry (c i : Nat) (s₀ : State) : Host.Outcome State Fault Refusal :=
  let s := beginStep s₀
  finish s₀ (match (s.streams.filter fun (x : Stream) => decide (x.cluster = c))[i]? with
    | none => s
    | some x =>
      match (x.blocks.filter fun b => decide (b.2.2 ≠ 0)).map (·.2.2) with
      | [] => s
      | t :: ts =>
        let s := s.waitUntil (ts.foldl min t + 10000 * ticksPerNs)
        s.cancelData x fun a => x.blocks.any fun b => b.1 = a && decide (b.2.2 ≠ 0) && decide (b.2.2 + 10000 * ticksPerNs ≤ s.now))

/-! ### Interrupts and messages -/

/-- MSIX_EVENT_RECEIVE (R305). -/
def execMsixEventReceive (p : Nat) (pkt : Packet) (s₀ : State) : Host.Outcome State Fault Refusal :=
  let s := beginStep s₀
  finish s₀ (if s.isPu p && s.pcieUp p && pkt.ptype = 8 && pkt.sub = 1 then s.msixAtHost p pkt else s)

/-- INTX_MESSAGE_RECEIVE (R307). -/
def execIntxMessageReceive (p pin : Nat) (level : Bool) (fn : Nat) (s₀ : State) : Host.Outcome State Fault Refusal :=
  let s := beginStep s₀
  finish s₀ (if s.isPd p && s.pcieUp p then (s.portHeard p).intxFromDevice p pin fn level else s)

/-- INTX_EVENT_RECEIVE (R308). -/
def execIntxEventReceive (p : Nat) (pkt : Packet) (s₀ : State) : Host.Outcome State Fault Refusal :=
  let s := beginStep s₀
  finish s₀ (if s.isPu p && s.pcieUp p && pkt.ptype = 8 && pkt.sub = 2 then s.intxAtHost p pkt else s)

/-- VENDOR_MESSAGE_RECEIVE (Table 06-5). -/
def execVendorMessageReceive (p : Nat) (t : Tlp) (s₀ : State) : Host.Outcome State Fault Refusal :=
  let s := beginStep s₀
  finish s₀ (if s.pcieUp p then (s.portHeard p).vendorMessage p t else s)

/-! ### Configuration at a PD port (R357) -/


/-- CONFIG_RETRY_TIMER (R357): 10 µs after the request was last issued; not while the port is locked by another (R344). -/
def execConfigRetryTimer (p : Nat) (s₀ : State) : Host.Outcome State Fault Refusal :=
  let s := beginStep s₀
  finish s₀ (match s.configOut p with
    | some j =>
      if j.retrying && !s.lockedOut p j.pkt then
        let s := s.waitUntil j.retryAt
        State.issueConfig { s with configJobs := s.configJobs.map fun x => if x.port = p && x.issued then { x with retrying := false } else x } p j.pkt
      else s
    | none => s)

/-- CONFIG_RETRY_TIMEOUT (R357): half the surrogate bound has passed. -/
def execConfigRetryTimeout (p : Nat) (s₀ : State) : Host.Outcome State Fault Refusal :=
  let s := beginStep s₀
  finish s₀ (match s.configOut p with
    | some j =>
      let s := s.waitUntil (j.received + s.surrogateBound / 2)
      let out := s.device.filter fun d => d.port = p && (match d.pkt with | some k => k.ptype = 9 | none => false)
      let s := if out.isEmpty then s.spareTag p else out.foldl (fun (s : State) d => s.endAsk d) s
      s.endConfig p j stTargetAbort []
    | none => s)

/-! ### Locked sequences (R333 to R352) -/

/-- MRDLK_RECEIVE (R335). -/
def execMrdlkReceive (p : Nat) (t : Tlp) (s₀ : State) : Host.Outcome State Fault Refusal :=
  let s := beginStep s₀
  finish s₀ (if s.isPu p && s.pcieUp p && t.kind = .memReadLock then (s.portHeard p).receiveLocked p t else s)

/-- A packet that a command hands to a PD port, as one that waits there. -/
def portWait (p : Nat) (k : Packet) : Waiting := { point := pointPort p, pkt := k, deadline := k.deadline, ingress := p }

/-- A Lock, Unlock or Config packet from another package is checked as an access of its kind; a refused one is answered DENIED (R340, R485, R498). One that passes takes a
tag of the pool, and an empty pool holds it where it is (R229). It is for the port's handler engine, which serves it or takes it as an item (R334). -/
def State.checkAtPort (s₀ : State) (p : Nat) (pkt : Packet) (go : State → State) : State :=
  let (s, ok) := if pkt.src / 1024 = s₀.rank then (s₀, true)
    else s₀.checkPacket (portDie p) { id := pkt.src, partition := some pkt.partition } pkt (some p)
  if !ok then s.complete (portCluster p) pkt stDenied [] false
  else if !(s.ledger (portLedger p 27)).room 1 then s₀
  else
    let s := s.issue (portLedger p 27) 1
    if s.heldBack p pkt then s.holdBack p (portWait p pkt)
    else if s.serves p 1 then go s else (s.handPacket p (portWait p pkt)).getD s₀

/-- CONFIG_PACKET_RECEIVE (R357, R219): a locked port holds back what does not come from its owner (R344), and an empty tag pool the packet where it is (R229). -/
def execConfigPacketReceive (p : Nat) (pkt : Packet) (s₀ : State) : Host.Outcome State Fault Refusal :=
  let s := beginStep s₀
  finish s₀ (if s.isPd p && s.pcieUp p && pkt.ptype = 9 then s.checkAtPort p pkt fun s => s.configArrives p pkt else s)

/-- LOCK_PACKET_RECEIVE (R340 to R342). -/
def execLockPacketReceive (p : Nat) (pkt : Packet) (s₀ : State) : Host.Outcome State Fault Refusal :=
  let s := beginStep s₀
  finish s₀ (if s.isPd p && s.pcieUp p && pkt.ptype = 5 then s.checkAtPort p pkt fun s => s.lockArrives p pkt else s)

/-- LOCK_GRANT_RECEIVE (R336). -/
def execLockGrantReceive (pkt : Packet) (s₀ : State) : Host.Outcome State Fault Refusal :=
  let s := beginStep s₀
  finish s₀ (if pkt.ptype = 7 && !busyAnswer pkt then s.lockGranted pkt else s)

/-- LOCK_BUSY_RECEIVE (R350). -/
def execLockBusyReceive (pkt : Packet) (s₀ : State) : Host.Outcome State Fault Refusal :=
  let s := beginStep s₀
  finish s₀ (if pkt.ptype = 7 && busyAnswer pkt then s.lockBusy pkt else s)

/-- LOCK_BACKOFF_EXPIRY (R350, R351): the wait that was drawn ends. -/
def execLockBackoffExpiry (s₀ : State) : Host.Outcome State Fault Refusal :=
  let s := beginStep s₀
  finish s₀ (match s.lockWait.find? fun x => x.backoff with
    | some x => (s.waitUntil x.untilTick).lockAgain x
    | none => s)

/-- UNLOCK_MESSAGE_RECEIVE (R337). -/
def execUnlockMessageReceive (p : Nat) (s₀ : State) : Host.Outcome State Fault Refusal :=
  let s := beginStep s₀
  finish s₀ (if s.isPu p && s.pcieUp p then
      let s := s.portHeard p
      if s.serves p 4 then s.unlockNear p else s.handTlp p 4 { kind := .message 0 } false
    else s)

/-- UNLOCK_PACKET_RECEIVE (R345). -/
def execUnlockPacketReceive (p : Nat) (pkt : Packet) (s₀ : State) : Host.Outcome State Fault Refusal :=
  let s := beginStep s₀
  finish s₀ (if s.isPd p && s.pcieUp p && pkt.ptype = 6 then s.checkAtPort p pkt fun s => s.unlockArrives p pkt else s)

/-- LOCK_HOLD_EXPIRY (R346): LOCKED has been set for HOLD_LIMIT µs. -/
def execLockHoldExpiry (p : Nat) (s₀ : State) : Host.Outcome State Fault Refusal :=
  let s := beginStep s₀
  finish s₀ (if s.flag (PORT_LOCK.LOCKED p) then
      let l := s.portLock p
      (s.waitUntil (l.since + 1000 * ticksPerNs * l.limit)).breakLock p
    else s)

/-- LOCK_BOUND_EXPIRY (R352): 100 µs, or the surrogate bound when it is shorter, for the oldest MRdLk without a grant. -/
def execLockBoundExpiry (s₀ : State) : Host.Outcome State Fault Refusal :=
  let s := beginStep s₀
  finish s₀ (match s.lockWait.filter fun x => s.outstanding.any fun o => o.id = x.id with
    | x :: _ =>
      let at_ := match s.outstanding.find? fun o => o.id = x.id with
        | some o => o.received
        | none => s.now
      (s.waitUntil (at_ + min (100000 * ticksPerNs) s.surrogateBound)).lockExpired x
    | [] => s)

/-! ### Placement -/

/-- PACKET_PLACE (R383, R384). -/
def execPacketPlace (point : Nat) (s₀ : State) : Host.Outcome State Fault Refusal := finish s₀ ((beginStep s₀).place point)

end Sys2Proof.Machine
end

