-- ==== Sys2Proof/Machine/Admit.lean ====
section
/-! DEFINITION. The commands of the admission gate and the delivery bounds (chapter 08). -/

namespace Sys2Proof.Machine

/-! ### The gate -/

/-- REQUEST_ADMIT (R369 to R379): the sluice evaluates the head of queue q of a port, or of an engine at 1,024 and above. -/
def execRequestAdmit (p q : Nat) (s₀ : State) : Host.Outcome State Fault Refusal := finish s₀ ((beginStep s₀).gate (ingressKey p q) false)

/-- CALENDAR_ADVANCE (R372): 80 ns pass, every calendar advances by one bucket, and NP_HELD of a port whose non-posted head is held follows. -/
def execCalendarAdvance (s₀ : State) : Host.Outcome State Fault Refusal :=
  let s := beginStep s₀
  let s := s.waitUntil (s.now + 80 * ticksPerNs)
  let older (w : Waiting) : Waiting := { w with books := w.books.map fun b => { b with bucket := b.bucket - 1 } }
  let s := { s with waiting := s.waiting.map older
                    links := s.links.map fun (x : Nat × LinkSession) =>
                      (x.1, { x.2 with txEnds := x.2.txEnds.map fun (m : Nat × Waiting) => (m.1, older m.2) }) }
  let s := s.allPorts.foldl (fun (s : State) p => if s.get (PORT_HOLD.NP_CAUSE p) = 0 then s else s.bump (PORT_HOLD.NP_HELD p)) s
  finish s₀ s.owedFar.evaluateHeld

/-- TRANSIT_LATE_ADMIT (R381): 38 µs unadmitted. -/
def execTransitLateAdmit (p q : Nat) (s₀ : State) : Host.Outcome State Fault Refusal :=
  let s := beginStep s₀
  finish s₀ (match s.ingressQ (ingressKey p q) with
    | x :: _ => if x.transit then (s.waitUntil (x.received + 38000 * ticksPerNs)).gate (ingressKey p q) true else s
    | [] => s)

/-- FLOW_CONTROL_UPDATE (R376): header and data credits of kind 0 posted, 1 non-posted, 2 completion come back from the link partner. -/
def execFlowControlUpdate (p kind header data : Nat) (s₀ : State) : Host.Outcome State Fault Refusal :=
  let s := beginStep s₀
  finish s₀ (if s.pcieUp p && decide (kind < 3) then
      ((s.portHeard p).returnAll [⟨portLedger p (2 + 2 * kind), header⟩, ⟨portLedger p (3 + 2 * kind), data⟩]).evaluateHeld
    else s)

/-! ### Surrogate answers (R392 to R395) -/

/-- SURROGATE_EXPIRY (R392, R393, R352): S has passed since receipt. -/
def execSurrogateExpiry (p id : Nat) (s₀ : State) : Host.Outcome State Fault Refusal :=
  let s := beginStep s₀
  finish s₀ (match s.outstanding.find? fun o => o.id = id && o.port = p && !o.transit && !o.answered with
    | none => s
    | some o =>
      let s := s.waitUntil (o.received + s.surrogateBound)
      match s.lockWait.find? fun x => x.id = id with
      | some x => s.lockExpired x
      | none =>
        if o.prefetch then
          -- the Read's requester is the stream; its block is no longer awaited
          let s := ((s.setOutstanding { o with answered := true, stamp := none, endedAt := s.now }).endLive o.stamp).wasteSlots (portCluster p) 1
          State.issueWaiting { s with streams := s.streams.map fun x =>
              if x.window = o.window && x.requester = o.ctx then { x with inFlight := x.inFlight.filter (· ≠ o.addr) } else x } o.window o.ctx o.addr
        else
          let s : State := match (s.ingress.flatMap fun x => x.2.map fun q => (x.1, q)).find? fun y => y.2.requester = id with
            | some (k, q) => s.dequeue k q
            | none => s
          s.surrogateAnswer o (if o.admitted then 1 else 2))

/-- TAG_QUARANTINE_EXPIRY (R394, R425): 2 × S have passed since the surrogate answer or the reset. -/
def execTagQuarantineExpiry (p tag : Nat) (s₀ : State) : Host.Outcome State Fault Refusal :=
  let s := beginStep s₀
  finish s₀ (match s.outstanding.find? fun o => o.port = p && o.answered && o.pieces.any fun x => x.tag = tag && x.status.isNone with
    | none => s
    | some o =>
      let s := s.waitUntil (o.endedAt + 2 * s.surrogateBound)
      let o' := { o with pieces := answerPiece { tag := tag, status := stSurrogate } o.pieces }
      let s := s.returnTag o
      if o'.done then (s.returnAll o.holds).dropOutstanding o.id else s.setOutstanding o')

/-- PD_COMPLETION_TIMEOUT (R395): a request of this package on a PD link, or one that was answered in the device's place, has had no completion for 2 × S. One that
comes later is Unexpected. -/
def execPdCompletionTimeout (p tag : Nat) (s₀ : State) : Host.Outcome State Fault Refusal :=
  let s := beginStep s₀
  let own := fun (d : DeviceRequest) => match d.pkt with
    | some k => k.src / 1024 = s.rank
    | none => true
  finish s₀ (match s.device.find? fun d => d.port = p && d.tag = tag && !d.waitAck && (own d || d.answered) && !d.timedOut && d.engine.all s.itemRoom with
    | none => s
    | some d =>
      let s := (s.waitUntil (d.issued + 2 * s.surrogateBound)).logAer p aerTimeout none
      let s := { s with device := s.device.map fun x => if x = d then { x with timedOut := true } else x }
      match d.engine with
      | some te => s.pushItem te { kind := 5, port := s.fabricId p, ctx := d.ctx } .none
      | none => s)

/-- FAR_SURROGATE_EXPIRY (R395): the far package answers SURROGATE and records and counts it at the port that received the request (R470, Table 08-13). -/
def execFarSurrogateExpiry (p tag : Nat) (s₀ : State) : Host.Outcome State Fault Refusal :=
  let s := beginStep s₀
  finish s₀ (match s.device.find? fun d => d.port = p && d.tag = tag && !d.answered && (match d.pkt with | some k => k.src / 1024 ≠ s.rank | none => false) with
    | none => s
    | some d => match d.pkt with
      | none => s
      | some k =>
        let o := s.transitOf k
        let s := s.waitUntil ((match o with
          | some x => x.received
          | none => d.issued) + s.surrogateBound)
        let s := { s with device := s.device.map fun x => if x = d then { x with answered := true } else x }
        let s : State := match o with
          | some x => if x.answered then s else State.raise (((s.surrogateRecord x.port { x with ptype := k.ptype } 4 (s.fabricId p)).bump (PORT_SLUICE.SURROGATES x.port)).countPort x.port 0x17 1) (srcTxn x.port) 0
              { request := true, addr := k.addr, window := k.window, src := k.src, tag := k.tag, noWin := k.noWin, port := some x.port, foreign := k.src / 1024 ≠ s.rank }
          | none => s
        if k.ptype = 5 then s.lockRead p k stSurrogate [] false
        else if k.ptype = 9 then (match s.configOut p with
          | some j => s.endConfig p j stSurrogate []
          | none => s)
        else s.answerTo (portCluster p) k stSurrogate [] false)

/-! ### Bounds (R386 to R400, R578) -/

/-- A BOUNDS record (Table 08-5). -/
def boundsRecord (dest seq cls hops : Nat) (v : Option Nat) : Nat :=
  dest * 2 ^ 48 + seq % 256 * 2 ^ 40 + cls * 2 ^ 38 + min hops 7 * 2 ^ 35 + (match v with | some t => min t 0xFFFFFFFE | none => 0xFFFFFFFF)

/-- The ports of a rank that die d's route table reaches, as destinations. -/
def State.routedPorts (s : State) (d r : Nat) : List Nat :=
  ((List.range 256).map (1024 * r + ·)).filter fun x => let e := s.routeEntry d x; decide (e.1 ≠ 0xFFFF) || decide (e.2 ≠ 0xFFFF)

/-- V of a rank in a class as die d forms it: the longest over the rank's ports, with its BF links (R387). -/
def State.rankBound (s : State) (d : Nat) (dests : List Nat) (c : Nat) : Option (Nat × Nat) :=
  dests.foldl (fun m x => match s.routeBf d x with
    | some q => match s.hopTicks q c, s.beyond q x c with
      | some h, some (t, n) => (match m with
        | some y => if y.1 < h + t then some (h + t, n) else m
        | none => some (h + t, n))
      | _, _ => m
    | none => m) none

/-- The records announced on a BF port (R387). -/
def State.boundsRecords (s : State) (p : Nat) : List Nat :=
  let seq := s.get PKG_BOUND.BOUND_SEQ
  let d := portDie p
  s.allPorts.flatMap (fun q => (List.range 3).map fun c => boundsRecord (s.fabricId q) seq c 0 (s.hopTicks q c)) ++
    ((List.range 64).filter (· ≠ s.rank)).flatMap fun r =>
      let dests := s.routedPorts d r
      if dests.isEmpty then []
      else (List.range 3).map fun c =>
        let v := s.rankBound d dests c
        boundsRecord (1024 * r + 0x3FF) seq c (match v with | some x => x.2 | none => 0) (v.map (·.1))

/-- Parts of at most 32 records. -/
def partsOf : Nat → List Nat → List (List Nat)
  | 0, _ => []
  | n + 1, l => if l.isEmpty then [] else l.take 32 :: partsOf n (l.drop 32)

/-- The package announces its bounds on a BF port (R387, R578, Table 13-6). -/
def State.announceOn (s : State) (p : Nat) : State :=
  let parts := partsOf 64 (s.boundsRecords p)
  let dest := match (s.link p).partner with | some i => i.sender / 1024 * 1024 + 780 | none => 0
  let seq := s.get PKG_BOUND.BOUND_SEQ
  ((List.range parts.length).zip parts).foldl (fun (s : State) x =>
    let k : Packet :=
      { ptype := 0xA, vc := 3, cls := 0, dest := dest, src := s.fabricId 780, sub := 3, noWin := true, len := 8 * x.2.length
        addr := seq * 2 ^ 32 + x.1 * 2 ^ 16 + parts.length, deadline := s.now % 2 ^ 48, payload := x.2.flatMap (beBytes 8) }
    { s with waiting := s.waiting ++ [{ point := pointPort p, pkt := k, deadline := k.deadline, ingress := 780 }] }) s

/-- BOUNDS_ANNOUNCE (R387): SETTLE of a lengthening runs from here (R399). -/
def execBoundsAnnounce (s₀ : State) : Host.Outcome State Fault Refusal :=
  let s := beginStep s₀
  finish s₀ (if s.announceDue then
      let s := (s.bfPorts.filter s.bfUp).foldl (fun (s : State) p => s.announceOn p) s
      let s := { s with announceDue := false }
      if s.flag PKG_BOUND.SETTLING && s.modes.settleAt = 0
      then { s with modes := { s.modes with settleAt := s.now + 1000 * ticksPerNs * s.get PKG_BOUND.SETTLE } } else s
    else s)

/-- The records of a complete set take the place of what the neighbour announced before (R387, R578), and the half of each path bound is checked (R389). -/
def State.applyBounds (s : State) (p : Nat) (recs : List Nat) : State :=
  let was := s.bounds
  let keep := s.bounds.filter fun b => decide (b.1 / 65536 % 1024 ≠ p) || decide (b.1 / 65536 / 1024 = 3)
  let t := recs.foldl (fun t r =>
    let c := fieldOf r 38 2
    if c = 3 then t
    else tabPut (fun _ => 0) t (boundKey p (fieldOf r 48 16) c) (1 + fieldOf r 0 32 + fieldOf r 35 3 * 2 ^ 32)) keep
  let t := tabPut (fun _ => 0) t (boundKey p 0 3) 1
  let s := { s with bounds := t }
  let s := if s.halfTooLong p then s.raise (srcPkg 5) 1 else s
  if was = t then s else s.republish 9 true

/-- BOUNDS_RECEIVE (R578, R387, R389). -/
def execBoundsReceive (p : Nat) (pkt : Packet) (s₀ : State) : Host.Outcome State Fault Refusal :=
  let s := beginStep s₀
  let seq := fieldOf pkt.addr 32 16
  let part := fieldOf pkt.addr 16 16
  let count := fieldOf pkt.addr 0 16
  finish s₀ (if !s.bfUp p || pkt.ptype ≠ 0xA || pkt.sub % 128 ≠ 3 || count ≤ part || pkt.len % 8 ≠ 0 || pkt.len < 8 || 256 < pkt.len then s
    else
      let x := tabGet (fun _ => {}) s.boundsSets p
      let d := (seq + 65536 - x.seq) % 65536
      let x : BoundsSet := if x.parts.isEmpty || (decide (0 < d) && decide (d < 32768)) then { seq := seq, count := count } else x
      if x.seq ≠ seq || x.count ≠ count then s
      else
        let x := { x with parts := (x.parts.filter fun y => y.1 ≠ part) ++ [(part, pkt.payload)] }
        let all := (List.range count).map fun i => x.parts.find? fun y => y.1 = i
        if all.all Option.isSome then
          let bytes := all.flatMap fun y => match y with | some z => z.2 | none => []
          let recs := (List.range (bytes.length / 8)).map fun i => beNat ((bytes.drop (8 * i)).take 8)
          State.applyBounds { s with boundsSets := tabPut (fun _ => {}) s.boundsSets p {} } p recs
        else { s with boundsSets := tabPut (fun _ => {}) s.boundsSets p x })

/-- Every calendar span of a port holds no more than its booked capacity (R397). -/
def State.calendarFits (s : State) (p : Nat) : Bool :=
  (List.range 512).all fun j => decide (s.booked p j false ≤ (j + 1) * s.bucketBytes p)

/-- CBOOK_LOWER_APPLY (R397): the port narrows through L0p once its calendar fits. -/
def execCbookLowerApply (p : Nat) (s₀ : State) : Host.Outcome State Fault Refusal :=
  let s := beginStep s₀
  let width := s.bookedWidth p
  finish s₀ (if (s.planned.any fun x => match x with | .narrow q _ => q = p | _ => false) && s.calendarFits p then
      State.set { s with planned := s.planned.filter fun x => match x with | .narrow q _ => q ≠ p | _ => true } (PORT_PCIE.ACTIVE_WIDTH p) width
    else s)

/-- SETTLE_EXPIRY (R399): the lengthenings take effect at the egress. -/
def execSettleExpiry (s₀ : State) : Host.Outcome State Fault Refusal :=
  let s := beginStep s₀
  finish s₀ (if s.flag PKG_BOUND.SETTLING && s.modes.settleAt ≠ 0 then
      let s := (s.waitUntil s.modes.settleAt).setFlag PKG_BOUND.SETTLING false
      { s with planned := s.planned.filter (fun x => match x with | .narrow _ _ => true | _ => false), modes := { s.modes with settleAt := 0 } }
    else s)

end Sys2Proof.Machine
end

