-- ==== Sys2Proof/Machine/Image.lean ====
section
/-! DEFINITION. The structure bit-stream (chapter 02): header, directory and sections of an image (R75 to R79), its installation as the
running structure, and the validation of Table 02-7 with the ranges of the section chapters. -/

namespace Sys2Proof.Machine

/-! ### Header and directory (Tables 02-1, 02-2) -/

/-- The n-byte field at offset o of an image (R75). -/
def imgNat (b : List Byte) (o n : Nat) : Nat := leNat ((b.drop o).take n)

/-- A directory entry (Table 02-2). -/
structure DirEntry where
  type : Nat
  scope : Nat
  index : Nat
  offset : Nat
  size : Nat
  crc : Nat
  deriving DecidableEq, Repr

/-- DIR_COUNT. -/
def imgCount (b : List Byte) : Nat := imgNat b 20 2
/-- LENGTH. -/
def imgLength (b : List Byte) : Nat := imgNat b 12 4
/-- SEQ. -/
def imgSeq (b : List Byte) : Nat := imgNat b 16 4
/-- DIGEST. -/
def imgDigest (b : List Byte) : List Byte := (b.drop 32).take 48

/-- Entry i of the directory. -/
def dirEntry (b : List Byte) (i : Nat) : DirEntry :=
  let a := 256 + 16 * i
  { type := imgNat b a 1, scope := imgNat b (a + 1) 1, index := imgNat b (a + 2) 2, offset := imgNat b (a + 4) 4
    size := imgNat b (a + 8) 4, crc := imgNat b (a + 12) 4 }

/-- The directory of an image. -/
def imgDir (b : List Byte) : List DirEntry := (List.range (imgCount b)).map (dirEntry b)

/-- The bytes of a section. -/
def DirEntry.bytes (e : DirEntry) (b : List Byte) : List Byte := (b.drop e.offset).take e.size

/-- SHA-384 of an image with the DIGEST field zero (R76). -/
def imageHash (b : List Byte) : List Byte := sha384 (b.take 32 ++ List.replicate 48 0 ++ b.drop 80)

/-- The greatest size of a section type (Table 02-3); 0 for a type that does not exist. -/
def maxSize (t : Nat) : Nat :=
  match t with
  | 1 => 4096 | 2 => 4096 | 3 => 32768 | 4 => 393216 | 5 => 65536 | 6 => 524288 | 7 => 262144 | 8 => 16384 | 9 => 16384
  | 10 => 262144 | 11 => 16384 | 12 => 4096 | 15 => 65536 | _ => 0

/-- The scopes that a section type has (Table 02-3). -/
def scopesOf (t : Nat) : List Nat :=
  if t = 0 then [] else if t = 5 then [1, 2] else if t ≤ 4 then [1] else if t ≤ 8 then [2] else if t ≤ 12 || t = 15 then [3] else []

/-- The section types of a region image (R79). -/
def regionTypes : List Nat := [1, 2, 3, 4, 5]

/-- The instances of a scope. -/
def State.scopeCount (s : State) (scope : Nat) : Nat := if scope = 1 then s.numClusters else if scope = 2 then s.numDies else 1

/-- The clusters of a region. -/
def regionClusters (g : Nat) : List Nat := (List.range 4).map (4 * g + ·)

/-- The sections that an image must carry (R78, R79): type, scope and index. -/
def State.neededSections (s : State) (region : Option Nat) : List (Nat × Nat × Nat) :=
  match region with
  | some g => regionTypes.flatMap fun t => (regionClusters g).map fun c => (t, 1, c)
  | none => (List.range 13).flatMap fun t => (scopesOf t).flatMap fun sc => (List.range (s.scopeCount sc)).map fun i => (t, sc, i)

/-! ### Installing sections -/

/-- The bytes of a section take the place of what the running structure held there. -/
def installSection (t : Tab Byte) (key : Nat) (b : List Byte) : Tab Byte :=
  putBytes (t.filter fun x => decide (x.1 / 1048576 ≠ key / 1048576)) key b

/-- Every section of an image takes its place; IDENT builds nothing. -/
def installImage (t : Tab Byte) (b : List Byte) : Tab Byte :=
  (imgDir b).foldl (fun (t : Tab Byte) e => if e.type = 15 then t else installSection t (secKey e.type e.scope e.index) (e.bytes b)) t

/-- The state as it would run an image: a full image replaces everything, a region image its sections. -/
def State.withImage (s : State) (b : List Byte) (region : Option Nat) : State :=
  { s with cfg := installImage (if region.isSome then s.cfg else []) b }

/-! ### Checks 1 to 6 -/

/-- A refusal: code and REFUSE_ENTRY. -/
abbrev Refuse := Nat × Nat

/-- The first of a list that is bad refuses. -/
def firstBad {α : Type} (l : List α) (code : Nat) (entry : α → Nat) (bad : α → Bool) : Option Refuse :=
  (l.find? bad).map fun x => (code, entry x)

/-- A condition of the header. -/
def needHeader (ok : Bool) (code : Nat) : Option Refuse := if ok then none else some (code, 0xFFFF)

/-- All bytes are zero. -/
def allZero (b : List Byte) : Bool := b.all (· == 0)

/-- Two sections overlap. -/
def DirEntry.overlaps (a b : DirEntry) : Bool := decide (a.offset < b.offset + b.size) && decide (b.offset < a.offset + a.size)

/-- Check 1 (R76). -/
def check1 (b : List Byte) : Option Refuse :=
  needHeader (imgNat b 0 4 = 0x53425331 && imgNat b 4 2 = 1 && allZero ((b.drop 22).take 10) && allZero ((b.drop 112).take 144)) 1

/-- Check 2 (R76, R692). -/
def State.check2 (s : State) (b : List Byte) (region : Option Nat) : Option Refuse :=
  needHeader (imgNat b 6 1 = (if s.chip.fb512 then 1 else 2) && match region with
    | none => imgNat b 7 1 = 1 && imgNat b 10 2 = 2 ^ s.numRegions - 1
    | some g => imgNat b 7 1 = 2 && imgNat b 10 2 = 2 ^ g && decide (g < s.numRegions)) 2

/-- Check 3: the stepping is not below MIN_STEP (Table 02-1). -/
def State.check3 (s : State) (b : List Byte) : Option Refuse :=
  needHeader (decide (imgNat b 8 2 ≤ 256 * s.chip.letter + s.chip.digit)) 3

/-- A directory entry meets R77 to R79 among the entries before it. -/
def State.entryOk (s : State) (b : List Byte) (region : Option Nat) (i : Nat) : Bool :=
  let e := dirEntry b i
  let before := (List.range i).map (dirEntry b)
  (scopesOf e.type).contains e.scope && decide (e.index < s.scopeCount e.scope) && decide (e.size ≤ maxSize e.type) &&
    e.offset % 4096 = 0 && decide (256 + 16 * imgCount b ≤ e.offset) && decide (e.offset + e.size ≤ imgLength b) &&
    !(before.any fun x => x.overlaps e || (x.type = e.type && x.scope = e.scope && x.index = e.index)) &&
    (e.type = 15 || match region with
      | some g => regionTypes.contains e.type && e.scope = 1 && e.index / 4 = g
      | none => true)

/-- Check 4: length, directory and the set of sections (R77 to R79, R693). -/
def State.check4 (s : State) (b : List Byte) (region : Option Nat) : Option Refuse :=
  let n := imgCount b
  needHeader (decide (1 ≤ n) && decide (n ≤ 1024) && decide (256 + 16 * n ≤ imgLength b) && decide (imgLength b ≤ b.length)) 4 <|>
  firstBad (List.range n) 4 id (fun i => !s.entryOk b region i) <|>
  needHeader ((s.neededSections region).all fun x => (imgDir b).any fun e => e.type = x.1 && e.scope = x.2.1 && e.index = x.2.2) 4

/-- Check 5: every section CRC. -/
def check5 (b : List Byte) : Option Refuse :=
  firstBad (List.range (imgCount b)) 5 id fun i => crc32c ((dirEntry b i).bytes b) ≠ (dirEntry b i).crc

/-- Check 6: DIGEST. A region image formed from a Valid slot passes (R94). -/
def check6 (b : List Byte) (formed : Bool) : Option Refuse := needHeader (formed || imageHash b = imgDigest b) 6

/-! ### Checks 7 to 12, over the structure that the image would give -/

/-- Where the directory lists a section. -/
def entryOf (dir : List DirEntry) (t scope i : Nat) : Nat :=
  (dir.findIdx? fun e => e.type = t && e.scope = scope && e.index = i).getD 0xFFFF

/-- The rate families of a cluster's lanes: 1 Burek, 2 PCI Express. -/
def State.families (t : State) (c : Nat) : List Nat :=
  ((clusterLanes c).filterMap fun l =>
    let r := t.laneRec l 0 1
    if r = 1 then some 1 else if r = 2 || r = 3 then some 2 else none).eraseDups

/-- A valid port record stands in a slot. -/
def State.hasRecord (t : State) (p : Nat) : Bool := t.portRec p 0 1 = 1

/-- Check 7: R23 to R25. -/
def State.check7 (t : State) (dir : List DirEntry) (cs : List Nat) : Option Refuse :=
  firstBad cs 7 (entryOf dir 1 1) (fun c => decide (1 < (t.families c).length)) <|>
  firstBad cs 7 (entryOf dir 2 1) (fun c => c % 2 = 0 && t.hasRecord (4 * c) && t.portRec (4 * c) 2 1 = 4 &&
    decide (1 < (t.families c ++ t.families (c + 1)).eraseDups.length))

/-- The lanes-within-cluster of a record, as a mask. -/
def State.laneMask (t : State) (p : Nat) : Nat := 2 ^ t.portRec p 3 1 * (2 ^ 2 ^ t.portRec p 2 1 - 1)

/-- The records of a cluster meet R26 to R30 (R33). Widths outside Table 01-7 are for check 13. -/
def State.placed (t : State) (c : Nat) : Bool :=
  let here := ((List.range 4).map (4 * c + ·)).filter fun p => t.hasRecord p && decide (t.portRec p 2 1 ≤ 4)
  let ok := fun (p : Nat) =>
    if t.portRec p 2 1 = 4 then p % 4 = 0 && c % 2 = 0 && t.portRec p 3 1 = 0 && here.length = 1 &&
      !(((List.range 4).map (4 * (c + 1) + ·)).any t.hasRecord)
    else t.portRec p 3 1 % 2 ^ t.portRec p 2 1 = 0 && decide (t.portRec p 3 1 + 2 ^ t.portRec p 2 1 ≤ 8)
  here.all ok && here.all fun p => here.all fun q => p = q || t.laneMask p &&& t.laneMask q = 0

/-- Check 8. -/
def State.check8 (t : State) (dir : List DirEntry) (cs : List Nat) : Option Refuse :=
  firstBad cs 8 (entryOf dir 2 1) fun c => !t.placed c

/-- The lane-role ceiling in force permits a role in a region (R105). -/
def roleAllowed (ceiling g role : Nat) : Bool :=
  match ceiling / 4 ^ g % 4 with
  | 0 => true
  | 1 => role = 2 || role = 3
  | 2 => role = 1
  | _ => false

/-- Check 9. -/
def State.check9 (t : State) (dir : List DirEntry) (cs : List Nat) : Option Refuse :=
  firstBad cs 9 (entryOf dir 1 1) fun c => (clusterLanes c).any fun l => t.laneRec l 0 1 ≠ 0 && !roleAllowed t.sealed.ceiling (c / 4) (t.laneRec l 0 1)

/-- The replay flits that the BF records of a cluster ask for, and what it may have (R38, R68). -/
def State.replayFits (t : State) (c : Nat) : Bool :=
  let bf := ((List.range 4).map (4 * c + ·)).filter t.isBf
  decide (bf.foldl (fun n p => n + t.portRec p 8 2) 0 ≤ (if bf.any t.isX16 then 6552 else 3276))

/-- The basin of a die is not overbooked (R412). -/
def State.basinFits (t : State) (d : Nat) : Bool :=
  decide ((List.range 16).foldl (fun n i => n + t.sec (basinSec d) (16 + 8 * i) 4) 0 + (if t.sec (basinSec d) 0 1 = 1 then 4096 else 0) ≤ 32768)

/-- Check 10. -/
def State.check10 (t : State) (dir : List DirEntry) (cs : List Nat) (full : Bool) : Option Refuse :=
  let part := entryOf dir 10 3 0
  let size := (dir.getD part { type := 0, scope := 0, index := 0, offset := 0, size := 0, crc := 0 }).size
  let np := t.sec partSec 0 4
  (if full && (decide ((if t.chip.fb512 then 128 else 64) < np) || decide (size < 16 + 16 * np + 32 * t.sec partSec 4 4)) then some (0x0A, part) else none) <|>
  firstBad cs 0x0A (entryOf dir 2 1) (fun c => !t.replayFits c) <|>
  (if full then firstBad (List.range t.numDies) 0x0A (entryOf dir 8 2) (fun d => !t.basinFits d) else none)

/-- IMM14 as a signed number. -/
def signed14 (n : Nat) : Int := if n < 8192 then n else (n : Int) - 16384

/-- A program word decodes by R71: its OP exists, its unused fields are zero and its immediate value is defined. -/
def wordDecodes (w : Nat) : Bool :=
  let op := w / 2 ^ 26
  let d := w / 2 ^ 22 % 16
  let a := w / 2 ^ 18 % 16
  let b := w / 2 ^ 14 % 16
  let imm := w % 2 ^ 14
  if op = 0 then w = 0
  else if op = 1 || op = 2 then w / 2 ^ 18 % 16 = 0
  else if op ≤ 9 then imm = 0
  else if op = 0x0A || op = 0x0B then b = 0
  else if op = 0x0C || op = 0x0D then b = 0 && decide (imm < 64)
  else if op = 0x0E then b = 0 && decide (1 ≤ imm) && decide (imm ≤ 3)
  else if 0x10 ≤ op && op ≤ 0x17 then b = 0
  else if 0x18 ≤ op && op ≤ 0x1B then d = 0
  else if op = 0x1C || op = 0x1D then d = 0 && a = 0 && decide (w % 2 ^ 18 < 4096)
  else if op = 0x1E || op = 0x20 || op = 0x21 || op = 0x24 then d = 0 && b = 0 && imm = 0
  else if op = 0x22 then d = 0 && imm = 0
  else if op = 0x23 then a = 0 && b = 0 && imm = 0
  else if op = 0x25 then decide (imm ≤ 2)
  else if op = 0x26 then w % 2 ^ 26 = 0
  else false

/-- A program word is valid at its place: it decodes and branches within the memory (R74). -/
def wordValid (k w : Nat) : Bool :=
  wordDecodes w && (!(decide (0x18 ≤ w / 2 ^ 26) && decide (w / 2 ^ 26 ≤ 0x1B)) ||
    (decide (0 ≤ (k : Int) + signed14 (w % 2 ^ 14)) && decide ((k : Int) + signed14 (w % 2 ^ 14) < 4096)))

/-- The eight blocks of an ENGINE section meet R74. -/
def State.engineOk (t : State) (c : Nat) : Bool :=
  (List.range 8).all fun e =>
    let base := 49152 * e
    (List.range 4096).all (fun k => wordValid k (t.sec (engineSec c) (base + 4 * k) 4)) &&
      allZero (bytesAt t.cfg (engineSec c + base + 16384 + 0x7C00) 0x400)

/-- Check 11. -/
def State.check11 (t : State) (dir : List DirEntry) (cs : List Nat) : Option Refuse :=
  firstBad cs 0x0B (entryOf dir 4 1) fun c => !((dir.find? fun e => e.type = 4 && e.index = c).any fun e => e.size = 393216) || !t.engineOk c

/-- The SEAL requests of a full image (R113): setting and new value. -/
def State.sealAsked (t : State) : List (Nat × Nat) :=
  (List.range (t.sec sealSec 0 1)).map fun i => (t.sec sealSec (16 + 16 * i) 1, t.sec sealSec (24 + 16 * i) 8)

/-- Check 12. -/
def State.check12 (t : State) (dir : List DirEntry) : Option Refuse :=
  if t.sealAsked.any fun x => x.1 = 5 && x.2 % 4 = 0 then some (0x0C, entryOf dir 12 3 0) else none

/-! ### Check 13: the ranges of the section chapters -/

/-- Bytes o to o + n of a section are zero. -/
def State.zero (t : State) (key o n : Nat) : Bool := allZero (bytesAt t.cfg (key + o) n)

/-- The rest of a section from byte o is zero. -/
def State.restZero (t : State) (key o : Nat) : Bool := t.cfg.all fun x => !(decide (key + o ≤ x.1) && decide (x.1 < key + 1048576))

/-- A number lies in a range. -/
def within (lo x hi : Nat) : Bool := decide (lo ≤ x) && decide (x ≤ hi)

/-- A LANE section (R141, Table 03-9). -/
def State.laneSecOk (t : State) (c : Nat) : Bool :=
  t.restZero (laneSec c) 256 && (clusterLanes c).all fun l =>
    let role := t.laneRec l 0 1
    decide (role ≤ 3) && t.zero (laneSec c) (32 * (l % 8) + 9) 23 && within 1 (t.laneRec l 4 1) 255 && within 6 (t.laneRec l 5 1) 9 &&
      within 100 (t.laneRec l 6 2) 60000 && decide (t.laneRec l 8 1 < 16) &&
      (if role = 1 then t.laneRec l 1 1 = 0 && decide (t.laneRec l 2 1 ≤ 7)
       else if role = 0 then true else within 1 (t.laneRec l 1 1) 7 && t.laneRec l 2 1 = 0xFF)

/-- A valid port record (Tables 01-7 and 05-3, R177, R220, R222). -/
def State.portRecOk (t : State) (p : Nat) : Bool :=
  let r := t.portRec p
  let c := p / 4
  let base := 256 * (p % 4)
  let role := r 1 1
  let lanes := (List.range (2 ^ r 2 1)).map (8 * c + r 3 1 + ·)
  within 1 role 3 && decide (r 2 1 ≤ 4) && decide (r 3 1 ≤ 7) && lanes.all (fun l => t.laneRec l 0 1 = role) &&
    t.zero (portSec c) (base + 10) 6 && t.zero (portSec c) (base + 40) 24 && t.zero (portSec c) (base + 96) 160 &&
    decide (r 4 1 < (if role = 3 then 4 else 2)) && (role = 3 || r 4 1 < 2) &&
    (if role = 1 then
      within 1 (r 5 1) (2 ^ r 2 1) && r 6 2 = 0 && t.zero (portSec c) (base + 64) 32 &&
        (List.range 12).all fun i => r (16 + 2 * i) 2 = 0 || decide ((if i < 9 then 130 else 9) ≤ r (16 + 2 * i) 2)
     else
      r 5 1 = 0 && r 8 2 = 0 && t.zero (portSec c) (base + 16) 24 && t.zero (portSec c) (base + 72) 24 &&
        (r 6 2 = 0 || (role = 3 && within 4 (r 6 2) 1000)) && decide (r 64 1 ≤ 2) && decide (r 65 1 ≤ 1) && decide (r 66 1 ≤ 3) &&
        decide (r 67 1 ≤ 1) && decide (r 68 2 ≤ 60000) && (role = 3 || (r 67 1 = 0 && r 68 2 = 0)) && decide (r 70 1 ≤ 2) && decide (r 71 1 ≤ 5) &&
        decide ((lanes.map fun l => t.laneRec l 1 1).eraseDups.length ≤ 1) &&
        !(r 64 1 = 2 && t.modes.bootStraps.refSel.testBit (c / 8)))

/-- A PORT section (R67). -/
def State.portSecOk (t : State) (c : Nat) : Bool :=
  t.restZero (portSec c) 1024 && ((List.range 4).map (4 * c + ·)).all fun p =>
    if t.portRec p 0 1 = 0 then t.zero (portSec c) (256 * (p % 4)) 256 else t.portRec p 0 1 = 1 && t.portRecOk p

/-- The partition records that define a partition. -/
def State.partitionRec (t : State) (n : Nat) : Option PartRec := t.partRecs.find? fun r => r.partition = n

/-- A window entry (R262 to R264). -/
def State.windowOk (t : State) (c w : Nat) : Bool :=
  let key := winSec c
  let base := t.sec key (32 * w) 8
  let limit := t.sec key (32 * w + 8) 8
  let remote := t.sec key (32 * w + 16) 8
  let x : Window := { n := 1024 * c + w, base := base, limit := limit, remote := remote, attr := BitVec.ofNat 64 (t.sec key (32 * w + 24) 8) }
  let escalate := getBits x.attr 26 4
  let rule := getBits x.attr 24 2
  if !x.attr.getLsbD 63 then t.zero key (32 * w) 32
  else
    base % 4096 = 0 && limit % 4096 = 0 && remote % 4096 = 0 && decide (base ≤ limit) && decide (remote + (limit - base) + 0xFFF < 2 ^ 64) &&
    decide (x.kind ≤ 4) && decide (x.cls ≤ 2) && !x.attr.getLsbD 0 &&
    !(x.native && (within 1 x.kind 3 || x.follow)) &&
    !(x.kind = 1 && (x.acknowledged || rule ≠ 0 || x.lockOk)) &&
    !((x.kind = 1 || x.kind = 4 || (x.kind = 0 && !x.sef)) && x.depth ≠ 0) &&
    !(escalate ≠ 0 && (x.acknowledged || x.kind ≠ 0)) &&
    !(x.kind = 2 && decide (2 ^ (16 + x.depth + 2) < limit - base + 4096)) &&
    (x.native || (t.partitionRec x.partition).isSome) &&
    !(x.follow && (t.partitionRec x.partition).any fun r => r.resMode = 1) &&
    !(getBits x.attr 1 3 = 7 && decide (1 < getBits x.attr 4 8)) &&
    (x.kind ≠ 4 || (within 256 (x.target % 1024) 767 && t.endpointExists (x.target % 1024)))

/-- A WIN section. -/
def State.winSecOk (t : State) (c : Nat) : Bool := (List.range 1024).all fun w => t.windowOk c w

/-- An EVENT section of n records (R456, Table 10-7). -/
def State.eventSecOk (t : State) (key n : Nat) : Bool :=
  t.restZero key (16 * n) && (List.range n).all fun i =>
    decide (t.sec key (16 * i) 1 < 128) && decide (t.sec key (16 * i + 1) 1 < 32) && t.zero key (16 * i + 6) 10

/-- A TOLL section (R483, R484). -/
def State.tollSecOk (t : State) (d : Nat) : Bool :=
  (List.range 16384).all fun i =>
    let e := tollEntry (BitVec.ofNat 64 (t.sec (tollSec d) (32 * i) 8)) (BitVec.ofNat 64 (t.sec (tollSec d) (32 * i + 8) 8))
      (BitVec.ofNat 64 (t.sec (tollSec d) (32 * i + 16) 8)) (BitVec.ofNat 64 (t.sec (tollSec d) (32 * i + 24) 8))
    if e.valid then e.inRange else t.zero (tollSec d) (32 * i) 32

/-- A ROUTE section (R360, Table 07-8). -/
def State.routeSecOk (t : State) (d : Nat) : Bool :=
  (List.range 65536).all fun id =>
    let (a, b) := t.routeEntry d id
    (a = 0xFFFF || t.isBf a) && (b = 0xFFFF || t.isBf b) && !(a ≠ 0xFFFF && a = b)

/-- A BASIN section (R412, R413). -/
def State.basinSecOk (t : State) (d : Nat) : Bool :=
  let key := basinSec d
  decide (t.sec key 0 1 ≤ 1) && t.zero key 1 15 && t.restZero key 144 && t.sec key (16 + 8 * 15) 4 = 0 &&
    (List.range 16).all fun i => t.sec key (16 + 8 * i) 4 % 64 = 0 && t.zero key (20 + 8 * i) 4

/-- The CLASS section (R401, Table 08-10). The record of a slot without a port has no share that out of range, and no DROP_COVER. -/
def State.classSecOk (t : State) : Bool :=
  decide (t.sec classSec 0 1 ≤ 0xC) && t.zero classSec 1 63 && t.restZero classSec (64 + 8 * t.numPorts) && (List.range t.numPorts).all fun p =>
    decide (t.transitShare p ≤ 48) && decide (t.cplShare p ≤ 48) && decide (t.transitShare p + t.cplShare p ≤ 56) &&
      decide (t.sec classSec (64 + 8 * p + 2) 1 ≤ (if t.isBf p then 1 else 0)) && t.zero classSec (64 + 8 * p + 3) 5

/-- Two bindings name a function in common (R241). -/
def BindRec.shares (a b : BindRec) : Bool :=
  a.target = b.target &&
    ((a.kind = 2 && b.kind = 2 && a.pf = b.pf) ||
     (a.kind = 3 && b.kind = 3 && a.pf = b.pf && decide (a.vfFirst < b.vfFirst + b.vfCount) && decide (b.vfFirst < a.vfFirst + a.vfCount)))

/-- The PART section (R240, R241). -/
def State.partSecOk (t : State) : Bool :=
  let parts := t.partRecs
  let binds := (List.range t.bindRecs.length).zip t.bindRecs
  let start := 16 + 16 * parts.length
  t.zero partSec 8 8 && t.restZero partSec (start + 32 * binds.length) &&
    ((List.range parts.length).zip parts).all (fun x => decide (x.2.partition ≤ 1023) && decide (x.2.resMode ≤ 1) && t.isPu x.2.puPort && t.zero partSec (16 + 16 * x.1 + 5) 11) &&
    decide ((parts.map (·.partition)).eraseDups.length = parts.length) && decide ((parts.map (·.puPort)).eraseDups.length = parts.length) &&
    binds.all (fun x =>
      let b := x.2
      decide (b.partition ≤ 1023) && decide (b.vdsp ≤ 31) && within 1 b.kind 3 && decide (b.flags ≤ 1) && t.zero partSec (start + 32 * x.1 + 14) 18 &&
        (b.kind ≠ 3 || (decide (1 ≤ b.vfFirst) && decide (1 ≤ b.vfCount))) &&
        binds.all (fun y =>
          let o := y.2
          x.1 = y.1 || (!(b.shares o && b.partition ≠ o.partition) && !(b.target = o.target && b.kind = 1) &&
            !(b.partition = o.partition && b.vdsp = o.vdsp && b.target ≠ o.target))) &&
        decide (((t.bindRecs.filter fun o => o.target = b.target).map (·.partition)).eraseDups.length ≤ 64))

/-- The POWER section (R613, R614). -/
def State.powerSecOk (t : State) : Bool :=
  let r := t.sec powerSec
  within 100 (r 0 2) (if t.chip.fb512 then 720 else 350) && within 70 (r 2 1) 100 && within 75 (r 3 1) 100 && decide (r 2 1 ≤ r 3 1) &&
    within 100 (r 4 1) 110 && decide (r 3 1 < r 4 1) && within 8 (r 5 1) 56 && t.zero powerSec 6 58 && t.restZero powerSec (64 + 16 * t.numPorts) &&
    t.allPorts.all fun p =>
      let o := 64 + 16 * p
      decide (r o 1 ≤ 3) && r (o + 1) 1 = 0 && within 1 (r (o + 2) 2) 10000 && t.zero powerSec (o + 6) 10 &&
        (if t.isBf p then r (o + 4) 1 = 0 && r (o + 5) 1 = 0 && (!within 1 (r o 1) 2 || (t.portLanes p).all fun l => (t.laneRec l 8 1).testBit 0)
         else (r o 1 = 0 || r o 1 = 3) && decide (r (o + 4) 1 ≤ t.portWidth p) && decide (r (o + 5) 1 ≤ 1) &&
          (r (o + 5) 1 = 0 || (t.portRec p 66 1).testBit 1) && (r (o + 4) 1 = 0 || (t.portRec p 66 1).testBit 0))

/-- Bits of a sealed setting (Table 02-12). -/
def sealWidth (id : Nat) : Nat := if id = 1 || id = 4 then 32 else if id = 2 then 6 else if id = 3 then 8 else 2

/-- The SEAL section (R113). -/
def State.sealSecOk (t : State) : Bool :=
  let asked := t.sealAsked
  decide (asked.length ≤ 5) && t.zero sealSec 1 15 && t.restZero sealSec (16 + 16 * asked.length) &&
    asked.all (fun x => within 1 x.1 5 && decide (x.2 < 2 ^ sealWidth x.1)) &&
    (List.range asked.length).all (fun i => t.zero sealSec (17 + 16 * i) 7) && decide ((asked.map (·.1)).eraseDups.length = asked.length)

/-- The least size of a section: its fixed records, and the counted ones of a SEAL section (log entry 30). -/
def State.minSize (t : State) (e : DirEntry) : Nat :=
  match e.type with
  | 1 => 256 | 2 => 1024 | 3 => 32768 | 5 => if e.scope = 1 then 1024 else 2816
  | 6 => 524288 | 7 => 262144 | 8 => 144 | 9 => 64 + 8 * t.numPorts | 10 => 16 | 11 => 64 + 16 * t.numPorts | 12 => 16 + 16 * t.sec sealSec 0 1 | _ => 0

/-- The values of a section lie in their ranges. -/
def State.sectionOk (t : State) (e : DirEntry) : Bool :=
  decide (t.minSize e ≤ e.size) && match e.type with
  | 1 => t.laneSecOk e.index
  | 2 => t.portSecOk e.index
  | 3 => t.winSecOk e.index
  | 5 => if e.scope = 1 then t.eventSecOk (eventSecCluster e.index) 64 else t.eventSecOk (eventSecDie e.index) 176
  | 6 => t.tollSecOk e.index
  | 7 => t.routeSecOk e.index
  | 8 => t.basinSecOk e.index
  | 9 => t.classSecOk
  | 10 => t.partSecOk
  | 11 => t.powerSecOk
  | 12 => t.sealSecOk
  | _ => true

/-- Check 13. -/
def State.check13 (t : State) (dir : List DirEntry) : Option Refuse :=
  firstBad ((List.range dir.length).zip dir) 0x10 (·.1) fun x => !t.sectionOk x.2

/-! ### Check 14 and the whole -/

/-- The ports that the ROUTE tables and the PART section name, with the personality they need. -/
def State.namedPorts (t : State) : List (Nat × Nat) :=
  let routes := (List.range t.numDies).flatMap fun d => (List.range 65536).flatMap fun id =>
    [(t.routeEntry d id).1, (t.routeEntry d id).2].filterMap fun p => if p = 0xFFFF then none else some (p, 1)
  let hosts := t.partRecs.map fun r => (r.puPort, 2)
  let targets := t.bindRecs.filterMap fun b => if b.target / 1024 = t.rank then some (b.target % 1024, 3) else none
  routes ++ hosts ++ targets

/-- Check 14: what the rest of the structure names in the region is still there (R41). -/
def State.check14 (t : State) (dir : List DirEntry) (g : Nat) : Option Refuse :=
  firstBad t.namedPorts 0x0E (fun x => entryOf dir 2 1 (x.1 / 4)) fun x => x.1 / 16 = g && t.personality x.1 ≠ x.2

/-- Validation of an image (R92): the code and entry of the first check that fails, none when it passes. `formed` says that the image was formed
from a Valid slot (R94). -/
def State.validate (s : State) (b : List Byte) (region : Option Nat) (formed : Bool) : Option Refuse :=
  check1 b <|> s.check2 b region <|> s.check3 b <|> s.check4 b region <|>
  (let b := b.take (imgLength b)
   check5 b <|> check6 b formed <|>
   (let t := s.withImage b region
    let dir := imgDir b
    let cs := match region with
      | some g => regionClusters g
      | none => List.range s.numClusters
    t.check7 dir cs <|> t.check8 dir cs <|> t.check9 dir cs <|> t.check10 dir cs region.isNone <|> t.check11 dir cs <|>
      (if region.isNone then t.check12 dir else none) <|> t.check13 dir <|>
      (match region with
       | some g => t.check14 dir g
       | none => none)))

/-! ### The region image of a slot (R94) -/

/-- A section's place rounded up to 4,096. -/
def alignUp (n : Nat) : Nat := (n + 4095) / 4096 * 4096

/-- Lay sections one after another from an offset: directory bytes and section bytes with padding. -/
def layOut : List (DirEntry × List Byte) → Nat → List Byte × List Byte
  | [], _ => ([], [])
  | (e, b) :: rest, o =>
    let (dir, body) := layOut rest (alignUp (o + e.size))
    (leBytes 1 e.type ++ leBytes 1 e.scope ++ leBytes 2 e.index ++ leBytes 4 o ++ leBytes 4 e.size ++ leBytes 4 e.crc ++ dir,
     b ++ List.replicate (alignUp (o + e.size) - (o + e.size)) 0 ++ body)

/-- The region image that the lead forms from the full image of a slot. -/
def formRegion (b : List Byte) (g : Nat) : List Byte :=
  let secs := ((imgDir b).filter fun e => regionTypes.contains e.type && e.scope = 1 && e.index / 4 = g).map fun e => (e, e.bytes b)
  let start := alignUp (256 + 16 * secs.length)
  let (dir, body) := layOut secs start
  let head := b.take 7 ++ [2] ++ (b.drop 8).take 2 ++ leBytes 2 (2 ^ g) ++ leBytes 4 (start + body.length) ++ (b.drop 16).take 4 ++
    leBytes 2 secs.length ++ List.replicate 10 0 ++ List.replicate 48 0 ++ (b.drop 80).take 32 ++ List.replicate 144 0
  head ++ dir ++ List.replicate (start - 256 - 16 * secs.length) 0 ++ body

end Sys2Proof.Machine
end

