-- ==== Sys2Proof/Machine/Ledgers.lean ====
section
/-! DEFINITION. Conservation (chapter 09): the ledgers' totals at entry to M4 (R409), ledger breaches (R437, R438), die-to-die interfaces (R45 to
R49, R421, R429), and what CL_TALLY_SEL and DIE_TALLY_SEL latch (R439). -/

namespace Sys2Proof.Machine

/-! ### Totals (Tables 09-1 and 09-2) -/

/-- Ingress units of a port (R417, R35). -/
def State.ingressShare (s : State) (p : Nat) : Nat :=
  if s.isX16 p then 49152
  else
    let w := (((List.range 4).map (4 * (p / 4) + ·)).filter s.isPort).foldl (fun n q => n + s.portWidth q) 0
    if w = 0 then 0 else 24576 * s.portWidth p / w

/-- The TOTALs of a port's ledgers that do not come from its link. -/
def State.portTotals (s : State) (p : Nat) : State :=
  let s := (s.setTotal (portLedger p 0) (s.ingressShare p)).setTotal (portLedger p 1) (if s.isBf p then s.allotment p else 0)
  let s : State := if s.isBf p then (List.range 12).foldl (fun (s : State) i => s.setTotal (portLedger p (14 + i)) (s.ownLimit p i)) s else s
  let s := s.setTotal (portLedger p 26) 16384
  let s := (List.range 3).foldl (fun (s : State) c =>
    s.setTotal (portLedger p (28 + c)) (s.cplShare p * s.fullBucketBytes p * (classBound c - 32) / 512)) s
  s.setTotal (portLedger p 31) (512 * s.fullBucketBytes p)

/-- Every ledger starts anew at entry to M4 (R409). The ledgers of the upper cluster of an x16 port's pair stay at TOTAL 0 (R410). -/
def State.initLedgers (s : State) : State :=
  let s := { s with ledgers := s.ledgers.filterMap fun (x : Nat × Ledger) => if x.2.corrected = 0 then none else some (x.1, ({ corrected := x.2.corrected } : Ledger)) }
  let s := s.allPorts.foldl (fun (s : State) p => s.portTotals p) s
  let s := (List.range s.numClusters).foldl (fun (s : State) c => if (s.pairOf c).head? = some c then s.setTotal (clusterLedger c 128) 2048 else s) s
  (List.range s.numDies).foldl (fun (s : State) d =>
    let s := (List.range 15).foldl (fun (s : State) i => s.setTotal (dieLedger d i) (32 * s.sec (basinSec d) (16 + 8 * i) 4)) s
    (List.range (s.numDies - 1)).foldl (fun (s : State) x => (s.setTotal (dieLedger d (64 + x)) 81920000).setTotal (dieLedger d (67 + x)) 2048) s) s

/-! ### Breaches (R437, R438, Table 09-7) -/

/-- KIND of a breach: a word that cannot be read, or the first check of R406 that fails; none when the ledger is whole. -/
def breachKind (l : Ledger) (lost : Nat) : Option Nat :=
  if lost ≠ 0 then some 1
  else if l.issued ≠ l.out + l.returned then some 2
  else if l.total ≠ 0 && decide (l.total < l.out) then some 3
  else if l.returned < l.reclaimed then some 4 else none

/-- LEDGER_BREACH (R437, R438). Scopes 0 to 63 are clusters, 64 to 67 dies. -/
def execLedgerBreach (scope index lost : Nat) (injected : Bool) (s₀ : State) : Host.Outcome State Fault Refusal :=
  let s := beginStep s₀
  let l := s.ledger (scopeLedger scope index)
  finish s₀ (match breachKind l lost with
    | none => s
    | some k =>
      let cluster := decide (scope < 64)
      let record := breachBytes k (if cluster then 1 else 2) (if cluster then scope else scope - 64) index s.now injected l lost
      if injected then
        if s.mode = 10 then s.persist record
        else (s.bump (DIE_EVT_INJECT.REFUSED (if cluster then clusterDie scope else scope - 64))).raise (srcPkg 6) 0
      else if s.mode < 2 then s.persist record
      else (s.persist record).halt 0x1FFE)

/-! ### Die-to-die interfaces -/

/-- The two directions of an interface: a die and its number for it. -/
def d2dSides (x : Nat) : List (Nat × Nat) := let (a, b) := d2dEnds x; [(a, d2dIndex a b), (b, d2dIndex b a)]

/-- The crossings of interface x of die d are reset, and the packets that were in flight from the die are counted there (R428, R541). -/
def State.resetSide (s : State) (gone : List Waiting) (d x : Nat) : State :=
  let n := (gone.filter fun w => (inFlightOf w).any fun h => h.ledger = dieLedger d (67 + x)).length
  let s := s.countDiscards d n
  (s.resetCrossing (dieCrossing d x)).resetCrossing (dieCrossing d (3 + x))

/-- An interface fails (R48, R49, R429). The other pairs that it cuts off follow the pair it joins (log entry 52). -/
def State.d2dFail (s : State) (x : Nat) : State :=
  let (a, b) := d2dEnds x
  if !s.d2dUp a b then s
  else
    let s := (d2dSides x).foldl (fun (s : State) y => (s.raise (srcDie y.1 (3 + y.2)) 0).setLive (srcDie y.1 (3 + y.2)) 0 true) s
    let hit := fun (w : Waiting) => (d2dSides x).any fun y => w.point = pointD2d y.1 y.2 || (inFlightOf w).any fun h => h.ledger = dieLedger y.1 (67 + y.2)
    let gone := s.waiting.filter hit
    let s := { s with waiting := s.waiting.filter fun w => !hit w }
    let s := gone.foldl (fun (s : State) w => s.discardWaiting w) s
    let s := (d2dSides x).foldl (fun (s : State) y => s.resetSide gone y.1 y.2) s
    let s := (s.republish 6).reroute
    let s := if (s.diePath a b).isSome then s else s.fenceDie (s.cutLoser x)
    s.fenceCutOff

/-- D2D_INTERFACE_FAIL (R48, R49, R429). -/
def execD2dInterfaceFail (x : Nat) (s₀ : State) : Host.Outcome State Fault Refusal :=
  let s := beginStep s₀
  finish s₀ (if s.hasD2d x then s.d2dFail x else s)

/-- D2D_INTERFACE_RETURN (R48): the return cause, the halves of its crossings that were reset are released (R541), and bounds without the relay. -/
def execD2dInterfaceReturn (x : Nat) (s₀ : State) : Host.Outcome State Fault Refusal :=
  let s := beginStep s₀
  let (a, b) := d2dEnds x
  finish s₀ (if !s.hasD2d x || s.d2dUp a b then s
    else
      let s := (d2dSides x).foldl (fun (s : State) y =>
        let s := (s.setLive (srcDie y.1 (3 + y.2)) 0 false).raise (srcDie y.1 (3 + y.2)) 1
        (s.releaseHalf (dieCrossing y.1 y.2)).releaseHalf (dieCrossing y.1 (3 + y.2))) s
      (s.republish 6).reroute)

/-- D2D_TALLY_EXCHANGE (R421): `first` and `second` are the units that the far dies of the interface's two directions have taken in since M4. In flight
from a die is what its ledger has issued; what has landed is what came back without a reclaim (log entry 97). -/
def execD2dTallyExchange (x first second : Nat) (s₀ : State) : Host.Outcome State Fault Refusal :=
  let s := beginStep s₀
  let landed := fun (y : Nat × Nat) => (s.ledger (dieLedger y.1 (67 + y.2))).returned - (s.ledger (dieLedger y.1 (67 + y.2))).reclaimed
  finish s₀ (if !s.hasD2d x || (d2dSides x).map landed = [first, second] then s
    else ((d2dSides x).foldl (fun (s : State) y => s.raise (srcDie y.1 (3 + y.2)) 2) s).d2dFail x)

/-- BASIN_PARTITION_FULL (Table 10-4, die source 1 cause 3): a partition has had no room for 1 ms. -/
def execBasinPartitionFull (d part : Nat) (s₀ : State) : Host.Outcome State Fault Refusal :=
  let s := beginStep s₀
  finish s₀ (if s.basinPresent d part && decide (part < 15) && !(s.ledger (dieLedger d part)).room 1 then (s.raise (srcDie d 1) 3).setLive (srcDie d 1) 3 true else s)

/-! ### Latching (R439) -/

/-- CL_TALLY_A to CL_TALLY_E, or the die's, take the values of a ledger. -/
def State.latchTally (s : State) (die : Bool) (c index : Nat) : State :=
  let l := s.ledger (if die then dieLedger c index else clusterLedger c index)
  let a := fun (k : Nat) => (if die then DIE_TALLY_A.addr c else CL_TALLY_A.addr c) + 8 * k
  let s := s.wr (a 0) (BitVec.ofNat 64 (l.total % 2 ^ 32 * 2 ^ 32 + l.out % 2 ^ 32))
  let s := (s.wr (a 1) (BitVec.ofNat 64 l.issued)).wr (a 2) (BitVec.ofNat 64 l.returned)
  let s := s.wr (a 3) (BitVec.ofNat 64 (l.issued / 2 ^ 64 % 2 ^ 16 * 2 ^ 48 + l.returned / 2 ^ 64 % 2 ^ 16 * 2 ^ 32 + min l.corrected 0xFFFF * 2 ^ 16))
  s.wr (a 4) (BitVec.ofNat 64 l.reclaimed)

end Sys2Proof.Machine
end

