-- ==== Sys2Proof/Machine/Structure.lean ====
section
/-! DEFINITION. Loading and reloading the structure (R82 to R104) and the sealed settings (R105 to R114): staging, the store's slots, validation and
application of full and region images, and the seal procedure. -/

namespace Sys2Proof.Machine

/-! ### Measurement registers (R599, Table 14-5) -/

/-- A measurement register. -/
def State.mrOf (s : State) (n : Nat) : List Byte := tabGet (fun _ => List.replicate 48 0) s.mr n

/-- A measurement register is extended by V. -/
def State.extendMr (s : State) (n : Nat) (v : List Byte) : State :=
  { s with mr := tabPut (fun _ => List.replicate 48 0) s.mr n (sha384 (s.mrOf n ++ v)) }

/-! ### Slots of the store (R80 to R85) -/

/-- The largest image: 48 MiB. -/
def slotSize : Nat := 50331648

/-- Where a slot begins (Table 02-4). -/
def slotBase (b : Bool) : Nat := if b then 0x04000000 else 0x01000000

/-- The state of a slot. -/
def State.slotState (s : State) (b : Bool) : SlotState := if b then s.dir.slotB else s.dir.slotA

/-- The image in a slot: its first LENGTH bytes. -/
def State.slotImage (s : State) (b : Bool) : List Byte :=
  let n := leNat (bytesAt s.nvs (slotBase b + 12) 4)
  bytesAt s.nvs (slotBase b) (min n slotSize)

/-- The running image was loaded from a slot (Table 02-10). -/
def State.runningSlot (s : State) (b : Bool) : Bool := s.get PKG_SBS_STATUS.SOURCE = (if b then 2 else 1)

/-- A command of PKG_SBS_CTL or an aperture write is refused or ignored (R83, R84, R87, R95). DESIGN CHOICE: STATE and REFUSE_ENTRY stay as they were (log
entry 59). -/
def State.sbsRefused (s : State) : State := s.set PKG_SBS_STATUS.REFUSE_CODE 0x0F

/-- An image is refused (R89). -/
def State.imageRefused (s : State) (r : Refuse) : State :=
  (((s.set PKG_SBS_STATUS.REFUSE_CODE r.1).set PKG_SBS_STATUS.REFUSE_ENTRY r.2).set PKG_SBS_STATUS.STATE 5).raise (srcPkg 4) 1

/-- A control port of this package by its master. -/
def Master.cpNumber : Master → Nat
  | .cp n => n
  | _ => 0

/-! ### Staging (R86, R87, R693) -/

/-- The space of a home, in bytes (R86). -/
def State.stageSpace (s : State) : StageHome → Nat
  | .basins => min slotSize (33554432 * s.healthyDies.length)
  | .reserve => if s.sec (basinSec s.leadDie) 0 1 = 1 then 4194304 else 0
  | _ => slotSize

/-- The slot that takes an image which outgrows the reserve: the one the running image was not loaded from (R86). When neither was, which of the
two is left open (log entry 31). DESIGN CHOICE: none while CMD 0x2 writes that slot; where neither slot runs, the other one (log entry 58). -/
def State.spareSlot (s : State) : State × Option Bool :=
  let busy := fun (b : Bool) => s.slotWrite.any fun w => w.slotB = b
  if s.runningSlot false then (s, if busy true then none else some true)
  else if s.runningSlot true then (s, if busy false then none else some false)
  else if busy false then (s, some true)
  else if busy true then (s, some false)
  else (s.tookFree, some (s.free % 2 = 1))

/-- The store while the staged bytes b lie in a slot, which holds them and nothing of what it held before (R86, log entry 57). -/
def stagedNvs (t : Tab Byte) (home : StageHome) (b : List Byte) : Tab Byte :=
  let into := fun (slot : Bool) => putBytes (t.filter fun x => decide (x.1 < slotBase slot) || decide (slotBase slot + slotSize ≤ x.1)) (slotBase slot) b
  match home with
  | .slotA => into false
  | .slotB => into true
  | _ => t

/-- An 8-byte write to the staging aperture (R693). DESIGN CHOICE: an image whose LENGTH exceeds the reserve moves to a slot when LENGTH is known, before its
bytes outgrow the reserve (R86, log entry 58); an overflow is an image refused, with its event and REFUSE_ENTRY 0xFFFF (R693, log entry 59). -/
def State.stageWrite (s : State) (m : Master) (v : Word) : State :=
  if !s.holdsSem m 0 then s.sbsRefused
  else if s.staged.overflow then s
  else
    let x : Staged := if s.staged.active then { s.staged with home := if s.mode ≠ 3 && s.staged.home = .basins then .reserve else s.staged.home } else { active := true, port := m.cpNumber, home := if s.mode = 3 then .basins else .reserve }
    if 16 ≤ x.bytes.length && imgLength x.bytes ≤ x.bytes.length then s
    else
      let b := x.bytes ++ leBytes 8 v.toNat
      let len := if 16 ≤ b.length then imgLength b else 0
      let b := if 16 ≤ b.length then b.take (max len 16) else b
      let need := max b.length len
      let fits := need ≤ s.stageSpace x.home
      let (s, home) : State × StageHome :=
        if x.home = .reserve && !fits && need ≤ slotSize then
          match s.spareSlot with
          | (s, some slot) => (s.setSlot slot .writing, if slot then .slotB else .slotA)
          | (s, none) => (s, x.home)
        else (s, x.home)
      if need ≤ s.stageSpace home then
        State.set { s with staged := { x with bytes := b, home := home }, nvs := stagedNvs s.nvs home b } PKG_SBS_STATUS.STATE 1
      else
        State.imageRefused { s.discardStaged with staged := { overflow := true } } (0x0D, 0xFFFF)

/-- The staged image lies in a slot. -/
def Staged.inSlot (x : Staged) : Bool := x.home = .slotA || x.home = .slotB

/-- All LENGTH bytes are staged (R693). -/
def Staged.whole (x : Staged) : Bool := 16 ≤ x.bytes.length && imgLength x.bytes ≤ x.bytes.length

/-! ### Commands of PKG_SBS_CTL (Table 02-9) -/

/-- CMD 0x1: the staged image is validated and loaded, in M3. DESIGN CHOICE: with a load under way, or nothing staged, it is refused with code 0x0F (log
entry 60). An image that is not whole fails check 4 in validation, which uses it up (log entry 61). -/
def State.sbsLoad (s : State) : State :=
  if s.mode ≠ 3 || s.loading.isSome || !s.staged.active || s.staged.inSlot then s.sbsRefused
  else
    State.set { s with loading := some { source := .streamed, bytes := s.staged.bytes, port := s.staged.port, validated := false }, loadOrder := [], staged := {} }
      PKG_SBS_STATUS.STATE 2

/-- CMD 0x2: the staged image goes to a slot. DESIGN CHOICE: during a slot write, with nothing staged, or with TARGET 0b00 or 0b11, it is refused with code
0x0F (log entry 60); an image that is not whole fails check 4 and stays staged (log entry 61). -/
def State.sbsToSlot (s : State) (target : Nat) : State :=
  let b := decide (target = 2)
  let other := (s.staged.home = .slotA && b) || (s.staged.home = .slotB && !b)
  if (target ≠ 1 && target ≠ 2) || s.slotWrite.isSome || !s.staged.active || other || s.runningSlot b then s.sbsRefused
  else if !s.staged.whole then s.imageRefused (4, 0xFFFF)
  else
    let s := s.setSlot b .writing
    State.set { s with slotWrite := some { slotB := b, image := s.staged.bytes, written := false }, staged := {} } PKG_SBS_STATUS.STATE 7

/-- A gated region is ungated for its reload: its crossings may leave reset (R623). -/
def State.ungateRegion (s : State) (g : Nat) : State :=
  (regionClusters g).foldl (fun (s : State) c =>
    if s.gated.testBit c then (clusterCrossings c).foldl (fun (s : State) x => s.releaseHalf x) { s with gated := withoutBit s.gated c } else s) s

/-- CMD 0x3: a partial reload of a region begins (R94 to R96, R586). DESIGN CHOICE: PARTIAL sets here, and stays when the reload is refused or abandoned
(log entry 62); TARGET 0b11, and TARGET 0b00 with nothing staged, are refused with code 0x0F, and M8 is not entered; so is a region of a die
whose BASIN section does not enable partial reload (R412, log entry 60). -/
def State.sbsReload (s : State) (g target : Nat) : State :=
  if s.mode ≠ 6 && s.mode ≠ 7 then (s.bump PKG_MODE.REFUSED).sbsRefused
  else
    let slot := decide (target = 2)
    let enabled := s.sec (basinSec (g / 4)) 0 1 = 1
    let usable := enabled && if target = 0 then s.staged.active && !s.staged.inSlot else (target = 1 || target = 2) && s.slotState slot = .valid
    if !usable then s.sbsRefused
    else
      let image := if target = 0 then s.staged.bytes else formRegion (s.slotImage slot) g
      let s : State := { s with
        reload := some { region := g, image := image, fromSlot := decide (target ≠ 0), stage := .validating, hitless := false }
        staged := if target = 0 then {} else s.staged
        modes := { s.modes with beforeReload := s.mode } }
      let s := if s.regionFenced g then s.ungateRegion g else s
      ((s.set PKG_SBS_STATUS.STATE 2).setFlag PKG_SBS_STATUS.PARTIAL true).enterMode 8

/-- A write of PKG_SBS_CTL, its RW fields already written: BOOT_SEL goes to the store, and CMD acts for the holder of SEM00 (R84, R88). -/
def State.wrSbsCtl (s : State) (m : Master) (v : Word) : State :=
  let s : State := { s with dir := { s.dir with bootSel := s.get PKG_SBS_CTL.BOOT_SEL } }
  let cmd := getBits v 28 4
  if cmd = 0 || 4 < cmd then s
  else if !s.holdsSem m 0 then s.sbsRefused
  else if cmd = 1 then s.sbsLoad
  else if cmd = 2 then s.sbsToSlot (s.get PKG_SBS_CTL.TARGET)
  else if cmd = 3 then s.sbsReload (s.get PKG_SBS_CTL.RELOAD_REGION) (s.get PKG_SBS_CTL.TARGET)
  else s.discardStaged

/-! ### Choosing and trying sources (R88, R89) -/

/-- The source is a slot that is not Valid, which is not attempted (Table 02-6). -/
def State.skipped (s : State) : ImageSource → Bool
  | .slotA => s.slotState false ≠ .valid
  | .slotB => s.slotState true ≠ .valid
  | .streamed => false

/-- The next source of the order is tried. -/
def State.nextSource (s : State) : State :=
  match s.loadOrder.dropWhile s.skipped with
  | [] => { s with loadOrder := [] }
  | .streamed :: rest => State.set { s with loadOrder := rest } PKG_SBS_STATUS.STATE 6
  | src :: rest =>
    State.set { s with loading := some { source := src, bytes := s.slotImage (src = .slotB), port := 0, validated := false }, loadOrder := rest }
      PKG_SBS_STATUS.STATE 2

/-- Entry to M3: the source order of Table 02-6, and the first attempt. -/
def State.chooseSource (s : State) : State :=
  let sel := s.dir.bootSel
  let s := s.set PKG_SBS_CTL.BOOT_SEL sel
  let a := s.dir.slotA = .valid
  let b := s.dir.slotB = .valid
  let go := fun (s : State) (l : List ImageSource) => State.nextSource { s with loadOrder := l }
  if sel = 0 then
    let both := if imgSeq (s.slotImage false) < imgSeq (s.slotImage true) then [ImageSource.slotB, .slotA] else [.slotA, .slotB]
    go s ((both.filter fun x => if x = .slotA then a else b) ++ [.streamed])
  else if sel = 3 then go s [.streamed]
  else
    let ok := if sel = 1 then a else b
    if ok then go s [if sel = 1 then .slotA else .slotB, .streamed] else go (s.imageRefused (0x0F, 0xFFFF)) [.streamed]

/-! ### Seal requests of an image (R108) -/

/-- The value in force of a setting (R105). -/
def State.sealInForce (s : State) (id : Nat) : Nat :=
  match id with
  | 1 => s.sealed.domain | 2 => s.sealed.rank | 3 => s.sealed.floor | 4 => s.sealed.ceiling | _ => s.sealed.priv

/-- Changes of a value-bank setting used, spoiled ones among them. -/
def State.sealUsed (s : State) (id : Nat) : Nat :=
  match id with
  | 1 => s.fuses.domain.length | 2 => s.fuses.rank.length | 3 => s.fuses.floor | 4 => s.fuses.ceiling.length | _ => s.fuses.priv.length

/-- Changes allowed (Table 02-12). -/
def sealAllowed (id : Nat) : Nat :=
  match id with
  | 1 => 16 | 2 => 32 | 3 => 255 | 4 => 8 | _ => 16

/-- A request cannot be met. -/
def State.sealExhausted (s : State) (id new : Nat) : Bool := if id = 3 then decide (new ≤ s.sealed.floor) else decide (sealAllowed id ≤ s.sealUsed id)

/-- The seal requests of a validated full image are ignored, refused or staged. -/
def State.sortSeals (s : State) (asked : List (Nat × Nat)) (image : List Byte) : State :=
  let real := asked.filter fun x => x.2 ≠ s.sealInForce x.1
  let bad := real.filter fun x => s.sealExhausted x.1 x.2
  let good := real.filter fun x => !s.sealExhausted x.1 x.2
  let mask := fun (l : List (Nat × Nat)) => l.foldl (fun n x => withBit n (x.1 - 1)) 0
  let s := bad.foldl (fun (s : State) _ => s.raise (srcPkg 1) 0) (s.set SEAL_CTL.REFUSED (mask bad))
  if good.isEmpty then s
  else
    let old := s.get SEAL_CTL.TOKEN
    let new := s.free % 65536
    let s := (s.tookFree.set SEAL_CTL.TOKEN (if new = old then new + 1 else new)).set SEAL_CTL.PENDING (mask good)
    { s with sealRequests := good.map fun x => { setting := x.1, new := x.2, image := image.take 16 } }

/-! ### Applying sections -/

/-- The registers in an address range return to their reset values. -/
def State.clearRegs (s : State) (lo hi : Nat) : State := { s with regs := s.regs.filter fun x => !(decide (lo ≤ x.1) && decide (x.1 < hi)) }

/-- The windows of a cluster from its WIN section (R262, Tables 06-9, 06-10). -/
def State.loadWindows (s : State) (c : Nat) : State :=
  let s := s.clearRegs (windowBase (1024 * c)) (windowBase (1024 * c) + 0x10000)
  let s : State := { s with beyond64 := s.beyond64.filter fun w => w / 1024 ≠ c }
  (List.range 1024).foldl (fun (s : State) w =>
    let n := 1024 * c + w
    let word := fun (k : Nat) => BitVec.ofNat 64 (s.sec (winSec c) (32 * w + 8 * k) 8)
    if (word 3).getLsbD 63 then
      ((((s.wr (WIN_BASE.addr n) (word 0)).wr (WIN_LIMIT.addr n) (word 1)).wr (WIN_REMOTE.addr n) (word 2)).wr (WIN_ATTR.addr n) (word 3)).set (WIN_STATE.VALID n) 1
    else s) s

/-- The programs and initial data of a cluster's engines from its ENGINE section (R74). -/
def State.loadEngines (s : State) (c : Nat) : State :=
  (clusterEngines c).foldl (fun (s : State) te =>
    let base := 49152 * (te % 8)
    let s : State := { s with
      dataMem := putBytes (s.dataMem.filter fun x => x.1 / 32768 ≠ te) (32768 * te) (bytesAt s.cfg (engineSec c + base + 16384) 32768) }
    let s := s.putProgram te ((List.range 4096).map fun k => BitVec.ofNat 32 (s.sec (engineSec c) (base + 4 * k) 4))
    let e := s.engine te
    -- a halted engine may run again (R73)
    if e.run = .halted then s.setEngine te { e with run := .stalled } else s) s

/-- The registers that show a lane's record (Tables 03-10, 03-12, 03-16). -/
def State.loadLane (s : State) (l : Nat) : State :=
  let s := ((s.set (LN_STATE.ROLE l) (s.laneRec l 0 1)).set (LN_QUAL.FLOOR l) (s.laneRec l 3 1)).set (LN_QUAL.DELTA l) (s.laneRec l 4 1)
  (s.set (LN_QUAL.DRIFT_TIME l) (s.laneRec l 6 2)).set (LN_EYE.TARGET l) (s.laneRec l 5 1)

/-- The registers that show a port's record (Tables 01-7, 03-15, 05-8, 15-9). -/
def State.loadPort (s : State) (p : Nat) : State :=
  if s.isBf p then s.set (PORT_BOND.MIN_LANES p) (s.minLanes p)
  else
    let s := s.set (PORT_PCIE.CLK_MODE p) (s.portRec p 64 1)
    if s.isPd p then
      (s.setFlag (PORT_LOCK.LOCKABLE p) ((s.portRec p 4 1).testBit 1)).set (PORT_LOCK.HOLD_LIMIT p) (if s.portRec p 6 2 = 0 then 100 else s.portRec p 6 2)
    else s

/-- A port of POLICY 0x3 that has not been woken (R618, Table 15-9). -/
def State.showStandby (s : State) (p : Nat) : State :=
  if s.isPort p then (s.setFlag (PORT_WAKE.STANDBY p) (s.asleep p)).set (PORT_WAKE.SLEEP p) (if s.asleep p then 2 else 0) else s

/-- What the WIN and ENGINE sections of a cluster build: what a hitless reload changes (Table 02-11, step 7). -/
def State.loadTraffic (s : State) (c : Nat) : State := (s.loadWindows c).loadEngines c

/-- What the sections of a cluster build. -/
def State.loadCluster (s : State) (c : Nat) : State :=
  let s := s.loadTraffic c
  let s := (clusterLanes c).foldl (fun (s : State) l => s.loadLane l) s
  (s.clusterPorts c).foldl (fun (s : State) p => (s.loadPort p).showStandby p) s

/-- The Toll Table of a die from its TOLL section (R483, R502). -/
def State.loadToll (s : State) (d : Nat) : State :=
  let s := s.clearRegs (TOLL.addr d 0 0) (TOLL.addr d 16384 0)
  let used := (List.range 16384).filter fun i => (s.sec (tollSec d) (32 * i + 30) 1).testBit 0
  let s := used.foldl (fun (s : State) i => (List.range 4).foldl (fun (s : State) k =>
    s.wr (TOLL.addr d i k) (BitVec.ofNat 64 (s.sec (tollSec d) (32 * i + 8 * k) 8))) s) s
  s.set (TOLL_CTL.LOCKED_COUNT d) (used.filter fun i => (s.toll d i).locked).length

/-- The counters and selections of a gated cluster return to their reset values (R634). -/
def State.clearCounters (s : State) (c : Nat) : State :=
  ((s.clearRegs (PMON_CL_SEL.addr c 0) (PMON_CL_CTR.addr c 32)).wr (PMON_CL_CTL.addr c) 0).wr (PMON_CL_HI.addr c) 0

/-- A valid window of KIND 0x4 names an engine of the cluster (R622). -/
def State.engineTarget (s : State) (c : Nat) : Bool :=
  (List.range s.numClusters).any fun k => (s.windowsOf k).any fun w =>
    let x := s.window w
    x.attr.getLsbD 63 && x.kind = 4 && (x.target % 1024 - 256) / 8 = c && decide (256 ≤ x.target % 1024)

/-- A cluster is gated: its SRAM and counters are lost, its engines and its clock stop (R622, R623, R634). -/
def State.gateCluster (s : State) (c : Nat) : State :=
  let s := s.clearCounters c
  let s := (clusterEngines c).foldl (fun (s : State) te => s.setEngine te { run := .stalled }) s
  let s := (clusterCrossings c).foldl (fun (s : State) x => s.setCrossing x { s.crossing x with nearStopped := true }) s
  { s with
    gated := withBit s.gated c
    program := s.program.filter fun x => x.1 / 32768 ≠ c
    dataMem := s.dataMem.filter fun x => x.1 / 262144 ≠ c }

/-- The clusters that no lane uses and no window needs are gated from M4 (R622). -/
def State.gateIdle (s : State) : State :=
  (List.range s.numClusters).foldl (fun (s : State) c =>
    if (clusterLanes c).all (fun l => s.laneRec l 0 1 = 0) && !s.engineTarget c then s.gateCluster c else s) s

/-- The section of a type, scope and index, as a number (Table 02-2). -/
def secNumber (e : DirEntry) : Nat := secKey e.type e.scope e.index / 1048576

/-- The sizes of an image's sections take their places among those of the running structure (R97). -/
def installSizes (t : Tab Nat) (b : List Byte) : Tab Nat :=
  (imgDir b).foldl (fun (t : Tab Nat) e => if e.type = 15 then t else tabPut (fun _ => 0) t (secNumber e) e.size) t

/-- A full image is applied and the package enters M4 (R585, R409, R502). -/
def State.applyFull (s : State) (x : Load) : State :=
  let b := x.bytes.take (imgLength x.bytes)
  let s : State := { s with cfg := installImage [] b, secSizes := installSizes [] b }
  let s := (List.range s.numClusters).foldl (fun (s : State) c => s.loadCluster c) s
  let s := (List.range s.numDies).foldl (fun (s : State) d =>
    let s := s.loadToll d
    ((s.set (DIE_THERM.T_WARN d) (s.sec powerSec 2 1)).set (DIE_THERM.T_THROTTLE d) (s.sec powerSec 3 1)).set (DIE_THERM.T_TRIP d) (s.sec powerSec 4 1)) s
  let s := s.set PKG_BOUND.SUR_CODE (s.sec classSec 0 1)
  let source := match x.source with
    | .slotA => 1
    | .slotB => 2
    | .streamed => 3 + x.port
  let s := (((s.set PKG_SBS_STATUS.REFUSE_CODE 0).set PKG_SBS_STATUS.SOURCE source).set PKG_SBS_STATUS.STATE 4).setFlag PKG_SBS_STATUS.PARTIAL false
  let s := (State.initLedgers { s with loading := none }).recomputeBounds
  let s := (List.range (8 * s.numClusters)).foldl (fun (s : State) te => s.startEngine te) s
  s.gateIdle.enterMode 4

/-! ### Validation ends (R92, R93) -/

/-- The sections of a type in an image's directory order. -/
def sectionsOf (b : List Byte) (types : List Nat) : List (List Byte) := ((imgDir b).filter fun e => types.contains e.type).map fun e => e.bytes b

/-- A full image has been validated. -/
def State.fullValidated (s : State) (x : Load) : State :=
  match s.validate x.bytes none false with
  | some r =>
    let s := State.imageRefused { s with loading := none } r
    if x.source = .streamed then s else s.nextSource
  | none =>
    let b := x.bytes.take (imgLength x.bytes)
    let s := s.extendMr 3 (imgDigest b)
    let s := (sectionsOf b [4]).foldl (fun (s : State) e => s.extendMr 4 (sha384 e)) s
    let s := s.sortSeals (s.withImage b none).sealAsked (imgDigest b)
    State.set { s with loading := some { x with bytes := b, validated := true } } PKG_SBS_STATUS.STATE 3

/-- The bytes of a section in a byte memory. -/
def sectionOf (t : Tab Byte) (key : Nat) : Tab Byte := t.filter fun x => x.1 / 1048576 = key / 1048576

/-- The LANE and PORT sections of a region image equal those that run, in size and in every byte (R97). -/
def State.sameLinks (s : State) (b : List Byte) (g : Nat) : Bool :=
  let t := installImage s.cfg b
  let sizes := installSizes s.secSizes b
  let size := fun (t : Tab Nat) (k : Nat) => tabGet (fun _ => 0) t (k / 1048576)
  (regionClusters g).all fun c => [laneSec c, portSec c].all fun k => sectionOf t k = sectionOf s.cfg k && size sizes k = size s.secSizes k

/-- The mode after a partial reload (Table 14-2). -/
def State.afterReload (s : State) : State :=
  let m := s.modes.beforeReload
  s.backTo (if m = 7 && !s.anyFenced then 6 else m)

/-- A region image has been validated (R97, R103). DEDUCED: a fenced region runs no sections for the image to equal, so its reload is not hitless (log entry
63). -/
def State.regionValidated (s : State) (r : Reload) : State :=
  match s.validate r.image (some r.region) r.fromSlot with
  | some e => State.afterReload { s.imageRefused e with reload := none }
  | none =>
    let b := r.image.take (imgLength r.image)
    { s with reload := some { r with image := b, stage := .validated, hitless := s.sameLinks b r.region && !s.regionFenced r.region } }

/-! ### The drain and apply steps (R98 to R102) -/

/-- The drain step begins: bounds without the region, whose BF ports are withdrawn (R360), locks end, and what was admitted elsewhere for its ports is answered CONTAINED. -/
def State.startDrain (s₀ : State) (r : Reload) : State :=
  let s : State := { s₀ with reload := some { r with stage := .draining } }
  let ports := s.allPorts.filter fun p => p / 16 = r.region
  let s := (s.republish 7 true).routesMoved s₀
  let s := ports.foldl (fun (s : State) p => s.dropLock p) s
  ports.foldl (fun (s : State) p => s.egressDiscard p false fun w => !w.pkt.isCompletion && w.tlps.isEmpty && ingressCluster w.ingress / 4 ≠ r.region) s

/-- The requests and answers that have not left: those that wait at a point, those a locked port holds back (R344), and those whose last element is still to
leave on a Burek link (R362). Management packets and Events pass no sluice (R572, log entry 20). -/
def State.undelivered (s : State) : List Waiting :=
  (s.waiting ++ s.portLocks.flatMap (·.2.held) ++ s.links.flatMap fun x => x.2.txEnds.map (·.2)).filter fun w => w.pkt.ptype ≠ 0xA && w.pkt.ptype ≠ 8

/-- A waiting packet is a request admitted at a port of the region, or an answer that leaves there. -/
def ofRegion (g : Nat) (w : Waiting) : Bool :=
  if w.pkt.isCompletion then decide (1000 ≤ lastPoint w) && decide (lastPoint w < 2000) && (lastPoint w - 1000) / 16 = g
  else decide (w.ingress < 256) && w.ingress / 16 = g

/-- No request admitted at a port of the region is undelivered or unanswered (R100). -/
def State.regionDrained (s : State) (g : Nat) : Bool :=
  !(s.outstanding.any fun o => o.admitted && !o.answered && decide (o.port < 1024) && o.port / 16 = g) && !s.undelivered.any (ofRegion g)

/-- The ports of a region that a reload has reset have their bounds restored with code 0x7 (R396). -/
def State.markRestoring (s : State) (g : Nat) : State := { s with modes := { s.modes with restoring := (List.range 16).map (16 * g + ·) } }

/-- The region image is measured and applied: a region that is not hitless is reset, and its sections take their places (R97, R102, R291, R430). -/
def State.applyRegion (s : State) (r : Reload) : State :=
  let cs := regionClusters r.region
  let s := s.extendMr 5 (sha384 (leBytes 1 r.region ++ ((imgDir r.image).flatMap fun e => e.bytes r.image)))
  let s := (sectionsOf r.image [4]).foldl (fun (s : State) e => s.extendMr 4 (sha384 e)) s
  let s := if r.hitless then cs.foldl (fun (s : State) c => (s.dropTracker c).dropStreams c) s else State.markRestoring (cs.foldl (fun (s : State) c => s.resetCluster c) s) r.region
  let s : State := { s with cfg := installImage s.cfg r.image, secSizes := installSizes s.secSizes r.image, reload := some { r with stage := .applying } }
  let s := cs.foldl (fun (s : State) c => if r.hitless then s.loadTraffic c else s.loadCluster c) s
  s.set PKG_SBS_STATUS.STATE 3

/-- An engine starts from its new program, before any other item (Table 01-10). -/
def State.restartEngine (s : State) (te : Nat) : State :=
  let e := s.engine te
  (s.setEngine te { queue := ({ kind := 0 }, .none, s.now) :: e.queue }).nextItem te

/-- The reload completes: the region returns to service, its ports' bounds are published and the mode is left (R97, R101, R104). -/
def State.endReload (s₀ : State) (r : Reload) : State :=
  let cs := regionClusters r.region
  let s : State := State.releaseCredits { s₀ with reload := none } r.region
  let s := s.setBit PKG_FENCE_RG.REGIONS r.region false
  let s := if r.hitless then (cs.flatMap clusterEngines).foldl (fun (s : State) te => s.restartEngine te) s else cs.foldl (fun (s : State) c => s.releaseCluster c) s
  let s := (s.republish 7 true).routesMoved s₀
  let s := ((s.set PKG_SBS_STATUS.REFUSE_CODE 0).set PKG_SBS_STATUS.STATE 4).setFlag PKG_SBS_STATUS.PARTIAL true
  ((s.bump PKG_SBS_STATUS.RELOAD_COUNT).raise (srcPkg 4) 0).afterReload

/-! ### Sealing (R109 to R114) -/

/-- Where entry i of the seal log stands. -/
def sealLogAt (i : Nat) : Nat := 0x10000 + 64 * i

/-- Entries of the seal log for a setting. -/
def State.sealEntries (s : State) (id : Nat) : Nat :=
  ((List.range s.dir.sealNext).filter fun i => (byteAt s.nvs (sealLogAt i + 2)).toNat = id).length

/-- The package stands in a joined domain: TIME_KIND of Table 02-13. It does in M6, M7 and M8, and in M9 and M10 when it was in M6 or M7 before (log entry
53). -/
def State.joined (s : State) : Bool :=
  within 6 s.mode 8 || ((s.mode = 9 || (s.mode = 10 && s.get PKG_MODE.PREV_MODE = 9)) && within 6 s.modes.beforeDrain 7)

/-- A seal log entry (Table 02-13). STATUS is written apart, and the CRC takes it as zero. -/
def State.sealEntry (s : State) (r : SealRequest) (port : Nat) : List Byte :=
  let b := leBytes 2 s.dir.sealNext ++ leBytes 1 r.setting ++ leBytes 1 (s.sealEntries r.setting + 1) ++ leBytes 1 port ++ [0] ++
    [if s.joined then 1 else 0, 0] ++ leBytes 8 s.now ++ leBytes 8 (s.sealInForce r.setting) ++ leBytes 8 r.new ++ r.image ++ List.replicate 12 0
  b ++ leBytes 4 (crc32c b)

/-- The fuses of one setting are programmed (R110). -/
def Fuses.program (f : Fuses) (id new : Nat) (valid : Bool) : Fuses :=
  let bank : FuseBank := { value := new, valid := valid }
  match id with
  | 1 => { f with domain := f.domain ++ [bank] }
  | 2 => { f with rank := f.rank ++ [bank] }
  | 3 => { f with floor := max f.floor new }
  | 4 => { f with ceiling := f.ceiling ++ [bank] }
  | _ => { f with priv := f.priv ++ [bank] }

/-- One request is committed: its log entry, its fuses, and the entry complete (R110, R112). -/
def State.commitSeal (s : State) (r : SealRequest) (port : Nat) : State :=
  let a := sealLogAt s.dir.sealNext
  let b := s.sealEntry r port
  { s with
    nvs := putBytes (putBytes s.nvs a b) (a + 5) [1]
    fuses := s.fuses.program r.setting r.new true
    dir := { s.dir with sealNext := s.dir.sealNext + 1 } }

/-- The modes in which a commit takes place (R109). -/
def sealMode (m : Nat) : Bool := within 3 m 7 || m = 10

/-- A write of SEAL_CTL, its REFUSED bits already cleared: a commit by the privileged holder of SEM01 with the right token (R109). A write with
COMMIT_TOKEN 0 that clears bits of REFUSED is taken as no commit write, and a right commit write in a mode outside R109's list raises the seal-refused event as
any other that is refused (log entry 32). -/
def State.wrSealCtl (s : State) (m : Master) (v : Word) : State :=
  let token := getBits v 32 16
  if token = 0 && getBits v 0 5 ≠ 0 then s
  else
    let mayCommit := match m with
      | .cp n => s.cpPrivileged n && s.holdsSem m 1
      | _ => false
    if mayCommit && token = s.get SEAL_CTL.TOKEN && sealMode s.mode then
      let s := s.sealRequests.foldl (fun (s : State) r => s.commitSeal r m.cpNumber) s
      State.set { s with sealRequests := [] } SEAL_CTL.PENDING 0
    else s.raise (srcPkg 1) 0

/-- A bank of a setting by its change number. -/
def Fuses.bank (f : Fuses) (id k : Nat) : Option FuseBank :=
  let l := match id with
    | 1 => f.domain | 2 => f.rank | 4 => f.ceiling | _ => f.priv
  if k = 0 then none else l[k - 1]?

/-- A log entry found in progress at boot is completed, spoiled or resumed (R111). -/
def State.recoverSeal (s : State) : State :=
  if s.dir.sealNext = 0 then s
  else
    let a := sealLogAt (s.dir.sealNext - 1)
    let id := (byteAt s.nvs (a + 2)).toNat
    let k := (byteAt s.nvs (a + 3)).toNat
    let new := leNat (bytesAt s.nvs (a + 24) 8)
    if byteAt s.nvs (a + 5) ≠ 0 then s
    else if id = 3 then { s with fuses := s.fuses.program 3 new true, nvs := putBytes s.nvs (a + 5) [1] }
    else match s.fuses.bank id k with
      | some f => { s with nvs := putBytes s.nvs (a + 5) [if f.valid then 1 else 2] }
      | none => { s with fuses := s.fuses.program id new false, nvs := putBytes s.nvs (a + 5) [2] }

/-! ### Commands that the structure's own machinery ends -/

/-- SLOT_WRITE_COMPLETE (R82). -/
def execSlotWriteComplete (readBack : Bool) (s₀ : State) : Host.Outcome State Fault Refusal :=
  let s := beginStep s₀
  finish s₀ (match s.slotWrite with
    | none => s
    | some w =>
      let good := readBack && imageHash w.image = imgDigest w.image
      let s : State := { s with slotWrite := none, nvs := putBytes s.nvs (slotBase w.slotB) w.image }
      let s := (s.setSlot w.slotB (if good then .valid else .invalid)).set PKG_SBS_STATUS.STATE 0
      if good then s else s.raise (srcPkg 3) 2)

/-- IMAGE_VALIDATION_DONE (R92). -/
def execImageValidationDone (s₀ : State) : Host.Outcome State Fault Refusal :=
  let s := beginStep s₀
  finish s₀ (match s.reload, s.loading with
    | some r, _ => if r.stage = .validating && s.mode = 8 then s.regionValidated r else s
    | none, some x => if x.validated || s.mode ≠ 3 then s else s.fullValidated x
    | none, none => s)

/-- IMAGE_APPLY_COMPLETE (R585). -/
def execImageApplyComplete (s₀ : State) : Host.Outcome State Fault Refusal :=
  let s := beginStep s₀
  finish s₀ (match s.loading with
    | some x => if x.validated && s.mode = 3 then s.applyFull x else s
    | none => s)

/-- RELOAD_DRAIN_START (R96, R98). -/
def execReloadDrainStart (s₀ : State) : Host.Outcome State Fault Refusal :=
  let s := beginStep s₀
  finish s₀ (match s.reload with
    | some r => if r.stage = .validated && s.mode = 8 && !s.flag TOLL_FENCE.BUSY then s.startDrain r else s
    | none => s)

/-- RELOAD_DRAIN_END (R100). -/
def execReloadDrainEnd (s₀ : State) : Host.Outcome State Fault Refusal :=
  let s := beginStep s₀
  finish s₀ (match s.reload with
    | some r => if r.stage = .draining && s.mode = 8 && s.regionDrained r.region then s.applyRegion r else s
    | none => s)

/-- RELOAD_APPLY_DONE (R97, R101). -/
def execReloadApplyDone (s₀ : State) : Host.Outcome State Fault Refusal :=
  let s := beginStep s₀
  finish s₀ (match s.reload with
    | some r => if r.stage = .applying && s.mode = 8 then s.endReload r else s
    | none => s)

end Sys2Proof.Machine
end

