-- ==== Sys2Proof/Machine/Spdm.lean ====
section
/-! DEFINITION. Data Object Exchange (R256 to R259, R648) and the SPDM responder (R601 to R604, Table 14-6). The spec names the messages and their
parameters; their byte layouts are those of the standards it cites (log entry 33). -/

namespace Sys2Proof.Machine

/-- A DOE instance. -/
def State.doeOf (s : State) (i : Nat) : DoeState := tabGet (fun _ => {}) s.doe i

/-- Replace a DOE instance. -/
def State.setDoe (s : State) (i : Nat) (x : DoeState) : State := { s with doe := tabPut (fun _ => {}) s.doe i x }

/-- An instance is served: on the control ports from M3, on a vUSP from M4 (R256, R603). -/
def State.doeServed (s : State) (i : Nat) : Bool :=
  if i < 2 then decide (3 ≤ s.mode) else decide (4 ≤ s.mode) && s.mode ≠ 11 && s.isPu (i - 2)

/-- A DOE object: vendor ID, type, length in dwords and payload. -/
def doeObject (vendor type : Nat) (payload : List Byte) : List Byte :=
  let pad := (4 - payload.length % 4) % 4
  let n := 2 + (payload.length + pad) / 4
  leBytes 2 vendor ++ leBytes 2 type ++ leBytes 4 n ++ payload ++ List.replicate pad 0

/-- A response leaves an instance. -/
def State.doeRespond (s : State) (i : Nat) (object : List Byte) : State :=
  (s.setDoe i { s.doeOf i with object := none, response := object }).emit (.doe i object)

/-- The response to a Discovery object (R256): index 0 names Discovery, index 1 CMA/SPDM. -/
def discoveryResponse (index : Nat) : List Byte :=
  doeObject 1 0 (if index = 0 then leBytes 2 1 ++ [0, 1] else if index = 1 then leBytes 2 1 ++ [1, 0] else leBytes 2 0xFFFF ++ [0, 0])

/-- SPDM ERROR with UnsupportedRequest (R603). -/
def spdmUnsupported (version code : Nat) : List Byte := leBytes 1 version ++ [0x7F, 0x07] ++ leBytes 1 code

/-- SPDM ERROR with UnexpectedRequest, for a request before those it rests on. -/
def spdmUnexpected (version : Nat) : List Byte := leBytes 1 version ++ [0x7F, 0x04, 0]

/-- Byte i of a message. -/
def msgByte (b : List Byte) (i : Nat) : Nat := (b.getD i 0).toNat

/-- The codes of the requests served (Table 14-6). -/
def spdmCodes : List Nat := [0x81, 0x82, 0x83, 0x84, 0xE0, 0xE1, 0xE3]

/-- What the lead does at once with an object whose turn has come: it answers Discovery, and an SPDM request outside Table 14-6; an object of a protocol that
is not listed it takes without an answer (R256). A request of Table 14-6 is served by its own command. -/
def doeAtOnce (object : List Byte) : Option (Option (List Byte)) :=
  if imgNat object 0 2 = 1 && imgNat object 2 1 = 0 then some (some (discoveryResponse (imgNat object 8 1)))
  else if imgNat object 0 2 = 1 && imgNat object 2 1 = 1 then
    if spdmCodes.contains (imgNat object 9 1) then none
    else some (some (doeObject 1 1 (spdmUnsupported (imgNat object 8 1) (imgNat object 9 1))))
  else some none

/-- The lead takes objects in the order in which they were written, as far as it answers them at once (R258). It passes over an instance that the mode does
not serve. -/
def State.doeTake (s : State) : List Nat → State
  | [] => s
  | i :: rest =>
    if !s.doeServed i then s.doeTake rest
    else match (s.doeOf i).object with
      | none => State.doeTake { s with doeOrder := s.doeOrder.filter (· ≠ i) } rest
      | some o => match doeAtOnce o with
        | none => s
        | some none => State.doeTake (State.setDoe { s with doeOrder := s.doeOrder.filter (· ≠ i) } i { s.doeOf i with object := none }) rest
        | some (some r) => State.doeTake (State.doeRespond { s with doeOrder := s.doeOrder.filter (· ≠ i) } i r) rest

/-- The lead serves what it can of the objects that wait (R258). -/
def State.doeServe (s : State) : State := s.doeTake s.doeOrder

/-- A request object has been written whole (R257, R258): it waits for its turn, and DOE Busy shows it. -/
def State.doeWritten (s : State) (i : Nat) (object : List Byte) : State :=
  let x := s.doeOf i
  if !s.doeServed i || x.error then s
  else if 16384 < object.length then
    State.doeServe { s.setDoe i { x with error := true, partialObject := [], object := none, response := [] } with doeOrder := s.doeOrder.filter (· ≠ i) }
  else
    let s := s.setDoe i { x with partialObject := [], response := [], object := some object }
    State.doeServe { s with doeOrder := s.doeOrder.filter (· ≠ i) ++ [i] }

/-- DOE_OBJECT_WRITE (R258). -/
def execDoeObjectWrite (inst : Nat) (object : List Byte) (s₀ : State) : Host.Outcome State Fault Refusal :=
  let s := beginStep s₀
  finish s₀ (s.doeWritten inst object)

/-- DOE Abort clears the error and what is pending in its own instance (R257, R258). -/
def State.doeAborted (s : State) (i : Nat) : State :=
  let s := s.setDoe i { s.doeOf i with partialObject := [], object := none, error := false, response := [] }
  State.doeServe { s with doeOrder := s.doeOrder.filter (· ≠ i) }

/-- DOE_ABORT (R257). -/
def execDoeAbort (inst : Nat) (s₀ : State) : Host.Outcome State Fault Refusal :=
  let s := beginStep s₀
  finish s₀ (if s.doeServed inst then s.doeAborted inst else s)

/-- A lead change discards pending objects and incomplete responses, and sets DOE Error (R259). -/
def State.doeLost (s : State) : State :=
  { s with
    doe := s.doe.map fun x => (x.1, if x.2.object.isSome || !x.2.response.isEmpty || !x.2.partialObject.isEmpty then
      { x.2 with object := none, response := [], partialObject := [], error := true } else x.2)
    doeOrder := [] }

/-! ### SPDM (Table 14-6) -/

/-- The lead may take the instance's request: it is served, holds no error, and no object written earlier to another served instance waits (R258). -/
def State.spdmTurn (s : State) (i : Nat) : Bool :=
  s.doeServed i && !(s.doeOf i).error && ((s.doeOrder.find? s.doeServed).all fun j => j = i)

/-- A request is answered: the response, and what the connection now is. -/
def State.spdmAnswer (s : State) (i : Nat) (response : List Byte) (f : DoeState → DoeState) : State :=
  let s := s.setDoe i (f (s.doeOf i))
  (State.doeRespond { s with doeOrder := s.doeOrder.filter (· ≠ i) } i (doeObject 1 1 response)).doeServe

/-- Serve a request when its turn has come: one of Table 14-6 by its code, in a version that is served, in its order, else an ERROR. -/
def State.spdmServe (s : State) (i : Nat) (request : List Byte) (code phase : Nat) (answer : State → DoeState → State) : State :=
  let x := s.doeOf i
  let v := msgByte request 0
  if !s.spdmTurn i then s
  else if msgByte request 1 ≠ code then s.spdmAnswer i (spdmUnsupported v (msgByte request 1)) id
  else if x.phase < phase then s.spdmAnswer i (spdmUnexpected v) id
  else if 1 ≤ phase && v ≠ 0x12 && v ≠ 0x13 then s.spdmAnswer i (spdmUnsupported v code) id
  else answer s x

/-- GET_VERSION (R603). -/
def execGetVersion (inst : Nat) (request : List Byte) (s₀ : State) : Host.Outcome State Fault Refusal :=
  let s := beginStep s₀
  finish s₀ (s.spdmServe inst request 0x84 0 fun s _ =>
    let r : List Byte := [0x10, 0x04, 0, 0, 0, 2] ++ leBytes 2 0x1200 ++ leBytes 2 0x1300
    s.spdmAnswer inst r fun x => { x with phase := 1, version := 0, transcriptA := request ++ r, transcriptB := [], transcriptL := [] })

/-- The capability flags of Table 14-6: CERT_CAP, CHAL_CAP and MEAS_CAP 0b10. -/
def spdmFlags : Nat := 2 + 4 + 16

/-- GET_CAPABILITIES (R603). -/
def execGetCapabilities (inst : Nat) (request : List Byte) (s₀ : State) : Host.Outcome State Fault Refusal :=
  let s := beginStep s₀
  finish s₀ (s.spdmServe inst request 0xE1 1 fun s _ =>
    let v := msgByte request 0
    let r := leBytes 1 v ++ [0x61, 0, 0, 0, 15, 0, 0] ++ leBytes 4 spdmFlags ++ leBytes 4 16376 ++ leBytes 4 16376
    s.spdmAnswer inst r fun x => { x with phase := 2, version := v, transcriptA := x.transcriptA ++ request ++ r })

/-- NEGOTIATE_ALGORITHMS (R604). -/
def execNegotiateAlgorithms (inst : Nat) (request : List Byte) (s₀ : State) : Host.Outcome State Fault Refusal :=
  let s := beginStep s₀
  finish s₀ (s.spdmServe inst request 0xE3 2 fun s _ =>
    let v := msgByte request 0
    if (imgNat request 8 4).testBit 7 && (imgNat request 12 4).testBit 1 && (imgNat request 6 1).testBit 0 then
      let r := leBytes 1 v ++ [0x63, 0, 0] ++ leBytes 2 36 ++ [1, 0] ++ leBytes 4 4 ++ leBytes 4 0x80 ++ leBytes 4 2 ++ List.replicate 16 0
      s.spdmAnswer inst r fun x => { x with phase := 3, transcriptA := x.transcriptA ++ request ++ r }
    else s.spdmAnswer inst (spdmUnsupported v 0xE3) id)

/-- GET_DIGESTS (R603): slot 0 only. -/
def execGetDigests (inst : Nat) (request : List Byte) (s₀ : State) : Host.Outcome State Fault Refusal :=
  let s := beginStep s₀
  finish s₀ (s.spdmServe inst request 0x81 3 fun s _ =>
    let r := leBytes 1 (msgByte request 0) ++ [0x01, 0, 1] ++ sha384 Config.certificateChain
    s.spdmAnswer inst r fun x => { x with transcriptB := x.transcriptB ++ request ++ r })

/-- GET_CERTIFICATE (R603): a part of the slot 0 chain, in a response object of no more than 16,384 dwords (R257). -/
def execGetCertificate (inst : Nat) (request : List Byte) (s₀ : State) : Host.Outcome State Fault Refusal :=
  let s := beginStep s₀
  finish s₀ (s.spdmServe inst request 0x82 3 fun s _ =>
    let v := msgByte request 0
    if msgByte request 2 % 16 ≠ 0 then s.spdmAnswer inst (spdmUnsupported v 0x82) id
    else
      let part := (Config.certificateChain.drop (imgNat request 4 2)).take (min (imgNat request 6 2) 65520)
      let r := leBytes 1 v ++ [0x02, 0, 0] ++ leBytes 2 part.length ++
        leBytes 2 (Config.certificateChain.length - imgNat request 4 2 - part.length) ++ part
      s.spdmAnswer inst r fun x => { x with transcriptB := x.transcriptB ++ request ++ r })

/-- The value type of measurement block n (Table 14-6). -/
def measurementType (n : Nat) : Nat := if n ≤ 2 then 1 else if n = 3 then 2 else 3

/-- Measurement block n, for n 1 to 8: MR(n − 1) as a 48-byte digest. -/
def State.measurementBlock (s : State) (n : Nat) : List Byte :=
  leBytes 1 n ++ [1] ++ leBytes 2 51 ++ leBytes 1 (measurementType n) ++ leBytes 2 48 ++ s.mrOf (n - 1)

/-- A random nonce of 32 bytes: free (log entry 11). -/
def State.nonce (s : State) : List Byte := (Config.freeDigest s.freeCount).take 32

/-- The eight bytes of RequesterContext that version 1.3 returns after the opaque data, from byte o of the request. -/
def requesterContext (request : List Byte) (o : Nat) : List Byte := if msgByte request 0 = 0x13 then (request.drop o).take 8 else []

/-- CHALLENGE (R602). The measurement summary of type 0x1 covers blocks that the spec does not name: its digest is free. -/
def execChallenge (inst : Nat) (request : List Byte) (s₀ : State) : Host.Outcome State Fault Refusal :=
  let s := beginStep s₀
  finish s₀ (s.spdmServe inst request 0x83 3 fun s x =>
    let v := msgByte request 0
    let kind := msgByte request 3
    if msgByte request 2 ≠ 0 then s.spdmAnswer inst (spdmUnsupported v 0x83) id
    else
      let summary := if kind = 0 then [] else if kind = 0xFF then sha384 ((List.range 8).flatMap fun n => s.measurementBlock (n + 1))
        else Config.freeDigest (s.freeCount + 1)
      let r := leBytes 1 v ++ [0x03, 0, 1] ++ sha384 Config.certificateChain ++ s.nonce ++ summary ++ [0, 0] ++ requesterContext request 36
      let sig := Config.deviceSignature (x.transcriptA ++ x.transcriptB ++ request ++ r)
      s.tookFree.tookFree.spdmAnswer inst (r ++ sig) id)

/-- GET_MEASUREMENTS (R604): the number of blocks, one block or all eight from one sample, signed when asked. -/
def execGetMeasurements (inst : Nat) (request : List Byte) (s₀ : State) : Host.Outcome State Fault Refusal :=
  let s := beginStep s₀
  finish s₀ (s.spdmServe inst request 0xE0 3 fun s x =>
    let v := msgByte request 0
    let index := msgByte request 3
    let signed := (msgByte request 2) % 2 = 1
    if !(index ≤ 8 || index = 0xFF) || (signed && msgByte request 36 % 16 ≠ 0) then s.spdmAnswer inst (spdmUnsupported v 0xE0) id
    else
      let blocks := if index = 0 then [] else if index = 0xFF then (List.range 8).map (· + 1) else [index]
      let record := blocks.flatMap s.measurementBlock
      let r := leBytes 1 v ++ [0x60] ++ leBytes 1 (if index = 0 then 8 else 0) ++ [0] ++ leBytes 1 blocks.length ++ leBytes 3 record.length ++ record ++
        s.nonce ++ [0, 0] ++ requesterContext request (if signed then 37 else 4)
      let s := s.tookFree
      if signed then
        s.spdmAnswer inst (r ++ Config.deviceSignature (x.transcriptA ++ x.transcriptL ++ request ++ r)) fun x => { x with transcriptL := [] }
      else s.spdmAnswer inst r fun x => { x with transcriptL := x.transcriptL ++ request ++ r })

/-! ### The DOE registers of an instance (R257, R648) -/

/-- The 32-bit DOE register at standard offset o: Capabilities, Control, Status and the Read Data Mailbox. -/
def State.doeRegister (s : State) (n o : Nat) : Nat :=
  let x := s.doeOf n
  if o = 0x0C then (if x.object.isSome then 1 else 0) + (if x.error then 4 else 0) + (if x.response.isEmpty then 0 else 2 ^ 31)
  else if o = 0x14 then leNat (x.response.take 4)
  else if o = 0 then 0x0002002E
  else 0

/-- A write of a DOE register: Abort and Go of Control, the Write Data Mailbox, and a write of the Read Data Mailbox, which takes the next dword. -/
def State.writeDoe (s : State) (n o v : Nat) : State :=
  let x := s.doeOf n
  if o = 0x08 then
    if v.testBit 0 then s.doeAborted n
    else if v.testBit 31 then s.doeWritten n x.partialObject
    else s
  else if o = 0x10 then (if x.error then s else s.setDoe n { x with partialObject := x.partialObject ++ leBytes 4 v })
  else if o = 0x14 then s.setDoe n { x with response := x.response.drop 4 }
  else s

end Sys2Proof.Machine
end

