-- ==== Sys2Proof/Machine/Boot.lean ====
section
/-! DEFINITION. Power, reset and boot: RESET_B, AON_CLK and supplies (R594 to R596, R670 to R677), die health and the election (R50 to R58), keepers'
watchdogs (R569), Measured Boot (R597 to R599, Table 14-5), and the reference clocks and time pulse (R677, R686). -/

namespace Sys2Proof.Machine

/-! ### Reset pins and supplies -/

/-- RESET_B_RELEASE (R596, R547): from M0 the package enters M1 by a power-on reset; in M1 the straps are sampled and the pin no longer holds it. -/
def execResetBRelease (straps : Straps) (s₀ : State) : Host.Outcome State Fault Refusal :=
  let s := beginStep s₀
  finish s₀ (
    let s := if s.mode = 0 then s.packageReset 1 else s
    if s.mode = 1 then { s with modes := { s.modes with bootStraps := straps, resetHeld := false } } else s)

/-- RESET_B_ASSERT (R594, R682). -/
def execResetBAssert (s₀ : State) : Host.Outcome State Fault Refusal :=
  let s := beginStep s₀
  finish s₀ (
    if s.mode = 0 then s
    else
      let lost := s.modes.clockLost
      let s := s.packageReset 2
      { s with modes := { s.modes with resetHeld := true, clockLost := lost } })

/-- AON_CLOCK_LOSS (R675). -/
def execAonClockLoss (s₀ : State) : Host.Outcome State Fault Refusal :=
  let s := beginStep s₀
  finish s₀ (
    if s.mode = 0 then s
    else
      let held := s.modes.resetHeld
      let s := s.packageReset 2
      { s with modes := { s.modes with resetHeld := held, clockLost := true } })

/-- AON_CLOCK_RETURN (R675). -/
def execAonClockReturn (s₀ : State) : Host.Outcome State Fault Refusal :=
  let s := beginStep s₀
  finish s₀ { s with modes := { s.modes with clockLost := false } }

/-- M0: the package is unpowered, and keeps the store and the fuses. -/
def State.powerOff (s : State) : State := (s.packageReset 1).set PKG_MODE.MODE 0

/-- PACKAGE_RESET_EFFECT (R594, R595). -/
def execPackageResetEffect (s₀ : State) : Host.Outcome State Fault Refusal :=
  let s := beginStep s₀
  finish s₀ (
    if s.modes.resetSource = 0 then s
    else (s.waitUntil s.modes.resetDue).packageReset s.modes.resetSource)

/-! ### A lead change -/

/-- The event queue of a control port starts again empty but for a weir mark of unknown count (R558). -/
def State.restartQueue (s : State) (n : Nat) : State :=
  (s.setQueue (.controlPort n) { s.queue (.controlPort n) with items := [.mark 0 s.now s.now], pend := 0 }).showUsed (.controlPort n)

/-- The control-port crossings are reset and joined to the new lead's die (R558). -/
def State.rejoinPorts (s : State) : State :=
  let s := (List.range 4).foldl (fun (s : State) k => (s.resetCrossing (packageCrossing k)).releaseHalf (packageCrossing k)) s
  (s.restartQueue 0).restartQueue 1

/-- The lead stops answering: what R54 to R57 do, and what R259 and R558 add. -/
def State.leadChange (s : State) : State := if s.mode < 2 then s else s.leadLost.doeLost.rejoinPorts

/-! ### Supplies (R670) -/

/-- What a rail of Table 18-3 supplies. -/
inductive Rail where
  | package
  | die (d : Nat)
  | absent
  deriving DecidableEq, Repr

/-- Table 18-3 by q. -/
def State.railOf (s : State) (q : Nat) : Rail :=
  if q < 4 then (if q < s.numDies then .die q else .absent)
  else if q < 20 then (if q - 4 < s.numRegions then .die ((q - 4) / 4) else .absent)
  else if q < 26 then .package
  else .absent

/-- SUPPLY_OUT_OF_RANGE (R670). DESIGN CHOICE: a die without the lead keeps its bit of DIE_HEALTHY, as R670 and R55 name no loss of health after M2 but
the lead's (log entry 64). -/
def execSupplyOutOfRange (rail : Nat) (s₀ : State) : Host.Outcome State Fault Refusal :=
  let s := beginStep s₀
  finish s₀ (match s.railOf rail with
    | .absent => s
    | .package => if s.mode = 0 then s else s.powerOff
    | .die d =>
      if s.mode < 2 then s
      else
        let s := (s.raise (srcDie d 7) 0).setLive (srcDie d 7) 0 true
        let s := if d = s.leadDie && s.flag PKG_LEAD.LEAD_VALID then s.leadChange else s
        s.fenceDie d)

/-! ### Die health and the lead (R50 to R53) -/

/-- What control port n shows of its strap and its privilege (Table 13-9). -/
def State.showPort (s : State) (n : Nat) (i3c : Bool) : State :=
  let s := s.setFlag (PKG_CP_STATE.MODE n) i3c
  s.setFlag (PKG_CP_STATE.PRIV n) (s.cpPrivileged n)

/-- What the control ports show. -/
def State.showPorts (s : State) : State :=
  let straps := s.modes.bootStraps
  (s.showPort 0 straps.cp0I3c).showPort 1 straps.cp1I3c

/-- DIE_SELF_TEST_DONE (R50 to R53): `pass` and `supplies` have one bit for each die, `checks` one for each keeper that passed its self-check. -/
def execDieSelfTestDone (pass supplies checks : Nat) (s₀ : State) : Host.Outcome State Fault Refusal :=
  let s := beginStep s₀
  finish s₀ (
    if s.mode ≠ 1 || s.modes.resetHeld || s.modes.clockLost then s
    else
      let good := (List.range s.numDies).filter fun d => pass.testBit d && supplies.testBit d && (checks.testBit (2 * d) || checks.testBit (2 * d + 1))
      let s : State := { s with modes := { s.modes with selfCheck := checks } }
      let s := (s.set PKG_LEAD.DIE_HEALTHY (good.foldl (fun m d => withBit m d) 0)).showPorts
      if good.isEmpty then s.elect else (s.enterMode 2).elect)

/-! ### Measured Boot (R597 to R599) -/

/-- What the boot ROM finds in a firmware bank: whether it passes, its SVN and VERSION, the digests of its stages, and whether every later stage
matches its entry. -/
structure Bank where
  passes : Bool
  svn : Nat
  version : Nat
  stages : List (List Byte)
  laterMatch : Bool
  deriving DecidableEq, Repr

/-- Where a bank begins (Table 02-4). -/
def bankBase (b : Bool) : Nat := if b then 0x00C00000 else 0x00800000

/-- A byte of the store; a block of a firmware bank that nothing has written holds the firmware of manufacture (log entry 15). -/
def State.storeByte (s : State) (a : Nat) : Byte :=
  if 0x00800000 ≤ a && a < 0x01000000 && !s.dir.fwWritten.contains (a / 64) then Config.factoryFirmware (a % 0x400000) else byteAt s.nvs a

/-- Bytes of a bank. -/
def State.bankBytes (s : State) (b : Bool) (o n : Nat) : List Byte := (List.range n).map fun i => s.storeByte (bankBase b + o + i)

/-- No block of a bank has been written since manufacture. -/
def State.bankMade (s : State) (b : Bool) : Bool := s.dir.fwWritten.all fun k => decide (64 * k < bankBase b) || decide (bankBase b + 0x400000 ≤ 64 * k)

/-- The SHA-384 of stage i as its entry places it, and the digest the entry holds (Table 14-4). -/
def State.stageDigests (s : State) (b : Bool) (i : Nat) : List Byte × List Byte :=
  let e := s.bankBytes b (32 + 56 * i) 56
  (sha384 (s.bankBytes b (leNat (e.take 4)) (min (leNat ((e.drop 4).take 4)) 0x400000)), e.drop 8)

/-- A bank as the boot ROM and stage 1 find it; `sig` says that SIGNATURE verifies. A bank of manufacture is signed and passes as R6 gives, whatever `sig`
says (log entry 15). STAGES outside 1 to 8 is taken as the nearer of the two (log entry 87). -/
def State.bank (s : State) (b : Bool) (sig : Bool) : Bank :=
  let invalid := if b then s.dir.bankInvalid1 else s.dir.bankInvalid0
  if s.bankMade b then
    { passes := !invalid && decide (s.sealed.floor ≤ Config.factorySvn), svn := Config.factorySvn, version := Config.factoryVersion
      stages := Config.factoryStages, laterMatch := true }
  else
    let n := max 1 (min (leNat (s.bankBytes b 5 1)) 8)
    let svn := leNat (s.bankBytes b 4 1)
    let first := s.stageDigests b 0
    { passes := sig && !invalid && leNat (s.bankBytes b 0 4) = 0x46574231 && decide (s.sealed.floor ≤ svn) && first.1 = first.2
      svn := svn, version := leNat (s.bankBytes b 8 4), stages := (List.range n).map fun i => (s.stageDigests b i).2
      laterMatch := (List.range n).all fun i => (s.stageDigests b i).1 = (s.stageDigests b i).2 }

/-- The bank that is booted: the higher SVN, then the higher VERSION, then F0; none when neither passes. -/
def chooseBank (f0 f1 : Bank) : Option Bool :=
  match f0.passes, f1.passes with
  | false, false => none
  | true, false => some false
  | false, true => some true
  | true, true => some (decide (f0.svn < f1.svn) || (f0.svn = f1.svn && decide (f0.version < f1.version)))

/-- The straps as MR2 takes them (Table 14-5, R676). -/
def Straps.bits (x : Straps) : Nat := (if x.cp0I3c then 1 else 0) + (if x.cp1I3c then 2 else 0) + 4 * (x.cpSa % 4) + 16 * (x.refSel % 256)

/-- The configuration record of MR2. -/
def State.configRecord (s : State) : List Byte :=
  leBytes 4 s.sealed.domain ++ leBytes 1 s.sealed.rank ++ leBytes 1 s.sealed.floor ++ leBytes 1 s.sealed.priv ++ [0] ++ leBytes 4 s.sealed.ceiling ++
    leBytes 2 s.modes.bootStraps.bits ++ leBytes 1 (s.get PKG_ID.PART) ++ leBytes 2 (s.get PKG_ID.STEPPING)

/-- The SHA-384 of stage 1 of a bank as it lies in the store now (R598). -/
def State.stageOne (s : State) (b : Bool) : List Byte := if s.bankMade b then Config.factoryStages.headD [] else (s.stageDigests b 0).1

/-- The boot ROM of keeper k starts stage 1 of bank b, when its SHA-384 is what MR0 was extended by (R598). -/
def State.startKeeper (s : State) (b : Bool) (k : Nat) : State :=
  let runs := sha384 (List.replicate 48 0 ++ s.stageOne b) = s.mrOf 0
  { s with keeperRun := tabPut (fun _ => none) s.keeperRun k (if runs then some b else none) }

/-- The keepers of healthy dies that passed their self-check start the bank that the lead verified (R51, R598). -/
def State.startKeepers (s : State) (b : Bool) : State :=
  ((List.range 8).filter fun k => s.healthy (k / 2) && s.keeperOk k).foldl (fun (s : State) k => s.startKeeper b k) s

/-- A keeper that is not the lead's restarts from its firmware bank (R569, R598). -/
def State.restartKeeper (s : State) (k : Nat) : State :=
  match tabGet (fun _ => none) s.keeperRun k with
  | some b => s.startKeeper b k
  | none => s

/-- Entry to M11 in M2. No event source names the cause, so HALT_SRC is left open (log entry 16). -/
def State.bootHalt (s : State) : State := s.tookFree.halt (s.free % 8192)

/-- A bank boots: what PKG_FW shows, MR0 to MR2, the seal log's recovery, and M3 with its first image source. -/
def State.bootBank (s : State) (b : Bool) (x other : Bank) : State :=
  let s := (((s.set PKG_FW.VERSION x.version).set PKG_FW.SVN x.svn).set PKG_FW.FLOOR s.sealed.floor).setFlag PKG_FW.OTHER_PASSED other.passes
  let s := s.setFlag PKG_FW.BANK b
  let s := s.extendMr 0 (x.stages.headD [])
  if !x.laterMatch then s.bootHalt
  else
    let s := (x.stages.drop 1).foldl (fun (s : State) d => s.extendMr 1 d) s
    let s := s.extendMr 2 (sha384 s.configRecord)
    ((s.startKeepers b).recoverSeal.enterMode 3).chooseSource

/-- FIRMWARE_VERIFIED (R597): `sig0` and `sig1` say which banks' signatures verify. -/
def execFirmwareVerified (sig0 sig1 : Bool) (s₀ : State) : Host.Outcome State Fault Refusal :=
  let s := beginStep s₀
  finish s₀ (
    if s.mode ≠ 2 then s
    else
      let f0 := s.bank false sig0
      let f1 := s.bank true sig1
      match chooseBank f0 f1 with
      | none => s.bootHalt
      | some b => s.bootBank b (if b then f1 else f0) (if b then f0 else f1))

/-! ### Watchdogs (R569) -/

/-- WATCHDOG_KICK (R569). -/
def execWatchdogKick (k : Nat) (s₀ : State) : Host.Outcome State Fault Refusal :=
  let s := beginStep s₀
  finish s₀ (if s.mode < 2 || 2 * s.numDies ≤ k then s else { s with kickAt := tabPut (fun _ => 0) s.kickAt k s.now })

/-- KEEPER_WATCHDOG_EXPIRY (R569). A KICK in the cycle of expiry does not prevent it; either way the timeout starts again. -/
def execKeeperWatchdogExpiry (k : Nat) (_kicked : Bool) (s₀ : State) : Host.Outcome State Fault Refusal :=
  let s := beginStep s₀
  finish s₀ (
    if s.mode < 2 || 2 * s.numDies ≤ k then s
    else
      let s := s.waitUntil (tabGet (fun _ => 0) s.kickAt k + 16000000 * s.get (DIE_KEEPER_WDT.TIMEOUT k))
      let s : State := { s with kickAt := tabPut (fun _ => 0) s.kickAt k s.now }
      let s := (s.bump (DIE_KEEPER_WDT.EXPIRIES k)).raise (srcDie (k / 2) (8 + k % 2)) 0
      if s.flag PKG_LEAD.LEAD_VALID && s.get PKG_LEAD.LEAD_KEEPER = k then s.leadChange else s.restartKeeper k)

/-! ### Clocks -/

/-- The clusters of a region that have a port (R677). -/
def State.portClusters (s : State) (g : Nat) : List Nat :=
  (regionClusters g).filter fun c => (clusterLanes c).any fun l => (s.lanePort l).isSome

/-- REFERENCE_CLOCK_LOSS (R677). -/
def execReferenceClockLoss (g : Nat) (s₀ : State) : Host.Outcome State Fault Refusal :=
  let s := beginStep s₀
  finish s₀ (
    let s : State := { s with modes := { s.modes with refclkBad := withBit s.modes.refclkBad g } }
    (s.portClusters g).foldl (fun (s : State) c => (s.setLive (srcCluster c 41) 1 true).raise (srcCluster c 41) 1) s)

/-- REFERENCE_CLOCK_RETURN (R677). -/
def execReferenceClockReturn (g : Nat) (s₀ : State) : Host.Outcome State Fault Refusal :=
  let s := beginStep s₀
  finish s₀ (
    let s : State := { s with modes := { s.modes with refclkBad := withoutBit s.modes.refclkBad g } }
    (regionClusters g).foldl (fun (s : State) c => s.setLive (srcCluster c 41) 1 false) s)

/-- TIME_PULSE (R686): at the next multiple of 1 ms of fabric time, once TIME_STEPPED is set. -/
def execTimePulse (s₀ : State) : Host.Outcome State Fault Refusal :=
  let s := beginStep s₀
  finish s₀ (
    if !s.bitOf PKG_MODE.JOIN 4 then s
    else
      let s := s.waitUntil ((s.now / 16000000 + 1) * 16000000)
      (s.emit (.pin pinTimePulse true)).emit (.pin pinTimePulse false))

/-- TIME_BASE_OUT_OF_STEP (R450): a cluster's copy, or a die's time-base master. -/
def execTimeBaseOutOfStep (cluster : Bool) (i : Nat) (s₀ : State) : Host.Outcome State Fault Refusal :=
  let s := beginStep s₀
  finish s₀ (if cluster then s.raise (srcCluster i 41) 2 else s.raise (srcDie i 6) 0)

end Sys2Proof.Machine
end

