-- ==== Sys2Proof/Machine/Events.lean ====
section
/-! DEFINITION. What carries events out of the package (R463 to R477, R555, R556): the closing of fault records, the pop windows, the notices
of the control ports and the event rings of host partitions. -/

namespace Sys2Proof.Machine

/-- FAULT_RECORD_CLOSE (R463): the actions are in force, and 1 µs has passed since the record opened. -/
def execFaultRecordClose (scope : Nat) (s₀ : State) : Host.Outcome State Fault Refusal :=
  let s := beginStep s₀
  finish s₀ (match s.openRecord scope with
    | none => s
    | some r => (s.waitUntil (r.opened + 16000)).closeRecord r)

/-! ### Control ports tell their controllers (R556) -/

/-- A control port is strapped to I3C (R547). -/
def State.isI3c (s : State) (n : Nat) : Bool := if n = 0 then s.modes.bootStraps.cp0I3c else s.modes.bootStraps.cp1I3c

/-- What a control port keeps beside its registers. -/
def State.cport (s : State) (n : Nat) : ControlPort := tabGet (fun _ => {}) s.ports n

/-- Replace what a control port keeps. -/
def State.setCport (s : State) (n : Nat) (x : ControlPort) : State := { s with ports := tabPut (fun _ => {}) s.ports n x }

/-- An interrupt of a control port: an MSI-X vector, or an IBI whose data byte is the vector plus one. -/
def State.interruptCp (s : State) (n vector : Nat) : State :=
  if s.flag (PKG_CP_STATE.LINK_UP n) then s.emit (.cpInterrupt n (if s.isI3c n then vector + 1 else vector)) else s

/-- The least time between two notices of a queue: 1 µs, or 100 µs on I3C. -/
def State.noticeGap (s : State) (n : Nat) : Nat := if s.isI3c n then 1600000 else 16000

/-- The port notifies its controller while its queue holds an entry, within the rate limit. -/
def State.notify (s : State) (n : Nat) : State :=
  let soon := match (s.cport n).notified with
    | some t => decide (s.now < t + s.noticeGap n)
    | none => false
  if (s.queue (.controlPort n)).items.isEmpty || soon then s
  else (s.setCport n { s.cport n with notified := some s.now }).interruptCp n 0

/-- CP_EVENT_NOTIFY (R556): the limit of the last notice has passed. -/
def execCpEventNotify (n : Nat) (s₀ : State) : Host.Outcome State Fault Refusal :=
  let s := beginStep s₀
  finish s₀ (if 2 ≤ n || (s.queue (.controlPort n)).items.isEmpty then s
    else
      let s := match (s.cport n).notified with
        | some t => s.waitUntil (t + s.noticeGap n)
        | none => s
      s.notify n)

/-! ### Pop windows (R465, R535, R556, R570, R645, R653) -/

/-- The head of a queue leaves it (R434, R464). -/
def State.popQueue (s : State) (k : QueueId) : State × Option QueueItem :=
  let (q, i, placed) := (s.queue k).pop
  let s := (s.setQueue k q).showUsed k
  (if placed then s.markPlaced k else s, i)

/-- The queue holds entries with a KIND field (R535). -/
def QueueId.kinded : QueueId → Bool
  | .keepers _ | .controlPort _ | .partition _ => true
  | _ => false

/-- The words of an item as a window presents them: an entry, or a weir mark in the queue's own form (Tables 10-17 and 12-3). -/
def QueueItem.words (kinded : Bool) : QueueItem → List Nat
  | .entry ws => ws
  | .mark n first last =>
    if kinded then [entryWord0 5 0 0 0 0 0 false 0, last, n, 0] else [2 ^ 64 - 1, n, first, last]

/-- The queue a pop window serves. -/
def PopWindow.queue : PopWindow → QueueId
  | .fault d => .fault d
  | .bittern d => .bittern d
  | .surrogate d => .surrogate d
  | .keepers d => .keepers d
  | .telemetry d => .telemetry d
  | .partition p => .partition p
  | .controlPort n => .controlPort n

/-- Where word k of a pop window is held (Tables 17-3 and 17-7). -/
def PopWindow.word (k : Nat) : PopWindow → Nat
  | .fault d => EVT_LATCH.addr d k
  | .bittern d => EVT_LATCH.addr d (8 + k)
  | .surrogate d => EVT_LATCH.addr d (16 + k)
  | .keepers d => EVT_LATCH.addr d (24 + k)
  | .telemetry d => EVT_LATCH.addr d (32 + k)
  | .partition p => EVT_PQ.addr (p / 64) (p % 64) k
  | .controlPort n => PKG_CP_EVQ.addr n k

/-- The words of a pop window. -/
def PopWindow.size : PopWindow → Nat
  | .fault _ | .bittern _ | .surrogate _ => 8
  | _ => 4

/-- The window and the word that a control-space offset names; a window that names no PU port is reserved space (R653). -/
def State.popAt (s : State) (a : Nat) : Option (PopWindow × Nat) :=
  match blockOf a with
  | .package o =>
    if 0x6040 ≤ o && o < 0x6060 then some (.controlPort 0, (o - 0x6040) / 8)
    else if 0x6840 ≤ o && o < 0x6860 then some (.controlPort 1, (o - 0x6840) / 8)
    else none
  | .die d o =>
    if 0x2000 ≤ o && o < 0x2120 then
      let i := (o - 0x2000) / 8
      some (if i < 8 then (.fault d, i) else if i < 16 then (.bittern d, i - 8) else if i < 24 then (.surrogate d, i - 16)
        else if i < 32 then (.keepers d, i - 24) else (.telemetry d, i - 32))
    else if 0x3000 ≤ o && o < 0x3800 then
      let p := 64 * d + (o - 0x3000) / 32
      if s.isPu p then some (.partition p, (o - 0x3000) % 32 / 8) else none
    else none
  | _ => none

/-- Word 0 of a window is read: the head item is removed and its other words are latched (R465). On an empty queue, and at EVT_PQ while the
partition's ring is in use (R477), the read returns the not-valid tag and the latched words stay (log entry 39). -/
def State.popRead (s : State) (w : PopWindow) : State × Nat :=
  let ring := match w with
    | .partition p => (tabGet (fun _ => ({} : Ring)) s.rings p).enable
    | _ => false
  if ring then (s, notValid)
  else
    let (s, i) := s.popQueue w.queue
    match i with
    | none => (s, notValid)
    | some i =>
      let ws := i.words w.queue.kinded
      let s := (List.range w.size).foldl (fun (s : State) k => s.wr (w.word k) (BitVec.ofNat 64 (ws.getD k 0))) s
      let s : State := match w with
        | .controlPort n => s.notify n
        | _ => s
      (s, ws.getD 0 0)

/-! ### The event ring of a vUSP (Table 10-18, R475 to R477) -/

/-- The ring of a PU port. -/
def State.ring (s : State) (p : Nat) : Ring := tabGet (fun _ => {}) s.rings p

/-- Replace the ring of a PU port. -/
def State.setRing (s : State) (p : Nat) (r : Ring) : State := { s with rings := tabPut (fun _ => {}) s.rings p r }

/-- Entries of the ring: 2^LOG_SIZE, with other values than 6 to 16 acting as 6. -/
def Ring.size (r : Ring) : Nat := if 6 ≤ r.logSize && r.logSize ≤ 16 then 2 ^ r.logSize else 64

/-- MSI-X vector 1 of the vUSP, when the host has enabled it, no sooner than 1 µs after the last (R476). -/
def State.raiseRing (s : State) (p : Nat) : State :=
  if !(s.vport p 0).vectors.testBit 1 then s
  else
    let s := match (s.ring p).raised with
      | some t => s.waitUntil (t + 16000)
      | none => s
    (s.setRing p { s.ring p with raised := some s.now }).emit (.hostInterrupt p 0 1)

/-- EVENT_RING_WRITE (R475, R476): the oldest entry of the partition's queue is written at BASE + 32 × TAIL. The write is taken as admitted
and placed in this step (log entry 40). -/
def execEventRingWrite (p : Nat) (s₀ : State) : Host.Outcome State Fault Refusal :=
  let s := beginStep s₀
  let r := s.ring p
  let next := (r.tail + 1) % r.size
  finish s₀ (if !s.isPu p || !r.enable || s.get (PORT_PCIE.LINK_STATE p) ≠ 3 || s.flag (PORT_CONTAIN.CONTAINED p) || !s.gateOpen p ||
      next = r.head % r.size then s
    else match s.popQueue (.partition p) with
      | (_, none) => s
      | (t, some i) =>
        let ws := i.words true
        let t := t.sendTlp p { kind := .memWrite, addr := r.base + 32 * r.tail, len := 32, firstBe := 15, lastBe := 15
                               reqId := 256 * (t.virtGet p 0 6 % 256), data := (List.range 4).flatMap fun k => leBytes 8 (ws.getD k 0) }
        (t.setRing p { t.ring p with tail := next }).raiseRing p)

/-- HEAD is written: vector 1 is raised again while the ring holds an entry that the host has not consumed (R476). -/
def State.ringHead (s : State) (p head : Nat) : State :=
  let s := s.setRing p { s.ring p with head := head % 65536 }
  let r := s.ring p
  if r.enable && r.head % r.size ≠ r.tail then s.raiseRing p else s

/-- ENABLE falls: HEAD and TAIL return to 0, and entries stay queued (R477). -/
def State.ringOff (s : State) (p : Nat) : State :=
  if (s.ring p).enable then s.setRing p { s.ring p with enable := false, head := 0, tail := 0 } else s

/-- EVENT_RING_HEAD_WRITE (R476). -/
def execEventRingHeadWrite (p head : Nat) (s₀ : State) : Host.Outcome State Fault Refusal :=
  let s := beginStep s₀
  finish s₀ (if s.isPu p then s.ringHead p head else s)

/-- EVENT_RING_DISABLE (R477). -/
def execEventRingDisable (p : Nat) (s₀ : State) : Host.Outcome State Fault Refusal :=
  let s := beginStep s₀
  finish s₀ (if s.isPu p then s.ringOff p else s)

/-- A register of the ring, at offset 4 × i of the capability. -/
def State.ringRead (s : State) (p i : Nat) : Option Nat :=
  let r := s.ring p
  if i = 3 then some (r.base % 2 ^ 32)
  else if i = 4 then some (r.base / 2 ^ 32)
  else if i = 5 then some ((if r.enable then 2 ^ 31 else 0) + r.logSize)
  else if i = 6 then some r.head
  else if i = 7 then some r.tail
  else if i = 8 then some (min ((s.queue (.partition p)).dropped - r.dropped0) (2 ^ 32 - 1))
  else none

/-- A write of a register of the ring (R477). ENABLE that rises starts DROPPED anew. -/
def State.ringWrite (s : State) (p i v : Nat) : State :=
  let r := s.ring p
  if i = 3 then (if r.enable then s else s.setRing p { r with base := r.base / 2 ^ 32 * 2 ^ 32 + v % 2 ^ 32 / 4096 * 4096 })
  else if i = 4 then (if r.enable then s else s.setRing p { r with base := r.base % 2 ^ 32 + v % 2 ^ 32 * 2 ^ 32 })
  else if i = 5 then
    if v.testBit 31 then
      if r.enable then s
      else s.setRing p { r with enable := true, logSize := v % 32, dropped0 := (s.queue (.partition p)).dropped }
    else
      let s := s.ringOff p
      if r.enable then s else s.setRing p { s.ring p with logSize := v % 32 }
  else if i = 6 then s.ringHead p v
  else s

end Sys2Proof.Machine
end

