-- ==== Sys2Proof/Machine/Isa.lean ====
section
/-! DEFINITION. The transaction engines (R69 to R74): items, timer, watchdog, faults, and the instructions of Table 01-11. An instruction command
is one instruction of engine te retiring, when it is the one that the program word at the program counter spells (log entry 34). -/

namespace Sys2Proof.Machine

/-! ### General registers and data memory (R69) -/

/-- A general register; G0 reads as zero. -/
def Engine.reg (e : Engine) (n : Nat) : Word := if n = 0 then 0 else tabGet (fun _ => 0) e.g n

/-- Write a general register; a write to G0 is discarded. -/
def Engine.setReg (e : Engine) (n : Nat) (v : Word) : Engine := if n = 0 then e else { e with g := tabPut (fun _ => 0) e.g n v }

/-- The next word follows the present one. -/
def Engine.next (e : Engine) : Engine := { e with pc := e.pc + 1, retired := e.retired + 1 }

/-- The next word is named. -/
def Engine.jump (e : Engine) (pc : BitVec 12) : Engine := { e with pc := pc, retired := e.retired + 1 }

/-- The most instructions a handler retires without a WAIT (R73). -/
def handlerLimit : Nat := 1048576

/-- The word at the program counter of an engine is uncorrectable (R73, R478). -/
def State.wordLost (s : State) (te : Nat) : Bool := s.wordState (programAddr te ((s.engine te).pc.toNat / 2 * 8)) = 2

/-- The engine retires instructions: its handler runs, within the watchdog, no SEND of its own waits for admission, and the word at its program counter is not
uncorrectable (R72, R73). -/
def State.engineRuns (s : State) (te : Nat) : Bool :=
  (s.engine te).run = .running && decide ((s.engine te).retired < handlerLimit) && (s.ingressQ (ingressKey (1024 + te) 0)).isEmpty && !s.wordLost te

/-- An instruction of Table 01-11, with the fields of its word: D, A and B as register numbers and its immediate value. -/
inductive EngineOp where
  | wait
  | li (d : Nat) (imm : BitVec 18) | lix (d : Nat) (imm : BitVec 18)
  | add (d a b : Nat) | sub (d a b : Nat) | and (d a b : Nat) | or (d a b : Nat) | xor (d a b : Nat) | shl (d a b : Nat) | shr (d a b : Nat)
  | addi (d a : Nat) (imm : BitVec 14) | andi (d a : Nat) (imm : BitVec 14) | shli (d a : Nat) (imm : BitVec 14) | shri (d a : Nat) (imm : BitVec 14)
  | swap (d a : Nat) (imm : BitVec 14)
  | ld8 (d a : Nat) (imm : BitVec 14) | ld16 (d a : Nat) (imm : BitVec 14) | ld32 (d a : Nat) (imm : BitVec 14) | ld64 (d a : Nat) (imm : BitVec 14)
  | st8 (d a : Nat) (imm : BitVec 14) | st16 (d a : Nat) (imm : BitVec 14) | st32 (d a : Nat) (imm : BitVec 14) | st64 (d a : Nat) (imm : BitVec 14)
  | beq (a b : Nat) (imm : BitVec 14) | bne (a b : Nat) (imm : BitVec 14) | bltu (a b : Nat) (imm : BitVec 14) | bgeu (a b : Nat) (imm : BitVec 14)
  | jmp (imm : BitVec 18) | call (imm : BitVec 18) | jr (a : Nat)
  | send (a : Nat) | issue (a : Nat) | reply (a b : Nat)
  | time (d : Nat) | timer (a : Nat)
  | amoFetchadd (d a b : Nat) | amoSwap (d a b : Nat) | amoCas (d a b : Nat)
  | raise
  deriving DecidableEq, Repr

/-- The instruction that a program word spells by Table 01-11: its OP exists and its unused fields are zero. What a reserved immediate value
does is the instruction's. -/
def engineDecode (w : Nat) : Option EngineOp :=
  let d := w / 2 ^ 22 % 16
  let a := w / 2 ^ 18 % 16
  let b := w / 2 ^ 14 % 16
  let i := BitVec.ofNat 14 w
  let j := BitVec.ofNat 18 w
  let none3 := i = 0
  let onlyD := a = 0 && b = 0 && i = 0
  let onlyA := d = 0 && b = 0 && i = 0
  let give := fun (ok : Bool) (c : EngineOp) => if ok then some c else none
  match w / 2 ^ 26 with
  | 0x00 => give (w = 0) .wait
  | 0x01 => give (a = 0) (.li d j)
  | 0x02 => give (a = 0) (.lix d j)
  | 0x03 => give none3 (.add d a b)
  | 0x04 => give none3 (.sub d a b)
  | 0x05 => give none3 (.and d a b)
  | 0x06 => give none3 (.or d a b)
  | 0x07 => give none3 (.xor d a b)
  | 0x08 => give none3 (.shl d a b)
  | 0x09 => give none3 (.shr d a b)
  | 0x0A => give (b = 0) (.addi d a i)
  | 0x0B => give (b = 0) (.andi d a i)
  | 0x0C => give (b = 0) (.shli d a i)
  | 0x0D => give (b = 0) (.shri d a i)
  | 0x0E => give (b = 0) (.swap d a i)
  | 0x10 => give (b = 0) (.ld8 d a i)
  | 0x11 => give (b = 0) (.ld16 d a i)
  | 0x12 => give (b = 0) (.ld32 d a i)
  | 0x13 => give (b = 0) (.ld64 d a i)
  | 0x14 => give (b = 0) (.st8 d a i)
  | 0x15 => give (b = 0) (.st16 d a i)
  | 0x16 => give (b = 0) (.st32 d a i)
  | 0x17 => give (b = 0) (.st64 d a i)
  | 0x18 => give (d = 0) (.beq a b i)
  | 0x19 => give (d = 0) (.bne a b i)
  | 0x1A => give (d = 0) (.bltu a b i)
  | 0x1B => give (d = 0) (.bgeu a b i)
  | 0x1C => give (d = 0 && a = 0) (.jmp j)
  | 0x1D => give (d = 0 && a = 0) (.call j)
  | 0x1E => give onlyA (.jr a)
  | 0x20 => give onlyA (.send a)
  | 0x21 => give onlyA (.issue a)
  | 0x22 => give (d = 0 && i = 0) (.reply a b)
  | 0x23 => give onlyD (.time d)
  | 0x24 => give onlyA (.timer a)
  | 0x25 => if i = 0 then some (.amoFetchadd d a b) else if i = 1 then some (.amoSwap d a b) else if i = 2 then some (.amoCas d a b) else none
  | 0x26 => give (w % 2 ^ 26 = 0) .raise
  | _ => none

/-- The instruction at the program counter of an engine; none where the word does not decode (R71, R73). -/
def State.fetched (s : State) (te : Nat) : Option EngineOp :=
  engineDecode (tabGet (fun _ => 0) s.program (4096 * te + (s.engine te).pc.toNat)).toNat

/-- An instruction command acts when it is the instruction at the program counter (R69, log entry 34). -/
def State.fetch (s : State) (te : Nat) (i : EngineOp) (f : State → State) : State := if s.fetched te = some i then f s else s

/-- An instruction of a running engine. -/
def State.instruct (s : State) (te : Nat) (f : State → Engine → State) : State := if s.engineRuns te then (f s (s.engine te)).countCl (te / 8) 0x1C 1 fun q => maskHas q 0 8 (te % 8) else s

/-- The item is abandoned and the engine returns to WAIT: cause `cause` of its source sets (R73). -/
def State.abandon (s : State) (te cause : Nat) : State := (s.raise (srcEngine te) cause).nextItem te

/-- An illegal instruction (R73). -/
def State.illegal (s : State) (te : Nat) : State := s.abandon te 0

/-- A register takes a value. -/
def State.alu (s : State) (te rd : Nat) (f : Engine → Word) : State :=
  s.instruct te fun s e => s.setEngine te ((e.setReg rd (f e)).next)

/-- The n bytes at a data address, least significant first (R69). -/
def State.dataAt (s : State) (te a n : Nat) : Nat := leNat (bytesAt s.dataMem (dataKey te a) n)

/-- What the check bits of a data word that is read do: an uncorrectable word reads as all ones and sets cause 3, a corrected one sets cause 4
(R656, Table 10-4). -/
def State.readData (s : State) (te a n : Nat) : State × Nat :=
  let w := s.wordState (dataAddr te (a / 8 * 8))
  if w = 2 then (s.raise (srcEngine te) 3, 2 ^ (8 * n) - 1)
  else if w = 1 then (s.raise (srcEngine te) 4, s.dataAt te a n)
  else (s, s.dataAt te a n)

/-- Write n bytes at a data address. -/
def State.putData (s : State) (te a n v : Nat) : State := s.putEngine te a (leBytes n v)

/-- A data address within the memory and aligned to its size (R73). -/
def dataOk (a n : Nat) : Bool := decide (a + n ≤ 32768) && decide (a % n = 0)

/-- A + IMM14, sign-extended (log entry 35). -/
def Engine.dataAddr (e : Engine) (ra : Nat) (imm : BitVec 14) : Nat := (e.reg ra + imm.signExtend 64).toNat

/-- LD of n bytes. -/
def State.loadData (s : State) (te rd ra : Nat) (imm : BitVec 14) (n : Nat) : State :=
  s.instruct te fun s e =>
    let a := e.dataAddr ra imm
    if dataOk a n then
      let (s, v) := s.readData te a n
      s.setEngine te ((e.setReg rd (BitVec.ofNat 64 v)).next)
    else s.illegal te

/-- ST of n bytes. -/
def State.storeData (s : State) (te rd ra : Nat) (imm : BitVec 14) (n : Nat) : State :=
  s.instruct te fun s e =>
    let a := e.dataAddr ra imm
    if dataOk a n then (s.putData te a n (e.reg rd).toNat).setEngine te e.next else s.illegal te

/-- A branch. -/
def State.branch (s : State) (te : Nat) (imm : BitVec 14) (f : Engine → Bool) : State :=
  s.instruct te fun s e => s.setEngine te (if f e then e.jump (e.pc + BitVec.ofNat 12 imm.toNat) else e.next)

/-- AMO on the 8 bytes at A (R71, R331): D takes the old value. -/
def State.amo (s : State) (te rd ra : Nat) (f : Engine → Word → Word) : State :=
  s.instruct te fun s e =>
    let a := (e.reg ra).toNat
    if dataOk a 8 then
      let (s, v) := s.readData te a 8
      let old := BitVec.ofNat 64 v
      (s.putData te a 8 (f e old).toNat).setEngine te ((e.setReg rd old).next)
    else s.illegal te

/-- A value with its bytes reversed within each aligned element of 2^k bytes (R280). -/
def swapBytes (k : Nat) (v : Word) : Word :=
  let n := 2 ^ k
  BitVec.ofNat 64 (leNat ((List.range 8).map fun i => (leBytes 8 v.toNat).getD (i - i % n + (n - 1 - i % n)) 0))

/-! ### Items -/

/-- The header of a TLP in Flit-mode form is that of a posted request: a memory write, a message, or a message with data (PRESUMED, log entry 13). -/
def postedHeader (h : List Byte) : Bool :=
  let ty := (h.headD 0).toNat
  ty = 0x40 || ty = 0x60 || within 0x30 ty 0x37 || within 0x70 ty 0x77

/-- Where the answer to an item goes: a Burek request's source, or the requester of a TLP of the engine's port (R72). The tag of a TLP stands in
the low 14 bits of its second header DW (log entry 13). -/
def EngineItem.replyTo (i : EngineItem) : ReplyTo :=
  if i.kind = 1 then
    let w := fun (k : Nat) => leNat ((i.header.drop (8 * k)).take 8)
    let k := headerOf (w 0) (w 1) (w 2) (w 3)
    if k.nonPosted then .burek { k with payload := i.payload } else .none
  else if i.kind = 3 || (i.kind = 4 && !postedHeader i.header) then .pcie (i.port % 1024) (beNat ((i.header.drop 4).take 4) % 16384) i.requester (i.kind = 3)
  else .none

/-- The outstanding request of a PCI Express requester that an item carried. -/
def State.owedItem (s : State) (p tag req : Nat) : Option Outstanding :=
  s.outstanding.find? fun o => o.port = p && !o.admitted && !o.answered && o.noWin && o.ptype = 0 && o.tlp.any fun t => t.tag = tag && t.reqId = req

/-- The engine exists in this part. -/
def State.hasEngine (s : State) (te : Nat) : Bool := decide (te < 8 * s.numClusters)

/-- An item of more than 256 bytes, which no engine takes: a request is answered NOT-MAPPED, or Unsupported Request to a PCI Express requester, and a posted one
is dropped and logged as Unsupported Request at its port (R70). -/
def State.itemTooLong (s : State) (te : Nat) (i : EngineItem) : State :=
  match i.replyTo with
  | .burek k => s.answerTo (te / 8) k stNotMapped [] false
  | .pcie p tag req _ => (s.sendTlp p { kind := .completion CplStatus.ur.code, reqId := s.fabricId p, tag := tag, target := req }).logAer p aerUnsupported none
  | .none => if i.kind = 3 || i.kind = 4 then s.logAer (i.port % 1024) aerUnsupported none else s

/-- ENGINE_ITEM_ARRIVAL (R70): an item of more than 256 bytes is never delivered, and one that finds the queue full waits where it is. -/
def execEngineItemArrival (te : Nat) (item : EngineItem) (s₀ : State) : Host.Outcome State Fault Refusal :=
  let s := beginStep s₀
  finish s₀ (if s.hasEngine te && decide (256 < item.payload.length) && decide (item.kind < 7) then s.itemTooLong te item
    else if s.hasEngine te && s.itemRoom te && decide (item.kind < 7) then
      (if (s.engine te).run = .halted then s else s.oweItem item.replyTo).pushItem te item item.replyTo
    else s)

/-- ENGINE_TIMER_EXPIRY (R71, Table 01-10). -/
def execEngineTimerExpiry (te : Nat) (s₀ : State) : Host.Outcome State Fault Refusal :=
  let s := beginStep s₀
  finish s₀ (match (s.engine te).timer with
    | none => s
    | some t =>
      if s.itemRoom te then
        let s := s.waitUntil t
        (s.setEngine te { s.engine te with timer := none }).pushItem te { kind := 6 } .none
      else s)

/-- HANDLER_WATCHDOG (R73): the handler has retired 1,048,576 instructions without a WAIT. -/
def execHandlerWatchdog (te : Nat) (s₀ : State) : Host.Outcome State Fault Refusal :=
  let s := beginStep s₀
  finish s₀ (if (s.engine te).run = .running && decide (handlerLimit ≤ (s.engine te).retired) then s.abandon te 1 else s)

/-- ILLEGAL_INSTRUCTION (R73): the word at the program counter does not decode, with a reserved OP or a field that must be zero. -/
def execIllegalInstruction (te : Nat) (s₀ : State) : Host.Outcome State Fault Refusal :=
  let s := beginStep s₀
  finish s₀ (if s.fetched te = none then s.instruct te fun s _ => s.illegal te else s)

/-- PROGRAM_WORD_UNCORRECTABLE (R73): the engine halts, and its items are discarded. -/
def execProgramWordUncorrectable (te : Nat) (s₀ : State) : Host.Outcome State Fault Refusal :=
  let s := beginStep s₀
  finish s₀ (if (s.engine te).run = .running then (s.raise (srcEngine te) 2).setEngine te { (s.engine te).ended with run := .halted, queue := [] } else s)

/-! ### Instructions (Table 01-11) -/

/-- WAIT (R70): of a running engine, or of one that stands at it. -/
def execWait (te : Nat) (s₀ : State) : Host.Outcome State Fault Refusal :=
  let s := beginStep s₀
  finish s₀ (if (s.engineRuns te && s.fetched te = some .wait) || (s.engine te).run = .waiting then s.nextItem te else s)

/-- LI (R71). -/
def execLi (te rd : Nat) (imm : BitVec 18) (s₀ : State) : Host.Outcome State Fault Refusal :=
  finish s₀ ((beginStep s₀).fetch te (.li rd imm) fun s => s.alu te rd fun _ => imm.signExtend 64)

/-- LIX (R71). -/
def execLix (te rd : Nat) (imm : BitVec 18) (s₀ : State) : Host.Outcome State Fault Refusal :=
  finish s₀ ((beginStep s₀).fetch te (.lix rd imm) fun s => s.alu te rd fun e => (e.reg rd <<< 16) ||| BitVec.ofNat 64 (imm.toNat % 65536))

/-- ADD (R71). -/
def execAdd (te rd ra rb : Nat) (s₀ : State) : Host.Outcome State Fault Refusal :=
  finish s₀ ((beginStep s₀).fetch te (.add rd ra rb) fun s => s.alu te rd fun e => e.reg ra + e.reg rb)

/-- SUB (R71). -/
def execSub (te rd ra rb : Nat) (s₀ : State) : Host.Outcome State Fault Refusal :=
  finish s₀ ((beginStep s₀).fetch te (.sub rd ra rb) fun s => s.alu te rd fun e => e.reg ra - e.reg rb)

/-- AND (R71). -/
def execAnd (te rd ra rb : Nat) (s₀ : State) : Host.Outcome State Fault Refusal :=
  finish s₀ ((beginStep s₀).fetch te (.and rd ra rb) fun s => s.alu te rd fun e => e.reg ra &&& e.reg rb)

/-- OR (R71). -/
def execOr (te rd ra rb : Nat) (s₀ : State) : Host.Outcome State Fault Refusal :=
  finish s₀ ((beginStep s₀).fetch te (.or rd ra rb) fun s => s.alu te rd fun e => e.reg ra ||| e.reg rb)

/-- XOR (R71). -/
def execXor (te rd ra rb : Nat) (s₀ : State) : Host.Outcome State Fault Refusal :=
  finish s₀ ((beginStep s₀).fetch te (.xor rd ra rb) fun s => s.alu te rd fun e => e.reg ra ^^^ e.reg rb)

/-- SHL (R71). -/
def execShl (te rd ra rb : Nat) (s₀ : State) : Host.Outcome State Fault Refusal :=
  finish s₀ ((beginStep s₀).fetch te (.shl rd ra rb) fun s => s.alu te rd fun e => e.reg ra <<< ((e.reg rb).toNat % 64))

/-- SHR (R71). -/
def execShr (te rd ra rb : Nat) (s₀ : State) : Host.Outcome State Fault Refusal :=
  finish s₀ ((beginStep s₀).fetch te (.shr rd ra rb) fun s => s.alu te rd fun e => e.reg ra >>> ((e.reg rb).toNat % 64))

/-- ADDI (R71). -/
def execAddi (te rd ra : Nat) (imm : BitVec 14) (s₀ : State) : Host.Outcome State Fault Refusal :=
  finish s₀ ((beginStep s₀).fetch te (.addi rd ra imm) fun s => s.alu te rd fun e => e.reg ra + imm.signExtend 64)

/-- ANDI (R71). -/
def execAndi (te rd ra : Nat) (imm : BitVec 14) (s₀ : State) : Host.Outcome State Fault Refusal :=
  finish s₀ ((beginStep s₀).fetch te (.andi rd ra imm) fun s => s.alu te rd fun e => e.reg ra &&& imm.setWidth 64)

/-- SHLI (R71): IMM14[13:6] not zero is illegal. -/
def execShli (te rd ra : Nat) (imm : BitVec 14) (s₀ : State) : Host.Outcome State Fault Refusal :=
  finish s₀ ((beginStep s₀).fetch te (.shli rd ra imm) fun s => if imm.toNat < 64 then s.alu te rd fun e => e.reg ra <<< imm.toNat else s.instruct te fun s _ => s.illegal te)

/-- SHRI (R71): IMM14[13:6] not zero is illegal. -/
def execShri (te rd ra : Nat) (imm : BitVec 14) (s₀ : State) : Host.Outcome State Fault Refusal :=
  finish s₀ ((beginStep s₀).fetch te (.shri rd ra imm) fun s => if imm.toNat < 64 then s.alu te rd fun e => e.reg ra >>> imm.toNat else s.instruct te fun s _ => s.illegal te)

/-- SWAP (R71): IMM14 other than 1, 2 or 3 is illegal. -/
def execSwap (te rd ra : Nat) (imm : BitVec 14) (s₀ : State) : Host.Outcome State Fault Refusal :=
  finish s₀ ((beginStep s₀).fetch te (.swap rd ra imm) fun s => if 1 ≤ imm.toNat && imm.toNat ≤ 3 then s.alu te rd fun e => swapBytes imm.toNat (e.reg ra) else s.instruct te fun s _ => s.illegal te)

/-- LD8 (R71). -/
def execLd8 (te rd ra : Nat) (imm : BitVec 14) (s₀ : State) : Host.Outcome State Fault Refusal := finish s₀ ((beginStep s₀).fetch te (.ld8 rd ra imm) fun s => s.loadData te rd ra imm 1)

/-- LD16 (R71). -/
def execLd16 (te rd ra : Nat) (imm : BitVec 14) (s₀ : State) : Host.Outcome State Fault Refusal := finish s₀ ((beginStep s₀).fetch te (.ld16 rd ra imm) fun s => s.loadData te rd ra imm 2)

/-- LD32 (R71). -/
def execLd32 (te rd ra : Nat) (imm : BitVec 14) (s₀ : State) : Host.Outcome State Fault Refusal := finish s₀ ((beginStep s₀).fetch te (.ld32 rd ra imm) fun s => s.loadData te rd ra imm 4)

/-- LD64 (R71). -/
def execLd64 (te rd ra : Nat) (imm : BitVec 14) (s₀ : State) : Host.Outcome State Fault Refusal := finish s₀ ((beginStep s₀).fetch te (.ld64 rd ra imm) fun s => s.loadData te rd ra imm 8)

/-- ST8 (R71). -/
def execSt8 (te rd ra : Nat) (imm : BitVec 14) (s₀ : State) : Host.Outcome State Fault Refusal := finish s₀ ((beginStep s₀).fetch te (.st8 rd ra imm) fun s => s.storeData te rd ra imm 1)

/-- ST16 (R71). -/
def execSt16 (te rd ra : Nat) (imm : BitVec 14) (s₀ : State) : Host.Outcome State Fault Refusal := finish s₀ ((beginStep s₀).fetch te (.st16 rd ra imm) fun s => s.storeData te rd ra imm 2)

/-- ST32 (R71). -/
def execSt32 (te rd ra : Nat) (imm : BitVec 14) (s₀ : State) : Host.Outcome State Fault Refusal := finish s₀ ((beginStep s₀).fetch te (.st32 rd ra imm) fun s => s.storeData te rd ra imm 4)

/-- ST64 (R71). -/
def execSt64 (te rd ra : Nat) (imm : BitVec 14) (s₀ : State) : Host.Outcome State Fault Refusal := finish s₀ ((beginStep s₀).fetch te (.st64 rd ra imm) fun s => s.storeData te rd ra imm 8)

/-- BEQ (R71). -/
def execBeq (te ra rb : Nat) (imm : BitVec 14) (s₀ : State) : Host.Outcome State Fault Refusal :=
  finish s₀ ((beginStep s₀).fetch te (.beq ra rb imm) fun s => s.branch te imm fun e => e.reg ra = e.reg rb)

/-- BNE (R71). -/
def execBne (te ra rb : Nat) (imm : BitVec 14) (s₀ : State) : Host.Outcome State Fault Refusal :=
  finish s₀ ((beginStep s₀).fetch te (.bne ra rb imm) fun s => s.branch te imm fun e => e.reg ra ≠ e.reg rb)

/-- BLTU (R71). -/
def execBltu (te ra rb : Nat) (imm : BitVec 14) (s₀ : State) : Host.Outcome State Fault Refusal :=
  finish s₀ ((beginStep s₀).fetch te (.bltu ra rb imm) fun s => s.branch te imm fun e => (e.reg ra).toNat < (e.reg rb).toNat)

/-- BGEU (R71). -/
def execBgeu (te ra rb : Nat) (imm : BitVec 14) (s₀ : State) : Host.Outcome State Fault Refusal :=
  finish s₀ ((beginStep s₀).fetch te (.bgeu ra rb imm) fun s => s.branch te imm fun e => (e.reg rb).toNat ≤ (e.reg ra).toNat)

/-- JMP (R71): IMM18[17:12] not zero is illegal. -/
def execJmp (te : Nat) (imm : BitVec 18) (s₀ : State) : Host.Outcome State Fault Refusal :=
  finish s₀ ((beginStep s₀).fetch te (.jmp imm) fun s => s.instruct te fun s e => if imm.toNat < 4096 then s.setEngine te (e.jump (imm.setWidth 12)) else s.illegal te)

/-- CALL (R71): G15 takes the present word + 1. -/
def execCall (te : Nat) (imm : BitVec 18) (s₀ : State) : Host.Outcome State Fault Refusal :=
  finish s₀ ((beginStep s₀).fetch te (.call imm) fun s => s.instruct te fun s e =>
    if imm.toNat < 4096 then s.setEngine te ((e.setReg 15 (BitVec.ofNat 64 (e.pc.toNat + 1))).jump (imm.setWidth 12)) else s.illegal te)

/-- JR (R71). -/
def execJr (te ra : Nat) (s₀ : State) : Host.Outcome State Fault Refusal :=
  finish s₀ ((beginStep s₀).fetch te (.jr ra) fun s => s.instruct te fun s e => s.setEngine te (e.jump ((e.reg ra).setWidth 12)))

/-- TIME (R71, R527). -/
def execTime (te rd : Nat) (s₀ : State) : Host.Outcome State Fault Refusal :=
  finish s₀ ((beginStep s₀).fetch te (.time rd) fun s => s.alu te rd fun _ => BitVec.ofNat 64 s.now)

/-- TIMER (R71). -/
def execTimer (te ra : Nat) (s₀ : State) : Host.Outcome State Fault Refusal :=
  finish s₀ ((beginStep s₀).fetch te (.timer ra) fun s => s.instruct te fun s e =>
    s.setEngine te { e.next with timer := if e.reg ra = 0 then none else some (s.now + (e.reg ra).toNat) })

/-- AMO FetchAdd (R71). -/
def execAmoFetchadd (te rd ra rb : Nat) (s₀ : State) : Host.Outcome State Fault Refusal :=
  finish s₀ ((beginStep s₀).fetch te (.amoFetchadd rd ra rb) fun s => s.amo te rd ra fun e old => old + e.reg rb)

/-- AMO Swap (R71). -/
def execAmoSwap (te rd ra rb : Nat) (s₀ : State) : Host.Outcome State Fault Refusal :=
  finish s₀ ((beginStep s₀).fetch te (.amoSwap rd ra rb) fun s => s.amo te rd ra fun e _ => e.reg rb)

/-- AMO CAS (R71). -/
def execAmoCas (te rd ra rb : Nat) (s₀ : State) : Host.Outcome State Fault Refusal :=
  finish s₀ ((beginStep s₀).fetch te (.amoCas rd ra rb) fun s => s.amo te rd ra fun e old => if old = e.reg rd then e.reg rb else old)

/-- RAISE (R71, Table 10-4). -/
def execRaise (te : Nat) (s₀ : State) : Host.Outcome State Fault Refusal :=
  finish s₀ ((beginStep s₀).fetch te .raise fun s => s.instruct te fun s e => (s.setEngine te e.next).raise (srcEngine te) 6)

/-! ### SEND, ISSUE and REPLY (R72) -/

/-- The Burek packet in an engine's outbox. -/
def State.outboxPacket (s : State) (te : Nat) : Packet :=
  let h := fun (k : Nat) => s.dataAt te (0x7E00 + 8 * k) 8
  let k := headerOf (h 0) (h 1) (h 2) (h 3)
  { k with hops := 0, tag := if k.nonPosted then 0 else k.tag, deadline := 0, payload := bytesAt s.dataMem (dataKey te 0x7E20) k.len }

/-- Payload bytes of a packet that an engine sends: LEN of the types that carry a payload (Table 04-7). -/
def Packet.carries (k : Packet) : Nat := if k.payloadElements = 0 then 0 else k.len

/-- SRC is the engine's own endpoint or a port of its cluster (R72). -/
def State.sendSrc (s : State) (te : Nat) (k : Packet) : Bool :=
  k.src = s.fabricId (256 + te) || (s.localPort k.src).any fun p => p / 4 = te / 8

/-- SEND (R72): the packet waits at the engine's ingress for admission. DESIGN CHOICE: a LEN beyond the 480 bytes of the outbox is illegal (R73), and a packet
of a reserved TYPE or of a shape that Table 04-7 does not give is sent as it stands (log entry 66). -/
def execSend (te ra : Nat) (s₀ : State) : Host.Outcome State Fault Refusal :=
  finish s₀ ((beginStep s₀).fetch te (.send ra) fun s => s.instruct te fun s e =>
    let k := s.outboxPacket te
    let k := { k with payload := k.payload.take k.carries }
    if !s.sendSrc te k || decide (480 < k.carries) then s.illegal te
    else
      let (s, id) := s.newId
      let s := s.setEngine te e.next
      let o : Outstanding :=
        { id := id, port := 1024 + te, native := some k, ptype := k.ptype, cls := k.cls, window := k.window, noWin := k.noWin, partition := k.partition
          dest := k.dest, addr := k.addr, received := s.now, pieces := [{ tag := 0, addr := k.addr, len := k.len }], ctx := (e.reg ra).toNat % 65536 }
      let s := if k.nonPosted then { s with outstanding := s.outstanding ++ [o] } else s
      s.enqueue (ingressKey (1024 + te) 0)
        { id := id, pkts := [k], received := s.now, requester := if k.nonPosted then id else 0, order := id })

/-- The port that an engine serves as handler (R334). -/
def handlerPort (te : Nat) : Nat := 4 * (te / 8) + te % 8 / 2

/-- The TLP that an outbox asks for (R72): a message's code is not in the outbox and is a free value (log entry 10). DESIGN CHOICE: the routing ID of a configuration
request goes out as the outbox gives it, on whatever bus, and a LEN beyond the 480 data bytes reads on past 0x7FFF (log entry 66). -/
def State.issueTlp (s : State) (te tag : Nat) : Option Tlp :=
  let w := s.dataAt te 0x7E00 8
  let len := fieldOf w 48 12
  let data := bytesAt s.dataMem (dataKey te 0x7E20) len
  let t : Tlp := { firstBe := fieldOf w 40 4, lastBe := fieldOf w 44 4, reqId := 0, len := len }
  let cfg : Tlp := { t with addr := fieldOf w 0 12, target := fieldOf w 16 16, tag := tag }
  let mem : Tlp := { t with addr := s.dataAt te 0x7E08 8 }
  match fieldOf w 60 4 with
  | 1 => some { cfg with kind := .cfgRead false }
  | 2 => some { cfg with kind := .cfgWrite false, data := data }
  | 3 => some { mem with kind := .memRead, tag := tag }
  | 4 => some { mem with kind := .memWrite, data := data }
  | 5 => some { t with kind := .message (s.free % 256), data := data }
  | _ => none

/-- The Burek packet whose credits and calendar bytes a TLP takes at its egress (R376). -/
def Tlp.likePacket (t : Tlp) : Packet :=
  match t.kind with
  | .cfgRead _ => { ptype := 9, vc := 1 }
  | .cfgWrite _ => { ptype := 9, vc := 1, len := 4 }
  | .memRead => { ptype := 1, vc := 1, len := t.len }
  | .memWrite => { ptype := 2, vc := 0, len := t.len }
  | _ => { ptype := 0xB, vc := 0, len := t.data.length }

/-- A TLP that an engine issues passes the sluice (R376): the tag pool and the link partner's credits have room, and the calendar of the port holds it. -/
def State.issueFits (s : State) (p : Nat) (t : Tlp) (np : Bool) : Bool :=
  (!np || (s.ledger (portLedger p 27)).room 1) && s.roomSum (s.creditCost p t.likePacket) && s.fits p 0 (s.costAt p t.likePacket) true

/-- ISSUE (R72): it waits for admission, at the egress it goes to, while its port is locked (R344), and while its link is down or its port contained (DESIGN CHOICE, log entry 67); a request of a KIND that R72 does not give issues nothing (log entry
36). -/
def execIssue (te ra : Nat) (s₀ : State) : Host.Outcome State Fault Refusal :=
  finish s₀ ((beginStep s₀).fetch te (.issue ra) fun s => s.instruct te fun s e =>
    let p := handlerPort te
    if te % 2 ≠ 0 || !s.isPd p then s.illegal te
    else match s.issueTlp te (s.linkTag p) with
      | none => s.setEngine te e.next
      | some t =>
        let np := match t.kind with
          | .cfgRead _ | .cfgWrite _ | .memRead => true
          | _ => false
        if !s.pcieUp p || s.flag (PORT_LOCK.LOCKED p) || !s.issueFits p t np then s
        else
          let s := ((s.setEngine te e.next).tookFree).issueAll (s.creditCost p t.likePacket)
          let s := if np then (s.issue (portLedger p 27) 1).ask { port := p, tag := t.tag, engine := some te, ctx := (e.reg ra).toNat % 65536, issued := s.now, frame := some t } else s
          s.sendTlp p t)

/-- REPLY (R72): an item is answered at most once, and a request that a surrogate has answered not again (R394). DESIGN CHOICE: B above 256 sends 256 bytes
(log entry 66). -/
def execReply (te ra rb : Nat) (s₀ : State) : Host.Outcome State Fault Refusal :=
  finish s₀ ((beginStep s₀).fetch te (.reply ra rb) fun s => s.instruct te fun s e =>
    let status := (e.reg ra).toNat % 8
    let data := bytesAt s.dataMem (dataKey te 0x7E20) (min (e.reg rb).toNat 256)
    let s := s.setEngine te { e.next with reply := .none }
    match e.reply with
    | .none => s
    | .burek k => s.answerTo (te / 8) k status data (status = stPoisoned)
    | .pcie p tag req config =>
      let code := if config && (e.reg ra).getLsbD 3 then CplStatus.crs else cplOf status
      let data := if code = .sc then data else []
      match s.owedItem p tag req with
      | some o => (s.dropOutstanding o.id).sendTlp p { kind := .completion code.code, reqId := s.fabricId p, tag := tag, target := req, len := data.length, data := data }
      | none => s)

end Sys2Proof.Machine
end

