-- ==== Sys2Proof/Machine/JoinBits.lean ====
section
/-! DEFINITION. The conditions of Fabric Join that PKG_MODE shows (R609, Table 14-8). -/

namespace Sys2Proof.Machine

/-- The rank of the package that hosts a partition: this one, or what a BIND record or a CLAIM has told (R605). -/
def State.hostRank (s : State) (n : Nat) : Option Nat :=
  if (s.partitionPu n).isSome then some s.rank
  else match tabGet (fun _ => 0) s.bindPu n, tabGet (fun _ => 0) s.hosts n with
    | 0, 0 => none
    | 0, r => some (r - 1)
    | x, _ => some ((x - 1) / 1024)

/-- The other rank that a binding record names: its TARGET's, or the hosting rank of a partition bound to a port of this package. -/
def State.bindRank (s : State) (b : BindRec) : Option Nat :=
  if b.target / 1024 ≠ s.rank then some (b.target / 1024)
  else match s.hostRank b.partition with
    | some r => if r = s.rank then none else some r
    | none => none

/-- A record that some other package must have too (R242). -/
def State.isShared (s : State) (b : BindRec) : Bool := b.target / 1024 ≠ s.rank || (s.partitionPu b.partition).isNone

/-- The BIND set of every rank named has arrived. -/
def State.bindsIn (s : State) : Bool :=
  s.bindRecs.all fun b => !s.isShared b || (match s.bindRank b with | some r => s.modes.bindsFrom.contains r | none => false)

/-- A BOUNDS announcement has arrived from every BF neighbour, or it is treated as a Burek peer. -/
def State.boundsIn (s : State) : Bool := (s.bfPorts.filter s.bfUp).all fun p => s.boundsSeen p || s.isPeer p

/-- JOIN follows the conditions from M5 on. CLAIMS, BINDS and BOUNDS, once set, stay; a package with no BF port meets each of them on entry. -/
def State.refreshJoin (s : State) : State :=
  if !s.bitOf PKG_MODE.JOIN joinPorts then s
  else
    let s := s.showTime
    let s := if s.bfPorts.isEmpty then s.setBit PKG_MODE.JOIN joinClaims true else s
    let s := if s.bindsIn || s.bfPorts.isEmpty then s.setBit PKG_MODE.JOIN joinBinds true else s
    if s.boundsIn then s.setBit PKG_MODE.JOIN joinBounds true else s

end Sys2Proof.Machine
end

