-- ==== Sys2Proof/Machine/TimeSync.lean ====
section
/-! DEFINITION. Time synchronisation over the Burek links (R210 to R215): the parent, flight times and offsets, the step, and lock. -/

namespace Sys2Proof.Machine

/-- The body of a TSYNC block, and its ID (Table 04-11). -/
def tsyncBody (e : Word) : Nat := getBits e 0 48
/-- ID of a TSYNC block. -/
def tsyncId (e : Word) : Nat := getBits e 48 4

/-- What an ANNOUNCE block says. -/
def announceOf (e : Word) : Announce :=
  { rootRank := getBits e 42 6, depth := getBits e 36 6, senderRank := getBits e 30 6, locked := e.getLsbD 29 }

/-- ANNOUNCE_RECEIVE (R212, R215). -/
def execAnnounceReceive (p : Nat) (element : Word) (s₀ : State) : Host.Outcome State Fault Refusal :=
  let s := beginStep s₀
  finish s₀ (
    if !s.bfTakes p then s
    else
      let s := (s.setLink p { s.link p with announce := some (announceOf element) }).takeParent s.timeDepth
      s.refreshJoin)

/-- SYNC_RECEIVE (R211). -/
def execSyncReceive (p : Nat) (element : Word) (s₀ : State) : Host.Outcome State Fault Refusal :=
  let s := beginStep s₀
  finish s₀ (if s.bfTakes p then s.setLink p { s.link p with sync := some (tsyncBody element, s.now % 2 ^ 48) } else s)

/-- DREQ_RECEIVE (R213): the DRESP goes in the next marker slot, after those of earlier DREQs. -/
def execDreqReceive (p : Nat) (element : Word) (s₀ : State) : Host.Outcome State Fault Refusal :=
  let s := beginStep s₀
  finish s₀ (if s.bfTakes p then s.setLink p { s.link p with dresps := (s.link p).dresps ++ [(tsyncId element, s.now % 2 ^ 48)] } else s)

/-- A difference of timestamps modulo 2^48. -/
def stampDiff (a b : Nat) : Nat := (a + 2 ^ 48 - b % 2 ^ 48) % 2 ^ 48

/-- Flight time and offset of a link (R213); the offset is held modulo 2^48 and a half tick is dropped. -/
def flightOffset (t1 t2 t3 t4 : Nat) : Nat × Nat :=
  let up := stampDiff t2 t1
  let down := stampDiff t4 t3
  let o := stampDiff up down
  ((up + down) % 2 ^ 48 / 2, if o < 2 ^ 47 then o / 2 else (2 ^ 48 - (2 ^ 48 - o) / 2) % 2 ^ 48)

/-- The size of an offset held modulo 2^48. -/
def offsetSize (o : Nat) : Nat := if o < 2 ^ 47 then o else 2 ^ 48 - o

/-- The flight time of a link is learnt or refreshed: its reach and its bounds follow, and with another one R_out beyond the port (R188, R213, R387, R389, R399,
Table 08-7). -/
def State.learnFlight (s : State) (p d : Nat) : State :=
  let was := (s.link p).flight
  let s := s.setLink p { s.link p with flight := some d }
  let (has, needs) := s.reach p
  let s := if has < needs && !s.flag (PORT_LINK.REACH_SHORT p) then (s.setFlag (PORT_LINK.REACH_SHORT p) true).raise (srcLink p) 2 { port := some p }
    else s.setFlag (PORT_LINK.REACH_SHORT p) (has < needs)
  let s := s.setLive (srcLink p) 2 (decide (has < needs))
  let s := if was = some d then s.republish 9 else if was.isNone then s.restore p true else s.planLengthening [] 9 true
  if was ≠ some d && s.halfTooLong p then s.raise (srcPkg 5) 1 else s

/-- The offset of the parent's link steers fabric time: one step at Fabric Join, then the watch for lock (R212, R214). -/
def State.steer (s : State) (o : Nat) : State :=
  if s.mode = 5 && !s.time.stepped then
    let by_ : Word := if o < 2 ^ 47 then BitVec.ofNat 64 o else - BitVec.ofNat 64 (2 ^ 48 - o)
    let s : State := { s with adjust := s.adjust - by_ }
    let s : State := { s with time := { s.time with stepped := true, steadySince := some s.now } }
    match s.time.parent with
    | some p => s.setLink p { s.link p with offset := 0 }
    | none => s
  else if offsetSize o ≤ 16 then { s with time := { s.time with steadySince := match s.time.steadySince with
    | some t => some t
    | none => some s.now } }
  else { s with time := { s.time with steadySince := none, locked := false } }

/-- DRESP_RECEIVE (R213, R214, R188): the flight time and offset come from the latest SYNC and the DREQ that its ID answers. -/
def execDrespReceive (p : Nat) (element : Word) (s₀ : State) : Host.Outcome State Fault Refusal :=
  let s := beginStep s₀
  finish s₀ (
    if !s.bfTakes p then s
    else match (s.link p).dreqs.find? (fun y => y.1 = tsyncId element), (s.link p).sync with
      | some (id, t3), some (t1, t2) =>
        let (d, o) := flightOffset t1 t2 t3 (tsyncBody element)
        let s := s.setLink p { s.link p with dreqs := (s.link p).dreqs.filter (fun y => y.1 ≠ id), offset := o }
        let s := s.learnFlight p d
        (if s.time.parent = some p then s.steer o else s).refreshJoin
      | _, _ => s)

/-- TIME_LOCK (R212): the parent's offset has stayed within 16 ticks for 1 ms. -/
def execTimeLock (s₀ : State) : Host.Outcome State Fault Refusal :=
  let s := beginStep s₀
  finish s₀ (match s.time.parent, s.time.steadySince with
    | some _, some t =>
      let s := s.waitUntil (t + 1000000 * ticksPerNs)
      State.refreshJoin { s with time := { s.time with locked := true } }
    | _, _ => s)

end Sys2Proof.Machine
end

