-- ==== Sys2Proof/Machine/Modes.lean ====
section
/-! DEFINITION. Operating modes (chapter 14): lane bring-up, Fabric Join with its CLAIM and BIND operations (R605 to R609), and the commands of
PKG_MODE_CTL (R586 to R595). -/

namespace Sys2Proof.Machine

/-! ### BIND (R608, R242, Table 14-7) -/

/-- The bytes of a record that R242 compares: all but bytes 14 and 15. -/
def bindCore (b : List Byte) : List Byte := b.take 14 ++ b.drop 16

/-- The records that this package sends to a rank, with the PU port of each partition it hosts. -/
def State.bindsFor (s : State) (rank : Nat) : List (List Byte) :=
  (s.bindBytes.filter fun b => s.bindRank (bindRecOf b) = some rank).map fun b =>
    let pu := match s.partitionPu (bindRecOf b).partition with
      | some p => s.fabricId (p % 1024)
      | none => 0xFFFF
    b.take 14 ++ leBytes 2 pu ++ b.drop 16

/-- Records in parts of eight. -/
def bindParts : Nat → List (List Byte) → List (List (List Byte))
  | 0, _ => []
  | n + 1, l => if l.isEmpty then [] else l.take 8 :: bindParts n (l.drop 8)

/-- The BIND set for a rank is sent to its lead by the route table. -/
def State.sendBinds (s : State) (rank : Nat) : State :=
  let recs := s.bindsFor rank
  let parts := bindParts recs.length recs
  let s := ((List.range parts.length).zip parts).foldl (fun (s : State) x =>
    let bytes := x.2.flatMap id
    s.originate { ptype := 0xA, vc := 3, cls := 0, dest := 1024 * rank + 780, src := s.fabricId 780, sub := 0x11, noWin := true, len := bytes.length
                  addr := x.1 * 65536 + parts.length, deadline := s.now % 2 ^ 48, payload := bytes }) s
  if parts.isEmpty then s else { s with modes := { s.modes with bindsTo := rank :: s.modes.bindsTo } }

/-- Every other rank that the records name. -/
def State.bindRanks (s : State) : List Nat := (s.bindRecs.filterMap s.bindRank).eraseDups

/-- The port whose PCI Express source raises a mismatch of a record here: the PD port it targets, or the partition's PU port. -/
def State.mismatchPort (s : State) (b : BindRec) : Option Nat :=
  if b.target / 1024 = s.rank then s.localPort b.target else (s.partitionPu b.partition).map (· % 1024)

/-- The binding-mismatch event (R242, R243). -/
def State.mismatch (s : State) (b : BindRec) : State :=
  match s.mismatchPort b with
  | some p => s.raise (srcPcie p) 5 { port := some p }
  | none => s

/-- The slot of a record's vDSP notes that it fills or empties (R242, Table 05-4). -/
def State.slotOf (s : State) (b : BindRec) : State :=
  match s.partitionPu b.partition with
  | some q => s.slotNote 3 (q, b.vdsp)
  | none => s

/-- A record found in one package only, or different, is not presented (R242). -/
def State.hideBinding (s : State) (i : Nat) (b : BindRec) : State :=
  let s : State := if s.hidden.contains (i, 0) then s
    else State.slotOf { s with hidden := s.hidden ++ [(i, 0)] } b
  s.mismatch b

/-- A complete BIND set of a rank is compared with the records that name it (R242). -/
def State.compareBinds (s : State) (rank : Nat) (recs : List (List Byte)) : State :=
  let s : State := { s with bindPu := recs.foldl (fun t b =>
    let pu := leNat ((b.drop 14).take 2)
    if pu = 0xFFFF then t else tabPut (fun _ => 0) t (bindRecOf b).partition (pu + 1)) s.bindPu }
  let s : State := { s with modes := { s.modes with bindsFrom := if s.modes.bindsFrom.contains rank then s.modes.bindsFrom else rank :: s.modes.bindsFrom } }
  let theirs := recs.map bindCore
  let mine := ((List.range s.bindBytes.length).zip s.bindBytes).filter fun x => s.bindRank (bindRecOf x.2) = some rank
  let s := mine.foldl (fun (s : State) x =>
    if theirs.contains (bindCore x.2) then
      let t : State := { s with hidden := s.hidden.filter fun h => h ≠ (x.1, 0) }
      if s.hidden.contains (x.1, 0) then t.slotOf (bindRecOf x.2) else t
    else s.hideBinding x.1 (bindRecOf x.2)) s
  let ours := mine.map fun x => bindCore x.2
  (recs.foldl (fun (s : State) b => if ours.contains (bindCore b) then s else s.mismatch (bindRecOf b)) s).settlePins

/-- BIND_RECEIVE (R608, R242). A package that a set names answers with its own records for the sender's rank (log entry 38). -/
def execBindReceive (p : Nat) (pkt : Packet) (s₀ : State) : Host.Outcome State Fault Refusal :=
  let s := beginStep s₀
  let part := fieldOf pkt.addr 16 16
  let count := fieldOf pkt.addr 0 16
  let rank := pkt.src / 1024
  finish s₀ (if !s.bfUp p || pkt.ptype ≠ 0xA || pkt.sub ≠ 0x11 || count ≤ part || pkt.len % 32 ≠ 0 || pkt.len = 0 || 256 < pkt.len || rank = s.rank then s
    else
      let x := tabGet (fun _ => {}) s.bindSets rank
      let x : BoundsSet := if x.count = count then x else { count := count }
      let x := { x with parts := (x.parts.filter fun y => y.1 ≠ part) ++ [(part, pkt.payload)] }
      let all := (List.range count).map fun i => x.parts.find? fun y => y.1 = i
      if all.all Option.isSome then
        let bytes := all.flatMap fun y => match y with
          | some z => z.2
          | none => []
        let recs := (List.range (bytes.length / 32)).map fun i => (bytes.drop (32 * i)).take 32
        let s := State.compareBinds { s with bindSets := tabPut (fun _ => {}) s.bindSets rank {} } rank recs
        let asks := recs.any fun b => leNat ((b.drop 14).take 2) ≠ 0xFFFF
        (if asks && (s.mode ≠ 5 || !s.modes.bindsTo.contains rank) then s.sendBinds rank else s).refreshJoin
      else { s with bindSets := tabPut (fun _ => {}) s.bindSets rank x })

/-! ### CLAIM (R606, R607, Table 14-7) -/

/-- The partitions that this package hosts. -/
def State.hosted (s : State) : List Nat := s.partRecs.map (·.partition)

/-- The payload of a CLAIM. -/
def State.claimPayload (s : State) : List Byte :=
  let map := fun (e : Nat) => s.hosted.foldl (fun m n => if n / 64 = e then withBit m (n % 64) else m) 0
  beBytes 8 s.chip.serial.toNat ++ beBytes 8 (s.modes.claimNo % 2 ^ 32 * 2 ^ 32 + (if s.joined then 2 ^ 31 else 0) + s.rank % 64) ++
    (List.range 16).flatMap fun e => beBytes 8 (map e)

/-- A Management packet of Fabric Join goes to the neighbour's lead on a BF port (R605). -/
def State.toNeighbour (s : State) (p : Nat) (k : Packet) : State :=
  let dest := match (s.link p).partner with
    | some i => i.sender / 1024 * 1024 + 780
    | none => 0
  { s with waiting := s.waiting ++ [{ point := pointPort p, pkt := { k with dest := dest }, deadline := k.deadline, ingress := 780 }] }

/-- BF ports in Active (R606). -/
def State.activeBf (s : State) : List Nat := s.bfPorts.filter s.bfUp

/-- CLAIM_SEND (R606): every 1 ms in M5, and every 100 ms in M6 and M7. -/
def execClaimSend (s₀ : State) : Host.Outcome State Fault Refusal :=
  let s := beginStep s₀
  finish s₀ (if s.mode ≠ 5 && s.mode ≠ 6 && s.mode ≠ 7 then s
    else
      let s := match s.modes.claimAt with
        | some t => s.waitUntil (t + (if s.mode = 5 then 1000000 else 100000000) * ticksPerNs)
        | none => s
      let s : State := { s with modes := { s.modes with claimNo := s.modes.claimNo + 1, claimAt := some s.now } }
      let k : Packet :=
        { ptype := 0xA, vc := 3, cls := 0, src := s.fabricId 780, sub := 0x10, noWin := true, len := 144, deadline := s.now % 2 ^ 48
          payload := s.claimPayload }
      s.activeBf.foldl (fun (s : State) p => s.toNeighbour p k) s)

/-- What a CLAIM says. -/
structure Claim where
  serial : Nat
  no : Nat
  joined : Bool
  rank : Nat
  partitions : List Nat
  deriving DecidableEq, Repr

/-- The content of a CLAIM (Table 14-7). -/
def claimOf (b : List Byte) : Claim :=
  let e := fun (i : Nat) => beNat ((b.drop (8 * i)).take 8)
  { serial := e 0, no := e 1 / 2 ^ 32, joined := (e 1).testBit 31, rank := e 1 % 64
    partitions := (List.range 1024).filter fun n => (e (2 + n / 64)).testBit (n % 64) }

/-- This package holds against a claim (R607): JOINED first, then the lower SERIAL; two joined packages both stay. -/
def State.holds (s : State) (c : Claim) : Bool := if s.joined = c.joined then s.joined || decide (s.chip.serial.toNat < c.serial) else s.joined

/-- A CLAIM is checked for conflicts (R60, R64, R607). -/
def State.checkClaim (s : State) (c : Claim) : State :=
  if c.serial = s.chip.serial.toNat then s
  else
    let ranks := decide (c.rank = s.rank)
    let parts := c.partitions.any fun n => s.hosted.contains n
    let lost := (ranks || parts) && !s.holds c && s.mode = 5
    let s := if ranks then s.raise (srcPkg 2) 0 else s
    let s := if parts then s.raise (srcPkg 2) 1 else s
    if lost then State.setBit { s with modes := { s.modes with joinLost := true } } PKG_MODE.JOIN joinClaims false else s

/-- A CLAIM that this package has seen before (R606): by SERIAL and CLAIM_NO, its own ones among them. -/
def State.claimSeen (s : State) (c : Claim) : Bool :=
  s.modes.claims.contains (c.serial, c.no) || (c.serial = s.chip.serial.toNat && decide (c.no ≤ s.modes.claimNo))

/-- CLAIM_RECEIVE (R606, R607). -/
def execClaimReceive (p : Nat) (pkt : Packet) (s₀ : State) : Host.Outcome State Fault Refusal :=
  let s := beginStep s₀
  let c := claimOf pkt.payload
  finish s₀ (if !s.bfUp p || pkt.ptype ≠ 0xA || pkt.sub ≠ 0x10 || pkt.len ≠ 144 || s.claimSeen c then s
    else
      let s : State := { s with modes := { s.modes with claims := s.modes.claims ++ [(c.serial, c.no)] } }
      let s := if pkt.hops < 14 then (s.activeBf.filter (· ≠ p)).foldl (fun (s : State) q => s.toNeighbour q pkt) s else s
      if c.serial = s.chip.serial.toNat then s
      else
        let s : State := { s with hosts := c.partitions.foldl (fun t n => tabPut (fun _ => 0) t n (c.rank + 1)) s.hosts }
        (s.checkClaim c).refreshJoin)

/-- CLAIM_WINDOW_EXPIRY (R609, Table 14-8): 3 ms after M5 entry. -/
def execClaimWindowExpiry (s₀ : State) : Host.Outcome State Fault Refusal :=
  let s := beginStep s₀
  finish s₀ (if s.mode ≠ 5 then s
    else
      let s := s.waitUntil (s.modes.since + 3000000 * ticksPerNs)
      (if s.modes.joinLost then s else s.setBit PKG_MODE.JOIN joinClaims true).refreshJoin)

/-- Bindings that no BIND set has matched are not presented (Table 14-8). -/
def State.hideUnmatched (s : State) : State :=
  let unmatched := s.indexedBinds.filter fun x => s.isShared x.2 &&
    !(match s.bindRank x.2 with
      | some r => s.modes.bindsFrom.contains r
      | none => false)
  (unmatched.foldl (fun (s : State) x => s.hideBinding x.1 x.2) s).settlePins

/-- JOIN_WAIT_EXPIRY (R609, Table 14-8): 10 ms have passed, since M5 entry or since each silent neighbour's port reached Active; bindings still unmatched are not presented, or silent neighbours are Burek peers. -/
def execJoinWaitExpiry (bounds : Bool) (s₀ : State) : Host.Outcome State Fault Refusal :=
  let s := beginStep s₀
  finish s₀ (if s.mode ≠ 5 then s
    else
      if bounds then
        let silent := s.activeBf.filter fun p => !s.boundsSeen p
        let s := silent.foldl (fun (s : State) p => s.waitUntil ((s.link p).activeAt + 10000000 * ticksPerNs)) s
        let s : State := { s with bounds := silent.foldl (fun t p => tabPut (fun _ => 0) t (boundKey p 1 3) 1) s.bounds }
        -- the dies form R_out through the new peers (R389)
        let s := if silent.any s.halfTooLong then s.raise (srcPkg 5) 1 else s
        ((s.republish 9 (!silent.isEmpty)).setBit PKG_MODE.JOIN joinBounds true).refreshJoin
      else
        let s := (s.waitUntil (s.modes.since + 10000000 * ticksPerNs)).hideUnmatched
        (s.setBit PKG_MODE.JOIN joinBinds true).refreshJoin)

/-! ### M4, M5 and their ends (R585, R609) -/

/-- A port of the SBS has reached Active or L0, or is a standby port (Table 14-2). -/
def State.portReached (s : State) (p : Nat) : Bool :=
  s.asleep p || (if s.isBf p then s.get (PORT_LINK.LL_STATE p) = 2 else s.get (PORT_PCIE.LINK_STATE p) = 3)

/-- The package enters M5: PORTS holds, and its BIND records go out (R608). -/
def State.enterJoin (s : State) : State :=
  let s := (s.enterMode 5).setBit PKG_MODE.JOIN joinPorts true
  let s := s.bindRanks.foldl (fun (s : State) r => s.sendBinds r) s
  (if s.bfPorts.isEmpty then s.hideUnmatched else s).refreshJoin

/-- BRINGUP_COMPLETE (R585). -/
def execBringupComplete (s₀ : State) : Host.Outcome State Fault Refusal :=
  let s := beginStep s₀
  finish s₀ (if s.mode = 4 && s.allPorts.all s.portReached then s.enterJoin else s)

/-- BRINGUP_TIMEOUT (R585): M4 has lasted 100 ms. -/
def execBringupTimeout (s₀ : State) : Host.Outcome State Fault Refusal :=
  let s := beginStep s₀
  finish s₀ (if s.mode = 4 then (s.waitUntil (s.modes.since + 100000000 * ticksPerNs)).enterJoin else s)

/-- JOIN_COMPLETE (R609, R585). -/
def execJoinComplete (s₀ : State) : Host.Outcome State Fault Refusal :=
  let s := beginStep s₀
  let s := s.refreshJoin
  finish s₀ (if s.mode = 5 && s.get PKG_MODE.JOIN = 63 then s.enterMode (if s.anyFenced then 7 else 6) else s)

/-! ### PKG_MODE_CTL (R586 to R595) -/

/-- A command that is ignored: REFUSED advances (R586, R595). -/
def State.modeRefused (s : State) : State := s.bump PKG_MODE.REFUSED

/-- A master whose DRAIN, RESUME and RESET are accepted (R586, R574, R591). -/
def State.mayCommand (s : State) : Master → Bool
  | .cp n => s.cpPrivileged n
  | .inband id priv => s.privileged (.inband id priv)
  | _ => false

/-- DRAIN (R589). -/
def State.drain (s : State) (m : Master) : State :=
  if s.mayCommand m && within 5 s.mode 7 then
    let s : State := { s with modes := { s.modes with beforeDrain := s.mode } }
    (s.setFlag PKG_MODE.DRAINED false).enterMode 9
  else s.modeRefused

/-- RESUME (R590): the sluice admits at once. -/
def State.resume (s : State) (m : Master) : State :=
  if s.mayCommand m && s.mode = 9 then ((s.setFlag PKG_MODE.DRAINED false).backTo s.modes.beforeDrain).evaluateHeld else s.modeRefused

/-- MAINT (R591): from a privileged control port of the package itself. -/
def State.maint (s : State) (m : Master) : State :=
  match m with
  | .cp n =>
    if s.cpPrivileged n && (s.mode = 3 || (s.mode = 9 && s.flag PKG_MODE.DRAINED)) then
      let s := s.extendMr 6 (sha384 (leBytes 1 n ++ leBytes 8 s.now))
      let s : State := { s with modes := { s.modes with holder := n } }
      (s.setFlag (PKG_CP_STATE.MAINT n) true).enterMode 10
    else s.modeRefused
  | _ => s.modeRefused

/-- RESET (R594, R595): a package reset 10 µs later. -/
def State.askReset (s : State) (m : Master) (key : Nat) : State :=
  if !s.mayCommand m || key ≠ 0xC3 || s.mode = 0 then s.modeRefused
  else if s.modes.resetSource ≠ 0 then s
  else
    let source := match m with
      | .cp _ => 3
      | _ => 4
    { s with modes := { s.modes with resetDue := s.now + 10000 * ticksPerNs, resetSource := source } }

/-- A write of PKG_MODE_CTL (Table 14-11). CMD 0 names no command (log entry 87). -/
def State.wrModeCtl (s : State) (m : Master) (v : Word) : State :=
  let cmd := getBits v 52 4
  if cmd = 0 then s
  else if cmd = 1 then s.drain m
  else if cmd = 2 then s.resume m
  else if cmd = 3 then s.maint m
  else if cmd = 4 then s.askReset m (getBits v 56 8)
  else s.modeRefused

/-- No admitted request remains undelivered or unanswered (R589). -/
def State.drained (s : State) : Bool :=
  !(s.outstanding.any fun o => o.admitted && !o.answered) && s.undelivered.isEmpty

/-- DRAIN_COMPLETE (R589). -/
def execDrainComplete (s₀ : State) : Host.Outcome State Fault Refusal :=
  let s := beginStep s₀
  finish s₀ (if s.mode = 9 && s.drained then s.setFlag PKG_MODE.DRAINED true else s)

/-! ### PKG_MEAS_CTL (R599, R600) -/

/-- A write of PKG_MEAS_CTL with SEL already written: MR(SEL) is latched, and EXTEND extends MR7 after (R600). -/
def State.wrMeasCtl (s : State) (m : Master) (v : Word) : State :=
  let r := s.mrOf (s.get PKG_MEAS_CTL.SEL)
  let s := (List.range 6).foldl (fun (s : State) k => s.set (PKG_MEAS_D.VALUE k) (leNat ((r.drop (8 * k)).take 8))) s
  let port := match m with
    | .cp n => s.cpPrivileged n
    | _ => false
  if v.getLsbD 8 && port then
    (s.extendMr 7 ((List.range 6).flatMap fun k => leBytes 8 (s.get (PKG_MEAS_X.VALUE k)))).bump PKG_MEAS_CTL.EXTENDS
  else s

end Sys2Proof.Machine
end

