-- ==== Sys2Proof/Machine/Power.lean ====
section
/-! DEFINITION. The die power controllers (chapter 15): samples, throttling, the thermal trip, standby ports and the gating of fenced regions. -/

namespace Sys2Proof.Machine

/-- POWER_CAP of the plan, or its default before a structure is loaded (Table 15-3). -/
def State.powerCap (s : State) : Nat :=
  let cap := s.sec powerSec 0 2
  if cap = 0 then (if s.chip.fb512 then 720 else 350) else cap

/-- A die's share of POWER_CAP in units of 0.01 W (R626). -/
def State.powerShare (s : State) : Nat := 100 * s.powerCap / s.healthyDies.length

/-- The mean of power samples. -/
def meanOf (l : List Nat) : Nat := l.foldl (· + ·) 0 / l.length

/-- Ports of a die. -/
def State.diePorts (s : State) (d : Nat) : List Nat := s.allPorts.filter fun p => portDie p = d

/-- BF ports of a die with POLICY 0x2 (Table 15-3). -/
def State.throttleSleepers (s : State) (d : Nat) : List Nat := (s.diePorts d).filter fun p => s.isBf p && s.policy p = 2

/-- L0P_WIDTH of a port (Table 15-3). -/
def State.l0pWidth (s : State) (p : Nat) : Nat := s.sec powerSec (64 + 16 * p + 4) 1

/-- PCI Express ports of a die that narrow while it throttles (R627, R224). -/
def State.narrowers (s : State) (d : Nat) : List Nat :=
  (s.diePorts d).filter fun p => !s.isBf p && s.l0pWidth p ≠ 0 && s.flag (PORT_PCIE.DL_ACTIVE p) && s.l0pAllowed p &&
    decide (s.l0pWidth p < s.get (PORT_PCIE.ACTIVE_WIDTH p))

/-- A die begins to throttle (R627, Table 15-5). -/
def State.throttleBegin (s : State) (d : Nat) : State :=
  let s := ((s.setFlag (DIE_PWR.THROTTLING d) true).bump (DIE_PWR.THROTTLES d)).raise (srcDie d 7) 2 |>.setLive (srcDie d 7) 2 true
  let sleepers := s.throttleSleepers d
  let s := if sleepers.isEmpty then s else s.planLengthening (sleepers.map Planned.sleep) 5
  let narrow := s.narrowers d
  if narrow.isEmpty then s else State.republish { s with planned := s.planned ++ narrow.map fun p => Planned.narrow p (s.l0pWidth p) } 4

/-- A planned change lengthens a bound. -/
def Planned.lengthens : Planned → Bool
  | .narrow _ _ => false
  | _ => true

/-- A die no longer throttles: sleeping directions wake, the allowance is withdrawn and links widen at once (R620, R621, R627). -/
def State.throttleEnd (s : State) (d : Nat) : State :=
  let s := (s.setFlag (DIE_PWR.THROTTLING d) false).setLive (srcDie d 7) 2 false
  let sleepers := s.throttleSleepers d
  let s := sleepers.foldl (fun (s : State) p => s.wakeRequest p) s
  let s : State := { s with planned := s.planned.filter fun x => match x with
    | .sleep p => decide (portDie p ≠ d)
    | .narrow p _ => decide (portDie p ≠ d)
    | _ => true }
  let s : State := if s.planned.any Planned.lengthens then s
    else { s.setFlag PKG_BOUND.SETTLING false with modes := { s.modes with settleAt := 0 } }
  let s := if sleepers.isEmpty then s else s.republish 5
  let wide := (s.diePorts d).filter fun p => !s.isBf p && s.l0pWidth p ≠ 0 && s.flag (PORT_PCIE.DL_ACTIVE p)
  if wide.isEmpty then s
  else (wide.foldl (fun (s : State) p => s.set (PORT_PCIE.ACTIVE_WIDTH p) (s.get (PORT_PCIE.WIDTH p))) s).republish 4

/-- Temperatures are shown: TJ_MAX, the sensor that reads it, TJ_PEAK (Table 15-8). -/
def State.showTemps (s : State) (d : Nat) (temps : List Nat) : State :=
  let tj := temps.foldl max 0
  let s := (s.set (DIE_THERM.TJ_MAX d) tj).set (DIE_THERM.HOT_SENSOR d) (temps.findIdx fun t => t = tj)
  s.set (DIE_THERM.TJ_PEAK d) (max (s.get (DIE_THERM.TJ_PEAK d)) tj)

/-- A power sample joins the last ten, and the share and the mean are shown (Table 15-7, R626). -/
def State.showPower (s : State) (d power : Nat) : State :=
  let l := tabGet (fun _ => []) s.powerSamples d ++ [power]
  let l := l.drop (l.length - 10)
  let s : State := { s with powerSamples := tabPut (fun _ => []) s.powerSamples d l }
  let s := (s.set (DIE_PWR.POWER d) (min (meanOf l) 65535)).set (DIE_PWR.SHARE d) (min s.powerShare 65535)
  s.setFlag (DIE_PWR.OVER_SHARE d) (decide (s.powerShare < meanOf l))

/-- Throttling begins and ends by the sample just taken (R627). -/
def State.throttle (s : State) (d : Nat) : State :=
  let tj := s.get (DIE_THERM.TJ_MAX d)
  let t := s.get (DIE_THERM.T_THROTTLE d)
  let overShare := s.flag (DIE_PWR.OVER_SHARE d)
  let on := s.flag (DIE_PWR.THROTTLING d)
  let since := tabGet (fun _ => (none : Option Nat)) s.coolSince d
  let put := fun (s : State) (x : Option Nat) => ({ s with coolSince := tabPut (fun _ => none) s.coolSince d x } : State)
  if t ≤ tj || overShare then
    let s := put s none
    if on then s else s.throttleBegin d
  else if !on then s
  else if !overShare && decide (tj + 3 ≤ t) then
    match since with
    | none => put s (some s.now)
    | some x => if x + 160000000 ≤ s.now then (put s none).throttleEnd d else s
  else put s none

/-- POWER_SAMPLE (R625 to R628): a die's power in units of 0.01 W and its 20 sensors in °C, the clusters' first. The sample set enters
the die's telemetry stream, whose items, capacity and reader the spec does not give (log entry 45). In M1 a sensor at T_TRIP asserts THERMTRIP_B again (R684). -/
def execPowerSample (d power : Nat) (temps : List Nat) (s₀ : State) : Host.Outcome State Fault Refusal :=
  let s := beginStep s₀
  finish s₀ (if s.mode = 1 && decide (d < s.numDies) && (temps.take 20).any (fun t => decide (s.get (DIE_THERM.T_TRIP d) ≤ t)) then s.emit (.pin pinThermtrip false)
    else if s.mode < 2 || !s.healthy d || s.numDies ≤ d then s
    else
      let was := s.get (DIE_THERM.TJ_MAX d)
      let temps := (temps.take 20).map fun t => min t 255
      let s := ((s.showTemps d temps).showPower d power).offer (.power d) (power :: temps)
      let tj := s.get (DIE_THERM.TJ_MAX d)
      let warn := s.get (DIE_THERM.T_WARN d)
      let s := if was < warn && warn ≤ tj then s.raise (srcDie d 7) 1 else s
      let s := (s.setLive (srcDie d 7) 1 (decide (warn ≤ tj))).throttle d
      let trip := s.get (DIE_THERM.T_TRIP d)
      let s := s.setLive (srcDie d 7) 3 (decide (trip ≤ tj))
      if tj < trip then s
      else
        let s := if was < trip then s.raise (srcDie d 7) 3 else s
        (s.emit (.pin pinThermtrip false)).halt (srcDie d 7))

/-- A standby port comes into service (R618, R158, Table 15-9). -/
def State.wakePort (s : State) (p : Nat) : State :=
  if !s.flag (PORT_WAKE.STANDBY p) || s.mode < 4 || 10 < s.mode then s
  else
    let s : State := { s with woken := if s.woken.contains p then s.woken else s.woken ++ [p] }
    let s := (s.setFlag (PORT_WAKE.STANDBY p) false).set (PORT_WAKE.SLEEP p) 0
    if s.mayTrain p then s.powerUpPort p else s

/-- REGION_FENCE_DRAIN_END (R623): no packet is left for the region's ports, and the region is gated. A region that is being reloaded is not. -/
def execRegionFenceDrainEnd (g : Nat) (s₀ : State) : Host.Outcome State Fault Refusal :=
  let s := beginStep s₀
  let busy := s.waiting.any fun w => decide (1000 ≤ lastPoint w) && decide (lastPoint w < 2000) && (lastPoint w - 1000) / 16 = g
  finish s₀ (if !s.regionFenced g || busy || (s.reload.any fun r => r.region = g) then s
    else
      let s := (regionClusters g).foldl (fun (s : State) c => if s.gated.testBit c then s else s.gateCluster c) s
      ((s.allPorts.filter fun p => p / 16 = g)).foldl (fun (s : State) p => s.quietPort p) s)

end Sys2Proof.Machine
end

