-- ==== Sys2Proof/Machine/Store.lean ====
section
/-! DEFINITION. The store procedure of fabric firmware (R651, R652): PKG_NVS_CTL and PKG_NVS_DATA0 to 7. -/

namespace Sys2Proof.Machine

/-- The master is the control port that holds SEM00 (R651). -/
def State.mayStore (s : State) (m : Master) : Bool :=
  (match m with | .cp _ => true | _ => false) && s.holdsSem m 0

/-- The firmware bank that a store address lies in. -/
def bankAt (a : Nat) : Option Bool := if 0x00800000 ≤ a && a < 0x00C00000 then some false else if 0x00C00000 ≤ a && a < 0x01000000 then some true else none

/-- PKG_NVS_DATA0 to 7 as the 64 bytes of a block. -/
def State.nvsData (s : State) : List Byte := (List.range 8).flatMap fun k => leBytes 8 (s.get (PKG_NVS_DATA.DATA k))

/-- A write of a block is refused (R652): outside the integrator area and the idle bank, or the idle bank's first block with an SVN below the floor. The
second part says that the refusal sets code 0x0F (R597, R652). -/
def State.storeRefused (s : State) (block : Nat) (data : List Byte) : Bool × Bool :=
  let a := 64 * block
  match bankAt a with
  | some b =>
    if b = s.flag PKG_FW.BANK then (true, true)
    else if a = bankBase b && decide ((data.getD 4 0).toNat < s.sealed.floor) then (true, true)
    else (false, false)
  | none => if 0x00020000 ≤ a && a < 0x00800000 then (false, false) else (true, false)

/-- The write of a firmware bank that a block write begins or goes on with (R57, log entry 56). -/
def State.bankBegun (s : State) (write : Bool) (block : Nat) : Option BankWrite :=
  match bankAt (64 * block) with
  | some b => if write && s.bankWrite.isNone then some { bank := b } else s.bankWrite
  | none => s.bankWrite

/-- A write of PKG_NVS_CTL with its BLOCK already written: CMD starts a block read or write (R651, R652). -/
def State.wrNvsCtl (s : State) (m : Master) (v : Word) : State :=
  let cmd := getBits v 60 4
  if !s.mayStore m || s.get PKG_NVS_CTL.STATUS = 1 || cmd = 0 || 2 < cmd then s
  else
    let block := s.get PKG_NVS_CTL.BLOCK
    let data := s.nvsData
    let (no, code) := s.storeRefused block data
    if cmd = 2 && no then (if code then s.sbsRefused else s).set PKG_NVS_CTL.STATUS 2
    else State.set { s with nvsOp := some { write := cmd = 2, block := block, data := data }, bankWrite := s.bankBegun (cmd = 2) block } PKG_NVS_CTL.STATUS 1

/-- A block takes new bytes; of a firmware bank it no longer holds the image of manufacture. -/
def State.putBlock (s : State) (block : Nat) (data : List Byte) : State :=
  let a := 64 * block
  let s : State := { s with nvs := putBytes s.nvs a data }
  match bankAt a with
  | none => s
  | some b =>
    { s with
      dir := { s.dir with fwWritten := if s.dir.fwWritten.contains block then s.dir.fwWritten else s.dir.fwWritten ++ [block] }
      bankWrite := s.bankWrite.map fun w => { w with first := w.first || decide (a = bankBase b) } }

/-- A block write has failed: the firmware bank it belonged to is not complete (R57, log entry 56). -/
def State.failBlock (s : State) (block : Nat) : State :=
  if (bankAt (64 * block)).isSome then { s with bankWrite := s.bankWrite.map fun w => { w with good := false } } else s

/-- The words of a block that a read returns. The bytes of the store directory are not in the spec: they are free values (log entries 10, 14). -/
def State.fetchBlock (s : State) (block : Nat) : State :=
  (List.range 8).foldl (fun (s : State) k =>
    if block < 1024 then (s.set (PKG_NVS_DATA.DATA k) s.free).tookFree
    else s.set (PKG_NVS_DATA.DATA k) (leNat ((List.range 8).map fun i => s.storeByte (64 * block + 8 * k + i)))) s

/-- NVS_OPERATION_COMPLETE (R651). A read of an uncorrectable block sets STATUS 0x3 and cause 1; a failed write sets cause 2 of package source 3, and its
STATUS is a free value (log entry 10). -/
def execNvsOperationComplete (ok : Bool) (s₀ : State) : Host.Outcome State Fault Refusal :=
  let s := beginStep s₀
  finish s₀ (match s.nvsOp with
    | none => s
    | some op =>
      let s : State := { s with nvsOp := none }
      if ok then (if op.write then s.putBlock op.block op.data else s.fetchBlock op.block).set PKG_NVS_CTL.STATUS 0
      else if op.write then (((s.failBlock op.block).set PKG_NVS_CTL.STATUS (s.free % 16)).tookFree).raise (srcPkg 3) 2
      else (s.set PKG_NVS_CTL.STATUS 3).raise (srcPkg 3) 1)

end Sys2Proof.Machine
end

