-- ==== Sys2Proof/Machine/Access.lean ====
section
/-! DEFINITION. Reads of the control space (R550, R560, R566 to R568, R646 to R660): which accesses are served, where they are checked, and what a read
returns and does. -/

namespace Sys2Proof.Machine

/-- Statuses of the towpath (Table 13-5), with 0x1 for an in-band access that is not accepted. -/
def csOk : Nat := 0
/-- An in-band access is not accepted (R573, R575, R499). -/
def csNotAccepted : Nat := 1
/-- Refused by the Toll (R497). -/
def csDenied : Nat := 2
/-- Discarded (R543, R659). -/
def csDiscarded : Nat := 3
/-- Withdrawn (R568). -/
def csTimeout : Nat := 4

/-- Answered UR: a read of a PCI Express control port that R550 does not serve. The number is the model's own. -/
def csUnsupported : Nat := 5

/-- The die that checks an access: the die whose block it addresses, or the lead's (R566). -/
def State.dieOfAddr (s : State) (a : Nat) : Nat :=
  let d := (a - 0x10000000) / 0x08000000
  if 0x10000000 ≤ a && a < 0x30000000 && d < s.numDies then d else s.leadDie

/-- The block that an address names is one the part has (R646, R3). -/
def State.blockAt (s : State) (a : Nat) : Block :=
  match blockOf a with
  | .die d o => if d < s.numDies then .die d o else .reserved
  | .cluster c o => if c < s.numClusters then .cluster c o else .reserved
  | b => b

/-! ### Which accesses are served (Table 14-1, R593, R659) -/

/-- What becomes of an access before its check. -/
inductive Gateway where
  | silent
  | ignored
  | discarded
  | go
  deriving DecidableEq, Repr

/-- The master can make an access: its link is up (R562), and the debug master exists only in M10 (R591). -/
def State.masterPresent (s : State) : Master → Bool
  | .cp n => decide (n < 2) && s.flag (PKG_CP_STATE.LINK_UP n)
  | .debug => s.mode = 10
  | .keeper k => decide (k < 2 * s.numDies) && s.healthy (k / 2) && (decide (s.mode ≤ 2) || (tabGet (fun _ => none) s.keeperRun k).isSome)
  | .inband _ _ | .lead => true

/-- What the mode makes of an access. In M11 only the package block and healthy dies' blocks are read (Table 14-1); a read of a cluster's is answered DISCARDED
(log entry 26). -/
def State.gateway (s : State) (m : Master) (write : Bool) (a : Nat) : Gateway :=
  let identity := a = PKG_MODE.addr || a = PKG_ID.addr || a = PKG_SERIAL.addr
  let sick := match s.blockAt a with
    | .die d _ => !s.healthy d
    | .cluster c _ => !s.healthy (clusterDie c) || (s.mode = 11 && !write)
    | _ => false
  if !s.masterPresent m || s.mode < 2 then .silent
  else if s.mode = 2 then (if !write && (identity || a = PKG_LEAD.addr) then .go else .discarded)
  else if s.mode = 11 && s.healthyDies.isEmpty then (if !write && identity then .go else .discarded)
  else if sick then .discarded
  else if s.mode = 11 && write && !(a = PKG_MODE_CTL.addr) then .ignored
  else .go

/-! ### Where an access goes -/

/-- A port register that applies to the port in its slot (R655). -/
def State.portRegApplies (s : State) (p o : Nat) : Bool :=
  s.isPort p && (if o < 0x30 then s.isBf p else if o = 0x30 then !s.isBf p else if o < 0x48 then s.isPd p else if o = 0x48 then !s.isPd p else true)

/-- The register of the spec at an offset, when the part and its structure give it one (R653, R655, R658). -/
def State.hasReg (s : State) (a : Nat) : Bool :=
  match s.blockAt a with
  | .reserved => false
  | .package o => (findRow packageRegs o).isSome
  | .die d o =>
    (findRow dieRegs o).isSome &&
      (if 0x3000 ≤ o && o < 0x3800 then s.isPu (64 * d + (o - 0x3000) / 32)
       else if 0x3800 ≤ o && o < 0x3C00 then s.isPu (64 * d + (o - 0x3800) / 16) else true)
  | .cluster c o =>
    (findRow clusterRegs o).isSome && (if 0x2000 ≤ o && o < 0x2800 then s.portRegApplies (4 * c + (o - 0x2000) / 0x200) (o % 0x200) else true)

/-- The control port and standard offset of a DOE register (R648). -/
def doeAt (a : Nat) : Option (Nat × Nat) :=
  let f := fun (n : Nat) => if cpBase n + 0x100 ≤ a && a < cpBase n + 0x130 && a % 8 = 0 then some (n, (a - cpBase n - 0x100) / 2) else none
  (f 0).or (f 1)

/-- The semaphore at an offset. -/
def semAt (a : Nat) : Option Nat := if 0x5000 ≤ a && a < 0x5200 && a % 8 = 0 then some ((a - 0x5000) / 8) else none

/-- The engine and byte address of a word of data memory (Table 17-9). -/
def State.dataWordAt (s : State) (a : Nat) : Option (Nat × Nat) :=
  match s.blockAt a with
  | .cluster c o => if 0x80000 ≤ o && o < 0xC0000 then some (8 * c + (o - 0x80000) / 0x8000, o % 0x8000) else none
  | _ => none

/-- The engine and byte address of a word of program memory (Table 17-9). -/
def State.programWordAt (s : State) (a : Nat) : Option (Nat × Nat) :=
  match s.blockAt a with
  | .cluster c o => if 0x40000 ≤ o && o < 0x60000 then some (8 * c + (o - 0x40000) / 0x4000, o % 0x4000) else none
  | _ => none

/-- The counter whose value register stands at an offset. -/
def State.counterValueAt (s : State) (a : Nat) : Option (Bool × Nat × Nat) :=
  match s.blockAt a with
  | .cluster c o => if 0x4100 ≤ o && o < 0x4200 && o % 8 = 0 then some (false, c, (o - 0x4100) / 8) else none
  | .die d o => if 0x4200 ≤ o && o < 0x4400 && o % 8 = 0 then some (true, d, (o - 0x4200) / 8) else none
  | _ => none

/-- The cluster whose block an offset lies in, while the cluster is gated (R660). -/
def State.gatedAt (s : State) (a : Nat) : Bool :=
  match s.blockAt a with
  | .cluster c _ => s.gated.testBit c
  | _ => false

/-- The access waits at crossing 11: its cluster is in reset or the crossing has not been released (R660, R542). -/
def State.heldAt (s : State) (a : Nat) : Bool :=
  match s.blockAt a with
  | .cluster c _ => s.clusterHeld c || (s.crossing (clusterCrossing c 11)).crossReset
  | _ => false

/-! ### What a read returns and does -/

/-- The word of a counter that a read returns. The even counter of a chained pair latches the odd one into HIGH (R636). -/
def State.readCounter (s : State) (die : Bool) (i n : Nat) : State × Nat :=
  let v := (s.rd (ctrAddr die i n)).toNat
  if n % 2 = 0 && s.chained die i (n + 1) then
    (s.set (if die then PMON_DIE_HI.HIGH i else PMON_CL_HI.HIGH i) (getBits (s.rd (ctrAddr die i (n + 1))) 0 48), v)
  else (s, v)

/-- Word 0 of TOLL_VLAST latches words 1 to 3 of the same record (R515). -/
def State.readViolation (s : State) (d : Nat) : State × Nat :=
  let ws := tabGet (fun _ => ([] : List Nat)) s.vlast d
  let s := (List.range 3).foldl (fun (s : State) k => s.wr (TOLL_VLAST.addr d (k + 1)) (BitVec.ofNat 64 (ws.getD (k + 1) 0))) s
  (s, ws.getD 0 0)

/-- A word of engine memory by its check bits (R656). -/
def State.memoryWord (s : State) (te a v cause : Nat) : State × Nat :=
  let x := s.wordState a
  if x = 2 then (s.raise (srcEngine te) cause, 2 ^ 64 - 1) else if x = 1 then (s.raise (srcEngine te) 4, v) else (s, v)

/-- Some partition of a die's basin has no room. -/
def State.basinFull (s : State) (d : Nat) : Bool := (List.range 15).any fun k => s.basinPresent d k && !(s.ledger (dieLedger d k)).room 1

/-- What a register holds that the model computes when it is read: DIE_TIME (R654), LIVE of a full basin (R451), LAST_AGE of PORT_TALLY, a counter's selection
(R642). -/
def State.registerWord (s : State) (a : Nat) : Nat :=
  match s.blockAt a with
  | .die d o =>
    if o = 0 then s.now
    else if a = EVT_SRC_A.addr (srcDie d 1) && !s.basinFull d then withoutBit (s.rd a).toNat 35
    else match counterAt a with
      | some (die, i, n) => (s.selection die i n).toNat
      | none => (s.rd a).toNat
  | .cluster c o =>
    if 0x2000 ≤ o && o < 0x2800 && o % 0x200 = 0x28 then
      (s.rd a).toNat / 2 ^ 16 * 2 ^ 16 + min ((s.now - (s.link (4 * c + (o - 0x2000) / 0x200)).tallyAt) / (1000000 * ticksPerNs)) 0xFFFF
    else match counterAt a with
      | some (die, i, n) => (s.selection die i n).toNat
      | none => (s.rd a).toNat
  | _ => (s.rd a).toNat

/-- An 8-byte read reaches its block: what it returns, and what it does where a read has an effect (R550). -/
def State.readEffect (s : State) (m : Master) (a : Nat) : State × Nat :=
  if s.gatedAt a then (s, if s.hasReg a then (resetWord a).toNat else 0)
  else match semAt a, s.popAt a, doeAt a, s.dataWordAt a, s.programWordAt a, s.counterValueAt a with
    | some i, _, _, _, _, _ => s.semRead m i
    | _, some (w, 0), _, _, _, _ => s.popRead w
    | _, _, some (n, o), _, _, _ => (s, s.doeRegister n o)
    | _, _, _, some (te, b), _, _ => s.memoryWord te a (s.dataAt te b 8) 3
    | _, _, _, _, some (te, b), _ =>
      let w := fun (k : Nat) => (tabGet (fun _ => (0 : BitVec 32)) s.program (4096 * te + k)).toNat
      s.memoryWord te a (w (b / 4) + w (b / 4 + 1) * 2 ^ 32) 2
    | _, _, _, _, _, some (die, i, n) => s.readCounter die i n
    | _, _, _, _, _, _ =>
      if !s.hasReg a then (s, 0)
      else match s.blockAt a with
        | .die d 0xB0 => s.readViolation d
        | _ => (s, s.registerWord a)

/-! ### The check (R486, R497, R657) -/

/-- An access is checked in its die; a refusal is recorded. -/
def State.checkAccess (s : State) (m : Master) (write : Bool) (a : Nat) : State × Bool :=
  let d := s.dieOfAddr a
  let k : Kind := if write then .write else .read
  let s := (s.countDie d 0x07 1 fun _ => true).searchToll d
  match s.tollCheck d (s.subject m) k 0xFFFE a with
  | .permit => (s, true)
  | .refuse r e => (s.violate d (s.subject m) { addr := a, target := 0xFFFE, kind := k, result := r, entry := e }, false)

/-- A read by the package's own keeper, as in a gather: its value, 0 when it is refused or discarded. -/
def State.keeperRead (s : State) (k a : Nat) : State × Nat :=
  match s.gateway (.keeper k) false a with
  | .go =>
    let (s, ok) := s.checkAccess (.keeper k) false a
    if ok && !s.heldAt a then s.readEffect (.keeper k) a else (s, 0)
  | _ => (s, 0)

end Sys2Proof.Machine
end

