-- ==== Sys2Proof/Machine/Pmon.lean ====
section
/-! DEFINITION. What the registers of the performance counters do when they are written (R631 to R636, R642 to R645): a gather by a keeper, ALL_ON and
ALL_OFF, and selections. -/

namespace Sys2Proof.Machine

/-- An item of the counter telemetry stream (Table 16-8) is put. -/
def State.putItem (s : State) (d kind scope cluster counter : Nat) (chained : Bool) (value : Nat) : State :=
  let w0 := kind * 2 ^ 60 + tabGet (fun _ => 0) s.batchNo d % 4096 * 2 ^ 48 + scope * 2 ^ 44 + cluster * 2 ^ 40 + counter * 2 ^ 32 + (if chained then 1 else 0)
  s.offer (.telemetry d) [w0, value % 2 ^ 64, value / 2 ^ 64 % 2 ^ 32, s.now]

/-- The keeper that gathers on die d: K(2d), or K(2d + 1) when that has failed (R644). -/
def State.gatherer (s : State) (d : Nat) : Nat := if s.keeperOk (2 * d) then 2 * d else 2 * d + 1

/-- One counter is read into the stream; the odd counter of a chained pair is taken from HIGH. -/
def State.gatherCounter (s : State) (d : Nat) (die : Bool) (i n : Nat) : State :=
  let pair := n % 2 = 0 && s.chained die i (n + 1)
  let (s, lo) := s.keeperRead (s.gatherer d) (ctrAddr die i n)
  let hi := if pair then s.get (if die then PMON_DIE_HI.HIGH i else PMON_CL_HI.HIGH i) else 0
  let s : State := { s with batchSize := tabPut (fun _ => 0) s.batchSize d (tabGet (fun _ => 0) s.batchSize d + 1) }
  s.putItem d 2 (if die then 2 else 1) (if die then 0 else i % 16) n pair (lo % 2 ^ 48 + hi * 2 ^ 48)

/-- GO in PMON_GATHER (R644). The batch ends by GATHER_COMPLETE. -/
def State.gather (s : State) (d : Nat) : State :=
  if s.flag (PMON_GATHER.BUSY d) then s
  else
    let s := s.setFlag (PMON_GATHER.BUSY d) true
    let s : State := { s with batchSize := tabPut (fun _ => 0) s.batchSize d 0 }
    let s := s.putItem d 1 0 0 0 false 0
    let cs := (List.range 16).filter fun c => s.bitOf (PMON_GATHER.CLUSTERS d) c
    let ns := (List.range 32).filter fun n => s.bitOf (PMON_GATHER.COUNTERS d) n
    let s := cs.foldl (fun (s : State) c => ns.foldl (fun (s : State) n =>
      if s.chained false (16 * d + c) n then s else s.gatherCounter d false (16 * d + c) n) s) s
    if s.flag (PMON_GATHER.DIE d) then
      (List.range 64).foldl (fun (s : State) n =>
        if s.chained true d n || !s.flag (PMON_DIE_SEL.ENABLE d n) then s else s.gatherCounter d true d n) s
    else s

/-- GATHER_COMPLETE (R644): the batch-end item carries the number of values put, and BUSY clears. -/
def execGatherComplete (d : Nat) (s₀ : State) : Host.Outcome State Fault Refusal :=
  let s := beginStep s₀
  finish s₀ (if !s.flag (PMON_GATHER.BUSY d) then s
    else
      let s := s.putItem d 3 0 0 0 false (tabGet (fun _ => 0) s.batchSize d)
      let s : State := { s with batchNo := tabPut (fun _ => 0) s.batchNo d ((tabGet (fun _ => 0) s.batchNo d + 1) % 4096) }
      s.setFlag (PMON_GATHER.BUSY d) false)

/-- A write of PMON_CL_CTL with SLOTS already written (R643). -/
def State.wrPmonCtl (s : State) (c : Nat) (v : Word) : State :=
  let off := v.getLsbD 2
  let on := v.getLsbD 1
  if on == off then s
  else (List.range 32).foldl (fun (s : State) n =>
    if s.slotSet false c n then s
    else if off then s.setFlag (PMON_CL_SEL.ENABLE c n) false
    else if s.get (PMON_CL_SEL.EVENT c n) ≠ 0 || s.chained false c n then s.setFlag (PMON_CL_SEL.ENABLE c n) true
    else s) s

end Sys2Proof.Machine
end

