-- ==== Sys2Proof/Machine/Write.lean ====
section
/-! DEFINITION. What a write does in each register of the control space: the access codes of its fields (Table 00-3, R12), and the registers whose
writes have an effect of their own. -/

namespace Sys2Proof.Machine

/-! ### Access codes (Table 00-3) -/

/-- One field of a register after a write. WO fields hold nothing. -/
def FieldRow.written (f : FieldRow) (old v : Word) : Word :=
  match f.access with
  | .rw | .rwl | .rws => setBits old f.lo f.width (getBits v f.lo f.width)
  | .w1c => old &&& ~~~(setBits 0 f.lo f.width (getBits v f.lo f.width))
  | .w1s => old ||| setBits 0 f.lo f.width (getBits v f.lo f.width)
  | .ro | .rc | .wo => old

/-- A register after a write of its fields. -/
def writtenWord (fs : List FieldRow) (old v : Word) : Word := fs.foldl (fun w f => f.written w v) old

/-- A write by the access codes alone. -/
def State.writeFields (s : State) (a : Nat) (v : Word) : State :=
  match fieldsAt a with
  | some fs => s.wr a (writtenWord fs (s.rd a) v)
  | none => s

/-! ### Injection (R478 to R480, Table 10-19) -/

/-- CHECKER and INSTANCE name a checker of a die's block, or of the package's (Table 10-19). -/
def State.checkerKnown (s : State) (die : Option Nat) (checker inst : Nat) : Bool :=
  match die with
  | none => checker = 0x0F && inst = 0
  | some d =>
    match checker with
    | 1 | 2 | 6 => decide (inst < 16)
    | 3 | 4 | 5 => decide (inst < 128)
    | 7 => decide (inst < 4096) && decide (inst % 256 < 129)
    | 8 => decide (inst < 16) || (decide (64 ≤ inst) && decide (inst < 70))
    | 9 => decide (inst < 16)
    | 10 => inst = 0
    | 11 => decide (inst < 256) && decide (inst % 16 < 14)
    | 12 => decide (inst < 64) && s.isBf (64 * d + inst)
    | 13 => decide (inst < s.numDies - 1)
    | 14 => decide (inst < 2)
    | 16 => decide (inst < 3)
    | _ => false

/-- A write of EVT_INJECT at an offset, its RW fields already written. -/
def State.wrInject (s : State) (die : Option Nat) (a : Nat) (v : Word) : State :=
  let remain : FieldRef := ⟨a, 8, 16⟩
  let mode := s.get ⟨a, 6, 2⟩
  if v.getLsbD 1 then s.set remain 0
  else if !v.getLsbD 0 || s.get remain ≠ 0 || mode = 0 || !s.checkerKnown die (s.get ⟨a, 40, 8⟩) (s.get ⟨a, 24, 16⟩) then s
  else if mode = 2 && s.mode ≠ 10 then (s.bump ⟨a, 2, 4⟩).raise (srcPkg 6) 0
  else s.set remain (max 1 (s.get ⟨a, 48, 16⟩))

/-! ### Scope reset and fence release (R481, R482, Table 10-16) -/

/-- The clusters a scope reset names, or none where R482 refuses it. -/
def State.resetScope (s : State) (cmd index : Nat) : Option (List Nat) :=
  if cmd = 1 then (if index < s.numClusters && !s.clusterHeld index then some [index] else none)
  else if index < s.numRegions && !s.regionFenced index && !(s.reload.any fun r => r.region = index) then some (regionClusters index)
  else none

/-- A write of PKG_SCOPE_RESET (R481, R482). -/
def State.wrScopeReset (s : State) (m : Master) (v : Word) : State :=
  let cmd := getBits v 60 4
  if cmd ≠ 1 && cmd ≠ 2 then s
  else
    let may := s.privileged m && decide (m ≠ .lead) && within 4 s.mode 10
    match s.resetScope cmd (getBits v 0 6), may with
    | some cs, true => (s.fenceClusters cs).bump PKG_SCOPE_RESET.RESETS
    | _, _ => s.bump PKG_SCOPE_RESET.REFUSED

/-- A write of PKG_FENCE_CL: each cluster named is released, both of an x16 pair together. A fenced region is left by a reload alone (Table 10-12). -/
def State.wrFenceCl (s : State) (v : Word) : State :=
  ((List.range s.numClusters).filter fun c => v.getLsbD c && !s.regionFenced (clusterRegion c)).foldl (fun (s : State) c =>
    (s.pairOf c).foldl (fun (s : State) k => s.releaseCluster k) s) s

/-! ### Ports, windows and lanes -/

/-- A write of PORT_LOCK (R347, Table 07-6): a value outside 4 to 1,000 leaves HOLD_LIMIT; a lengthening is planned, any other change is
republished (R399, Table 08-7 code 0x8). -/
def State.wrPortLock (s : State) (p : Nat) (v : Word) : State :=
  let was := s.get (PORT_LOCK.HOLD_LIMIT p)
  let old := s.flag (PORT_LOCK.LOCKABLE p)
  let limit := if within 4 (getBits v 32 16) 1000 then getBits v 32 16 else was
  let on := v.getLsbD 1
  let s := (s.set (PORT_LOCK.HOLD_LIMIT p) limit).setFlag (PORT_LOCK.LOCKABLE p) on
  let longer := (if on && !old then [Planned.lockable p] else []) ++ (if on && decide (was < limit) then [Planned.holdLimit p was] else [])
  if !longer.isEmpty then s.planLengthening longer 8
  else if on ≠ old || was ≠ limit then s.republish 8
  else s

/-- TRIGGER and RELEASE of a port's containment: both together leave it contained (R472, R261). -/
def State.wrContain (s : State) (p : Nat) (v : Word) : State :=
  if v.getLsbD 1 then s.containPort p 5 5
  else if v.getLsbD 2 then (if s.isPd p then s.releasePd p else s.releaseFabric p)
  else s

/-- A write of CL_WCON_CTL with WINDOW already written (R471, R472). -/
def State.wrWindowContain (s : State) (c : Nat) (v : Word) : State :=
  let w := 1024 * c + s.get (CL_WCON_CTL.WINDOW c)
  if v.getLsbD 16 then s.containWindow w else if v.getLsbD 17 then s.releaseWindow w else s

/-- A new contour of a lane starts (R152). -/
def State.newContour (s : State) (l : Nat) (target : Nat) : State := (s.stopScan l).set (LN_EYE.TARGET l) target

/-- A write of LN_EYE: COLUMN and EYE choose what TOP and BOTTOM show; a TARGET that differs starts a new contour (log entry 47). -/
def State.wrEye (s : State) (l : Nat) (v : Word) : State :=
  let was := s.get (LN_EYE.TARGET l)
  let s := s.writeFields (LN_EYE.addr l) v
  (if s.get (LN_EYE.TARGET l) = was then s else s.stopScan l).showEye l

/-- A write of WIN_STATE: ESCALATED that is cleared returns LOSS_SINCE to zero (R290). -/
def State.wrWinState (s : State) (w : Nat) (v : Word) : State :=
  let was := s.flag (WIN_STATE.ESCALATED w)
  let s := s.writeFields (WIN_STATE.addr w) v
  if was && !s.flag (WIN_STATE.ESCALATED w) then s.set (WIN_STATE.LOSS_SINCE w) 0 else s

/-! ### Reconciliation commands (R581, Table 13-7) -/

/-- What the data path holds of an item of Table 13-7. -/
def State.dataPath (s : State) (d item index : Nat) : List Nat :=
  match item with
  | 1 =>
    let p := 64 * d + index % 64
    [s.personality p, s.portWidth p, s.get (PORT_BOND.TX_MASK p), s.get (PORT_BOND.RX_MASK p),
     if s.isBf p then s.get (PORT_LINK.LL_STATE p) else s.get (PORT_PCIE.LINK_STATE p)]
  | 2 =>
    let w := 16384 * d + index % 16384
    [(s.rd (WIN_BASE.addr w)).toNat, (s.rd (WIN_LIMIT.addr w)).toNat, (s.rd (WIN_REMOTE.addr w)).toNat, (s.rd (WIN_ATTR.addr w)).toNat]
  | 3 => (List.range 4).map fun k => (s.tollWord d (index % 16384) k).toNat
  | 4 =>
    [if (if index < 0x400000 then
           let p := 64 * d + index % 64
           if s.isPd p then s.flag (PORT_DPC.CONTAINED p) else s.flag (PORT_CONTAIN.CONTAINED p)
         else if index < 0x800000 then s.windowContained (16384 * d + index % 16384)
         else s.clusterHeld (16 * d + index % 16)) then 1 else 0]
  | 5 =>
    let e := s.routeEntry d (index % 65536)
    [e.1, e.2]
  | _ => []

/-- The shadow's items of a die that differ from the data path. -/
def State.shadowOf (s : State) (d : Nat) : List ShadowItem := tabGet (fun _ => []) s.shadow d

/-- What the shadow holds of an item: what the data path holds where nothing is listed. -/
def State.shadowValue (s : State) (d item index : Nat) : List Nat :=
  match (s.shadowOf d).find? fun x => x.item = item && x.index = index with
  | some x => x.value
  | none => s.dataPath d item index

/-- ADOPT: the items take the data path's state. -/
def State.adopt (s : State) (d item index : Nat) (all : Bool) : State :=
  { s with shadow := tabPut (fun _ => []) s.shadow d ((s.shadowOf d).filter fun x => !(x.item = item && (all || x.index = index))) }

/-- FORCE of an access-control entry: a commit with the die's keeper as master (R581, R500). -/
def State.forceEntry (s : State) (d index : Nat) : State :=
  let k : Master := .keeper (s.gatherer d)
  let ws := s.shadowValue d 3 index
  let s := (List.range 3).foldl (fun (s : State) w => (s.tollStage k d (index % 16384) w (ws.getD w 0)).1) s
  s.tollCommit k d (index % 16384) (ws.getD 3 0)

/-- FORCE of a containment: a trigger or a release. -/
def State.forceContainment (s : State) (d index : Nat) : State :=
  let on := (s.shadowValue d 4 index).getD 0 0 ≠ 0
  if index < 0x400000 then
    let p := 64 * d + index % 64
    if on then s.containPort p 5 5 else if s.isPd p then s.releasePd p else s.releaseFabric p
  else if index < 0x800000 then
    let w := 16384 * d + index % 16384
    if on then s.containWindow w else s.releaseWindow w
  else
    let c := 16 * d + index % 16
    if on then s.fenceCluster c else if s.regionFenced (clusterRegion c) then s else (s.pairOf c).foldl (fun (s : State) k => s.releaseCluster k) s

/-- A write of DIE_RECON_CTL with its RW fields already written (R581, Table 13-16). -/
def State.wrReconCtl (s : State) (d : Nat) (v : Word) : State :=
  let adopt := v.getLsbD 0
  let force := v.getLsbD 1
  let all := s.flag (DIE_RECON_CTL.ALL d)
  let item := s.get (DIE_RECON_CTL.ITEM d)
  let index := s.get (DIE_RECON_CTL.INDEX d)
  if adopt == force || (force && all) then s
  else if adopt then s.adopt d item index all
  else if item = 3 then (s.setFlag (DIE_RECON_CTL.LAST_REFUSED d) false).forceEntry d index
  else if item = 4 then (s.setFlag (DIE_RECON_CTL.LAST_REFUSED d) false).forceContainment d index
  else s.setFlag (DIE_RECON_CTL.LAST_REFUSED d) true

/-! ### Keepers, counters, the Toll Table -/

/-- A write of DIE_KEEPER_WDT of keeper k (R569, Table 13-14). -/
def State.wrWatchdog (s : State) (m : Master) (k : Nat) (v : Word) : State :=
  if m ≠ .keeper k then s
  else
    let s := if within 1 (getBits v 16 10) 1000 then s.set (DIE_KEEPER_WDT.TIMEOUT k) (getBits v 16 10) else s
    if v.getLsbD 0 then { s with kickAt := tabPut (fun _ => 0) s.kickAt k s.now } else s

/-- A write of a counter's selection: CHAIN is reserved on even counters, and a counter of the slot set ignores it (R635, R642). -/
def State.wrSelection (s : State) (die : Bool) (i n : Nat) (v : Word) : State :=
  if s.slotSet die i n then s else s.writeFields (selAddr die i n) (if n % 2 = 0 then v &&& ~~~8 else v)

/-- A write of a word of an entry of the Toll Table: words 0 to 2 are staged, word 3 commits (R499, R500). -/
def State.wrToll (s : State) (m : Master) (d i w : Nat) (v : Word) : State × Nat :=
  if w = 3 then (s.tollCommit m d i v.toNat, 0)
  else
    let (s, x) := s.tollStage m d i w v.toNat
    (match m with
      | .inband _ _ => if x = 0 then { s with stagedAt := tabPut (fun _ => 0) s.stagedAt d s.now } else s
      | _ => s, x)

end Sys2Proof.Machine
end

