-- ==== Sys2Proof/Machine/Control.lean ====
section
/-! DEFINITION. Accesses of the control space from their originators to their answers (R551, R566 to R568, R572 to R577, R657 to R660): the towpath, the
in-band access registers and server, and what a write does at each address. -/

namespace Sys2Proof.Machine

/-! ### Answers (Table 13-5) -/

/-- A value as one payload element (R200). -/
def elementBytes (v : Nat) : List Byte := beBytes 8 v

/-- A control port's in-band access completes (R577, Table 13-11). -/
def State.completeInband (s : State) (n status value : Nat) : State :=
  let read := match (s.cport n).inband with
    | some x => decide (x.op = 1)
    | none => false
  let s := s.setCport n { s.cport n with inband := none }
  let s := ((s.setFlag (PKG_CP_IBA_STAT.BUSY n) false).set (PKG_CP_IBA_STAT.MSTAT n) status).bump (PKG_CP_IBA_STAT.COMPLETED n)
  let s := if read && (status = csOk || status = csDenied) then s.set (PKG_CP_IBA_DATA.VALUE n) value else s
  s.interruptCp n 1

/-- The response to a CS_READ or CS_WRITE (R571, Table 13-6). -/
def State.respondInband (s : State) (k : Packet) (status value : Nat) : State :=
  let read := k.sub % 64 = 1
  s.originate { ptype := 0xA, vc := 3, cls := k.cls, dest := k.src, src := k.dest, tag := k.tag, sub := 0x80 + k.sub % 64, noWin := true
                len := if read then 8 else 0, addr := status, deadline := s.now % 2 ^ 48, payload := if read then elementBytes value else [] }

/-- An access is answered to whoever waits for it. A write of a control port that was not done is counted (Table 13-9). -/
def State.reply (s : State) (m : Master) (r : TowReply) (write : Bool) (status value : Nat) : State :=
  let s := match m with
    | .cp n => if write && decide (csDiscarded ≤ status) then s.bump (PKG_CP_STATE.DISCARDED n) else s
    | _ => s
  match r with
  | .plain => s.emit (.controlAnswer m status value)
  | .packet k =>
    let s := if status = csOk || status = csDenied then s.bump PKG_MGT_STAT.SERVED
      else if status = csNotAccepted then s.bump PKG_MGT_STAT.NOT_ACCEPTED else s
    s.respondInband k status value
  | .inband n => s.completeInband n status value
  | .i3c n =>
    s.setCport n { s.cport n with setup := (s.cport n).setup.map fun x => { x with done := some (status, value) } }

/-! ### Submission: the mode, the check, and the towpath -/

/-- The accesses that wait before this one could: of the same originator to the same die (R567). -/
def State.towBehind (s : State) (m : Master) (a : Nat) : Bool := s.tow.any fun c => c.master = m && s.dieOfAddr c.addr = s.dieOfAddr a

/-- An access leaves its originator: what the mode does not serve is answered at once, a refused one by R497, and any other takes the towpath. -/
def State.submit (s : State) (m : Master) (write : Bool) (a : Nat) (v : Nat) (r : TowReply) : State :=
  match s.gateway m write a with
  | .silent => s
  | .ignored => s.reply m r write csOk 0
  | .discarded => s.reply m r write csDiscarded 0
  | .go =>
    let (s, ok) := s.checkAccess m write a
    if ok then { s with tow := s.tow ++ [{ master := m, addr := a, write := write, value := v, since := s.now, reply := r }] }
    else s.reply m r write csDenied 0

/-- An access that reaches its block at once: the mode serves it, its die permits it, and nothing makes it wait or end short (R657 to R660). -/
def State.reaches (s : State) (m : Master) (write : Bool) (a : Nat) : Bool :=
  s.gateway m write a = .go && s.tollCheck (s.dieOfAddr a) (s.subject m) (if write then .write else .read) 0xFFFE a = .permit &&
    !s.ecc.any (tollHurt (s.dieOfAddr a)) && !s.gatedAt a && !s.heldAt a && s.tow.isEmpty

/-! ### The in-band access registers (R577) -/

/-- GO in PKG_CPn_IBA_CTL with its RW fields already written: an access to the port's own rank is made here, any other leaves as a packet. The TAG is the
model's own count, and CLASS 0b11 sends in a free class (log entries 10, 48). -/
def State.startInband (s : State) (n : Nat) : State :=
  let op := s.get (PKG_CP_IBA_CTL.OP n)
  if s.flag (PKG_CP_IBA_STAT.BUSY n) || (op ≠ 1 && op ≠ 2) then s
  else
    let rank := s.get (PKG_CP_IBA_CTL.RANK n)
    let a := 8 * s.get (PKG_CP_IBA_CTL.OFFSET n)
    let data := s.get (PKG_CP_IBA_DATA.VALUE n)
    let tag := s.nextId % 16384
    let s := s.setFlag (PKG_CP_IBA_STAT.BUSY n) true
    let s := State.setCport { s with nextId := s.nextId + 1 } n { s.cport n with inband := some { op := op, rank := rank, tag := tag, sent := s.now } }
    if rank = s.rank then s.submit (.cp n) (op = 2) a data (.inband n)
    else
      let cls := s.get (PKG_CP_IBA_CTL.CLASS n)
      let (s, cls) := if cls = 3 then (s.tookFree, s.free % 3) else (s, cls)
      s.originate { ptype := 0xA, vc := 3, cls := cls, dest := 1024 * rank + 780, src := s.fabricId (781 + n), tag := tag
                    sub := (if s.cpPrivileged n then 0x40 else 0) + op, noWin := true, len := if op = 2 then 8 else 0, addr := a
                    deadline := s.now % 2 ^ 48, payload := if op = 2 then elementBytes data else [] }

/-! ### Writes by address -/

/-- PKG_MODE_CTL: in M11 only RESET acts (Table 14-1). -/
def State.writeMode (s : State) (m : Master) (v : Word) : State := if s.mode = 11 && getBits v 52 4 ≠ 4 then s else s.wrModeCtl m v

/-- The rights in the domain change only from this package's control ports and keepers (Table 13-12). -/
def Master.sameMaster : Master → Bool
  | .cp _ | .keeper _ | .debug => true
  | .inband _ _ | .lead => false

/-- A write of a control port's registers (Table 17-3), at an offset within its 0x800 bytes. -/
def State.writePort (s : State) (n o : Nat) (v : Word) : State :=
  let s := s.writeFields (cpBase n + o) v
  if o = 8 && v.getLsbD 0 then s.startInband n else s

/-- A write of the package block (Table 17-2). DESIGN CHOICE: a write of PKG_SBS_CTL writes BOOT_SEL, RELOAD_REGION and TARGET also where its CMD is ignored for want
of SEM00 (log entry 54). -/
def State.writePackage (s : State) (m : Master) (o : Nat) (v : Word) : State :=
  if o = PKG_MODE_CTL.addr then s.writeMode m v
  else if o = PKG_FENCE_CL.addr then s.wrFenceCl v
  else if o = TOLL_FENCE.addr then (if v.getLsbD 0 then s.fenceGo else s)
  else if o = PKG_EVT_INJECT.addr then (s.writeFields o v).wrInject none o v
  else if o = PKG_SCOPE_RESET.addr then s.wrScopeReset m v
  else if o = PKG_SBS_CTL.addr then (s.writeFields o v).wrSbsCtl m v
  else if o = PKG_NVS_CTL.addr then (if s.mayStore m then (s.writeFields o v).wrNvsCtl m v else s)
  else if 0x2040 ≤ o && o < 0x2080 then (if s.mayStore m then s.writeFields o v else s)
  else if 0x3000 ≤ o && o < 0x4000 then s.stageWrite m v
  else if o = SEAL_CTL.addr then (s.writeFields o v).wrSealCtl m v
  else if 0x5000 ≤ o && o < 0x5200 then s.semWrite m ((o - 0x5000) / 8)
  else if 0x6000 ≤ o && o < 0x7000 then s.writePort ((o - 0x6000) / 0x800) (o % 0x800) v
  else if o = PKG_MGT_ACCEPT.addr || o = PKG_MGT_PRIV.addr then (if m.sameMaster then s.writeFields o v else s)
  else if o = PKG_MEAS_CTL.addr then (s.writeFields o v).wrMeasCtl m v
  else s.writeFields o v

/-- A write of a die's block (Table 17-7), and the status of a write to the Toll Table by an in-band master. -/
def State.writeDie (s : State) (m : Master) (d o : Nat) (v : Word) : State × Nat :=
  let a := dieBase d + o
  if o = 0x18 || o = 0x20 then (s.wrWatchdog m (2 * d + (o - 0x18) / 8) v, csOk)
  else if o = 0x30 then ((s.writeFields a v).wrReconCtl d v, csOk)
  else if o = 0x48 then
    let s := s.writeFields a v
    (s.latchTally true d (s.get (DIE_TALLY_SEL.INDEX d)), csOk)
  else if o = 0x78 then ((s.writeFields a v).wrInject (some d) a v, csOk)
  else if o = 0xD0 then
    let s := s.writeFields a v
    (if v.getLsbD 0 then s.gather d else s, csOk)
  else if 0x4000 ≤ o && o < 0x4200 then (s.wrSelection true d ((o - 0x4000) / 8) v, csOk)
  else if 0x1000000 ≤ o && o < 0x1080000 then s.wrToll m d ((o - 0x1000000) / 32) (o % 32 / 8) v
  else (s.writeFields a v, csOk)

/-- A write of a cluster's block (Table 17-9). -/
def State.writeCluster (s : State) (c o : Nat) (v : Word) : State :=
  let a := clusterBase c + o
  let p := 4 * c + (o - 0x2000) / 0x200
  let r := o % 0x200
  if o = 0x28 then
    let s := s.writeFields a v
    s.latchTally false c (s.get (CL_TALLY_SEL.INDEX c))
  else if o = 0x58 then (s.writeFields a v).wrWindowContain c v
  else if o = 0x68 then (s.writeFields a v).wrPmonCtl c v
  else if 0x1000 ≤ o && o < 0x1800 && o % 0x100 = 0x10 then s.wrEye (8 * c + (o - 0x1000) / 0x100) v
  else if 0x2000 ≤ o && o < 0x2800 then
    if r = 0x38 || r = 0x48 then s.wrContain p v
    else if r = 0x40 then s.wrPortLock p v
    else if r = 0x68 then (if v.getLsbD 0 then s.wakePort p else s)
    else s.writeFields a v
  else if 0x4000 ≤ o && o < 0x4100 then s.wrSelection false c ((o - 0x4000) / 8) v
  else if 0x10000 ≤ o && o < 0x20000 && o % 64 = 0x20 then s.wrWinState (1024 * c + (o - 0x10000) / 64) v
  else s.writeFields a v

/-- A write reaches its block, and its status. Reserved space and a gated cluster take no effect (R658, R660). -/
def State.writeEffect (s : State) (m : Master) (a : Nat) (v : Word) : State × Nat :=
  if s.gatedAt a then (s, csOk)
  else match doeAt a, s.dataWordAt a with
    | some (n, o), _ => (s.writeDoe n o (getBits v 0 32), csOk)
    | none, some (te, b) => (s.putEngine te b (leBytes 8 v.toNat), csOk)
    | none, none =>
      match s.blockAt a with
      | .package o => if (0x3000 ≤ o && o < 0x4000) || s.hasReg a then (s.writePackage m o v, csOk) else (s, csOk)
      | .die d o => if s.hasReg a then s.writeDie m d o v else (s, csOk)
      | .cluster c o => if s.hasReg a then (s.writeCluster c o v, csOk) else (s, csOk)
      | .reserved => (s, csOk)

/-! ### The towpath delivers (R567, R568) -/

/-- A command reaches its block and is answered. -/
def State.performTow (s : State) (c : TowCommand) : State :=
  if c.write then
    let (s, x) := s.writeEffect c.master c.addr (BitVec.ofNat 64 c.value)
    s.reply c.master c.reply true x 0
  else
    let (s, v) := s.readEffect c.master c.addr
    s.reply c.master c.reply false csOk v

/-- Every command that can proceed does, in the order issued; one whose crossing is in reset waits, and what its originator sent to the same die after
it waits behind it. -/
def State.deliverTow (s : State) : State :=
  s.tow.foldl (fun (s : State) c =>
    if s.heldAt c.addr || s.towBehind c.master c.addr then { s with tow := s.tow ++ [c] } else s.performTow c) { s with tow := [] }

/-- The towpath runs until what a command has itself begun is done: a control port's in-band access to its own rank, and one that it starts. -/
def State.runTow (s : State) : State := (List.range 3).foldl (fun (s : State) _ => if s.tow.isEmpty then s else s.deliverTow) s

/-- A control-space access (R551, R566, R657). An offset that is not one of an aligned register is dropped and counted (R550). -/
def State.access (s : State) (m : Master) (write : Bool) (a v : Nat) (r : TowReply := .plain) : State :=
  if a % 8 ≠ 0 || 2 ^ 30 ≤ a then
    match m with
    | .cp n => if s.masterPresent m && decide (2 ≤ s.mode) then s.bump (PKG_CP_STATE.BAD_ACCESS n) else s
    | _ => s
  else (s.submit m write a v r).runTow

/-- A write by a master. -/
def State.controlWrite (s : State) (m : Master) (a : Nat) (v : Nat) : State := s.access m true a v

/-- A read by a master. -/
def State.controlRead (s : State) (m : Master) (a : Nat) : State := s.access m false a 0

end Sys2Proof.Machine
end

