-- ==== Sys2Proof/Machine/Manage.lean ====
section
/-! DEFINITION. The control ports and what reaches them (R547 to R565, R573 to R577, R683): I3C transfers and CCCs, link changes, semaphores, in-band
accesses both ways, NOTICE, reconciliation passes, and the crossings' releases (R541 to R545). -/

namespace Sys2Proof.Machine

/-! ### Link changes (R562, R576, R683) -/

/-- The ranks that the route table of the lead's die reaches (R576). -/
def State.reachedRanks (s : State) : List Nat :=
  (List.range 64).filter fun r => decide (r ≠ s.rank) &&
    (decide ((s.routeEntry s.leadDie (1024 * r + 780)).1 ≠ 0xFFFF) || decide ((s.routeEntry s.leadDie (1024 * r + 780)).2 ≠ 0xFFFF))

/-- A NOTICE naming a control port goes to every such rank (R576, Table 13-6). Before a structure is applied no route exists. -/
def State.sendNotice (s : State) (n : Nat) : State :=
  if s.mode < 4 then s
  else
    s.reachedRanks.foldl (fun (s : State) r =>
      s.originate { ptype := 0xA, vc := 3, cls := 0, dest := 1024 * r + 780, src := s.fabricId 780, sub := 0x04, noWin := true, addr := s.fabricId (781 + n)
                    deadline := s.now % 2 ^ 48 }) s

/-- A control port's link goes down: its semaphores are released and a NOTICE is sent (R562, R565, R576). -/
def State.cpDown (s : State) (n : Nat) : State :=
  if !s.flag (PKG_CP_STATE.LINK_UP n) then s
  else
    let s := (s.setFlag (PKG_CP_STATE.LINK_UP n) false).bump (PKG_CP_STATE.LINK_DOWNS n)
    let s := s.setCport n { s.cport n with setup := none, address := 0 }
    (s.dropHolder (s.fabricId (781 + n))).sendNotice n

/-- A command of a control port of this part that a board can see in the present mode. -/
def State.cpAlive (s : State) (n : Nat) : Bool := decide (n < 2) && s.mode ≠ 0

/-- CP_LINK_DOWN (R562). -/
def execCpLinkDown (n : Nat) (s₀ : State) : Host.Outcome State Fault Refusal :=
  let s := beginStep s₀
  finish s₀ (if s.cpAlive n then s.cpDown n else s)

/-- CP_PERST_ASSERT (R683). Under the I3C strap the contact is unused. -/
def execCpPerstAssert (n : Nat) (s₀ : State) : Host.Outcome State Fault Refusal :=
  let s := beginStep s₀
  finish s₀ (if s.cpAlive n && !s.isI3c n then (s.setCport n { s.cport n with perst := true }).cpDown n else s)

/-- CP_LINK_UP (R683): the reset contact is released and the PCI Express link is up. -/
def execCpLinkUp (n : Nat) (s₀ : State) : Host.Outcome State Fault Refusal :=
  let s := beginStep s₀
  finish s₀ (if s.cpAlive n && !s.isI3c n then (s.setCport n { s.cport n with perst := false }).setFlag (PKG_CP_STATE.LINK_UP n) true else s)

/-! ### I3C (R552 to R554) -/

/-- A command of a live I3C port. -/
def State.i3cAlive (s : State) (n : Nat) : Bool := s.cpAlive n && s.isI3c n

/-- The static address of an I3C port (R552). -/
def State.i3cStatic (s : State) (n : Nat) : Nat := 0x60 + 4 * n + s.modes.bootStraps.cpSa % 4

/-- The Provisioned ID, BCR and DCR of a port, most significant byte first. -/
def i3cIdentity (n : Nat) : List Byte := beBytes 6 (Config.i3cPid n).toNat ++ [Config.i3cBcr n, Config.i3cDcr n]

/-- The port takes a dynamic address, and its link is up (log entry 49). -/
def State.takeAddress (s : State) (n address : Nat) : State :=
  (s.setCport n { s.cport n with address := address }).setFlag (PKG_CP_STATE.LINK_UP n) true

/-- I3C_ENTDAA (R552): the port answers with its identity and takes the address. -/
def execI3cEntdaa (n address : Nat) (s₀ : State) : Host.Outcome State Fault Refusal :=
  let s := beginStep s₀
  finish s₀ (if s.i3cAlive n && (s.cport n).address = 0 then (s.emit (.i3cCcc n (i3cIdentity n))).takeAddress n address else s)

/-- I3C_SETDASA (R552): the port answers at its static address. -/
def execI3cSetdasa (n static address : Nat) (s₀ : State) : Host.Outcome State Fault Refusal :=
  let s := beginStep s₀
  finish s₀ (if s.i3cAlive n && static = s.i3cStatic n && (s.cport n).address = 0 then (s.emit (.i3cCcc n [])).takeAddress n address else s)

/-- I3C_RSTDAA (R562): the address is given up and the link is down. -/
def execI3cRstdaa (n : Nat) (s₀ : State) : Host.Outcome State Fault Refusal :=
  let s := beginStep s₀
  finish s₀ (if s.i3cAlive n then s.cpDown n else s)

/-- I3C_RSTACT (R562). -/
def execI3cRstact (n : Nat) (targetReset : Bool) (s₀ : State) : Host.Outcome State Fault Refusal :=
  let s := beginStep s₀
  finish s₀ (if s.i3cAlive n && targetReset then s.cpDown n else s)

/-- A directed CCC is answered by a port that has an address. -/
def State.i3cAnswer (s : State) (n : Nat) (bytes : List Byte) : State := if s.i3cAlive n && (s.cport n).address ≠ 0 then s.emit (.i3cCcc n bytes) else s

/-- I3C_GETPID (R552). -/
def execI3cGetpid (n : Nat) (s₀ : State) : Host.Outcome State Fault Refusal := finish s₀ ((beginStep s₀).i3cAnswer n (beBytes 6 (Config.i3cPid n).toNat))

/-- I3C_GETBCR (R552). -/
def execI3cGetbcr (n : Nat) (s₀ : State) : Host.Outcome State Fault Refusal := finish s₀ ((beginStep s₀).i3cAnswer n [Config.i3cBcr n])

/-- I3C_GETDCR (R552). -/
def execI3cGetdcr (n : Nat) (s₀ : State) : Host.Outcome State Fault Refusal := finish s₀ ((beginStep s₀).i3cAnswer n [Config.i3cDcr n])

/-- I3C_GETSTATUS (R552). The two status bytes are a free value (log entry 50). -/
def execI3cGetstatus (n : Nat) (s₀ : State) : Host.Outcome State Fault Refusal :=
  let s := beginStep s₀
  finish s₀ (s.i3cAnswer n (beBytes 2 s.free)).tookFree

/-- Bits [2:0] and [31:30] of an offset are zero (R553). -/
def i3cOffset (b : List Byte) : Option Nat :=
  let a := leNat ((b.drop 1).take 4)
  if a % 8 = 0 && a < 2 ^ 30 then some a else none

/-- A private transfer that breaks Table 13-2 (R553). -/
def State.i3cBad (s : State) (n : Nat) : State := s.bump (PKG_CP_STATE.BAD_ACCESS n)

/-- I3C_WRITE_ACCESS (R553). -/
def execI3cWriteAccess (n : Nat) (bytes : List Byte) (s₀ : State) : Host.Outcome State Fault Refusal :=
  let s := beginStep s₀
  finish s₀ (if !s.i3cAlive n || !s.masterPresent (.cp n) then s
    else if bytes.length ≠ 13 || (bytes.getD 0 0).toNat ≠ 2 then s.i3cBad n
    else match i3cOffset bytes with
      | some a => s.access (.cp n) true a (leNat ((bytes.drop 5).take 8))
      | none => s.i3cBad n)

/-- I3C_READ_SETUP (R553, R554): the setup replaces any pending one. The access itself is made when its result is fetched (log entry 49). -/
def execI3cReadSetup (n : Nat) (bytes : List Byte) (s₀ : State) : Host.Outcome State Fault Refusal :=
  let s := beginStep s₀
  finish s₀ (if !s.i3cAlive n || !s.masterPresent (.cp n) then s
    else if bytes.length ≠ 5 || (bytes.getD 0 0).toNat ≠ 1 || (i3cOffset bytes).isNone then
      (s.setCport n { s.cport n with setup := some {} }).i3cBad n
    else s.setCport n { s.cport n with setup := some { offset := i3cOffset bytes } })

/-- What an I3C controller sees of a status (Table 13-5): done, or discarded. -/
def i3cStatus (status : Nat) : Nat := if status ≤ csDenied then 0 else 2

/-- The nine bytes of a read result (Table 13-2). -/
def i3cResult (value status : Nat) : List Byte := leBytes 8 value ++ leBytes 1 status

/-- I3C_READ_RESULT (R554). -/
def execI3cReadResult (n : Nat) (ready : Bool) (s₀ : State) : Host.Outcome State Fault Refusal :=
  let s := beginStep s₀
  finish s₀ (if !s.i3cAlive n || !s.masterPresent (.cp n) then s
    else match (s.cport n).setup with
      | none => s.emit (.i3cBytes n (i3cResult 0 4))
      | some x =>
        match x.offset with
        | none => (s.setCport n { s.cport n with setup := none }).emit (.i3cBytes n (i3cResult 0 3))
        | some a =>
          if !ready then s.emit (.i3cBytes n (i3cResult 0 1))
          else
            let s : State := if x.sent then s else (s.setCport n { s.cport n with setup := some { x with sent := true } }).access (.cp n) false a 0 (.i3c n)
            match (s.cport n).setup.bind (·.done) with
            | some (st, v) => (s.setCport n { s.cport n with setup := none }).emit (.i3cBytes n (i3cResult v (i3cStatus st)))
            | none => s.emit (.i3cBytes n (i3cResult 0 1)))

/-! ### In-band management (R571 to R577) -/

/-- A CS_READ or CS_WRITE that the package accepts (R573). -/
def State.acceptsInband (s : State) (p : Nat) (k : Packet) : Bool :=
  k.dest = s.fabricId 780 && (k.src % 1024 = 781 || k.src % 1024 = 782) && s.bitOf PKG_MGT_ACCEPT.VALUE (k.src / 1024) &&
    s.routeBf s.leadDie k.src = some p

/-- The offset in H2 (Table 13-6). -/
def Packet.csOffset (k : Packet) : Nat := k.addr / 8 % 2 ^ 27 * 8

/-- The writes that no in-band access performs (R575). -/
def inbandForbidden (a v : Nat) : Bool :=
  a = PKG_MGT_ACCEPT.addr || a = PKG_MGT_PRIV.addr || a = SEAL_CTL.addr || (decide (0x6000 ≤ a) && decide (a < 0x7000)) ||
    (a = PKG_MODE_CTL.addr && v / 2 ^ 52 % 16 = 3)

/-- A request of the in-band access server: performed as an access of its sender, or answered not accepted (R573 to R575). -/
def State.serveInband (s : State) (p : Nat) (k : Packet) (write : Bool) : State :=
  let v := beNat (k.payload.take 8)
  let m : Master := .inband k.src (k.sub.testBit 6)
  if !s.isBf p || s.mode < 2 || k.sub.testBit 7 || k.sub % 64 ≠ (if write then 2 else 1) then s
  else if !s.acceptsInband p k || (write && inbandForbidden k.csOffset v) then s.reply m (.packet k) write csNotAccepted 0
  else s.access m write k.csOffset v (.packet k)

/-- CS_READ_RECEIVE (R573, R574). -/
def execCsReadReceive (p : Nat) (pkt : Packet) (s₀ : State) : Host.Outcome State Fault Refusal := finish s₀ ((beginStep s₀).serveInband p pkt false)

/-- CS_WRITE_RECEIVE (R573 to R575). -/
def execCsWriteReceive (p : Nat) (pkt : Packet) (s₀ : State) : Host.Outcome State Fault Refusal := finish s₀ ((beginStep s₀).serveInband p pkt true)

/-- The word of PKG_CPn_IBA_CTL that starts an access. -/
def inbandWord (op rank cls offset : Nat) : Nat := rank % 64 * 2 ^ 58 + op * 2 ^ 56 + cls % 4 * 2 ^ 54 + offset / 8 % 2 ^ 27 * 8 + 1

/-- IBA_CS_READ (R577). -/
def execIbaCsRead (n rank cls offset : Nat) (s₀ : State) : Host.Outcome State Fault Refusal :=
  finish s₀ ((beginStep s₀).controlWrite (.cp n) (PKG_CP_IBA_CTL.addr n) (inbandWord 1 rank cls offset))

/-- IBA_CS_WRITE (R577). The value is PKG_CPn_IBA_DATA. -/
def execIbaCsWrite (n rank cls offset : Nat) (s₀ : State) : Host.Outcome State Fault Refusal :=
  finish s₀ ((beginStep s₀).controlWrite (.cp n) (PKG_CP_IBA_CTL.addr n) (inbandWord 2 rank cls offset))

/-- IBA_RESPONSE_RECEIVE (R577): the response to the access outstanding completes it; any other came too late. -/
def execIbaResponseReceive (pkt : Packet) (s₀ : State) : Host.Outcome State Fault Refusal :=
  let s := beginStep s₀
  let n := pkt.dest % 1024 - 781
  finish s₀ (if pkt.dest / 1024 ≠ s.rank || pkt.dest % 1024 < 781 || 782 < pkt.dest % 1024 || !pkt.sub.testBit 7 then s
    else match (s.cport n).inband with
      | some x =>
        if x.tag = pkt.tag && pkt.src = 1024 * x.rank + 780 && pkt.sub % 64 = x.op then s.completeInband n (pkt.addr % 8) (beNat (pkt.payload.take 8))
        else s.bump (PKG_CP_IBA_STAT.LATE n)
      | none => s.bump (PKG_CP_IBA_STAT.LATE n))

/-- IBA_TIMEOUT (R577). -/
def execIbaTimeout (n : Nat) (s₀ : State) : Host.Outcome State Fault Refusal :=
  let s := beginStep s₀
  finish s₀ (match (s.cport n).inband with
    | some x => (s.waitUntil (x.sent + 10000000 * ticksPerNs)).completeInband n csTimeout 0
    | none => s)

/-- NOTICE_RECEIVE (R562, R576): the control port it names loses the semaphores and the staging buffers it holds here. -/
def execNoticeReceive (pkt : Packet) (s₀ : State) : Host.Outcome State Fault Refusal :=
  let s := beginStep s₀
  let id := pkt.addr % 65536
  finish s₀ (if s.mode < 2 then s
    else
      let s := s.bump PKG_MGT_STAT.NOTICES
      if id / 1024 = s.rank then s else s.dropHolder id)

/-! ### The towpath and the crossings (R541 to R545, R568) -/

/-- One of the sixteen commands that an originator may have outstanding to a die is done: the seventeenth leaves the originator now (R567). -/
def enterNext (same : TowCommand → Bool) (now : Nat) : Nat → List TowCommand → List TowCommand
  | _, [] => []
  | k, c :: rest =>
    if !same c then c :: enterNext same now k rest
    else if k = 16 then { c with since := now } :: rest
    else c :: enterNext same now (k + 1) rest

/-- TOWPATH_TIMEOUT (R568): the oldest command that waits at a cluster's crossing is withdrawn, not performed, and answered TIMEOUT. -/
def execTowpathTimeout (c : Nat) (s₀ : State) : Host.Outcome State Fault Refusal :=
  let s := beginStep s₀
  let mine := fun (x : TowCommand) => s.blockAt x.addr == .cluster c (x.addr - clusterBase c)
  finish s₀ (match s.tow.find? mine with
    | none => s
    | some x =>
      let s := s.waitUntil (x.since + 100000 * ticksPerNs)
      let same := fun (y : TowCommand) => y.master = x.master && s.dieOfAddr y.addr = s.dieOfAddr x.addr
      let s : State := { s with tow := (enterNext same s.now 0 s.tow).eraseP mine }
      (s.reply x.master x.reply x.write csTimeout 0).runTow)

/-- CROSSING_RELEASE (R541, R542): a crossing leaves crossing-reset; what waited at crossing 11 of a cluster goes through. -/
def execCrossingRelease (x : Nat) (s₀ : State) : Host.Outcome State Fault Refusal := finish s₀ ((beginStep s₀).leaveReset x).runTow

/-- CLOCK_RETURN (R522, R545): the clock of a side runs again, and a reset of that side that waited for it takes effect. The near side's clock of a
cluster crossing is the cluster's branch, which a gated cluster keeps stopped. -/
def execClockReturn (x : Nat) (far : Bool) (s₀ : State) : Host.Outcome State Fault Refusal :=
  let s := beginStep s₀
  let y := s.crossing x
  finish s₀ (
    if far then s.setCrossing x { y with farStopped := false }
    else if !y.nearStopped || (decide (x < 1024) && s.gated.testBit (x / 16)) then s
    else
      let s := s.setCrossing x { y with nearStopped := false, nearPending := false }
      if !y.nearPending then s
      else if x < 1024 && s.clusterHeld (x / 16) then s.resetCrossing x
      else (s.resetCrossing x).releaseHalf x)

/-! ### The Toll and its fence -/

/-- TOLL_COMMIT_RELEASE (R509). -/
def execTollCommitRelease (d : Nat) (s₀ : State) : Host.Outcome State Fault Refusal := finish s₀ ((beginStep s₀).releaseCommit d)

/-- TOLL_STAGING_TIMEOUT (R499). -/
def execTollStagingTimeout (d : Nat) (s₀ : State) : Host.Outcome State Fault Refusal :=
  let s := beginStep s₀
  finish s₀ (if s.stageHeldBy d = 0 then s else (s.waitUntil (tabGet (fun _ => 0) s.stagedAt d + 10000000 * ticksPerNs)).freeStaging d)

/-- FENCE_COMPLETE (R510). -/
def execFenceComplete (s₀ : State) : Host.Outcome State Fault Refusal := finish s₀ (beginStep s₀).fenceComplete

/-! ### Reconciliation (R579, R580) -/

/-- The region that an item of a die belongs to, when it belongs to one. -/
def itemRegion (d item index : Nat) : Option Nat :=
  if item = 1 then some (4 * d + index % 64 / 16)
  else if item = 2 then some (4 * d + index % 16384 / 4096)
  else if item = 4 then
    some (4 * d + (if index < 0x400000 then index % 64 / 16 else if index < 0x800000 then index % 16384 / 4096 else index % 16 / 4))
  else none

/-- The items of a fenced region, or of one in the apply step of a reload, are deferred (R579). -/
def State.deferred (s : State) (d : Nat) (x : ShadowItem) : Bool :=
  match itemRegion d x.item x.index with
  | some g => s.regionFenced g || s.reload.any fun r => r.region = g && r.stage = .applying
  | none => false

/-- An item that differs is recorded (R580). -/
def State.disagree (s : State) (d : Nat) (x : ShadowItem) : State :=
  (((s.raise (srcDie d 12) 0).bump (DIE_RECON.DISAGREE d)).set (DIE_RECON.ITEM d) x.item).set (DIE_RECON.INDEX d) x.index

/-- RECONCILE_PASS (R579, R580): `reports` is what the shadow has come to hold of items since the last pass; items not named in it or before hold what
the data path holds. -/
def execReconcilePass (d : Nat) (reports : List ShadowItem) (s₀ : State) : Host.Outcome State Fault Refusal :=
  let s := beginStep s₀
  finish s₀ (if !within 5 s.mode 9 || s.numDies ≤ d || !s.healthy d then s
    else
      let kept := (s.shadowOf d).filter fun x => !reports.any fun y => y.item = x.item && y.index = x.index
      let items := (kept ++ reports.filter fun x => within 1 x.item 5).filter fun x => x.value ≠ s.dataPath d x.item x.index
      let s : State := { s with shadow := tabPut (fun _ => []) s.shadow d items }
      ((items.filter fun x => !s.deferred d x).foldl (fun (s : State) x => s.disagree d x) s).bump (DIE_RECON.PASSES d))

end Sys2Proof.Machine
end

