-- ==== Sys2Proof/Machine/Commands.lean ====
section
/-! DEFINITION. The commands that are writes and reads of control space by a master: each makes its access at the address of its register, with the value
that its operands spell, and every rule of access applies to it (R550, R566, R657 to R660). -/

namespace Sys2Proof.Machine

/-- A write by a master. -/
def writeStep (m : Master) (a v : Nat) (s₀ : State) : Host.Outcome State Fault Refusal := finish s₀ ((beginStep s₀).controlWrite m a v)

/-- A read by a master. -/
def readStep (m : Master) (a : Nat) (s₀ : State) : Host.Outcome State Fault Refusal := finish s₀ ((beginStep s₀).controlRead m a)

/-- The answer to a read of which only half was asked for (R550). -/
def Output.halved (upper : Bool) : Output → Output
  | .controlAnswer m status v => .controlAnswer m status (if upper then v / 2 ^ 32 else v % 2 ^ 32)
  | o => o

/-- An access of a control port that is not of a whole register (R550): under the PCI Express strap a write is dropped and counted, a read of one half returns a half of
one sample, and a read of any other size, or of a register whose read has an effect, is answered UR and has none. Under the I3C strap, and of any other master,
there is no such access. -/
def State.partAccess (s : State) (m : Master) (write effect : Bool) (a : Nat) (x : AccessWidth) : State :=
  match m with
  | .cp n =>
    if !s.masterPresent m || s.mode < 2 || s.isI3c n then s
    else if write then s.bump (PKG_CP_STATE.BAD_ACCESS n)
    else match x, effect with
      | .half upper, false =>
        let t := s.controlRead m a
        { t with out := t.out.map (Output.halved upper) }
      | _, _ => s.emit (.controlAnswer m csUnsupported 0)
  | _ => s

/-- A read of a register by the access asked for; `effect` says whether reading it has an effect (R550). -/
def sizedRead (m : ControlAccess) (effect : Bool) (a : Nat) (s₀ : State) : Host.Outcome State Fault Refusal :=
  if m.width = .whole then readStep m.master a s₀ else finish s₀ ((beginStep s₀).partAccess m.master false effect a m.width)

/-- The RW fields of a word, all other bits zero: what a master writes back to keep a register as it stands. -/
def keptWord (fs : List FieldRow) (old : Word) : Word := fs.foldl (fun w f => match f.access with
  | .rw | .rwl | .rws => setBits w f.lo f.width (getBits old f.lo f.width)
  | .ro | .rc | .wo | .w1c | .w1s => w) 0

/-- A write that keeps the other RW fields of a register as they stand and gives one field a value. -/
def fieldStep (m : Master) (f : FieldRef) (v : Nat) (s₀ : State) : Host.Outcome State Fault Refusal :=
  let s := beginStep s₀
  finish s₀ (s.controlWrite m f.addr (setBits (keptWord ((fieldsAt f.addr).getD []) (s.rd f.addr)) f.lo f.width v).toNat)

/-- REGISTER_WRITE (R12, R550, R657 to R660). -/
def execRegisterWrite (m : ControlAccess) (a : Nat) (v : Word) (s₀ : State) : Host.Outcome State Fault Refusal :=
  if m.width = .whole then writeStep m.master a v.toNat s₀ else finish s₀ ((beginStep s₀).partAccess m.master true false a m.width)

/-! ### The structure and the store (Tables 02-9, 02-14, 17-6) -/

/-- SBS_STAGE_WRITE (R693). -/
def execSbsStageWrite (m : Master) (offset : Nat) (v : Word) (s₀ : State) : Host.Outcome State Fault Refusal :=
  let s := beginStep s₀
  finish s₀ (if 0x1000 ≤ offset then s else s.controlWrite m (0x3000 + offset) v.toNat)

/-- PKG_SBS_CTL with a CMD, a TARGET and a RELOAD_REGION, BOOT_SEL as it stands. -/
def State.sbsWord (s : State) (cmd region target : Nat) : Nat :=
  cmd * 2 ^ 28 + region % 16 * 2 ^ 20 + target % 4 * 2 ^ 16 + s.get PKG_SBS_CTL.BOOT_SEL * 2 ^ 8

/-- LOAD_STAGED_IMAGE (R89). -/
def execLoadStagedImage (m : Master) (s₀ : State) : Host.Outcome State Fault Refusal := fieldStep m PKG_SBS_CTL.CMD 1 s₀

/-- WRITE_STAGED_TO_SLOT (R87). -/
def execWriteStagedToSlot (m : Master) (target : Nat) (s₀ : State) : Host.Outcome State Fault Refusal :=
  let s := beginStep s₀
  finish s₀ (s.controlWrite m PKG_SBS_CTL.addr (s.sbsWord 2 (s.get PKG_SBS_CTL.RELOAD_REGION) target))

/-- START_PARTIAL_RELOAD (R95). -/
def execStartPartialReload (m : Master) (region target : Nat) (s₀ : State) : Host.Outcome State Fault Refusal :=
  let s := beginStep s₀
  finish s₀ (s.controlWrite m PKG_SBS_CTL.addr (s.sbsWord 3 region target))

/-- DISCARD_STAGED_IMAGE (R87). -/
def execDiscardStagedImage (m : Master) (s₀ : State) : Host.Outcome State Fault Refusal := fieldStep m PKG_SBS_CTL.CMD 4 s₀

/-- BOOT_SEL_WRITE (R88). -/
def execBootSelWrite (m : Master) (sel : Nat) (s₀ : State) : Host.Outcome State Fault Refusal := fieldStep m PKG_SBS_CTL.BOOT_SEL sel s₀

/-- SEAL_COMMIT (R109). -/
def execSealCommit (m : Master) (token : Nat) (s₀ : State) : Host.Outcome State Fault Refusal := writeStep m SEAL_CTL.addr (token % 65536 * 2 ^ 32) s₀

/-- NVS_BLOCK_READ (R651). -/
def execNvsBlockRead (m : Master) (block : Nat) (s₀ : State) : Host.Outcome State Fault Refusal :=
  writeStep m PKG_NVS_CTL.addr (2 ^ 60 + block % 2 ^ 21 * 64) s₀

/-- NVS_BLOCK_WRITE (R652). -/
def execNvsBlockWrite (m : Master) (block : Nat) (s₀ : State) : Host.Outcome State Fault Refusal :=
  writeStep m PKG_NVS_CTL.addr (2 * 2 ^ 60 + block % 2 ^ 21 * 64) s₀

/-! ### Modes and measurements (Tables 14-11, 14-13) -/

/-- MODE_DRAIN (R589). -/
def execModeDrain (m : Master) (s₀ : State) : Host.Outcome State Fault Refusal := writeStep m PKG_MODE_CTL.addr (1 * 2 ^ 52) s₀

/-- MODE_RESUME (R590). -/
def execModeResume (m : Master) (s₀ : State) : Host.Outcome State Fault Refusal := writeStep m PKG_MODE_CTL.addr (2 * 2 ^ 52) s₀

/-- MODE_MAINT (R591). An in-band access does not enter M10 (R575). -/
def execModeMaint (m : Master) (s₀ : State) : Host.Outcome State Fault Refusal := writeStep m PKG_MODE_CTL.addr (3 * 2 ^ 52) s₀

/-- MODE_RESET (R594). -/
def execModeReset (m : Master) (key : Nat) (s₀ : State) : Host.Outcome State Fault Refusal :=
  writeStep m PKG_MODE_CTL.addr (key % 256 * 2 ^ 56 + 4 * 2 ^ 52) s₀

/-- MEASUREMENT_EXTEND (R599). -/
def execMeasurementExtend (m : Master) (s₀ : State) : Host.Outcome State Fault Refusal := fieldStep m PKG_MEAS_CTL.EXTEND 1 s₀

/-- MEASUREMENT_SELECT (R600). -/
def execMeasurementSelect (m : Master) (sel : Nat) (s₀ : State) : Host.Outcome State Fault Refusal := writeStep m PKG_MEAS_CTL.addr (sel % 8) s₀

/-! ### Containment and scope reset (Tables 05-9, 10-13 to 10-16, 10-23) -/

/-- DPC_TRIGGER_WRITE (R248). -/
def execDpcTriggerWrite (m : Master) (p : Nat) (s₀ : State) : Host.Outcome State Fault Refusal := writeStep m (PORT_DPC.addr p) 2 s₀

/-- DPC_RELEASE_WRITE (R251). -/
def execDpcReleaseWrite (m : Master) (p : Nat) (s₀ : State) : Host.Outcome State Fault Refusal := writeStep m (PORT_DPC.addr p) 4 s₀

/-- PORT_CONTAIN_TRIGGER (R471). -/
def execPortContainTrigger (m : Master) (p : Nat) (s₀ : State) : Host.Outcome State Fault Refusal := writeStep m (PORT_CONTAIN.addr p) 2 s₀

/-- PORT_CONTAIN_RELEASE (R471). -/
def execPortContainRelease (m : Master) (p : Nat) (s₀ : State) : Host.Outcome State Fault Refusal := writeStep m (PORT_CONTAIN.addr p) 4 s₀

/-- WINDOW_CONTAIN_TRIGGER (R471). -/
def execWindowContainTrigger (m : Master) (w : Nat) (s₀ : State) : Host.Outcome State Fault Refusal :=
  writeStep m (CL_WCON_CTL.addr (w / 1024)) (2 ^ 16 + w % 1024) s₀

/-- WINDOW_CONTAIN_RELEASE (R471). -/
def execWindowContainRelease (m : Master) (w : Nat) (s₀ : State) : Host.Outcome State Fault Refusal :=
  writeStep m (CL_WCON_CTL.addr (w / 1024)) (2 ^ 17 + w % 1024) s₀

/-- ESCALATED_CLEAR (R290). -/
def execEscalatedClear (m : Master) (w : Nat) (s₀ : State) : Host.Outcome State Fault Refusal := writeStep m (WIN_STATE.addr w) 2 s₀

/-- CLUSTER_FENCE_RELEASE (R481). -/
def execClusterFenceRelease (m : Master) (mask : Word) (s₀ : State) : Host.Outcome State Fault Refusal := writeStep m PKG_FENCE_CL.addr mask.toNat s₀

/-- CLUSTER_RESET (R481). -/
def execClusterReset (m : Master) (c : Nat) (s₀ : State) : Host.Outcome State Fault Refusal := writeStep m PKG_SCOPE_RESET.addr (2 ^ 60 + c % 64) s₀

/-- REGION_RESET (R481). -/
def execRegionReset (m : Master) (g : Nat) (s₀ : State) : Host.Outcome State Fault Refusal := writeStep m PKG_SCOPE_RESET.addr (2 * 2 ^ 60 + g % 64) s₀

/-! ### Ports, lanes and ledgers -/

/-- EYE_TARGET_WRITE (R152): the write starts a new contour, also where TARGET keeps its value (log entry 47). -/
def execEyeTargetWrite (m : Master) (l target : Nat) (s₀ : State) : Host.Outcome State Fault Refusal :=
  let s := beginStep s₀
  let t := s.controlWrite m (LN_EYE.addr l) (setBits (s.rd (LN_EYE.addr l)) 40 4 target).toNat
  finish s₀ (if s.reaches m true (LN_EYE.addr l) then t.stopScan l else t)

/-- PORT_LOCK_WRITE (R347). -/
def execPortLockWrite (m : Master) (p : Nat) (v : Word) (s₀ : State) : Host.Outcome State Fault Refusal := writeStep m (PORT_LOCK.addr p) v.toNat s₀

/-- PORT_WAKE (R618). -/
def execPortWake (m : Master) (p : Nat) (s₀ : State) : Host.Outcome State Fault Refusal := writeStep m (PORT_WAKE.addr p) 1 s₀

/-- TALLY_SELECT_WRITE (R439): CL_TALLY_SEL of a cluster, or DIE_TALLY_SEL of a die. -/
def execTallySelectWrite (m : Master) (die : Bool) (c index : Nat) (s₀ : State) : Host.Outcome State Fault Refusal :=
  writeStep m (if die then DIE_TALLY_SEL.addr c else CL_TALLY_SEL.addr c) (index % 256) s₀

/-! ### Records, injection and the Toll -/

/-- POP_WINDOW_READ (R465). -/
def execPopWindowRead (m : ControlAccess) (w : PopWindow) (s₀ : State) : Host.Outcome State Fault Refusal := sizedRead m true (w.word 0) s₀

/-- EVT_INJECT of die d for 0 to 3, else of the package (Tables 17-2 and 17-7). -/
def injectAddr (block : Nat) : Nat := if block < 4 then DIE_EVT_INJECT.addr block else PKG_EVT_INJECT.addr

/-- INJECT_GO (R478). -/
def execInjectGo (m : Master) (block : Nat) (v : Word) (s₀ : State) : Host.Outcome State Fault Refusal := writeStep m (injectAddr block) (v ||| 1).toNat s₀

/-- INJECT_ABORT (R480). -/
def execInjectAbort (m : Master) (block : Nat) (v : Word) (s₀ : State) : Host.Outcome State Fault Refusal := writeStep m (injectAddr block) (v ||| 2).toNat s₀

/-- TOLL_STAGE_WRITE (R499). Words 0 to 2 of an entry are staged. -/
def execTollStageWrite (m : Master) (d i w : Nat) (v : Word) (s₀ : State) : Host.Outcome State Fault Refusal :=
  let s := beginStep s₀
  finish s₀ (if 2 < w then s else s.controlWrite m (TOLL.addr d i w) v.toNat)

/-- TOLL_COMMIT (R500). -/
def execTollCommit (m : Master) (d i : Nat) (v : Word) (s₀ : State) : Host.Outcome State Fault Refusal := writeStep m (TOLL.addr d i 3) v.toNat s₀

/-- FENCE_GO (R510). -/
def execFenceGo (m : Master) (s₀ : State) : Host.Outcome State Fault Refusal := writeStep m TOLL_FENCE.addr 1 s₀

/-- VIOLATION_RECORD_READ (R515). -/
def execViolationRecordRead (m : ControlAccess) (d : Nat) (s₀ : State) : Host.Outcome State Fault Refusal :=
  sizedRead m true (TOLL_VLAST.addr d 0) s₀

/-! ### Semaphores, reconciliation, counters -/

/-- SEMAPHORE_READ (R560). -/
def execSemaphoreRead (m : ControlAccess) (i : Nat) (s₀ : State) : Host.Outcome State Fault Refusal :=
  if i < 64 then sizedRead m true (SEM.addr i) s₀ else finish s₀ (beginStep s₀)

/-- SEMAPHORE_WRITE (R561). -/
def execSemaphoreWrite (m : Master) (i : Nat) (v : Word) (s₀ : State) : Host.Outcome State Fault Refusal :=
  let s := beginStep s₀
  finish s₀ (if i < 64 then s.controlWrite m (SEM.addr i) v.toNat else s)

/-- RECON_ADOPT (R581). -/
def execReconAdopt (m : Master) (d item index : Nat) (all : Bool) (s₀ : State) : Host.Outcome State Fault Refusal :=
  writeStep m (DIE_RECON_CTL.addr d) (item % 16 * 2 ^ 32 + index % 2 ^ 24 * 256 + (if all then 8 else 0) + 1) s₀

/-- RECON_FORCE (R581). -/
def execReconForce (m : Master) (d item index : Nat) (s₀ : State) : Host.Outcome State Fault Refusal :=
  writeStep m (DIE_RECON_CTL.addr d) (item % 16 * 2 ^ 32 + index % 2 ^ 24 * 256 + 2) s₀

/-- GATHER_GO (R644). -/
def execGatherGo (m : Master) (d : Nat) (v : Word) (s₀ : State) : Host.Outcome State Fault Refusal := writeStep m (PMON_GATHER.addr d) (v ||| 1).toNat s₀

/-- COUNTERS_ALL_ON (R643). -/
def execCountersAllOn (m : Master) (c : Nat) (s₀ : State) : Host.Outcome State Fault Refusal := fieldStep m (PMON_CL_CTL.ALL_ON c) 1 s₀

/-- COUNTERS_ALL_OFF (R643). -/
def execCountersAllOff (m : Master) (c : Nat) (s₀ : State) : Host.Outcome State Fault Refusal := fieldStep m (PMON_CL_CTL.ALL_OFF c) 1 s₀

/-- CHAINED_COUNTER_READ (R636): counter n of a cluster or of a die. The read of the even counter of a chained pair has an effect. -/
def execChainedCounterRead (m : ControlAccess) (die : Bool) (c n : Nat) (s₀ : State) : Host.Outcome State Fault Refusal :=
  sizedRead m (n % 2 = 0 && (beginStep s₀).chained die c (n + 1)) (ctrAddr die c n) s₀

end Sys2Proof.Machine
end

