-- ==== Sys2Proof/Machine/Pcie.lean ====
section
/-! DEFINITION. The PCI Express ports (chapter 05) and the configuration requests of hosts (R354 to R356): links up and down, the virtual
switches, bindings, resets, Downstream Port Containment, error messages, power states. -/

namespace Sys2Proof.Machine

/-! ### Links (R217 to R228, R231, R243, R244) -/

/-- A link of these parameters is one the port can train (Table 05-1, R220). -/
def State.linkFits (s : State) (p width rate : Nat) (flit : Bool) : Bool :=
  [1, 2, 4, 8, 16].contains width && decide (width ≤ s.portWidth p) && decide (1 ≤ rate) && decide (rate ≤ s.laneRec (s.firstLane p) 1 1) &&
    (flit || decide (rate < 6))

/-- PORT_PCIE shows a link in L0. -/
def State.showLink (s : State) (p width rate : Nat) (flit : Bool) : State :=
  let s := ((s.set (PORT_PCIE.LINK_STATE p) 3).setFlag (PORT_PCIE.DL_ACTIVE p) true).setFlag (PORT_PCIE.FLIT p) flit
  ((s.set (PORT_PCIE.RATE p) rate).set (PORT_PCIE.WIDTH p) width).set (PORT_PCIE.ACTIVE_WIDTH p) width

/-- A port in Recovery returns to L0 (R168, R396). -/
def State.recovered (s : State) (p width rate : Nat) : State :=
  let s := s.set (PORT_PCIE.LINK_STATE p) 3
  ((s.set (PORT_PCIE.RATE p) rate).set (PORT_PCIE.WIDTH p) width).set (PORT_PCIE.ACTIVE_WIDTH p) width |>.republish 3

/-- The partner's credits and the port's own at link start (R409, Table 09-1). -/
def State.takeCredits (s : State) (p : Nat) (credits : List Nat) : State :=
  (List.range 6).foldl (fun (s : State) i => (s.setTotal (portLedger p (2 + i)) (credits.getD i 0)).setTotal (portLedger p (14 + i)) (Config.advertisedCredits p i)) s

/-- The link partner of a port supports L0p, or does not (R224). -/
def State.setL0p (s : State) (p : Nat) (l0p : Bool) : State :=
  { s with l0pPartners := (s.l0pPartners.filter fun x => x ≠ p) ++ if l0p then [p] else [] }

/-- What both kinds of port do at link-up: equalisation sets the taps, and the lanes are idle no longer (R139, R143). -/
def State.linkUp (s : State) (p width rate : Nat) (flit l0p : Bool) (credits : List Nat) : State :=
  (((((s.showLink p width rate flit).setL0p p l0p).equalisePcie p).portHeard p).takeCredits p credits).setLive (srcLink p) 0 false

/-- The tag size of a PD port: the widest within TAG_MAX that the link mode and the device support (R228). -/
def State.tagChoice (s : State) (p : Nat) : Nat :=
  let d := s.deviceOf (s.fabricId p)
  let m := s.portRec p 70 1
  if m = 2 && s.flag (PORT_PCIE.FLIT p) && d.tag14 then 2 else if 1 ≤ m && d.tag10 then 1 else 0

/-- Tags of a size code. -/
def tagPool (code : Nat) : Nat := if code = 2 then 16384 else if code = 1 then 1024 else 256

/-- No tag of a PD port's pool is out. -/
def State.tagsIdle (s : State) (p : Nat) : Bool := (s.ledger (portLedger p 27)).out = 0 && s.get (PORT_PCIE.TAGS_OUT p) = 0

/-- The pool takes its new size once no tag of the old one is out (R228). -/
def State.resizePool (s : State) (p : Nat) : State :=
  if s.tagsIdle p then (s.set (PORT_PCIE.TAG_BITS p) (s.tagChoice p)).setTotal (portLedger p 27) (tagPool (s.tagChoice p)) else s

/-- An encoded L1 Exit Latency in units of 10 ns, at the upper end of its range (R698). -/
def l1Units (code : Nat) : Nat := min (100 * 2 ^ code) 6400

/-- A VF of a PF is bound outside the PF's partition (R243). -/
def State.pfShared (s : State) (target pf part : Nat) : Bool :=
  s.bindRecs.any fun x => x.target = target && x.kind = 3 && x.pf = pf && x.partition ≠ part

/-- NumVFs of a PF: NUM_VFS where the FB512 sets it, else no less than any the device can have (R243). -/
def State.numVfs (s : State) (target : Nat) (f : DeviceFunction) : Nat :=
  match s.bindRecs.find? fun b => b.target = target && b.kind = 2 && b.pf = f.pf with
  | some b => if s.pfShared target f.pf b.partition then min b.numVfs f.totalVfs else f.totalVfs
  | none => f.totalVfs

/-- The VFs of a binding beyond NumVFs, which the device lacks (R243). -/
def State.lackedBy (s : State) (d : DeviceInfo) (b : BindRec) : List Nat :=
  match d.functions.find? fun f => f.pf = b.pf with
  | none => []
  | some f =>
    if b.kind ≠ 3 then []
    else ((List.range b.vfCount).filter fun k => decide (s.numVfs b.target f < b.vfFirst + k)).map fun k => f.vf (b.vfFirst + k)

/-- The device has a function of the binding, and the routing IDs of those it has fit the 256 functions of a bus (R243). -/
def State.bindingFits (s : State) (d : DeviceInfo) (b : BindRec) : Bool :=
  if b.kind = 1 then (b.functions d).all fun f => decide (f < 256)
  else match d.functions.find? fun f => f.pf = b.pf with
    | none => false
    | some f => b.kind = 2 || (decide (b.vfFirst ≤ s.numVfs b.target f) &&
        (b.functions d).all fun x => (s.lackedBy d b).contains x || decide (x < 256))

/-- The bindings of a PD port are compared with the device found (R243): a function that the device lacks is not presented. -/
def State.compareDevice (s : State) (p : Nat) : State :=
  let s := { s with hidden := s.hidden.filter fun h => !(h.2 ≠ 0 && (match s.bindRecs[h.1]? with | some b => b.target = s.fabricId p | none => false)) }
  let d := s.deviceOf (s.fabricId p)
  State.settlePins (s.indexedBinds.foldl (fun (s : State) x =>
    let gone := if s.bindingFits d x.2 then (s.lackedBy d x.2).map fun f => (x.1, 2 + f) else [(x.1, 1)]
    if x.2.target ≠ s.fabricId p || gone.isEmpty then s
    else State.raise { s with hidden := s.hidden ++ gone } (srcPcie p) 5 { port := some p }) s)

/-- A configuration write of the FB512 itself on a PD link: device-side function, register and value. It takes a tag of the port's pool (R228, R229), and
waits behind the handler engine's jobs when none is free. -/
def State.ownConfig (s : State) (p fn dw v : Nat) : State :=
  if (s.ledger (portLedger p 27)).room 1 && !s.configJobs.any fun j => j.port = p && j.own then
    let tag := s.linkTag p
    let s := (s.issue (portLedger p 27) 1).ask { port := p, tag := tag, issued := s.now }
    s.sendTlp p { kind := .cfgWrite false, addr := 4 * dw, len := 4, firstBe := 15, lastBe := 0, target := 256 + fn, tag := tag, data := leBytes 4 v }
  else
    let k : Packet := { ptype := 9, vc := 1, cls := 1, dest := s.fabricId p, src := s.fabricId p, noWin := true, sub := 1
                        addr := (256 + fn) * 65536 + 4 * dw, len := 4, fbe := 15, payload := leBytes 4 v }
    State.nextConfig { s with configJobs := s.configJobs ++ [{ port := p, pkt := k, received := s.now, own := true }] } p

/-- NumVFs and VF Enable of the PFs whose VFs are bound elsewhere (R243). -/
def State.enableVfs (s : State) (p : Nat) : State :=
  (s.bindingsOn p).foldl (fun (s : State) b =>
    if b.kind = 2 && s.pfShared b.target b.pf b.partition then
      match ((s.deviceOf b.target).pfOf b.pf).sriov with
      | some v => (s.ownConfig p b.pf (v + 4) b.numVfs).ownConfig p b.pf (v + 2) 1
      | none => s
    else s) s

/-- The registers of a PF that hold an address: BARs 0 to 5, the Expansion ROM BAR and the VF BARs that the device has (R238, Table 05-5). -/
def DeviceFunction.addressRegisters (f : DeviceFunction) : List Nat :=
  ((List.range f.bars.length).filter fun i => f.bars.getD i 0 ≠ 0).map (4 + ·) ++ (if f.rom = 0 then [] else [12]) ++
    (match f.sriov with
     | some v => ((List.range f.vfBars.length).filter fun i => f.vfBars.getD i 0 ≠ 0).map (v + 9 + ·)
     | none => [])

/-- PD_LINK_UP (R223, R227, R228, R238, R243, R698). The device takes bus 1 by the first Type 0 configuration write; each BAR takes its
device-side address, and function 0 a Max_Payload_Size no larger than MPS_MAX: free values (log entries 10, 41). -/
def execPdLinkUp (p : Nat) (dev : DeviceInfo) (s₀ : State) : Host.Outcome State Fault Refusal :=
  let s := beginStep s₀
  finish s₀ (if !s.isPd p || !s.mayTrain p || !s.linkFits p dev.width dev.rate dev.flit then s
    else if s.flag (PORT_PCIE.DL_ACTIVE p) then (if s.get (PORT_PCIE.LINK_STATE p) = 4 then s.recovered p dev.width dev.rate else s)
    else if s.portRec p 65 1 = 1 && !dev.flit then s.raise (srcLink p) 1 { port := some p }
    else
      let s : State := { s with devices := tabPut (fun _ => {}) s.devices p dev, flr := s.flr.filter fun x => x.1 ≠ p }
      let found := s.get (PORT_PCIE.LINK_STATE p) = 0
      let s := (s.linkUp p dev.width dev.rate dev.flit dev.l0p dev.credits).resizePool p
      let s := (if found then (s.vdspsOf p).foldl (fun (s : State) x => s.slotNote 3 x) s else s).linkChanged p
      let s := dev.functions.foldl (fun (s : State) f =>
        f.addressRegisters.foldl (fun (s : State) dw => (s.ownConfig p f.pf dw (s.free % 2 ^ 32)).tookFree) s) s
      let code := s.free % (s.portRec p 71 1 + 1)
      let s := (s.tookFree).ownConfig p 0 (dev.devControl 0) (32 * code)
      let s : State := { s with deviceMps := tabPut (fun _ => 0) s.deviceMps p code }
      let was := tabGet (fun _ => 0) s.l1Exit p
      let s : State := { s with l1Exit := tabPut (fun _ => 0) s.l1Exit p (l1Units dev.l1Exit) }
      let s := (s.compareDevice p).enableVfs p
      let s := if was ≠ 0 && was ≠ l1Units dev.l1Exit then s.republish 5 true else s
      s.restore p)

/-- TAG_POOL_RESIZE (R228). -/
def execTagPoolResize (p : Nat) (s₀ : State) : Host.Outcome State Fault Refusal :=
  let s := beginStep s₀
  finish s₀ (if s.isPd p && s.flag (PORT_PCIE.DL_ACTIVE p) then s.resizePool p else s)

/-- A PCI Express link goes down (R427, R696): flow-control credits and ingress space are reclaimed. -/
def State.linkLost (s : State) (p state : Nat) : State := ((s.ingressDiscard p).reclaimLink p).pcieDown p state

/-- PD_LINK_DOWN (R248, R250, R255). -/
def execPdLinkDown (p : Nat) (s₀ : State) : Host.Outcome State Fault Refusal :=
  let s := beginStep s₀
  finish s₀ (if !s.isPd p || !s.flag (PORT_PCIE.DL_ACTIVE p) then s
    else
      let s := (s.bump (PORT_PCIE.LINK_DOWNS p)).raise (srcLink p) 0 { port := some p }
      (((s.setLive (srcLink p) 0 true).logAer p aerSurprise none).linkLost p 0).containPd p 1)

/-- PU_LINK_UP (R231, R244, R396). -/
def execPuLinkUp (p width rate : Nat) (mode : FlitMode) (credits : List Nat) (s₀ : State) : Host.Outcome State Fault Refusal :=
  let s := beginStep s₀
  finish s₀ (if !s.isPu p || !s.mayTrain p || !s.linkFits p width rate mode.on then s
    else if s.flag (PORT_PCIE.DL_ACTIVE p) then (if s.get (PORT_PCIE.LINK_STATE p) = 4 then s.recovered p width rate else s)
    else if s.portRec p 65 1 = 1 && !mode.on then s.raise (srcLink p) 1 { port := some p }
    else (s.linkUp p width rate mode.on (mode == .flitL0p) credits).restore p)

/-! ### Configuration packets (R355) -/

/-- The Config packet of a configuration request to the device-side function fn of a binding (R355). -/
def State.configPacket (s : State) (p : Nat) (t : Tlp) (b : BindRec) (fn : Nat) : Packet :=
  let write := match t.kind with | .cfgWrite _ => true | _ => false
  { ptype := 9, vc := 1, cls := 1, dest := b.target, src := s.fabricId p, noWin := true, partition := b.partition, sub := if write then 1 else 0
    addr := t.reqId * 2 ^ 32 + (256 + fn) * 65536 + t.addr / 4 * 4 % 4096, len := if write then 4 else 0, fbe := t.firstBe % 16
    payload := if write then t.data.take 4 else [], poison := t.poison }

/-- The handler engine's record of a Config packet. `t` is the host's request; none when the engine itself forms the packet. -/
def configEntry (p id now : Nat) (k : Packet) (t : Option Tlp) : Outstanding :=
  { id := id, port := p, tlp := t.map fun x => { x with len := if k.sub = 1 then 0 else 4, firstBe := 15 }, ptype := 9, noWin := true
    partition := k.partition, dest := k.dest, addr := k.addr % 4096, received := now, tgt := k.addr
    pieces := [{ tag := 0, addr := k.addr, len := 4 }] }

/-- A configuration request of the host goes to a PD port's handler engine (R355). -/
def State.sendConfig (s : State) (p : Nat) (t : Tlp) (b : BindRec) (fn : Nat) : State :=
  let k := s.configPacket p t b fn
  let (s, id) := s.newId
  s.accept p t [k] (some (configEntry p id s.now k (some { t with addr := k.addr % 4096 }))) id

/-- The FLR of a bound function goes to its device, as a Config packet that writes Initiate FLR (R245, R246); a PF whose VFs are bound elsewhere
gets none (Table 05-5). The header fields that no request gives are 0. -/
def State.sendFlr (s : State) (p : Nat) (b : BindRec) (fn : Nat) : State :=
  if b.kind = 2 && s.pfShared b.target b.pf b.partition then s
  else
    let k := s.configPacket p { kind := .cfgWrite true, addr := 4 * (s.deviceOf b.target).devControl fn, data := leBytes 4 0x8000 } b fn
    let (s, id) := s.newId
    State.enqueue { s with outstanding := s.outstanding ++ [configEntry p id s.now k none] } (ingressKey p 1)
      { id := id, pkts := [k], received := s.now, requester := id, order := id }

/-! ### Resets (R244 to R247) -/

/-- The bindings behind a vDSP. -/
def State.behind (s : State) (p v : Nat) : List BindRec :=
  (s.indexedBinds.filter fun x => some x.2.partition = s.puPartition p && x.2.vdsp = v && s.presented x.1).map (·.2)

/-- A hot reset of a PD link: it leaves L0, and its partition's requests wait until it returns (R245, R247). -/
def State.hotReset (s : State) (q : Nat) (b : BindRec) : State :=
  if !s.flag (PORT_PCIE.DL_ACTIVE q) then s
  else
    let s := ((s.dropLock q).linkLost q 7).deassertPins q fun _ => true
    State.republish { s with flr := s.flr ++ ((s.functionsOf b).map fun f => (q, f)).filter fun x => !s.flr.contains x } 0xA

/-- R245: what a Secondary Bus Reset on a vDSP, or a forwarded hot reset, does to each binding behind it. How a hot reset reaches a PD port of
another package is not in the spec: nothing is sent (log entry 42). -/
def State.busReset (s : State) (p v : Nat) : State :=
  (s.behind p v).foldl (fun (s : State) b =>
    if b.kind = 1 then (if b.target / 1024 = s.rank then s.hotReset (b.target % 1024) b else s)
    else if b.kind = 2 then
      if s.pfShared b.target b.pf b.partition then s.raise (srcPcie p) 6 { port := some p } else s.sendFlr p b b.pf
    else (s.functionsOf b).foldl (fun (s : State) f => s.sendFlr p b f) s) s

/-- SECONDARY_BUS_RESET (R245). -/
def execSecondaryBusReset (p vdsp : Nat) (s₀ : State) : Host.Outcome State Fault Refusal :=
  let s := beginStep s₀
  finish s₀ (if s.isPu p && s.pcieUp p then s.busReset p vdsp else s)

/-- PU_LINK_DOWN (R244, R338, R427, R696). -/
def execPuLinkDown (p : Nat) (s₀ : State) : Host.Outcome State Fault Refusal :=
  let s := beginStep s₀
  finish s₀ (if !s.isPu p || !s.flag (PORT_PCIE.DL_ACTIVE p) then s
    else
      let s := (s.bump (PORT_PCIE.LINK_DOWNS p)).raise (srcLink p) 0 { port := some p }
      let s := ((s.setLive (srcLink p) 0 true).linkLost p 0).unlockNear p
      State.republish { s.resetSwitch p with pmeOff := s.pmeOff.filter (· ≠ p) } 0xA)

/-- PU_HOT_RESET (R244, R245, R338): the link leaves L0, and the hot reset is forwarded to each vDSP. -/
def execPuHotReset (p : Nat) (s₀ : State) : Host.Outcome State Fault Refusal :=
  let s := beginStep s₀
  finish s₀ (if !s.isPu p || !s.flag (PORT_PCIE.DL_ACTIVE p) then s
    else
      let s := (s.linkLost p 7).unlockNear p
      let s : State := { s.resetSwitch p with pmeOff := s.pmeOff.filter (· ≠ p) }
      (s.vdsps p).foldl (fun (s : State) v => s.busReset p v) (s.republish 0xA))

/-- FLR_WRITE (R246, Table 05-5): `fn` is the function as the host numbers it. -/
def execFlrWrite (p vdsp fn : Nat) (s₀ : State) : Host.Outcome State Fault Refusal :=
  let s := beginStep s₀
  finish s₀ (if !s.isPu p || !s.pcieUp p then s
    else (s.behind p vdsp).foldl (fun (s : State) b =>
      match (s.functionsOf b).find? fun f => s.hostFn b f = fn with
      | some f => s.sendFlr p b f
      | none => s) s)

/-- FLR_COMPLETE (R247): the reset of a function of PD port p ends; requests that waited for it proceed. -/
def execFlrComplete (p fn : Nat) (s₀ : State) : Host.Outcome State Fault Refusal :=
  let s := beginStep s₀
  finish s₀ (if s.flr.contains (p, fn) then State.nextConfig { s with flr := s.flr.filter fun x => x ≠ (p, fn) } p else s)

/-! ### Downstream Port Containment (R248 to R251) -/

/-- A host's software trigger on a vDSP: the port bound wholly to the partition is contained, else the partition's view (R248, R249). The view
is also what is contained when the port is another package's (log entry 42). -/
def State.softTrigger (s : State) (p v : Nat) : State :=
  match (s.behind p v).head? with
  | none => s
  | some b =>
    if b.kind = 1 && b.target / 1024 = s.rank then s.containPd (b.target % 1024) 4
    else
      let x := s.vport p (vdspFn v)
      let s := s.setVport p (vdspFn v) { x with view := true, dpcStatus := true }
      if x.dpcInterrupt then s.emit (.hostInterrupt p (vdspFn v) 0) else s

/-- VDSP_DPC_TRIGGER (R249). -/
def execVdspDpcTrigger (p vdsp : Nat) (s₀ : State) : Host.Outcome State Fault Refusal :=
  let s := beginStep s₀
  finish s₀ (if s.isPu p && s.pcieUp p then s.softTrigger p vdsp else s)

/-- Bound partitions of another package whose trigger status a contained PD port still counts (R251). -/
def State.remotePending (s : State) (q : Nat) : Nat :=
  s.get (PORT_DPC.CLEAR_PENDING q) - (((s.vdspsOf q).filter fun y => (s.vport y.1 (vdspFn y.2)).dpcStatus).map (·.1)).eraseDups.length

/-- DPC_STATUS_CLEAR (R251). At a PD port it stands for the clearing by a partition that another package hosts: how word of it comes is not in the spec (log
entry 42). -/
def execDpcStatusClear (p vdsp : Nat) (s₀ : State) : Host.Outcome State Fault Refusal :=
  let s := beginStep s₀
  finish s₀ (if s.isPu p then s.clearStatus p vdsp else if s.isPd p && decide (0 < s.remotePending p) then s.clearPending p else s)

/-- DPC_TIMED_RELEASE (R251). -/
def execDpcTimedRelease (p : Nat) (s₀ : State) : Host.Outcome State Fault Refusal :=
  let s := beginStep s₀
  let ms := s.portRec p 68 2
  finish s₀ (if !s.isPd p || ms = 0 || !s.flag (PORT_DPC.CONTAINED p) then s
    else (s.waitUntil (tabGet (fun _ => 0) s.dpcSince p + ms * 16000000)).releasePd p)

/-! ### Messages (R226, R254) -/

/-- ERROR_MESSAGE_RECEIVE (R248, R254): severity 0 ERR_COR, 1 ERR_NONFATAL, 2 ERR_FATAL. -/
def execErrorMessageReceive (p severity fn : Nat) (s₀ : State) : Host.Outcome State Fault Refusal :=
  let s := beginStep s₀
  finish s₀ (if !s.isPd p || !s.pcieUp p || decide (2 < severity) then s
    else
      let s := s.portHeard p
      let s : State := if severity = 2 then s.containPd p 2 else if severity = 1 && (s.portRec p 67 1).testBit 0 then s.containPd p 3 else s
      s.errorFromDevice p severity (fn % 256))

/-- ERR_MSG_EVENT_RECEIVE (R254). -/
def execErrMsgEventReceive (p : Nat) (pkt : Packet) (s₀ : State) : Host.Outcome State Fault Refusal :=
  let s := beginStep s₀
  finish s₀ (if s.isPu p && s.pcieUp p && pkt.ptype = 8 && pkt.sub = 6 then s.errorAtHost p pkt else s)

/-- A request of a partition is in flight in the package (R225, R226). -/
def State.inFlight (s : State) (part : Nat) : Bool :=
  (s.outstanding.any fun o => o.partition = part && !o.answered) || (s.waiting.any fun w => w.pkt.partition = part && !w.pkt.isCompletion) ||
    (s.ingress.any fun x => x.2.any fun q => q.pkts.any fun k => decide (k.partition = part)) ||
    (s.device.any fun d => match d.pkt with | some k => decide (k.partition = part) | none => false)

/-- PME_Turn_Off as a TLP: message code 0x19, broadcast from the root complex, its header in the form of a port's link (log entry 77). -/
def State.turnOff (s : State) (p : Nat) : Tlp :=
  let h : List Byte := [0x33, 0, 0, 0, 0, 0, 0, 0x19, 0, 0, 0, 0, 0, 0, 0, 0]
  { kind := .message 0x19, header := if s.flag (PORT_PCIE.FLIT p) then Config.flitForm h else h }

/-- A message of a host to a device of this package leaves, or a port that is locked by another holds it back (R344). -/
def State.sendOwner (s : State) (q p part : Nat) (t : Tlp) : State :=
  let k : Packet := { ptype := 8, src := s.fabricId p, dest := s.fabricId q, noWin := true, partition := part, deadline := s.now % 2 ^ 48 }
  if s.lockedOut q k then s.holdBack q { point := pointPort q, pkt := k, deadline := k.deadline, ingress := p, tlps := [t] } else s.sendTlp q t

/-- PME_TURN_OFF (R226): message code 0x19 goes to each device that is bound wholly to the partition, to one of another package as a message barge (R207, log
entry 77). -/
def execPmeTurnOff (p : Nat) (s₀ : State) : Host.Outcome State Fault Refusal :=
  let s := beginStep s₀
  finish s₀ (if !s.isPu p || !s.pcieUp p then s
    else
      let s := s.portHeard p
      let s : State := { s with pmeOff := if s.pmeOff.contains p then s.pmeOff else s.pmeOff ++ [p] }
      (s.vdsps p).foldl (fun (s : State) v => (s.behind p v).foldl (fun (s : State) b =>
        if b.kind ≠ 1 then s
        else if b.target / 1024 ≠ s.rank then s.formPosted p (s.bargeOf p (s.turnOff p) b.target 1 b.partition 2 none)
        else if s.pcieUp (b.target % 1024) then s.sendOwner (b.target % 1024) p b.partition { kind := .message 0x19 } else s) s) s)

/-- PME_TO_ACK (R226): message code 0x1B answers once no request of the partition is in flight, and the link enters L2/L3 Ready (R217). -/
def execPmeToAck (p : Nat) (s₀ : State) : Host.Outcome State Fault Refusal :=
  let s := beginStep s₀
  finish s₀ (if !s.pmeOff.contains p || !s.pcieUp p || (match s.puPartition p with | some n => s.inFlight n | none => false) then s
    else (State.sendTlp { s with pmeOff := s.pmeOff.filter (· ≠ p) } p { kind := .message 0x1B, reqId := 256 * (s.virtGet p 0 6 % 256) }).readyL23 p)

/-! ### Recovery and L1 (R225, R396) -/

/-- PCIE_RECOVERY (R396, Table 08-7): the port enters Recovery; a width or rate that changes there republishes with code 0x3. The port returns to
L0 with its next PD_LINK_UP or PU_LINK_UP (log entry 43). -/
def execPcieRecovery (p width rate : Nat) (s₀ : State) : Host.Outcome State Fault Refusal :=
  let s := beginStep s₀
  finish s₀ (if !s.pcieUp p || !s.linkFits p width rate (s.flag (PORT_PCIE.FLIT p)) then s
    else
      let s := s.enterRecovery p
      if s.get (PORT_PCIE.WIDTH p) = width && s.get (PORT_PCIE.RATE p) = rate then s
      else ((s.set (PORT_PCIE.WIDTH p) width).set (PORT_PCIE.ACTIVE_WIDTH p) width).set (PORT_PCIE.RATE p) rate |>.republish 3)

/-- ASPM_L1_ENTRY (R225): the partner's configuration enables L1. -/
def execAspmL1Entry (p : Nat) (s₀ : State) : Host.Outcome State Fault Refusal :=
  let s := beginStep s₀
  let busy := s.isPu p && (match s.puPartition p with | some n => s.inFlight n | none => false)
  finish s₀ (if s.pcieUp p && s.get (PORT_PCIE.LINK_STATE p) = 3 && (s.portRec p 66 1).testBit 1 && !busy then s.set (PORT_PCIE.LINK_STATE p) 5 else s)

/-- ASPM_L1_EXIT (R225). -/
def execAspmL1Exit (p : Nat) (s₀ : State) : Host.Outcome State Fault Refusal :=
  let s := beginStep s₀
  finish s₀ (if s.pcieUp p && s.get (PORT_PCIE.LINK_STATE p) = 5 then s.set (PORT_PCIE.LINK_STATE p) 3 else s)

/-! ### Configuration requests (R235 to R239, R252, R302, R354, R584) -/

/-- The windows of a PU port that follow a BAR or a bridge window (Table 06-2). -/
def State.followers (s : State) (p v fn bar : Nat) : List Nat :=
  (s.windowsOf (portCluster p)).filter fun n =>
    let w := s.window n
    w.attr.getLsbD 63 && w.follow && some w.partition = s.puPartition p && getBits w.attr 12 5 = v && getBits w.attr 4 8 = fn && getBits w.attr 1 3 = bar

/-- A window moves to a new base and keeps its span, which a LIMIT below BASE still gives modulo 2^64; a window that would end beyond 2^64 − 1 matches nothing
(R302). Its prefetch data is cancelled. -/
def State.moveWindow (s : State) (base n : Nat) : State :=
  let w := s.window n
  let b := base / 4096 * 4096 % 2 ^ 64
  let l := b + (w.limit + 2 ^ 64 - w.base) % 2 ^ 64
  let s := ((s.wr (WIN_BASE.addr n) (BitVec.ofNat 64 b)).wr (WIN_LIMIT.addr n) (BitVec.ofNat 64 l)).bump (WIN_STATE.FOLLOW_MOVES n)
  let s : State := { s with beyond64 := if decide (2 ^ 64 < l + 4096) then (if s.beyond64.contains n then s.beyond64 else s.beyond64 ++ [n])
                                         else s.beyond64.filter (· ≠ n) }
  s.cancelStreams fun x => x.window = n

/-- The host addresses of a PU port's partition follow its writes (R239). -/
def State.follows (s : State) (p : Nat) : Bool :=
  match s.puPartition p with
  | some n => match s.partRecs.find? fun r => r.partition = n with
    | some r => r.resMode = 0
    | none => false
  | none => false

/-- What a BAR register of a function shows: the value kept, with the bits that the device's own BAR fixes (Table 05-5). A register after a
64-bit BAR holds the upper half. -/
def barShown (masks : List Nat) (i v : Nat) : Nat :=
  let m := masks.getD i 0
  if 0 < i && masks.getD (i - 1) 0 % 8 = 4 then v &&& m
  else if m % 2 = 1 then (v &&& (m / 4 * 4)) ||| (m % 4) else (v &&& (m / 16 * 16)) ||| (m % 16)

/-- The BAR that a register of a bound function belongs to: 0 to 5, 6 for the Expansion ROM, 8 + i for VF BAR i (Table 05-5). The registers stand
where the standard puts them; the SR-IOV capability has ID 0x10 and its VF BARs at 0x24. -/
def DeviceFunction.barOf (f : DeviceFunction) (dw : Nat) : Option Nat :=
  if 4 ≤ dw && dw < 10 then some (dw - 4)
  else if dw = 12 then some 6
  else match f.caps.find? fun c => c.2.1 = 0x10 with
    | some c => if c.1 / 4 + 9 ≤ dw && dw < c.1 / 4 + 15 then some (8 + (dw - (c.1 / 4 + 9))) else none
    | none => none

/-- A BAR register of a bound function as the host reads it. In fixed mode it shows the address that the SBS gives, which no field of the spec
holds: a free value (log entry 12). -/
def State.barRead (s : State) (p v fn : Nat) (f : DeviceFunction) (dw bar : Nat) : Nat :=
  if !s.follows p then Config.emulatedReset (65536 + barKey p v fn 0) dw % 2 ^ 32
  else
    let x := tabGet (fun _ => 0) s.virt (barKey p v fn dw)
    if bar = 6 then x &&& (f.rom / 2048 * 2048 + 1)
    else if bar < 6 then barShown f.bars bar x else barShown f.vfBars (bar - 8) x

/-- The size of a BAR from its mask, the upper half of a 64-bit one included. -/
def barSize (masks : List Nat) (i : Nat) : Nat :=
  let m := masks.getD i 0
  if m % 8 = 4 then 2 ^ 64 - (masks.getD (i + 1) 0 * 2 ^ 32 + m / 16 * 16) else 2 ^ 32 - m / 16 * 16

/-- The VFs of a PF that a PU port's partition has: vDSP, the function as the host numbers it, and the number of the VF. -/
def State.vfsSeen (s : State) (p target : Nat) (f : DeviceFunction) : List (Nat × Nat × Nat) :=
  (s.bindRecs.filter fun b => some b.partition = s.puPartition p && b.target = target && (b.kind = 1 || (b.kind = 3 && b.pf = f.pf))).flatMap fun b =>
    ((List.range (if b.kind = 1 then f.totalVfs else b.vfCount)).map fun i => (if b.kind = 1 then 1 else b.vfFirst) + i).map fun k => (b.vdsp, s.hostFn b (f.vf k), k)

/-- The windows that follow BAR i of the VFs of a PF move with VF BAR i: VF k's aperture stands k − 1 sizes above the VF BAR, as the standard has it (R239,
Table 05-5, log entry 90). -/
def State.moveVfs (s : State) (p v : Nat) (f : DeviceFunction) (i base : Nat) : State :=
  match s.recordOf p v with
  | none => s
  | some b => (s.vfsSeen p b.target f).foldl (fun (s : State) x =>
      (s.followers p x.1 x.2.1 i).foldl (fun (s : State) n => s.moveWindow (base + (x.2.2 - 1) * barSize f.vfBars i) n) s) s

/-- A write of a BAR register of a bound function: kept in the emulation, and the windows that follow the BAR move (R239, R302). -/
def State.barWrite (s : State) (p v fn : Nat) (f : DeviceFunction) (dw bar val be : Nat) : State :=
  if !s.follows p then s
  else
    let k := barKey p v fn dw
    let s : State := { s with virt := tabPut (fun _ => 0) s.virt k (mergeBytes (tabGet (fun _ => 0) s.virt k) val be) }
    -- registers 0 to 5 of a function or, from 8 on, of its VFs
    let masks := if 8 ≤ bar then f.vfBars else f.bars
    let i := bar % 8
    let upper := i < 6 && 0 < i && masks.getD (i - 1) 0 % 8 = 4
    let low := if upper then bar - 1 else bar
    let lowDw := if upper then dw - 1 else dw
    let wide := low % 8 < 6 && masks.getD (low % 8) 0 % 8 = 4
    let base := if low = 6 then s.barRead p v fn f dw 6 / 2048 * 2048
      else s.barRead p v fn f lowDw low / 16 * 16 + (if wide then s.barRead p v fn f (lowDw + 1) (low + 1) * 2 ^ 32 else 0)
    if 8 ≤ low then s.moveVfs p v f (low - 8) base
    else (s.followers p v fn low).foldl (fun (s : State) n => s.moveWindow base n) s

/-- What the emulated function shows of a link: trained rate code, width, and whether its data link layer is active. The vUSP shows the PU link and a vDSP the
PD link, of another package as it was found (Table 05-4); a vDSP whose slot is empty, or whose port or view is contained, shows it inactive (R242, R249,
R250). -/
def State.linkOf (s : State) (p f : Nat) : Nat × Nat × Bool :=
  if f = 0 then (s.get (PORT_PCIE.RATE p), s.get (PORT_PCIE.WIDTH p), s.flag (PORT_PCIE.DL_ACTIVE p))
  else match (s.behind p (f - 1)).head? with
    | none => (0, 0, false)
    | some b =>
      let clear := (s.vport p f).dpcStatus
      if b.target / 1024 = s.rank then
        let q := b.target % 1024
        (s.get (PORT_PCIE.RATE q), s.get (PORT_PCIE.WIDTH q), s.flag (PORT_PCIE.DL_ACTIVE q) && !clear)
      else ((s.deviceOf b.target).rate, (s.deviceOf b.target).width, !clear)

/-- Highest rate and width of a link: of the PU port, of the bound PD port; of a Burek path they are not in the spec, and free (Table 05-4, log entry 12). -/
def State.linkMost (s : State) (p f : Nat) : Nat × Nat :=
  let most := fun q => (s.laneRec (s.firstLane q) 1 1, s.portWidth q)
  if f = 0 then most p
  else match s.recordOf p (f - 1) with
    | some b => if b.target / 1024 = s.rank then most (b.target % 1024)
      else (Config.emulatedReset f (Config.capability 0 + 3) % 16, Config.emulatedReset f (Config.capability 0 + 3) / 16 % 64)
    | none => (0, 0)

/-- ASPM support of Link Capabilities: L1 where PM_ALLOW bit 1 of a port of this package allows it (R225). -/
def State.aspmShown (s : State) (p f : Nat) : Nat :=
  let q := if f = 0 then some p else match s.recordOf p (f - 1) with
    | some b => if b.target / 1024 = s.rank then some (b.target % 1024) else none
    | none => none
  match q with
  | some x => if (s.portRec x 66 1).testBit 1 then 2 else 0
  | none => 0

/-- A device stands in the slot of a vDSP: a binding is presented there, and the link of a PD port of this package is not in Detect (R242, Table 05-4). -/
def State.slotFull (s : State) (p v : Nat) : Bool :=
  match (s.behind p v).head? with
  | some b => b.target / 1024 ≠ s.rank || s.get (PORT_PCIE.LINK_STATE (b.target % 1024)) ≠ 0
  | none => false

/-- The first register of a capability: its ID, the standard's chain, which is free, and its upper half. -/
def capHead (f dw id high : Nat) : Nat := high * 65536 + Config.emulatedReset f dw / 256 % 256 * 256 + id

/-- The first register of an extended capability. -/
def extHead (f dw id version : Nat) : Nat := Config.emulatedReset f dw / 2 ^ 20 % 4096 * 2 ^ 20 + version * 65536 + id

/-- The PCI Express capability of an emulated function, at its i-th register (Tables 05-1 and 05-4): Upstream or Downstream Port of a switch, Maximum Payload
Size 4,096, the link, the slot, completion timeout ranges A to D and ARI Forwarding on a vDSP, AtomicOp routing; neither LTR nor OBFF (R218). Bits that neither
the spec nor the standard fixes are free (log entry 12). -/
def State.pcieRead (s : State) (p f i : Nat) : Nat :=
  let w := s.virtGet p f (Config.capability 0 + i)
  let (rate, width, up) := s.linkOf p f
  let v := f - 1
  if i = 0 then capHead f (Config.capability 0) 0x10 (2 + 16 * (if f = 0 then 5 else 6) + (if f ≠ 0 && s.slotShown p v then 256 else 0))
  else if i = 1 then w / 8 * 8 + 5
  else if i = 2 then w % 65536 + 65536 * (s.vport p f).detected
  else if i = 3 then
    let (r, n) := s.linkMost p f
    w / 2 ^ 21 * 2 ^ 21 + (if f = 0 then 0 else 2 ^ 20) + w / 4096 % 256 * 4096 + s.aspmShown p f * 1024 + n * 16 + r
  else if i = 4 then w % 65536 + 65536 * (rate + 16 * width + (if f ≠ 0 && up then 8192 else 0))
  else if i = 5 then (if f ≠ 0 && s.slotShown p v then w / 128 * 128 + 64 else 0)
  else if i = 6 then
    (if f ≠ 0 && s.slotShown p v then w % 65536 + 65536 * ((s.vport p f).slotChanged + if s.slotFull p v then 64 else 0) else 0)
  else if i = 9 then ([11, 18, 19].foldl withoutBit (w / 128 * 128)) + 64 + (if f = 0 then 0 else 32 + 15)
  else if i = 11 then w / 256 * 256 + (2 ^ (s.linkMost p f).1 - 1) * 2
  else w

/-- AER of an emulated function, at its i-th register: the status and header that R253 and R255 log (Table 05-4). -/
def State.aerRead (s : State) (p f i : Nat) : Nat :=
  let w := s.virtGet p f (Config.capability 3 + i)
  let k := aerKey p f
  if i = 0 then extHead f (Config.capability 3) 1 2
  else if i = 1 then tabGet (fun _ => 0) s.aer k % 2 ^ 32
  else if i = 4 then (s.vport p f).corr
  else if i = 6 then w / 32 * 32 + ((s.vport p f).first - 1)
  else if 7 ≤ i && i < 11 then beNat (((tabGet (fun _ => {}) s.aerHeader k).header.drop (4 * (i - 7))).take 4)
  else w

/-- A register of a capability of an emulated function (Table 05-4): power management of D0 and D3hot, MSI-X of four vectors, ACS (Table 05-7) and DPC of a vDSP,
DOE of the vUSP (R256), and the event ring (Table 10-18). -/
def State.capRead (s : State) (p f dw : Nat) : Option Nat :=
  let c := Config.capability
  let w := s.virtGet p f dw
  if c 0 ≤ dw && dw < c 0 + 15 then some (s.pcieRead p f (dw - c 0))
  else if dw = c 1 then some (capHead f dw 1 3)
  else if dw = c 1 + 1 then some (w % 4)
  else if dw = c 2 then some (w / 2 ^ 30 * 2 ^ 30 + capHead f dw 0x11 3)
  else if c 3 ≤ dw && dw < c 3 + 11 then some (s.aerRead p f (dw - c 3))
  else if f ≠ 0 && dw = c 4 then some (extHead f dw 0xD 1)
  else if f ≠ 0 && dw = c 4 + 1 then some (w / 65536 * 65536 + 0x1F)
  else if f ≠ 0 && dw = c 5 then some (extHead f dw 0x1D 1)
  else if f ≠ 0 && dw = c 5 + 1 then some (w / 128 * 128 + 64 + w % 64)
  else if f ≠ 0 && dw = c 5 + 2 then some (w / 2 * 2 + if (s.vport p f).dpcStatus then 1 else 0)
  else if f = 0 && dw = c 6 then some (extHead f dw 0x2E 2)
  else if f = 0 && c 6 < dw && dw < c 6 + 6 then some (s.doeRegister (2 + p) (4 * (dw - c 6)))
  else if f = 0 && c 7 + 3 ≤ dw && dw < c 7 + 9 then some ((s.ringRead p (dw - c 7)).getD 0)
  else none

/-- A register of an emulated function as the host reads it. In fixed mode a bridge window reads the address that the SBS gives, a free value (R239, log
entry 12). -/
def State.emulatedRead (s : State) (p f dw : Nat) : Nat :=
  if dw < 16 then (if 8 ≤ dw && dw < 12 && !s.follows p then Config.emulatedReset f dw % 2 ^ 32 else s.virtGet p f dw)
  else (s.capRead p f dw).getD (Config.emulatedReset f dw % 2 ^ 32)

/-- The bridge windows of a vDSP that follow its memory base or prefetchable base move (R239, R302). -/
def State.moveBridge (s : State) (p v dw : Nat) : State :=
  if dw = 8 then
    (s.followers p v 0 7).foldl (fun (s : State) n => s.moveWindow (s.virtGet p (vdspFn v) 8 % 65536 / 16 * 2 ^ 20) n) s
  else if dw = 9 || dw = 10 then
    (s.followers p v 1 7).foldl (fun (s : State) n =>
      s.moveWindow (s.virtGet p (vdspFn v) 9 % 65536 / 16 * 2 ^ 20 + s.virtGet p (vdspFn v) 10 * 2 ^ 32) n) s
  else s

/-- Bits that a write of ones clears. -/
def clearOnes (n ones : Nat) : Nat := n - (n &&& ones)

/-- A host's write of the PCI Express capability of an emulated function, at its i-th register: Device Control with the vUSP's Max_Payload_Size, the errors
and changes that ones clear, AtomicOp Egress Blocking (R330). -/
def State.pcieWrite (s : State) (p f i new ones : Nat) : State :=
  let dw := Config.capability 0 + i
  let v := s.vport p f
  if i = 2 then (s.virtPut p f dw (new % 65536)).setVport p f { v with mps := new / 32 % 8, detected := clearOnes v.detected (ones / 65536) }
  else if i = 4 || i = 12 then s.virtPut p f dw (new % 65536)
  else if i = 6 then (s.virtPut p f dw (new % 65536)).setVport p f { v with slotChanged := clearOnes v.slotChanged (ones / 65536) }
  else if i = 10 then (s.virtPut p f dw (new % 65536)).setVport p f { v with atomicBlock := new.testBit 7 }
  else s

/-- A host's write of AER of an emulated function: ones clear status, and with the first error its pointer and header; mask and severity are kept (R253). -/
def State.aerWrite (s : State) (p f i new ones : Nat) : State :=
  let dw := Config.capability 3 + i
  let k := aerKey p f
  let v := s.vport p f
  if i = 1 then
    let s : State := { s with aer := tabPut (fun _ => 0) s.aer k (clearOnes (tabGet (fun _ => 0) s.aer k) ones) }
    if 0 < v.first && ones.testBit (v.first - 1) then
      State.setVport { s with aerHeader := tabPut (fun _ => {}) s.aerHeader k {} } p f { v with first := 0 }
    else s
  else if i = 4 then s.setVport p f { v with corr := clearOnes v.corr ones }
  else if i = 2 || i = 3 || i = 5 then s.virtPut p f dw new
  else s

/-- A host's write of a capability of an emulated function. The vUSP in D3hot takes its link to L1 (R217, Table 05-4, log entry 77). -/
def State.capWrite (s : State) (p f dw val be : Nat) : State :=
  let c := Config.capability
  let new := mergeBytes (s.virtGet p f dw) val be
  let ones := mergeBytes 0 val be
  let v := s.vport p f
  if c 0 ≤ dw && dw < c 0 + 15 then s.pcieWrite p f (dw - c 0) new ones
  else if dw = c 1 + 1 then
    if new % 4 = 0 || new % 4 = 3 then
      let s := s.virtPut p f dw (new % 4)
      if f = 0 && new % 4 = 3 && s.get (PORT_PCIE.LINK_STATE p) = 3 then s.set (PORT_PCIE.LINK_STATE p) 5 else s
    else s
  else if dw = c 2 then (s.virtPut p f dw (new / 2 ^ 30 * 2 ^ 30)).setVport p f { v with vectors := if new.testBit 31 then 15 else 0 }
  else if c 3 ≤ dw && dw < c 3 + 11 then s.aerWrite p f (dw - c 3) new ones
  else if f ≠ 0 && dw = c 4 + 1 then s.virtPut p f dw (new / 65536 * 65536)
  else if f ≠ 0 && dw = c 5 + 1 then
    let s := (s.virtPut p f dw (withoutBit new 22 / 65536 * 65536 + s.virtGet p f dw % 65536)).setVport p f { v with dpcInterrupt := new.testBit 19 }
    if ones.testBit 22 then s.softTrigger p (f - 1) else s
  else if f ≠ 0 && dw = c 5 + 2 then (if ones.testBit 0 then s.clearStatus p (f - 1) else s)
  else if f = 0 && c 6 < dw && dw < c 6 + 6 then s.writeDoe (2 + p) (4 * (dw - c 6)) ones
  else if f = 0 && c 7 + 3 ≤ dw && dw < c 7 + 9 then s.ringWrite p (dw - c 7) (mergeBytes ((s.ringRead p (dw - c 7)).getD 0) val be)
  else s

/-- A host's write of an emulated register. Bits that the standard makes read-only stay, and in fixed mode the bridge windows (R239). -/
def State.emulatedWrite (s : State) (p f dw val be : Nat) : State :=
  let new := mergeBytes (s.virtGet p f dw) val be
  if dw = 1 then s.virtPut p f 1 (s.virtGet p f 1 / 65536 * 65536 + (new &&& 0x0547))
  else if dw = 6 then s.virtPut p f 6 (new % 2 ^ 24)
  else if dw = 15 then
    let rise := new.testBit 22 && !(s.virtGet p f 15).testBit 22
    let s := s.virtPut p f 15 new
    if !rise then s
    else if f = 0 then (s.vdsps p).foldl (fun (s : State) v => s.busReset p v) s
    else s.busReset p (f - 1)
  else if 8 ≤ dw && dw < 12 then
    if !s.follows p then s
    else if f = 0 then s.virtPut p f dw new
    else (s.virtPut p f dw new).moveBridge p (f - 1) dw
  else if dw < 16 then s
  else s.capWrite p f dw val be

/-- A configuration request to an emulated function is answered at once (R235). -/
def State.emulate (s : State) (p f : Nat) (t : Tlp) : State :=
  let dw := t.addr % 4096 / 4
  match t.kind with
  | .cfgWrite _ => (s.emulatedWrite p f dw (leNat (t.data.take 4)) t.firstBe).sendTlp p (cplFor t .sc 0 [])
  | _ => s.sendTlp p (cplFor t .sc 0 (leBytes 4 (s.emulatedRead p f dw)))

/-- Admission carries Config packets in this mode (R584). -/
def State.configOpen (s : State) : Bool := decide (5 < s.mode) || (s.mode = 5 && s.bitOf PKG_MODE.JOIN 4)

/-- A Type 1 request to the functions bound behind a vDSP (R237, R356, R584): a contained view answers CONTAINED (R249). -/
def State.boundConfig (s : State) (p v : Nat) (t : Tlp) : State :=
  let hit := (s.behind p v).findSome? fun b => ((s.functionsOf b).find? fun f => s.hostFn b f = t.target % 256).map fun f => (b, f)
  match hit with
  | none => s.sendTlp p (cplFor t .ur 0 [])
  | some (b, fn) =>
    if (s.vport p (vdspFn v)).view then s.answerTlp p t stContained else
    let dw := t.addr % 4096 / 4
    let f := (s.deviceOf b.target).shown fn (decide (s.hostFn b fn ≠ fn))
    match f.barOf dw with
    | some bar =>
      (match t.kind with
       | .cfgWrite _ => (s.barWrite p v (t.target % 256) f dw bar (leNat (t.data.take 4)) t.firstBe).sendTlp p (cplFor t .sc 0 [])
       | _ => s.sendTlp p (cplFor t .sc 0 (leBytes 4 (s.barRead p v (t.target % 256) f dw bar))))
    | none => if s.configOpen then s.sendConfig p t b fn else s.sendTlp p (cplFor t .crs 0 [])

/-- Table 07-7. A request that the port's handler engine does not serve becomes its item (R334). -/
def State.configRequest (s : State) (p : Nat) (t : Tlp) : State :=
  if !s.serves p 3 then s.handTlp p 3 t true else
  let bus := t.target / 256
  let device := t.target % 256 / 8
  let one := match t.kind with
    | .cfgRead x => some x
    | .cfgWrite x => some x
    | _ => none
  match one with
  | none => s
  | some false => if t.target % 256 = 0 then s.emulate p 0 t else s.sendTlp p (cplFor t .ur 0 [])
  | some true =>
    if bus = s.secondaryBus p 0 then
      if t.target % 8 = 0 && (s.vdsps p).contains device then s.emulate p (vdspFn device) t else s.sendTlp p (cplFor t .ur 0 [])
    else match (s.vdsps p).find? fun v => s.secondaryBus p (vdspFn v) = bus with
      | some v => s.boundConfig p v t
      | none => s.sendTlp p (cplFor t .ur 0 [])

/-- CONFIG_REQUEST (R354). -/
def execConfigRequest (p : Nat) (t : Tlp) (s₀ : State) : Host.Outcome State Fault Refusal :=
  let s := beginStep s₀
  finish s₀ (if s.isPu p && s.pcieUp p then (s.portHeard p).configRequest p t else s)

end Sys2Proof.Machine
end

