-- ==== Sys2Proof/Machine/Dispatch.lean ====
section
/-! DEFINITION. One arm for each command: a direct call of its meaning. -/

namespace Sys2Proof.Machine

def exec (i : Instr) (s : State) : Host.Outcome State Fault Refusal :=
  match i with
  | .resetBRelease straps => Sys2Proof.Machine.execResetBRelease straps s
  | .resetBAssert => Sys2Proof.Machine.execResetBAssert s
  | .aonClockLoss => Sys2Proof.Machine.execAonClockLoss s
  | .supplyOutOfRange rail => Sys2Proof.Machine.execSupplyOutOfRange rail s
  | .dieSelfTestDone pass supplies checks => Sys2Proof.Machine.execDieSelfTestDone pass supplies checks s
  | .keeperWatchdogExpiry k kicked => Sys2Proof.Machine.execKeeperWatchdogExpiry k kicked s
  | .watchdogKick k => Sys2Proof.Machine.execWatchdogKick k s
  | .firmwareVerified sig0 sig1 => Sys2Proof.Machine.execFirmwareVerified sig0 sig1 s
  | .sbsStageWrite m offset v => Sys2Proof.Machine.execSbsStageWrite m offset v s
  | .loadStagedImage m => Sys2Proof.Machine.execLoadStagedImage m s
  | .writeStagedToSlot m target => Sys2Proof.Machine.execWriteStagedToSlot m target s
  | .slotWriteComplete readBack => Sys2Proof.Machine.execSlotWriteComplete readBack s
  | .startPartialReload m region target => Sys2Proof.Machine.execStartPartialReload m region target s
  | .discardStagedImage m => Sys2Proof.Machine.execDiscardStagedImage m s
  | .bootSelWrite m sel => Sys2Proof.Machine.execBootSelWrite m sel s
  | .imageValidationDone => Sys2Proof.Machine.execImageValidationDone s
  | .imageApplyComplete => Sys2Proof.Machine.execImageApplyComplete s
  | .reloadDrainStart => Sys2Proof.Machine.execReloadDrainStart s
  | .reloadDrainEnd => Sys2Proof.Machine.execReloadDrainEnd s
  | .reloadApplyDone => Sys2Proof.Machine.execReloadApplyDone s
  | .sealCommit m token => Sys2Proof.Machine.execSealCommit m token s
  | .fecCodewordReceive l symbols => Sys2Proof.Machine.execFecCodewordReceive l symbols s
  | .blockLockAcquired l inverted => Sys2Proof.Machine.execBlockLockAcquired l inverted s
  | .blockLockLost l => Sys2Proof.Machine.execBlockLockLost l s
  | .slotSend p => Sys2Proof.Machine.execSlotSend p s
  | .trainBlockReceive l element => Sys2Proof.Machine.execTrainBlockReceive l element s
  | .trainStateAdvance l fom => Sys2Proof.Machine.execTrainStateAdvance l fom s
  | .trainingTimeout l => Sys2Proof.Machine.execTrainingTimeout l s
  | .equaliseTimeout p => Sys2Proof.Machine.execEqualiseTimeout p s
  | .adapterCheckpoint l values fom => Sys2Proof.Machine.execAdapterCheckpoint l values fom s
  | .adapterIdleFreeze l => Sys2Proof.Machine.execAdapterIdleFreeze l s
  | .driftWatchdogFire l fom => Sys2Proof.Machine.execDriftWatchdogFire l fom s
  | .eyeContourComplete l probes => Sys2Proof.Machine.execEyeContourComplete l probes s
  | .eyeTargetWrite m l target => Sys2Proof.Machine.execEyeTargetWrite m l target s
  | .dozeIdleExpiry p => Sys2Proof.Machine.execDozeIdleExpiry p s
  | .txDozeEntry p => Sys2Proof.Machine.execTxDozeEntry p s
  | .dozeBlockReceive l => Sys2Proof.Machine.execDozeBlockReceive l s
  | .txWakeActive p => Sys2Proof.Machine.execTxWakeActive p s
  | .rxEnergyDetect l => Sys2Proof.Machine.execRxEnergyDetect l s
  | .wakePreambleEnd p => Sys2Proof.Machine.execWakePreambleEnd p s
  | .lanePowerUp p => Sys2Proof.Machine.execLanePowerUp p s
  | .lanemapReceive p element => Sys2Proof.Machine.execLanemapReceive p element s
  | .lanemapRepeat p => Sys2Proof.Machine.execLanemapRepeat p s
  | .maskSwitch p => Sys2Proof.Machine.execMaskSwitch p s
  | .pcieLaneLoss p lanesLeft => Sys2Proof.Machine.execPcieLaneLoss p lanesLeft s
  | .initFlitReceive p flit => Sys2Proof.Machine.execInitFlitReceive p flit s
  | .flitReceive p flit flagged => Sys2Proof.Machine.execFlitReceive p flit flagged s
  | .nakRetryTimeout p => Sys2Proof.Machine.execNakRetryTimeout p s
  | .replayTimerExpiry p => Sys2Proof.Machine.execReplayTimerExpiry p s
  | .linkReturnTimeout p => Sys2Proof.Machine.execLinkReturnTimeout p s
  | .tallySend p => Sys2Proof.Machine.execTallySend p s
  | .tallyReceive p flit => Sys2Proof.Machine.execTallyReceive p flit s
  | .tallyLate p => Sys2Proof.Machine.execTallyLate p s
  | .tallyMissing p => Sys2Proof.Machine.execTallyMissing p s
  | .bfPacketArrival p => Sys2Proof.Machine.execBfPacketArrival p s
  | .writeLossEventReceive p pkt => Sys2Proof.Machine.execWriteLossEventReceive p pkt s
  | .announceReceive p element => Sys2Proof.Machine.execAnnounceReceive p element s
  | .syncReceive p element => Sys2Proof.Machine.execSyncReceive p element s
  | .dreqReceive p element => Sys2Proof.Machine.execDreqReceive p element s
  | .drespReceive p element => Sys2Proof.Machine.execDrespReceive p element s
  | .timeLock => Sys2Proof.Machine.execTimeLock s
  | .pdLinkUp p dev => Sys2Proof.Machine.execPdLinkUp p dev s
  | .tagPoolResize p => Sys2Proof.Machine.execTagPoolResize p s
  | .pdLinkDown p => Sys2Proof.Machine.execPdLinkDown p s
  | .puLinkUp p width rate flit credits => Sys2Proof.Machine.execPuLinkUp p width rate flit credits s
  | .puLinkDown p => Sys2Proof.Machine.execPuLinkDown p s
  | .puHotReset p => Sys2Proof.Machine.execPuHotReset p s
  | .pmeTurnOff p => Sys2Proof.Machine.execPmeTurnOff p s
  | .pmeToAck p => Sys2Proof.Machine.execPmeToAck p s
  | .configRequest p t => Sys2Proof.Machine.execConfigRequest p t s
  | .secondaryBusReset p vdsp => Sys2Proof.Machine.execSecondaryBusReset p vdsp s
  | .flrWrite p vdsp fn => Sys2Proof.Machine.execFlrWrite p vdsp fn s
  | .flrComplete p fn => Sys2Proof.Machine.execFlrComplete p fn s
  | .vdspDpcTrigger p vdsp => Sys2Proof.Machine.execVdspDpcTrigger p vdsp s
  | .dpcStatusClear p vdsp => Sys2Proof.Machine.execDpcStatusClear p vdsp s
  | .dpcTriggerWrite m p => Sys2Proof.Machine.execDpcTriggerWrite m p s
  | .dpcReleaseWrite m p => Sys2Proof.Machine.execDpcReleaseWrite m p s
  | .dpcTimedRelease p => Sys2Proof.Machine.execDpcTimedRelease p s
  | .errorMessageReceive p severity fn => Sys2Proof.Machine.execErrorMessageReceive p severity fn s
  | .errMsgEventReceive p pkt => Sys2Proof.Machine.execErrMsgEventReceive p pkt s
  | .doeObjectWrite inst object => Sys2Proof.Machine.execDoeObjectWrite inst object s
  | .doeAbort inst => Sys2Proof.Machine.execDoeAbort inst s
  | .getVersion inst request => Sys2Proof.Machine.execGetVersion inst request s
  | .getCapabilities inst request => Sys2Proof.Machine.execGetCapabilities inst request s
  | .negotiateAlgorithms inst request => Sys2Proof.Machine.execNegotiateAlgorithms inst request s
  | .getDigests inst request => Sys2Proof.Machine.execGetDigests inst request s
  | .getCertificate inst request => Sys2Proof.Machine.execGetCertificate inst request s
  | .challenge inst request => Sys2Proof.Machine.execChallenge inst request s
  | .getMeasurements inst request => Sys2Proof.Machine.execGetMeasurements inst request s
  | .requestReceive p t => Sys2Proof.Machine.execRequestReceive p t s
  | .prefetchExpiry c no => Sys2Proof.Machine.execPrefetchExpiry c no s
  | .burekCompletionReceive p pkt => Sys2Proof.Machine.execBurekCompletionReceive p pkt s
  | .lockGrantReceive pkt => Sys2Proof.Machine.execLockGrantReceive pkt s
  | .lockBusyReceive pkt => Sys2Proof.Machine.execLockBusyReceive pkt s
  | .lockBackoffExpiry => Sys2Proof.Machine.execLockBackoffExpiry s
  | .escalatedClear m w => Sys2Proof.Machine.execEscalatedClear m w s
  | .msixEventReceive p pkt => Sys2Proof.Machine.execMsixEventReceive p pkt s
  | .intxMessageReceive p pin level fn => Sys2Proof.Machine.execIntxMessageReceive p pin level fn s
  | .intxEventReceive p pkt => Sys2Proof.Machine.execIntxEventReceive p pkt s
  | .vendorMessageReceive p t => Sys2Proof.Machine.execVendorMessageReceive p t s
  | .deviceCompletionReceive p t => Sys2Proof.Machine.execDeviceCompletionReceive p t s
  | .pdTlpAcknowledged p tag => Sys2Proof.Machine.execPdTlpAcknowledged p tag s
  | .packetPlace point => Sys2Proof.Machine.execPacketPlace point s
  | .mrdlkReceive p t => Sys2Proof.Machine.execMrdlkReceive p t s
  | .lockPacketReceive p pkt => Sys2Proof.Machine.execLockPacketReceive p pkt s
  | .unlockMessageReceive p => Sys2Proof.Machine.execUnlockMessageReceive p s
  | .unlockPacketReceive p pkt => Sys2Proof.Machine.execUnlockPacketReceive p pkt s
  | .lockHoldExpiry p => Sys2Proof.Machine.execLockHoldExpiry p s
  | .lockBoundExpiry => Sys2Proof.Machine.execLockBoundExpiry s
  | .configPacketReceive p pkt => Sys2Proof.Machine.execConfigPacketReceive p pkt s
  | .configRetryTimer p => Sys2Proof.Machine.execConfigRetryTimer p s
  | .configRetryTimeout p => Sys2Proof.Machine.execConfigRetryTimeout p s
  | .portLockWrite m p v => Sys2Proof.Machine.execPortLockWrite m p v s
  | .requestAdmit p q => Sys2Proof.Machine.execRequestAdmit p q s
  | .calendarAdvance => Sys2Proof.Machine.execCalendarAdvance s
  | .transitLateAdmit p q => Sys2Proof.Machine.execTransitLateAdmit p q s
  | .surrogateExpiry p id => Sys2Proof.Machine.execSurrogateExpiry p id s
  | .tagQuarantineExpiry p tag => Sys2Proof.Machine.execTagQuarantineExpiry p tag s
  | .pdCompletionTimeout p tag => Sys2Proof.Machine.execPdCompletionTimeout p tag s
  | .farSurrogateExpiry p tag => Sys2Proof.Machine.execFarSurrogateExpiry p tag s
  | .boundsAnnounce => Sys2Proof.Machine.execBoundsAnnounce s
  | .boundsReceive p pkt => Sys2Proof.Machine.execBoundsReceive p pkt s
  | .cbookLowerApply p => Sys2Proof.Machine.execCbookLowerApply p s
  | .settleExpiry => Sys2Proof.Machine.execSettleExpiry s
  | .ledgerBreach scope index lost injected => Sys2Proof.Machine.execLedgerBreach scope index lost injected s
  | .d2dTallyExchange x first second => Sys2Proof.Machine.execD2dTallyExchange x first second s
  | .d2dInterfaceFail x => Sys2Proof.Machine.execD2dInterfaceFail x s
  | .d2dInterfaceReturn x => Sys2Proof.Machine.execD2dInterfaceReturn x s
  | .tallySelectWrite m die c index => Sys2Proof.Machine.execTallySelectWrite m die c index s
  | .faultRecordClose scope => Sys2Proof.Machine.execFaultRecordClose scope s
  | .popWindowRead m w => Sys2Proof.Machine.execPopWindowRead m w s
  | .portContainTrigger m p => Sys2Proof.Machine.execPortContainTrigger m p s
  | .portContainRelease m p => Sys2Proof.Machine.execPortContainRelease m p s
  | .windowContainTrigger m w => Sys2Proof.Machine.execWindowContainTrigger m w s
  | .windowContainRelease m w => Sys2Proof.Machine.execWindowContainRelease m w s
  | .clusterFenceRelease m mask => Sys2Proof.Machine.execClusterFenceRelease m mask s
  | .clusterReset m c => Sys2Proof.Machine.execClusterReset m c s
  | .regionReset m g => Sys2Proof.Machine.execRegionReset m g s
  | .eventRingWrite p => Sys2Proof.Machine.execEventRingWrite p s
  | .eventRingHeadWrite p head => Sys2Proof.Machine.execEventRingHeadWrite p head s
  | .eventRingDisable p => Sys2Proof.Machine.execEventRingDisable p s
  | .injectGo m block v => Sys2Proof.Machine.execInjectGo m block v s
  | .injectAbort m block v => Sys2Proof.Machine.execInjectAbort m block v s
  | .tollStageWrite m d no w v => Sys2Proof.Machine.execTollStageWrite m d no w v s
  | .tollCommit m d no v => Sys2Proof.Machine.execTollCommit m d no v s
  | .tollCommitRelease d => Sys2Proof.Machine.execTollCommitRelease d s
  | .tollStagingTimeout d => Sys2Proof.Machine.execTollStagingTimeout d s
  | .fenceGo m => Sys2Proof.Machine.execFenceGo m s
  | .fenceComplete => Sys2Proof.Machine.execFenceComplete s
  | .violationRecordRead m d => Sys2Proof.Machine.execViolationRecordRead m d s
  | .crossingRelease x => Sys2Proof.Machine.execCrossingRelease x s
  | .clockReturn x far => Sys2Proof.Machine.execClockReturn x far s
  | .i3cWriteAccess n bytes => Sys2Proof.Machine.execI3cWriteAccess n bytes s
  | .i3cReadSetup n bytes => Sys2Proof.Machine.execI3cReadSetup n bytes s
  | .i3cReadResult n ready => Sys2Proof.Machine.execI3cReadResult n ready s
  | .i3cRstact n targetReset => Sys2Proof.Machine.execI3cRstact n targetReset s
  | .i3cRstdaa n => Sys2Proof.Machine.execI3cRstdaa n s
  | .i3cEntdaa n address => Sys2Proof.Machine.execI3cEntdaa n address s
  | .i3cSetdasa n static address => Sys2Proof.Machine.execI3cSetdasa n static address s
  | .i3cGetpid n => Sys2Proof.Machine.execI3cGetpid n s
  | .i3cGetbcr n => Sys2Proof.Machine.execI3cGetbcr n s
  | .i3cGetdcr n => Sys2Proof.Machine.execI3cGetdcr n s
  | .i3cGetstatus n => Sys2Proof.Machine.execI3cGetstatus n s
  | .cpEventNotify n => Sys2Proof.Machine.execCpEventNotify n s
  | .cpLinkDown n => Sys2Proof.Machine.execCpLinkDown n s
  | .cpPerstAssert n => Sys2Proof.Machine.execCpPerstAssert n s
  | .semaphoreRead m no => Sys2Proof.Machine.execSemaphoreRead m no s
  | .semaphoreWrite m no v => Sys2Proof.Machine.execSemaphoreWrite m no v s
  | .towpathTimeout c => Sys2Proof.Machine.execTowpathTimeout c s
  | .ibaCsRead n rank cls offset => Sys2Proof.Machine.execIbaCsRead n rank cls offset s
  | .ibaCsWrite n rank cls offset => Sys2Proof.Machine.execIbaCsWrite n rank cls offset s
  | .ibaResponseReceive pkt => Sys2Proof.Machine.execIbaResponseReceive pkt s
  | .ibaTimeout n => Sys2Proof.Machine.execIbaTimeout n s
  | .csReadReceive p pkt => Sys2Proof.Machine.execCsReadReceive p pkt s
  | .csWriteReceive p pkt => Sys2Proof.Machine.execCsWriteReceive p pkt s
  | .noticeReceive pkt => Sys2Proof.Machine.execNoticeReceive pkt s
  | .reconcilePass d reports => Sys2Proof.Machine.execReconcilePass d reports s
  | .reconAdopt m d item index all => Sys2Proof.Machine.execReconAdopt m d item index all s
  | .reconForce m d item index => Sys2Proof.Machine.execReconForce m d item index s
  | .bringupComplete => Sys2Proof.Machine.execBringupComplete s
  | .bringupTimeout => Sys2Proof.Machine.execBringupTimeout s
  | .joinComplete => Sys2Proof.Machine.execJoinComplete s
  | .claimSend => Sys2Proof.Machine.execClaimSend s
  | .claimReceive p pkt => Sys2Proof.Machine.execClaimReceive p pkt s
  | .bindReceive p pkt => Sys2Proof.Machine.execBindReceive p pkt s
  | .claimWindowExpiry => Sys2Proof.Machine.execClaimWindowExpiry s
  | .joinWaitExpiry bounds => Sys2Proof.Machine.execJoinWaitExpiry bounds s
  | .modeDrain m => Sys2Proof.Machine.execModeDrain m s
  | .drainComplete => Sys2Proof.Machine.execDrainComplete s
  | .modeResume m => Sys2Proof.Machine.execModeResume m s
  | .modeMaint m => Sys2Proof.Machine.execModeMaint m s
  | .modeReset m key => Sys2Proof.Machine.execModeReset m key s
  | .packageResetEffect => Sys2Proof.Machine.execPackageResetEffect s
  | .measurementExtend m => Sys2Proof.Machine.execMeasurementExtend m s
  | .measurementSelect m sel => Sys2Proof.Machine.execMeasurementSelect m sel s
  | .powerSample d power temps => Sys2Proof.Machine.execPowerSample d power temps s
  | .portWake m p => Sys2Proof.Machine.execPortWake m p s
  | .gatherGo m d v => Sys2Proof.Machine.execGatherGo m d v s
  | .gatherComplete d => Sys2Proof.Machine.execGatherComplete d s
  | .countersAllOn m c => Sys2Proof.Machine.execCountersAllOn m c s
  | .countersAllOff m c => Sys2Proof.Machine.execCountersAllOff m c s
  | .chainedCounterRead m die c n => Sys2Proof.Machine.execChainedCounterRead m die c n s
  | .nvsBlockRead m block => Sys2Proof.Machine.execNvsBlockRead m block s
  | .nvsBlockWrite m block => Sys2Proof.Machine.execNvsBlockWrite m block s
  | .nvsOperationComplete ok => Sys2Proof.Machine.execNvsOperationComplete ok s
  | .timePulse => Sys2Proof.Machine.execTimePulse s
  | .registerWrite m a v => Sys2Proof.Machine.execRegisterWrite m a v s
  | .engineItemArrival te item => Sys2Proof.Machine.execEngineItemArrival te item s
  | .engineTimerExpiry te => Sys2Proof.Machine.execEngineTimerExpiry te s
  | .handlerWatchdog te => Sys2Proof.Machine.execHandlerWatchdog te s
  | .illegalInstruction te => Sys2Proof.Machine.execIllegalInstruction te s
  | .programWordUncorrectable te => Sys2Proof.Machine.execProgramWordUncorrectable te s
  | .wait te => Sys2Proof.Machine.execWait te s
  | .li te rd imm => Sys2Proof.Machine.execLi te rd imm s
  | .lix te rd imm => Sys2Proof.Machine.execLix te rd imm s
  | .add te rd ra rb => Sys2Proof.Machine.execAdd te rd ra rb s
  | .sub te rd ra rb => Sys2Proof.Machine.execSub te rd ra rb s
  | .and te rd ra rb => Sys2Proof.Machine.execAnd te rd ra rb s
  | .or te rd ra rb => Sys2Proof.Machine.execOr te rd ra rb s
  | .xor te rd ra rb => Sys2Proof.Machine.execXor te rd ra rb s
  | .shl te rd ra rb => Sys2Proof.Machine.execShl te rd ra rb s
  | .shr te rd ra rb => Sys2Proof.Machine.execShr te rd ra rb s
  | .addi te rd ra imm => Sys2Proof.Machine.execAddi te rd ra imm s
  | .andi te rd ra imm => Sys2Proof.Machine.execAndi te rd ra imm s
  | .shli te rd ra imm => Sys2Proof.Machine.execShli te rd ra imm s
  | .shri te rd ra imm => Sys2Proof.Machine.execShri te rd ra imm s
  | .swap te rd ra imm => Sys2Proof.Machine.execSwap te rd ra imm s
  | .ld8 te rd ra imm => Sys2Proof.Machine.execLd8 te rd ra imm s
  | .ld16 te rd ra imm => Sys2Proof.Machine.execLd16 te rd ra imm s
  | .ld32 te rd ra imm => Sys2Proof.Machine.execLd32 te rd ra imm s
  | .ld64 te rd ra imm => Sys2Proof.Machine.execLd64 te rd ra imm s
  | .st8 te rd ra imm => Sys2Proof.Machine.execSt8 te rd ra imm s
  | .st16 te rd ra imm => Sys2Proof.Machine.execSt16 te rd ra imm s
  | .st32 te rd ra imm => Sys2Proof.Machine.execSt32 te rd ra imm s
  | .st64 te rd ra imm => Sys2Proof.Machine.execSt64 te rd ra imm s
  | .beq te ra rb imm => Sys2Proof.Machine.execBeq te ra rb imm s
  | .bne te ra rb imm => Sys2Proof.Machine.execBne te ra rb imm s
  | .bltu te ra rb imm => Sys2Proof.Machine.execBltu te ra rb imm s
  | .bgeu te ra rb imm => Sys2Proof.Machine.execBgeu te ra rb imm s
  | .jmp te imm => Sys2Proof.Machine.execJmp te imm s
  | .call te imm => Sys2Proof.Machine.execCall te imm s
  | .jr te ra => Sys2Proof.Machine.execJr te ra s
  | .send te ra => Sys2Proof.Machine.execSend te ra s
  | .issue te ra => Sys2Proof.Machine.execIssue te ra s
  | .reply te ra rb => Sys2Proof.Machine.execReply te ra rb s
  | .time te rd => Sys2Proof.Machine.execTime te rd s
  | .timer te ra => Sys2Proof.Machine.execTimer te ra s
  | .amoFetchadd te rd ra rb => Sys2Proof.Machine.execAmoFetchadd te rd ra rb s
  | .amoSwap te rd ra rb => Sys2Proof.Machine.execAmoSwap te rd ra rb s
  | .amoCas te rd ra rb => Sys2Proof.Machine.execAmoCas te rd ra rb s
  | .raise te => Sys2Proof.Machine.execRaise te s
  | .aonClockReturn => Sys2Proof.Machine.execAonClockReturn s
  | .referenceClockLoss g => Sys2Proof.Machine.execReferenceClockLoss g s
  | .referenceClockReturn g => Sys2Proof.Machine.execReferenceClockReturn g s
  | .regionFenceDrainEnd g => Sys2Proof.Machine.execRegionFenceDrainEnd g s
  | .flowControlUpdate p kind header data => Sys2Proof.Machine.execFlowControlUpdate p kind header data s
  | .pcieRecovery p width rate => Sys2Proof.Machine.execPcieRecovery p width rate s
  | .aspmL1Entry p => Sys2Proof.Machine.execAspmL1Entry p s
  | .aspmL1Exit p => Sys2Proof.Machine.execAspmL1Exit p s
  | .cpLinkUp n => Sys2Proof.Machine.execCpLinkUp n s
  | .basinPartitionFull d part => Sys2Proof.Machine.execBasinPartitionFull d part s
  | .timeBaseOutOfStep cluster no => Sys2Proof.Machine.execTimeBaseOutOfStep cluster no s

end Sys2Proof.Machine
end

