-- ==== Sys2Proof/Machine/Tick.lean ====
section
/-! DEFINITION. A cycle of CK_TIME in which no command is taken (R527, R214). -/

namespace Sys2Proof.Machine

/-- A slew of fabric time: 15 or 17 ticks in place of 16, in at most one cycle in 64, while the parent's offset lies beyond one tick
(R214): after the step of Fabric Join, and for a parent gained after Join without one (log entry 74). The offset is held modulo 2^48. -/
def State.slew (s : State) : State :=
  match s.time.parent with
  | none => s
  | some p =>
    let o := (s.link p).offset % 2 ^ 48
    if (!s.time.stepped && s.mode ≤ 5) || o ≤ 1 || o = 2 ^ 48 - 1 then s
    else if s.time.slewWait < 63 then { s with time := { s.time with slewWait := s.time.slewWait + 1 } }
    else
      let ahead := decide (o < 2 ^ 47)
      let s := s.setLink p { s.link p with offset := if ahead then o - 1 else o + 1 }
      { s with adjust := if ahead then s.adjust - 1 else s.adjust + 1, time := { s.time with slewWait := 0 } }

/-- What a cycle does when no command waits: C advances (R527), and what the last command left to the next cycle happens. -/
def tick (s₀ : State) : State :=
  let s := beginStep s₀
  endStep s₀ (State.slew { s with cycles := s.cycles + 1 })

end Sys2Proof.Machine
end

