-- ==== Sys2Proof/WellFormed.lean ====
section
/-! DEFINITION. Which commands are well formed: operands that name something of the larger part, and fields that fit where they go. -/

namespace Sys2Proof
open Machine

/-- A master names a control port, a keeper or a fabric ID. -/
def Machine.Master.wellFormed : Master → Bool
  | .cp n => decide (n < 2)
  | .keeper k => decide (k < 8)
  | .inband id _ => decide (id < 65536)
  | .debug | .lead => true

/-- Only a control port, and only under the PCI Express strap, accesses a part of a register (R550). -/
def Machine.Master.widthOk (x : Machine.AccessWidth) : Machine.Master → Bool
  | .cp _ => true
  | _ => x == .whole

/-- An access names a master that is able to make it. -/
def Machine.ControlAccess.wellFormed (x : ControlAccess) : Bool := x.master.wellFormed && x.master.widthOk x.width

/-- A pop window names a die, a PU port or a control port. -/
def Machine.PopWindow.wellFormed : PopWindow → Bool
  | .fault d | .bittern d | .surrogate d | .keepers d | .telemetry d => decide (d < 4)
  | .partition p => decide (p < 256)
  | .controlPort n => decide (n < 2)

/-- The fields of a packet fit the header (Table 04-5), and its payload is as long as it says. -/
def Machine.Packet.wellFormed (k : Packet) : Bool :=
  decide (k.ptype < 16) && decide (k.vc < 4) && decide (k.cls < 3) && decide (k.dest < 65536) && decide (k.src < 65536) && decide (k.tag < 16384) &&
    decide (k.reqFn < 256) && decide (k.len < 8192) && decide (k.status < 8) && decide (k.window < 65536) && decide (k.sub < 256) && decide (k.fbe < 256) &&
    decide (k.lbe < 256) && decide (k.addr < 2 ^ 64) && decide (k.partition < 1024) && decide (k.hops < 16) && decide (k.deadline < 2 ^ 48) &&
    decide (k.payload.length ≤ 4096)

/-- The fields of a TLP fit. -/
def Machine.Tlp.wellFormed (t : Tlp) : Bool :=
  decide (t.addr < 2 ^ 64) && decide (t.len ≤ 4096) && decide (t.firstBe < 16) && decide (t.lastBe < 16) && decide (t.reqId < 65536) &&
    decide (t.tag < 16384) && decide (t.tc < 8) && decide (t.target < 65536) && decide (t.data.length ≤ 4096)

/-- An item for an engine (Table 01-9). -/
def Machine.EngineItem.wellFormed (i : EngineItem) : Bool :=
  decide (i.kind < 16) && decide (i.port < 65536) && decide (i.requester < 65536) && decide (i.ctx < 65536) && decide (i.header.length ≤ 32) &&
    decide (i.payload.length ≤ 256)

/-- A command is well formed. -/
def Instr.wellFormed : Instr → Bool
  | .resetBRelease straps => decide (straps.cpSa < 4) && decide (straps.refSel < 256)
  | .resetBAssert => true
  | .aonClockLoss => true
  | .supplyOutOfRange rail => decide (rail < 26)
  | .dieSelfTestDone pass supplies checks => decide (pass < 16) && decide (supplies < 16) && decide (checks < 256)
  | .keeperWatchdogExpiry k _ => decide (k < 8)
  | .watchdogKick k => decide (k < 8)
  | .firmwareVerified _ _ => true
  | .sbsStageWrite m offset _ => m.wellFormed && decide (offset < 4096) && decide (offset % 8 = 0)
  | .loadStagedImage m => m.wellFormed
  | .writeStagedToSlot m target => m.wellFormed && (decide (target = 1) || decide (target = 2))
  | .slotWriteComplete _ => true
  | .startPartialReload m region target => m.wellFormed && decide (region < 16) && decide (target < 3)
  | .discardStagedImage m => m.wellFormed
  | .bootSelWrite m sel => m.wellFormed && decide (sel < 4)
  | .imageValidationDone => true
  | .imageApplyComplete => true
  | .reloadDrainStart => true
  | .reloadDrainEnd => true
  | .reloadApplyDone => true
  | .sealCommit m token => m.wellFormed && decide (token < 65536)
  | .fecCodewordReceive l symbols => decide (l < 512) && decide (symbols.length = 544)
  | .blockLockAcquired l _ => decide (l < 512)
  | .blockLockLost l => decide (l < 512)
  | .slotSend p => decide (p < 256)
  | .trainBlockReceive l _ => decide (l < 512)
  | .trainStateAdvance l fom => decide (l < 512) && decide (fom < 256)
  | .trainingTimeout l => decide (l < 512)
  | .equaliseTimeout p => decide (p < 256)
  | .adapterCheckpoint l _ fom => decide (l < 512) && decide (fom < 256)
  | .adapterIdleFreeze l => decide (l < 512)
  | .driftWatchdogFire l fom => decide (l < 512) && decide (fom < 256)
  | .eyeContourComplete l probes => decide (l < 512) && decide (probes.length = 2304)
  | .eyeTargetWrite m l target => m.wellFormed && decide (l < 512) && (decide (6 ≤ target) && decide (target ≤ 9))
  | .dozeIdleExpiry p => decide (p < 256)
  | .txDozeEntry p => decide (p < 256)
  | .dozeBlockReceive l => decide (l < 512)
  | .txWakeActive p => decide (p < 256)
  | .rxEnergyDetect l => decide (l < 512)
  | .wakePreambleEnd p => decide (p < 256)
  | .lanePowerUp p => decide (p < 256)
  | .lanemapReceive p _ => decide (p < 256)
  | .lanemapRepeat p => decide (p < 256)
  | .maskSwitch p => decide (p < 256)
  | .pcieLaneLoss p lanesLeft => decide (p < 256) && decide (lanesLeft < 17)
  | .initFlitReceive p flit => decide (p < 256) && decide (flit.length = 40)
  | .flitReceive p flit _ => decide (p < 256) && decide (flit.length = 40)
  | .nakRetryTimeout p => decide (p < 256)
  | .replayTimerExpiry p => decide (p < 256)
  | .linkReturnTimeout p => decide (p < 256)
  | .tallySend p => decide (p < 256)
  | .tallyReceive p flit => decide (p < 256) && decide (flit.length = 40)
  | .tallyLate p => decide (p < 256)
  | .tallyMissing p => decide (p < 256)
  | .bfPacketArrival p => decide (p < 256)
  | .writeLossEventReceive p pkt => decide (p < 256) && pkt.wellFormed
  | .announceReceive p _ => decide (p < 256)
  | .syncReceive p _ => decide (p < 256)
  | .dreqReceive p _ => decide (p < 256)
  | .drespReceive p _ => decide (p < 256)
  | .timeLock => true
  | .pdLinkUp p _ => decide (p < 256)
  | .tagPoolResize p => decide (p < 256)
  | .pdLinkDown p => decide (p < 256)
  | .puLinkUp p _ rate _ _ => decide (p < 256) && decide (rate < 8)
  | .puLinkDown p => decide (p < 256)
  | .puHotReset p => decide (p < 256)
  | .pmeTurnOff p => decide (p < 256)
  | .pmeToAck p => decide (p < 256)
  | .configRequest p t => decide (p < 256) && t.wellFormed
  | .secondaryBusReset p vdsp => decide (p < 256) && decide (vdsp < 32)
  | .flrWrite p vdsp fn => decide (p < 256) && decide (vdsp < 32) && decide (fn < 256)
  | .flrComplete p fn => decide (p < 256) && decide (fn < 65536)
  | .vdspDpcTrigger p vdsp => decide (p < 256) && decide (vdsp < 32)
  | .dpcStatusClear p vdsp => decide (p < 256) && decide (vdsp < 32)
  | .dpcTriggerWrite m p => m.wellFormed && decide (p < 256)
  | .dpcReleaseWrite m p => m.wellFormed && decide (p < 256)
  | .dpcTimedRelease p => decide (p < 256)
  | .errorMessageReceive p severity fn => decide (p < 256) && decide (severity < 3) && decide (fn < 256)
  | .errMsgEventReceive p pkt => decide (p < 256) && pkt.wellFormed
  | .doeObjectWrite inst _ => decide (inst < 258)
  | .doeAbort inst => decide (inst < 258)
  | .getVersion inst _ => decide (inst < 258)
  | .getCapabilities inst _ => decide (inst < 258)
  | .negotiateAlgorithms inst _ => decide (inst < 258)
  | .getDigests inst _ => decide (inst < 258)
  | .getCertificate inst _ => decide (inst < 258)
  | .challenge inst _ => decide (inst < 258)
  | .getMeasurements inst _ => decide (inst < 258)
  | .requestReceive p t => decide (p < 256) && t.wellFormed
  | .prefetchExpiry c no => decide (c < 64) && decide (no < 64)
  | .burekCompletionReceive p pkt => decide (p < 256) && pkt.wellFormed
  | .lockGrantReceive pkt => pkt.wellFormed
  | .lockBusyReceive pkt => pkt.wellFormed
  | .lockBackoffExpiry => true
  | .escalatedClear m w => m.wellFormed && decide (w < 65536)
  | .msixEventReceive p pkt => decide (p < 256) && pkt.wellFormed
  | .intxMessageReceive p pin _ fn => decide (p < 256) && decide (pin < 4) && decide (fn < 256)
  | .intxEventReceive p pkt => decide (p < 256) && pkt.wellFormed
  | .vendorMessageReceive p t => decide (p < 256) && t.wellFormed
  | .deviceCompletionReceive p t => decide (p < 256) && t.wellFormed
  | .pdTlpAcknowledged p tag => decide (p < 256) && decide (tag < 16384)
  | .packetPlace _ => true
  | .mrdlkReceive p t => decide (p < 256) && t.wellFormed
  | .lockPacketReceive p pkt => decide (p < 256) && pkt.wellFormed
  | .unlockMessageReceive p => decide (p < 256)
  | .unlockPacketReceive p pkt => decide (p < 256) && pkt.wellFormed
  | .lockHoldExpiry p => decide (p < 256)
  | .lockBoundExpiry => true
  | .configPacketReceive p pkt => decide (p < 256) && pkt.wellFormed
  | .configRetryTimer p => decide (p < 256)
  | .configRetryTimeout p => decide (p < 256)
  | .portLockWrite m p _ => m.wellFormed && decide (p < 256)
  | .requestAdmit p q => (decide (p < 256) || (decide (1024 ≤ p) && decide (p < 1536))) && decide (q < 16)
  | .calendarAdvance => true
  | .transitLateAdmit p q => decide (p < 256) && decide (q < 16)
  | .surrogateExpiry p _ => (decide (p < 256) || (decide (1024 ≤ p) && decide (p < 1536)))
  | .tagQuarantineExpiry p tag => decide (p < 256) && decide (tag < 16384)
  | .pdCompletionTimeout p tag => decide (p < 256) && decide (tag < 16384)
  | .farSurrogateExpiry p tag => decide (p < 256) && decide (tag < 16384)
  | .boundsAnnounce => true
  | .boundsReceive p pkt => decide (p < 256) && pkt.wellFormed
  | .cbookLowerApply p => decide (p < 256)
  | .settleExpiry => true
  | .ledgerBreach scope index _ _ => decide (scope < 68) && decide (index < 256)
  | .d2dTallyExchange x _ _ => decide (x < 6)
  | .d2dInterfaceFail x => decide (x < 6)
  | .d2dInterfaceReturn x => decide (x < 6)
  | .tallySelectWrite m die c index => m.wellFormed && decide (c < if die then 4 else 64) && decide (index < 256)
  | .faultRecordClose scope => (decide (scope < 64) || (decide (256 ≤ scope) && decide (scope < 260)) || decide (scope = 512))
  | .popWindowRead m w => m.wellFormed && w.wellFormed
  | .portContainTrigger m p => m.wellFormed && decide (p < 256)
  | .portContainRelease m p => m.wellFormed && decide (p < 256)
  | .windowContainTrigger m w => m.wellFormed && decide (w < 65536)
  | .windowContainRelease m w => m.wellFormed && decide (w < 65536)
  | .clusterFenceRelease m _ => m.wellFormed
  | .clusterReset m c => m.wellFormed && decide (c < 64)
  | .regionReset m g => m.wellFormed && decide (g < 16)
  | .eventRingWrite p => decide (p < 256)
  | .eventRingHeadWrite p head => decide (p < 256) && decide (head < 65536)
  | .eventRingDisable p => decide (p < 256)
  | .injectGo m block _ => m.wellFormed && decide (block < 5)
  | .injectAbort m block _ => m.wellFormed && decide (block < 5)
  | .tollStageWrite m d no w _ => m.wellFormed && decide (d < 4) && decide (no < 16384) && decide (w < 3)
  | .tollCommit m d no _ => m.wellFormed && decide (d < 4) && decide (no < 16384)
  | .tollCommitRelease d => decide (d < 4)
  | .tollStagingTimeout d => decide (d < 4)
  | .fenceGo m => m.wellFormed
  | .fenceComplete => true
  | .violationRecordRead m d => m.wellFormed && decide (d < 4)
  | .crossingRelease x => (decide (x < 1088) || (decide (2048 ≤ x) && decide (x < 2052)))
  | .clockReturn x _ => (decide (x < 1088) || (decide (2048 ≤ x) && decide (x < 2052)))
  | .i3cWriteAccess n _ => decide (n < 2)
  | .i3cReadSetup n _ => decide (n < 2)
  | .i3cReadResult n _ => decide (n < 2)
  | .i3cRstact n _ => decide (n < 2)
  | .i3cRstdaa n => decide (n < 2)
  | .i3cEntdaa n address => decide (n < 2) && decide (address < 128)
  | .i3cSetdasa n static address => decide (n < 2) && decide (static < 128) && decide (address < 128)
  | .i3cGetpid n => decide (n < 2)
  | .i3cGetbcr n => decide (n < 2)
  | .i3cGetdcr n => decide (n < 2)
  | .i3cGetstatus n => decide (n < 2)
  | .cpEventNotify n => decide (n < 2)
  | .cpLinkDown n => decide (n < 2)
  | .cpPerstAssert n => decide (n < 2)
  | .semaphoreRead m no => m.wellFormed && decide (no < 64)
  | .semaphoreWrite m no _ => m.wellFormed && decide (no < 64)
  | .towpathTimeout c => decide (c < 64)
  | .ibaCsRead n rank cls offset => decide (n < 2) && decide (rank < 64) && decide (cls < 3) && decide (offset < 2 ^ 30) && decide (offset % 8 = 0)
  | .ibaCsWrite n rank cls offset => decide (n < 2) && decide (rank < 64) && decide (cls < 3) && decide (offset < 2 ^ 30) && decide (offset % 8 = 0)
  | .ibaResponseReceive pkt => pkt.wellFormed
  | .ibaTimeout n => decide (n < 2)
  | .csReadReceive p pkt => decide (p < 256) && pkt.wellFormed
  | .csWriteReceive p pkt => decide (p < 256) && pkt.wellFormed
  | .noticeReceive pkt => pkt.wellFormed
  | .reconcilePass d _ => decide (d < 4)
  | .reconAdopt m d item index _ => m.wellFormed && decide (d < 4) && decide (item < 16) && decide (index < 2 ^ 24)
  | .reconForce m d item index => m.wellFormed && decide (d < 4) && decide (item < 16) && decide (index < 2 ^ 24)
  | .bringupComplete => true
  | .bringupTimeout => true
  | .joinComplete => true
  | .claimSend => true
  | .claimReceive p pkt => decide (p < 256) && pkt.wellFormed
  | .bindReceive p pkt => decide (p < 256) && pkt.wellFormed
  | .claimWindowExpiry => true
  | .joinWaitExpiry _ => true
  | .modeDrain m => m.wellFormed
  | .drainComplete => true
  | .modeResume m => m.wellFormed
  | .modeMaint m => m.wellFormed
  | .modeReset m key => m.wellFormed && decide (key < 256)
  | .packageResetEffect => true
  | .measurementExtend m => m.wellFormed
  | .measurementSelect m sel => m.wellFormed && decide (sel < 8)
  | .powerSample d power _ => decide (d < 4) && decide (power < 65536)
  | .portWake m p => m.wellFormed && decide (p < 256)
  | .gatherGo m d _ => m.wellFormed && decide (d < 4)
  | .gatherComplete d => decide (d < 4)
  | .countersAllOn m c => m.wellFormed && decide (c < 64)
  | .countersAllOff m c => m.wellFormed && decide (c < 64)
  | .chainedCounterRead m die c n => m.wellFormed && decide (c < if die then 4 else 64) && decide (n < if die then 64 else 32)
  | .nvsBlockRead m block => m.wellFormed && decide (block < 2 ^ 21)
  | .nvsBlockWrite m block => m.wellFormed && decide (block < 2 ^ 21)
  | .nvsOperationComplete _ => true
  | .timePulse => true
  | .registerWrite m a _ => m.wellFormed && decide (a < 2 ^ 30) && decide (a % 8 = 0)
  | .engineItemArrival te item => decide (te < 512) && item.wellFormed
  | .engineTimerExpiry te => decide (te < 512)
  | .handlerWatchdog te => decide (te < 512)
  | .illegalInstruction te => decide (te < 512)
  | .programWordUncorrectable te => decide (te < 512)
  | .wait te => decide (te < 512)
  | .li te rd _ => decide (te < 512) && decide (rd < 16)
  | .lix te rd _ => decide (te < 512) && decide (rd < 16)
  | .add te rd ra rb => decide (te < 512) && decide (rd < 16) && decide (ra < 16) && decide (rb < 16)
  | .sub te rd ra rb => decide (te < 512) && decide (rd < 16) && decide (ra < 16) && decide (rb < 16)
  | .and te rd ra rb => decide (te < 512) && decide (rd < 16) && decide (ra < 16) && decide (rb < 16)
  | .or te rd ra rb => decide (te < 512) && decide (rd < 16) && decide (ra < 16) && decide (rb < 16)
  | .xor te rd ra rb => decide (te < 512) && decide (rd < 16) && decide (ra < 16) && decide (rb < 16)
  | .shl te rd ra rb => decide (te < 512) && decide (rd < 16) && decide (ra < 16) && decide (rb < 16)
  | .shr te rd ra rb => decide (te < 512) && decide (rd < 16) && decide (ra < 16) && decide (rb < 16)
  | .addi te rd ra _ => decide (te < 512) && decide (rd < 16) && decide (ra < 16)
  | .andi te rd ra _ => decide (te < 512) && decide (rd < 16) && decide (ra < 16)
  | .shli te rd ra _ => decide (te < 512) && decide (rd < 16) && decide (ra < 16)
  | .shri te rd ra _ => decide (te < 512) && decide (rd < 16) && decide (ra < 16)
  | .swap te rd ra _ => decide (te < 512) && decide (rd < 16) && decide (ra < 16)
  | .ld8 te rd ra _ => decide (te < 512) && decide (rd < 16) && decide (ra < 16)
  | .ld16 te rd ra _ => decide (te < 512) && decide (rd < 16) && decide (ra < 16)
  | .ld32 te rd ra _ => decide (te < 512) && decide (rd < 16) && decide (ra < 16)
  | .ld64 te rd ra _ => decide (te < 512) && decide (rd < 16) && decide (ra < 16)
  | .st8 te rd ra _ => decide (te < 512) && decide (rd < 16) && decide (ra < 16)
  | .st16 te rd ra _ => decide (te < 512) && decide (rd < 16) && decide (ra < 16)
  | .st32 te rd ra _ => decide (te < 512) && decide (rd < 16) && decide (ra < 16)
  | .st64 te rd ra _ => decide (te < 512) && decide (rd < 16) && decide (ra < 16)
  | .beq te ra rb _ => decide (te < 512) && decide (ra < 16) && decide (rb < 16)
  | .bne te ra rb _ => decide (te < 512) && decide (ra < 16) && decide (rb < 16)
  | .bltu te ra rb _ => decide (te < 512) && decide (ra < 16) && decide (rb < 16)
  | .bgeu te ra rb _ => decide (te < 512) && decide (ra < 16) && decide (rb < 16)
  | .jmp te _ => decide (te < 512)
  | .call te _ => decide (te < 512)
  | .jr te ra => decide (te < 512) && decide (ra < 16)
  | .send te ra => decide (te < 512) && decide (ra < 16)
  | .issue te ra => decide (te < 512) && decide (ra < 16)
  | .reply te ra rb => decide (te < 512) && decide (ra < 16) && decide (rb < 16)
  | .time te rd => decide (te < 512) && decide (rd < 16)
  | .timer te ra => decide (te < 512) && decide (ra < 16)
  | .amoFetchadd te rd ra rb => decide (te < 512) && decide (rd < 16) && decide (ra < 16) && decide (rb < 16)
  | .amoSwap te rd ra rb => decide (te < 512) && decide (rd < 16) && decide (ra < 16) && decide (rb < 16)
  | .amoCas te rd ra rb => decide (te < 512) && decide (rd < 16) && decide (ra < 16) && decide (rb < 16)
  | .raise te => decide (te < 512)
  | .aonClockReturn => true
  | .referenceClockLoss g => decide (g < 16)
  | .referenceClockReturn g => decide (g < 16)
  | .regionFenceDrainEnd g => decide (g < 16)
  | .flowControlUpdate p kind _ _ => decide (p < 256) && decide (kind < 3)
  | .pcieRecovery p _ rate => decide (p < 256) && decide (rate < 8)
  | .aspmL1Entry p => decide (p < 256)
  | .aspmL1Exit p => decide (p < 256)
  | .cpLinkUp n => decide (n < 2)
  | .basinPartitionFull d part => decide (d < 4) && decide (part < 16)
  | .timeBaseOutOfStep cluster no => decide (no < if cluster then 64 else 4)

end Sys2Proof
end

