-- ==== Sys2Proof/Safety.lean ====
section
/-! DEFINITION. What the statements speak of: states between two commands, registers that the end of any command may update, which registers a
command reaches, and the states that count as safe. -/

namespace Sys2Proof.Machine

/-- Nothing is left over from the last command: no reaction to begin, no packet to route, no ledger word in error to be read, and no held request whose
evaluation has anything new to say (R371, R406). -/
def State.quiet (s : State) : Prop :=
  s.actions = [] ∧ s.outbox = [] ∧ (∀ x ∈ s.ledgers, x.2.hurt = 0) ∧ State.evaluateAgain { s with out := [] } = { s with out := [] }

/-- A write of the register at a by master m takes effect in its command: nothing is left over, the mode serves the access, its die permits it, and nothing
makes it wait (R551, R566, R657 to R660). -/
def State.writable (s : State) (m : Master) (a : Nat) : Prop := s.quiet ∧ s.reaches m true a = true ∧ s.hasReg a = true

/-- A read of the register at a by master m is answered in its command. -/
def State.readable (s : State) (m : Master) (a : Nat) : Prop := s.quiet ∧ s.reaches m false a = true ∧ s.hasReg a = true

/-- What master m sees of a read that is not of a whole register and may not act: UR at a control port under the PCI Express strap (R550). No other master makes
such an access. -/
def State.shortRead (s : State) (m : Master) : List Output :=
  match m with
  | .cp n => if s.isI3c n then [] else [.controlAnswer m csUnsupported 0]
  | _ => []

/-- Cause k of event source e is set (R451). -/
def State.hasCause (s : State) (e k : Nat) : Prop := (s.get (EVT_SRC_A.CAUSE e)).testBit k = true

/-- Registers that the end of every command may update: PKG_ID, PKG_SERIAL, PKG_LEAD and SEAL_REMAIN show part and fuses; PKG_SBS_STATUS, PKG_NVS_CTL and
the semaphores when a holder's route is withdrawn (R562, R565); the counters and their selections (chapter 16). -/
def shared (a : Nat) : Prop :=
  a = PKG_ID.addr ∨ a = PKG_SERIAL.addr ∨ a = PKG_LEAD.addr ∨ a = SEAL_REMAIN.addr ∨ a = PKG_SBS_STATUS.addr ∨ a = PKG_NVS_CTL.addr ∨
    (∃ n, a = SEM.addr n) ∨ (∃ d n, a = PMON_DIE_SEL.addr d n ∨ a = PMON_DIE_CTR.addr d n) ∨ (∃ c n, a = PMON_CL_SEL.addr c n ∨ a = PMON_CL_CTR.addr c n)

/-- What the end of every command may change: shared registers, the count of free values, a store procedure and the staging of in-band masters whose
route is withdrawn (R499, R562, R565), the slots counted ahead of their cycles (log entry 44), the queue and the part. Everything else of t is as in s. -/
def endSame (s t : State) : Prop :=
  t = { s with regs := t.regs, freeCount := t.freeCount, dir := t.dir, staged := t.staged, slotWrite := t.slotWrite, nvsOp := t.nvsOp, stageHolder := t.stageHolder, staging := t.staging, bankWrite := t.bankWrite, slotsUsed := t.slotsUsed, pending := t.pending, chip := t.chip } ∧
  ∀ a, ¬ shared a → t.rd a = s.rd a

/-- Command c completes on s, and apart from what the end of every command may change the state after it is u. -/
def completes (c : Instr) (s u : State) : Prop := ∃ t, exec c s = .next t ∧ endSame u t ∧ t.pending = s.pending

/-- Command c completes on s in a state t of which P holds, and which differs from u in what the end of every command may change. -/
def completesWith (c : Instr) (s u : State) (P : State → Prop) : Prop := ∃ t, exec c s = .next t ∧ endSame u t ∧ t.pending = s.pending ∧ P t

/-- Every in-band holder of a semaphore or of a die's shared staging buffer has a route, so that no end of a command releases one (R499, R562). -/
def State.routed (s : State) : Prop := ∀ id ∈ s.inbandHolders, (s.routeBf s.leadDie id).isSome = true

/-- The masters that can hold a semaphore are named by 16-bit fabric IDs, and an in-band one has a route (R559, R562). -/
def State.canHold (s : State) (m : Master) : Prop :=
  m.acquires = true ∧ s.masterId m < 65536 ∧ (s.masterId m / 1024 ≠ s.rank → (s.routeBf s.leadDie (s.masterId m)).isSome = true)

/-- Registers of event sources, of the lossy queues that carry events out and of the crossings whose pulses merge: what raising a cause may update
(R451, R433, R523, Tables 17-2, 17-7, 17-9). -/
def eventReg (a : Nat) : Prop :=
  (∃ e, a = EVT_SRC_A.addr e ∨ a = EVT_SRC_B.addr e ∨ a = EVT_SRC_C.addr e) ∨ (∃ c, a = CL_XSTAT.addr c) ∨
    (∃ n, a = PKG_CP_STATE.addr n ∨ a = PKG_CP_EVOFFERED.addr n ∨ a = PKG_CP_EVDROPPED.addr n) ∨
    (∃ d, a = PMON_TQ_OFFERED.addr d ∨ a = PMON_TQ_DROPPED.addr d) ∨
    (∃ d q, a = EVT_XQ_OFFERED.addr d q ∨ a = EVT_XQ_DROPPED.addr d q ∨ a = EVT_PQ_OFFERED.addr d q ∨ a = EVT_PQ_DROPPED.addr d q)

/-- What raising causes may change: event registers, the lossy queues, open fault records, the reactions of the next cycle, packets formed and the pulses
under way. -/
def eventSame (s t : State) : Prop :=
  t = { s with regs := t.regs, queues := t.queues, records := t.records, actions := t.actions, outbox := t.outbox, pulses := t.pulses } ∧
  ∀ a, ¬ eventReg a → t.rd a = s.rd a

/-- Registers that traffic and its answers update beside the event registers: the state of lanes, ports and windows, deferred slots, the package lock, the
violation record, the bounds in force and the use of an injection. Containment, fences and everything that software configures are not among them. -/
def workReg (a : Nat) : Prop :=
  eventReg a ∨ shared a ∨ a = PKG_BOUND.addr ∨ a = PKG_LOCK.addr ∨
    (∃ d, a = DIE_EVT_INJECT.addr d ∨ a = TOLL_VIOL.addr d) ∨ (∃ d k, a = TOLL_VFIRST.addr d k ∨ a = TOLL_VLAST.addr d k) ∨
    (∃ c, a = WIN_TRACK.addr c ∨ a = PMON_CL_CTL.addr c) ∨ (∃ w, a = WIN_STATE.addr w) ∨
    (∃ l, a = LN_STATE.addr l ∨ a = LN_QUAL.addr l ∨ a = LN_EYE.addr l ∨ a = LN_TXEQ.addr l ∨ a = LN_FEC_CORR.addr l ∨ a = LN_FEC_UNC.addr l ∨ a = LN_BLK_ERR.addr l) ∨
    (∃ p, a = PORT_BOND.addr p ∨ a = PORT_LINK.addr p ∨ a = PORT_CRC_ERR.addr p ∨ a = PORT_REPLAYED.addr p ∨ a = PORT_MALFORMED.addr p ∨ a = PORT_TALLY.addr p ∨
      a = PORT_PCIE.addr p ∨ a = PORT_LOCK.addr p ∨ a = PORT_BOUND.addr p ∨ a = PORT_SLUICE.addr p ∨ a = PORT_HOLD.addr p ∨ a = PORT_WAKE.addr p)

/-- What the work in progress may change: requests, packets, their space and credits, locks, links and lanes, the crossings' queues, the words in error that an
access check has searched (R491), and the registers that show them. -/
def workSame (s t : State) : Prop :=
  t = { s with
    regs := t.regs, freeCount := t.freeCount, actions := t.actions, out := t.out, outbox := t.outbox, queues := t.queues, records := t.records, live := t.live
    ledgers := t.ledgers, ingress := t.ingress, waiting := t.waiting, outstanding := t.outstanding, nextId := t.nextId, device := t.device
    heldFailures := t.heldFailures, streams := t.streams, flowLast := t.flowLast, writeLast := t.writeLast, lockWait := t.lockWait, lockClass := t.lockClass, portLocks := t.portLocks
    planned := t.planned, bounds := t.bounds, boundsSets := t.boundsSets, postedCount := t.postedCount, requesters := t.requesters, links := t.links, vlast := t.vlast
    announceDue := t.announceDue, virtPorts := t.virtPorts, aer := t.aer, aerHeader := t.aerHeader, intxLevel := t.intxLevel, intxSent := t.intxSent, intxCount := t.intxCount
    flr := t.flr, configJobs := t.configJobs, pmeOff := t.pmeOff, lanes := t.lanes, crossings := t.crossings, pulses := t.pulses, slotsUsed := t.slotsUsed, ecc := t.ecc } ∧
  ∀ a, ¬ workReg a → t.rd a = s.rd a

/-- What a command may change that updates some registers beside what a relation allows. -/
def wider (same : State → State → Prop) (more : Nat → Prop) (s t : State) : Prop :=
  ∃ u : State, same s u ∧ t = { u with regs := t.regs } ∧ ∀ a, ¬ more a → t.rd a = u.rd a

/-- The counts of the words of crossings that were in error, and of the packets discarded there (R533, Tables 12-6 and 12-8). -/
def crossReg (a : Nat) : Prop := (∃ c k, a = CL_XERR.addr c k) ∨ ∃ d, a = DIE_XDISCARD.addr d

/-- No injection of chapter 10 is aimed at the words of crossing k of cluster c (Tables 10-20 and 12-4). -/
def State.crossClear (s : State) (c k : Nat) : Prop := s.injectMode (clusterDie c) 0x0B (16 * (c % 16) + k) = 0

/-- No injection is aimed at the blocks that the lanes of port p send. -/
def State.sendsClear (s : State) (p : Nat) : Prop := ∀ l ∈ s.portLanes p, s.crossClear (l / 8) 8

/-- PORT_DPC of the PD ports (Table 05-9). -/
def dpcReg (a : Nat) : Prop := ∃ p, a = PORT_DPC.addr p

/-- Registers that the loss of a BF link updates beside those of the work in progress: PKG_MODE, whose JOIN shows the lock to fabric time (R609). -/
def linkReg (a : Nat) : Prop :=
  workReg a ∨ a = PKG_MODE.addr

/-- What the loss of a BF link may change: beside the work in progress the parent of fabric time and the lock to it, which JOIN shows (R187, R212). -/
def linkSame (s t : State) : Prop :=
  t = { s with
    regs := t.regs, freeCount := t.freeCount, actions := t.actions, out := t.out, outbox := t.outbox, queues := t.queues, records := t.records, live := t.live
    ledgers := t.ledgers, ingress := t.ingress, waiting := t.waiting, outstanding := t.outstanding, nextId := t.nextId, device := t.device
    heldFailures := t.heldFailures, streams := t.streams, flowLast := t.flowLast, writeLast := t.writeLast, lockWait := t.lockWait, lockClass := t.lockClass, portLocks := t.portLocks
    planned := t.planned, bounds := t.bounds, boundsSets := t.boundsSets, postedCount := t.postedCount, requesters := t.requesters, links := t.links, vlast := t.vlast
    announceDue := t.announceDue, virtPorts := t.virtPorts, aer := t.aer, aerHeader := t.aerHeader, intxLevel := t.intxLevel, intxSent := t.intxSent, intxCount := t.intxCount
    flr := t.flr, configJobs := t.configJobs, pmeOff := t.pmeOff, lanes := t.lanes, crossings := t.crossings, pulses := t.pulses, slotsUsed := t.slotsUsed, ecc := t.ecc, time := t.time } ∧
  ∀ a, ¬ linkReg a → t.rd a = s.rd a

/-- Registers that fences, scope resets, mode changes and the loss of the lead update beside those of the work in progress. -/
def fenceReg (a : Nat) : Prop :=
  workReg a ∨ a = PKG_FENCE_CL.addr ∨ a = PKG_FENCE_RG.addr ∨ a = PKG_XSTAT.addr ∨ a = PKG_MODE.addr ∨ a = SEAL_CTL.addr ∨
    (∃ d, a = DIE_XSTAT.addr d ∨ a = DIE_XDISCARD.addr d) ∨ (∃ p, a = PORT_DPC.addr p)

/-- What a fence, a scope reset, a mode change or the loss of the lead may change: beside the work in progress the engines, the parent of fabric time, the virtual
switches, the mode, a partial reload, a seal procedure, the DOE instances, the measurements and the records of the store. -/
def fenceSame (s t : State) : Prop :=
  t = { s with
    regs := t.regs, freeCount := t.freeCount, actions := t.actions, out := t.out, outbox := t.outbox, queues := t.queues, records := t.records, live := t.live
    ledgers := t.ledgers, ingress := t.ingress, waiting := t.waiting, outstanding := t.outstanding, nextId := t.nextId, device := t.device
    heldFailures := t.heldFailures, streams := t.streams, flowLast := t.flowLast, writeLast := t.writeLast, lockWait := t.lockWait, lockClass := t.lockClass, portLocks := t.portLocks
    planned := t.planned, bounds := t.bounds, boundsSets := t.boundsSets, postedCount := t.postedCount, requesters := t.requesters, links := t.links, vlast := t.vlast
    announceDue := t.announceDue, virtPorts := t.virtPorts, aer := t.aer, aerHeader := t.aerHeader, intxLevel := t.intxLevel, intxSent := t.intxSent, intxCount := t.intxCount
    flr := t.flr, configJobs := t.configJobs, pmeOff := t.pmeOff, lanes := t.lanes, nvs := t.nvs, reload := t.reload, crossings := t.crossings, time := t.time, pulses := t.pulses
    slotsUsed := t.slotsUsed, modes := t.modes, engines := t.engines, dataMem := t.dataMem, ecc := t.ecc, virt := t.virt, rings := t.rings, sealRequests := t.sealRequests, mr := t.mr
    doe := t.doe, doeOrder := t.doeOrder } ∧
  ∀ a, ¬ fenceReg a → t.rd a = s.rd a

/-- Registers that the application of an image and the gating of clusters update beside those of a fence: windows, the Toll Table, the counters of a
cluster and the thresholds of temperatures. -/
def loadReg (a : Nat) : Prop :=
  fenceReg a ∨ (∃ c, windowBase (1024 * c) ≤ a ∧ a < windowBase (1024 * c) + 0x10000) ∨ (∃ d, TOLL.addr d 0 0 ≤ a ∧ a < TOLL.addr d 16384 0) ∨
    (∃ c, PMON_CL_SEL.addr c 0 ≤ a ∧ a < PMON_CL_CTR.addr c 32) ∨ (∃ d, a = TOLL_CTL.addr d ∨ a = DIE_THERM.addr d) ∨
    (∃ c, a = PMON_CL_HI.addr c)

/-- What the application of an image and the gating of clusters may change: beside what a fence may, the structure and the engines' programs. -/
def loadSame (s t : State) : Prop :=
  ∃ u : State, fenceSame s u ∧
    t = { u with regs := t.regs, loading := t.loading, loadOrder := t.loadOrder, cfg := t.cfg, program := t.program, gated := t.gated, beyond64 := t.beyond64 } ∧
    ∀ a, ¬ loadReg a → t.rd a = s.rd a

/-- Command c completes on s in a state t of which P holds, and which differs from u in what the relation allows and the end of every command may change. -/
def completesIn (same : State → State → Prop) (c : Instr) (s u : State) (P : State → Prop) : Prop :=
  ∃ t v, exec c s = .next t ∧ same u v ∧ endSame v t ∧ t.pending = s.pending ∧ P t

/-- Command c completes on s in a state t that differs from u in what raising causes and the end of every command may change. -/
def completesWithEvents (c : Instr) (s u : State) (P : State → Prop) : Prop := completesIn eventSame c s u P

/-- Every register outside those that the end of every command may update is in t as in s. -/
def regsKept (s t : State) : Prop := ∀ a, ¬ shared a → t.rd a = s.rd a

/-- Between s and t a counter field has advanced by one, or stays at its highest value. -/
def counts (s t : State) (f : FieldRef) : Prop := t.get f = min (s.get f + 1) (2 ^ f.width - 1)

/-- The structure gives port p at most 16 lanes, all of the package (Table 01-7). -/
def State.laned (s : State) (p : Nat) : Prop := s.portWidth p ≤ 16 ∧ ∀ l ∈ s.portLanes p, l < 512

/-- What a containment of PD port p by a trigger of Table 05-9 does to PORT_DPC, and when it began: a contained port only counts the trigger (R248, R250). -/
def State.dpcEntered (s : State) (p reason : Nat) : State :=
  let u := s.bump (PORT_DPC.TRIGGER_COUNT p)
  if s.get (PORT_DPC.CONTAINED p) = 1 then u
  else { ((u.set (PORT_DPC.CONTAINED p) 1).set (PORT_DPC.REASON p) reason).set (PORT_DPC.CLEAR_PENDING p) (s.portOwners p).length with
         dpcSince := tabPut (fun _ => 0) s.dpcSince p s.now }

/-- In t PD port p is out of service by its containment: LINK_STATE 6, no DL_ACTIVE, cause 3, and the trigger status of each vDSP that leads to it (R248, R249). -/
def State.dpcStands (t : State) (p : Nat) : Prop :=
  t.get (PORT_PCIE.LINK_STATE p) = 6 ∧ t.get (PORT_PCIE.DL_ACTIVE p) = 0 ∧ t.hasCause (srcPcie p) 3 ∧
    ∀ x ∈ t.vdspsOf p, (t.vport x.1 (vdspFn x.2)).dpcStatus = true

/-- What JOIN shows in s when its conditions are looked at again, where it showed n (R609, Table 14-8). Before M5 it stays; from then on TIME_STEPPED and TIME_LOCKED
follow fabric time, and the other conditions, once met, stay. -/
def State.joinFollows (s : State) (n : Nat) : Nat :=
  if n.testBit 5 = false then n
  else 32 + (if s.time.stepped = true ∨ s.isRoot = true then 16 else 0) + (if s.isRoot = true ∨ s.time.locked = true then 8 else 0) +
    (if n.testBit 2 = true ∨ s.bfPorts = [] then 4 else 0) + (if n.testBit 1 = true ∨ s.bfPorts = [] ∨ s.bindsIn = true then 2 else 0) +
    (if n.testBit 0 = true ∨ s.boundsIn = true then 1 else 0)

/-- A binding that another package must have too, and that no BIND set of the rank it names has matched (Table 14-8). -/
def State.unmatched (s : State) (h : Nat × Nat) : Prop :=
  ∃ x ∈ s.indexedBinds, h = (x.1, 0) ∧ s.isShared x.2 = true ∧ ∀ r, s.bindRank x.2 = some r → r ∉ s.modes.bindsFrom

/-- In t the handler engine of port p has the TLP x as an item of a kind, and a requester that it answers stands outstanding; a halted engine discards the item, and
at a full queue the TLP stays on the link (R70, R73, R334, Table 01-10, log entry 68). -/
def State.handed (s t : State) (p kind : Nat) (x : Tlp) (asks : Bool) : Prop :=
  let te := handlerOf p
  let e := s.engine te
  let full := e.run ≠ .halted ∧ 32 ≤ e.queue.length
  (∀ k, k ≠ te → t.engine k = s.engine k) ∧ t.ingress = s.ingress ∧ t.lockWait = s.lockWait ∧ t.out = [] ∧
    (full ∨ e.run = .halted → t.engine te = e ∧ t.dataMem = s.dataMem) ∧ (full ∨ asks = false → t.outstanding = s.outstanding) ∧
    (¬ full → asks = true → ∃ o y, t.outstanding = s.outstanding ++ [o] ∧ o.port = p ∧ o.received = s.now ∧ o.tlp = some y ∧ y.tag = x.tag ∧ y.reqId = x.reqId) ∧
    (¬ full → e.run ≠ .halted → ∃ (i : EngineItem) (r : ReplyTo), i.kind = kind ∧ i.port = s.fabricId p ∧ i.requester = x.reqId ∧ i.payload = x.data ∧
      i.header = (if s.get (PORT_PCIE.FLIT p) = 1 then x.header else Config.flitForm x.header) ∧ (r = .none ↔ asks = false) ∧
      (e.run ≠ .waiting → t.engine te = { e with queue := e.queue ++ [(i, r, s.now)] } ∧ t.dataMem = s.dataMem) ∧
      (e.run = .waiting → e.queue = [] → (t.engine te).run = .running ∧ (t.engine te).pc = BitVec.ofNat 12 kind ∧ (t.engine te).since = s.now ∧
        (t.engine te).reply = r ∧ (t.engine te).queue = []))

/-- From s to t bounds are published with a cause of Table 08-7 where the bound of a port has changed, and only there (R396). -/
def publishes (s t : State) (cause : Nat) : Prop :=
  ((∃ p ∈ s.allPorts, t.rd (PORT_BOUND.addr p) ≠ s.rd (PORT_BOUND.addr p)) → t.get PKG_BOUND.BOUND_SEQ = (s.get PKG_BOUND.BOUND_SEQ + 1) % 65536 ∧
    t.get PKG_BOUND.LAST_CAUSE = cause ∧ t.announceDue = true ∧ t.hasCause (srcPkg 5) 0) ∧
  ((∀ p ∈ s.allPorts, t.rd (PORT_BOUND.addr p) = s.rd (PORT_BOUND.addr p)) → t.get PKG_BOUND.BOUND_SEQ = s.get PKG_BOUND.BOUND_SEQ)

/-- In t the receiver of port p moves to a mask, and its next slot that is no marker slot carries the LANEMAP that asks for it (R160, R162). -/
def asksMask (t : State) (p mask : Nat) : Prop := (t.link p).mapDue = some mask

/-- In t port p trains from Lock on all its lanes, its session of s kept (R164, R186). -/
def retrains (s t : State) (p : Nat) : Prop :=
  (∀ l ∈ s.portLanes p, t.get (LN_STATE.TRAIN_STATE l) = 1) ∧ t.get (PORT_BOND.TX_MASK p) = 0 ∧ t.get (PORT_BOND.RX_MASK p) = 0 ∧
    t.get (PORT_LINK.LL_STATE p) = if s.get (PORT_LINK.LL_STATE p) = 0 ∨ s.get (PORT_LINK.LL_STATE p) = 4 then s.get (PORT_LINK.LL_STATE p) else 3

/-- From s to t the receiver of port p gives up a mask down to the lanes left, or the port retrains where too few are left (R159, R160, R164). -/
def narrows (s t : State) (p mask : Nat) : Prop :=
  (maskCount mask < s.minLanes p → retrains s t p) ∧ (s.minLanes p ≤ maskCount mask → asksMask t p mask)

/-- The adapter of lane l is frozen just when a condition of R142 fails, and FREEZE_CAUSE says which. -/
def State.adapts (t : State) (l : Nat) : Prop :=
  let cause := if t.get (LN_STATE.BLOCK_LOCK l) = 0 then 4 else if t.get (LN_QUAL.FOM l) < t.laneRec l 3 1 then 2
    else if t.get (LN_STATE.RX_SLEEP l) ≠ 0 then 3 else if (t.laneSt l).idle = true then 1 else 0
  t.get (LN_STATE.FREEZE_CAUSE l) = cause ∧ t.get (LN_STATE.ADAPT_FROZEN l) = if cause = 0 then 0 else 1

/-- An error message, message code 0x30, 0x31 or 0x33, that leaves at a port: what logging an error in an AER may send beside a command's own answer (R253). -/
def errorMessage (o : Output) : Bool :=
  match o with
  | .tlpOut _ x => x.kind == .message 0x30 || x.kind == .message 0x31 || x.kind == .message 0x33
  | _ => false

/-- Apart from error messages, what leaves the package in t is the list l. -/
def told (t : State) (l : List Output) : Prop := t.out.filter (fun o => !errorMessage o) = l

/-- PKG_ID, PKG_SERIAL, PKG_LEAD and SEAL_REMAIN show the part and the fuses (R649, R650, Tables 01-4, 02-15 and 17-4). -/
def State.identified (s : State) : Prop :=
  s.get PKG_ID.PART = (if s.chip.fb512 then 1 else 2) ∧ s.rd PKG_SERIAL.addr = s.chip.serial ∧
    s.get PKG_LEAD.DIE_PRESENT = (if s.chip.fb512 then 15 else 3) ∧ s.get PKG_ID.STEPPING = (256 * s.chip.letter + s.chip.digit) % 65536 ∧
    s.get SEAL_REMAIN.DOMAIN_ID = (16 - s.fuses.domain.length) % 256 ∧ s.get SEAL_REMAIN.RANK = (32 - s.fuses.rank.length) % 256 ∧
    s.get SEAL_REMAIN.FLOOR = (255 - s.fuses.floor) % 256 ∧ s.get SEAL_REMAIN.CEILING = (8 - s.fuses.ceiling.length) % 256 ∧
    s.get SEAL_REMAIN.PRIV = (16 - s.fuses.priv.length) % 256

/-- The canonical form of a byte memory: addresses strictly rising, no entry equal to what an unlisted address reads as. -/
def Memory.wf (t : Tab Byte) : Bool := tabWf (fun _ => 0) t

/-- What holds between commands: the registers that part and fuses fix show them, and the store keeps its canonical form. -/
def State.Inv (s : State) : Prop := s.identified ∧ Memory.wf s.nvs = true

/-- A command that a package reset or the loss of power goes with (R594, R595, R671, R675). -/
def resets (c : Instr) : Prop := c = .resetBAssert ∨ c = .aonClockLoss ∨ c = .packageResetEffect ∨ ∃ rail, c = .supplyOutOfRange rail

end Sys2Proof.Machine
end

