-- ==== Sys2Proof/Certificates/Slice0/Obligations.lean ====
section
/-! DEFINITION. The statements for the provers. Each is about one step of the block on every state that its hypotheses admit. -/

open Sys2Proof Sys2Proof.Machine

/-- O1. A step runs the command at the front of the queue. For every command c and every state s, a step of s with c put in front of its queue answers exactly
what exec answers for c on s with the rest of the queue. -/
def Obligations.FrontCommandRuns : Prop :=
  ∀ (c : Instr) (s : State), step { s with pending := c :: s.pending } = exec c s

/-- O2. On an empty queue one cycle of CK_TIME passes. On a quiet state (no reaction due, no packet to route) whose queue is empty, with no parent on the
domain tree, a step advances the count C of fabric time by one, and apart from what the end of every step may change nothing else is changed. That an
empty queue is a tick is the model's choice (log entry 3). -/
def Obligations.EmptyQueueTicks : Prop :=
  ∀ s : State, s.quiet → s.pending = [] → s.time.parent = none →
    ∃ t, step s = .next t ∧ endSame { s with out := [], cycles := s.cycles + 1 } t ∧ t.pending = []

/-- O3. The state after reset. After reset no command waits, the package stands in M1 with PREV_MODE 0 and LAST_RESET 1, every register but PKG_SERIAL and
PKG_MODE reads the word of the reset values of its field map (an address without a register reads 0), among them no bound in force at any port, a
HOLD_LIMIT of 100, the thresholds 90, 95 and 105 of a die, and lanes in transmit and receive Off with their adapters frozen; the store lists no byte,
and the invariant of every step holds. The store's contents after manufacture are the model's choice (log entries 7, 9, 14 and 15). -/
def Obligations.ResetState : Prop :=
  let s := State.reset
  s.pending = [] ∧ s.mode = 1 ∧ s.get PKG_MODE.PREV_MODE = 0 ∧ s.get PKG_MODE.LAST_RESET = 1 ∧ s.Inv ∧ s.quiet ∧ s.nvs = [] ∧ s.cycles = 0 ∧
    (∀ a, a ≠ PKG_SERIAL.addr → a ≠ PKG_MODE.addr → s.rd a = resetWord a) ∧
    (∀ p < 256, s.get (PORT_BOUND.PROMPT p) = 0x1FFFFF ∧ s.get (PORT_BOUND.STANDARD p) = 0x1FFFFF ∧ s.get (PORT_BOUND.BULK p) = 0x1FFFFF ∧ s.get (PORT_LOCK.HOLD_LIMIT p) = 100) ∧
    (∀ d < 4, s.get (DIE_THERM.T_WARN d) = 90 ∧ s.get (DIE_THERM.T_THROTTLE d) = 95 ∧ s.get (DIE_THERM.T_TRIP d) = 105) ∧
    ∀ l < 512, s.get (LN_STATE.TX_SLEEP l) = 2 ∧ s.get (LN_STATE.RX_SLEEP l) = 2 ∧ s.get (LN_STATE.ADAPT_FROZEN l) = 1 ∧ s.get (LN_STATE.TRAIN_STATE l) = 0

/-- O4. Every step keeps the identity registers true to the part and the fuses, and the store in its canonical form. From every state in which PKG_ID,
PKG_SERIAL, PKG_LEAD and SEAL_REMAIN show the part and its fuses and the store keeps its canonical form, every step answers a state of which the same
holds, of the same part: no command, no package reset and no fault writes them otherwise. -/
def Obligations.StepInvariant : Prop :=
  ∀ s t : State, s.Inv → step s = .next t → t.Inv ∧ t.chip = s.chip

/-- O5. Only a package reset or removal of power leaves M11. From every state in M11, whatever is left over and whatever waits, a step answers a state in M11,
unless its command is one that a package reset or the loss of the package's supplies goes with (RESET_B_ASSERT, AON_CLOCK_LOSS, PACKAGE_RESET_EFFECT,
SUPPLY_OUT_OF_RANGE), and then the mode is M1 or M0: R593. -/
def Obligations.FaultHaltStays : Prop :=
  ∀ s t : State, s.mode = 11 → step s = .next t → t.mode = 11 ∨ ((t.mode = 1 ∨ t.mode = 0) ∧ ∃ c rest, s.pending = c :: rest ∧ resets c)

/-- O6. Containment of a PU or BF port. For a master whose write of PORT_CONTAIN of a PU or BF port p takes effect: a trigger on a port that is not contained
sets CONTAINED with REASON 0x5 and advances TRIGGER_COUNT, and no route of any die then leads out of a BF port p; a trigger on a contained port only
advances TRIGGER_COUNT; a release of a contained port clears CONTAINED, and every lane of a BF port that is in service then stands in Lock; a release
of a port that is not contained changes nothing. Each write is answered OK. Nothing outside the work in progress and the events changes beside these
fields, but that with a BF port's link the parent of fabric time may change. -/
def Obligations.PortContainment : Prop :=
  ∀ (s : State) (m : Master) (p : Nat), p < 256 → s.writable m (PORT_CONTAIN.addr p) →
    let counted := s.bump (PORT_CONTAIN.TRIGGER_COUNT p)
    let ok := Output.controlAnswer m 0 0
    (s.get (PORT_CONTAIN.CONTAINED p) = 0 →
      completesIn linkSame (.portContainTrigger m p) s ((counted.set (PORT_CONTAIN.CONTAINED p) 1).set (PORT_CONTAIN.REASON p) 5) (fun t =>
        ok ∈ t.out ∧ (s.isBf p = true → ∀ d dest, t.routeBf d dest ≠ some p)) ∧
      completes (.portContainRelease m p) s { s with out := [ok] }) ∧
    (s.get (PORT_CONTAIN.CONTAINED p) = 1 →
      completes (.portContainTrigger m p) s { counted with out := [ok] } ∧
      completesIn workSame (.portContainRelease m p) s (s.set (PORT_CONTAIN.CONTAINED p) 0) fun t =>
        ok ∈ t.out ∧ (s.isBf p = true → s.portDark p = false → ∀ l ∈ s.portLanes p, t.get (LN_STATE.TRAIN_STATE l) = 1))

/-- O7. Downstream Port Containment of a PD port by software and by time. On a quiet state, for a PD port p below 256: a write of TRIGGER in PORT_DPC that
takes effect, on a port that is not contained, sets CONTAINED with REASON 0x5, advances TRIGGER_COUNT, sets CLEAR_PENDING to the number of partitions
that own the port, takes the link to state 0x6 without DL_ACTIVE, sets cause 3 of the port's PCI Express source, and sets DPC Trigger Status of every
vDSP behind which a function of the port is bound; on a contained port it only advances TRIGGER_COUNT. A write of RELEASE on a contained port, and the
passing of the port's timed release, clear CONTAINED, CLEAR_PENDING and those trigger statuses, take the link to state 0x0 and set cause 4; a RELEASE
on a port that is not contained changes nothing. The timed release takes place no earlier than its number of milliseconds after the containment.
Nothing outside the work in progress and the events changes beside these fields. -/
def Obligations.DpcContainment : Prop :=
  ∀ (s : State) (m : Master) (p : Nat), s.quiet → p < 256 → s.isPd p = true →
    let counted := s.bump (PORT_DPC.TRIGGER_COUNT p)
    let ok := Output.controlAnswer m 0 0
    let src := 64 * (p / 4) + 16 + p % 4
    let release := fun u : State => ((u.set (PORT_DPC.CONTAINED p) 0).set (PORT_DPC.CLEAR_PENDING p) 0)
    let status := fun (t : State) (b : Bool) => ∀ x ∈ s.vdspsOf p, (t.vport x.1 (x.2 + 1)).dpcStatus = b
    let released := fun t : State => t.get (PORT_PCIE.LINK_STATE p) = 0 ∧ t.hasCause src 4 ∧ status t false
    (s.writable m (PORT_DPC.addr p) →
      (s.get (PORT_DPC.CONTAINED p) = 0 →
        completesIn workSame (.dpcTriggerWrite m p) s
          { ((counted.set (PORT_DPC.CONTAINED p) 1).set (PORT_DPC.REASON p) 5).set (PORT_DPC.CLEAR_PENDING p) (s.portOwners p).length with
            dpcSince := tabPut (fun _ => 0) s.dpcSince p s.now }
          (fun t => ok ∈ t.out ∧ t.get (PORT_PCIE.LINK_STATE p) = 6 ∧ t.get (PORT_PCIE.DL_ACTIVE p) = 0 ∧ t.hasCause src 3 ∧ status t true) ∧
        completes (.dpcReleaseWrite m p) s { s with out := [ok] }) ∧
      (s.get (PORT_DPC.CONTAINED p) = 1 →
        completes (.dpcTriggerWrite m p) s { counted with out := [ok] } ∧
        completesIn workSame (.dpcReleaseWrite m p) s (release s) fun t => ok ∈ t.out ∧ released t)) ∧
    (s.get (PORT_DPC.CONTAINED p) = 1 → s.portRec p 68 2 ≠ 0 →
      completesIn workSame (.dpcTimedRelease p) s (release (s.waitUntil (tabGet (fun _ => 0) s.dpcSince p + s.portRec p 68 2 * 16000000))) released)

/-- O8. Containment of a window, and the clearing of its escalation. For a master whose write of CL_WCON_CTL of a window's cluster takes effect: WINDOW takes
the window's number in its cluster; a trigger advances TRIGGER_COUNT and contains the window, after which no prefetch stream of the window is left; a
release ends its containment; of no other window does containment change, and nothing outside the work in progress and the events changes beside these
fields. A trigger on a contained window and a release of one that is not contained change WINDOW and the count alone. Where the master's write of
WIN_STATE takes effect, ESCALATED that is set is cleared and LOSS_SINCE returns to zero; where it is clear nothing changes. -/
def Obligations.WindowContainment : Prop :=
  ∀ (s : State) (m : Master) (w : Nat), w < 65536 →
    let c := w / 1024
    let chosen := s.set (CL_WCON_CTL.WINDOW c) (w % 1024)
    let counted := chosen.bump (CL_WCON_CTL.TRIGGER_COUNT c)
    let ok := Output.controlAnswer m 0 0
    let others := fun t : State => ∀ v < 65536, v ≠ w → t.windowContained v = s.windowContained v
    (s.writable m (CL_WCON_CTL.addr c) →
      (s.windowContained w = false →
        completesIn workSame (.windowContainTrigger m w) s (counted.setBit (CL_WCON_MAP.CONTAINED c (w % 1024 / 64)) (w % 64) true) (fun t =>
          ok ∈ t.out ∧ t.windowContained w = true ∧ (∀ x ∈ t.streams, x.window ≠ w) ∧ others t) ∧
        completes (.windowContainRelease m w) s { chosen with out := [ok] }) ∧
      (s.windowContained w = true →
        completes (.windowContainTrigger m w) s { counted with out := [ok] } ∧
        completesIn workSame (.windowContainRelease m w) s (chosen.setBit (CL_WCON_MAP.CONTAINED c (w % 1024 / 64)) (w % 64) false) fun t =>
          ok ∈ t.out ∧ t.windowContained w = false ∧ others t)) ∧
    (s.writable m (WIN_STATE.addr w) →
      (s.get (WIN_STATE.ESCALATED w) = 1 →
        completes (.escalatedClear m w) s { (s.set (WIN_STATE.ESCALATED w) 0).set (WIN_STATE.LOSS_SINCE w) 0 with out := [ok] }) ∧
      (s.get (WIN_STATE.ESCALATED w) = 0 → completes (.escalatedClear m w) s { s with out := [ok] }))

/-- O9. Cluster reset, region reset and the release of fenced clusters. For a master whose write of PKG_SCOPE_RESET takes effect: where it has the privilege
(and is not the lead), the mode is one of M4 to M10 and cluster c exists and is not held, CLUSTER_RESET holds the cluster (both of an x16 pair) in
reset and advances RESETS; where region g exists, is not fenced and is not being reloaded, REGION_RESET does so for every cluster of the region; the
ports of a cluster newly held are then down and its crossings 0 to 13 in reset. Otherwise only REFUSED advances. Where the master's write of
PKG_FENCE_CL takes effect, CLUSTER_FENCE_RELEASE ends the hold of exactly the clusters that the mask names (with the other of an x16 pair) outside
fenced regions, and every engine of a released cluster that is not halted runs its START handler at word 0. No region's fence and no mode changes. -/
def Obligations.ScopeResets : Prop :=
  ∀ (s : State) (m : Master) (c g : Nat) (mask : Word), c < 64 → g < 16 →
    let ok := Output.controlAnswer m 0 0
    let may := s.privileged m = true ∧ m ≠ .lead ∧ 4 ≤ s.mode ∧ s.mode ≤ 10
    let rest := fun t : State => ok ∈ t.out ∧ t.rd PKG_FENCE_RG.addr = s.rd PKG_FENCE_RG.addr ∧ t.mode = s.mode
    let holds := fun (i : Instr) (cs : List Nat) => completesIn fenceSame i s (s.bump PKG_SCOPE_RESET.RESETS) fun t =>
      rest t ∧ (∀ k < 64, t.clusterHeld k = true ↔ s.clusterHeld k = true ∨ ∃ x ∈ cs, k ∈ s.pairOf x) ∧
      ∀ k < 64, s.clusterHeld k = false → t.clusterHeld k = true →
        (∀ p, p / 4 = k → s.isPort p = true → t.get (PORT_LINK.LL_STATE p) = 0 ∧ t.get (PORT_PCIE.DL_ACTIVE p) = 0) ∧
        ∀ x < 14, (t.crossing (16 * k + x)).nearStopped = false → (t.crossing (16 * k + x)).crossReset = true
    let refused := fun i : Instr => completes i s { s.bump PKG_SCOPE_RESET.REFUSED with out := [ok] }
    (s.writable m PKG_SCOPE_RESET.addr →
      (may → c < s.numClusters → s.clusterHeld c = false → holds (.clusterReset m c) [c]) ∧
      (¬ (may ∧ c < s.numClusters ∧ s.clusterHeld c = false) → refused (.clusterReset m c)) ∧
      (may → g < s.numRegions → s.regionFenced g = false → (∀ r, s.reload = some r → r.region ≠ g) →
        holds (.regionReset m g) [4 * g, 4 * g + 1, 4 * g + 2, 4 * g + 3]) ∧
      (¬ (may ∧ g < s.numRegions ∧ s.regionFenced g = false ∧ ∀ r, s.reload = some r → r.region ≠ g) → refused (.regionReset m g))) ∧
    (s.writable m PKG_FENCE_CL.addr →
      let named := fun k => ∃ x < s.numClusters, mask.getLsbD x = true ∧ s.regionFenced (x / 4) = false ∧ k ∈ s.pairOf x
      completesIn fenceSame (.clusterFenceRelease m mask) s s fun t =>
        rest t ∧ (∀ k < 64, t.clusterHeld k = true ↔ s.clusterHeld k = true ∧ ¬ named k) ∧
        ∀ te < 512, s.clusterHeld (te / 8) = true → named (te / 8) → (s.engine te).run ≠ .halted → (t.engine te).run = .running ∧ (t.engine te).pc = 0)

/-- O10. Fault injection is armed, refused and aborted; a fault record closes. For a master whose write of DIE_EVT_INJECT of a die (block 0 to 3) or of
PKG_EVT_INJECT takes effect: the write's MODE, INSTANCE, CHECKER and N are held. INJECT_GO without ABORT arms the injection, REMAIN taking N or 1 for
N = 0, when REMAIN is 0, MODE is not 0 and CHECKER and INSTANCE name a checker of the block; MODE 0x2 outside M10 instead advances REFUSED
(saturating) and sets cause 0 of package source 6, and in every other case REMAIN and REFUSED keep their values. INJECT_ABORT, also beside GO, sets
REMAIN to 0. Nothing else changes but the events. On a quiet state with an open record of a scope: its close takes place no earlier than 1 µs after it
opened; no record of the scope is open after it; its 64 bytes of Table 10-9 join the end of the fault queue of the source's die where that has room;
and a record with a fence or halt reaction also stands at the next block of the persistent record area. The bytes hold source, causes, reactions,
flags, merge count, the times of opening and closing and the merge map in their places, and end with the CRC of the first 60. Nothing else changes but
the events. With no open record of the scope nothing changes. -/
def Obligations.InjectionAndRecords : Prop :=
  (∀ (s : State) (m : Master) (block : Nat) (v : Word), s.writable m (injectAddr block) →
     let a := injectAddr block
     let ok := Output.controlAnswer m 0 0
     let mode := getBits v 6 2
     let left := getBits (s.rd a) 8 16
     let refused := getBits (s.rd a) 2 4
     let known := s.checkerKnown (if block < 4 then some block else none) (getBits v 40 8) (getBits v 24 16)
     let holds := fun (c : Instr) (remain ref : Nat) (P : State → Prop) => ∃ w : Word,
       getBits w 6 2 = mode ∧ getBits w 24 16 = getBits v 24 16 ∧ getBits w 40 8 = getBits v 40 8 ∧ getBits w 48 16 = getBits v 48 16 ∧
       getBits w 8 16 = remain ∧ getBits w 2 4 = ref ∧ completesIn eventSame c s { s.wr a w with out := [ok] } P
     holds (.injectAbort m block v) 0 refused (fun _ => True) ∧
     (v.getLsbD 1 = true → holds (.injectGo m block v) 0 refused fun _ => True) ∧
     (v.getLsbD 1 = false → left ≠ 0 ∨ mode = 0 ∨ known = false → holds (.injectGo m block v) left refused fun _ => True) ∧
     (v.getLsbD 1 = false → left = 0 → mode ≠ 0 → known = true →
       (mode = 2 → s.mode ≠ 10 → holds (.injectGo m block v) 0 (min (refused + 1) 15) fun t => t.hasCause (4544 + 6) 0) ∧
       (mode ≠ 2 ∨ s.mode = 10 → holds (.injectGo m block v) (max 1 (getBits v 48 16)) refused fun _ => True))) ∧
  ∀ (s : State) (scope : Nat), s.quiet →
    (s.openRecord scope = none → completes (.faultRecordClose scope) s { s with out := [] }) ∧
    ∀ r, s.openRecord scope = some r →
      let s' := s.waitUntil (r.opened + 16000)
      let copied := r.react.testBit 4 || r.react.testBit 5 || r.react.testBit 6
      let bytes := faultBytes r s'.now copied
      let q := QueueId.fault (s.sourceDie r.source)
      completesIn eventSame (.faultRecordClose scope) s { s' with
          out := []
          nvs := if copied then putBytes s.nvs (0x07000000 + 64 * s.dir.recordNext) (bytes ++ List.replicate (64 - bytes.length) 0) else s.nvs }
        (fun t => t.openRecord scope = none ∧
          ((s.queue q).items.length < 1024 → (t.queue q).items = (s.queue q).items ++ [.entry (wordsOf 8 bytes)])) ∧
      (r.detail.length = 16 → r.opened < 2 ^ 64 →
        bytes.length = 64 ∧ leNat (bytes.take 2) = r.source % 2 ^ 16 ∧ leNat ((bytes.drop 2).take 2) = r.cause % 2 ^ 16 ∧
        leNat ((bytes.drop 4).take 1) = r.react % 256 ∧ leNat ((bytes.drop 5).take 1) = (if r.injected then 1 else 0) + (if copied then 2 else 0) ∧
        leNat ((bytes.drop 6).take 2) = r.mergeCount % 2 ^ 16 ∧ leNat ((bytes.drop 8).take 8) = r.opened ∧ leNat ((bytes.drop 16).take 8) = s'.now ∧
        leNat ((bytes.drop 24).take 16) = r.mergeMap % 2 ^ 128 ∧ (bytes.drop 40).take 16 = r.detail ∧
        leNat (bytes.drop 60) = crc32c (bytes.take 60) % 2 ^ 32)

/-- O11. Pop windows, the event ring of a host, and the notices of a control port. For a master whose read of word 0 of a pop window (of the fault,
bittern, surrogate or keepers' queue or the telemetry stream of a die, the event queue of the partition of a PU port, or the event queue of a control
port) is answered: the head item leaves the queue, a pending count takes the slot that frees as a weir mark, the answer is word 0 of the item, and
every word of the window's latch holds the item's word. When the queue is empty, and at a partition's window while its event ring is in use, the
answer is 0x7FFFFFFFFFFFFFFF and nothing changes. No other register outside the events changes, and nothing else but the notice of a control port. A
read of a part of the word, which only a control port under the PCI Express strap can make, is answered UR and changes nothing. That the latch keeps
its words then is the model's choice (log entry 39). On a quiet state: EVENT_RING_WRITE at a PU port in L0 whose ring is enabled and not full, whose
cluster admits requests and whose partition's queue holds an entry, takes the oldest entry from the queue and puts a memory write of its 32 bytes to
BASE + 32 × TAIL on the link, TAIL advances modulo the ring's size, and vector 1 of the vUSP is raised if the host has enabled it, no sooner than 1 µs
after the last; on a disabled or full ring, or with an empty queue, nothing changes. EVENT_RING_HEAD_WRITE sets HEAD and raises vector 1 again while
an enabled ring holds an entry not consumed. EVENT_RING_DISABLE of an enabled ring clears ENABLE, HEAD and TAIL and leaves the queue. CP_EVENT_NOTIFY
of a control port whose event queue holds an entry notes the notice, no sooner than 1 µs (100 µs on I3C) after the last, and interrupts its controller
if the link is up (stated for times below 2^63); with an empty queue nothing changes. That a ring write is placed at once is the model's choice (log
entry 40). -/
def Obligations.QueuesForSoftware : Prop :=
  (∀ (s : State) (m : Master) (w : PopWindow), s.readable m (w.word 0) →
     (match w with
       | .fault d => d < s.numDies | .bittern d => d < s.numDies | .surrogate d => d < s.numDies | .keepers d => d < s.numDies | .telemetry d => d < s.numDies
       | .partition p => p < s.numPorts ∧ s.isPu p = true | .controlPort n => n < 2) →
     let q := s.queue w.queue
     let inRing := ∃ p, w = .partition p ∧ (s.ring p).enable = true
     (∀ x, x ≠ .whole → completes (.popWindowRead ⟨m, x⟩ w) s { s with out := s.shortRead m }) ∧
     (q.items = [] ∨ inRing → completes (.popWindowRead ⟨m, .whole⟩ w) s { s with out := [.controlAnswer m 0 0x7FFFFFFFFFFFFFFF] }) ∧
     ∀ i rest, q.items = i :: rest → ¬ inRing →
       let words := i.words w.queue.kinded
       ∃ u : State, u = { s with regs := u.regs, ports := u.ports, out := u.out } ∧
         (∀ a, (∀ k < w.size, a ≠ w.word k) → u.rd a = s.rd a) ∧ (∀ k < w.size, u.rd (w.word k) = BitVec.ofNat 64 (words.getD k 0)) ∧
         ((∀ n, w ≠ .controlPort n) → u.ports = s.ports) ∧
         completesIn eventSame (.popWindowRead ⟨m, .whole⟩ w) s u fun t =>
           .controlAnswer m 0 (words.getD 0 0) ∈ t.out ∧
           (t.queue w.queue).items = rest ++ (if q.pend = 0 then [] else [.mark (min q.pend 0xFFFFFFFF) q.pendFirst q.pendLast])) ∧
  ∀ (s : State) (p n head : Nat), s.quiet → p < 256 → n < 2 →
    let r := s.ring p
    let raises := fun (u : State) (r' : Ring) (out : List Output) =>
      if (s.vport p 0).vectors.testBit 1 then
        let u' := match r'.raised with | some x => u.waitUntil (x + 16000) | none => u
        ({ u' with out := out ++ [.hostInterrupt p 0 1], rings := tabPut (fun _ => {}) s.rings p { r' with raised := some u'.now } } : State)
      else { u with out := out, rings := tabPut (fun _ => {}) s.rings p r' }
    let size := if 6 ≤ r.logSize ∧ r.logSize ≤ 16 then 2 ^ r.logSize else 64
    let q := s.queue (.partition p)
    (s.isPu p = true →
      (∀ i rest, q.items = i :: rest → r.enable = true → s.get (PORT_PCIE.LINK_STATE p) = 3 → s.get (PORT_CONTAIN.CONTAINED p) = 0 → s.gateOpen p = true →
        (r.tail + 1) % size ≠ r.head % size →
        completesIn eventSame (.eventRingWrite p) s
          (raises s { r with tail := (r.tail + 1) % size } [.tlpOut p ({
            kind := .memWrite, addr := r.base + 32 * r.tail, len := 32, reqId := 256 * (s.virtGet p 0 6 % 256)
            data := (List.range 4).flatMap fun k => leBytes 8 ((i.words true).getD k 0) } : Tlp)])
          fun t => (t.queue (.partition p)).items = rest ++ (if q.pend = 0 then [] else [.mark (min q.pend 0xFFFFFFFF) q.pendFirst q.pendLast])) ∧
      (q.items = [] ∨ r.enable = false ∨ (r.tail + 1) % size = r.head % size → completes (.eventRingWrite p) s { s with out := [] }) ∧
      (let r' := { r with head := head % 65536 }
       completes (.eventRingHeadWrite p head) s (if r.enable = true ∧ head % 65536 % size ≠ r.tail then raises s r' []
         else { s with out := [], rings := tabPut (fun _ => {}) s.rings p r' })) ∧
      (r.enable = true → completes (.eventRingDisable p) s
        { s with out := [], rings := tabPut (fun _ => {}) s.rings p { r with enable := false, head := 0, tail := 0 } })) ∧
    ((s.queue (.controlPort n)).items ≠ [] → (∀ x, (s.cport n).notified = some x → x < 2 ^ 63) →
      let gap := if s.isI3c n then 1600000 else 16000
      let s' := match (s.cport n).notified with | some x => s.waitUntil (x + gap) | none => s
      completes (.cpEventNotify n) s { s' with
        out := if s.get (PKG_CP_STATE.LINK_UP n) = 1 then [.cpInterrupt n (if s.isI3c n then 1 else 0)] else []
        ports := tabPut (fun _ => {}) s.ports n { s.cport n with notified := some s'.now } }) ∧
    ((s.queue (.controlPort n)).items = [] → completes (.cpEventNotify n) s { s with out := [] })

/-- O12. Staging words of an entry of the Toll Table. For a master whose write of word w (0 to 2) of entry i of die d takes effect: a control port, a
keeper, the lead or the debug master has the word in its own staging buffer for the die, tagged with i, beside the other words it had staged; an
in-band master has it in the buffer that in-band masters share when the buffer is free or its own, and holds the buffer then (stated for a master
whose rank has a route). While another in-band master holds the buffer the word is not staged, REFUSED advances and the answer is MSTAT 0x1. The table
does not change, and nothing else does. The staging timeout of a held buffer frees it, no earlier than 10 ms after its last word; with a free buffer
it changes nothing. -/
def Obligations.StagedWords : Prop :=
  ∀ (s : State) (m : Master) (d i w : Nat) (v : Word), d < 4 → i < 16384 → w < 3 →
    let x := s.staged' d m
    let staged : TollStaging := match w with
      | 0 => { x with word0 := some (i, v.toNat) } | 1 => { x with word1 := some (i, v.toNat) } | _ => { x with word2 := some (i, v.toNat) }
    let holds := fun n : Nat => ({ s with stageHolder := tabPut (fun _ => 0) s.stageHolder d n } : State)
    (s.writable m (TOLL.addr d i w) →
      ((∀ id priv, m ≠ .inband id priv) →
        completesWith (.tollStageWrite m d i w v) s (State.setStaged { s with out := [.controlAnswer m 0 0] } d m staged) fun t => t.staged' d m = staged) ∧
      ∀ id priv, m = .inband id priv →
        (s.stageHeldBy d = 0 ∨ s.stageHeldBy d = id + 1 →
          completesWith (.tollStageWrite m d i w v) s
            (State.setStaged { holds (id + 1) with out := [.controlAnswer m 0 0], stagedAt := tabPut (fun _ => 0) s.stagedAt d s.now } d m staged) fun t =>
            (s.routeBf s.leadDie id).isSome = true → t.staged' d m = staged ∧ t.stageHeldBy d = id + 1) ∧
        (s.stageHeldBy d ≠ 0 → s.stageHeldBy d ≠ id + 1 →
          completes (.tollStageWrite m d i w v) s { s.bump (TOLL_CTL.REFUSED d) with out := [.controlAnswer m 1 0] })) ∧
    (s.quiet →
      (s.stageHeldBy d ≠ 0 →
        completesWith (.tollStagingTimeout d) s { s.waitUntil (tabGet (fun _ => 0) s.stagedAt d + 160000000) with out := [] } fun t =>
          t.stageHeldBy d = 0 ∧ t.staged' d (.inband 0 false) = {}) ∧
      (s.stageHeldBy d = 0 → completes (.tollStagingTimeout d) s { s with out := [] }))

/-- O13. Committing an entry of the Toll Table. For a master whose write of word 3 of entry i of die d takes effect (an in-band master holding the
shared buffer): the committed entry is formed from the words that the master has staged for i, the word 3 written, and the present content for any
word not staged, and all four of its words are zero where VALID is 0; the master's staging buffer is empty afterwards. A commit that is not refused,
while no access of the next epoch value is live and no commit of the die waits, puts the entry in force, advances the die's epoch by one modulo 256,
advances LOCKED_COUNT where it locks the entry, sets cause 0 of die source 11 and changes no other entry. One that must wait leaves the entry in force
and joins the end of the waiting commits, with COMMIT_WAIT 1, and takes effect in the same way when its epoch value has no live access, or is refused
then where its entry has been locked or the mode is M11. A refused one (the entry in force locked, a valid entry that breaks Table 11-1, or a mode
before M4) only advances REFUSED. Nothing outside the work in progress and the check bits of the entry's words changes beside these. -/
def Obligations.TollCommits : Prop :=
  ∀ (s : State) (m : Master) (d i : Nat) (v : Word), d < 4 → i < 16384 →
    let x := s.staged' d m
    let word := fun (o : Option (Nat × Nat)) (k : Nat) => match o with
      | some (j, n) => if j = i then n else (s.tollWord d i k).toNat
      | none => (s.tollWord d i k).toNat
    let asked := [word x.word0 0, word x.word1 1, word x.word2 2, v.toNat]
    let e := tollEntry (BitVec.ofNat 64 (word x.word0 0)) (BitVec.ofNat 64 (word x.word1 1)) (BitVec.ofNat 64 (word x.word2 2)) v
    let words := if v.getLsbD 48 then asked else [0, 0, 0, 0]
    let ok := Output.controlAnswer m 0 0
    let empty := fun t : State => t.staged' d m = {}
    let waits := s.liveAt d ((s.epoch d + 1) % 256) ≠ 0 ∨ ∃ c ∈ s.commits, c.die = d
    let refused := (s.tollWord d i 3).getLsbD 49 = true ∨ (v.getLsbD 48 = true ∧ e.inRange = false) ∨ s.mode < 4
    -- the state after entry j takes words, and what the commit's taking effect leaves
    let takes := fun (u : State) (j : Nat) (ws : List Nat) =>
      let u' := (List.range 4).foldl (fun (u : State) k => u.wr (TOLL.addr d j k) (BitVec.ofNat 64 (ws.getD k 0))) u
      let u' := if (BitVec.ofNat 64 (ws.getD 3 0)).getLsbD 49 && !(u.tollWord d j 3).getLsbD 49 then u'.bump (TOLL_CTL.LOCKED_COUNT d) else u'
      u'.set (TOLL_CTL.EPOCH d) ((s.epoch d + 1) % 256)
    let commits := fun (c : Instr) (u : State) (j : Nat) (P : State → Prop) => completesIn workSame c s u fun t =>
      (∀ a, (∀ k < 4, a ≠ TOLL.addr d j k) → t.wordState a = s.wordState a) ∧
      (s.injectMode d 0x0A 0 = 0 → ∀ k < 4, t.wordState (TOLL.addr d j k) = 0) ∧ t.hasCause (4096 + 112 * d + 11) 0 ∧ P t
    (s.writable m (TOLL.addr d i 3) → (∀ id priv, m = .inband id priv → s.stageHeldBy d = id + 1) →
      (¬ refused → ¬ waits → commits (.tollCommit m d i v) (takes s i words) i fun t =>
        ok ∈ t.out ∧ empty t ∧ t.epoch d = (s.epoch d + 1) % 256 ∧ ∀ j < 16384, ∀ k < 4,
          t.tollWord d j k = if j = i then BitVec.ofNat 64 (words.getD k 0) else s.tollWord d j k) ∧
      (¬ refused → waits → completesWith (.tollCommit m d i v) s
        (State.set { s with out := [ok], commits := s.commits ++ [{ die := d, entry := i, words := words }] } (TOLL_CTL.COMMIT_WAIT d) 1) empty) ∧
      (refused → completesWith (.tollCommit m d i v) s { s.bump (TOLL_CTL.REFUSED d) with out := [ok] } empty)) ∧
    (s.quiet → d < s.numDies → ∀ pre c rest, s.commits = pre ++ c :: rest → c.die = d → (∀ y ∈ pre, y.die ≠ d) → c.entry < 16384 →
      (s.liveAt d ((s.epoch d + 1) % 256) ≠ 0 → completes (.tollCommitRelease d) s { s with out := [] }) ∧
      let late := (s.tollWord d c.entry 3).getLsbD 49 = true ∨ s.mode = 11
      let left := fun u : State => if ∃ y ∈ rest, y.die = d then u else u.set (TOLL_CTL.COMMIT_WAIT d) 0
      (s.liveAt d ((s.epoch d + 1) % 256) = 0 → late → completes (.tollCommitRelease d) s (left { s.bump (TOLL_CTL.REFUSED d) with out := [], commits := pre ++ rest })) ∧
      (s.liveAt d ((s.epoch d + 1) % 256) = 0 → ¬ late →
        commits (.tollCommitRelease d) (left (takes { s with commits := pre ++ rest } c.entry c.words)) c.entry fun t =>
          t.epoch d = (s.epoch d + 1) % 256 ∧ ∀ k < 4, t.tollWord d c.entry k = BitVec.ofNat 64 (c.words.getD k 0)))

/-- O14. The rule-epoch fence, and the latch of the violation record. For a master whose write of TOLL_FENCE takes effect, GO sets BUSY, advances
FENCE_COUNT, and puts the epoch of every healthy die in its snapshot; the time of the start is noted when no fence was running, and nothing else
changes. On a quiet state a running fence completes when no live access of a healthy die carries a stamp older than its snapshot: BUSY clears, LAST_US
is the duration in microseconds rounded up, and cause 1 of die source 11 sets on every healthy die; while some such access is live nothing changes.
For a master whose read of word 0 of TOLL_VLAST of a die is answered, the answer is word 0 of the latest violation record of the die, words 1 to 3
hold its other words, and nothing else changes; a read of a part of the word is answered UR at a control port under the PCI Express strap, the only
master that can make one, and changes nothing. -/
def Obligations.RuleEpochFence : Prop :=
  ∀ (s : State) (m : Master) (d : Nat),
    let snap := fun (u : State) (k : Nat) => u.set (match k with
      | 0 => TOLL_FENCE.SNAP_D0 | 1 => TOLL_FENCE.SNAP_D1 | 2 => TOLL_FENCE.SNAP_D2 | _ => TOLL_FENCE.SNAP_D3) (s.epoch k)
    let age := fun k e => (s.epoch k + 256 - e) % 256
    let snapped := fun k => match k with
      | 0 => s.get TOLL_FENCE.SNAP_D0 | 1 => s.get TOLL_FENCE.SNAP_D1 | 2 => s.get TOLL_FENCE.SNAP_D2 | _ => s.get TOLL_FENCE.SNAP_D3
    let old := ∃ k ∈ s.healthyDies, ∃ e < 256, age k (snapped k) < age k e ∧ s.liveAt k e ≠ 0
    (s.writable m TOLL_FENCE.addr →
      completes (.fenceGo m) s { s.healthyDies.foldl snap ((s.bump TOLL_FENCE.FENCE_COUNT).set TOLL_FENCE.BUSY 1) with
        out := [.controlAnswer m 0 0], fenceStart := if s.get TOLL_FENCE.BUSY = 1 then s.fenceStart else s.now }) ∧
    (s.quiet → s.get TOLL_FENCE.BUSY = 1 →
      (old → completes .fenceComplete s { s with out := [] }) ∧
      (¬ old → completesWithEvents .fenceComplete s (State.set (State.set { s with out := [] } TOLL_FENCE.BUSY 0) TOLL_FENCE.LAST_US
          (min ((s.now - s.fenceStart + 15999) / 16000) (2 ^ 22 - 1))) fun t => ∀ k ∈ s.healthyDies, t.hasCause (4096 + 112 * k + 11) 1)) ∧
    (d < s.numDies → s.readable m (TOLL_VLAST.addr d 0) →
      let words := tabGet (fun _ => ([] : List Nat)) s.vlast d
      (∀ x, x ≠ .whole → completes (.violationRecordRead ⟨m, x⟩ d) s { s with out := s.shortRead m }) ∧
      completes (.violationRecordRead ⟨m, .whole⟩ d) s { (List.range 3).foldl (fun (u : State) k => u.wr (TOLL_VLAST.addr d (k + 1)) (BitVec.ofNat 64 (words.getD (k + 1) 0))) s
        with out := [.controlAnswer m 0 (words.getD 0 0)] })

/-- O15. Reading acquires a free semaphore and only its holder's write releases it. On a quiet state whose in-band holders all have a route, for a
control port m of this or another package whose access reaches SEM number no below 64 with nothing waiting on the towpath: a read of a free semaphore
makes m its holder, advances ACQUIRES (saturating) and answers HELD 1, YOURS 1 and HOLDER m; a read by its holder answers the same and changes
nothing; a read of one held by another answers HELD 1, YOURS 0 and the holder and changes nothing. A read of a part of the register, which only a
control port under the PCI Express strap can make, is answered UR and acquires nothing. A write by the holder releases it (HELD and HOLDER 0) whatever
the value, and a write by any other master only advances FOREIGN_WRITES (saturating). No other semaphore changes. -/
def Obligations.SemaphoreRules : Prop :=
  ∀ (s : State) (m : Master) (no : Nat) (v : Word), s.quiet → s.routed → no < 64 → s.canHold m →
    let id := s.masterId m
    let others := fun t : State => ∀ n < 64, n ≠ no → t.rd (SEM.addr n) = s.rd (SEM.addr n)
    let answers := fun (t : State) (yours holder : Nat) => ∃ w : Nat, t.out = [.controlAnswer m 0 w] ∧
      w / 2 ^ 63 = 1 ∧ w / 2 ^ 62 % 2 = yours ∧ w % 2 ^ 16 = holder
    (s.reaches m false (SEM.addr no) = true →
      (∀ x, x ≠ .whole → completes (.semaphoreRead ⟨m, x⟩ no) s { s with out := s.shortRead m }) ∧
      (s.get (SEM.HELD no) = 0 → s.get (SEM.YOURS no) = 0 →
        ∃ t, exec (.semaphoreRead ⟨m, .whole⟩ no) s = .next t ∧ t.get (SEM.HELD no) = 1 ∧ t.get (SEM.HOLDER no) = id ∧
          t.get (SEM.ACQUIRES no) = min (s.get (SEM.ACQUIRES no) + 1) 0xFFFF ∧ t.get (SEM.FOREIGN_WRITES no) = s.get (SEM.FOREIGN_WRITES no) ∧
          answers t 1 id ∧ others t) ∧
      (s.get (SEM.HELD no) = 1 → s.get (SEM.YOURS no) = 0 → s.get (SEM.HOLDER no) = id →
        ∃ t, exec (.semaphoreRead ⟨m, .whole⟩ no) s = .next t ∧ t.rd (SEM.addr no) = s.rd (SEM.addr no) ∧ answers t 1 id ∧ others t) ∧
      (s.get (SEM.HELD no) = 1 → s.get (SEM.YOURS no) = 0 → s.get (SEM.HOLDER no) ≠ id →
        ∃ t, exec (.semaphoreRead ⟨m, .whole⟩ no) s = .next t ∧ t.rd (SEM.addr no) = s.rd (SEM.addr no) ∧ answers t 0 (s.get (SEM.HOLDER no)) ∧ others t)) ∧
    (s.reaches m true (SEM.addr no) = true →
      (s.get (SEM.HELD no) = 1 → s.get (SEM.HOLDER no) = id →
        ∃ t, exec (.semaphoreWrite m no v) s = .next t ∧ t.get (SEM.HELD no) = 0 ∧ t.get (SEM.HOLDER no) = 0 ∧
          t.get (SEM.ACQUIRES no) = s.get (SEM.ACQUIRES no) ∧ t.get (SEM.FOREIGN_WRITES no) = s.get (SEM.FOREIGN_WRITES no) ∧ others t) ∧
      (s.get (SEM.HELD no) = 0 ∨ s.get (SEM.HOLDER no) ≠ id →
        ∃ t, exec (.semaphoreWrite m no v) s = .next t ∧ t.get (SEM.HELD no) = s.get (SEM.HELD no) ∧ t.get (SEM.HOLDER no) = s.get (SEM.HOLDER no) ∧
          t.get (SEM.ACQUIRES no) = s.get (SEM.ACQUIRES no) ∧ t.get (SEM.FOREIGN_WRITES no) = min (s.get (SEM.FOREIGN_WRITES no) + 1) 0xFF ∧ others t))

/-- O16. A write of a register acts on each field by its access code. On a quiet state, for a master whose write reaches the register with nothing
waiting on the towpath, and a register at a that is WIN_BASE, WIN_LIMIT, WIN_REMOTE or WIN_ATTR of a window, EVT_SRC_A of a source or
PKG_CPn_IBA_DATA: after REGISTER_WRITE of v every RW field of its map holds v's bits, every RO and RC field is as it was, and every RW1C field has
lost the bits that v sets; the answer is OK, every register outside a that is neither a counter nor otherwise shared reads as before, and nothing else
changes. A write of a part of a register by a control port under the PCI Express strap is dropped, BAD_ACCESS advancing; no other master makes one. A
write that its die's check refuses is answered DENIED and leaves the register as it was. For any master whose write of a word of an entry of the Toll
Table takes effect, TOLL_STAGE_WRITE completes with an answer of status 0 or 1 and changes no register but TOLL_CTL and the shared ones: the word is
staged, not written. On a quiet state TOLL_STAGING_TIMEOUT of a die completes, with its shared buffer free and no register changed but the shared
ones. -/
def Obligations.RegisterWrites : Prop :=
  (∀ (s : State) (m : Master) (d i w : Nat) (v : Word), d < 4 → i < 16384 → w < 3 →
    (s.writable m (TOLL.addr d i w) → ∃ t, exec (.tollStageWrite m d i w v) s = .next t ∧ t.pending = s.pending ∧ (∃ code < 2, t.out = [.controlAnswer m code 0]) ∧
      ∀ b, ¬ shared b → b ≠ TOLL_CTL.addr d → t.rd b = s.rd b) ∧
    (s.quiet → ∃ t, exec (.tollStagingTimeout d) s = .next t ∧ t.pending = s.pending ∧ t.out = [] ∧ t.stageHeldBy d = 0 ∧ ∀ b, ¬ shared b → t.rd b = s.rd b)) ∧
  ∀ (s : State) (m : Master) (a : Nat) (v : Word) (fs : List FieldRow), s.quiet → fieldsAt a = some fs →
    (∃ w < 65536, a = WIN_BASE.addr w ∨ a = WIN_LIMIT.addr w ∨ a = WIN_REMOTE.addr w ∨ a = WIN_ATTR.addr w) ∨ (∃ e < 4608, a = EVT_SRC_A.addr e) ∨
      (∃ n < 2, a = PKG_CP_IBA_DATA.addr n) →
    (s.reaches m true a = true → ∀ x, x ≠ .whole → completes (.registerWrite ⟨m, x⟩ a v) s (match m with
      | .cp n => if s.isI3c n then { s with out := [] } else { s.bump (PKG_CP_STATE.BAD_ACCESS n) with out := [] }
      | _ => { s with out := [] })) ∧
    (s.reaches m true a = true → s.hasReg a = true →
      ∃ t, exec (.registerWrite ⟨m, .whole⟩ a v) s = .next t ∧ t.out = [.controlAnswer m 0 0] ∧ endSame { s with out := t.out, regs := t.regs } t ∧
        (∀ b, ¬ shared b → b ≠ a → t.rd b = s.rd b) ∧
        ∀ f ∈ fs, getBits (t.rd a) f.lo f.width =
          match f.access with
          | .rw | .rwl | .rws => getBits v f.lo f.width
          | .w1c => getBits (s.rd a &&& ~~~v) f.lo f.width
          | .w1s => getBits (s.rd a ||| v) f.lo f.width
          | .ro | .rc | .wo => getBits (s.rd a) f.lo f.width) ∧
    (s.gateway m true a = .go → (∃ r i, s.tollCheck (s.dieOfAddr a) (s.subject m) .write 0xFFFE a = .refuse r i) →
      ¬ eventReg a → s.tow = [] →
      ∃ t, exec (.registerWrite ⟨m, .whole⟩ a v) s = .next t ∧ t.out = [.controlAnswer m 2 0] ∧ t.rd a = s.rd a)

/-- O17. A control port's link comes up and goes down. On a quiet state outside M0 whose in-band holders all have a route: CP_LINK_UP of a PCI Express control
port sets LINK_UP and changes nothing else but what the end of every command may change. CP_LINK_DOWN, CP_PERST_ASSERT under the PCI Express strap,
and RSTDAA or RSTACT with a target reset under the I3C strap, of a port n whose link is up clear LINK_UP, advance LINK_DOWNS (saturating), free every
semaphore that the port holds and no other, discard the staged image when SEM00 is among them, and from M4 on form a NOTICE naming the port for every
other rank to which the route table of the lead's die gives an egress. RSTACT without a target reset changes nothing. -/
def Obligations.ControlPortLinks : Prop :=
  ∀ (s : State) (n : Nat), s.quiet → s.routed → n < 2 → s.mode ≠ 0 → s.rank < 64 →
    let id := 1024 * s.rank + 781 + n
    (s.isI3c n = false →
      completes (.cpLinkUp n) s (State.setFlag { s with out := [], ports := tabPut (fun _ => {}) s.ports n { s.cport n with perst := false } }
        (PKG_CP_STATE.LINK_UP n) true)) ∧
    (s.isI3c n = true → completes (.i3cRstact n false) s { s with out := [] }) ∧
    ∀ c, (c = .cpLinkDown n ∨ (s.isI3c n = false ∧ c = .cpPerstAssert n) ∨ (s.isI3c n = true ∧ (c = .i3cRstdaa n ∨ c = .i3cRstact n true))) →
      s.get (PKG_CP_STATE.LINK_UP n) = 1 →
      ∃ t, exec c s = .next t ∧ t.get (PKG_CP_STATE.LINK_UP n) = 0 ∧ t.get (PKG_CP_STATE.LINK_DOWNS n) = min (s.get (PKG_CP_STATE.LINK_DOWNS n) + 1) 0xFF ∧
        (∀ i < 64, t.get (SEM.HELD i) = 1 → t.get (SEM.HOLDER i) ≠ id) ∧
        (∀ i < 64, s.get (SEM.HELD i) = 0 ∨ s.get (SEM.HOLDER i) ≠ id → t.rd (SEM.addr i) = s.rd (SEM.addr i)) ∧
        (s.get (SEM.HELD 0) = 1 → s.get (SEM.HOLDER 0) = id → t.staged = {}) ∧
        (4 ≤ s.mode → ∀ r < 64, r ≠ s.rank →
          (s.routeEntry s.leadDie (1024 * r + 780)).1 ≠ 0xFFFF ∨ (s.routeEntry s.leadDie (1024 * r + 780)).2 ≠ 0xFFFF →
          ∃ k ∈ t.outbox, k.ptype = 0xA ∧ k.sub = 4 ∧ k.vc = 3 ∧ k.cls = 0 ∧ k.dest = 1024 * r + 780 ∧ k.addr = id)

/-- O18. Private transfers and common command codes of an I3C control port. On a quiet state outside M0, for control port n under the I3C strap with
its link up: a write access of 13 bytes 0x02, offset, value (least significant byte first; offset below 2^30 and a multiple of 8) does exactly what a
register write by the port does, and one of a window register that the port's write reaches completes: every RW field of the register holds the value,
and no register outside it that is neither a counter nor otherwise shared changes; any other write access only advances BAD_ACCESS (saturating). A
read setup of 5 bytes 0x01, offset replaces the pending setup; a malformed one stands as malformed and advances BAD_ACCESS. A read result with no
setup pending answers zeros and status 0x04; on a malformed setup it answers status 0x03 and consumes it; on one that is not ready it answers status
0x01 and consumes nothing; and on one of a window register that the port's read reaches it answers the register, least significant byte first, with
status 0x00 and consumes it. That the access is made when its result is fetched is the model's choice (log entry 49). On a quiet state outside M0, for
control port n under the I3C strap: without a dynamic address, ENTDAA answers Provisioned ID, BCR and DCR and takes the address given, and SETDASA at
the static address 0x60 + 4 n + SA takes it; with one, GETPID, GETBCR and GETDCR answer the port's identity and GETSTATUS answers two bytes that the
spec leaves open; nothing else changes but what the end of every command may change. That taking an address sets LINK_UP is the model's choice (log
entry 49), and the identity is free (log entry 50). -/
def Obligations.I3cBus : Prop :=
  (∀ (s : State) (n : Nat) (bytes : List Byte), s.quiet → n < 2 → s.mode ≠ 0 → s.isI3c n = true → s.get (PKG_CP_STATE.LINK_UP n) = 1 →
     let p := s.cport n
     let puts := fun (x : Option I3cPending) (out : List Output) =>
       ({ s with out := out, ports := tabPut (fun _ => {}) s.ports n { p with setup := x } } : State)
     let bad := fun u : State => u.set (PKG_CP_STATE.BAD_ACCESS n) (min (s.get (PKG_CP_STATE.BAD_ACCESS n) + 1) 0xFFFF)
     let good := fun a : Nat => a % 8 = 0 ∧ a < 2 ^ 30
     (∀ a v, good a → v < 2 ^ 64 → exec (.i3cWriteAccess n (2 :: (leBytes 4 a ++ leBytes 8 v))) s = exec (.registerWrite ⟨.cp n, .whole⟩ a (BitVec.ofNat 64 v)) s) ∧
     (∀ a v fs, fieldsAt a = some fs → (∃ w < 65536, a = WIN_BASE.addr w ∨ a = WIN_LIMIT.addr w ∨ a = WIN_REMOTE.addr w ∨ a = WIN_ATTR.addr w) → v < 2 ^ 64 →
       s.reaches (.cp n) true a = true → s.hasReg a = true →
       ∃ t, exec (.i3cWriteAccess n (2 :: (leBytes 4 a ++ leBytes 8 v))) s = .next t ∧ endSame { s with out := t.out, regs := t.regs } t ∧ t.pending = s.pending ∧
         (∀ b, ¬ shared b → b ≠ a → t.rd b = s.rd b) ∧ ∀ f ∈ fs, f.access = .rw → getBits (t.rd a) f.lo f.width = getBits (BitVec.ofNat 64 v) f.lo f.width) ∧
     ((¬ ∃ a v, good a ∧ v < 2 ^ 64 ∧ bytes = 2 :: (leBytes 4 a ++ leBytes 8 v)) → completes (.i3cWriteAccess n bytes) s (bad { s with out := [] })) ∧
     (∀ a, good a → completes (.i3cReadSetup n (1 :: leBytes 4 a)) s (puts (some { offset := some a }) [])) ∧
     ((¬ ∃ a, good a ∧ bytes = 1 :: leBytes 4 a) → completes (.i3cReadSetup n bytes) s (bad (puts (some {}) []))) ∧
     (∀ ready, p.setup = none → completes (.i3cReadResult n ready) s { s with out := [.i3cBytes n [0, 0, 0, 0, 0, 0, 0, 0, 4]] }) ∧
     (∀ ready, p.setup = some {} → completes (.i3cReadResult n ready) s (puts none [.i3cBytes n [0, 0, 0, 0, 0, 0, 0, 0, 3]])) ∧
     (∀ a, p.setup = some { offset := some a } →
       completes (.i3cReadResult n false) s { s with out := [.i3cBytes n [0, 0, 0, 0, 0, 0, 0, 0, 1]] } ∧
       ∀ w < 65536, a = WIN_BASE.addr w ∨ a = WIN_LIMIT.addr w ∨ a = WIN_REMOTE.addr w ∨ a = WIN_ATTR.addr w →
         s.reaches (.cp n) false a = true → s.hasReg a = true →
         completes (.i3cReadResult n true) s (puts none [.i3cBytes n (leBytes 8 (s.rd a).toNat ++ [0])]))) ∧
  ∀ (s : State) (n address : Nat), s.quiet → n < 2 → s.mode ≠ 0 → s.isI3c n = true →
    let pid := beBytes 6 (Config.i3cPid n).toNat
    let takes := fun bytes : List Byte => State.setFlag { s with
      out := [.i3cCcc n bytes], ports := tabPut (fun _ => {}) s.ports n { s.cport n with address := address } } (PKG_CP_STATE.LINK_UP n) true
    ((s.cport n).address = 0 → completes (.i3cEntdaa n address) s (takes (pid ++ [Config.i3cBcr n, Config.i3cDcr n]))) ∧
    ((s.cport n).address = 0 → completes (.i3cSetdasa n (0x60 + 4 * n + s.modes.bootStraps.cpSa % 4) address) s (takes [])) ∧
    ((s.cport n).address ≠ 0 →
      completes (.i3cGetpid n) s { s with out := [.i3cCcc n pid] } ∧
      completes (.i3cGetbcr n) s { s with out := [.i3cCcc n [Config.i3cBcr n]] } ∧
      completes (.i3cGetdcr n) s { s with out := [.i3cCcc n [Config.i3cDcr n]] } ∧
      ∃ x y : Byte, completes (.i3cGetstatus n) s { s with out := [.i3cCcc n [x, y]] })

/-- O19. A control port's in-band accesses. On a quiet state, for control port n whose write of PKG_CPn_IBA_CTL reaches it with nothing waiting on the towpath
and whose BUSY is 0: IBA_CS_READ and IBA_CS_WRITE toward another rank in a class below 3 set BUSY, record the access, and form the one Management
packet of Table 13-6 with the port as SRC, the rank's management endpoint as DEST, PRIV by the port's own privilege and the offset; a CS_WRITE carries
PKG_CPn_IBA_DATA most significant byte first. The response that answers the outstanding access clears BUSY, sets MSTAT, advances COMPLETED
(saturating), puts the value of a CS_READ answered 0x0 or 0x2 in PKG_CPn_IBA_DATA and raises the completion interrupt; any other response to a control
port of this package advances LATE (saturating) and leaves BUSY. The timeout completes the outstanding access with MSTAT 0x4. -/
def Obligations.InbandAccesses : Prop :=
  ∀ (s : State) (n : Nat), s.quiet → n < 2 → s.rank < 64 →
    let p := s.cport n
    let count := min (s.get (PKG_CP_IBA_STAT.COMPLETED n) + 1) 0xFF
    (∀ rank cls offset, s.reaches (.cp n) true (PKG_CP_IBA_CTL.addr n) = true → s.get (PKG_CP_IBA_STAT.BUSY n) = 0 → rank < 64 → rank ≠ s.rank → cls < 3 →
      offset % 8 = 0 → offset < 2 ^ 30 →
      ∀ c op, (c = .ibaCsRead n rank cls offset ∧ op = 1) ∨ (c = .ibaCsWrite n rank cls offset ∧ op = 2) →
      ∃ t k x, exec c s = .next t ∧ t.get (PKG_CP_IBA_STAT.BUSY n) = 1 ∧ t.outbox = [k] ∧ (t.cport n).inband = some x ∧ x.op = op ∧ x.rank = rank ∧ x.tag = k.tag ∧
        k.ptype = 0xA ∧ k.vc = 3 ∧ k.cls = cls ∧ k.dest = 1024 * rank + 780 ∧ k.src = 1024 * s.rank + 781 + n ∧ k.addr = offset ∧
        k.sub = (if s.sealed.priv.testBit n then 0x40 else 0) + op ∧
        k.payload = (if op = 2 then beBytes 8 (s.get (PKG_CP_IBA_DATA.VALUE n)) else [])) ∧
    (∀ (pkt : Packet) x, p.inband = some x → pkt.dest = 1024 * s.rank + 781 + n → pkt.sub.testBit 7 = true →
      (x.tag = pkt.tag → pkt.src = 1024 * x.rank + 780 → pkt.sub % 64 = x.op →
        ∃ t, exec (.ibaResponseReceive pkt) s = .next t ∧ t.get (PKG_CP_IBA_STAT.BUSY n) = 0 ∧ t.get (PKG_CP_IBA_STAT.MSTAT n) = pkt.addr % 8 ∧
          t.get (PKG_CP_IBA_STAT.COMPLETED n) = count ∧ (t.cport n).inband = none ∧
          (x.op = 1 → pkt.addr % 8 = 0 ∨ pkt.addr % 8 = 2 → t.get (PKG_CP_IBA_DATA.VALUE n) = beNat (pkt.payload.take 8)) ∧
          (s.get (PKG_CP_STATE.LINK_UP n) = 1 → t.out = [.cpInterrupt n (if s.isI3c n then 2 else 1)])) ∧
      (¬ (x.tag = pkt.tag ∧ pkt.src = 1024 * x.rank + 780 ∧ pkt.sub % 64 = x.op) →
        completes (.ibaResponseReceive pkt) s (State.set { s with out := [] } (PKG_CP_IBA_STAT.LATE n) (min (s.get (PKG_CP_IBA_STAT.LATE n) + 1) 0xFFFF)))) ∧
    (∀ pkt : Packet, p.inband = none → pkt.dest = 1024 * s.rank + 781 + n → pkt.sub.testBit 7 = true →
      completes (.ibaResponseReceive pkt) s (State.set { s with out := [] } (PKG_CP_IBA_STAT.LATE n) (min (s.get (PKG_CP_IBA_STAT.LATE n) + 1) 0xFFFF))) ∧
    (∀ x, p.inband = some x →
      ∃ t, exec (.ibaTimeout n) s = .next t ∧ t.get (PKG_CP_IBA_STAT.BUSY n) = 0 ∧ t.get (PKG_CP_IBA_STAT.MSTAT n) = 4 ∧
        t.get (PKG_CP_IBA_STAT.COMPLETED n) = count ∧ (t.cport n).inband = none)

/-- O20. Serving the in-band accesses of other packages. On a quiet state from M2 on whose in-band holders all have a route, for a request at BF port p (RESP 0,
OP 1 or 2), with its offset H2 [29:3]: one that R573 accepts and that reaches a window register with nothing waiting on the towpath is answered by the one
packet toward its sender with RESP 1, the request's OP, TAG and class and MSTAT 0x0; a CS_READ carries the register and a CS_WRITE gives every RW field of
the register the packet's value; SERVED advances (saturating). One that the access check of the register's die refuses is answered MSTAT 0x2, a CS_READ
with data 0, and a CS_WRITE leaves the register as it was. One that R573 does not accept, and an accepted CS_WRITE to PKG_MGT_ACCEPT, PKG_MGT_PRIV, SEAL_CTL, a
control port's registers or of the Maintenance command, is answered MSTAT 0x1 and advances NOT_ACCEPTED (saturating), and nothing else changes. Any NOTICE
advances NOTICES (saturating): the port of another rank that it names holds no semaphore after it, every semaphore that the port did not hold is as it
was, and one that names this rank changes nothing else. -/
def Obligations.InbandServer : Prop :=
  ∀ s : State, s.quiet → s.routed → 2 ≤ s.mode →
    (∀ (p : Nat) (k : Packet), s.isBf p = true → k.sub.testBit 7 = false → k.src < 65536 →
      let m : Master := .inband k.src (k.sub.testBit 6)
      let a := k.addr / 8 % 2 ^ 27 * 8
      let value := beNat (k.payload.take 8)
      let accepted := k.dest = s.fabricId 780 ∧ (k.src % 1024 = 781 ∨ k.src % 1024 = 782) ∧ s.bitOf PKG_MGT_ACCEPT.VALUE (k.src / 1024) = true ∧
        s.routeBf s.leadDie k.src = some p
      let answer := fun (status : Nat) (payload : List Byte) (x : Packet) => x.ptype = 0xA ∧ x.vc = 3 ∧ x.cls = k.cls ∧ x.dest = k.src ∧ x.src = k.dest ∧
        x.tag = k.tag ∧ x.sub = 0x80 + k.sub % 64 ∧ x.addr = status ∧ x.payload = payload
      let served := fun t : State => t.get PKG_MGT_STAT.SERVED = min (s.get PKG_MGT_STAT.SERVED + 1) 0xFFFFFFFF
      let window := ∃ w < 65536, a = WIN_BASE.addr w ∨ a = WIN_LIMIT.addr w ∨ a = WIN_REMOTE.addr w ∨ a = WIN_ATTR.addr w
      let denied := fun kind : Kind => ∃ r i, s.tollCheck (s.dieOfAddr a) (s.subject m) kind 0xFFFE a = .refuse r i
      (accepted → window → s.hasReg a = true →
        (k.sub % 64 = 1 → s.reaches m false a = true →
          ∃ t x, exec (.csReadReceive p k) s = .next t ∧ t.outbox = [x] ∧ answer 0 (beBytes 8 (s.rd a).toNat) x ∧ served t) ∧
        (k.sub % 64 = 2 → s.reaches m true a = true →
          ∃ t x, exec (.csWriteReceive p k) s = .next t ∧ t.outbox = [x] ∧ answer 0 [] x ∧ served t ∧
            ∀ fs, fieldsAt a = some fs → ∀ f ∈ fs, f.access = .rw → getBits (t.rd a) f.lo f.width = getBits (BitVec.ofNat 64 value) f.lo f.width) ∧
        (k.sub % 64 = 1 → s.gateway m false a = .go → denied .read →
          ∃ t x, exec (.csReadReceive p k) s = .next t ∧ x ∈ t.outbox ∧ answer 2 (beBytes 8 0) x ∧ served t) ∧
        (k.sub % 64 = 2 → s.gateway m true a = .go → denied .write →
          ∃ t x, exec (.csWriteReceive p k) s = .next t ∧ x ∈ t.outbox ∧ answer 2 [] x ∧ served t ∧ t.rd a = s.rd a)) ∧
      (∀ c, (c = .csReadReceive p k ∧ k.sub % 64 = 1 ∧ ¬ accepted) ∨
          (c = .csWriteReceive p k ∧ k.sub % 64 = 2 ∧ (¬ accepted ∨ a = PKG_MGT_ACCEPT.addr ∨ a = PKG_MGT_PRIV.addr ∨ a = SEAL_CTL.addr ∨
            (0x6000 ≤ a ∧ a < 0x7000) ∨ (a = PKG_MODE_CTL.addr ∧ value / 2 ^ 52 % 16 = 3))) →
        ∃ x, answer 1 (if k.sub % 64 = 1 then beBytes 8 0 else []) x ∧
          completes c s (State.set { s with out := [], outbox := [x] } PKG_MGT_STAT.NOT_ACCEPTED (min (s.get PKG_MGT_STAT.NOT_ACCEPTED + 1) 0xFFFF)))) ∧
    ∀ k : Packet,
      let id := k.addr % 65536
      let counted := ({ s.bump PKG_MGT_STAT.NOTICES with out := [] } : State)
      (id / 1024 = s.rank → completes (.noticeReceive k) s counted) ∧
      (id / 1024 ≠ s.rank → ∃ t, exec (.noticeReceive k) s = .next t ∧ t.get PKG_MGT_STAT.NOTICES = min (s.get PKG_MGT_STAT.NOTICES + 1) 0xFFFF ∧
        (∀ i < 64, t.get (SEM.HELD i) = 1 → t.get (SEM.HOLDER i) ≠ id) ∧
        ∀ i < 64, s.get (SEM.HELD i) = 0 ∨ s.get (SEM.HOLDER i) ≠ id → t.rd (SEM.addr i) = s.rd (SEM.addr i))

/-- O21. Withdrawn commands, crossings released and clocks that return. On a quiet state: when the one towpath command that waits is for cluster c, its timeout
removes it, moves time on to 100 µs after it was issued, and answers its originator TIMEOUT with nothing performed (a write of a control port advances
DISCARDED, saturating). With nothing on the towpath, a crossing in crossing-reset whose near half is released and whose clocks run leaves it: IN_RESET
clears and RESET_SEEN sets at its number, in a die's or the package's status register without any other change. The return of a far clock, and of a
near clock for which no reset waits outside a gated cluster, only clears the stop; where a reset waits on a die's or the package's crossing it takes
effect, empties the crossing's queue, and IN_RESET sets. -/
def Obligations.TowpathAndCrossings : Prop :=
  ∀ (s : State) (c x : Nat), s.quiet →
    (∀ w : TowCommand, s.tow = [w] → s.blockAt w.addr = .cluster c (w.addr - clusterBase c) → w.reply = .plain →
      let s' := s.waitUntil (w.since + 1600000)
      let after := ({ s' with tow := [], out := [.controlAnswer w.master 4 0] } : State)
      completes (.towpathTimeout c) s (match w.master with
        | .cp n => if w.write then after.set (PKG_CP_STATE.DISCARDED n) (min (s.get (PKG_CP_STATE.DISCARDED n) + 1) 0xFFFF) else after
        | _ => after)) ∧
    (let y := s.crossing x
     let put := fun y' : Crossing => ({ s with out := [], crossings := tabPut (fun _ => {}) s.crossings x y' } : State)
     let seen := if x < 2048 then (DIE_XSTAT.IN_RESET ((x - 1024) / 16), DIE_XSTAT.RESET_SEEN ((x - 1024) / 16)) else (PKG_XSTAT.IN_RESET, PKG_XSTAT.RESET_SEEN)
     (s.tow = [] → 1024 ≤ x → x < 2064 → y.crossReset = true → y.nearReset = false → y.nearStopped = false → y.farStopped = false →
       completes (.crossingRelease x) s (((put { y with farReset := false, crossReset := false }).setBit seen.1 (x % 16) false).setBit seen.2 (x % 16) true)) ∧
     completes (.clockReturn x true) s (put { y with farStopped := false }) ∧
     (y.nearStopped = true → (x < 1024 → s.gated.testBit (x / 16) = false) → y.nearPending = false →
       completes (.clockReturn x false) s (put { y with nearStopped := false })) ∧
     (y.nearStopped = true → 1024 ≤ x → x < 2064 → y.nearPending = true →
       completes (.clockReturn x false) s ((put { y with nearStopped := false, nearPending := false, nearReset := false, farReset := true, crossReset := true, wptr := 0, rptr := 0, wsync := 0, rsync := 0 }).setBit
         seen.1 (x % 16) true)))

/-- O22. A reconciliation pass and its explicit commands. On a quiet state in which nothing is open against the shadow of healthy die d: in M5 to M9 a pass
without reports only advances PASSES (saturating); a pass that reports one item of Table 13-7 whose value differs from the data path and whose region
is not deferred sets cause 0 of die source 12, advances DISAGREE and PASSES and records ITEM and INDEX, and the shadow holds it. For a master whose
write of DIE_RECON_CTL reaches it, ADOPT of that item or of ALL items of its kind makes the shadow follow the data path again, and FORCE of items of
kind 1, 2 and 5 sets LAST_REFUSED and changes nothing else of the shadow; FORCE of a window's containment that the shadow holds as contained contains
the window. -/
def Obligations.Reconciliation : Prop :=
  ∀ (s : State) (d : Nat) (m : Master) (x : ShadowItem), s.quiet → d < s.numDies → s.shadow = [] → s.healthy d = true → x.item < 16 → x.index < 2 ^ 24 →
    (5 ≤ s.mode → s.mode ≤ 9 →
      completes (.reconcilePass d []) s (State.set { s with out := [] } (DIE_RECON.PASSES d) (min (s.get (DIE_RECON.PASSES d) + 1) 0xFFFF)) ∧
      (1 ≤ x.item → x.item ≤ 5 → x.value ≠ s.dataPath d x.item x.index → s.deferred d x = false →
        ∃ t, exec (.reconcilePass d [x]) s = .next t ∧ t.shadow = [(d, [x])] ∧ (t.get (EVT_SRC_A.CAUSE (4096 + 112 * d + 12))).testBit 0 = true ∧
          t.get (DIE_RECON.DISAGREE d) = min (s.get (DIE_RECON.DISAGREE d) + 1) 0xFFFF ∧ t.get (DIE_RECON.ITEM d) = x.item ∧
          t.get (DIE_RECON.INDEX d) = x.index ∧ t.get (DIE_RECON.PASSES d) = min (s.get (DIE_RECON.PASSES d) + 1) 0xFFFF)) ∧
    (let s' := { s with shadow := [(d, [x])] }
     s'.reaches m true (DIE_RECON_CTL.addr d) = true →
      (∀ all, ∃ t, exec (.reconAdopt m d x.item x.index all) s' = .next t ∧ t.shadow = []) ∧
      (x.item = 1 ∨ x.item = 2 ∨ x.item = 5 →
        ∃ t, exec (.reconForce m d x.item x.index) s' = .next t ∧ t.shadow = s'.shadow ∧ t.get (DIE_RECON_CTL.LAST_REFUSED d) = 1) ∧
      (x.item = 4 → 0x400000 ≤ x.index → x.index < 0x404000 → x.value = [1] →
        ∃ t, exec (.reconForce m d x.item x.index) s' = .next t ∧ t.get (DIE_RECON_CTL.LAST_REFUSED d) = 0 ∧
          t.windowContained (16384 * d + (x.index - 0x400000)) = true))

/-- O23. Package resets by pins, supplies and clocks, and what they keep. On a quiet state outside M0, RESET_B_ASSERT, AON_CLOCK_LOSS, a package rail of Table
18-3 out of range, and PACKAGE_RESET_EFFECT where a reset is due each return every register and state of the block to its value after reset, but for
the fuses (whose values come into force), the store (a slot that was being written reads Invalid), the part, the straps, LAST_RESET and PREV_MODE,
which record the reset, and HALT_SRC except at power-on; THERMTRIP_B and HALT_B are driven high, and the package stands in M1, or in M0 while a
package rail is out of range. In M0 the first two change nothing. RESET_B_RELEASE samples the straps: from M0 after a power-on reset, in M1 where it
stands; elsewhere it changes nothing. AON_CLOCK_RETURN ends the loss, and PACKAGE_RESET_EFFECT changes nothing where no reset is due. -/
def Obligations.PackageResets : Prop :=
  ∀ (s : State), s.quiet →
    let slot := fun x : SlotState => if x = .writing then .invalid else x
    let fresh := fun (source : Nat) (modes : ModeState) =>
      let t : State := { State.reset with
        pending := s.pending, chip := s.chip, fuses := s.fuses, sealed := s.fuses.values, nvs := s.nvs, freeCount := s.freeCount, modes := modes
        dir := { s.dir with slotA := slot s.dir.slotA, slotB := slot s.dir.slotB }, out := [.pin pinThermtrip true, .pin pinHalt true] }
      let t := (t.set PKG_MODE.LAST_RESET source).set PKG_MODE.PREV_MODE s.mode
      if source = 1 then t else t.set PKG_MODE.HALT_SRC (s.get PKG_MODE.HALT_SRC)
    let straps := s.modes.bootStraps
    let nothing := fun c : Instr => completes c s { s with out := [] }
    -- the store is as it was but for a slot that was being written, and the mode is the one named
    let kept := fun (m : Nat) (t : State) => t.mode = m ∧ t.dir = { s.dir with slotA := slot s.dir.slotA, slotB := slot s.dir.slotB } ∧
      t.staged = {} ∧ t.slotWrite = none ∧ t.nvsOp = none
    let resets := fun (c : Instr) (u : State) (m : Nat) => completesWith c s u (kept m)
    (s.mode ≠ 0 →
      resets .resetBAssert (fresh 2 { bootStraps := straps, resetHeld := true, clockLost := s.modes.clockLost }) 1 ∧
      resets .aonClockLoss (fresh 2 { bootStraps := straps, resetHeld := s.modes.resetHeld, clockLost := true }) 1 ∧
      (∀ q, 20 ≤ q → q < 26 → resets (.supplyOutOfRange q) ((fresh 1 { bootStraps := straps }).set PKG_MODE.MODE 0) 0)) ∧
    (s.mode = 0 → nothing .resetBAssert ∧ nothing .aonClockLoss ∧ ∀ q, 20 ≤ q → q < 26 → nothing (.supplyOutOfRange q)) ∧
    (s.modes.resetSource ≠ 0 → resets .packageResetEffect (fresh s.modes.resetSource { bootStraps := straps }) 1) ∧
    (s.modes.resetSource = 0 → nothing .packageResetEffect) ∧
    completes .aonClockReturn s { s with out := [], modes := { s.modes with clockLost := false } } ∧
    ∀ x : Straps,
      (s.mode = 0 → resets (.resetBRelease x) (fresh 1 { bootStraps := x }) 1) ∧
      (s.mode = 1 → completes (.resetBRelease x) s { s with out := [], modes := { s.modes with bootStraps := x, resetHeld := false } }) ∧
      (1 < s.mode → nothing (.resetBRelease x))

/-- O24. The loss of a die, of the lead, and the keepers' watchdogs. On a quiet state in M2 or later, for a present die d: its supply out of range sets cause 0
of die source 7; a keeper's watchdog that expires stands at its last start or KICK plus TIMEOUT ms at the earliest, starts again, advances EXPIRIES
and sets cause 0 of the keeper's die source. Where d does not hold the lead its four regions are fenced and no others, and the lead stays; a keeper
that is not the lead's starts the firmware bank it ran again where the SHA-384 of that bank's first stage is what MR0 was extended by, stops where it is not, and
changes nothing else. Where d (or the keeper) holds a valid lead, d is no longer healthy, its regions are fenced, a seal
procedure, a partial reload, a staged image and a store operation in progress are abandoned, every waiting DOE request is gone, cause 0 of package
source 0 sets, and the lowest other healthy die provides the lead by its first keeper that passed its self-check, ELECT_COUNT advancing; with no other
healthy die LEAD_VALID is 0 and the mode is M11. WATCHDOG_KICK notes the time. In M0 and M1 none of these changes anything. -/
def Obligations.DieLoss : Prop :=
  ∀ (s : State) (d : Nat), s.quiet → d < s.numDies →
    let nothing := fun c : Instr => completes c s { s with out := [] }
    let valid := s.get PKG_LEAD.LEAD_VALID = 1
    let lead := fun (t : State) =>
      (∀ k < 4, t.healthy k = true ↔ s.healthy k = true ∧ k ≠ d) ∧ (∀ g < 16, g / 4 = d → t.regionFenced g = true) ∧
      t.sealRequests = [] ∧ t.staged = {} ∧ t.slotWrite = none ∧ t.nvsOp = none ∧ t.reload = none ∧ t.doeOrder = [] ∧ (∀ i, (t.doeOf i).object = none) ∧
      t.hasCause 4544 0 ∧
      (∀ k ∈ s.healthyDies, k ≠ d → (∀ j ∈ s.healthyDies, j ≠ d → k ≤ j) →
        t.get PKG_LEAD.LEAD_VALID = 1 ∧ t.get PKG_LEAD.LEAD_KEEPER = (if s.modes.selfCheck.testBit (2 * k) then 2 * k else 2 * k + 1) ∧
        t.get PKG_LEAD.ELECT_COUNT = min (s.get PKG_LEAD.ELECT_COUNT + 1) (2 ^ PKG_LEAD.ELECT_COUNT.width - 1)) ∧
      ((∀ k ∈ s.healthyDies, k = d) → t.get PKG_LEAD.LEAD_VALID = 0 ∧ t.mode = 11)
    (2 ≤ s.mode → ∀ q, (q = d ∨ (4 ≤ q ∧ q < 20 ∧ (q - 4) / 4 = d)) →
      (d ≠ s.leadDie ∨ ¬ valid → completesIn fenceSame (.supplyOutOfRange q) s { s with out := [] } fun t =>
        t.hasCause (4096 + 112 * d + 7) 0 ∧ (∀ g < 16, t.regionFenced g = true ↔ s.regionFenced g = true ∨ g / 4 = d) ∧
        t.get PKG_LEAD.DIE_HEALTHY = s.get PKG_LEAD.DIE_HEALTHY ∧ t.get PKG_LEAD.LEAD_KEEPER = s.get PKG_LEAD.LEAD_KEEPER ∧
        t.get PKG_LEAD.LEAD_VALID = s.get PKG_LEAD.LEAD_VALID) ∧
      (d = s.leadDie → valid → completesIn fenceSame (.supplyOutOfRange q) s { s with out := [] } fun t => t.hasCause (4096 + 112 * d + 7) 0 ∧ lead t)) ∧
    (2 ≤ s.mode → ∀ k kicked, k / 2 = d →
      let w := s.waitUntil (tabGet (fun _ => 0) s.kickAt k + 16000000 * s.get (DIE_KEEPER_WDT.TIMEOUT k))
      let u := State.bump { w with out := [], kickAt := tabPut (fun _ => 0) s.kickAt k w.now } (DIE_KEEPER_WDT.EXPIRIES k)
      let cause := fun t : State => t.hasCause (4096 + 112 * d + 8 + k % 2) 0
      completes (.watchdogKick k) s { s with out := [], kickAt := tabPut (fun _ => 0) s.kickAt k s.now } ∧
      let runs := tabGet (fun _ => none) s.keeperRun k
      (¬ (valid ∧ s.get PKG_LEAD.LEAD_KEEPER = k) → completesWithEvents (.keeperWatchdogExpiry k kicked) s { u with
        keeperRun := match runs with
          | some b => tabPut (fun _ => none) s.keeperRun k (if sha384 (List.replicate 48 0 ++ s.stageOne b) = s.mrOf 0 then some b else none)
          | none => s.keeperRun } cause) ∧
      (valid → s.get PKG_LEAD.LEAD_KEEPER = k → completesIn fenceSame (.keeperWatchdogExpiry k kicked) s u fun t => cause t ∧ lead t)) ∧
    (s.mode < 2 → ∀ q k kicked, (q = d ∨ (4 ≤ q ∧ q < 20 ∧ (q - 4) / 4 = d)) →
      nothing (.supplyOutOfRange q) ∧ nothing (.watchdogKick k) ∧ nothing (.keeperWatchdogExpiry k kicked))

/-- O25. Die self-test, the election of the lead, and Measured Boot. On a quiet state in M1 that no pin and no clock holds, DIE_SELF_TEST_DONE makes a present
die healthy when it passed, its supplies are good and at least one of its keepers passed its self-check, and the control ports show their strap and
their privilege; with a healthy die the mode becomes M2 and the lowest one provides the lead by its first keeper that passed, ELECT_COUNT advancing;
with none LEAD_VALID is 0, HALT_SRC is 0x1FFD and the mode is M11, with HALT_B low. Outside M1, or held there, it changes nothing. On a quiet state in
M2, FIRMWARE_VERIFIED boots the bank that passes, of two the one with the higher SVN, then the higher VERSION, then F0: PKG_FW shows it, MR0 is
extended by the digest of its first stage, and where every later stage matches its entry MR1 is extended by each later digest, MR2 by the digest of
the configuration record, the keepers of healthy dies that passed their self-check run that bank, and the mode is M3 with the first image source of the order of Table 02-6 begun. Where no bank passes or a stage fails the
mode is M11. Outside M2 it changes nothing. (How the factory's firmware and HALT_SRC of that halt read is the model's choice, log entries 15 and 16.) -/
def Obligations.BootAndElection : Prop :=
  ∀ (s : State), s.quiet →
    let nothing := fun c : Instr => completes c s { s with out := [] }
    (∀ pass supplies checks,
      let good := fun d => d < s.numDies ∧ pass.testBit d = true ∧ supplies.testBit d = true ∧ (checks.testBit (2 * d) = true ∨ checks.testBit (2 * d + 1) = true)
      let c := Instr.dieSelfTestDone pass supplies checks
      (s.mode = 1 → s.modes.resetHeld = false → s.modes.clockLost = false → completesIn fenceSame c s { s with out := [] } fun t =>
        t.modes.selfCheck = checks ∧ (∀ d < 4, t.healthy d = true ↔ good d) ∧
        t.get (PKG_CP_STATE.MODE 0) = (if s.modes.bootStraps.cp0I3c then 1 else 0) ∧ t.get (PKG_CP_STATE.MODE 1) = (if s.modes.bootStraps.cp1I3c then 1 else 0) ∧
        (∀ n < 2, t.get (PKG_CP_STATE.PRIV n) = if s.sealed.priv.testBit n then 1 else 0) ∧
        (∀ d, good d → (∀ j, good j → d ≤ j) → t.mode = 2 ∧ t.get PKG_LEAD.LEAD_VALID = 1 ∧
          t.get PKG_LEAD.LEAD_KEEPER = (if checks.testBit (2 * d) then 2 * d else 2 * d + 1) ∧
          t.get PKG_LEAD.ELECT_COUNT = min (s.get PKG_LEAD.ELECT_COUNT + 1) (2 ^ PKG_LEAD.ELECT_COUNT.width - 1)) ∧
        ((¬ ∃ d, good d) → t.mode = 11 ∧ t.get PKG_LEAD.LEAD_VALID = 0 ∧ t.get PKG_MODE.HALT_SRC = 0x1FFD ∧ .pin pinHalt false ∈ t.out)) ∧
      (s.mode ≠ 1 ∨ s.modes.resetHeld = true ∨ s.modes.clockLost = true → nothing c)) ∧
    ∀ sig0 sig1,
      let f0 := s.bank false sig0
      let f1 := s.bank true sig1
      let c := Instr.firmwareVerified sig0 sig1
      (s.mode ≠ 2 → nothing c) ∧
      (s.mode = 2 → f0.passes = false → f1.passes = false → completesIn fenceSame c s { s with out := [] } fun t => t.mode = 11 ∧ .pin pinHalt false ∈ t.out) ∧
      (s.mode = 2 → ∀ b : Bool, (if b then f1 else f0).passes = true →
        ((if b then f0 else f1).passes = true → if f0.svn < f1.svn ∨ (f0.svn = f1.svn ∧ f0.version < f1.version) then b = true else b = false) →
        let x := if b then f1 else f0
        let shown := ((((s.set PKG_FW.VERSION x.version).set PKG_FW.SVN x.svn).set PKG_FW.FLOOR s.sealed.floor).setFlag PKG_FW.OTHER_PASSED
          (if b then f0 else f1).passes).setFlag PKG_FW.BANK b
        let mr0 := fun t : State => t.mrOf 0 = sha384 (s.mrOf 0 ++ x.stages.headD [])
        (x.laterMatch = false → completesIn fenceSame c s { shown with out := [] } fun t => t.mode = 11 ∧ mr0 t) ∧
        (x.laterMatch = true →
          let r := s.recoverSeal
          let sel := s.dir.bootSel
          let valid := fun y : ImageSource => decide ((if y = .slotA then s.dir.slotA else s.dir.slotB) = .valid)
          let order := if sel = 3 then [ImageSource.streamed]
            else if sel = 0 then ((if imgSeq (r.slotImage false) < imgSeq (r.slotImage true) then [ImageSource.slotB, .slotA] else [.slotA, .slotB]).filter valid) ++ [.streamed]
            else if valid (if sel = 1 then .slotA else .slotB) then [if sel = 1 then .slotA else .slotB, .streamed] else [.streamed]
          let first := order.headD .streamed
          completesIn fenceSame c s { shown.set PKG_SBS_CTL.BOOT_SEL sel with
              out := [], fuses := r.fuses, loadOrder := order.tail
              keeperRun := ((List.range 8).filter fun k => s.healthy (k / 2) && s.modes.selfCheck.testBit k).foldl (fun (x' : Tab (Option Bool)) k => tabPut (fun _ => none) x' k
                (if sha384 (List.replicate 48 0 ++ s.stageOne b) = sha384 (s.mrOf 0 ++ x.stages.headD []) then some b else none)) s.keeperRun
              loading := if first = .streamed then s.loading else some { source := first, bytes := r.slotImage (first = .slotB), port := 0, validated := false } } fun t =>
            t.mode = 3 ∧ mr0 t ∧ t.mrOf 1 = (x.stages.drop 1).foldl (fun v d => sha384 (v ++ d)) (s.mrOf 1) ∧
            t.mrOf 2 = sha384 (s.mrOf 2 ++ sha384 s.configRecord) ∧ (∀ n, 2 < n → t.mrOf n = s.mrOf n) ∧
            t.get PKG_SBS_STATUS.STATE = if first = .streamed then 6 else 2))

/-- O26. Reference clocks and the time pulse; the time parent, flight times, offsets, the step, and lock. On a quiet state: the loss of region g's reference
clock is noted, and sets cause 1 of cluster source 41, and its LIVE bit, of exactly the clusters of the region that a port's lanes use; its return
clears the note and the LIVE bits and no cause. TIME_PULSE, once TIME_STEPPED is set, stands at the next multiple of 1 ms of fabric time and drives
the pin high and low; before that it changes nothing. A time base out of step sets cause 2 of its cluster's source 41, or cause 0 of its die's source
6. On a quiet state, for a BF port p that takes blocks and an element x: ANNOUNCE_RECEIVE keeps what x says of root, depth and sender, and the parent
becomes the BF port in Active whose locked announcement names a lower root than this package, the lowest by root, depth and sender, the earliest of
equals (none without one), a changed parent starting unlocked; a changed depth beyond 8 sets cause 2 of package source 2. SYNC_RECEIVE keeps its time
and the time of receipt, and DREQ_RECEIVE owes a DRESP with its ID and the time of receipt after those owed already. DRESP_RECEIVE whose ID is that of a request
outstanding, with a SYNC known, ends the request and gives flight time and offset by R213; where p is the parent in M5 and time has not been stepped, fabric time
steps by the offset, which is then zero; where p is the parent otherwise, an offset within 16 ticks is steady since then or since earlier, a larger
one ends the lock. Any other DRESP changes nothing. TIME_LOCK, with a parent whose offset is steady since t, stands at t + 1 ms at the earliest and
locks; otherwise it changes nothing. JOIN shows TIME_STEPPED and TIME_LOCKED from M5 on and loses none of its other bits. On a port that takes no
blocks the four change nothing. -/
def Obligations.TimeBases : Prop :=
  (∀ (s : State), s.quiet →
     (∀ g < s.numRegions,
       let modes := { s.modes with refclkBad := withBit s.modes.refclkBad g }
       let used := fun c => ∃ l, l / 8 = c ∧ (s.lanePort l).isSome = true
       (completesIn eventSame (.referenceClockLoss g) s { s with out := [], modes := modes } fun t => ∀ c < 64,
         (c / 4 = g → used c → t.hasCause (64 * c + 41) 1 ∧ (t.get (EVT_SRC_A.LIVE (64 * c + 41))).testBit 1 = true) ∧
         (¬ (c / 4 = g ∧ used c) → t.rd (EVT_SRC_A.addr (64 * c + 41)) = s.rd (EVT_SRC_A.addr (64 * c + 41)))) ∧
       completes (.referenceClockReturn g) s ((List.range 4).foldl (fun (u : State) k => u.setBit (EVT_SRC_A.LIVE (64 * (4 * g + k) + 41)) 1 false)
         { s with out := [], modes := { s.modes with refclkBad := withoutBit s.modes.refclkBad g } })) ∧
     ((s.get PKG_MODE.JOIN).testBit 4 = true →
       completes .timePulse s { s.waitUntil ((s.now / 16000000 + 1) * 16000000) with out := [.pin pinTimePulse true, .pin pinTimePulse false] }) ∧
     ((s.get PKG_MODE.JOIN).testBit 4 = false → completes .timePulse s { s with out := [] }) ∧
     (∀ c < s.numClusters, completesWithEvents (.timeBaseOutOfStep true c) s { s with out := [] } fun t => t.hasCause (64 * c + 41) 2) ∧
     ∀ d < s.numDies, completesWithEvents (.timeBaseOutOfStep false d) s { s with out := [] } fun t => t.hasCause (4096 + 112 * d + 6) 0) ∧
  ∀ (s : State) (p : Nat) (x : Word), s.quiet →
    let takes := s.isBf p = true ∧ s.portDark p = false
    let nothing := fun c : Instr => completes c s { s with out := [] }
    let link := fun (l : LinkSession) => ({ s with out := [], links := tabPut (fun _ => {}) s.links p l } : State)
    let joins := fun t : State =>
      ((s.get PKG_MODE.JOIN).testBit 5 = false → t.get PKG_MODE.JOIN = s.get PKG_MODE.JOIN) ∧
      ((s.get PKG_MODE.JOIN).testBit 5 = true → (t.get PKG_MODE.JOIN).testBit 4 = (t.time.stepped || t.isRoot) ∧
        (t.get PKG_MODE.JOIN).testBit 3 = (t.isRoot || t.time.locked) ∧ ∀ k, k ≠ 3 → k ≠ 4 → (s.get PKG_MODE.JOIN).testBit k = true → (t.get PKG_MODE.JOIN).testBit k = true)
    (¬ takes → nothing (.announceReceive p x) ∧ nothing (.syncReceive p x) ∧ nothing (.dreqReceive p x) ∧ nothing (.drespReceive p x)) ∧
    (takes →
      let l := s.link p
      completes (.syncReceive p x) s (link { l with sync := some (getBits x 0 48, s.now % 2 ^ 48) }) ∧
      completes (.dreqReceive p x) s (link { l with dresps := l.dresps ++ [(getBits x 48 4, s.now % 2 ^ 48)] }) ∧
      (let a : Announce := { rootRank := getBits x 42 6, depth := getBits x 36 6, senderRank := getBits x 30 6, locked := x.getLsbD 29 }
       let heard := fun q => if q = p then some a else (s.link q).announce
       let cand := fun q b => q ∈ s.bfPorts ∧ s.bfUp q = true ∧ heard q = some b ∧ b.locked = true ∧ b.rootRank < s.rank
       let key := fun b : Announce => (b.rootRank, b.depth, b.senderRank)
       let best := fun q b => cand q b ∧ ∀ r c, cand r c → betterParent (key c) (key b) = false ∧ (r < q → betterParent (key b) (key c) = true)
       ∃ parent j, (parent = none ∧ (∀ q b, ¬ cand q b) ∨ ∃ q b, parent = some q ∧ best q b) ∧
        completesIn eventSame (.announceReceive p x) s (State.set { link { l with announce := some a } with
            time := if s.time.parent = parent then s.time else { s.time with parent := parent, locked := false, steadySince := none } } PKG_MODE.JOIN j) fun t =>
          joins t ∧ (8 < t.timeDepth → t.timeDepth ≠ s.timeDepth → t.hasCause 4546 2)) ∧
      (∀ id t3 t1 t2, l.dreqs.find? (fun y => y.1 = getBits x 48 4) = some (id, t3) → l.sync = some (t1, t2) → t1 < 2 ^ 48 → t2 < 2 ^ 48 → t3 < 2 ^ 48 →
        let t4 := getBits x 0 48
        let up := ((t2 : Int) - t1) % 2 ^ 48
        let down := ((t4 : Int) - t3) % 2 ^ 48
        let flight := ((up + down) % 2 ^ 48 / 2).toNat
        -- the offset as a number of either sign, half of what the two ways differ by
        let twice := (up - down + 2 ^ 47) % 2 ^ 48 - 2 ^ 47
        let offset := if 0 ≤ twice then twice / 2 else - ((- twice) / 2)
        let o := (offset % 2 ^ 48).toNat
        let steps := s.mode = 5 ∧ s.time.stepped = false
        let w := { s with adjust := s.adjust - BitVec.ofInt 64 offset }
        let parent := s.time.parent = some p
        ∃ j settle restoring, completesIn workSame (.drespReceive p x) s
          (State.set { s with
              out := [], modes := { s.modes with settleAt := settle, restoring := restoring }, adjust := if parent ∧ steps then w.adjust else s.adjust
              time := if ¬ parent then s.time
                else if steps then { s.time with stepped := true, steadySince := some w.now }
                else if -16 ≤ offset ∧ offset ≤ 16 then { s.time with steadySince := some (s.time.steadySince.getD s.now) }
                else { s.time with steadySince := none, locked := false } } PKG_MODE.JOIN j) fun t =>
          joins t ∧ (t.link p).dreqs = l.dreqs.filter (fun y => y.1 ≠ getBits x 48 4) ∧ (t.link p).flight = some flight ∧ (t.link p).offset = if parent ∧ steps then 0 else o) ∧
      (l.dreqs.find? (fun y => y.1 = getBits x 48 4) = none ∨ l.sync = none → nothing (.drespReceive p x))) ∧
    (∀ q t0, s.time.parent = some q → s.time.steadySince = some t0 → ∃ j,
      completesWith .timeLock s (State.set { s.waitUntil (t0 + 16000000) with out := [], time := { s.time with locked := true } } PKG_MODE.JOIN j) joins) ∧
    (s.time.parent = none ∨ s.time.steadySince = none → nothing .timeLock)

/-- O27. Streaming an image, and the commands on the staged image. On a quiet state whose in-band holders have routes. A write of the staging aperture
that takes effect, by the holder of SEM00: the eight bytes join the staged image (nothing beyond LENGTH bytes), a first write starting one in the
basins in M3 and in the reserve otherwise, where one begun in M3 also lies once it is streamed on in another mode; STATE is 1. An image that outgrows
the reserve moves to a slot that the running image was not loaded from and that CMD 0x2 is not writing, which reads Writing; one that outgrows every
home is discarded, with REFUSE_CODE 0x0D, STATE 5 and cause 1 of package source 4, and further writes are ignored, as they are once all LENGTH bytes
are there. A slot that is the home holds the staged bytes and nothing of what it held before. LOAD_STAGED_IMAGE in M3 with no load under way begins
the load of a staged image that lies in no slot. WRITE_STAGED_TO_SLOT begins the write of a whole staged image to a slot that it does not exclude and
that the running image was not loaded from, no other write being under way; an image not whole is refused with code 4. DISCARD_STAGED_IMAGE discards
the staged image. Each of these, by a master that does not hold SEM00 or out of place, only sets REFUSE_CODE 0x0F. BOOT_SEL_WRITE sets BOOT_SEL in the
register and the store. SLOT_WRITE_COMPLETE ends a slot write: the slot holds the image and reads Valid where the read-back and the image's hash
agree, else Invalid, with cause 2 of package source 3; with no slot write it changes nothing. -/
def Obligations.StagingAndSlots : Prop :=
  ∀ (s : State) (m : Master), s.quiet → s.routed →
    let ok := [Output.controlAnswer m 0 0]
    let holds := s.holdsSem m 0 = true
    let same := fun u t : State => t.staged = u.staged ∧ t.dir = u.dir ∧ t.slotWrite = u.slotWrite ∧ t.nvsOp = u.nvsOp ∧ t.rd PKG_SBS_STATUS.addr = u.rd PKG_SBS_STATUS.addr
    let does := fun (c : Instr) (u : State) => completesWith c s { u with out := ok } (same u)
    let state := fun (u : State) (n : Nat) => u.set PKG_SBS_STATUS.STATE n
    let refused := s.set PKG_SBS_STATUS.REFUSE_CODE 0x0F
    let imageRefused := fun (c : Instr) (u : State) (code : Nat) =>
      let u := (((u.set PKG_SBS_STATUS.REFUSE_CODE code).set PKG_SBS_STATUS.REFUSE_ENTRY 0xFFFF).set PKG_SBS_STATUS.STATE 5)
      completesIn eventSame c s { u with out := ok } fun t => same u t ∧ t.hasCause 4548 1
    let slot := fun (d : StoreDir) (b : Bool) (x : SlotState) => if b then { d with slotB := x } else { d with slotA := x }
    -- the directory when the staged image is discarded
    let gone := fun d : StoreDir => match s.staged.home with
      | .slotA => slot d false .invalid | .slotB => slot d true .invalid | _ => d
    let running := fun b : Bool => s.get PKG_SBS_STATUS.SOURCE = if b then 2 else 1
    (∀ o v, o < 0x1000 → o % 8 = 0 → s.reaches m true (0x3000 + o) = true →
      let c := Instr.sbsStageWrite m o v
      let x : Staged := if s.staged.active then { s.staged with home := if s.mode ≠ 3 ∧ s.staged.home = .basins then .reserve else s.staged.home }
        else { active := true, port := m.cpNumber, home := if s.mode = 3 then .basins else .reserve }
      let all := 16 ≤ x.bytes.length ∧ imgLength x.bytes ≤ x.bytes.length
      let b0 := x.bytes ++ leBytes 8 v.toNat
      let len := if 16 ≤ b0.length then imgLength b0 else 0
      let b := if 16 ≤ b0.length then b0.take (max len 16) else b0
      let need := max b.length len
      let space := match x.home with
        | .basins => min slotSize (33554432 * s.healthyDies.length)
        | .reserve => if s.sec (basinSec s.leadDie) 0 1 = 1 then 4194304 else 0
        | _ => slotSize
      let spare := fun k : Bool => ¬ running k ∧ ∀ w, s.slotWrite = some w → w.slotB ≠ k
      let moves := x.home = .reserve ∧ need ≤ slotSize ∧ ∃ k, spare k
      (¬ holds → does c refused) ∧
      (holds → s.staged.overflow = true ∨ all → does c s) ∧
      (holds → s.staged.overflow = false → ¬ all → need ≤ space → does c (state { s with staged := { x with bytes := b }, nvs := stagedNvs s.nvs x.home b } 1)) ∧
      (holds → s.staged.overflow = false → ¬ all → space < need → moves → ∃ k : Bool, spare k ∧
        does c (state { s with staged := { x with bytes := b, home := if k then .slotB else .slotA }, dir := slot s.dir k .writing, nvs := stagedNvs s.nvs (if k then .slotB else .slotA) b } 1)) ∧
      (holds → s.staged.overflow = false → ¬ all → space < need → ¬ moves →
        imageRefused c { s with staged := { overflow := true }, dir := gone s.dir } 0x0D)) ∧
    (s.writable m PKG_SBS_CTL.addr → ∀ target < 4,
      let d := { s.dir with bootSel := s.get PKG_SBS_CTL.BOOT_SEL }
      let s' := { s with dir := d }
      let aim := s'.set PKG_SBS_CTL.TARGET target
      let inSlot := s.staged.home = .slotA ∨ s.staged.home = .slotB
      let loads := s.mode = 3 ∧ s.loading = none ∧ s.staged.active = true ∧ ¬ inSlot
      let k := decide (target = 2)
      let stores := (target = 1 ∨ target = 2) ∧ s.slotWrite = none ∧ s.staged.active = true ∧
        ¬ (s.staged.home = .slotA ∧ target = 2 ∨ s.staged.home = .slotB ∧ target = 1) ∧ ¬ running k
      let whole := 16 ≤ s.staged.bytes.length ∧ imgLength s.staged.bytes ≤ s.staged.bytes.length
      let no := fun u : State => u.set PKG_SBS_STATUS.REFUSE_CODE 0x0F
      (holds → loads → does (.loadStagedImage m) (state { s' with
          staged := {}, loadOrder := [], loading := some { source := .streamed, bytes := s.staged.bytes, port := s.staged.port, validated := false } } 2)) ∧
      (¬ (holds ∧ loads) → does (.loadStagedImage m) (no s')) ∧
      (holds → stores → whole → does (.writeStagedToSlot m target) (state { aim with
          staged := {}, dir := slot d k .writing, slotWrite := some { slotB := k, image := s.staged.bytes, written := false } } 7)) ∧
      (holds → stores → ¬ whole → imageRefused (.writeStagedToSlot m target) aim 4) ∧
      (¬ (holds ∧ stores) → does (.writeStagedToSlot m target) (no aim)) ∧
      (holds → let u := { s' with staged := {}, dir := gone d }
        does (.discardStagedImage m) (if s.get PKG_SBS_STATUS.STATE = 1 then state u 0 else u)) ∧
      (¬ holds → does (.discardStagedImage m) (no s')) ∧
      does (.bootSelWrite m target) (State.set { s with dir := { s.dir with bootSel := target } } PKG_SBS_CTL.BOOT_SEL target)) ∧
    ∀ readBack,
      let c := Instr.slotWriteComplete readBack
      (s.slotWrite = none → completes c s { s with out := [] }) ∧
      (∀ w, s.slotWrite = some w →
        let good := readBack = true ∧ imageHash w.image = imgDigest w.image
        let u := fun x : SlotState => state { s with out := [], slotWrite := none, nvs := putBytes s.nvs (slotBase w.slotB) w.image, dir := slot s.dir w.slotB x } 0
        (good → completesWith c s (u .valid) (same (u .valid))) ∧
        (¬ good → completesIn eventSame c s (u .invalid) fun t => same (u .invalid) t ∧ t.hasCause 4547 2))

/-- O28. Validation and application of a full image. On a quiet state in M3 with a load under way and no partial reload (STATE is stated while no slot
write is under way), IMAGE_VALIDATION_DONE on an image not yet validated: where a check refuses it, REFUSE_CODE and REFUSE_ENTRY say why, cause 1 of
package source 4 sets, and the next image source of the order that is no slot without a Valid image is begun, but for a streamed image, which ends its
load; otherwise the image is validated, STATE is 3, MR3 is extended by its DIGEST and MR4 by the digest of each ENGINE section, and each seal request
that differs from the value in force is staged or, where its setting is exhausted, refused (SEAL_CTL). IMAGE_APPLY_COMPLETE of a validated image: the
structure is the image's alone, the package stands in M4 with STATE 4, SOURCE naming where the image came from and PARTIAL 0; every window and every
entry of the Toll Table of the part is what the image's sections say, valid where they are; every engine of a cluster that is not gated has the
image's program and runs its START handler at word 0. Otherwise the two commands change nothing (with no reload). -/
def Obligations.FullImages : Prop :=
  ∀ (s : State), s.quiet → s.reload = none →
    let nothing := fun c : Instr => completes c s { s with out := [] }
    let state := fun t : State => t.get PKG_SBS_STATUS.STATE
    (s.loading = none → nothing .imageValidationDone ∧ nothing .imageApplyComplete) ∧
    ∀ x, s.loading = some x →
      (x.validated = true ∨ s.mode ≠ 3 → nothing .imageValidationDone) ∧ (x.validated = false ∨ s.mode ≠ 3 → nothing .imageApplyComplete) ∧
      (s.mode = 3 → x.validated = false →
        (∀ code entry, s.validate x.bytes none false = some (code, entry) →
          let notValid := fun y : ImageSource => decide (y ≠ .streamed ∧ (if y = .slotA then s.dir.slotA else s.dir.slotB) ≠ .valid)
          let order := if x.source = .streamed then [] else s.loadOrder.dropWhile notValid
          let next := order.headD .streamed
          completesIn eventSame .imageValidationDone s { s with
              out := [], loadOrder := if x.source = .streamed then s.loadOrder else order.tail
              loading := if next = .streamed then none else some { source := next, bytes := s.slotImage (next = .slotB), port := 0, validated := false } } fun t =>
            t.get PKG_SBS_STATUS.REFUSE_CODE = code % 256 ∧ t.get PKG_SBS_STATUS.REFUSE_ENTRY = entry % 65536 ∧ t.hasCause 4548 1 ∧
            (s.slotWrite = none → state t = if x.source = .streamed ∨ order = [] then 5 else if next = .streamed then 6 else 2)) ∧
        (s.validate x.bytes none false = none →
          let b := x.bytes.take (imgLength x.bytes)
          let asked := (State.sealAsked { s with cfg := installImage [] b }).filter fun r => r.2 ≠ s.sealInForce r.1
          let good := asked.filter fun r => !s.sealExhausted r.1 r.2
          completesIn fenceSame .imageValidationDone s { s with out := [], loading := some { x with bytes := b, validated := true } } fun t =>
            (s.slotWrite = none → state t = 3) ∧ t.mode = 3 ∧ t.mrOf 3 = sha384 (s.mrOf 3 ++ imgDigest b) ∧
            t.mrOf 4 = (sectionsOf b [4]).foldl (fun v e => sha384 (v ++ sha384 e)) (s.mrOf 4) ∧ (∀ n, n ≠ 3 → n ≠ 4 → t.mrOf n = s.mrOf n) ∧
            (∀ k, (t.get SEAL_CTL.REFUSED).testBit k = true ↔ k < SEAL_CTL.REFUSED.width ∧ ∃ r ∈ asked, r.1 - 1 = k ∧ s.sealExhausted r.1 r.2 = true) ∧
            (good = [] → t.sealRequests = s.sealRequests ∧ t.get SEAL_CTL.TOKEN = s.get SEAL_CTL.TOKEN) ∧
            (good ≠ [] → t.sealRequests = good.map (fun r => ({ setting := r.1, new := r.2, image := (imgDigest b).take 16 } : SealRequest)) ∧
              (∀ k, (t.get SEAL_CTL.PENDING).testBit k = true ↔ k < SEAL_CTL.PENDING.width ∧ ∃ r ∈ good, r.1 - 1 = k) ∧
              t.get SEAL_CTL.TOKEN ≠ s.get SEAL_CTL.TOKEN))) ∧
      (s.mode = 3 → x.validated = true →
        let cfg := installImage [] (x.bytes.take (imgLength x.bytes))
        let new := { s with cfg := cfg }
        completesIn loadSame .imageApplyComplete s { s with secSizes := installSizes [] (x.bytes.take (imgLength x.bytes)) } fun t =>
          t.cfg = cfg ∧ t.loading = none ∧ t.mode = 4 ∧ t.hasCause 4551 0 ∧ (s.slotWrite = none → state t = 4) ∧ t.get PKG_SBS_STATUS.REFUSE_CODE = 0 ∧
          t.get PKG_SBS_STATUS.PARTIAL = 0 ∧ (x.port < 2 → t.get PKG_SBS_STATUS.SOURCE = match x.source with | .slotA => 1 | .slotB => 2 | .streamed => 3 + x.port) ∧
          t.nvs = s.nvs ∧ t.mr = s.mr ∧ t.sealRequests = s.sealRequests ∧ t.out = [] ∧
          (∀ w < 1024 * s.numClusters,
            let word := fun k : Nat => BitVec.ofNat 64 (new.sec (winSec (w / 1024)) (32 * (w % 1024) + 8 * k) 8)
            let v := (word 3).getLsbD 63
            t.get (WIN_STATE.VALID w) = (if v then 1 else 0) ∧ t.rd (WIN_BASE.addr w) = (if v then word 0 else 0) ∧ t.rd (WIN_LIMIT.addr w) = (if v then word 1 else 0) ∧
              t.rd (WIN_REMOTE.addr w) = (if v then word 2 else 0) ∧ t.rd (WIN_ATTR.addr w) = if v then word 3 else 0) ∧
          (∀ d < s.numDies, ∀ i < 16384, ∀ k < 4, t.tollWord d i k =
            if (new.sec (tollSec d) (32 * i + 30) 1).testBit 0 then BitVec.ofNat 64 (new.sec (tollSec d) (32 * i + 8 * k) 8) else 0) ∧
          ∀ te < 8 * s.numClusters, t.gated.testBit (te / 8) = false → (t.engine te).run = .running ∧ (t.engine te).pc = 0 ∧
            ∀ k < 4096, tabGet (fun _ => 0) t.program (4096 * te + k) = BitVec.ofNat 32 (new.sec (engineSec (te / 8)) (49152 * (te % 8) + 4 * k) 4))

/-- O29. A partial reload of a region from its start to its end. On a quiet state whose in-band holders have routes. START_PARTIAL_RELOAD that takes
effect, by the holder of SEM00 in M6 or M7, with a staged image outside the slots (target 0) or a Valid slot (1 or 2), the BASIN section of the
region's die enabling it: the reload of the region begins with STATE 2 in M8, a staged image is used up, and a gated fenced region is ungated; out of
place it only sets REFUSE_CODE 0x0F, in another mode REFUSED of PKG_MODE advances too. For a reload in progress in M8: IMAGE_VALIDATION_DONE refuses
the image, ends the reload and returns to the mode before it (M7 where a region is fenced, else M6), or validates it, hitless where the region is in
service and its LANE and PORT sections equal those that run; RELOAD_DRAIN_START of a validated one, while no rule-epoch fence runs, begins the drain
step with bounds republished by cause 0x7; RELOAD_DRAIN_END, when nothing admitted at the region's ports is undelivered or unanswered and no answer
has still to leave there, measures and applies the region image, with STATE 3; RELOAD_APPLY_DONE ends the reload: the region is not fenced, STATE is
4, PARTIAL 1, RELOAD_COUNT has advanced, cause 0 of package source 4 sets and the mode is left; the engines of the region run their START handler at
word 0, those of a hitless one before the items that wait. At any other stage, in another mode, or with no reload, these change nothing. -/
def Obligations.PartialReloads : Prop :=
  ∀ (s : State) (m : Master), s.quiet → s.routed →
    let nothing := fun c : Instr => completes c s { s with out := [] }
    let state := fun t : State => t.get PKG_SBS_STATUS.STATE
    let fenced := fun g => (s.get PKG_FENCE_RG.REGIONS).testBit g
    let store := fun u t : State => t.staged = u.staged ∧ t.dir = u.dir ∧ t.slotWrite = u.slotWrite ∧ t.nvsOp = u.nvsOp
    -- the mode after a reload, by whether a region is fenced then
    let back := fun f : Bool => if f = true then (if s.modes.beforeReload = 5 then 5 else 7) else if s.modes.beforeReload = 7 then 6 else s.modes.beforeReload
    (s.writable m PKG_SBS_CTL.addr → ∀ g < 16, ∀ target < 3,
      let c := Instr.startPartialReload m g target
      let d := { s.dir with bootSel := s.get PKG_SBS_CTL.BOOT_SEL }
      let u := State.set ({ s with out := [.controlAnswer m 0 0], dir := d }.set PKG_SBS_CTL.RELOAD_REGION g) PKG_SBS_CTL.TARGET target
      let usable := s.sec (basinSec (g / 4)) 0 1 = 1 ∧ if target = 0 then s.staged.active = true ∧ s.staged.home ≠ .slotA ∧ s.staged.home ≠ .slotB
        else (if target = 2 then s.dir.slotB else s.dir.slotA) = .valid
      let modeOk := s.mode = 6 ∨ s.mode = 7
      let refused := fun u : State => completesWith c s (u.set PKG_SBS_STATUS.REFUSE_CODE 0x0F) fun t => store u t ∧ t.get PKG_SBS_STATUS.REFUSE_CODE = 0x0F ∧ state t = state s
      (s.holdsSem m 0 = true → modeOk → usable →
        completesIn fenceSame c s { u with gated := if fenced g then (List.range 4).foldl (fun n k => withoutBit n (4 * g + k)) s.gated else s.gated } fun t =>
          t.reload = some { region := g, image := if target = 0 then s.staged.bytes else formRegion (s.slotImage (target = 2)) g
                            fromSlot := decide (target ≠ 0), stage := .validating, hitless := false } ∧
          store { u with staged := if target = 0 then {} else s.staged } t ∧ t.mode = 8 ∧ t.get PKG_MODE.PREV_MODE = s.mode ∧ t.modes.beforeReload = s.mode ∧ state t = 2 ∧
          t.hasCause 4551 0 ∧ .controlAnswer m 0 0 ∈ t.out) ∧
      (s.holdsSem m 0 = true → modeOk → ¬ usable → refused u) ∧
      (s.holdsSem m 0 = true → ¬ modeOk → refused (u.bump PKG_MODE.REFUSED)) ∧
      (s.holdsSem m 0 = false → refused u)) ∧
    (s.reload = none → nothing .reloadDrainStart ∧ nothing .reloadDrainEnd ∧ nothing .reloadApplyDone) ∧
    (s.mode ≠ 8 → s.reload ≠ none → ∀ c ∈ [Instr.imageValidationDone, .reloadDrainStart, .reloadDrainEnd, .reloadApplyDone], nothing c) ∧
    ∀ r, s.mode = 8 → s.reload = some r → r.region < 16 →
      let drained := (∀ o ∈ s.outstanding, ¬ (o.admitted = true ∧ o.answered = false ∧ o.port < 1024 ∧ o.port / 16 = r.region)) ∧
        ∀ w ∈ s.undelivered, let q := ((w.point :: w.path).getLast?).getD 0
          if w.pkt.isCompletion = true then ¬ (1000 ≤ q ∧ q < 2000 ∧ (q - 1000) / 16 = r.region) else ¬ (w.ingress < 256 ∧ w.ingress / 16 = r.region)
      (r.stage = .validating →
        (∀ code entry, s.validate r.image (some r.region) r.fromSlot = some (code, entry) → completesIn fenceSame .imageValidationDone s { s with out := [] } fun t =>
          t.reload = none ∧ t.get PKG_SBS_STATUS.REFUSE_CODE = code % 256 ∧ t.get PKG_SBS_STATUS.REFUSE_ENTRY = entry % 65536 ∧ state t = 5 ∧
          t.hasCause 4548 1 ∧ (s.modes.beforeReload < 16 → t.mode = back s.anyFenced)) ∧
        (s.validate r.image (some r.region) r.fromSlot = none →
          let b := r.image.take (imgLength r.image)
          completes .imageValidationDone s { s with out := [], reload := some { r with
            image := b, stage := .validated, hitless := s.sameLinks b r.region && !fenced r.region } })) ∧
      (r.stage ≠ .validating → nothing .imageValidationDone) ∧
      (r.stage = .validated → s.get TOLL_FENCE.BUSY = 0 → completesIn workSame .reloadDrainStart s { s with out := [], reload := some { r with stage := .draining } } fun t =>
        t.get PKG_BOUND.BOUND_SEQ = (s.get PKG_BOUND.BOUND_SEQ + 1) % 65536 ∧ t.get PKG_BOUND.LAST_CAUSE = 7 ∧ t.announceDue = true ∧ t.hasCause 4549 0 ∧
        ∀ p, p / 16 = r.region → p < s.numPorts → s.isPort p = true → t.get (PORT_LOCK.LOCKED p) = 0) ∧
      (r.stage ≠ .validated ∨ s.get TOLL_FENCE.BUSY = 1 → nothing .reloadDrainStart) ∧
      (r.stage = .draining → drained → r.region < s.numRegions → completesIn loadSame .reloadDrainEnd s { s with secSizes := installSizes s.secSizes r.image } fun t =>
        let new := { s with cfg := installImage s.cfg r.image }
        t.reload = some { r with stage := .applying } ∧ t.cfg = new.cfg ∧ (s.slotWrite = none → state t = 3) ∧ t.mode = s.mode ∧ t.loading = s.loading ∧ t.nvs = s.nvs ∧
        t.mrOf 5 = sha384 (s.mrOf 5 ++ sha384 (leBytes 1 r.region ++ ((imgDir r.image).flatMap fun e => e.bytes r.image))) ∧
        t.mrOf 4 = (sectionsOf r.image [4]).foldl (fun v e => sha384 (v ++ sha384 e)) (s.mrOf 4) ∧
        (∀ c < 64, r.hitless = false → c / 4 = r.region → t.clusterHeld c = true) ∧
        (∀ w, w / 4096 = r.region →
          let word := fun k : Nat => BitVec.ofNat 64 (new.sec (winSec (w / 1024)) (32 * (w % 1024) + 8 * k) 8)
          let v := (word 3).getLsbD 63
          t.get (WIN_STATE.VALID w) = (if v then 1 else 0) ∧ t.rd (WIN_BASE.addr w) = (if v then word 0 else 0) ∧ t.rd (WIN_LIMIT.addr w) = (if v then word 1 else 0) ∧
            t.rd (WIN_REMOTE.addr w) = (if v then word 2 else 0) ∧ t.rd (WIN_ATTR.addr w) = if v then word 3 else 0) ∧
        (∀ te, te / 32 = r.region → ∀ k < 4096,
          tabGet (fun _ => 0) t.program (4096 * te + k) = BitVec.ofNat 32 (new.sec (engineSec (te / 8)) (49152 * (te % 8) + 4 * k) 4)) ∧
        ∀ te, te / 32 ≠ r.region → te < 512 → ∀ k < 4096, tabGet (fun _ => 0) t.program (4096 * te + k) = tabGet (fun _ => 0) s.program (4096 * te + k)) ∧
      (r.stage ≠ .draining ∨ ¬ drained → nothing .reloadDrainEnd) ∧
      (r.stage = .applying → completesIn fenceSame .reloadApplyDone s { s with out := [] } fun t =>
        t.reload = none ∧ (∀ g < 16, t.regionFenced g = true ↔ s.regionFenced g = true ∧ g ≠ r.region) ∧ state t = 4 ∧ t.get PKG_SBS_STATUS.PARTIAL = 1 ∧
        t.get PKG_SBS_STATUS.REFUSE_CODE = 0 ∧ t.get PKG_SBS_STATUS.RELOAD_COUNT = min (s.get PKG_SBS_STATUS.RELOAD_COUNT + 1) (2 ^ PKG_SBS_STATUS.RELOAD_COUNT.width - 1) ∧
        t.hasCause 4548 0 ∧ (s.modes.beforeReload < 16 → t.mode = back t.anyFenced) ∧
        ∀ te, te / 32 = r.region →
          (r.hitless = true → (t.engine te).run = .running ∧ (t.engine te).pc = 0 ∧ (t.engine te).queue = (s.engine te).queue) ∧
          (r.hitless = false → t.clusterHeld (te / 8) = false ∧
            (s.clusterHeld (te / 8) = true → (s.engine te).run ≠ .halted → (t.engine te).run = .running ∧ (t.engine te).pc = 0))) ∧
      (r.stage ≠ .applying → nothing .reloadApplyDone)

/-- O30. A seal commit programs the fuses of every staged request; reading and extending the measurement registers. On a quiet state whose in-band
holders have routes, for a master whose write of SEAL_CTL takes effect: by a privileged control port that holds SEM01, with the token of the staged
requests, in M3 to M7 or M10, each request in order gets its entry in the seal log, marked complete, and its fuses; no request is left, PENDING is 0,
SEAL_REMAIN counts the changes left, and the values in force stay as they were. Any other commit sets cause 0 of package source 1 and changes no fuse;
that a right commit in another mode does so, that a commit is one command, and TIME_KIND of the log entry are the model's choices (log entries 32, 21
and 53). For a master whose write of PKG_MEAS_CTL takes effect: MEASUREMENT_SELECT sets SEL and puts the measurement register it names in PKG_MEAS_D0
to 5; MEASUREMENT_EXTEND latches the register of the present SEL in the same way and, by a privileged control port of the package, then extends MR7 by
the 48 bytes of PKG_MEAS_X0 to 5 and advances EXTENDS. Beside what is named a commit changes only what raising a cause may, and the other two change
nothing. -/
def Obligations.SealsAndMeasurements : Prop :=
  (∀ (s : State) (m : Master) (token : Nat), s.quiet → s.routed → s.writable m SEAL_CTL.addr → token < 65536 →
     let c := Instr.sealCommit m token
     let may := fun n => m = .cp n ∧ s.sealed.priv.testBit n = true ∧ s.holdsSem m 1 = true ∧ token = s.get SEAL_CTL.TOKEN ∧ ((3 ≤ s.mode ∧ s.mode ≤ 7) ∨ s.mode = 10)
     let commit := fun (n : Nat) (u : State) (r : SealRequest) =>
       let a := 0x10000 + 64 * u.dir.sealNext
       { u with nvs := putBytes (putBytes u.nvs a (u.sealEntry r n)) (a + 5) [1], fuses := u.fuses.program r.setting r.new true
                dir := { u.dir with sealNext := u.dir.sealNext + 1 } }
     (∀ n, may n →
       let u := s.sealRequests.foldl (commit n) s
       completesWith c s (State.set { u with out := [.controlAnswer m 0 0], sealRequests := [] } SEAL_CTL.PENDING 0) fun t =>
         t.dir = u.dir ∧ t.get SEAL_REMAIN.DOMAIN_ID = (16 - t.fuses.domain.length) % 2 ^ SEAL_REMAIN.DOMAIN_ID.width ∧
         t.get SEAL_REMAIN.RANK = (32 - t.fuses.rank.length) % 2 ^ SEAL_REMAIN.RANK.width ∧ t.get SEAL_REMAIN.FLOOR = (255 - t.fuses.floor) % 2 ^ SEAL_REMAIN.FLOOR.width ∧
         t.get SEAL_REMAIN.CEILING = (8 - t.fuses.ceiling.length) % 2 ^ SEAL_REMAIN.CEILING.width ∧
         t.get SEAL_REMAIN.PRIV = (16 - t.fuses.priv.length) % 2 ^ SEAL_REMAIN.PRIV.width) ∧
     ((∀ n, ¬ may n) → completesIn eventSame c s { s with out := [.controlAnswer m 0 0] } fun t => t.dir = s.dir ∧ t.hasCause 4545 0)) ∧
  ∀ (s : State) (m : Master) (sel : Nat), s.writable m PKG_MEAS_CTL.addr → sel < 8 →
    let latched := fun (u : State) (n : Nat) => (List.range 6).foldl (fun (u : State) k => u.set (PKG_MEAS_D.VALUE k) (leNat (((s.mrOf n).drop (8 * k)).take 8)))
      { u with out := [.controlAnswer m 0 0] }
    let u := latched s (s.get PKG_MEAS_CTL.SEL)
    let may := ∃ n, m = .cp n ∧ s.sealed.priv.testBit n = true
    let x := (List.range 6).flatMap fun k => leBytes 8 (s.get (PKG_MEAS_X.VALUE k))
    completes (.measurementSelect m sel) s (latched (s.set PKG_MEAS_CTL.SEL sel) sel) ∧
    (may → completes (.measurementExtend m) s { u.bump PKG_MEAS_CTL.EXTENDS with mr := tabPut (fun _ => List.replicate 48 0) s.mr 7 (sha384 (s.mrOf 7 ++ x)) }) ∧
    (¬ may → completes (.measurementExtend m) s u)

/-- O31. Reads and writes of store blocks. On a quiet state whose in-band holders have routes, for a master whose write of PKG_NVS_CTL takes effect:
by the control port that holds SEM00, with no operation under way, NVS_BLOCK_READ begins the read of the block with STATUS 1; NVS_BLOCK_WRITE begins
the write of the bytes of PKG_NVS_DATA0 to 7 to a block of the integrator area, or of the firmware bank that was not booted unless the write would
give it an SVN below FLOOR; a block of the booted bank or such an SVN is refused with STATUS 2 and REFUSE_CODE 0x0F, any other block with STATUS 2.
While an operation is under way only BLOCK changes; another master changes nothing. The first write of a block of a bank opens the write of that bank,
which notes when its first block has been written and that every block so far was. NVS_OPERATION_COMPLETE ends the operation: a good write puts the
bytes, a good read puts the block's bytes in PKG_NVS_DATA0 to 7 (those of the store directory are free values, log entry 14), with STATUS 0; a read
that fails sets STATUS 3 and cause 1 of package source 3, a write that fails cause 2 with a STATUS left free (log entry 10). With no operation it
changes nothing. When its holder writes SEM00, the write of a bank ends (log entry 56): the bank is no longer marked Invalid where its first block and
every block asked for were written and none is under way. -/
def Obligations.StoreProcedure : Prop :=
  ∀ (s : State) (m : Master), s.quiet → s.routed →
    let ok := [Output.controlAnswer m 0 0]
    let same := fun u t : State => t.staged = u.staged ∧ t.dir = u.dir ∧ t.slotWrite = u.slotWrite ∧ t.nvsOp = u.nvsOp ∧
      t.rd PKG_SBS_STATUS.addr = u.rd PKG_SBS_STATUS.addr ∧ t.rd PKG_NVS_CTL.addr = u.rd PKG_NVS_CTL.addr ∧ t.bankWrite = u.bankWrite
    let does := fun (c : Instr) (u : State) => completesWith c s { u with out := ok } (same u)
    let status := fun (u : State) (n : Nat) => u.set PKG_NVS_CTL.STATUS n
    (s.writable m PKG_NVS_CTL.addr → ∀ block < 2 ^ 21,
      let may := (∃ n, m = .cp n) ∧ s.holdsSem m 0 = true
      let at_ := s.set PKG_NVS_CTL.BLOCK block
      let data := (List.range 8).flatMap fun k => leBytes 8 (s.get (PKG_NVS_DATA.DATA k))
      let a := 64 * block
      let inBank := 0x00800000 ≤ a ∧ a < 0x01000000
      let bank := decide (0x00C00000 ≤ a)
      let booted := s.get PKG_FW.BANK = if bank then 1 else 0
      let low := (a = 0x00800000 ∨ a = 0x00C00000) ∧ (data.getD 4 0).toNat < s.sealed.floor
      let integrator := 0x00020000 ≤ a ∧ a < 0x00800000
      let free := s.get PKG_NVS_CTL.STATUS ≠ 1
      (¬ may → does (.nvsBlockRead m block) s ∧ does (.nvsBlockWrite m block) s) ∧
      (may → ¬ free → does (.nvsBlockRead m block) at_ ∧ does (.nvsBlockWrite m block) at_) ∧
      (may → free →
        does (.nvsBlockRead m block) (status { at_ with nvsOp := some { write := false, block := block, data := data } } 1) ∧
        (integrator ∨ (inBank ∧ ¬ booted ∧ ¬ low) →
          does (.nvsBlockWrite m block) (status { at_ with
            nvsOp := some { write := true, block := block, data := data }
            bankWrite := if inBank ∧ s.bankWrite = none then some { bank := bank } else s.bankWrite } 1)) ∧
        (inBank ∧ (booted ∨ low) → does (.nvsBlockWrite m block) (status (at_.set PKG_SBS_STATUS.REFUSE_CODE 0x0F) 2)) ∧
        (¬ integrator → ¬ inBank → does (.nvsBlockWrite m block) (status at_ 2)))) ∧
    (s.nvsOp = none → ∀ good, completes (.nvsOperationComplete good) s { s with out := [] }) ∧
    ∀ op, s.nvsOp = some op →
      let done := { s with out := [], nvsOp := none }
      let a := 64 * op.block
      let inBank := 0x00800000 ≤ a ∧ a < 0x01000000
      (op.write = true →
        (completesWith (.nvsOperationComplete true) s (status { done with nvs := putBytes s.nvs a op.data } 0) fun t =>
          t.nvsOp = none ∧ t.staged = s.staged ∧ t.get PKG_NVS_CTL.STATUS = 0 ∧
          (¬ inBank → t.dir = s.dir ∧ t.bankWrite = s.bankWrite) ∧
          (inBank → (∀ k, k ∈ t.dir.fwWritten ↔ k ∈ s.dir.fwWritten ∨ k = op.block) ∧ t.dir = { s.dir with fwWritten := t.dir.fwWritten } ∧
            t.bankWrite = s.bankWrite.map fun w => { w with first := w.first || decide (a = 0x00800000 ∨ a = 0x00C00000) })) ∧
        completesIn eventSame (.nvsOperationComplete false) s done fun t => t.nvsOp = none ∧ t.dir = s.dir ∧ t.hasCause 4547 2 ∧
          t.bankWrite = if inBank then s.bankWrite.map fun w => { w with good := false } else s.bankWrite) ∧
      (op.write = false →
        (∃ word : Nat → Nat, (1024 ≤ op.block → ∀ k < 8, word k = leNat ((List.range 8).map fun i => s.storeByte (a + 8 * k + i))) ∧
          completesWith (.nvsOperationComplete true) s (status ((List.range 8).foldl (fun (u : State) k => u.set (PKG_NVS_DATA.DATA k) (word k)) done) 0) fun t =>
            t.nvsOp = none ∧ t.dir = s.dir ∧ t.get PKG_NVS_CTL.STATUS = 0) ∧
        completesIn eventSame (.nvsOperationComplete false) s (status done 3) fun t =>
          t.nvsOp = none ∧ t.dir = s.dir ∧ t.get PKG_NVS_CTL.STATUS = 3 ∧ t.hasCause 4547 1) ∧
    ∀ v, m.acquires = true → s.holdsSem m 0 = true → s.reaches m true (SEM.addr 0) = true → ∃ t, exec (.semaphoreWrite m 0 v) s = .next t ∧ t.bankWrite = none ∧
      t.dir = match s.bankWrite with
        | some w => if w.first = true ∧ w.good = true ∧ s.nvsOp = none then (if w.bank then { s.dir with bankInvalid1 := false } else { s.dir with bankInvalid0 := false }) else s.dir
        | none => s.dir

/-- O32. DRAIN, RESUME, MAINT and RESET. For a master whose write of PKG_MODE_CTL takes effect, outside M11: DRAIN by a privileged port in M5, M6 or M7 enters
M9 with DRAINED 0; RESUME by one in M9 returns to the mode before the drain, M7 where a region is fenced, with DRAINED 0; MAINT by a privileged
control port of the package in M3, or in M9 with DRAINED 1, enters M10, extends MR6 by the digest of the port and the time, and shows MAINT; entry to
a mode sets PREV_MODE, advances CHANGES and sets cause 0 of package source 7. Any other such write only advances REFUSED, and in M11 these three
change nothing. RESET with the key by a privileged port is due 10 us later, with the source of its sender, unless a reset is already due; otherwise it
advances REFUSED. On a quiet state in M9, DRAIN_COMPLETE sets DRAINED when no admitted request is undelivered or unanswered; otherwise it changes
nothing. -/
def Obligations.ModeCommands : Prop :=
  ∀ (s : State) (m : Master),
    let ok := [Output.controlAnswer m 0 0]
    let may := match m with
      | .cp n => s.sealed.priv.testBit n = true
      | .inband id p => s.privileged (.inband id p) = true
      | _ => False
    let entry := fun (k : Nat) (u : State) => if u.mode = k then u
      else ((State.set { u with modes := { u.modes with since := u.now } } PKG_MODE.PREV_MODE u.mode).set PKG_MODE.MODE k).bump PKG_MODE.CHANGES
    let enters := fun (same : State → State → Prop) (c : Instr) (k : Nat) (u : State) =>
      completesIn same c s (entry k { u with out := ok }) fun t => u.mode ≠ k → t.hasCause 4551 0
    let refused := fun c : Instr => completes c s { s.bump PKG_MODE.REFUSED with out := ok }
    let nothing := fun c : Instr => completes c s { s with out := ok }
    (s.writable m PKG_MODE_CTL.addr →
      (s.mode = 11 → nothing (.modeDrain m) ∧ nothing (.modeResume m) ∧ nothing (.modeMaint m)) ∧
      (s.mode ≠ 11 →
        (may → 5 ≤ s.mode → s.mode ≤ 7 →
          enters eventSame (.modeDrain m) 9 (State.set { s with modes := { s.modes with beforeDrain := s.mode } } PKG_MODE.DRAINED 0)) ∧
        (¬ (may ∧ 5 ≤ s.mode ∧ s.mode ≤ 7) → refused (.modeDrain m)) ∧
        (may → s.mode = 9 → enters workSame (.modeResume m)
          (if s.get PKG_FENCE_RG.REGIONS ≠ 0 ∧ s.modes.beforeDrain ≠ 5 then 7 else s.modes.beforeDrain) (s.set PKG_MODE.DRAINED 0)) ∧
        (¬ (may ∧ s.mode = 9) → refused (.modeResume m)) ∧
        (∀ n, m = .cp n →
          let maint := may ∧ (s.mode = 3 ∨ (s.mode = 9 ∧ s.get PKG_MODE.DRAINED = 1))
          (maint → enters eventSame (.modeMaint m) 10 (State.setFlag { s with
              mr := tabPut (fun _ => List.replicate 48 0) s.mr 6 (sha384 (s.mrOf 6 ++ sha384 (leBytes 1 n ++ leBytes 8 s.now)))
              modes := { s.modes with holder := n } } (PKG_CP_STATE.MAINT n) true)) ∧
          (¬ maint → refused (.modeMaint m))) ∧
        ((∀ n, m ≠ .cp n) → refused (.modeMaint m))) ∧
      ∀ key < 256,
        let c := Instr.modeReset m key
        (¬ (may ∧ key = 0xC3) → refused c) ∧
        (may → key = 0xC3 → s.modes.resetSource ≠ 0 → nothing c) ∧
        (may → key = 0xC3 → s.modes.resetSource = 0 → completes c s { s with
          out := ok, modes := { s.modes with resetDue := s.now + 160000, resetSource := match m with | .cp _ => 3 | _ => 4 } })) ∧
    (s.quiet →
      let drained := (∀ o ∈ s.outstanding, o.admitted = true → o.answered = true) ∧ s.undelivered = []
      (s.mode = 9 → drained → completes .drainComplete s { s.set PKG_MODE.DRAINED 1 with out := [] }) ∧
      (¬ (s.mode = 9 ∧ drained) → completes .drainComplete s { s with out := [] }))

/-- O33. From M4 to the joined domain. On a quiet state, BRINGUP_COMPLETE in M4, when every port of the structure is in Active or L0 or stands by, and
BRINGUP_TIMEOUT in M4, at M4 entry + 100 ms at the earliest, enter M5 with PORTS set in JOIN, and the package's BIND records for every other rank they
name leave for that rank's lead, eight to a packet; a package without a BF port presents no unmatched binding. CLAIM_WINDOW_EXPIRY in M5 stands at M5
entry + 3 ms at the earliest and sets CLAIMS unless a conflict was lost. JOIN_WAIT_EXPIRY in M5 either stands, for each BF neighbour in Active that
has announced no bounds, at 10 ms after its port reached Active at the earliest, takes exactly those for peers beside the peers there were,
republishes by cause 0x9 where there are any, and sets BOUNDS; or stands at M5 entry + 10 ms at the earliest, sets BINDS, and presents no binding that
no BIND set of the rank it names has matched. JOIN_COMPLETE in M5 when JOIN shows all six conditions enters M6, or M7 where a region is fenced. Entry
to a mode sets PREV_MODE, advances CHANGES and sets cause 0 of package source 7. After each, the bits of JOIN are those that follow from Table 14-8.
In any other mode these change nothing, but that JOIN_COMPLETE shows the conditions; with one missing it does no more. -/
def Obligations.JoiningTheDomain : Prop :=
  ∀ (s : State), s.quiet →
    let nothing := fun c : Instr => completes c s { s with out := [] }
    let join := fun t : State => t.get PKG_MODE.JOIN
    let entered := fun (k : Nat) (t : State) => t.mode = k ∧ t.get PKG_MODE.PREV_MODE = s.mode ∧
      t.get PKG_MODE.CHANGES = min (s.get PKG_MODE.CHANGES + 1) (2 ^ PKG_MODE.CHANGES.width - 1) ∧ t.hasCause 4551 0
    let up := ∀ p < s.numPorts, s.isPort p = true → s.asleep p = true ∨ if s.isBf p = true then s.get (PORT_LINK.LL_STATE p) = 2 else s.get (PORT_PCIE.LINK_STATE p) = 3
    -- part i of the records for rank r, as the Management packet that carries it
    let bind := fun (t : State) (r i : Nat) => let recs := s.bindsFor r
      ∃ x ∈ t.outbox, x.ptype = 0xA ∧ x.sub = 0x11 ∧ x.vc = 3 ∧ x.cls = 0 ∧ x.src = s.fabricId 780 ∧ x.dest = 1024 * r + 780 ∧
        x.addr = i * 65536 + (recs.length + 7) / 8 ∧ x.payload = ((recs.drop (8 * i)).take 8).flatMap id
    let joins := fun (c : Instr) (u : State) => ∃ hidden, (∀ h, h ∈ hidden ↔ h ∈ s.hidden ∨ (s.bfPorts = [] ∧ s.unmatched h)) ∧
      completesIn fenceSame c s { u with out := [], hidden := hidden } fun t =>
        entered 5 t ∧ join t = s.joinFollows (join s ||| 32) ∧ t.modes.since = u.now ∧
        ∀ b ∈ s.bindRecs, ∀ r, s.bindRank b = some r → r ∈ t.modes.bindsTo ∧ ∀ i, 8 * i < (s.bindsFor r).length → bind t r i
    let shows := fun (w : State) (n : Nat) => ({ w.set PKG_MODE.JOIN (s.joinFollows n) with out := [] } : State)
    (s.mode = 4 → up → joins .bringupComplete s) ∧ (¬ (s.mode = 4 ∧ up) → nothing .bringupComplete) ∧
    (s.mode = 4 → joins .bringupTimeout (s.waitUntil (s.modes.since + 1600000000))) ∧ (s.mode ≠ 4 → nothing .bringupTimeout) ∧
    (s.mode ≠ 5 → nothing .claimWindowExpiry ∧ nothing (.joinWaitExpiry true) ∧ nothing (.joinWaitExpiry false)) ∧
    (s.mode = 5 →
      completes .claimWindowExpiry s (shows (s.waitUntil (s.modes.since + 48000000)) (if s.modes.joinLost = true then join s else join s ||| 4)) ∧
      (let silent := s.bfPorts.filter fun p => s.bfUp p && !s.boundsSeen p
       let w := silent.foldl (fun (u : State) p => u.waitUntil ((s.link p).activeAt + 160000000)) s
       completesIn workSame (.joinWaitExpiry true) s (shows w (join s ||| 1)) fun t =>
         (∀ p, t.isPeer p = true ↔ s.isPeer p = true ∨ p ∈ silent) ∧
         (silent ≠ [] → t.get PKG_BOUND.BOUND_SEQ = (s.get PKG_BOUND.BOUND_SEQ + 1) % 65536 ∧ t.get PKG_BOUND.LAST_CAUSE = 9 ∧ t.announceDue = true ∧ t.hasCause 4549 0)) ∧
      ∃ hidden, (∀ h, h ∈ hidden ↔ h ∈ s.hidden ∨ s.unmatched h) ∧
        completesIn workSame (.joinWaitExpiry false) s { shows (s.waitUntil (s.modes.since + 160000000)) (join s ||| 2) with hidden := hidden } fun t => t.mode = 5) ∧
    let u := shows s (join s)
    (s.mode = 5 → s.joinFollows (join s) = 63 → completesIn eventSame .joinComplete s
      (State.bump (((State.set { u with modes := { s.modes with since := s.now } } PKG_MODE.PREV_MODE 5).set PKG_MODE.MODE (if s.get PKG_FENCE_RG.REGIONS ≠ 0 then 7 else 6))) PKG_MODE.CHANGES)
      fun t => t.hasCause 4551 0) ∧
    (¬ (s.mode = 5 ∧ s.joinFollows (join s) = 63) → completes .joinComplete s u)

/-- O34. CLAIM and BIND between the leads of a domain. On a quiet state, CLAIM_SEND in M5, M6 or M7 stands a period after the last (1 ms in M5, else
100 ms) at the earliest and puts one CLAIM on every BF port in Active, with the package's serial number, its next claim number, whether it has joined,
its rank and the partitions it hosts; in other modes it changes nothing. CLAIM_RECEIVE of a CLAIM not seen before, this package's own among the seen,
at a BF port in Active notes it, passes it on to the other BF ports in Active below 14 hops, and, from another package, notes which rank hosts its
partitions; an equal rank sets cause 0 of package source 2, a common partition cause 1, and in M5 the package that has not joined and does not have
the lower serial number loses: CLAIMS clears. JOIN shows what follows from Table 14-8. BIND_RECEIVE of a part of a BIND set from another rank keeps
it; with all parts there the set is complete: its rank counts as arrived, each record here that names the rank is presented when the set has it with
the same content and hidden, with cause 5 of its port's PCI Express source, when not, and no other record changes; this package's own records may
leave in answer (log entry 38). Any other packet changes nothing. -/
def Obligations.ClaimsAndBinds : Prop :=
  ∀ (s : State) (p : Nat) (k : Packet), s.quiet →
    let nothing := fun c : Instr => completes c s { s with out := [] }
    let active := s.bfPorts.filter s.bfUp
    let dest := fun q => match (s.link q).partner with
      | some i => i.sender / 1024 * 1024 + 780
      | none => 0
    let joined := 6 ≤ s.mode ∧ s.mode ≠ 11 ∧ ¬ (s.mode = 10 ∧ s.get PKG_MODE.PREV_MODE = 3)
    let hosted := s.partRecs.map fun x => x.partition
    let sent := fun (pkt : Packet) (q : Nat) => ({ point := pointPort q, pkt := { pkt with dest := dest q }, deadline := pkt.deadline, ingress := 780 } : Waiting)
    let join := fun t : State => t.get PKG_MODE.JOIN
    let claim := claimOf k.payload
    let pair := (claim.serial, claim.no)
    let taken := s.bfUp p = true ∧ k.ptype = 0xA ∧ k.sub = 0x10 ∧ k.len = 144 ∧ pair ∉ s.modes.claims ∧ ¬ (claim.serial = s.chip.serial.toNat ∧ claim.no ≤ s.modes.claimNo)
    let on := if k.hops < 14 then (active.filter (· ≠ p)).map (sent k) else []
    let noted := { s with out := [], waiting := s.waiting ++ on, modes := { s.modes with claims := s.modes.claims ++ [pair] } }
    let other := claim.serial ≠ s.chip.serial.toNat
    let ranks := claim.rank = s.rank
    let parts := ∃ n ∈ claim.partitions, n ∈ hosted
    let lost := s.mode = 5 ∧ (ranks ∨ parts) ∧ (claim.joined = true ∨ claim.serial ≤ s.chip.serial.toNat)
    let rank := k.src / 1024
    let part := k.addr / 65536 % 65536
    let count := k.addr % 65536
    let binds := s.bfUp p = true ∧ k.ptype = 0xA ∧ k.sub = 0x11 ∧ part < count ∧ k.len % 32 = 0 ∧ k.len ≠ 0 ∧ k.len ≤ 256 ∧ rank ≠ s.rank
    let x : BoundsSet := tabGet (fun _ => {}) s.bindSets rank
    let x : BoundsSet := if x.count = count then x else { count := count }
    let x := { x with parts := x.parts.filter (fun y => y.1 ≠ part) ++ [(part, k.payload)] }
    let whole := ∀ i < count, ∃ y ∈ x.parts, y.1 = i
    let bytes := (List.range count).flatMap fun i => (x.parts.find? fun y => y.1 = i).elim [] (·.2)
    let recs := (List.range (bytes.length / 32)).map fun i => (bytes.drop (32 * i)).take 32
    let core := fun b : List Byte => b.take 14 ++ b.drop 16
    let mineBy := fun (bindPu : Tab Nat) i b => s.bindBytes[i]? = some b ∧ State.bindRank { s with bindPu := bindPu } (bindRecOf b) = some rank
    let found := fun b => ∃ y ∈ recs, core y = core b
    (s.mode = 5 ∨ s.mode = 6 ∨ s.mode = 7 →
      let w := match s.modes.claimAt with
        | some t0 => s.waitUntil (t0 + if s.mode = 5 then 16000000 else 1600000000)
        | none => s
      ∃ c : Packet, c.ptype = 0xA ∧ c.sub = 0x10 ∧ c.len = 144 ∧ c.src = s.fabricId 780 ∧ c.deadline = w.now % 2 ^ 48 ∧ c.hops = 0 ∧
        ((∀ n ∈ hosted, n < 1024) → (claimOf c.payload).serial = s.chip.serial.toNat ∧ (claimOf c.payload).no = (s.modes.claimNo + 1) % 2 ^ 32 ∧
          ((claimOf c.payload).joined = true ↔ joined) ∧ (claimOf c.payload).rank = s.rank % 64 ∧ ∀ n, n ∈ (claimOf c.payload).partitions ↔ n ∈ hosted) ∧
        completes .claimSend s { w with
          out := [], waiting := s.waiting ++ active.map (sent c), modes := { s.modes with claimNo := s.modes.claimNo + 1, claimAt := some w.now } }) ∧
    (¬ (s.mode = 5 ∨ s.mode = 6 ∨ s.mode = 7) → nothing .claimSend) ∧
    (¬ taken → nothing (.claimReceive p k)) ∧
    (taken → ¬ other → completes (.claimReceive p k) s noted) ∧
    (taken → other →
      let hosts := claim.partitions.foldl (fun t n => tabPut (fun _ => 0) t n (claim.rank + 1)) s.hosts
      completesIn eventSame (.claimReceive p k) s (State.set { noted with
          hosts := hosts, modes := { noted.modes with joinLost := if lost then true else s.modes.joinLost } } PKG_MODE.JOIN
            (State.joinFollows { s with hosts := hosts } (if lost ∧ (join s).testBit 2 = true then join s - 4 else join s))) fun t =>
        (ranks → t.hasCause 4546 0) ∧ (parts → t.hasCause 4546 1)) ∧
    (¬ binds → nothing (.bindReceive p k)) ∧
    (binds → ¬ whole → completes (.bindReceive p k) s { s with out := [], bindSets := tabPut (fun _ => {}) s.bindSets rank x }) ∧
    (binds → whole → ∃ bindPu hidden bindsTo,
      let from_ := if s.modes.bindsFrom.contains rank then s.modes.bindsFrom else rank :: s.modes.bindsFrom
      let mine := mineBy bindPu
      (∀ n, (∀ b ∈ recs, (bindRecOf b).partition ≠ n) → tabGet (fun _ => 0) bindPu n = tabGet (fun _ => 0) s.bindPu n) ∧
      (∀ i b, mine i b → found b → (i, 0) ∉ hidden) ∧ (∀ i b, mine i b → ¬ found b → (i, 0) ∈ hidden) ∧
      (∀ h, (∀ i b, mine i b → h ≠ (i, 0)) → (h ∈ hidden ↔ h ∈ s.hidden)) ∧
      (∀ r, r ∈ s.modes.bindsTo → r ∈ bindsTo) ∧
      completesIn workSame (.bindReceive p k) s (State.set { s with
          out := [], bindSets := tabPut (fun _ => {}) s.bindSets rank {}, bindPu := bindPu, hidden := hidden
          modes := { s.modes with bindsTo := bindsTo, bindsFrom := from_ } }
          PKG_MODE.JOIN (State.joinFollows { s with bindPu := bindPu, modes := { s.modes with bindsFrom := from_ } } (join s))) fun t =>
        ∀ i b q, mine i b → ¬ found b → State.mismatchPort { s with bindPu := bindPu } (bindRecOf b) = some q → t.hasCause (64 * (q / 4) + 16 + q % 4) 5)

/-- O35. What a power sample of a die shows and sets off. On a quiet state in M2 or later, POWER_SAMPLE of a healthy present die: TJ_MAX is the
highest of its (at most 20) temperatures, HOT_SENSOR the first that reads it, TJ_PEAK the highest so far; POWER is the mean of the last ten samples,
SHARE the die's part of the cap, and OVER_SHARE says whether the mean lies above it. Reaching T_WARN sets cause 1 of die source 7, and its LIVE bit
follows. The die begins to throttle when TJ_MAX reaches T_THROTTLE or the mean lies above the share, with THROTTLES advancing, cause 2 and its LIVE
bit, and, where that makes a bound in force longer, its BF ports of POLICY 2 planned to sleep; it ends when TJ_MAX has stayed 3 degrees below
T_THROTTLE, and the mean within the share, for 10 ms, the plans withdrawn. At T_TRIP THERMTRIP_B is driven low and the mode is M11, with cause 3 when
it is reached. The sample is offered to the die's telemetry stream, which takes it or, full, counts it dropped; its layout and capacity are the
model's choice (log entry 45). In M1 a present die with a sensor at T_TRIP drives THERMTRIP_B low again. Otherwise the sample changes nothing. -/
def Obligations.PowerSamples : Prop :=
  ∀ (s : State) (d power : Nat) (temps : List Nat), s.quiet →
    let c := Instr.powerSample d power temps
    let shownTemps := (temps.take 20).map fun x => min x 255
    let tj := shownTemps.foldl max 0
    let l := tabGet (fun _ => ([] : List Nat)) s.powerSamples d ++ [power]
    let last := l.drop (l.length - 10)
    let mean := last.foldl (· + ·) 0 / last.length
    let cap := if s.sec powerSec 0 2 = 0 then (if s.chip.fb512 then 720 else 350) else s.sec powerSec 0 2
    let share := 100 * cap / s.healthyDies.length
    let hot := s.get (DIE_THERM.T_THROTTLE d) ≤ tj ∨ share < mean
    let cool := ¬ hot ∧ tj + 3 ≤ s.get (DIE_THERM.T_THROTTLE d)
    let on := s.get (DIE_PWR.THROTTLING d) = 1
    let since := tabGet (fun _ => (none : Option Nat)) s.coolSince d
    let long := ∃ x, since = some x ∧ x + 160000000 ≤ s.now
    let begins := hot ∧ ¬ on
    let ends := on ∧ cool ∧ long
    let since' := if hot ∨ (on ∧ (¬ cool ∨ long)) then none else if on then some (since.getD s.now) else since
    let trips := s.get (DIE_THERM.T_TRIP d) ≤ tj
    let live := fun (t : State) k => (t.get (EVT_SRC_A.LIVE (4096 + 112 * d + 7))).testBit k = true
    let u := (((s.set (DIE_THERM.TJ_MAX d) tj).set (DIE_THERM.HOT_SENSOR d) (shownTemps.findIdx fun x => x = tj)).set (DIE_THERM.TJ_PEAK d) (max (s.get (DIE_THERM.TJ_PEAK d)) tj))
    let u := ((u.set (DIE_PWR.POWER d) (min mean 65535)).set (DIE_PWR.SHARE d) (min share 65535)).set (DIE_PWR.OVER_SHARE d) (if share < mean then 1 else 0)
    let u := if begins then (u.set (DIE_PWR.THROTTLING d) 1).bump (DIE_PWR.THROTTLES d) else if ends then u.set (DIE_PWR.THROTTLING d) 0 else u
    let longer := u.lengthens = true
    let stream := fun t : State => t.queue (.power d)
    let u := { u with out := [], powerSamples := tabPut (fun _ => []) s.powerSamples d last, coolSince := tabPut (fun _ => none) s.coolSince d since' }
    (2 ≤ s.mode → s.healthy d = true → d < s.numDies → completesIn fenceSame c s u fun t =>
      (stream t).offered = (stream s).offered + 1 ∧
      ((stream s).items.length < Config.powerStream → (stream t).items = (stream s).items ++ [.entry (power :: shownTemps)] ∧ (stream t).dropped = (stream s).dropped) ∧
      (Config.powerStream ≤ (stream s).items.length → (stream t).dropped = (stream s).dropped + 1) ∧
      (s.get (DIE_THERM.TJ_MAX d) < s.get (DIE_THERM.T_WARN d) → s.get (DIE_THERM.T_WARN d) ≤ tj → t.hasCause (4096 + 112 * d + 7) 1) ∧
      (live t 1 ↔ s.get (DIE_THERM.T_WARN d) ≤ tj) ∧ (live t 3 ↔ trips) ∧ (begins → t.hasCause (4096 + 112 * d + 7) 2 ∧ live t 2) ∧ (ends → ¬ live t 2) ∧
      (begins → longer → ∀ p ∈ s.bfPorts, portDie p = d → s.policy p = 2 → .sleep p ∈ t.planned) ∧
      (begins → ¬ longer → ∀ p, .sleep p ∈ t.planned → .sleep p ∈ s.planned) ∧
      (ends → ∀ p, portDie p = d → .sleep p ∉ t.planned) ∧
      (trips → t.mode = 11 ∧ .pin pinThermtrip false ∈ t.out ∧ (s.get (DIE_THERM.TJ_MAX d) < s.get (DIE_THERM.T_TRIP d) → t.hasCause (4096 + 112 * d + 7) 3)) ∧
      (¬ trips → t.mode = s.mode ∧ .pin pinThermtrip false ∉ t.out)) ∧
    let still := s.mode = 1 ∧ d < s.numDies ∧ ∃ x ∈ temps.take 20, s.get (DIE_THERM.T_TRIP d) ≤ x
    (still → completes c s { s with out := [.pin pinThermtrip false] }) ∧
    (¬ still → ¬ (2 ≤ s.mode ∧ s.healthy d = true ∧ d < s.numDies) → completes c s { s with out := [] })

/-- O36. Standby ports wake, and a fenced region is gated. For a master whose write of PORT_WAKE takes effect: a port in standby, in M4 to M10, is in service
from then on, with STANDBY and SLEEP 0, and where nothing holds it Quiet its lanes power up, the lanes of a BF port that were Quiet training from
Lock; any other PORT_WAKE changes nothing. On a quiet state, REGION_FENCE_DRAIN_END of a fenced region that is not being reloaded, when no packet
waits for its ports, gates its clusters: their counters, selections, programs and data are zero, their engines stop, their clocks stop at every
crossing, and the lanes of the region's ports are Off; otherwise it changes nothing. -/
def Obligations.WakingAndGating : Prop :=
  ∀ (s : State) (m : Master) (p g : Nat), p < 256 → g < 16 →
    let standby := s.get (PORT_WAKE.STANDBY p) = 1 ∧ 4 ≤ s.mode ∧ s.mode ≤ 10
    let trains := s.portDark p = false ∧ s.modes.refclkBad.testBit (p / 16) = false ∧
      ¬ (s.isBf p = true ∧ s.get (PORT_CONTAIN.CONTAINED p) = 1) ∧ ¬ (s.isPd p = true ∧ s.get (PORT_DPC.CONTAINED p) = 1)
    (s.writable m (PORT_WAKE.addr p) →
      (standby → completesIn workSame (.portWake m p) s { (s.set (PORT_WAKE.STANDBY p) 0).set (PORT_WAKE.SLEEP p) 0 with
          out := [.controlAnswer m 0 0], woken := if s.woken.contains p then s.woken else s.woken ++ [p] } fun t =>
        t.out = [.controlAnswer m 0 0] ∧ t.get (PORT_WAKE.STANDBY p) = 0 ∧ ∀ l ∈ s.portLanes p, t.get (LN_STATE.TRAIN_STATE l) =
          if ¬ trains then s.get (LN_STATE.TRAIN_STATE l) else if s.isBf p then max 1 (s.get (LN_STATE.TRAIN_STATE l)) else 6) ∧
      (¬ standby → completes (.portWake m p) s { s with out := [.controlAnswer m 0 0] })) ∧
    (s.quiet →
      let last := fun w : Waiting => ((w.point :: w.path).getLast?).getD 0
      let busy := ∃ w ∈ s.waiting, ∃ q, last w = 1000 + q ∧ q < 1000 ∧ q / 16 = g
      let gates := s.regionFenced g = true ∧ ¬ busy ∧ ∀ r, s.reload = some r → r.region ≠ g
      (gates → completesIn loadSame (.regionFenceDrainEnd g) s { s with out := [] } fun t =>
        t.gated = (List.range 4).foldl (fun n k => withBit n (4 * g + k)) s.gated ∧ t.loading = s.loading ∧ t.cfg = s.cfg ∧ t.beyond64 = s.beyond64 ∧ t.mode = s.mode ∧
        (∀ a, ¬ workReg a → (∀ c, c / 4 = g → ¬ (PMON_CL_SEL.addr c 0 ≤ a ∧ a < PMON_CL_CTR.addr c 32) ∧ a ≠ PMON_CL_CTL.addr c ∧ a ≠ PMON_CL_HI.addr c) → t.rd a = s.rd a) ∧
        (∀ q, q / 16 = g → q < s.numPorts → s.isPort q = true → ∀ l ∈ s.portLanes q, t.get (LN_STATE.TRAIN_STATE l) = 0) ∧
        ∀ c, c / 4 = g → s.gated.testBit c = false →
          (∀ n < 32, t.rd (PMON_CL_SEL.addr c n) = 0 ∧ t.rd (PMON_CL_CTR.addr c n) = 0) ∧ (∀ x < 14, (t.crossing (16 * c + x)).nearStopped = true) ∧
          ∀ te, te / 8 = c → (t.engine te).run = .stalled ∧ (t.engine te).queue = [] ∧
            (∀ k < 4096, tabGet (fun _ => 0) t.program (4096 * te + k) = 0) ∧ ∀ k < 32768, byteAt t.dataMem (32768 * te + k) = 0) ∧
      (¬ gates → completes (.regionFenceDrainEnd g) s { s with out := [] }))

/-- O37. Counters, gathers, the selection of a ledger, a new eye contour, and the lock registers of a PD port. For a master whose write of PMON_CL_CTL
takes effect, COUNTERS_ALL_ON enables every counter of the cluster outside its slot set that has an event or is chained, and COUNTERS_ALL_OFF disables
every counter outside the slot set; nothing else of a selection changes. For a master whose read of a counter is answered, CHAINED_COUNTER_READ
answers its value and, for the even counter of a chained pair, latches the odd one in HIGH; a read of one half answers half of one sample, and one of
any other size, or of half of such an even counter, is answered UR at a control port on PCI Express and does nothing (R550). For a master whose write
of PMON_GATHER takes effect, GATHER_GO takes the masks written; when no gather is under way it sets BUSY and offers one item to the telemetry queue
for the start and one for each counter that the masks name and that is not the odd one of a chained pair. On a quiet state GATHER_COMPLETE of a gather
offers its last item, advances the batch number and clears BUSY; with none it changes nothing. For a master whose write takes effect:
TALLY_SELECT_WRITE selects a ledger of a cluster or a die and latches its TOTAL, OUT, ISSUED, RETURNED, CORRECTED and RECLAIMED in TALLY_A to TALLY_E.
EYE_TARGET_WRITE sets TARGET and starts a new contour: none is valid, CONTOURS, TOP and BOTTOM are 0 (log entry 47). PORT_LOCK_WRITE of a PD port sets
LOCKABLE, and HOLD_LIMIT where the value is 4 to 1,000; where that makes a bound in force longer, a port that becomes lockable, or a longer limit of a
lockable one, waits for SETTLE as a planned lengthening (log entry 83). -/
def Obligations.CountersAndSelections : Prop :=
  (∀ (s : State) (m : Master), 
     let ok := [Output.controlAnswer m 0 0]
     (∀ c < 64, s.writable m (PMON_CL_CTL.addr c) →
       let bound := fun n => 24 ≤ n ∧ s.get (PMON_CL_CTL.SLOTS c) = 1
       let chained := fun n => n % 2 = 1 ∧ s.get (PMON_CL_SEL.CHAIN c n) = 1
       let sel := fun (t : State) (on : Nat → Nat) => ∀ n < 32, t.rd (PMON_CL_SEL.addr c n) = (s.set (PMON_CL_SEL.ENABLE c n) (on n)).rd (PMON_CL_SEL.addr c n)
       let was := fun n => s.get (PMON_CL_SEL.ENABLE c n)
       completesWith (.countersAllOn m c) s { s with out := ok } (fun t => sel t fun n =>
         if ¬ bound n ∧ (s.get (PMON_CL_SEL.EVENT c n) ≠ 0 ∨ chained n) then 1 else was n) ∧
       completesWith (.countersAllOff m c) s { s with out := ok } fun t => sel t fun n => if bound n then was n else 0) ∧
     (∀ die i n, i < (if die then 4 else 64) → n < (if die then 64 else 32) → s.readable m (ctrAddr die i n) →
       let pair := n % 2 = 0 ∧ (s.selection die i (n + 1)).getLsbD 3 = true
       let hi := if die then PMON_DIE_HI.HIGH i else PMON_CL_HI.HIGH i
       (∀ x, x ≠ .whole → pair ∨ x = .other → completes (.chainedCounterRead ⟨m, x⟩ die i n) s { s with out := s.shortRead m }) ∧
       (¬ pair → ∀ upper, ∃ w, completesWith (.chainedCounterRead ⟨m, .half upper⟩ die i n) s { s with out := match m with
         | .cp k => if s.isI3c k then [] else [.controlAnswer m 0 (if upper = true then w / 2 ^ 32 else w % 2 ^ 32)]
         | _ => [] } fun t => w = (t.rd (ctrAddr die i n)).toNat) ∧
       ∃ w high, completesWith (.chainedCounterRead ⟨m, .whole⟩ die i n) s { if pair then s.set hi high else s with out := [.controlAnswer m 0 w] } fun t =>
         w = (t.rd (ctrAddr die i n)).toNat ∧ high = getBits (t.rd (ctrAddr die i (n + 1))) 0 48 ∧
         (die = false → t.rd (ctrAddr die i n) = s.rd (ctrAddr die i n))) ∧
     ∀ d < s.numDies,
       -- n items have been offered to the die's telemetry queue
       let offers := fun (t : State) (n : Nat) => (t.queue (.telemetry d)).offered = (s.queue (.telemetry d)).offered + n ∧
         t.get (PMON_TQ_OFFERED.VALUE d) = (t.queue (.telemetry d)).offered % 2 ^ 64
       let batch := fun (u : State) (n : Nat) => ({ u with batchSize := tabPut (fun _ => 0) s.batchSize d n } : State)
       (∀ v, s.writable m (PMON_GATHER.addr d) →
         let u := ((s.set (PMON_GATHER.CLUSTERS d) (getBits v 48 16)).set (PMON_GATHER.COUNTERS d) (getBits v 16 32)).set (PMON_GATHER.DIE d) (getBits v 3 1)
         let chained := fun c n => n % 2 = 1 ∧ (s.selection false c n).getLsbD 3 = true
         let clusters := ((List.range 16).map fun c => if v.getLsbD (48 + c) then
           ((List.range 32).filter fun n => v.getLsbD (16 + n) && decide (¬ chained (16 * d + c) n)).length else 0).foldl (· + ·) 0
         let die := if v.getLsbD 3 then ((List.range 64).filter fun n => s.get (PMON_DIE_SEL.ENABLE d n) = 1 ∧
           ¬ (n % 2 = 1 ∧ s.get (PMON_DIE_SEL.CHAIN d n) = 1)).length else 0
         (s.get (PMON_GATHER.BUSY d) = 1 → completes (.gatherGo m d v) s { u with out := ok }) ∧
         (s.get (PMON_GATHER.BUSY d) = 0 → ∃ (high : Nat → Nat) (dieHigh : Nat),
           completesIn workSame (.gatherGo m d v) s (batch ((List.range 16).foldl (fun (u : State) c => u.set (PMON_CL_HI.HIGH (16 * d + c)) (high c))
             ((u.set (PMON_GATHER.BUSY d) 1).set (PMON_DIE_HI.HIGH d) dieHigh)) (clusters + die)) fun t =>
             t.out = ok ∧ offers t (clusters + die + 1))) ∧
       (s.quiet →
         (s.get (PMON_GATHER.BUSY d) = 1 → completesIn eventSame (.gatherComplete d) s { s.set (PMON_GATHER.BUSY d) 0 with
             out := [], batchNo := tabPut (fun _ => 0) s.batchNo d ((tabGet (fun _ => 0) s.batchNo d + 1) % 4096) } fun t =>
           offers t 1) ∧
         (s.get (PMON_GATHER.BUSY d) = 0 → completes (.gatherComplete d) s { s with out := [] }))) ∧
  ∀ (s : State) (m : Master),
    let ok := [Output.controlAnswer m 0 0]
    (∀ die c index, c < (if die then 4 else 64) → index < 256 →
      let sel := if die then DIE_TALLY_SEL.addr c else CL_TALLY_SEL.addr c
      let a := if die then DIE_TALLY_A.addr c else CL_TALLY_A.addr c
      let l := s.ledger (if die then 16384 + 256 * c + index else 256 * c + index)
      let word := fun n : Nat => BitVec.ofNat 64 n
      s.writable m sel → completes (.tallySelectWrite m die c index) s { ((((((s.set ⟨sel, 0, 8⟩ index).wr a (word (l.total % 2 ^ 32 * 2 ^ 32 + l.out % 2 ^ 32))).wr
          (a + 8) (word l.issued)).wr (a + 16) (word l.returned)).wr (a + 24) (word (l.issued / 2 ^ 64 % 2 ^ 16 * 2 ^ 48 + l.returned / 2 ^ 64 % 2 ^ 16 * 2 ^ 32 +
          min l.corrected 0xFFFF * 2 ^ 16))).wr (a + 32) (word l.reclaimed)) with out := ok }) ∧
    (∀ l < 512, ∀ target < 16, s.writable m (LN_EYE.addr l) →
      completes (.eyeTargetWrite m l target) s { ((((s.set (LN_EYE.TARGET l) target).set (LN_EYE.EYE_VALID l) 0).set (LN_EYE.CONTOURS l) 0).set (LN_EYE.TOP l) 0).set
        (LN_EYE.BOTTOM l) 0 with out := ok, lanes := tabPut (fun _ => {}) s.lanes l { s.laneSt l with contour := [] } }) ∧
    ∀ p < 256, ∀ v : Word, s.writable m (PORT_LOCK.addr p) →
      let was := s.get (PORT_LOCK.HOLD_LIMIT p)
      let asked := getBits v 32 16
      let limit := if 4 ≤ asked ∧ asked ≤ 1000 then asked else was
      let on := v.getLsbD 1
      let old := s.get (PORT_LOCK.LOCKABLE p) = 1
      let u := (s.set (PORT_LOCK.HOLD_LIMIT p) limit).set (PORT_LOCK.LOCKABLE p) (if on then 1 else 0)
      let waits := ((on = true ∧ ¬ old) ∨ (on = true ∧ was < limit)) ∧ u.lengthens = true
      completesIn workSame (.portLockWrite m p v) s { s with out := ok, modes := if waits then { s.modes with settleAt := 0 } else s.modes } fun t =>
        t.rd (PORT_LOCK.addr p) = u.rd (PORT_LOCK.addr p) ∧
        (waits → t.planned = s.planned ++ (if on ∧ ¬ old then [.lockable p] else []) ++ (if on ∧ was < limit then [.holdLimit p was] else []) ∧ t.get PKG_BOUND.SETTLING = 1) ∧
        (¬ waits → t.planned = s.planned ∧ t.get PKG_BOUND.SETTLING = s.get PKG_BOUND.SETTLING)

/-- O38. Codewords, block lock, the adapter, the drift watchdog and eye scans of a lane. For a lane of the package on a quiet state whose ports have
lanes of the package. A codeword on a BF lane whose receiver is Active: with block lock, one that decodes adds its corrected symbols to LN_FEC_CORR
and its slot errors to LN_BLK_ERR (with cause 6) and its descrambled blocks are delivered; one that does not is counted in LN_FEC_UNC with cause 5 and
delivered as flagged, and the fourth in a row ends block lock with cause 0; without block lock, three valid codewords in a row in one polarity give
block lock with that polarity. A flit on an awake PCI Express lane of an active link in Flit mode advances the three counters of the lane by free
values, the last two by at most one (log entry 70). BLOCK_LOCK_ACQUIRED sets BLOCK_LOCK and POL_INV. BLOCK_LOCK_LOST clears BLOCK_LOCK and the eye
scan and sets cause 0; a lane in the mask of its port also sets cause 1, returns to Lock, is counted in DROP_COUNT and leaves the mask, or its port
retrains. ADAPTER_CHECKPOINT shows the figure of merit and, while the adapter runs, takes the values and their checkpoint; ADAPTER_IDLE_FREEZE notes
the idle input; the adapter is frozen just when a condition of R142 fails, and on freezing takes its checkpoint. The drift watchdog shows in
DRIFT_LIVE whether its condition holds on an awake lane that stays in Active or in the standard's states, and on an awake lane whose figure of merit
is low sets DRIFT_SEEN; a BF lane of the mask sets cause 2 and leaves the mask, a PCI Express port in L0 enters Recovery. A contour is taken where the
lane owns its sampler, is awake and has block lock: three eyes of 64 columns, formed from the probes of its edges by the rate of TARGET, each column
closed or with TOP 64 to 127 and BOTTOM 0 to 63 (log entry 71); a COLUMN or EYE beyond them shows 0 (log entry 88). Everything else is as the work in
progress leaves it, but that blocks of a codeword which an injection hits in their crossing are counted there, or discarded. -/
def Obligations.LaneSignals : Prop :=
  ∀ (s : State) (l : Nat), s.quiet → (∀ p < 256, s.laned p) → l < 512 →
    let nothing := fun c : Instr => completes c s { s with out := [] }
    let done := fun (c : Instr) (P : State → Prop) => completesIn workSame c s s P
    let locked := s.get (LN_STATE.BLOCK_LOCK l) = 1
    let awake := s.get (LN_STATE.RX_SLEEP l) = 0
    let x := s.laneSt l
    let e := srcLane l
    -- the blocks of a codeword go through a crossing, whose words an injection may count and discard
    let lands := fun (c : Instr) (P : State → Prop) => completesIn (wider workSame crossReg) c s s fun t =>
      P t ∧ (s.crossClear (l / 8) (l % 8) → ∀ a, crossReg a → t.rd a = s.rd a)
    (∀ symbols : List (BitVec 10),
      let c := Instr.fecCodewordReceive l symbols
      let bf := ∃ p, s.lanePort l = some p ∧ s.isBf p = true
      let line := fun inv : Bool => symbols.map fun x => if inv = true then invertSymbol x.toNat else x.toNat
      let flits := awake ∧ ∃ p, s.lanePort l = some p ∧ s.isBf p = false ∧ s.get (PORT_PCIE.DL_ACTIVE p) = 1 ∧ s.get (PORT_PCIE.FLIT p) = 1
      (¬ (bf ∧ symbols.length = 544 ∧ awake) → ¬ flits → nothing c) ∧
      (flits → ∃ fixed bad frame : Word, bad.toNat < 2 ∧ frame.toNat < 2 ∧ completes c s { ((s.wr (LN_FEC_CORR.addr l) (s.rd (LN_FEC_CORR.addr l) + fixed)).wr
        (LN_FEC_UNC.addr l) (s.rd (LN_FEC_UNC.addr l) + bad)).wr (LN_BLK_ERR.addr l) (s.rd (LN_BLK_ERR.addr l) + frame) with out := [] }) ∧
      (bf → symbols.length = 544 → awake →
        (locked → ∀ w n, rsDecode (line (s.get (LN_STATE.POL_INV l) = 1)) = some (w, n) →
          let blocks := (descrambleBlocks x.descrambler (codewordBlocks w)).1
          let errors := slotErrors (blocks.take 40) + slotErrors (blocks.drop 40)
          lands c fun t => t.rd (LN_FEC_CORR.addr l) = s.rd (LN_FEC_CORR.addr l) + BitVec.ofNat 64 n ∧
            t.rd (LN_BLK_ERR.addr l) = s.rd (LN_BLK_ERR.addr l) + BitVec.ofNat 64 errors ∧ (errors ≠ 0 → t.hasCause e 6) ∧
            .blocksIn l blocks (slotFlags blocks) ∈ t.out ∧ t.get (LN_STATE.BLOCK_LOCK l) = 1 ∧ (t.laneSt l).badRun = 0) ∧
        (locked → rsDecode (line (s.get (LN_STATE.POL_INV l) = 1)) = none → lands c fun t =>
          t.rd (LN_FEC_UNC.addr l) = s.rd (LN_FEC_UNC.addr l) + 1 ∧ t.hasCause e 5 ∧
          .blocksIn l (descrambleBlocks x.descrambler (codewordBlocks (line (s.get (LN_STATE.POL_INV l) = 1)))).1 3 ∈ t.out ∧
          (x.badRun < 3 → t.get (LN_STATE.BLOCK_LOCK l) = 1 ∧ (t.laneSt l).badRun = x.badRun + 1) ∧
          (3 ≤ x.badRun → t.get (LN_STATE.BLOCK_LOCK l) = 0 ∧ t.hasCause e 0)) ∧
        (¬ locked → validCodeword (line false) = false → validCodeword (line true) = false → done c fun t =>
          t.get (LN_STATE.BLOCK_LOCK l) = 0 ∧ (t.laneSt l).goodRun = 0) ∧
        (¬ locked → ∀ inv, (inv = true → validCodeword (line false) = false) → validCodeword (line inv) = true →
          let run := if x.goodRun ≠ 0 ∧ x.inverted = inv then x.goodRun + 1 else 1
          done c fun t => (3 ≤ run → t.get (LN_STATE.BLOCK_LOCK l) = 1 ∧ t.get (LN_STATE.POL_INV l) = if inv then 1 else 0) ∧
            (run < 3 → t.get (LN_STATE.BLOCK_LOCK l) = 0 ∧ (t.laneSt l).goodRun = run ∧ (t.laneSt l).inverted = inv)))) ∧
    (∀ inv : Bool,
      (awake → done (.blockLockAcquired l inv) fun t => t.get (LN_STATE.BLOCK_LOCK l) = 1 ∧ t.get (LN_STATE.POL_INV l) = (if inv then 1 else 0) ∧ t.adapts l ∧
        t.out = []) ∧
      (¬ awake → nothing (.blockLockAcquired l inv))) ∧
    (¬ locked → nothing (.blockLockLost l)) ∧
    (locked → done (.blockLockLost l) fun t => t.get (LN_STATE.BLOCK_LOCK l) = 0 ∧ t.get (LN_EYE.EYE_VALID l) = 0 ∧ t.hasCause e 0 ∧ t.adapts l ∧
      ∀ p, s.lanePort l = some p →
        let inMask := s.portActive p = true ∧ (s.wantedMask p).testBit (s.portLane p l) = true
        (inMask → t.hasCause e 1 ∧ t.get (LN_STATE.TRAIN_STATE l) = 1 ∧ counts s t (LN_STATE.DROP_COUNT l) ∧
          narrows s t p (withoutBit (s.wantedMask p) (s.portLane p l))) ∧
        (¬ inMask → t.get (LN_STATE.TRAIN_STATE l) = s.get (LN_STATE.TRAIN_STATE l) ∧ t.links = s.links)) ∧
    (∀ values fom, done (.adapterCheckpoint l values fom) fun t => t.get (LN_QUAL.FOM l) = fom % 256 ∧ t.adapts l ∧ t.out = [] ∧
      (t.laneSt l).checkpoint = (if t.get (LN_STATE.ADAPT_FROZEN l) = 1 then x.checkpoint else values) ∧
      (t.laneSt l).values = if t.get (LN_STATE.ADAPT_FROZEN l) = 0 then values else if s.get (LN_STATE.ADAPT_FROZEN l) = 0 then x.checkpoint else x.values) ∧
    (done (.adapterIdleFreeze l) fun t => (t.laneSt l).idle = true ∧ t.adapts l ∧ t.out = [] ∧ (t.laneSt l).checkpoint = x.checkpoint ∧
      (t.laneSt l).values = if s.get (LN_STATE.ADAPT_FROZEN l) = 0 then x.checkpoint else x.values) ∧
    (∀ fom,
      let low := fom % 256 + s.laneRec l 4 1 < s.get (LN_QUAL.BASELINE l) ∨ fom % 256 < s.laneRec l 3 1
      done (.driftWatchdogFire l fom) fun t => t.get (LN_QUAL.FOM l) = fom % 256 ∧
        (t.get (LN_QUAL.DRIFT_LIVE l) = 1 ↔ awake ∧ low ∧ (s.get (LN_STATE.TRAIN_STATE l) = 5 ∨ s.get (LN_STATE.TRAIN_STATE l) = 6) ∧
          t.get (LN_STATE.TRAIN_STATE l) = s.get (LN_STATE.TRAIN_STATE l)) ∧
        ∀ p, s.lanePort l = some p →
          let bfDrop := s.isBf p = true ∧ s.get (LN_STATE.TRAIN_STATE l) = 5 ∧ x.leaving = false ∧ (s.wantedMask p).testBit (s.portLane p l) = true
          let recovers := s.isBf p = false ∧ s.get (PORT_PCIE.LINK_STATE p) = 3
          t.get (LN_QUAL.DRIFT_SEEN l) = (if low ∧ awake then 1 else s.get (LN_QUAL.DRIFT_SEEN l)) ∧
          (low → awake → bfDrop → t.hasCause e 2 ∧ counts s t (LN_STATE.DROP_COUNT l) ∧ narrows s t p (withoutBit (s.wantedMask p) (s.portLane p l))) ∧
          (low → awake → recovers → s.get (PORT_PCIE.DL_ACTIVE p) = 1 →
            t.get (PORT_PCIE.LINK_STATE p) = 4 ∧ counts s t (PORT_PCIE.RECOVERIES p) ∧ t.hasCause (srcLink p) 7) ∧
          (¬ (low ∧ awake ∧ (bfDrop ∨ recovers)) → t.links = s.links ∧ t.out = [] ∧ t.rd (PORT_PCIE.addr p) = s.rd (PORT_PCIE.addr p) ∧
            t.rd (EVT_SRC_A.addr e) = s.rd (EVT_SRC_A.addr e))) ∧
    ∀ probes : List Nat,
      let c := Instr.eyeContourComplete l probes
      let columns := contourOf (s.get (LN_EYE.TARGET l)) probes
      let v := if s.get (LN_EYE.COLUMN l) < 64 then columns.getD (64 * s.get (LN_EYE.EYE l) + s.get (LN_EYE.COLUMN l)) 0 else 0
      (s.get (LN_QUAL.SAMPLER_OWNED l) = 1 → awake → locked → completes c s { (((s.set (LN_EYE.EYE_VALID l) 1).bump (LN_EYE.CONTOURS l)).set (LN_EYE.TOP l) (v / 256)).set
        (LN_EYE.BOTTOM l) v with out := [], lanes := tabPut (fun _ => {}) s.lanes l { x with contour := columns } }) ∧
      (¬ (s.get (LN_QUAL.SAMPLER_OWNED l) = 1 ∧ awake ∧ locked) → nothing c) ∧
      columns.length = 192 ∧ ∀ y ∈ columns, y = 0 ∨ (64 ≤ y / 256 ∧ y / 256 ≤ 127 ∧ y % 256 ≤ 63)

/-- O39. Training of the lanes of a BF port, from power-up to Active, and the slots it sends. On a quiet state whose ports have lanes of the package.
LANE_POWER_UP of a port that may train: Off lanes of a BF port enter Lock, lanes of a PCI Express port the standard's training; neither direction
sleeps. A TRAIN block shows the partner's state, width, reversal and figure of merit for the lane that it names, counts matching Confirm blocks, and
its request acts once for each SEQ: a forced preset and coefficients outside R137 are refused, a preset or allowed coefficients are applied.
TRAIN_STATE_ADVANCE shows the figure of merit, and moves Off to Lock where the port may train, Lock to Equalise with block lock and a partner beyond
Lock, Equalise to Bond when both ends are good, Bond to Confirm when BOND has aligned the lane with the others and width and reversal agree (where
they do not, every lane of the port returns to Lock with cause 4; an aligned lane of an Active port asks to join the mask), Confirm to Active when
every lane of the port that was not left out stands in Confirm with 16 confirmations, and they number MIN_LANES: the masks are those lanes, and a port
that resumes no session starts one. TRAINING_TIMEOUT returns a lane in Lock to Confirm to Lock with cause 3. EQUALISE_TIMEOUT moves on the lanes that
are good where MIN_LANES are, and leaves out the others; a lane that does not move on returns to Lock with cause 3. SLOT_SEND of a BF port in service
sends its next slot, a transmit mask whose SWITCH it is applying at its start: on each lane of the transmit mask a marker slot with BOND and time
blocks on the lowest lane, a control slot with the LANEMAP that is due, a slot of flits striped over the lanes, or a control slot, both with TRAIN
feedback for the lanes that train, and TRAIN on awake lanes outside the mask, which begin a codeword only with the others of the port. Blocks that an
injection hits in their crossing are counted there, or discarded. A held flit with an uncorrectable word that is due takes the link down (R446). -/
def Obligations.LaneTraining : Prop :=
  ∀ (s : State), s.quiet → (∀ p < 256, s.laned p) →
    let nothing := fun c : Instr => completes c s { s with out := [] }
    let done := fun (c : Instr) (P : State → Prop) => completesIn workSame c s s P
    let st := fun (t : State) (l : Nat) => t.get (LN_STATE.TRAIN_STATE l)
    let preset := fun (t : State) (l : Nat) => (t.get (LN_TXEQ.PRE l), t.get (LN_TXEQ.POST l)) = presetTaps (s.trainPreset l)
    let toLock := fun (t : State) (l : Nat) => st t l = 1 ∧ t.get (LN_STATE.IN_MASK l) = 0 ∧ (s.carries l = false → preset t l)
    (∀ p < 256,
      (s.mayTrain p = true → done (.lanePowerUp p) fun t => t.out = [] ∧ t.links = s.links ∧ ∀ l ∈ s.portLanes p,
        t.get (LN_STATE.TX_SLEEP l) = 0 ∧ t.get (LN_STATE.RX_SLEEP l) = 0 ∧ (s.isBf p = true → (st s l = 0 → toLock t l) ∧ (st s l ≠ 0 → st t l = st s l)) ∧
        (s.isBf p = false → st t l = 6)) ∧
      (s.mayTrain p = false → nothing (.lanePowerUp p))) ∧
    (∀ l < 512, ∀ element,
      let c := Instr.trainBlockReceive l element
      let takes := fun p => s.lanePort l = some p ∧ s.isBf p = true ∧ getBits element 56 8 = 0x33 ∧ getBits element 48 4 < s.portWidth p
      ((¬ ∃ p, takes p) → nothing c) ∧
      ∀ p, takes p →
        let k := s.laneOf p (getBits element 48 4)
        let y := s.laneSt k
        let seq := getBits element 0 8
        let kind := getBits element 30 2
        let good := getBits element 52 4 = 4 ∧ getBits element 45 3 = s.widthCode p ∧ element.getLsbD 44 = (s.portRec p 4 1).testBit 0
        let pre := getBits element 38 6
        let post := getBits element 32 6
        let forced := 8 ≤ s.get (LN_TXEQ.FORCE_PRESET k)
        let acts := (kind = 1 ∨ kind = 2) ∧ y.applied ≠ some seq
        let taps := fun (t : State) (a b n : Nat) => t.get (LN_TXEQ.PRE k) = a ∧ t.get (LN_TXEQ.POST k) = b ∧ t.get (LN_TXEQ.MAIN k) = 64 - a - b ∧
          t.get (LN_TXEQ.PRESET_IN_USE k) = n
        done c fun t =>
          let z := t.laneSt k
          t.out = [] ∧ t.links = s.links ∧ z.peerState = getBits element 52 4 ∧ z.peerWidth = getBits element 45 3 ∧ z.peerRev = element.getLsbD 44 ∧
          z.peerFom = getBits element 17 8 ∧ (t.laneSt l).confirms = (if good then (s.laneSt l).confirms + 1 else 0) ∧
          (¬ acts → z.applied = y.applied ∧ z.resp = y.resp) ∧ (acts → z.applied = some seq) ∧
          (acts → ¬ forced → kind = 1 → z.resp = 1 ∧ taps t (presetTaps (getBits element 27 3)).1 (presetTaps (getBits element 27 3)).2 (getBits element 27 3)) ∧
          (acts → ¬ forced → kind = 2 → pre ≤ 16 → post ≤ 24 → pre + post ≤ 40 → z.resp = 1 ∧ taps t pre post 0xF) ∧
          (acts → forced ∨ (kind = 2 ∧ ¬ (pre ≤ 16 ∧ post ≤ 24 ∧ pre + post ≤ 40)) → z.resp = 2) ∧
          (¬ acts ∨ z.resp = 2 → t.rd (LN_TXEQ.addr k) = s.rd (LN_TXEQ.addr k))) ∧
    (∀ l < 512, ∀ fom,
      let c := Instr.trainStateAdvance l fom
      let runs := fun p => s.lanePort l = some p ∧ s.isBf p = true ∧ s.portDark p = false
      ((¬ ∃ p, runs p) → nothing c) ∧
      ∀ p, runs p →
        let x := s.laneSt l
        let i := s.portLane p l
        let own := s.laneRec l 3 1 ≤ fom % 256
        let agree := x.peerWidth = s.widthCode p ∧ x.peerRev = (s.portRec p 4 1).testBit 0
        let ready := (s.portLanes p).filter fun k => st s k = 4 && !(s.laneSt k).left
        let up := s.minLanes p ≤ ready.length ∧ (∀ k ∈ ready, 16 ≤ (s.laneSt k).confirms) ∧ ∀ k ∈ s.portLanes p, st s k = 4 ∨ (s.laneSt k).left = true
        done c fun t => t.get (LN_QUAL.FOM l) = fom % 256 ∧
          (st s l = 0 → if s.mayTrain p = true then toLock t l else st t l = 0) ∧
          (st s l = 1 → st t l = if s.get (LN_STATE.BLOCK_LOCK l) = 1 ∧ 1 ≤ x.peerState then 2 else 1) ∧
          (st s l = 2 → ((t.laneSt l).eqDone = true ↔ own) ∧ st t l = if own ∧ 3 ≤ x.peerState then 3 else 2) ∧
          (st s l = 3 → ¬ agree → t.hasCause (srcLane l) 4 ∧ ∀ k ∈ s.portLanes p, toLock t k ∧ preset t k) ∧
          (st s l = 3 → agree → s.aligned p l = false → st t l = 3 ∧ t.links = s.links) ∧
          (st s l = 3 → agree → s.aligned p l = true → s.portActive p = false → st t l = if x.left = true then 3 else 4) ∧
          (st s l = 3 → agree → s.aligned p l = true → s.portActive p = true → st t l = 3 ∧
            ((s.wantedMask p).testBit i = false → asksMask t p (withBit (s.wantedMask p) i))) ∧
          (st s l = 4 → up → (∀ k ∈ ready, st t k = 5 ∧ t.get (LN_STATE.IN_MASK k) = 1 ∧ t.get (LN_QUAL.BASELINE k) = t.get (LN_QUAL.FOM k)) ∧
            (∀ j < 16, (t.get (PORT_BOND.TX_MASK p)).testBit j = true ↔ ∃ k ∈ ready, s.portLane p k = j) ∧ t.get (PORT_BOND.RX_MASK p) = t.get (PORT_BOND.TX_MASK p) ∧
            t.get (PORT_BOND.WIDTH_CHANGES p) = 0 ∧ t.get (PORT_LINK.LL_STATE p) = if s.get (PORT_LINK.LL_STATE p) = 3 then 3 else 1) ∧
          (st s l = 4 → ¬ up → st t l = 4 ∧ t.links = s.links) ∧
          (5 ≤ st s l → st t l = st s l ∧ t.links = s.links)) ∧
    (∀ l < 512,
      (1 ≤ st s l ∧ st s l ≤ 4 → done (.trainingTimeout l) fun t => toLock t l ∧ counts s t (LN_STATE.RETRAIN_COUNT l) ∧ t.hasCause (srcLane l) 3 ∧ t.links = s.links) ∧
      (¬ (1 ≤ st s l ∧ st s l ≤ 4) → nothing (.trainingTimeout l))) ∧
    (∀ p < 256,
      let c := Instr.equaliseTimeout p
      let fine := fun l => st s l = 3 ∨ st s l = 4 ∨ (st s l = 2 ∧ (s.laneSt l).eqDone = true)
      let go := s.minLanes p ≤ ((s.portLanes p).filter fun l => fine l).length
      let any := s.isBf p = true ∧ ∃ l ∈ s.portLanes p, st s l = 2
      (¬ any → nothing c) ∧
      (any → done c fun t => t.links = s.links ∧ ∀ l ∈ s.portLanes p, (st s l ≠ 2 → st t l = st s l) ∧
        (st s l = 2 → fine l → go → st t l = 3) ∧ (st s l = 2 → ¬ (fine l ∧ go) → toLock t l ∧ t.hasCause (srcLane l) 3) ∧
        (s.portActive p = false → go → ((t.laneSt l).left = true ↔ ¬ fine l ∨ (s.laneSt l).left = true)))) ∧
    ∀ p < 256,
      let x := s.link p
      let slot := x.slot + 1
      let lanes := s.maskLanes p
      let sends := fun (t : State) (l : Nat) (blocks : List Nat) =>
        ((s.laneSt l).half = [] → (t.laneSt l).half = blocks) ∧
        ((s.laneSt l).half ≠ [] → (t.laneSt l).half = [] ∧
          .laneLevels l (pam4Levels ((encodeCodeword (scrambleBlocks (s.laneSt l).scrambler ((s.laneSt l).half ++ blocks)).1).flatMap (bitsMsb 10))) ∈ t.out)
      let quietLanes := ∀ l ∈ s.portLanes p, st s l = 0 ∨ 6 ≤ st s l ∨ s.get (LN_STATE.TX_SLEEP l) ≠ 0 ∨ (st s l = 5 ∧ l ∈ lanes)
      let training := (s.portLanes p).filter fun l => st s l ≠ 0 && decide (st s l < 5) && s.get (LN_STATE.TX_SLEEP l) = 0
      let trains := fun (e : Word) (l : Nat) => getBits e 56 8 = 0x33 ∧ getBits e 48 4 = s.portLane p l
      -- no mask changes in this slot, and no held flit has an uncorrectable word
      let steady := ∀ e, x.switch.head? = some e → switchAhead slot e.2.1 = true
      let whole := ∀ f ∈ x.held, f.hurt < 2
      let plain := x.dozing = 0 ∧ slot % 1024 ≠ 0
      (¬ (s.isBf p = true ∧ s.portDark p = false) → nothing (.slotSend p)) ∧
      -- a port whose INIT exchange this slot completes has its bounds restored (R396)
      let restores := fun restoring : List Nat => s.get (PORT_LINK.LL_STATE p) = 2 → restoring = s.modes.restoring
      let from_ := fun restoring : List Nat => ({ s with modes := { s.modes with restoring := restoring } } : State)
      let awake := fun l => 1 ≤ st s l ∧ st s l ≤ 5 ∧ s.get (LN_STATE.TX_SLEEP l) = 0
      -- a lane outside the mask begins a codeword only with the others of its port
      let mid := ∃ k ∈ s.portLanes p, awake k ∧ (s.laneSt k).half ≠ []
      (s.isBf p = true → s.portDark p = false → ∃ r, restores r ∧ completesIn (wider linkSame crossReg) (.slotSend p) s (from_ r) fun t => (t.link p).slot = slot ∧ t.mode = s.mode ∧
        ∀ m sw q, x.switch = [(m, sw, q)] → sw % 2 ^ 24 = slot % 2 ^ 24 → whole → s.portActive p = true → m < 65536 → s.minLanes p ≤ maskCount m →
          t.get (PORT_BOND.TX_MASK p) = m) ∧
      (s.isBf p = true → s.portDark p = false → steady → whole → s.sendsClear p → ∃ r, restores r ∧ completesIn workSame (.slotSend p) s (from_ r) fun t => (t.link p).slot = slot ∧
        (quietLanes → (lanes = [] ∨ x.dozing ≠ 0 → t.lanes = s.lanes ∧ t.out = []) ∧
          (x.dozing = 0 → slot % 1024 = 0 → lanes ≠ [] → ∃ asks, (asks = [] ∨ asks = [tsyncElement 3 ((x.dreqId + 1) % 16) (s.now % 2 ^ 48)]) ∧
            (asks ≠ [] ↔ x.markers % 16 = 0) ∧ (t.link p).dresps = x.dresps.drop 36 ∧
            (x.markers % 16 = 0 → (t.link p).dreqs.head? = some ((x.dreqId + 1) % 16, s.now % 2 ^ 48)) ∧ ∀ l ∈ lanes,
            sends t l (controlSlot (bondElement slot :: if lanes.head? = some l
              then [s.announceBlock, tsyncElement 2 0 (s.now % 2 ^ 48)] ++ (x.dresps.take 36).map (fun y => tsyncElement 4 y.1 y.2) ++ asks else []))) ∧
          (plain → x.mapDue = none → s.flitDue p = false → ∀ l ∈ lanes, sends t l (controlSlot [])) ∧
          (plain → x.mapDue = none → s.flitDue p = true → (t.flitsOut p).length = lanes.length ∧
            ∀ k l, lanes[k]? = some l → sends t l ((List.range 40).map fun j => ((t.flitsOut p).flatMap fun f => f.map (blockOfElement false)).getD (j * lanes.length + k) 0))) ∧
        (plain → ∀ mask, x.mapDue = some mask → ∀ l, lanes.head? = some l → (t.link p).mapDue = none ∧ (t.link p).mapSeq = (x.mapSeq + 1) % 16 ∧
          ∃ els, (els.length = training.length ∧ ∀ y ∈ els.zip training, trains y.1 y.2) ∧
            sends t l (controlSlot (lanemapElement mask ((x.mapSeq + 1) % 16) (x.partnerSlot + s.roundTripSlots p + 64) :: els))) ∧
        (plain → x.mapDue = none → s.flitDue p = false → ∀ l, lanes.head? = some l →
          ∃ els, (els.length = training.length ∧ ∀ y ∈ els.zip training, trains y.1 y.2) ∧ sends t l (controlSlot els)) ∧
        ∀ l ∈ s.portLanes p, l ∉ lanes → awake l →
          (mid → (s.laneSt l).half = [] → (t.laneSt l).half = []) ∧ ((mid → (s.laneSt l).half ≠ []) → ∃ element, (slot % 1024 = 0 → element = bondElement slot) ∧ (slot % 1024 ≠ 0 → trains element l) ∧
            sends t l (controlSlot [element])))

/-- O40. Doze and waking, and changes of the mask of a port. On a quiet state whose ports have lanes of the package. DOZE_IDLE_EXPIRY of a BF port
whose transmit direction may Doze and has had nothing to send for IDLE_US sends the DOZE slot in the second half of a codeword, after one more slot
where a codeword has still to begin (log entry 69), a mask whose SWITCH comes meanwhile applying first; TX_DOZE_ENTRY then puts the lanes of its
transmit mask to Doze, with SLEEP 1 in PORT_WAKE, and a wake request that came before counts from then; TX_WAKE_ACTIVE wakes them 200 ns after the
wake request at the earliest, SLEEP 0, and 16 control slots go by, after one more where lanes outside the mask stand in a codeword; without a wake
request it changes nothing. DOZE_BLOCK_RECEIVE ends the block lock of an awake receiver, which enters Doze where SLEEP_ALLOW lets it; RX_ENERGY_DETECT
wakes a receiver in Doze, which has block lock only once codewords have decoded. WAKE_PREAMBLE_END on an Active port: the eye scan of each lane of the
receive mask still without block lock ends; these lanes return to Lock with cause 1 and the mask narrows, or the port retrains. LANEMAP_RECEIVE with
SWITCH ahead within 2^23 slots keeps the mask announced for the transmitter, the nearest SWITCH first; LANEMAP_REPEAT has a mask not yet seen applied
announced again in the next control slot; MASK_SWITCH, with the SWITCH of one mask reached by the next slot, applies it, lanes that leave the mask
taking the preset they train with, or retrains the port where it leaves fewer than MIN_LANES lanes, counts a change, and a bound that changes is
published with cause 1 for a narrowing, 2 otherwise. PCIE_LANE_LOSS narrows a PCI Express link that is up to the widest width that the lanes left
allow: by L0p where the port permits it in flit mode and the partner supports it, else through Recovery, and a bound that changes is published with
cause 3. Where these conditions do not hold, the commands change nothing. -/
def Obligations.LaneMasksAndDoze : Prop :=
  ∀ (s : State), s.quiet → (∀ p < 256, s.laned p) →
    let nothing := fun c : Instr => completes c s { s with out := [] }
    let done := fun (c : Instr) (P : State → Prop) => completesIn workSame c s s P
    (∀ p < 256,
      let x := s.link p
      let lanes := s.maskLanes p
      let idle := s.isBf p = true ∧ s.get (PORT_LINK.LL_STATE p) = 2 ∧ (s.policy p = 1 ∨ (s.policy p = 2 ∧ s.get (DIE_PWR.THROTTLING (portDie p)) = 1)) ∧ .sleep p ∉ s.planned ∧
        (∀ l ∈ lanes, s.laneRec l 8 1 % 2 = 1) ∧ (∀ w ∈ s.waiting, lastPoint w ≠ pointPort p) ∧ s.flitDue p = false ∧ x.mapDue = none
      let dozes := fun n : Nat => controlSlot (bondElement n :: List.replicate 39 (controlElement tyDoze 0))
      let sent := fun (t : State) (l : Nat) (blocks : List Nat) => (t.laneSt l).half = [] ∧
        .laneLevels l (pam4Levels ((encodeCodeword (scrambleBlocks (s.laneSt l).scrambler blocks).1).flatMap (bitsMsb 10))) ∈ t.out
      -- no SWITCH is reached in the next n slots
      let steady := fun n : Nat => ∀ e, x.switch.head? = some e → ∀ k, 1 ≤ k → k ≤ n → switchAhead (x.slot + k) e.2.1 = true
      let mid := ∃ k ∈ s.portLanes p, 1 ≤ s.get (LN_STATE.TRAIN_STATE k) ∧ s.get (LN_STATE.TRAIN_STATE k) ≤ 5 ∧ s.get (LN_STATE.TX_SLEEP k) = 0 ∧ (s.laneSt k).half ≠ []
      let want := ((List.range (s.portWidth p)).filter fun i => (s.get (PORT_BOND.RX_MASK p)).testBit i)
      let dark := want.filter fun i => s.get (LN_STATE.BLOCK_LOCK (s.laneOf p i)) = 0
      let left := dark.foldl (fun m i => withoutBit m i) (s.wantedMask p)
      (idle → x.dozing = 0 → (∀ l ∈ lanes, (s.laneSt l).half ≠ []) →
        completesIn (wider workSame crossReg) (.dozeIdleExpiry p) s (s.waitUntil (x.bookedAt + s.idleTicks p)) fun t =>
          (t.link p).slot = x.slot + 1 ∧ t.mode = s.mode ∧ (steady 1 → (t.link p).dozing = 1 ∧ (t.link p).wakeAt = none ∧
            (s.sendsClear p → regsKept s t ∧ ∀ l ∈ lanes, sent t l ((s.laneSt l).half ++ dozes (x.slot + 1))))) ∧
      (idle → x.dozing = 0 → (∃ l ∈ lanes, (s.laneSt l).half = []) →
        completesIn (wider workSame crossReg) (.dozeIdleExpiry p) s (s.waitUntil (x.bookedAt + s.idleTicks p)) fun t =>
          x.slot < (t.link p).slot ∧ t.mode = s.mode ∧ (steady 2 → (t.link p).dozing = 1 ∧ (t.link p).wakeAt = none ∧ (t.link p).slot = x.slot + 2 ∧
            (s.sendsClear p → ∀ l ∈ lanes, (s.laneSt l).half = [] →
              ∃ first : List Nat, first.length = 40 ∧ sent t l (first ++ dozes (x.slot + 2))))) ∧
      (¬ (idle ∧ x.dozing = 0) → nothing (.dozeIdleExpiry p)) ∧
      (x.dozing = 1 → done (.txDozeEntry p) fun t => (t.link p).dozing = 2 ∧ (t.link p).wakeAt = x.wakeAt.map (fun _ => s.now) ∧ t.get (PORT_WAKE.SLEEP p) = 1 ∧ t.out = [] ∧
        ∀ l ∈ lanes, t.get (LN_STATE.TX_SLEEP l) = 1 ∧ t.get (LN_STATE.RX_SLEEP l) = s.get (LN_STATE.RX_SLEEP l)) ∧
      (x.dozing ≠ 1 → nothing (.txDozeEntry p)) ∧
      (x.dozing = 2 → ∀ t0, x.wakeAt = some t0 → completesIn (wider workSame crossReg) (.txWakeActive p) s (s.waitUntil (t0 + 3200)) fun t =>
        (t.link p).dozing = 0 ∧ (t.link p).wakeAt = none ∧ (t.link p).slot = x.slot + 16 + (if mid then 1 else 0) ∧ t.get (PORT_WAKE.SLEEP p) = 0 ∧ t.mode = s.mode ∧
        (steady 17 → ∀ l ∈ lanes, t.get (LN_STATE.TX_SLEEP l) = 0 ∧ t.get (LN_STATE.RX_SLEEP l) = s.get (LN_STATE.RX_SLEEP l))) ∧
      (x.dozing ≠ 2 ∨ x.wakeAt = none → nothing (.txWakeActive p)) ∧
      (s.portActive p = true → dark ≠ [] → done (.wakePreambleEnd p) fun t => (∀ i ∈ dark, t.get (LN_EYE.EYE_VALID (s.laneOf p i)) = 0) ∧ if dark = want then retrains s t p else
        (∀ i ∈ dark, t.hasCause (srcLane (s.laneOf p i)) 1 ∧ t.get (LN_STATE.TRAIN_STATE (s.laneOf p i)) = 1) ∧ narrows s t p left) ∧
      (¬ (s.portActive p = true ∧ dark ≠ []) → nothing (.wakePreambleEnd p)) ∧
      (∀ element,
        let ahead := (getBits element 0 24 + 2 ^ 24 - x.slot % 2 ^ 24) % 2 ^ 24
        let takes := s.portActive p = true ∧ getBits element 56 8 = 0x99 ∧ 1 ≤ ahead ∧ ahead ≤ 2 ^ 23
        (takes → completes (.lanemapReceive p element) s { s with out := [], links := tabPut (fun _ => {}) s.links p { x with
          switch := insertSwitch x.slot (getBits element 40 16, getBits element 0 24, getBits element 36 4) x.switch } }) ∧
        (¬ takes → nothing (.lanemapReceive p element))) ∧
      (x.mapPending ≠ none → done (.lanemapRepeat p) fun t => asksMask t p (s.wantedMask p) ∧ regsKept s t ∧ t.lanes = s.lanes ∧ t.out = []) ∧
      (x.mapPending = none → nothing (.lanemapRepeat p)) ∧
      let ahead := fun sw : Nat => switchAhead (x.slot + 1) sw = true
      ((∀ e, x.switch.head? = some e → ahead e.2.1) → nothing (.maskSwitch p)) ∧
      (∀ mask n k rest, x.switch = (mask, n, k) :: rest → ¬ ahead n → (∀ e, rest.head? = some e → ahead e.2.1) → mask < 65536 → done (.maskSwitch p) fun t =>
        let was := s.get (PORT_BOND.TX_MASK p)
        let acts := s.portActive p = true ∧ mask ≠ was
        (acts → maskCount mask < s.minLanes p → retrains s t p) ∧ (¬ acts ∨ s.minLanes p ≤ maskCount mask → (t.link p).switch = rest) ∧ (¬ acts → t.rd (PORT_BOND.addr p) = s.rd (PORT_BOND.addr p) ∧ t.get PKG_BOUND.BOUND_SEQ = s.get PKG_BOUND.BOUND_SEQ) ∧
        (acts → s.minLanes p ≤ maskCount mask → ∀ i < s.portWidth p, was.testBit i = true → mask.testBit i = false →
          (t.get (LN_TXEQ.PRE (s.laneOf p i)), t.get (LN_TXEQ.POST (s.laneOf p i))) = presetTaps (s.trainPreset (s.laneOf p i))) ∧
        (acts → s.minLanes p ≤ maskCount mask → t.get (PORT_BOND.TX_MASK p) = mask ∧ counts s t (PORT_BOND.WIDTH_CHANGES p) ∧ publishes s t (if maskCount mask < maskCount was then 1 else 2))) ∧
      ∀ left,
        let n := min left (s.get (PORT_PCIE.ACTIVE_WIDTH p))
        let w := if 16 ≤ n then 16 else if 8 ≤ n then 8 else if 4 ≤ n then 4 else if 2 ≤ n then 2 else n
        let acts := s.isBf p = false ∧ s.get (PORT_PCIE.DL_ACTIVE p) = 1 ∧ n ≠ 0
        let l0p := s.portRec p 66 1 % 2 = 1 ∧ s.get (PORT_PCIE.FLIT p) = 1 ∧ p ∈ s.l0pPartners
        (acts → done (.pcieLaneLoss p left) fun t => t.get (PORT_PCIE.ACTIVE_WIDTH p) = w ∧ publishes s t 3 ∧
          (l0p → t.get (PORT_PCIE.WIDTH p) = s.get (PORT_PCIE.WIDTH p) ∧ t.get (PORT_PCIE.LINK_STATE p) = s.get (PORT_PCIE.LINK_STATE p)) ∧
          (¬ l0p → t.get (PORT_PCIE.WIDTH p) = w ∧ t.get (PORT_PCIE.LINK_STATE p) = 4 ∧ counts s t (PORT_PCIE.RECOVERIES p) ∧ t.hasCause (srcLink p) 7)) ∧
        (¬ acts → nothing (.pcieLaneLoss p left))) ∧
    ∀ l < 512,
      let awake := s.get (LN_STATE.RX_SLEEP l) = 0 ∧ s.get (LN_STATE.BLOCK_LOCK l) = 1
      let sleeps := fun (t : State) (rx lock : Nat) => t.get (LN_STATE.RX_SLEEP l) = rx ∧ t.get (LN_STATE.BLOCK_LOCK l) = lock ∧
        t.get (LN_STATE.TX_SLEEP l) = s.get (LN_STATE.TX_SLEEP l) ∧ t.adapts l ∧ t.out = [] ∧ t.links = s.links
      (awake → done (.dozeBlockReceive l) fun t => sleeps t (if (s.laneRec l 8 1).testBit 2 then 1 else 0) 0) ∧ (¬ awake → nothing (.dozeBlockReceive l)) ∧
      (s.get (LN_STATE.RX_SLEEP l) = 1 → done (.rxEnergyDetect l) fun t => sleeps t 0 (s.get (LN_STATE.BLOCK_LOCK l))) ∧ (s.get (LN_STATE.RX_SLEEP l) ≠ 1 → nothing (.rxEnergyDetect l))

/-- O41. Flits received by a BF port, and the timers and TALLY flits of its link. On a quiet state whose ports have lanes of the package, at a BF
port. A flit (FLIT_RECEIVE, and INIT_FLIT_RECEIVE and TALLY_RECEIVE for their type) changes nothing at a port that is down or has no session. A
flagged flit or a wrong CRC counts in PORT_CRC_ERR with cause 5 and requests a replay, unless one is pending. A good INIT from another domain or with
a bad LIMIT sets cause 1 and holds the port in its INIT exchange (log entry 72); another is kept, and the link is Active once such an INIT has seen
this port and 16 of its own were sent, the session's first exchange setting the credit limits. Resuming, the first such INIT releases the flits before
its EXPECT and rewinds to it, or declares the link down when none held has it. Before a good INIT other flits are dropped. A NULL's ACK releases the
flits it covers, its NAK rewinds once for each number, and an ACK beyond those held declares the link down. A sequenced flit with the expected SEQ
advances RX_EXPECT and ends a pending request; an earlier one is dropped, a later one requests a replay. A whole PKT packet arrives, with the time of
its last flit, and spends its credits, which the ledger of its receive credits takes as issued; one with a reserved type or without credits counts in
PORT_MALFORMED with cause 6 and takes the link down; so does a TALLY that fails a check, with MISMATCHES and cause 4, and a right one counts in
TALLY_RX. In an Active session NAK_RETRY_TIMEOUT repeats a pending request and REPLAY_TIMER_EXPIRY rewinds the held flits, each after REPLAY_TIMEOUT,
the fourth rewind in a row training from Lock; TALLY_SEND has a TALLY due, which the next slot with room and nothing to resend sends; TALLY_LATE, 3 ms
after the last, sets cause 3; TALLY_MISSING, 10 ms after it, and LINK_RETURN_TIMEOUT, 20 ms after a port that is not back left Active, declare the
link down: LL_STATE 4, nothing held, no mask, cause 0. Otherwise the commands change nothing. -/
def Obligations.BurekLink : Prop :=
  (∀ (s : State) (p : Nat) (flit : List Word) (flagged : Bool) (c : Instr), s.quiet → (∀ q < 256, s.laned q) → p < 256 →
     (c = .flitReceive p flit flagged ∨ (flagged = false ∧ flitType flit = 2 ∧ c = .initFlitReceive p flit) ∨ (flagged = false ∧ flitType flit = 3 ∧ c = .tallyReceive p flit)) →
     let nothing := fun c : Instr => completes c s { s with out := [] }
     -- a port whose INIT exchange the flit completes has its bounds restored (R396)
     let done := fun (P : State → Prop) => ∃ r, (flitType flit ≠ 2 → r = s.modes.restoring) ∧
       completesIn workSame c s { s with modes := { s.modes with restoring := r } } P
     let x := s.link p
     let st := s.get (PORT_LINK.LL_STATE p)
     let e := srcLink p
     let h := (flit.getD 0 0).toNat * 2 ^ 64 + (flit.getD 1 0).toNat
     let field := fun lo n : Nat => h / 2 ^ lo % 2 ^ n
     let space := (flit.drop 2).take 37
     let good := flagged = false ∧ flit.length = 40 ∧ flit.getD 39 0 = flitCrc (flit.take 39) ∧ field 124 4 < 4
     let pending := s.get (PORT_LINK.NAK_PENDING p) = 1
     let asks := fun t : State => t.get (PORT_LINK.NAK_PENDING p) = 1 ∧ (¬ pending → counts s t (PORT_LINK.NAKS_SENT p) ∧ (t.link p).nakSeq = (x.nakSeq + 1) % 4) ∧
       (pending → t.get (PORT_LINK.NAKS_SENT p) = s.get (PORT_LINK.NAKS_SENT p) ∧ (t.link p).nakSeq = x.nakSeq)
     let down := fun t : State => t.get (PORT_LINK.LL_STATE p) = 4 ∧ t.get (PORT_BOND.TX_MASK p) = 0 ∧ t.get (PORT_BOND.RX_MASK p) = 0 ∧ (t.link p).held = [] ∧
       t.hasCause e 0
     let falls := fun (P : State → Prop) => completesIn linkSame c s s fun t => down t ∧ t.mode = s.mode ∧ P t
     let mark := match x.held with
       | f :: _ => f.seq
       | [] => s.get (PORT_LINK.TX_NEXT p)
     (¬ (s.isBf p = true ∧ (st = 1 ∨ st = 2 ∨ st = 3)) → nothing c) ∧
     (s.isBf p = true → st = 1 ∨ st = 2 ∨ st = 3 →
       (¬ good → done fun t => t.rd (PORT_CRC_ERR.addr p) = s.rd (PORT_CRC_ERR.addr p) + 1 ∧ t.hasCause e 5 ∧ asks t) ∧
       (good → field 124 4 = 2 → h.testBit 95 = false →
         let i := initOf space
         let bad := i.domain ≠ s.sealed.domain ∨ badLimit i.limits = true
         let both := (x.peerSeen = true ∨ i.peerSeen = true) ∧ 16 ≤ x.initsSent
         (bad → done fun t => t.hasCause e 1 ∧ (t.link p).initGood = true ∧ (t.link p).mismatch = true ∧ (t.link p).partner = some i ∧
           t.get (PORT_LINK.LL_STATE p) = if st = 2 then 1 else st) ∧
         (¬ bad → st ≠ 3 ∨ x.resumed = true → done fun t => (t.link p).initGood = true ∧ (t.link p).mismatch = false ∧ (t.link p).partner = some i ∧
           t.get (PORT_LINK.LL_STATE p) = (if both then 2 else st) ∧
           (st ≠ 2 → both → x.opened = false → ∀ k < 12, (t.ledger (portLedger p (2 + k))).total = i.limits.getD k 0 ∧
             (t.ledger (portLedger p (14 + k))).total = s.portRec p (16 + 2 * k) 2)) ∧
         (¬ bad → st = 3 → x.resumed = false →
           let n := (i.expect + 2 ^ 14 - mark) % 2 ^ 14
           (x.held.length < n → falls fun _ => True) ∧
           (n ≤ x.held.length → done fun t => (t.link p).held = x.held.drop n ∧ (t.link p).resendFrom = 0 ∧ (t.link p).partner = some i ∧ counts s t (PORT_LINK.REWINDS p) ∧
             (n = 0 → 3 ≤ x.rewindsInRow → retrains s t p) ∧
             (n ≠ 0 ∨ x.rewindsInRow < 3 → (t.link p).resumed = true ∧ t.get (PORT_LINK.LL_STATE p) = if both then 2 else 3)))) ∧
       (good → field 124 4 ≠ 2 → x.initGood = false → h.testBit 95 = false → done fun t => t.rd (PORT_LINK.addr p) = s.rd (PORT_LINK.addr p) ∧
         (t.link p).arrived = x.arrived ∧ (t.link p).held = x.held ∧ t.out = []) ∧
       (good → field 124 4 = 0 → h.testBit 95 = true →
         let n := (field 96 14 + 1 + 2 ^ 14 - mark) % 2 ^ 14
         let acts := h.testBit 94 = true ∧ x.nakActed ≠ some (field 92 2)
         (n ≤ x.held.length → done fun t => (t.link p).held = x.held.drop n ∧
           (acts → (t.link p).resendFrom = 0 ∧ (t.link p).nakActed = some (field 92 2) ∧ counts s t (PORT_LINK.REWINDS p) ∧
             (n = 0 → 3 ≤ x.rewindsInRow → retrains s t p)) ∧
           (¬ acts → (t.link p).resendFrom = x.resendFrom - n ∧ t.get (PORT_LINK.LL_STATE p) = st)) ∧
         (x.held.length < n → 2 ^ 13 ≤ n → done fun t => (t.link p).held = x.held ∧
           (acts → (t.link p).resendFrom = 0 ∧ (t.link p).nakActed = some (field 92 2) ∧ counts s t (PORT_LINK.REWINDS p)) ∧
           (¬ acts → (t.link p).resendFrom = x.resendFrom)) ∧
         (x.held.length < n → n < 2 ^ 13 → falls fun _ => True)) ∧
       (good → x.initGood = true → (field 124 4 = 1 ∨ field 124 4 = 3) → h.testBit 95 = false →
         let ex := s.get (PORT_LINK.RX_EXPECT p)
         let seq := field 110 14
         let late := (ex + 2 ^ 14 - seq) % 2 ^ 14
         (seq ≠ ex → late ≤ 8192 → done fun t => t.rd (PORT_LINK.addr p) = s.rd (PORT_LINK.addr p) ∧ (t.link p).arrived = x.arrived) ∧
         (seq ≠ ex → 8192 < late → done fun t => t.get (PORT_LINK.RX_EXPECT p) = ex ∧ asks t ∧ (t.link p).arrived = x.arrived) ∧
         (seq = ex → field 124 4 = 1 → x.rxPartial = [] → ∀ a b d f, space = a :: b :: d :: f :: List.replicate 33 0 → getBits a 60 4 ≠ 0 →
           let k := headerOf a.toNat b.toNat d.toNat f.toNat
           let short := k.cls < 3 ∧ s.portRec p (16 + 2 * k.pair) 2 - (x.received.getD k.pair 0 - x.returned.getD k.pair 0) < k.credits
           (k.ptype < 0xC → ¬ short → k.payloadElements = 0 → done fun t => t.get (PORT_LINK.RX_EXPECT p) = (ex + 1) % 2 ^ 14 ∧
             t.get (PORT_LINK.NAK_PENDING p) = 0 ∧ (t.link p).arrived = x.arrived ++ [({ k with payload := [] }, s.now)] ∧
             (k.cls < 3 → (t.ledger (portLedger p (14 + k.pair))).issued = (s.ledger (portLedger p (14 + k.pair))).issued + k.credits) ∧
             ∀ j < 12, (t.link p).received.getD j 0 = x.received.getD j 0 + if j = k.pair ∧ k.cls < 3 then k.credits else 0) ∧
           (0xC ≤ k.ptype ∨ short → falls fun t => t.hasCause e 6 ∧ (x.arrived = [] → t.rd (PORT_MALFORMED.addr p) = s.rd (PORT_MALFORMED.addr p) + 1))) ∧
         (seq = ex → field 124 4 = 3 →
           let then_ := ((s.takeCredit p (field 82 4) (field 70 12)).takeCredit p (field 66 4) (field 54 12)).tallyCheck p (field 96 14) space
           ((∀ i < 12, then_ i = none) → done fun t => counts s t (PORT_TALLY.TALLY_RX p) ∧ t.get (PORT_LINK.RX_EXPECT p) = (ex + 1) % 2 ^ 14 ∧
             t.get (PORT_LINK.NAK_PENDING p) = 0 ∧ t.get (PORT_LINK.LL_STATE p) = st ∧ (t.link p).tallyAt = s.now) ∧
           ∀ i < 12, ∀ check, (∀ j < i, then_ j = none) → then_ i = some check → falls fun t => counts s t (PORT_TALLY.MISMATCHES p) ∧
             t.get (PORT_TALLY.LAST_CHECK p) = check ∧ t.get (PORT_TALLY.LAST_PAIR p) = i ∧ t.hasCause e 4)))) ∧
  ∀ (s : State) (p : Nat), s.quiet → (∀ q < 256, s.laned q) → p < 256 →
    let nothing := fun c : Instr => completes c s { s with out := [] }
    let done := fun (c : Instr) (P : State → Prop) => completesIn workSame c s s P
    let x := s.link p
    let runs := s.isBf p = true ∧ s.get (PORT_LINK.LL_STATE p) = 2
    let down := fun t : State => t.get (PORT_LINK.LL_STATE p) = 4 ∧ t.get (PORT_BOND.TX_MASK p) = 0 ∧ t.get (PORT_BOND.RX_MASK p) = 0 ∧ (t.link p).held = [] ∧
      t.hasCause (srcLink p) 0
    let pending := s.get (PORT_LINK.NAK_PENDING p) = 1
    let room := x.held.length < s.allotment p
    let falls := fun (c : Instr) (t0 : Nat) => completesIn linkSame c s (s.waitUntil t0) fun t => down t ∧ t.mode = s.mode
    (runs → pending → completesIn workSame (.nakRetryTimeout p) s (s.waitUntil (x.lastNak + s.replayTimeout p)) fun t => counts s t (PORT_LINK.NAKS_SENT p) ∧ (t.link p).nakSeq = (x.nakSeq + 1) % 4 ∧ (t.link p).nullDue = true ∧
      t.get (PORT_LINK.NAK_PENDING p) = 1 ∧ t.out = [] ∧ t.lanes = s.lanes) ∧
    (¬ (runs ∧ pending) → nothing (.nakRetryTimeout p)) ∧
    (runs → x.held ≠ [] → completesIn workSame (.replayTimerExpiry p) s (s.waitUntil (x.replayAt + s.replayTimeout p)) fun t => counts s t (PORT_LINK.REWINDS p) ∧ (t.link p).resendFrom = 0 ∧ (t.link p).held = x.held ∧
      (x.rewindsInRow < 3 → (t.link p).rewindsInRow = x.rewindsInRow + 1 ∧ t.lanes = s.lanes) ∧ (3 ≤ x.rewindsInRow → retrains s t p)) ∧
    (¬ (runs ∧ x.held ≠ []) → nothing (.replayTimerExpiry p)) ∧
    let away := s.isBf p = true ∧ s.get (PORT_LINK.LL_STATE p) = 3 ∧ s.portActive p = false
    (away → falls (.linkReturnTimeout p) (x.leftAt + 20000000 * ticksPerNs)) ∧
    (¬ away → nothing (.linkReturnTimeout p)) ∧
    (runs → done (.tallySend p) fun t => (t.link p).tallyDue = true ∧ regsKept s t ∧ t.out = [] ∧ t.lanes = s.lanes ∧ (t.link p).held = x.held) ∧
    (runs → x.tallyDue = true → room → x.resendFrom = x.held.length → s.portDark p = false → x.dozing = 0 → (x.slot + 1) % 1024 ≠ 0 → x.mapDue = none →
        (∀ e, x.switch.head? = some e → switchAhead (x.slot + 1) e.2.1 = true) → s.maskLanes p ≠ [] → s.sendsClear p → done (.slotSend p) fun t =>
      let seq := s.get (PORT_LINK.TX_NEXT p)
      (∃ f, (t.link p).held[x.held.length]? = some f ∧ f.seq = seq ∧ f.tally = true ∧ f.elements = s.tallySpace p ∧ f.pkts = []) ∧
      (t.link p).tallyNo = x.tallyNo + 1 ∧ (t.link p).tallyDue = false ∧
      ∃ flit, .flitOut p flit ∈ t.out ∧ flit.length = 40 ∧ flitType flit = 3 ∧ getBits (flit.getD 0 0) 46 14 = seq ∧
        (flit.drop 2).take 37 = s.tallySpace p ++ List.replicate 17 0) ∧
    (¬ runs → nothing (.tallySend p)) ∧
    (runs → completesIn workSame (.tallyLate p) s (s.waitUntil (x.tallyAt + 3000000 * ticksPerNs)) fun t => t.hasCause (srcLink p) 3 ∧ t.links = s.links ∧ t.out = []) ∧
    (¬ runs → nothing (.tallyLate p)) ∧
    (runs → falls (.tallyMissing p) (x.tallyAt + 10000000 * ticksPerNs)) ∧
    (¬ runs → nothing (.tallyMissing p))

/-- O42. TLP requests at a PU or PD port: refusals, windows, and the packets that translation queues. On a quiet state, for a PU or PD port whose link
is up in a cluster that is in service; REQUEST_RECEIVE and MRDLK_RECEIVE change nothing elsewhere. I/O and deferrable requests, and locked reads at a
PD port, are unsupported: a non-posted one is answered with a UR completion and cause 2, a posted one is dropped; a TLP with IDE is malformed and sets
cause 9 of the port. Any TLP ends the idleness of the port's lanes and brings a link in L1 back to L0; PME_TO_Ack at a PD port takes its link to L2/L3
Ready. A memory request with AT not 0 or of no partition is unsupported (with cause 7 at a PD port), as is one that no window matches (counted in
NO_MATCH with cause 6); one that the emulation stops is answered with the completion of its status. Else the pieces that its window forms join a queue
of the port: a posted write's the posted queue with posted TAGs; those of an acknowledged write, a read, an Atomic, a tunnelled request or a locked
read a queue with an outstanding record, the locked read with a place in the list of locked reads; a locked read that the port's handler engine does
not serve becomes its item of KIND 4; a write of four bytes to an event-source window becomes an MSI-X Event. A poisoned request sets cause 4. -/
def Obligations.RequestsAtPciePorts : Prop :=
  ∀ (s : State) (p : Nat) (x : Tlp), s.quiet → p < 256 →
    let nothing := fun c : Instr => completes c s { s with out := [] }
    let heard := fun c : Instr => completes c s { s.portHeard p with out := [] }
    let pu := s.isPu p = true
    let pd := s.isPd p = true
    let up := (pu ∨ pd) ∧ s.get (PORT_PCIE.DL_ACTIVE p) = 1 ∧ s.portDark p = false
    let e := srcTxn p
    let stays := fun t : State => t.ingress = s.ingress ∧ t.outstanding = s.outstanding ∧ t.lockWait = s.lockWait
    let answered := fun (t : State) (st : CplStatus) => stays t ∧ (x.nonPosted = true → told t [.tlpOut p (cplFor x st x.addr [])] ∧ (st = .ur → t.hasCause e 2) ∧
      (st = .ca → t.hasCause e 3)) ∧ (x.nonPosted = false → told t [])
    -- no prefetch of the cluster is in flight, so that a write cancels none and no piece that waits for one is issued (R299)
    let still := ∀ y ∈ s.streams, y.cluster = p / 4 → y.inFlight = []
    -- what an armed injection does to the words that the ingress buffer takes (R446, R478)
    let hurt := fun pkts : List Packet => (s.writeItem (portDie p) 1 (p / 4 % 16) 2 (pkts.foldl (fun n k => n + k.loadWords) 0)).2
    let queued := fun (t : State) (k : Nat) (q : Queued) => (∃ h, t.ingressQ (16 * p + k) = s.ingressQ (16 * p + k) ++ [{ q with hurt := h }] ∧
      (still → h = hurt q.pkts)) ∧ (still → ∀ j, j ≠ 16 * p + k → t.ingressQ j = s.ingressQ j) ∧ told t []
    let id := s.nextId + 1
    let entry := fun (pkts : List Packet) (np : Bool) => ({ id := id, pkts := pkts, holds := State.ingressHolds p x, received := s.now, requester := if np then id else 0, order := id } : Queued)
    -- an outstanding record of a request with a packet type, for pieces
    let waits := fun (t : State) (ty : Nat) (pieces : List (Nat × Nat)) => ∃ o ∈ t.outstanding, (still → t.outstanding = s.outstanding ++ [o]) ∧ o.id = id ∧ o.port = p ∧ o.tlp = some x ∧
      o.ptype = ty ∧ o.received = s.now ∧ o.answered = false ∧ o.admitted = false ∧ o.pieces.map (fun y => (y.addr, y.len)) = pieces
    let window := fun (part : Nat) (w : Window) => x.at_ = 0 ∧ s.requestPartition p x = some part ∧
      s.decodeWindow (p / 4) (if s.isPu p then .pu else .pd) part x.firstByte = some w
    let memory := x.kind = .memRead ∨ x.kind = .memWrite ∨ x.kind = .fetchAdd ∨ x.kind = .swap ∨ x.kind = .cas
    let pieces := fun (part : Nat) (w : Window) (ty : Nat) => piecesOf (s.template p x w part ty) w (w.remote + (x.firstByte - w.base) - (x.firstByte - x.addr)) x.enabledOffsets
      (if x.kind = .memWrite then x.data else []) (x.kind = .memWrite)
    let spans := fun l : List Packet => l.map fun k : Packet => (k.addr, k.len)
    let c := Instr.requestReceive p x
    let done := fun (P : State → Prop) => completesIn workSame c s s fun t => P t ∧ (x.poison = true → t.hasCause e 4)
    (¬ up → nothing c) ∧
    (up → x.kind ∈ [TlpKind.ioRead, .ioWrite, .deferrableWrite, .other] ∨ (pd ∧ x.kind = .memReadLock) → done fun t => answered t .ur) ∧
    (up → (∃ n, x.kind = .message n) ∨ x.kind = .vendorMessage ∨ x.kind = .ide → done fun t => stays t ∧ told t [] ∧ (x.kind = .ide → t.hasCause (srcPcie p) 9) ∧
      (x.kind = .message 0x1B → pd → s.get (PORT_PCIE.LINK_STATE p) = 3 ∨ s.get (PORT_PCIE.LINK_STATE p) = 5 → t.get (PORT_PCIE.LINK_STATE p) = 8)) ∧
    (up → (∃ n, x.kind = .completion n) ∨ (∃ b, x.kind = .cfgRead b ∨ x.kind = .cfgWrite b) ∨ (pu ∧ x.kind = .memReadLock) →
      (x.poison = false → heard c) ∧ done fun t => stays t ∧ told t []) ∧
    (up → x.kind ≠ .message 0x1B → done fun t => (∀ l ∈ s.portLanes p, (t.laneSt l).idle = false) ∧
      t.get (PORT_PCIE.LINK_STATE p) = if s.get (PORT_PCIE.LINK_STATE p) = 5 then 3 else s.get (PORT_PCIE.LINK_STATE p)) ∧
    (up → memory → x.at_ ≠ 0 ∨ s.requestPartition p x = none → done fun t => answered t .ur ∧ (pd → t.hasCause e 7)) ∧
    (up → memory → x.at_ = 0 → ∀ part, s.requestPartition p x = some part → s.decodeWindow (p / 4) (if s.isPu p then .pu else .pd) part x.firstByte = none →
      done fun t => answered t .ur ∧ counts s t (WIN_TRACK.NO_MATCH (p / 4)) ∧ t.hasCause e 6) ∧
    (up → memory → ∀ part w, window part w →
      (∀ st, s.virtStop p part w (x.reqId % 256) = some st → done fun t => answered t (cplOf st)) ∧
      (s.virtStop p part w (x.reqId % 256) = none →
        let direct := w.kind = 0 ∨ w.kind = 4
        let acks := (w.acknowledged = true ∨ s.get (WIN_STATE.ESCALATED w.n) = 1) ∧ direct
        (direct → x.kind = .memWrite → ¬ acks → pieces part w 2 ≠ [] → done fun t => (still → t.outstanding = s.outstanding) ∧
          ∃ pkts : List Packet, queued t 0 (entry pkts false) ∧ pkts.map (fun k => { k with tag := 0 }) = pieces part w 2) ∧
        (acks → x.kind = .memWrite → pieces part w 3 ≠ [] → done fun t => queued t 0 (entry (pieces part w 3) true) ∧ waits t 3 (spans (pieces part w 3))) ∧
        (direct → x.kind = .memRead → w.sef = false → s.stream w.n x.reqId = none → pieces part w 1 ≠ [] → done fun t =>
          queued t 1 (entry (pieces part w 1) true) ∧ waits t 1 (spans (pieces part w 1))) ∧
        (direct → x.kind = .fetchAdd ∨ x.kind = .swap ∨ x.kind = .cas →
          let size := atomicSize x.kind.atomicSub x.data.length
          let dest := (s.template p x w part 4).dest
          let blocked := ∃ b ∈ s.windowBinds part w, ∃ q, s.partitionPu b.partition = some q ∧ q ≠ p ∧ (s.vport q (vdspFn b.vdsp)).atomicBlock = true
          let target := w.remote + (x.firstByte - w.base) - (x.firstByte - x.addr)
          (atomicOperands w size x.data = none → done fun t => answered t .ur) ∧
          ∀ d, atomicOperands w size x.data = some d → (blocked → done fun t => answered t .ur) ∧
            (¬ blocked → done fun t => waits t 4 [(target, size)] ∧ ∃ k, queued t 1 (entry [k] true) ∧ k.ptype = 4 ∧ k.addr = target ∧ k.payload = d ∧
              k.sub = x.kind.atomicSub ∧ k.dest = dest ∧ k.partition = part)) ∧
        (w.kind = 1 →
          let k := s.bargeOf p x w.target w.cls part 1 (some w)
          (x.nonPosted = true → done fun t => queued t 1 (entry [k] true) ∧ waits t 0xB [(x.addr, x.len)]) ∧
          (x.nonPosted = false → done fun t => (still → t.outstanding = s.outstanding) ∧ ∃ tag, queued t 0 (entry [{ k with tag := tag }] false))) ∧
        (w.kind = 2 ∨ w.kind = 3 →
          (x.kind ≠ .memWrite → done fun t => answered t .ur) ∧
          (x.kind = .memWrite → x.len ≠ 4 ∨ x.firstBe % 16 = 0 → done fun t => stays t ∧ told t []) ∧
          (x.kind = .memWrite → x.len = 4 → x.firstBe % 16 = 15 → x.data.length = 4 → done fun t => ∃ k, queued t 0 (entry [k] false) ∧ k.ptype = 8 ∧ k.sub = 1 ∧
            k.dest = w.target ∧ k.src = s.fabricId p ∧ k.tag = x.reqId % 256 ∧ k.partition = part ∧
            k.addr = (x.firstByte - w.base) / 2 ^ (w.depth + 2) % 65536 * 2 ^ 32 + leNat x.data)))) ∧
    (let c := Instr.mrdlkReceive p x
     let done := fun (P : State → Prop) => completesIn workSame c s s P
     let comes := pu ∧ up ∧ x.kind = .memReadLock
     let takes := comes ∧ s.serves p 4 = true
     let decode := fun part => s.decodeWindow (p / 4) .pu part x.firstByte
     (¬ comes → nothing c) ∧
     (comes → s.serves p 4 = false → ∃ engines dataMem, completesIn workSame c s { s with engines := engines, dataMem := dataMem } fun t => s.handed t p 4 x true) ∧
     (takes → s.puPartition p = none → done fun t => answered t .ur) ∧
     ∀ part, takes → s.puPartition p = some part →
       (decode part = none → done fun t => answered t .ur ∧ counts s t (WIN_TRACK.NO_MATCH (p / 4)) ∧ t.hasCause e 6) ∧
       ∀ w, decode part = some w →
         let st := s.get PKG_LOCK.STATE
         let other := (st = 2 ∨ st = 4) ∧ s.get PKG_LOCK.OWNER = s.fabricId p ∧ s.get PKG_LOCK.TARGET ≠ w.target
         -- of a locked read with no byte enabled the first is read (log entry 94)
         let locked := piecesOf (s.template p x w part 5) w (w.remote + (x.firstByte - w.base) - (x.firstByte - x.addr)) x.lockOffsets [] false
         let refused := w.lockOk = false ∨ w.kind ≠ 0 ∨ other ∨ locked.length ≠ 1
         (refused → done fun t => answered t .ur) ∧
         (¬ refused → ∀ y, s.virtStop p part w 0 = some y → done fun t => answered t (cplOf y)) ∧
         (¬ refused → s.virtStop p part w 0 = none → done fun t => queued t 1 (entry locked true) ∧ waits t 5 (spans locked) ∧
           ∃ l, t.lockWait = s.lockWait ++ [l] ∧ l.id = id ∧ l.port = p ∧ l.tlp = x ∧ l.sent = false))

/-- O43. Interrupts, error messages and other messages at PU and PD ports. On a quiet state, at a PU or PD port whose link is up in a cluster in
service (elsewhere the commands change nothing). At a PD port a changed level of an INTx pin of a bound function forms an INTx Event, an assertion for
the PU port of its partition and a deassertion for the one that was told of it; an error message sets the cause of its severity and cause 10, contains
the port for a fatal one and for a non-fatal one that the port record names, and forms an ERR-MSG Event; a vendor message forms a message barge to its
host; a function without a binding, or with a requester ID that fails Source Validation, sets cause 11. At a PU port an MSI-X Event becomes the host's
memory write through the landing window of its partition, or cause 4 of the slice; an INTx Event counts on its swizzled pin and sends Assert at the
first level and Deassert at the last; an ERR-MSG Event is forwarded with the host's routing ID; a vendor message routed by ID goes as a barge to the
function bound there. PME_TURN_OFF sends PME_Turn_Off to each device bound wholly to the partition, as a TLP in this package, which a port that
another owner has locked holds back, and as a message barge to another, and PME_TO_ACK answers once no request of it is in flight and takes a link in
L0 to L2/L3 Ready. TLPs from a link end its L1 and the idleness of its lanes. -/
def Obligations.InterruptsAndMessages : Prop :=
  ∀ (s : State) (p : Nat), s.quiet → p < 256 →
    let nothing := fun c : Instr => completes c s { s with out := [] }
    let heard := fun c : Instr => completes c s { s.portHeard p with out := [] }
    let done := fun (c : Instr) (P : State → Prop) => completesIn workSame c s s P
    let up := s.get (PORT_PCIE.DL_ACTIVE p) = 1 ∧ s.portDark p = false
    let pu := s.isPu p = true ∧ up
    let pd := s.isPd p = true ∧ up
    let me := s.fabricId p
    let event := fun (t : State) (k : Packet) => t.ingressQ (16 * p) = s.ingressQ (16 * p) ++ [{ id := s.nextId + 1, pkts := [k], received := s.now, order := s.nextId + 1 }] ∧
      (∀ j, j ≠ 16 * p → t.ingressQ j = s.ingressQ j) ∧ t.out = []
    let unbound := fun t : State => t.hasCause (srcPcie p) 11 ∧ t.ingress = s.ingress ∧ t.out = []
    (∀ pin level fn, fn < 256 →
      let c := Instr.intxMessageReceive p pin level fn
      let key := 1024 * p + 4 * fn + pin % 4
      let changes := ¬ (tabGet (fun _ => 0) s.intxLevel key ≠ 0 ↔ level = true)
      let sent := s.intxSent.find? fun y => y.1 = key
      let intx := fun (d part : Nat) => ({ ptype := 8, vc := 0, cls := 0, dest := d, src := me, tag := fn, reqFn := fn, sub := 2, noWin := true, partition := part, addr := pin % 4 + if level then 4 else 0 } : Packet)
      let leveled := fun t : State => ∀ k, tabGet (fun _ => 0) t.intxLevel k = if k = key then (if level then 1 else 0) else tabGet (fun _ => 0) s.intxLevel k
      (¬ pd → nothing c) ∧ (pd → s.anyBindingOf me fn = none → done c unbound) ∧
      (pd → s.anyBindingOf me fn ≠ none → ¬ changes → heard c) ∧
      (pd → changes → s.anyBindingOf me fn ≠ none →
        (level = false ∨ sent = none → done c leveled) ∧
        (level = true → sent = none → (∀ b d, s.bindingOf me fn none = some b → s.puOf b.partition = some d → done c fun t => event t (intx d b.partition) ∧
            t.intxSent = s.intxSent ++ [(key, d, b.partition)]) ∧
          ((∀ b, s.bindingOf me fn none = some b → s.puOf b.partition = none) → done c fun t => t.ingress = s.ingress ∧ t.intxSent = s.intxSent)) ∧
        (level = false → (∀ d part, sent = some (key, d, part) → done c fun t => event t (intx d part) ∧ t.intxSent = s.intxSent.filter fun y => y.1 ≠ key) ∧
          (sent = none → done c fun t => t.ingress = s.ingress)))) ∧
    (∀ k : Packet,
      let c := Instr.intxEventReceive p k
      let takes := pu ∧ k.ptype = 8 ∧ k.sub = 2
      let bound := s.bindingOf k.src k.reqFn (s.puPartition p)
      (¬ takes → nothing c) ∧ (takes → bound = none → done c unbound) ∧
      ∀ b, takes → bound = some b →
        let pin := (k.addr % 4 + b.vdsp) % 4
        let n := tabGet (fun _ => 0) s.intxCount (4 * p + pin)
        let level := k.addr.testBit 2
        done c fun t => t.intxCount = tabPut (fun _ => 0) s.intxCount (4 * p + pin) (if level then n + 1 else n - 1) ∧
          t.out = (if n = 0 ∧ level = true then [.tlpOut p { kind := .message (0x20 + pin), reqId := 256 * (s.virtGet p 0 6 % 256) }]
            else if n = 1 ∧ level = false then [.tlpOut p { kind := .message (0x24 + pin), reqId := 256 * (s.virtGet p 0 6 % 256) }] else [])) ∧
    (∀ k : Packet,
      let c := Instr.msixEventReceive p k
      let takes := pu ∧ k.ptype = 8 ∧ k.sub = 1
      let land := (s.windowsOf (p / 4)).find? fun n => s.windowValid n && (s.window n).kind = 3 && (s.window n).partition = k.partition
      (¬ takes → nothing c) ∧
      (takes → land = none → done c fun t => t.hasCause (srcSlice (1024 * (p / 4))) 4 ∧ t.out = []) ∧
      ∀ n, takes → land = some n → done c fun t => t.out = [.tlpOut p { kind := .memWrite, addr := (s.window n).remote + k.addr / 2 ^ 32 % 65536 * 2 ^ ((s.window n).depth + 2), len := 4, firstBe := 15, lastBe := 0, reqId := ((s.bindingOf k.src (k.tag % 256) (s.puPartition p)).map fun b => s.hostRid p b (k.tag % 256)).getD 0, data := leBytes 4 k.addr, ro := k.ro, ido := k.ido, ns := k.ns, poison := k.poison }] ∧ regsKept s t) ∧
    (∀ k : Packet,
      let c := Instr.errMsgEventReceive p k
      let takes := pu ∧ k.ptype = 8 ∧ k.sub = 6
      let bound := s.bindingOf k.src k.reqFn (s.puPartition p)
      (¬ takes → nothing c) ∧ (takes → bound = none → done c unbound) ∧
      ∀ b, takes → bound = some b → done c fun t => t.out = [.tlpOut p { kind := .message (if k.addr % 4 = 2 then 0x33 else 0x30 + k.addr % 4), reqId := s.hostRid p b k.reqFn }] ∧
        regsKept s t) ∧
    (∀ severity fn,
      let c := Instr.errorMessageReceive p severity fn
      let takes := pd ∧ severity ≤ 2
      let contains := severity = 2 ∨ (severity = 1 ∧ s.portRec p 67 1 % 2 = 1)
      (¬ takes → nothing c) ∧
      (takes → ¬ contains → done c fun t => t.hasCause (srcPcie p) severity ∧ t.hasCause (srcPcie p) 10 ∧ t.out = [] ∧
        (s.anyBindingOf me (fn % 256) = none → t.hasCause (srcPcie p) 11 ∧ t.ingress = s.ingress) ∧
        ∀ b, s.anyBindingOf me (fn % 256) = some b → (s.puOf b.partition = none → t.ingress = s.ingress) ∧ ∀ d, s.puOf b.partition = some d →
          event t { ptype := 8, vc := 0, cls := 0, dest := d, src := me, reqFn := fn % 256, tag := fn % 256, sub := 6, noWin := true, partition := b.partition, addr := severity }) ∧
      (takes → contains → completesIn workSame c s (s.dpcEntered p (if severity = 2 then 2 else 3)) fun t =>
        t.hasCause (srcPcie p) severity ∧ t.hasCause (srcPcie p) 10 ∧ (s.get (PORT_DPC.CONTAINED p) = 0 → t.dpcStands p))) ∧
    (∀ x : Tlp,
      let c := Instr.vendorMessageReceive p x
      let target := s.indexedBinds.find? fun y => some y.2.partition = some ((s.puPartition p).getD 0) && s.presented y.1 &&
        s.secondaryBus p (vdspFn y.2.vdsp) = x.target / 256 && (s.functionsOf y.2).any fun f => s.hostFn y.2 f = x.target % 256
      -- Source Validation and the owner of the function (R227, R252)
      let owner := if s.sourceValid p x = true then s.anyBindingOf me (x.reqId % 256) else none
      (¬ (pu ∨ pd) → nothing c) ∧
      (pd → owner = none → done c unbound) ∧
      (∀ b, pd → owner = some b → (s.puOf b.partition = none → heard c) ∧
        ∀ d, s.puOf b.partition = some d → done c fun t => event t (s.bargeOf p x d 1 b.partition 2 none)) ∧
      (∀ i b, pu → x.at_ = 2 → target = some (i, b) → done c fun t => event t (s.bargeOf p x b.target 1 ((s.puPartition p).getD 0) 2 none)) ∧
      (pu → x.at_ ≠ 2 ∨ target = none → done c fun t => t.ingress = s.ingress ∧ told t [])) ∧
    (let near := (s.vdsps p).flatMap fun v => (s.behind p v).filter fun b => b.kind = 1 && b.target / 1024 = s.rank && s.pcieUp (b.target % 1024)
     let sends := fun l : List BindRec => l.map fun b => Output.tlpOut (b.target % 1024) { kind := .message 0x19 }
     -- a port that is locked for another than this host holds the message back (R344)
     let shut := fun b : BindRec => s.isPd (b.target % 1024) = true ∧ s.get (PORT_LOCK.LOCKED (b.target % 1024)) = 1 ∧
       ¬ ((s.portLock (b.target % 1024)).owner = me ∧ (s.portLock (b.target % 1024)).partition = b.partition)
     let away := (s.vdsps p).flatMap fun v => (s.behind p v).filter fun b => b.kind = 1 && b.target / 1024 ≠ s.rank
     let asked := if p ∈ s.pmeOff then s.pmeOff else s.pmeOff ++ [p]
     (¬ pu → nothing (.pmeTurnOff p)) ∧
     (pu → away = [] → (∀ b ∈ near, ¬ shut b) → completes (.pmeTurnOff p) s { s.portHeard p with out := sends near, pmeOff := asked }) ∧
     (pu → ∀ l b r, near = l ++ b :: r → shut b → (∀ x ∈ l ++ r, ¬ shut x) → s.basinPresent (portDie (b.target % 1024)) 14 = true →
       s.roomSum [⟨dieLedger (portDie (b.target % 1024)) 14, { ptype := 8 : Packet }.credits⟩] = true →
       done (.pmeTurnOff p) fun t => t.out = sends (l ++ r) ∧ t.pmeOff = asked ∧ ∃ w, (t.portLock (b.target % 1024)).held = (s.portLock (b.target % 1024)).held ++ [w] ∧
         w.tlps = [{ kind := .message 0x19 }] ∧ w.pkt.src = me ∧ w.pkt.partition = b.partition) ∧
     (pu → (∀ b ∈ near, ¬ shut b) → done (.pmeTurnOff p) fun t => t.out = sends near ∧ t.pmeOff = asked ∧ ∃ l, t.ingressQ (16 * p) = s.ingressQ (16 * p) ++ l ∧
       l.map (·.pkts) = away.map fun b => [s.bargeOf p (s.turnOff p) b.target 1 b.partition 2 none])) ∧
    let idle := p ∈ s.pmeOff ∧ s.pcieUp p = true ∧ ∀ n, s.puPartition p = some n → s.inFlight n = false
    (idle → completes (.pmeToAck p) s { (if s.get (PORT_PCIE.LINK_STATE p) = 3 then s.set (PORT_PCIE.LINK_STATE p) 8 else s) with out := [.tlpOut p { kind := .message 0x1B, reqId := 256 * (s.virtGet p 0 6 % 256) }], pmeOff := s.pmeOff.filter (· ≠ p) }) ∧
    (¬ idle → nothing (.pmeToAck p))

/-- O44. Packets that reach a BF port, packets that are placed, and completions that come back. On a quiet state. The oldest packet that the link
layer of a BF port has accepted is taken: a malformed one is counted in PORT_MALFORMED with cause 6 and its credits return, or are kept back while the
region reloads; a request for another package, another port or an endpoint waits in the ingress queue of its pair as transit, with a record when it is
non-posted; a packet that would leave the port at once waits behind an earlier one of its pair; a completion or Management packet for another package
takes the path to its egress, a completion for an open request that to its cluster, and one whose reservation a reset took back counts in
LATE_ANSWERS; a request that this package cannot take is answered NOT-MAPPED toward its source, a Lock that the Toll Table refuses DENIED, or dropped;
one for the port's own ID that no window matches counts in NO_MATCH with cause 6, and else the pieces of its window wait. A permitted WRITE-LOSS Event
sets cause 5 at the port of its source. A Burek Completion for no open piece changes nothing; one after the surrogate answer counts in LATE_ANSWERS
with cause 1; one that ends an acknowledged write or an unhindered read ends its record, as does the last completion barge of a tunnelled frame.
PACKET_PLACE does nothing while the crossing behind its point is in reset or where no packet can go on; else it moves the packet that R383 chooses,
when that can go, along its path, over a die-to-die interface when there is room in flight, one that met an injection going on as R533 says or being
discarded and counted; or out of the port at its end: as elements of flits with HOPS advanced, what it holds still held, or as TLPs of a completion at
a PCI Express port in L0. A device's completion for no request, or for one that timed out, is logged with cause 9; one for a request already answered
is discarded; a short read's data is kept; the last ends the request, as the acknowledgement of a Write-Ack does. Prefetched blocks unused for 10 µs
are dropped. -/
def Obligations.PacketsArriveAndMove : Prop :=
  ∀ (s : State), s.quiet →
    let nothing := fun c : Instr => completes c s { s with out := [] }
    let done := fun (c : Instr) (P : State → Prop) => completesIn workSame c s s P
    (∀ p < 256,
      let takes := s.isBf p = true ∧ s.portDark p = false
      let l := s.link p
      let c := Instr.bfPacketArrival p
      let d := clusterDie (p / 4)
      let id := s.nextId + 1
      (¬ takes ∨ l.arrived = [] → nothing c) ∧
      (∀ k at_ rest, takes → l.arrived = (k, at_) :: rest →
        let n := k.dest % 1024
        let here := k.dest / 1024 = s.rank
        -- credits go back at once, or are kept while the region drains or applies a reload (R98)
        let back := fun y : LinkSession => if s.reloading (p / 16) then y.withheld else y.returned
        let returned := fun t : State => (t.link p).arrived = rest ∧ ∀ i < 12, (back (t.link p)).getD i 0 = (back l).getD i 0 + if i = k.pair ∧ k.cls < 3 then k.credits else 0
        -- no earlier packet of its pair stands in the ingress buffer (R190)
        let free := s.ingressQ (16 * p + k.pair) = []
        let hurt := fun pkts : List Packet => (s.writeItem (portDie p) 1 (p / 4 % 16) 4 (pkts.foldl (fun n y => n + y.loadWords) 0)).2
        let discarded := fun t : State => returned t ∧ t.rd (PORT_MALFORMED.addr p) = s.rd (PORT_MALFORMED.addr p) + 1 ∧ t.hasCause (srcLink p) 6 ∧
          t.ingress = s.ingress ∧ t.waiting = s.waiting
        -- a Lock or Unlock is checked before it is refused (R340, R442)
        let permitted := s.tollCheck (portDie p) { id := k.src, partition := some k.partition } k.kind k.dest k.checkedAddr = .permit
        let answered := fun t : State => returned t ∧ t.ingress = s.ingress ∧ (k.nonPosted = false → t.waiting = s.waiting) ∧
          (k.nonPosted = true → ∀ x xs, s.pathFrom (p / 4) (s.egress d k.src) = some (x :: xs) → ∃ w, t.waiting = s.waiting ++ [w] ∧ w.point = x ∧ w.path = xs ∧
            w.pkt.ptype = 7 ∧ w.pkt.status = (if (k.ptype = 5 ∨ k.ptype = 6) ∧ n < 256 ∧ ¬ permitted then 2 else 1) ∧ w.pkt.dest = k.src ∧ w.pkt.tag = k.tag ∧ w.pkt.payload = [])
        let forwards := fun (t : State) (path : Option (List Nat)) => returned t ∧ t.ingress = s.ingress ∧
          ∀ x xs, path = some (x :: xs) → ∃ w, t.waiting = s.waiting ++ [w] ∧ w.pkt = k ∧ w.point = x ∧ w.path = xs ∧ w.ingress = p
        -- a request that a completion for another package answers, and whose reservation a reset took back (R426)
        let answers := fun o : Outstanding => o.transit = true ∧ ∃ r, o.native = some r ∧ r.src = k.dest ∧ r.tag = k.tag
        let stale := fun o : Outstanding => o.transit && o.answered && (match o.native with | some r => r.src = k.src && r.tag = k.tag | none => false)
        let stays := fun t : State => (t.link p).arrived = rest ∧ (t.link p).returned = l.returned ∧ t.ingressQ (16 * p + k.pair) = s.ingressQ (16 * p + k.pair) ++
          [{ id := id, transit := true, pkts := [k], holds := bfHolds p k, received := at_, requester := if k.nonPosted then id else 0, order := id, hurt := hurt [k] }] ∧
          (k.nonPosted = true → ∃ o, t.outstanding = (s.outstanding.filter fun x => !stale x) ++ [o] ∧ o.id = id ∧ o.transit = true ∧ o.native = some k ∧ o.port = p ∧ o.received = at_) ∧
          (k.nonPosted = false → t.outstanding = s.outstanding)
        let loss := k.ptype = 8 ∧ k.sub = 3
        let barred := s.isBf n = true ∨ s.isPort n = false
        let leaves := s.malformed p k = true ∨ (¬ here ∧ (k.isCompletion = true ∨ k.ptype = 0xA)) ∨ (here ∧ k.isCompletion = false ∧
          ((256 ≤ n ∧ s.endpointExists n = false) ∨ (n < 256 ∧ (loss ∨ (n ≠ p ∧ barred) ∨ (n = p ∧ k.ptype ∉ [1, 2, 3, 4])))))
        (leaves → ¬ free → rest = [] → nothing c) ∧
        (s.malformed p k = true → free → done c discarded) ∧
        (s.malformed p k = false →
          (¬ here → k.isCompletion = false → k.ptype ≠ 0xA → done c stays) ∧
          (here → k.isCompletion = true → s.findPiece k.dest k.tag = none → free → done c fun t => returned t ∧ t.ingress = s.ingress ∧ t.outstanding = s.outstanding) ∧
          (here → k.isCompletion = true → ∀ o, s.findPiece k.dest k.tag = some o → o.answered = false → free → done c fun t => forwards t
            ((s.pathFrom (p / 4) (s.egress d k.dest)).map List.dropLast) ∧ t.outstanding = s.outstanding) ∧
          (here → k.isCompletion = false → loss → n < 256 ∨ s.endpointExists n = true → free → done c fun t => returned t ∧ t.ingress = s.ingress ∧ t.waiting = s.waiting) ∧
          (¬ here → k.isCompletion = true ∨ k.ptype = 0xA → (k.isCompletion = true → ∀ o ∈ s.outstanding, answers o → o.answered = false) → free → done c fun t =>
            forwards t (s.pathFrom (p / 4) (s.egress d k.dest))) ∧
          (¬ here → k.isCompletion = true → (∃ o ∈ s.outstanding, answers o) → (∀ o ∈ s.outstanding, answers o → o.answered = true ∧ o.port = p) → free → done c fun t =>
            returned t ∧ t.waiting = s.waiting ∧ counts s t (PORT_SLUICE.LATE_ANSWERS p) ∧ t.hasCause (srcTxn p) 1) ∧
          (here → k.isCompletion = false → 256 ≤ n → s.endpointExists n = false → free → done c (if k.nonPosted then answered else discarded)) ∧
          (here → k.isCompletion = false → 256 ≤ n → s.endpointExists n = true → ¬ loss → k.ptype ≠ 0xA → done c stays) ∧
          (here → k.isCompletion = false → n < 256 → ¬ loss → n ≠ p → barred → free → done c answered) ∧
          (here → k.isCompletion = false → n < 256 → ¬ loss → n ≠ p → ¬ barred → done c stays) ∧
          (here → k.isCompletion = false → ¬ loss → n = p → k.ptype ∉ [1, 2, 3, 4] → free → done c answered) ∧
          (here → k.isCompletion = false → n = p → k.ptype ∈ [1, 2, 3, 4] → s.decodeWindow (p / 4) .bf k.partition k.addr = none → free → done c fun t => answered t ∧
            counts s t (WIN_TRACK.NO_MATCH (p / 4)) ∧ t.hasCause (srcTxn p) 6) ∧
          ∀ w, here → k.isCompletion = false → n = p → k.ptype ∈ [1, 2, 3] → s.decodeWindow (p / 4) .bf k.partition k.addr = some w →
            (k.ptype = 1 → w.sef = false ∧ s.stream w.n k.src = none) → (k.ptype ≠ 1 → ∀ y ∈ s.streams, y.cluster = p / 4 → y.inFlight = []) → done c fun t => (t.link p).arrived = rest ∧
            let ack := w.acknowledged = true ∨ s.get (WIN_STATE.ESCALATED w.n) = 1 ∨ k.ptype = 3
            ∃ q, t.ingressQ (16 * p + k.pair) = s.ingressQ (16 * p + k.pair) ++ [q] ∧ q.holds = bfHolds p k ∧ q.transit = false ∧ q.hurt = hurt q.pkts ∧
              q.requester = (if k.ptype = 1 ∨ ack then id else 0) ∧
              (∀ y ∈ q.pkts, y.ptype = (if k.ptype = 1 then 1 else if ack then 3 else 2) ∧ y.src = s.fabricId p ∧ y.window = w.n ∧ y.cls = w.cls ∧ y.partition = k.partition ∧
                y.dest = if w.kind = 4 then s.fabricId (w.target % 1024) else w.target) ∧
              (k.ptype = 1 ∨ ack → ∃ o, t.outstanding = s.outstanding ++ [o] ∧ o.id = id ∧ o.native = some k ∧ o.port = p) ∧
              (¬ (k.ptype = 1 ∨ ack) → t.outstanding = s.outstanding))) ∧
      (∀ k : Packet,
        let c := Instr.writeLossEventReceive p k
        let loss := takes ∧ k.ptype = 8 ∧ k.sub = 3 ∧ k.isCompletion = false
        (¬ (takes ∧ k.ptype = 8 ∧ k.sub = 3) → nothing c) ∧
        (loss → s.tollCheck (portDie p) { id := k.src, partition := some k.partition } k.kind k.dest k.checkedAddr = .permit → done c fun t =>
          t.ingress = s.ingress ∧ t.waiting = s.waiting ∧ ∀ q, s.localPort k.dest = some q → t.hasCause (srcTxn q) 5) ∧
        (loss → s.tollCheck (portDie p) { id := k.src, partition := some k.partition } k.kind k.dest k.checkedAddr ≠ .permit → done c fun t =>
          t.ingress = s.ingress ∧ t.waiting = s.waiting ∧ ∀ q < 256, t.rd (EVT_SRC_A.addr (srcTxn q)) = s.rd (EVT_SRC_A.addr (srcTxn q)))) ∧
      ∀ k : Packet,
        let c := Instr.burekCompletionReceive p k
        let mine := takes ∧ k.isCompletion = true ∧ k.dest / 1024 = s.rank
        (¬ mine ∨ s.findPiece k.dest k.tag = none → nothing c) ∧
        (∀ o x, mine → s.findPiece k.dest k.tag = some o → o.ptype ≠ 5 → o.prefetch = false → k.ptype = 0xB → o.tlp = some x → o.answered = false →
          let last := lastBarge (o.pieces.foldl (fun n y => n + y.len) 0) o.sent k
          (last = true → done c fun t => ∀ y ∈ t.outstanding, y.id ≠ o.id) ∧
          (last = false → done c fun t => t.outstanding = s.outstanding.map fun y => if y.id = o.id then { o with sent := o.sent + k.frameData.length } else y)) ∧
        ∀ o, mine → s.findPiece k.dest k.tag = some o → o.ptype ≠ 5 → o.prefetch = false → k.ptype ≠ 0xB →
          let pieces := answerPiece k o.pieces
          let all := pieces.all fun x => x.status.isSome
          (o.answered = true → o.port < 256 → done c fun t => counts s t (PORT_SLUICE.LATE_ANSWERS o.port) ∧ t.hasCause (srcTxn o.port) 1 ∧
            t.outstanding = if all then s.outstanding.filter (fun x => x.id ≠ o.id) else s.outstanding.map fun x => if x.id = o.id then { o with pieces := pieces } else x) ∧
          (o.answered = false → o.asWrite = true → all = true → k.status = 0 → done c fun t => ∀ x ∈ t.outstanding, x.id ≠ o.id) ∧
          (o.answered = false → o.asWrite = false → o.port < 1024 → all = true → s.writesBefore o.port o.requester o.window o.id = false →
            s.failuresBefore o.port o.requester o.window o.id = [] → done c fun t => ∀ x ∈ t.outstanding, x.id ≠ o.id)) ∧
    (∀ point,
      let c := Instr.packetPlace point
      let chosen := choose (s.placeable point)
      -- of several packets, another goes on in place of one that cannot (R315)
      let alone := fun w : Waiting => s.placeable point = [w]
      (chosen = none ∨ s.shutAt point = true → nothing c) ∧
      ∀ w, chosen = some w → s.shutAt point = false → point < 2000 →
        let held := w.holds.filter fun h => !(inFlightOf w).contains h
        -- what an injection does to the packet in the crossing behind the point (R533): nothing, a word corrected, or a payload or header word in error
        let met := (s.cross point w.pkt).2
        let crosses := fun (P : State → Prop) => completesIn (wider workSame crossReg) c s s fun t => P t ∧ (met.testBit 0 = true → t.hasCause (srcCluster (point % 100) 40) 2) ∧
          (2 ≤ met → t.hasCause (srcCluster (point % 100) 40) 3)
        (∀ x xs, w.path = x :: xs → ¬ (200 ≤ point ∧ point < 300) →
          let next := { w with point := x, path := xs, holds := held }
          (met = 0 → done c fun t => t.waiting = s.waiting.erase w ++ [next] ∧ t.out = []) ∧
          (point < 200 → met.testBit 1 = false → crosses fun t => t.waiting = s.waiting.erase w ++ [if met.testBit 2 then next.poisoned else next] ∧ t.out = []) ∧
          (point < 200 → met.testBit 1 = true → crosses fun t => t.get (DIE_XDISCARD.VALUE (clusterDie (point % 100))) =
            (s.get (DIE_XDISCARD.VALUE (clusterDie (point % 100))) + 1) % 2 ^ 64)) ∧
        (w.path = [] → point < 1000 → w.hurt = 0 → met = 0 → s.findPiece w.pkt.dest w.pkt.tag = none → done c fun t => t.waiting = s.waiting.erase w ∧
          t.outstanding = s.outstanding ∧ t.out = []) ∧
        (∀ x xs, w.path = x :: xs → 200 ≤ point → point < 300 →
          let d := (point - 200) / 4
          let room := (((s.unwait w).returnAll (inFlightOf w)).ledger (dieLedger d (67 + (point - 200) % 4))).room w.pkt.credits
          (room = false → alone w → nothing c) ∧
          (room = true → done c fun t => ∃ v, t.waiting = s.waiting.erase w ++ [v] ∧ v.pkt = w.pkt ∧ v.point = x ∧ v.path = xs)) ∧
        (∀ p < 256, point = 1000 + p → w.path = [] → w.hurt.testBit 1 = true → done c fun t => t.hasCause (srcDie (portDie p) 1) 1 ∧
          (w.pkt.isCompletion = true → t.waiting = s.waiting.erase w ∧ counts s t (PORT_SLUICE.LATE_ANSWERS p))) ∧
        ∀ p < 256, point = 1000 + p → w.path = [] → w.hurt = 0 → s.refuses p w = false →
          -- a Lock or Unlock for a port of this package has ended at a port that is no PD port (R340)
          let lost := (w.pkt.ptype = 5 ∨ w.pkt.ptype = 6) ∧ w.pkt.dest / 1024 = s.rank
          let sent := { w.pkt with hops := w.pkt.hops + 1 }
          (s.isBf p = true → s.bfUp p = true → ¬ lost → w.credit ≠ [] → done c fun t => t.waiting = s.waiting.erase w ∧ .packetOut p sent ∈ t.out ∧
            (t.link p).txMarks = (s.link p).txMarks ++ [((s.link p).txElements.length + 3, sent)] ∧ (t.link p).txElements = (s.link p).txElements ++ sent.words ∧
            -- what it holds returns with its last element (R415)
            (t.link p).txEnds = (s.link p).txEnds ++ [((s.link p).txElements.length + sent.words.length - 1, { w with holds := held })] ∧ t.ledgers = (s.returnAll (inFlightOf w)).ledgers) ∧
          (s.isBf p = true → s.bfUp p = false → alone w → nothing c) ∧
          (s.isBf p = false → s.get (PORT_PCIE.LINK_STATE p) ≠ 3 → alone w → nothing c) ∧
          (s.isBf p = false → s.get (PORT_PCIE.LINK_STATE p) = 3 → w.tlps ≠ [] → w.credit ≠ [] ∨ s.roomSum (tlpCredits p w.tlps) = true → done c fun t =>
            t.waiting = s.waiting.erase w ∧ t.out = w.tlps.map (Output.tlpOut p))) ∧
    (∀ p < 256, ∀ x : Tlp, ∀ code, x.kind = .completion code →
      let c := Instr.deviceCompletionReceive p x
      let up := (s.isPu p = true ∨ s.isPd p = true) ∧ s.get (PORT_PCIE.DL_ACTIVE p) = 1 ∧ s.portDark p = false
      let asked := s.device.find? fun d => d.port = p && d.tag = x.tag && !d.waitAck
      (¬ up → nothing c) ∧
      (up → asked = none → done c fun t => t.device = s.device ∧ told t [] ∧ t.hasCause (srcPcie p) 9) ∧
      (∀ d, up → asked = some d → d.timedOut = true → done c fun t => t.device = s.device.filter (fun y => y ≠ d) ∧ told t [] ∧ t.hasCause (srcPcie p) 9) ∧
      (∀ d, up → asked = some d → d.timedOut = false → d.answered = true → done c fun t => t.device = s.device.filter (fun y => y ≠ d) ∧ told t []) ∧
      ∀ d k, up → asked = some d → d.timedOut = false → d.answered = false → d.pkt = some k → k.ptype = 1 → code = 0 →
        let size := (d.data ++ x.data).length
        (size < k.len → done c fun t => t.device = s.device.map (fun y => if y = d then { d with data := d.data ++ x.data, poison := d.poison || x.poison } else y) ∧ told t []) ∧
        (k.len ≤ size → done c fun t => t.device = s.device.filter fun y => y ≠ d)) ∧
    (∀ p tag,
      let c := Instr.pdTlpAcknowledged p tag
      let asked := s.device.find? fun d => d.port = p && d.waitAck && (match d.pkt with | some k => k.tag = tag | none => false)
      (asked = none → nothing c) ∧
      ∀ d, p < 256 → asked = some d → done c fun t => t.device = s.device.filter fun y => y ≠ d) ∧
    ∀ c i,
      let stream := (s.streams.filter fun (x : Stream) => decide (x.cluster = c))[i]?
      let times := fun x : Stream => (x.blocks.filter fun b => decide (b.2.2 ≠ 0)).map (·.2.2)
      (stream = none → nothing (.prefetchExpiry c i)) ∧
      ∀ x, stream = some x → (times x = [] → nothing (.prefetchExpiry c i)) ∧
        ∀ first rest, times x = first :: rest → (x.blocks.map (·.1) ++ x.inFlight).Nodup → completesIn workSame (.prefetchExpiry c i) s (s.waitUntil (rest.foldl min first + 10000 * ticksPerNs)) fun t =>
          ∃ y, t.streams = s.streams.map (fun z => if z = x then y else z) ∧ y.blocks = x.blocks.filter (fun b => decide (b.2.2 = 0 ∨ t.now < b.2.2 + 10000 * ticksPerNs)) ∧
            y.inFlight = x.inFlight ∧ y.window = x.window

/-- O45. Locked sequences on their near and far sides, and configuration at a PD port. On a quiet state of a package with a rank below 64. At a PD
port whose link is up: a Lock packet from another package that the Toll Table refuses, to a port that may not be locked, or while the package lock is
another's, is answered and locks nothing; while the package lock is Free (or sought by this very owner) it is taken for its source, LOCKED sets and
the locked read is issued; from the present owner the read is issued under the same lock. An Unlock packet of the owner clears LOCKED, Held far
becomes Free and Held both becomes Held near. LOCK_HOLD_EXPIRY ends the lock of a locked port, counted in BREAKS with cause 7. On the near side, a
Lock's grant turns Requested into Held near, or Held both for a target here, and its failure into Free; a busy answer backs the locked read off for a
wait that R350 gives (its draw a free value, log entry 29), and yields its package lock, counted in YIELDS, to a target of higher rank;
LOCK_BACKOFF_EXPIRY, at the end of that wait, puts the Lock back at the head of its queue; the host's Unlock on the holder's port queues an Unlock
packet to the target; LOCK_BOUND_EXPIRY queues a CA answer of the oldest locked read at its port and an Unlock to the target, counted in
LOCK_SURROGATE. A Config packet that the handler engine does not answer itself joins its list, and is issued at once when none is out; a locked port
holds back one that is not its owner's; none is taken without a free tag, and one that the handler engine does not serve becomes its item;
CONFIG_RETRY_TIMER issues the retried one again, but not while the port is locked for another; CONFIG_RETRY_TIMEOUT, half the surrogate bound after it
came, ends it. -/
def Obligations.LockedSequences : Prop :=
  ∀ (s : State), s.quiet → s.rank < 64 →
    let nothing := fun c : Instr => completes c s { s with out := [] }
    let done := fun (c : Instr) (P : State → Prop) => completesIn workSame c s s P
    let st := fun t : State => t.get PKG_LOCK.STATE
    let kept := fun t : State => t.rd PKG_LOCK.addr = s.rd PKG_LOCK.addr
    let free := fun t : State => st t = 0 ∧ t.get PKG_LOCK.OWNER = 0 ∧ t.get PKG_LOCK.OWNER_PART = 0 ∧ t.get PKG_LOCK.TARGET = 0
    (∀ p < 256, ∀ k : Packet, k.src < 65536 → k.partition < 1024 →
      let up := s.isPd p = true ∧ s.get (PORT_PCIE.DL_ACTIVE p) = 1 ∧ s.portDark p = false
      let locked := s.get (PORT_LOCK.LOCKED p) = 1
      let far := k.src / 1024 ≠ s.rank
      -- the Toll Table permits a packet of another package (R340, R498)
      let permitted := far → s.tollCheck (portDie p) { id := k.src, partition := some k.partition } k.kind k.dest k.checkedAddr = .permit
      let open_ := st s = 0 ∨ (st s = 1 ∧ ¬ far ∧ s.get PKG_LOCK.OWNER = k.src)
      let same := (st s = 3 ∨ st s = 4) ∧ s.get PKG_LOCK.OWNER = k.src ∧ s.get PKG_LOCK.OWNER_PART = k.partition ∧ s.get PKG_LOCK.TARGET = s.fabricId p
      let reads := fun t : State => (∃ d, t.device = s.device ++ [d] ∧ d.port = p ∧ d.pkt = some k) ∧ ∃ x, t.out = [.tlpOut p x] ∧ x.kind = .memReadLock
      -- a tag of the pool is free (R229), and the port's handler engine serves the packet (R334, log entry 68)
      let tagged := (s.ledger (portLedger p 27)).room 1 = true
      let takes := permitted ∧ tagged ∧ s.serves p 1 = true
      let e := s.engine (handlerOf p)
      let full := e.run ≠ .halted ∧ 32 ≤ e.queue.length
      -- the engine holds another program: the packet becomes its REQUEST item (Table 01-10)
      let other := fun c : Instr => (permitted → ¬ tagged → nothing c) ∧ (permitted → s.serves p 1 = false → full → nothing c) ∧
        (permitted → tagged → s.serves p 1 = false → ¬ full → ∃ engines dataMem, completesIn workSame c s { s with engines := engines, dataMem := dataMem } fun t =>
          kept t ∧ t.portLocks = s.portLocks ∧ t.configJobs = s.configJobs ∧ t.device = s.device ∧ t.out = [] ∧ (e.run = .halted → t.engine (handlerOf p) = e) ∧
          (e.run ≠ .halted → ∃ (i : EngineItem) (r : ReplyTo), i.kind = 1 ∧ i.port = s.fabricId p ∧ i.payload = k.payload ∧ i.header = k.elements.flatMap (fun x => leBytes 8 x) ∧
            r = (if k.nonPosted then .burek k else .none) ∧ (e.run ≠ .waiting → t.engine (handlerOf p) = { e with queue := e.queue ++ [(i, r, s.now)] }) ∧
            (e.run = .waiting → e.queue = [] → (t.engine (handlerOf p)).run = .running ∧ (t.engine (handlerOf p)).pc = 1 ∧ (t.engine (handlerOf p)).reply = r)))
      (¬ (up ∧ k.ptype = 5) → nothing (.lockPacketReceive p k)) ∧ (up → k.ptype = 5 → other (.lockPacketReceive p k)) ∧
      (up → k.ptype = 5 → takes → s.lockable p = true → open_ → done (.lockPacketReceive p k) fun t => reads t ∧ t.get (PORT_LOCK.LOCKED p) = 1 ∧
        st t = (if far then 3 else 4) ∧ t.get PKG_LOCK.OWNER = k.src ∧ t.get PKG_LOCK.OWNER_PART = k.partition ∧ t.get PKG_LOCK.TARGET = s.fabricId p ∧
        (t.portLock p).owner = k.src ∧ (t.portLock p).partition = k.partition ∧ (t.portLock p).since = s.now) ∧
      (up → k.ptype = 5 → takes → s.lockable p = true → ¬ open_ → same → done (.lockPacketReceive p k) fun t => reads t ∧ kept t ∧ t.portLocks = s.portLocks) ∧
      (up → k.ptype = 5 → far → ¬ permitted ∨ (takes ∧ (s.lockable p = false ∨ (¬ open_ ∧ ¬ same))) → done (.lockPacketReceive p k) fun t => kept t ∧ t.portLocks = s.portLocks ∧
        t.rd (PORT_LOCK.addr p) = s.rd (PORT_LOCK.addr p) ∧ t.device = s.device ∧ t.out = []) ∧
      (¬ (up ∧ k.ptype = 6) → nothing (.unlockPacketReceive p k)) ∧ (up → k.ptype = 6 → other (.unlockPacketReceive p k)) ∧
      (up → k.ptype = 6 →
        let owner := locked ∧ (s.portLock p).owner = k.src ∧ (s.portLock p).partition = k.partition
        (takes → owner → done (.unlockPacketReceive p k) fun t => t.get (PORT_LOCK.LOCKED p) = 0 ∧
          (s.get PKG_LOCK.TARGET = s.fabricId p → (st s = 3 → free t) ∧ (st s = 4 → st t = 2)) ∧ .tlpOut p { kind := .message 0 } ∈ t.out) ∧
        (¬ permitted ∨ (takes ∧ ¬ owner) → done (.unlockPacketReceive p k) fun t => kept t ∧ t.portLocks = s.portLocks ∧ t.get (PORT_LOCK.LOCKED p) = s.get (PORT_LOCK.LOCKED p))) ∧
      (let c := Instr.configPacketReceive p k
       let out := ∃ j ∈ s.configJobs, j.port = p ∧ j.issued = true
       let held := locked ∧ ¬ ((s.portLock p).owner = k.src ∧ (s.portLock p).partition = k.partition)
       (¬ (up ∧ k.ptype = 9) → nothing c) ∧ (up → k.ptype = 9 → ¬ held → other c) ∧ (up → k.ptype = 9 → permitted → ¬ tagged → nothing c) ∧
       (up → k.ptype = 9 → ¬ permitted → done c fun t => t.configJobs = s.configJobs ∧ t.portLocks = s.portLocks ∧ t.out = []) ∧
       (up → k.ptype = 9 → permitted → tagged → held → s.basinPresent (portDie p) 14 = true → (s.ledger (dieLedger (portDie p) 14)).room k.credits = true → done c fun t =>
         (∃ w, (t.portLock p).held = (s.portLock p).held ++ [w] ∧ w.pkt = k) ∧ t.configJobs = s.configJobs ∧ t.out = []) ∧
       (∀ d, up → k.ptype = 9 → takes → ¬ held → s.intercept p k = some d → done c fun t => t.configJobs = s.configJobs) ∧
       (up → k.ptype = 9 → takes → ¬ held → s.intercept p k = none → out → done c fun t => t.configJobs = s.configJobs ++ [{ port := p, pkt := s.toDevice p k, received := s.now }] ∧ t.out = []) ∧
       (up → k.ptype = 9 → takes → ¬ held → s.intercept p k = none → (∀ j ∈ s.configJobs, j.port ≠ p) → s.flr.contains (p, k.addr / 65536 % 256) = false → done c fun t =>
         (∃ j, t.configJobs = s.configJobs ++ [j] ∧ j.port = p ∧ j.pkt = s.toDevice p k ∧ j.issued = true ∧ j.received = s.now) ∧
         ∃ x, t.out = [.tlpOut p x] ∧ x.kind = (if k.sub = 1 then .cfgWrite false else .cfgRead false) ∧ x.addr = k.addr % 4096 ∧ x.target = 256 + k.addr / 65536 % 256))) ∧
    (∀ p < 256,
      let locked := s.get (PORT_LOCK.LOCKED p) = 1
      let l := s.portLock p
      let holder := (st s = 1 ∨ st s = 2 ∨ st s = 4) ∧ s.get PKG_LOCK.OWNER = s.fabricId p
      let pu := s.isPu p = true ∧ s.get (PORT_PCIE.DL_ACTIVE p) = 1 ∧ s.portDark p = false
      (locked → completesIn workSame (.lockHoldExpiry p) s (s.waitUntil (l.since + 1000 * ticksPerNs * l.limit)) fun t =>
        t.get (PORT_LOCK.LOCKED p) = 0 ∧ counts s t (PORT_LOCK.BREAKS p) ∧ t.hasCause (srcPcie p) 7) ∧
      (¬ locked → nothing (.lockHoldExpiry p)) ∧
      -- the near side keeps the lock until the Unlock is sent (R337)
      (pu → s.serves p 4 = true → holder → done (.unlockMessageReceive p) fun t => kept t ∧
        ∃ q k, t.ingressQ (16 * p + 1) = s.ingressQ (16 * p + 1) ++ [q] ∧ q.pkts = [k] ∧ k.ptype = 6 ∧ k.dest = s.get PKG_LOCK.TARGET ∧ k.src = s.fabricId p ∧
          k.partition = s.get PKG_LOCK.OWNER_PART ∧ k.cls = s.lockClass) ∧
      (pu → s.serves p 4 = false → ∃ engines dataMem, completesIn workSame (.unlockMessageReceive p) s { s with engines := engines, dataMem := dataMem } fun t =>
        s.handed t p 4 { kind := .message 0 } false) ∧
      (¬ pu → nothing (.unlockMessageReceive p)) ∧ (pu → s.serves p 4 = true → ¬ holder → completes (.unlockMessageReceive p) s { s.portHeard p with out := [] }) ∧
      (∀ j, s.configOut p = some j → (j.retrying = false ∨ s.lockedOut p j.pkt = true → nothing (.configRetryTimer p)) ∧
        (j.retrying = true → s.lockedOut p j.pkt = false → completesIn workSame (.configRetryTimer p) s (s.waitUntil j.retryAt) fun t => t.configJobs = s.configJobs.map (fun x => if x.port = p ∧ x.issued = true then { x with retrying := false } else x) ∧
          ∃ x, t.out = [.tlpOut p x] ∧ x.kind = (if j.pkt.sub = 1 then .cfgWrite false else .cfgRead false) ∧ x.addr = j.pkt.addr % 4096) ∧
        completesIn workSame (.configRetryTimeout p) s (s.waitUntil (j.received + s.surrogateBound / 2)) fun t =>
          t.configJobs.map (fun x => (x.port, x.pkt, x.received)) = (s.configJobs.filter fun x => !(x.port = p && x.issued)).map fun x => (x.port, x.pkt, x.received)) ∧
      (s.configOut p = none → nothing (.configRetryTimer p) ∧ nothing (.configRetryTimeout p))) ∧
    (∀ k : Packet, k.ptype ≠ 7 → nothing (.lockGrantReceive k) ∧ nothing (.lockBusyReceive k)) ∧
    (∀ k : Packet, k.ptype = 7 →
      let busy := k.status = 0 ∧ k.len = 0 ∧ k.addr = 0
      (busy → nothing (.lockGrantReceive k)) ∧ (¬ busy → nothing (.lockBusyReceive k)) ∧
      (s.findPiece k.dest k.tag = none → nothing (.lockGrantReceive k) ∧ nothing (.lockBusyReceive k)) ∧
      ∀ o, s.findPiece k.dest k.tag = some o → o.ptype = 5 → o.answered = false → o.port < 256 →
        (¬ busy → done (.lockGrantReceive k) fun t => t.lockWait = s.lockWait.filter (fun x => x.id ≠ o.id) ∧
          (st s = 1 → k.status = 0 → st t = if o.dest / 1024 = s.rank then 4 else 2) ∧ (st s = 1 → k.status ≠ 0 → free t) ∧ (st s ≠ 1 → kept t)) ∧
        (busy → done (.lockBusyReceive k) fun t =>
          let yields := s.rank < o.dest / 1024
          t.lockWait = s.lockWait.map (fun x => if x.id = o.id then { x with busy := x.busy + 1, backoff := true, sent := if yields then false else x.sent, untilTick := s.now + s.backoffWait (o.dest / 1024) o.dest (x.busy + 1) } else x) ∧
          -- the lock that stands for this target is let go (R350)
          let mine := (st s = 1 ∨ st s = 2 ∨ st s = 4) ∧ s.get PKG_LOCK.OWNER = s.fabricId o.port ∧ s.get PKG_LOCK.TARGET = o.dest
          (yields → counts s t PKG_LOCK.YIELDS ∧ (mine → (st s = 4 → st t = 3) ∧ (st s ≠ 4 → free t)) ∧ (¬ mine → st t = st s ∧ t.get PKG_LOCK.TARGET = s.get PKG_LOCK.TARGET)) ∧
          (¬ yields → kept t) ∧ ∃ y ∈ t.outstanding, y.id = o.id ∧ y.admitted = false ∧ y.holds = [])) ∧
    ((∀ x ∈ s.lockWait, x.backoff = false) → nothing .lockBackoffExpiry) ∧
    (∀ x o k ks, s.lockWait.find? (fun x => x.backoff) = some x → s.outstanding.find? (fun o => o.id = x.id) = some o →
      piecesOf (s.template x.port x.tlp (s.window o.window) o.partition 5) (s.window o.window) o.tgt x.tlp.lockOffsets [] false = k :: ks →
      completesIn workSame .lockBackoffExpiry s (s.waitUntil x.untilTick) fun t => t.lockWait = s.lockWait.map (fun y => if y.id = x.id then { y with backoff := false } else y) ∧
        ∃ q, t.ingressQ (16 * x.port + 1) = q :: s.ingressQ (16 * x.port + 1) ∧ q.pkts = [k] ∧ q.requester = o.id) ∧
    (s.lockWait = [] → nothing .lockBoundExpiry) ∧
    ∀ x rest o, s.lockWait = x :: rest → s.outstanding.find? (fun o => o.id = x.id) = some o → o.port < 256 →
      completesIn workSame .lockBoundExpiry s (s.waitUntil (o.received + min (100000 * ticksPerNs) s.surrogateBound)) fun t =>
        told t [] ∧ t.lockWait = s.lockWait.filter (fun y => y.id ≠ x.id) ∧ counts s t PKG_LOCK.LOCK_SURROGATE ∧
        (∃ w, t.waiting = s.waiting ++ [w] ∧ w.point = 1000 + o.port ∧ w.path = [] ∧ w.tlps = [cplFor x.tlp .ca x.tlp.addr []]) ∧
        ∃ q k, (t.ingressQ (16 * o.port + 1)).getLast? = some q ∧ q.pkts = [k] ∧ k.ptype = 6 ∧ k.src = s.fabricId o.port ∧ k.dest = o.dest

/-- O46. Links of PU and PD ports: up, down, hot reset, Recovery and L1. On a quiet state. PU_LINK_UP and PD_LINK_UP with a width and rate that the
port can train, while the port may train: a link in Recovery returns to L0; one that is up otherwise is left alone; one that the port record wants in
Flit Mode but is not sets cause 1; else it stands in L0 with its width, rate and mode, its lanes are idle no longer, its partner's credits, and its
own (log entry 85), are the totals of the flow-control ledgers, its support of L0p is kept, and cause 0 is not live; bounds that change are published
with cause 0xA, or 0x7 after a reload has reset the port. A PD port also keeps the device found, sizes its tag pool while no tag is out, gives each
BAR, Expansion ROM BAR and VF BAR an address and function 0 a payload size no larger than MPS_MAX by configuration writes that draw tags of the pool,
and hides each binding that the device does not fit, and each VF that it lacks, with cause 5. TAG_POOL_RESIZE sizes the pool of a PD link that is up
while no tag is out. A link that goes down is counted in LINK_DOWNS with cause 0 and leaves DL_ACTIVE; at a PD port Surprise Down is logged with cause
9 and the port is contained with REASON 1; at a PU port the virtual switch, its DOE instance with it, returns to its reset values, as a hot reset of
the PU link does, which takes it to LINK_STATE 7. PCIE_RECOVERY takes a link to Recovery, counted in RECOVERIES with causes 7 and 8, and shows a width
or rate that changed. ASPM_L1_ENTRY takes a link in L0 to L1 where the port permits it and, at a PU port, no request of its partition is in flight;
ASPM_L1_EXIT returns it. Otherwise the commands change nothing. -/
def Obligations.PcieLinks : Prop :=
  ∀ (s : State) (p : Nat), s.quiet → p < 256 →
    let nothing := fun c : Instr => completes c s { s with out := [] }
    let done := fun (c : Instr) (P : State → Prop) => completesIn workSame c s s P
    let pu := s.isPu p = true
    let pd := s.isPd p = true
    let active := s.get (PORT_PCIE.DL_ACTIVE p) = 1
    let link := s.get (PORT_PCIE.LINK_STATE p)
    let inService := (pu ∨ pd) ∧ active ∧ s.portDark p = false
    let trains := fun (width rate : Nat) (flit : Bool) => width ∈ [1, 2, 4, 8, 16] ∧ width ≤ s.portWidth p ∧ 1 ≤ rate ∧ rate ≤ s.laneRec (s.firstLane p) 1 1 ∧ (flit = true ∨ rate < 6)
    let shows := fun (t : State) (width rate : Nat) => t.get (PORT_PCIE.LINK_STATE p) = 3 ∧ t.get (PORT_PCIE.DL_ACTIVE p) = 1 ∧ t.get (PORT_PCIE.RATE p) = rate ∧
      t.get (PORT_PCIE.WIDTH p) = width ∧ t.get (PORT_PCIE.ACTIVE_WIDTH p) = width
    let down := fun (t : State) (state : Nat) => t.get (PORT_PCIE.LINK_STATE p) = state ∧ t.get (PORT_PCIE.DL_ACTIVE p) = 0 ∧ t.get (PORT_PCIE.WIDTH p) = 0
    let partners := fun l0p : Bool => (s.l0pPartners.filter fun x => x ≠ p) ++ if l0p then [p] else []
    let rises := fun (t : State) (width rate : Nat) (flit : Bool) (credits : List Nat) => shows t width rate ∧ (∀ l ∈ s.portLanes p, (t.laneSt l).idle = false) ∧ t.get (PORT_PCIE.FLIT p) = (if flit then 1 else 0) ∧
      (∀ i < 6, (t.ledger (portLedger p (2 + i))).total = credits.getD i 0 ∧ (t.ledger (portLedger p (14 + i))).total = Config.advertisedCredits p i) ∧ (t.get (EVT_SRC_A.LIVE (srcLink p))).testBit 0 = false
    let virtual := { s with virt := s.virt.filter (fun x => decide (virtOwner x.1 ≠ p)), rings := s.rings.filter fun x => decide (x.1 ≠ p)
                            doe := s.doe.filter fun x => decide (x.1 ≠ 2 + p), doeOrder := s.doeOrder.filter fun n => decide (n ≠ 2 + p) }
    -- a port that a partial reload has reset publishes with cause 0x7, and with 0xA from then on (R396)
    let back := if p ∈ s.modes.restoring then 7 else 0xA
    let restored := fun r : List Nat => (p ∉ s.modes.restoring → r = s.modes.restoring) ∧ (r = s.modes.restoring ∨ r = s.modes.restoring.filter (· ≠ p))
    let pool := fun (flit : Bool) (d : DeviceInfo) => if s.portRec p 70 1 = 2 ∧ flit = true ∧ d.tag14 = true then 2 else if 1 ≤ s.portRec p 70 1 ∧ d.tag10 = true then 1 else 0
    let tags := fun (t : State) (n : Nat) => t.get (PORT_PCIE.TAG_BITS p) = n ∧ (t.ledger (portLedger p 27)).total = if n = 2 then 16384 else if n = 1 then 1024 else 256
    let idle := (s.ledger (portLedger p 27)).out = 0 ∧ s.get (PORT_PCIE.TAGS_OUT p) = 0
    (∀ width rate (mode : FlitMode) credits, rate < 16 →
      let c := Instr.puLinkUp p width rate mode credits
      let takes := pu ∧ s.mayTrain p = true ∧ trains width rate mode.on
      let modeBad := s.portRec p 65 1 = 1 ∧ mode.on = false
      (¬ takes ∨ (active ∧ link ≠ 4) → nothing c) ∧
      (takes → active → link = 4 → done c fun t => shows t width rate ∧ publishes s t 3) ∧
      (takes → ¬ active → modeBad → done c fun t => t.hasCause (srcLink p) 1 ∧ t.rd (PORT_PCIE.addr p) = s.rd (PORT_PCIE.addr p)) ∧
      (takes → ¬ active → ¬ modeBad → ∃ r, restored r ∧ completesIn workSame c s { s with l0pPartners := partners (mode == .flitL0p), modes := { s.modes with restoring := r } } fun t =>
        rises t width rate mode.on credits ∧ publishes s t back ∧ (t.inService p = true → p ∉ r))) ∧
    (∀ d : DeviceInfo, d.rate < 16 →
      let c := Instr.pdLinkUp p d
      let takes := pd ∧ s.mayTrain p = true ∧ trains d.width d.rate d.flit
      let modeBad := s.portRec p 65 1 = 1 ∧ d.flit = false
      (¬ takes ∨ (active ∧ link ≠ 4) → nothing c) ∧
      (takes → active → link = 4 → done c fun t => shows t d.width d.rate ∧ publishes s t 3) ∧
      (takes → ¬ active → modeBad → done c fun t => t.hasCause (srcLink p) 1 ∧ t.rd (PORT_PCIE.addr p) = s.rd (PORT_PCIE.addr p)) ∧
      (takes → ¬ active → ¬ modeBad → ∃ hidden code r, restored r ∧ code ≤ s.portRec p 71 1 ∧
        completesIn workSame c s { s with devices := tabPut (fun _ => {}) s.devices p d, deviceMps := tabPut (fun _ => 0) s.deviceMps p code
                                          l1Exit := tabPut (fun _ => 0) s.l1Exit p (min (100 * 2 ^ d.l1Exit) 6400), hidden := hidden, l0pPartners := partners d.l0p
                                          modes := { s.modes with restoring := r } } fun t =>
          -- a configuration write of the FB512's own is on the link, or waits for a tag of the pool
          let sent := fun fn dw => ∃ x, .tlpOut p x ∈ t.out ∧ x.kind = .cfgWrite false ∧ x.addr = 4 * dw ∧ x.target = 256 + fn
          let waits := fun fn dw => ∃ j ∈ t.configJobs, j.port = p ∧ j.own = true ∧ j.pkt.sub = 1 ∧ j.pkt.addr = (256 + fn) * 65536 + 4 * dw
          let direct := idle ∧ (∀ j ∈ s.configJobs, j.port = p → j.own = false) ∧
            (d.functions.flatMap fun f => f.addressRegisters).length + 1 + 2 * s.bindRecs.length ≤ 256
          rises t d.width d.rate d.flit d.credits ∧ (idle → tags t (pool d.flit d)) ∧ (direct → ∀ f, (p, f) ∉ t.flr) ∧
          (∀ f ∈ d.functions, ∀ dw ∈ f.addressRegisters, (sent f.pf dw ∨ waits f.pf dw) ∧ (direct → sent f.pf dw)) ∧
          (sent 0 (d.devControl 0) ∨ waits 0 (d.devControl 0)) ∧
          ∀ i b, (i, b) ∈ s.indexedBinds → b.target = s.fabricId p → ((i, 1) ∈ t.hidden ↔ s.bindingFits d b = false) ∧ (s.bindingFits d b = false → t.hasCause (srcPcie p) 5) ∧
            (s.bindingFits d b = true → ∀ f, ((i, 2 + f) ∈ t.hidden ↔ f ∈ s.lackedBy d b) ∧ (f ∈ s.lackedBy d b → t.hasCause (srcPcie p) 5)))) ∧
    (pd ∧ active ∧ idle → done (.tagPoolResize p) fun t => tags t (pool (s.get (PORT_PCIE.FLIT p) = 1) (s.deviceOf (s.fabricId p))) ∧ t.out = []) ∧
    (¬ (pd ∧ active ∧ idle) → nothing (.tagPoolResize p)) ∧
    (pd → active → completesIn workSame (.pdLinkDown p) s (s.dpcEntered p 1) fun t => counts s t (PORT_PCIE.LINK_DOWNS p) ∧ t.hasCause (srcLink p) 0 ∧ t.hasCause (srcPcie p) 9 ∧
      (s.get (PORT_DPC.CONTAINED p) = 0 → t.dpcStands p) ∧ (s.get (PORT_DPC.CONTAINED p) = 1 → down t 0)) ∧
    (¬ (pd ∧ active) → nothing (.pdLinkDown p)) ∧
    (pu → active → completesIn (wider workSame dpcReg) (.puLinkDown p) s virtual fun t => counts s t (PORT_PCIE.LINK_DOWNS p) ∧ t.hasCause (srcLink p) 0 ∧ down t 0 ∧
        (∀ f < 64, t.vport p f = {}) ∧ p ∉ t.pmeOff) ∧
    (pu → active → completesIn (wider workSame dpcReg) (.puHotReset p) s virtual fun t => (s.get (PORT_DPC.CONTAINED p) = 0 → down t 7) ∧ (∀ f < 64, t.vport p f = {}) ∧ p ∉ t.pmeOff ∧
        t.get (PORT_PCIE.LINK_DOWNS p) = s.get (PORT_PCIE.LINK_DOWNS p)) ∧
    (¬ (pu ∧ active) → nothing (.puLinkDown p) ∧ nothing (.puHotReset p)) ∧
    (∀ width rate, rate < 16 →
      let takes := inService ∧ trains width rate (s.get (PORT_PCIE.FLIT p) = 1)
      let same := s.get (PORT_PCIE.WIDTH p) = width ∧ s.get (PORT_PCIE.RATE p) = rate
      (takes → done (.pcieRecovery p width rate) fun t => t.get (PORT_PCIE.LINK_STATE p) = 4 ∧ counts s t (PORT_PCIE.RECOVERIES p) ∧ t.hasCause (srcLink p) 7 ∧ t.hasCause (srcPcie p) 8 ∧
        t.get (PORT_PCIE.WIDTH p) = width ∧ t.get (PORT_PCIE.RATE p) = rate ∧ (¬ same → t.get (PORT_PCIE.ACTIVE_WIDTH p) = width ∧ publishes s t 3)) ∧
      (¬ takes → nothing (.pcieRecovery p width rate))) ∧
    let sleeps := inService ∧ link = 3 ∧ s.portRec p 66 1 / 2 % 2 = 1 ∧ (pu → ∀ n, s.puPartition p = some n → s.inFlight n = false)
    (sleeps → completes (.aspmL1Entry p) s { s.set (PORT_PCIE.LINK_STATE p) 5 with out := [] }) ∧ (¬ sleeps → nothing (.aspmL1Entry p)) ∧
    (inService ∧ link = 5 → completes (.aspmL1Exit p) s { s.set (PORT_PCIE.LINK_STATE p) 3 with out := [] }) ∧ (¬ (inService ∧ link = 5) → nothing (.aspmL1Exit p))

/-- O47. Configuration requests of a host, resets below its virtual switch, and containment behind a vDSP. On a quiet state, at a PU port whose link
is up in a cluster in service (elsewhere these commands change nothing). A Type 0 request for device and function 0 and a Type 1 request on the
secondary bus for function 0 of a vDSP that exists are answered at once by the emulation: a read with the register's value, a write with SC after the
register takes the enabled bytes of its writable bits, the bridge windows none in fixed mode; other targets there are answered UR. A Type 1 request on
the secondary bus of a vDSP goes by its function to a binding behind it, or is answered UR: while the vDSP's view is contained it is answered with CA
and cause 8; a BAR is answered by the emulation; else a Config packet to the bound PD port joins the port's queue while the mode admits it, and the
request is answered with Request Retry Status before. One that the port's handler engine does not serve becomes its item of KIND 3.
SECONDARY_BUS_RESET takes a PD port of this package bound wholly behind the vDSP to LINK_STATE 7, sets cause 6 for a physical function whose virtual
functions are bound elsewhere, and queues a Config packet that writes Initiate FLR for every other function; FLR_WRITE queues one for the function
written. FLR_COMPLETE ends the reset of a function. VDSP_DPC_TRIGGER contains a PD port of this package bound wholly behind the vDSP with REASON 4,
else the partition's view, with its trigger status; DPC_STATUS_CLEAR clears status and view, and the port loses one pending clear with the last of its
vDSPs, and its containment with the last clear; at a PD port with clears of other packages pending the command stands for one of those (log entry 42).
-/
def Obligations.VirtualSwitches : Prop :=
  ∀ (s : State) (p : Nat), s.quiet → p < 256 →
    let nothing := fun c : Instr => completes c s { s with out := [] }
    let done := fun (c : Instr) (P : State → Prop) => completesIn workSame c s s P
    let up := s.isPu p = true ∧ s.get (PORT_PCIE.DL_ACTIVE p) = 1 ∧ s.portDark p = false
    let flrs := fun (t : State) (b : BindRec) (fn : Nat) => ∃ q k, q ∈ t.ingressQ (16 * p + 1) ∧ q.pkts = [k] ∧ k.ptype = 9 ∧ k.sub = 1 ∧ k.dest = b.target ∧
      k.partition = b.partition ∧ k.addr = (256 + fn) * 65536 + 4 * (s.deviceOf b.target).devControl fn % 4096 ∧ k.payload = leBytes 4 0x8000
    (∀ x : Tlp,
      let c := Instr.configRequest p x
      let heard := s.portHeard p
      let bus := x.target / 256
      let dw := x.addr % 4096 / 4
      let type := match x.kind with
        | .cfgRead b => some b
        | .cfgWrite b => some b
        | _ => none
      let reads := ∃ b, x.kind = .cfgRead b
      let emulated := fun f : Nat => (type = some false ∧ x.target % 256 = 0 ∧ f = 0) ∨
        (type = some true ∧ bus = s.secondaryBus p 0 ∧ x.target % 8 = 0 ∧ ∃ v ∈ s.vdsps p, v = x.target % 256 / 8 ∧ f = vdspFn v)
      let below := fun v : Nat => type = some true ∧ bus ≠ s.secondaryBus p 0 ∧ (s.vdsps p).find? (fun v => s.secondaryBus p (vdspFn v) = bus) = some v
      let bound := fun v : Nat => (s.behind p v).findSome? fun b => ((s.functionsOf b).find? fun f => s.hostFn b f = x.target % 256).map fun f => (b, f)
      let answers := fun (st : CplStatus) (data : List Byte) => [Output.tlpOut p (cplFor x st 0 data)]
      let merged := fun old : Nat => leNat ((List.range 4).map fun i => BitVec.ofNat 8 ((if x.firstBe.testBit i then leNat (x.data.take 4) else old) / 256 ^ i))
      let takes := up ∧ s.serves p 3 = true
      (¬ up → nothing c) ∧
      (up → s.serves p 3 = false → ∃ engines dataMem, completesIn workSame c s { s with engines := engines, dataMem := dataMem } fun t => s.handed t p 3 x true) ∧
      (takes → type = none → completes c s { heard with out := [] }) ∧
      (takes → type ≠ none → (∀ f, ¬ emulated f) → (∀ v, ¬ below v) → done c fun t => t.out = answers .ur [] ∧ t.hasCause (srcTxn p) 2 ∧ t.virt = s.virt) ∧
      (∀ f, takes → emulated f → reads → completes c s { heard with out := answers .sc (leBytes 4 (heard.emulatedRead p f dw)) }) ∧
      (∀ f, takes → emulated f → ¬ reads → (∃ t, exec c s = .next t ∧ .tlpOut p (cplFor x .sc 0 []) ∈ t.out) ∧
        (dw = 1 → completes c s { heard.virtPut p f 1 (s.virtGet p f 1 / 65536 * 65536 + (merged (s.virtGet p f 1) &&& 0x0547)) with out := answers .sc [] }) ∧
        (dw = 6 → completes c s { heard.virtPut p f 6 (merged (s.virtGet p f 6) % 2 ^ 24) with out := answers .sc [] }) ∧
        (8 ≤ dw ∧ dw < 12 → s.follows p = true → f = 0 → completes c s { heard.virtPut p 0 dw (merged (s.virtGet p 0 dw)) with out := answers .sc [] }) ∧
        (dw ∈ [0, 2, 3, 4, 5, 7, 12, 13, 14] ∨ (8 ≤ dw ∧ dw < 12 ∧ s.follows p = false) → completes c s { heard with out := answers .sc [] })) ∧
      ∀ v, takes → below v →
        (bound v = none → done c fun t => t.out = answers .ur [] ∧ t.virt = s.virt) ∧
        (∀ b fn, bound v = some (b, fn) → (s.vport p (vdspFn v)).view = true → done c fun t => told t [.tlpOut p (cplFor x .ca x.addr [])] ∧ t.hasCause (srcTxn p) 8) ∧
        ∀ b fn, bound v = some (b, fn) → (s.vport p (vdspFn v)).view = false →
          -- a function, or a VF with the BARs of its PF and its own SR-IOV capability left out
          let f := (s.deviceOf b.target).shown fn (decide (s.hostFn b fn ≠ fn))
          let opens := 5 < s.mode ∨ (s.mode = 5 ∧ (s.get PKG_MODE.JOIN).testBit 4 = true)
          (∀ bar, f.barOf dw = some bar → reads → completes c s { heard with out := answers .sc (leBytes 4 (s.barRead p v (x.target % 256) f dw bar)) }) ∧
          (∀ bar, f.barOf dw = some bar → ¬ reads → ∃ t, exec c s = .next t ∧ .tlpOut p (cplFor x .sc 0 []) ∈ t.out ∧
            (s.follows p = false → t.virt = s.virt) ∧
            (s.follows p = true → t.virt = tabPut (fun _ => 0) s.virt (barKey p v (x.target % 256) dw) (merged (tabGet (fun _ => 0) s.virt (barKey p v (x.target % 256) dw))))) ∧
          (f.barOf dw = none → ¬ opens → completes c s { heard with out := answers .crs [] }) ∧
          (f.barOf dw = none → opens → done c fun t => t.out = [] ∧ ∃ q k, t.ingressQ (16 * p + 1) = s.ingressQ (16 * p + 1) ++ [q] ∧ q.pkts = [k] ∧ k.ptype = 9 ∧ k.poison = x.poison ∧
            k.sub = (if reads then 0 else 1) ∧ k.dest = b.target ∧ k.partition = b.partition ∧ k.addr = x.reqId * 2 ^ 32 + (256 + fn) * 65536 + x.addr / 4 * 4 % 4096)) ∧
    (∀ v,
      let behind := s.behind p v
      let shared := fun b : BindRec => ∃ y ∈ s.bindRecs, y.target = b.target ∧ y.kind = 3 ∧ y.pf = b.pf ∧ y.partition ≠ b.partition
      let whole := fun b : BindRec => b.kind = 1 ∧ b.target / 1024 = s.rank
      (¬ up ∨ behind = [] → nothing (.secondaryBusReset p v) ∧ nothing (.vdspDpcTrigger p v)) ∧
      (up → (∀ b ∈ behind, b.target ≠ s.fabricId p ∧ b.target % 1024 < 256) → done (.secondaryBusReset p v) fun t => ∀ b ∈ behind,
        (whole b → s.get (PORT_PCIE.DL_ACTIVE (b.target % 1024)) = 1 → t.get (PORT_PCIE.LINK_STATE (b.target % 1024)) = 7 ∧ t.get (PORT_PCIE.DL_ACTIVE (b.target % 1024)) = 0) ∧
        (b.kind = 2 → shared b → t.hasCause (srcPcie p) 6) ∧ (b.kind = 2 → ¬ shared b → flrs t b b.pf) ∧
        (b.kind ≠ 1 → b.kind ≠ 2 → ∀ f ∈ s.functionsOf b, flrs t b f)) ∧
      (∀ fn,
        let target := fun b : BindRec => (s.functionsOf b).find? fun f => s.hostFn b f = fn
        (¬ up → nothing (.flrWrite p v fn)) ∧
        (up → done (.flrWrite p v fn) fun t => t.out = [] ∧ ∀ b ∈ behind, ∀ f, target b = some f → ¬ (b.kind = 2 ∧ shared b) → flrs t b f)) ∧
      (∀ b rest, up → behind = b :: rest →
        let q := b.target % 1024
        let x := s.vport p (vdspFn v)
        (whole b → q < 256 → completesIn workSame (.vdspDpcTrigger p v) s (s.dpcEntered q 4) fun t => s.get (PORT_DPC.CONTAINED q) = 0 → t.dpcStands q) ∧
        (¬ whole b → completes (.vdspDpcTrigger p v) s { s.setVport p (vdspFn v) { x with view := true, dpcStatus := true } with
          out := if x.dpcInterrupt then [.hostInterrupt p (vdspFn v) 0] else [] })) ∧
      let x := s.vport p (vdspFn v)
      let cleared := s.setVport p (vdspFn v) { x with dpcStatus := false, view := false }
      let last := fun b : BindRec => b.target / 1024 = s.rank ∧ ∀ y ∈ s.vdspsOf (b.target % 1024), y.1 = p → (cleared.vport p (vdspFn y.2)).dpcStatus = false
      -- one partition's clear reaches a PD port, from the state u that it leaves of its own switch
      let lowers := fun (u : State) (q : Nat) =>
        let left := s.get (PORT_DPC.CLEAR_PENDING q) - 1
        (s.get (PORT_DPC.CONTAINED q) = 0 → completes (.dpcStatusClear p v) s { u with out := [] }) ∧
        (s.get (PORT_DPC.CONTAINED q) = 1 → left ≠ 0 → completes (.dpcStatusClear p v) s { u.set (PORT_DPC.CLEAR_PENDING q) left with out := [] }) ∧
        (s.get (PORT_DPC.CONTAINED q) = 1 → left = 0 → completesIn workSame (.dpcStatusClear p v) s ((s.set (PORT_DPC.CLEAR_PENDING q) 0).set (PORT_DPC.CONTAINED q) 0) fun t =>
          t.get (PORT_PCIE.LINK_STATE q) = 0 ∧ t.hasCause (srcPcie q) 4)
      (s.isPu p = true → x.dpcStatus = false → nothing (.dpcStatusClear p v)) ∧
      (s.isPu p = true → x.dpcStatus = true → (∀ b ∈ s.recordOf p v, ¬ last b) → completes (.dpcStatusClear p v) s { cleared with out := [] }) ∧
      (∀ b, s.isPu p = true → x.dpcStatus = true → s.recordOf p v = some b → last b → b.target % 1024 < 256 → lowers cleared (b.target % 1024)) ∧
      (s.isPu p = false → s.isPd p = true → 0 < s.remotePending p → lowers s p) ∧
      (s.isPu p = false → s.isPd p = false ∨ s.remotePending p = 0 → nothing (.dpcStatusClear p v))) ∧
    ∀ fn,
      let c := Instr.flrComplete p fn
      ((p, fn) ∉ s.flr → nothing c) ∧
      ((p, fn) ∈ s.flr → (∀ j ∈ s.configJobs, j.port ≠ p) → completes c s { s with out := [], flr := s.flr.filter fun x => x ≠ (p, fn) }) ∧
      ((p, fn) ∈ s.flr → done c fun t => t.configJobs.map (fun j => (j.port, j.pkt)) = s.configJobs.map fun j => (j.port, j.pkt))

/-- O48. DOE objects, DOE Abort, and the requests of the SPDM responder. On a quiet state, of a DOE instance that is served: that of a control port
from M3, that of a vUSP from M4 but for M11 (an instance that is not served, or holds DOE Error, takes no object). An object above 16,384 bytes sets
DOE Error; Objects are taken in the order in which they were written, instances that are not served passed over: Discovery is answered when its turn
comes, and so, with UnsupportedRequest, is an SPDM request outside Table 14-6; a request of the table waits for its command, and what was written
later waits behind it; another object leaves nothing. Abort clears the error and what is pending in its instance and no other. A request whose turn
has come is answered: with UnsupportedRequest where the object is no such request or its version is not 1.2 or 1.3, with UnexpectedRequest before the
requests it rests on, else with what the table says, signed where CHALLENGE or GET_MEASUREMENTS asks for it; nonces and the digest of a type 0x1
summary are free values (log entries 11 and 33). Only the instance, the order of objects, what leaves, and the instances whose turn comes then change.
-/
def Obligations.DoeAndSpdm : Prop :=
  ∀ (s : State) (i : Nat), s.quiet →
    let x := s.doeOf i
    let order := s.doeOrder.filter (· ≠ i)
    let served := if i < 2 then 3 ≤ s.mode else 4 ≤ s.mode ∧ s.mode ≠ 11 ∧ s.isPu (i - 2) = true
    let nothing := fun c : Instr => completes c s { s with out := [] }
    let put := fun y : DoeState => { s with out := [], doe := tabPut (fun _ => {}) s.doe i y }
    let respond := fun (y : DoeState) (object : List Byte) => { put { y with object := none, response := object } with out := [.doe i object], doeOrder := order }
    -- of the other instances that are served none waits, or the first that does has a request of Table 14-6, which is served by its own command
    let free := ∀ j ∈ order, s.doeServed j = false
    let ahead := ∃ j o, order.find? s.doeServed = some j ∧ (s.doeOf j).object = some o ∧ doeAtOnce o = none
    -- the command leaves u, and the lead then takes what it answers at once of the objects whose turn has come
    let leaves := fun (c : Instr) (u : State) => completes c s u.doeServe ∧ (free ∨ ahead → completes c s u)
    (∀ object : List Byte,
      let c := Instr.doeObjectWrite i object
      let clean : DoeState := { x with partialObject := [], response := [], object := none }
      let written := { put { clean with object := some object } with doeOrder := order ++ [i] }
      let vendor := imgNat object 0 2
      let type := imgNat object 2 1
      let code := imgNat object 9 1
      (¬ served ∨ x.error = true → nothing c) ∧
      (served → x.error = false → 16384 < object.length → leaves c { put { clean with error := true } with doeOrder := order }) ∧
      (served → x.error = false → object.length ≤ 16384 →
        completes c s written.doeServe ∧ (ahead → completes c s written) ∧
        (free → vendor = 1 → type = 0 → completes c s (respond clean (doeObject 1 0 (if imgNat object 8 1 = 0 then [1, 0, 0, 1] else if imgNat object 8 1 = 1 then [1, 0, 1, 0] else [0xFF, 0xFF, 0, 0])))) ∧
        (free → vendor = 1 → type = 1 → code ∈ [0x84, 0xE1, 0xE3, 0x81, 0x82, 0x83, 0xE0] → completes c s written) ∧
        (free → vendor = 1 → type = 1 → code ∉ [0x84, 0xE1, 0xE3, 0x81, 0x82, 0x83, 0xE0] →
          completes c s (respond clean (doeObject 1 1 [BitVec.ofNat 8 (imgNat object 8 1), 0x7F, 0x07, BitVec.ofNat 8 code]))) ∧
        (free → vendor ≠ 1 ∨ 1 < type → completes c s { put clean with doeOrder := order }))) ∧
    (¬ served → nothing (.doeAbort i)) ∧
    (served → leaves (.doeAbort i) { put { x with partialObject := [], object := none, error := false, response := [] } with doeOrder := order }) ∧
    ∀ request : List Byte,
      let b := fun n => request.getD n 0
      let v := (b 0).toNat
      let turn := served ∧ x.error = false ∧ ∀ j, s.doeOrder.find? s.doeServed = some j → j = i
      let answer := fun (y : DoeState) (r : List Byte) => respond y (doeObject 1 1 r)
      let error := fun (c : Instr) (kind data : Byte) => leaves c (answer x [b 0, 0x7F, kind, data])
      let version := v = 0x12 ∨ v = 0x13
      let may := fun code phase : Nat => turn ∧ (b 1).toNat = code ∧ phase ≤ x.phase ∧ (1 ≤ phase → version)
      (∀ c ∈ [(Instr.getVersion i request, 0x84, 0), (.getCapabilities i request, 0xE1, 1), (.negotiateAlgorithms i request, 0xE3, 2), (.getDigests i request, 0x81, 3), (.getCertificate i request, 0x82, 3), (.challenge i request, 0x83, 3), (.getMeasurements i request, 0xE0, 3)],
        (¬ turn → nothing c.1) ∧ (turn → (b 1).toNat ≠ c.2.1 → error c.1 0x07 (b 1)) ∧
        (turn → (b 1).toNat = c.2.1 → x.phase < c.2.2 → error c.1 0x04 0) ∧
        (turn → (b 1).toNat = c.2.1 → c.2.2 ≤ x.phase → 1 ≤ c.2.2 → ¬ version → error c.1 0x07 (b 1))) ∧
      (may 0x84 0 →
        let r : List Byte := [0x10, 0x04, 0, 0, 0, 2, 0, 0x12, 0, 0x13]
        leaves (.getVersion i request) (answer { x with phase := 1, version := 0, transcriptA := request ++ r, transcriptB := [], transcriptL := [] } r)) ∧
      (may 0xE1 1 →
        let r : List Byte := [b 0, 0x61, 0, 0, 0, 15, 0, 0, 22, 0, 0, 0, 0xF8, 0x3F, 0, 0, 0xF8, 0x3F, 0, 0]
        leaves (.getCapabilities i request) (answer { x with phase := 2, version := v, transcriptA := x.transcriptA ++ request ++ r } r)) ∧
      (may 0xE3 2 →
        let common := (imgNat request 8 4).testBit 7 = true ∧ (imgNat request 12 4).testBit 1 = true ∧ (b 6).getLsbD 0 = true
        let r : List Byte := [b 0, 0x63, 0, 0, 36, 0, 1, 0, 4, 0, 0, 0, 0x80, 0, 0, 0, 2, 0, 0, 0] ++ List.replicate 16 0
        (common → leaves (.negotiateAlgorithms i request) (answer { x with phase := 3, transcriptA := x.transcriptA ++ request ++ r } r)) ∧
        (¬ common → error (.negotiateAlgorithms i request) 0x07 0xE3)) ∧
      (may 0x81 3 →
        let r : List Byte := [b 0, 0x01, 0, 1] ++ sha384 Config.certificateChain
        leaves (.getDigests i request) (answer { x with transcriptB := x.transcriptB ++ request ++ r } r)) ∧
      (may 0x82 3 →
        let chain := Config.certificateChain
        let part := (chain.drop (imgNat request 4 2)).take (min (imgNat request 6 2) 65520)
        let r : List Byte := [b 0, 0x02, 0, 0] ++ leBytes 2 part.length ++ leBytes 2 (chain.length - imgNat request 4 2 - part.length) ++ part
        ((b 2).toNat % 16 ≠ 0 → error (.getCertificate i request) 0x07 0x82) ∧
        ((b 2).toNat % 16 = 0 → leaves (.getCertificate i request) (answer { x with transcriptB := x.transcriptB ++ request ++ r } r))) ∧
      (may 0x83 3 →
        (b 2 ≠ 0 → error (.challenge i request) 0x07 0x83) ∧
        (b 2 = 0 → ∃ nonce free : List Byte,
          let summary := if b 3 = 0 then [] else if b 3 = 0xFF then sha384 ((List.range 8).flatMap fun n => s.measurementBlock (n + 1)) else free
          let r : List Byte := [b 0, 0x03, 0, 1] ++ sha384 Config.certificateChain ++ nonce ++ summary ++ [0, 0] ++ if v = 0x13 then (request.drop 36).take 8 else []
          leaves (.challenge i request) (answer x (r ++ Config.deviceSignature (x.transcriptA ++ x.transcriptB ++ request ++ r))))) ∧
      (may 0xE0 3 →
        let index := (b 3).toNat
        let signed := (b 2).getLsbD 0 = true
        let slot := signed → (b 36).toNat % 16 = 0
        let blocks := if index = 0 then [] else if index = 255 then [1, 2, 3, 4, 5, 6, 7, 8] else [index]
        let record : List Byte := blocks.flatMap fun n => [BitVec.ofNat 8 n, 1, 51, 0, if n ≤ 2 then 1 else if n = 3 then 2 else 3, 48, 0] ++ s.mrOf (n - 1)
        let head : List Byte := [b 0, 0x60, if index = 0 then 8 else 0, 0, BitVec.ofNat 8 blocks.length] ++ leBytes 3 record.length ++ record
        ((8 < index ∧ index ≠ 255) ∨ ¬ slot → error (.getMeasurements i request) 0x07 0xE0) ∧
        (index ≤ 8 ∨ index = 255 → slot → ∃ nonce : List Byte,
          let r := fun o => head ++ nonce ++ [0, 0] ++ if v = 0x13 then (request.drop o).take 8 else []
          (signed → leaves (.getMeasurements i request) (answer { x with transcriptL := [] } (r 37 ++ Config.deviceSignature (x.transcriptA ++ x.transcriptL ++ request ++ r 37)))) ∧
          (¬ signed → leaves (.getMeasurements i request) (answer { x with transcriptL := x.transcriptL ++ request ++ r 4 } (r 4)))))

/-- O49. The sluice: what becomes of the head of a queue, calendars, late transit, and flow control credits. On a quiet state. REQUEST_ADMIT does
nothing for an empty queue or while admission is closed at the port (outside M6, M7, M8 and the declaration of M5, in a fenced or reloading region, in
a cluster held in reset). Else a request for an engine with more than 256 bytes is answered or dropped, and any other head is treated as the checks of
Table 08-3 say: a request held by a check stays, and PORT_HOLD shows the code; one that a check answers leaves its queue; one that passes leaves its
queue, answered under R424 when a header word of it is in error, else with a packet on its path for each of its packets, stamped with the deadline of
R366, or with its own if it is in transit; one that the Toll Table refuses leaves it with the violation cause of its die. CALENDAR_ADVANCE moves every
booking to the bucket before, ends what an engine owed a far requester too long, with cause 5, and counts NP_HELD where a non-posted head is held;
TRANSIT_LATE_ADMIT admits a transit head without calendars 38 µs after its receipt, or sets cause 8 of the port's link source; FLOW_CONTROL_UPDATE
returns header and data credits of a kind. -/
def Obligations.Admission : Prop :=
  ∀ (s : State), s.quiet →
    let nothing := fun c : Instr => completes c s { s with out := [] }
    let held := ∃ j, s.ingressQ j ≠ []
    (∀ p q : Nat, q < 16 → p < 256 ∨ (1024 ≤ p ∧ p < 1536) →
      let key := 16 * p + q
      let cl := ingressCluster p
      let d := clusterDie cl
      let open_ := (s.mode ∈ [6, 7, 8] ∨ (s.mode = 5 ∧ s.bitOf PKG_MODE.JOIN 4 = true)) ∧ s.regionFenced (cl / 4) = false ∧ s.clusterHeld cl = false ∧ s.reloading (cl / 4) = false
      let gone := fun (x : Queued) (t : State) => t.ingressQ key = (s.ingressQ key).filter fun y => y.id ≠ x.id
      let sent := fun (x : Queued) (k : Packet) (late : Bool) (t : State) => gone x t ∧ ∃ ws, t.waiting = s.waiting ++ ws ∧
        ws.map (fun w => (w.pkt.ptype, w.pkt.dest, w.pkt.addr, w.pkt.payload)) = x.pkts.map (fun y => (y.ptype, y.dest, y.addr, y.payload)) ∧
        ∀ w ∈ ws, w.ingress = p ∧ w.requester = x.requester ∧ w.late = late ∧ (late = true → w.books = [] ∧ w.credit = []) ∧ w.pkt.deadline = if x.transit then k.deadline else s.deadlineFor p cl k
      let asks := fun (x : Queued) (k : Packet) => (x.transit = false ∨ k.dest / 1024 = s.rank) ∧ k.isCompletion = false ∧ k.ptype ≠ 0xA
      let requester := fun x : Queued => ((s.outstanding.find? fun o => o.id = x.requester && x.requester ≠ 0).map (·.requester)).getD (if s.isPu p = true ∨ s.isPd p = true then x.requester else 0)
      let permits := fun (x : Queued) (k : Packet) => s.tollCheck d (s.ingressSubject p k (requester x)) k.kind k.dest k.checkedAddr = .permit
      let c := Instr.requestAdmit p q
      let late := Instr.transitLateAdmit p q
      (s.ingressQ key = [] → nothing c ∧ nothing late) ∧ (¬ open_ → nothing c) ∧
      (∀ x rest k, s.ingressQ key = x :: rest → x.pkts.head? = some k → open_ →
        let done := fun P : State → Prop => completesIn workSame c s s P
        (s.tooLong cl x = true → done (gone x)) ∧ (s.tooLong cl x = false →
        (∀ code, s.evaluate key x false = .hold code → done fun t => t.waiting = s.waiting ∧ t.outstanding = s.outstanding ∧ t.out = [] ∧
          let same := x.heldOnce = true ∧ x.cause = code
          -- no other head of the channel is held
          let alone := fun l : List Nat => q ∈ l ∧ ∀ j ∈ l, j ≠ q → ∀ y ∈ (s.ingressQ (16 * p + j)).head?, y.cause = 0
          (same → t.ingress = s.ingress ∧ t.rd (PORT_HOLD.addr p) = s.rd (PORT_HOLD.addr p)) ∧
          (¬ same → t.ingressQ key = (s.ingressQ key).map (fun y => if y.id = x.id then { y with cause := code, heldOnce := true, fullSeen := y.fullSeen || decide (code = 2) } else y) ∧
            (p < 256 → alone (if s.isBf p then [0, 1, 2] else [0]) → t.get (PORT_HOLD.P_CAUSE p) = code) ∧
            (p < 256 → alone (if s.isBf p then [3, 4, 5] else [1]) → t.get (PORT_HOLD.NP_CAUSE p) = code))) ∧
        (∀ status, s.evaluate key x false = .answer status → done (gone x)) ∧ (s.evaluate key x false = .failure → done (gone x)) ∧
        (s.evaluate key x false = .go → x.hurt.testBit 1 = true → done fun t => gone x t ∧ t.hasCause (srcCluster cl 36) 1) ∧
        (s.evaluate key x false = .go → x.hurt.testBit 1 = false → asks x k → ¬ permits x k → done fun t => gone x t ∧ t.hasCause (srcDie d 0) 0) ∧
        (s.evaluate key x false = .go → x.hurt.testBit 1 = false → (asks x k → permits x k) → done fun t => sent x k false t ∧
          (x.hurt.testBit 0 = true → t.hasCause (srcCluster cl 36) 0) ∧ (x.hurt.testBit 2 = true → t.hasCause (srcCluster cl 36) 2) ∧
          -- with the Unlock of its owner the near side lets the package lock go (R337)
          (k.ptype = 6 → x.transit = false → p < 256 → s.get PKG_LOCK.STATE ∈ [1, 2, 4] → s.get PKG_LOCK.OWNER = s.fabricId p → s.get PKG_LOCK.TARGET = k.dest →
            t.get PKG_LOCK.STATE = if s.get PKG_LOCK.STATE = 4 then 3 else 0)))) ∧
      ∀ x rest k, s.ingressQ key = x :: rest → x.pkts.head? = some k →
        (x.transit = false → nothing late) ∧
        (x.transit = true →
          let u := s.waitUntil (x.received + 38000 * ticksPerNs)
          (¬ open_ → completes late s { u with out := [] }) ∧
          (open_ → s.tooLong cl x = true → completesIn workSame late s u (gone x)) ∧
          (open_ → s.tooLong cl x = false → ∀ code, u.evaluate key x true = .hold code → p < 256 → completesIn workSame late s u fun t => t.ingress = s.ingress ∧ t.waiting = s.waiting ∧ t.hasCause (srcLink p) 8) ∧
          (open_ → s.tooLong cl x = false → u.evaluate key x true = .go → x.hurt.testBit 1 = false → (asks x k → permits x k) → completesIn workSame late s u (sent x k true)))) ∧
    (let u := s.waitUntil (s.now + 80 * ticksPerNs)
     let back := fun w : Waiting => { w with books := w.books.map fun b => { b with bucket := b.bucket - 1 } }
     let older := s.waiting.map back
     -- the surrogate bounds that requesters of other packages have on what an engine owes have expired (R73, log entry 68)
     let spent := fun y : ReplyTo × Nat => y.2 + s.surrogateBound ≤ u.now ∧ ∃ k, y.1 = .burek k ∧ k.src / 1024 ≠ s.rank
     (∃ engines, ((∀ x ∈ s.engines, ∀ y ∈ x.2.owed, ¬ spent y) → engines = s.engines) ∧ completesIn workSame .calendarAdvance s { u with engines := engines } fun t =>
       (∃ ws, t.waiting = older ++ ws) ∧ ∀ te, ∀ y ∈ (s.engine te).owed, spent y → t.hasCause (srcEngine te) 5) ∧
     (¬ held → ∃ engines, completesIn workSame .calendarAdvance s { u with engines := engines } fun t => t.waiting = older ∧ t.out = [] ∧
       (∀ p, (t.link p).txEnds = (s.link p).txEnds.map fun m => (m.1, back m.2)) ∧ ∀ p ∈ s.allPorts,
       (s.get (PORT_HOLD.NP_CAUSE p) = 0 → t.get (PORT_HOLD.NP_HELD p) = s.get (PORT_HOLD.NP_HELD p)) ∧ (s.get (PORT_HOLD.NP_CAUSE p) ≠ 0 → counts s t (PORT_HOLD.NP_HELD p)))) ∧
    ∀ p kind header data : Nat,
      let c := Instr.flowControlUpdate p kind header data
      let up := (s.isPu p = true ∨ s.isPd p = true) ∧ s.get (PORT_PCIE.DL_ACTIVE p) = 1 ∧ s.portDark p = false
      let back := fun (t : State) (i n : Nat) => (t.ledger (portLedger p i)).out = (s.ledger (portLedger p i)).out - n ∧
        (t.ledger (portLedger p i)).returned = (s.ledger (portLedger p i)).returned + min n (s.ledger (portLedger p i)).out
      (¬ up ∨ 3 ≤ kind → nothing c) ∧
      (up → kind < 3 → completesIn workSame c s s fun _ => True) ∧
      (up → kind < 3 → ¬ held → completesIn workSame c s s fun t => back t (2 + 2 * kind) header ∧ back t (3 + 2 * kind) data ∧ t.waiting = s.waiting ∧
        ∀ j, j ≠ portLedger p (2 + 2 * kind) → j ≠ portLedger p (3 + 2 * kind) → t.ledger j = s.ledger j)

/-- O50. Surrogate answers near and far, the quarantine of their tags, and completion timeouts. On a quiet state. When the surrogate bound has passed
since the receipt of a request that waits for its answer, a completion with Completer Abort for its host or device waits at the port, SURROGATES
counts and cause 0 of the port's transaction source is set (and cause 5 of an engine whose handler left the request unanswered); an admitted request
stays as answered, one that was not is gone; a locked read counts LOCK_SURROGATE, and a prefetch leaves its stream, the pieces that wait for it being
issued on their own. Twice the bound later the tag of a request so answered comes back, and with its last tag the request is gone. A request on a PD
link, of this package or answered in the device's place, with no completion for twice the bound has timed out: Completion Timeout is logged, and an
engine receives an item of kind 5 once its queue has room. One for another package is answered after the bound, with cause 0 at the port that received
it. Where no such request exists nothing changes. -/
def Obligations.SurrogateAnswers : Prop :=
  ∀ (s : State), s.quiet →
    let nothing := fun c : Instr => completes c s { s with out := [] }
    let bound := 250000 * 2 ^ s.get PKG_BOUND.SUR_CODE
    (∀ p id : Nat, p < 256 ∨ (1024 ≤ p ∧ p < 1536) →
      let c := Instr.surrogateExpiry p id
      let found := s.outstanding.find? fun o => o.id = id && o.port = p && !o.transit && !o.answered
      (found = none → nothing c) ∧
      ∀ o, found = some o →
        let locked := s.lockWait.find? fun x => x.id = id
        -- an engine that left the request unanswered owes it no longer (R73)
        let after := fun P : State → Prop => ∃ engines, (s.owedBy o = none → engines = s.engines) ∧
          completesIn workSame c s { s.waitUntil (o.received + bound) with engines := engines } P
        -- the completion waits at the port, behind those of the same read (Table 07-1)
        let answers := fun (t : State) (x : Tlp) => told t [] ∧ ∃ w, t.waiting = s.waiting ++ [w] ∧ w.point = 1000 + p ∧ w.path = [] ∧ w.tlps = [x]
        (∀ x, locked = some x → s.outstanding.find? (fun y => y.id = id) = some o → p < 256 → after fun t =>
          answers t (cplFor x.tlp .ca x.tlp.addr []) ∧ t.lockWait = s.lockWait.filter (fun y => y.id ≠ id) ∧ counts s t PKG_LOCK.LOCK_SURROGATE) ∧
        (locked = none → o.prefetch = true → after fun t => t.out = [] ∧ t.waiting = s.waiting ∧
          (s.waitingOn o.window o.ctx o.addr = [] →
            t.outstanding = s.outstanding.map fun y => if y.id = id then { o with answered := true, stamp := none, endedAt := t.now } else y) ∧
          (∀ y ∈ s.waitingOn o.window o.ctx o.addr, y.id ≠ id → ∃ j, ∃ q ∈ t.ingressQ j, q.requester = y.id) ∧
          ∀ y ∈ t.streams, y.window = o.window → y.requester = o.ctx → o.addr ∉ y.inFlight) ∧
        (locked = none → o.prefetch = false → p < 256 → after fun t => counts s t (PORT_SLUICE.SURROGATES p) ∧ t.hasCause (srcTxn p) 0) ∧
        (locked = none → o.prefetch = false → ∀ te, s.owedBy o = some te → after fun t => t.hasCause (srcEngine te) 5 ∧
          (tabWf (fun _ => {}) s.engines = true → (t.engine te).owed = (s.engine te).owed.filter fun y => !s.owes o y)) ∧
        (locked = none → o.prefetch = false → o.asWrite = false →
          (o.admitted = true → after fun t =>
            -- a piece that waits for a prefetch block has no answer to come
            let ends := fun y : Piece => if y.waits then { y with waits := false, status := some 4 } else y
            let keep : Outstanding := { o with answered := true, stamp := none, endedAt := t.now, pieces := o.pieces.map ends }
            t.outstanding = if keep.pieces.all (fun y => y.status.isSome) then s.outstanding.filter (fun y => y.id ≠ id)
              else s.outstanding.map fun y => if y.id = id then keep else y) ∧
          (o.admitted = false → after fun t => t.outstanding = s.outstanding.filter fun y => y.id ≠ id) ∧
          ∀ x, o.tlp = some x → p < 256 → after fun t => answers t (cplFor x .ca (x.addr + o.sent) []))) ∧
    (∀ p tag : Nat,
      let c := Instr.tagQuarantineExpiry p tag
      let found := s.outstanding.find? fun o => o.port = p && o.answered && o.pieces.any fun x => x.tag = tag && x.status.isNone
      (found = none → nothing c) ∧
      ∀ o, found = some o → completesIn workSame c s (s.waitUntil (o.endedAt + 2 * bound)) fun t =>
        let pieces := answerPiece { tag := tag, status := 4 } o.pieces
        let all := ∀ x ∈ pieces, x.status.isSome = true
        let l := s.ledger (portLedger p 26)
        (all → t.outstanding = s.outstanding.filter fun y => y.id ≠ o.id) ∧
        (¬ all → t.outstanding = s.outstanding.map fun y => if y.id = o.id then { o with pieces := pieces } else y) ∧
        (¬ all → p < 256 → (t.ledger (portLedger p 26)).out = l.out - 1 ∧ (t.ledger (portLedger p 26)).returned = l.returned + min 1 l.out) ∧ t.out = [] ∧ t.waiting = s.waiting) ∧
    (∀ p tag : Nat,
      let c := Instr.pdCompletionTimeout p tag
      let own := fun d : DeviceRequest => match d.pkt with | some k => decide (k.src / 1024 = s.rank) | none => true
      let found := s.device.find? fun d => d.port = p && d.tag = tag && !d.waitAck && (own d || d.answered) && !d.timedOut && d.engine.all s.itemRoom
      (found = none → nothing c) ∧
      ∀ d, found = some d → completesIn fenceSame c s (s.waitUntil (d.issued + 2 * bound)) fun t => told t [] ∧
        t.device = s.device.map (fun y => if y = d then { d with timedOut := true } else y) ∧
        (tabGet (fun _ => 0) t.aer p).testBit 14 = true ∧
        (d.engine = none → t.engines = s.engines ∧ t.dataMem = s.dataMem ∧ t.ecc = s.ecc) ∧
        ∀ e, d.engine = some e → (s.engine e).run ≠ .waiting → (∀ j, j ≠ e → t.engine j = s.engine j) ∧
          t.engine e = if (s.engine e).run = .halted then s.engine e else
            { s.engine e with queue := (s.engine e).queue ++ [({ kind := 5, port := s.fabricId p, ctx := d.ctx }, .none, t.now)] }) ∧
    ∀ p tag : Nat,
      let c := Instr.farSurrogateExpiry p tag
      let found := s.device.find? fun d => d.port = p && d.tag = tag && !d.answered && (match d.pkt with | some k => decide (k.src / 1024 ≠ s.rank) | none => false)
      (found = none → nothing c) ∧
      ∀ d k, p < 256 → found = some d → d.pkt = some k →
        let transit := s.transitOf k
        let start := (transit.map (·.received)).getD d.issued
        ∃ mps, completesIn workSame c s { s.waitUntil (start + bound) with deviceMps := mps } fun t =>
          (k.ptype ∉ [5, 9] → mps = s.deviceMps ∧ t.device = s.device.map fun y => if y = d then { d with answered := true } else y) ∧
          ∀ o, transit = some o → o.answered = false → o.port < 256 → t.hasCause (srcTxn o.port) 0 ∧ counts s t (PORT_SLUICE.SURROGATES o.port)

/-- O51. Bounds are announced and received, and planned changes take effect. On a quiet state. An announcement that is due leaves on every BF port whose link
is up, as Management packets of operation BOUNDS with at most 32 records each, one for each port of the package and class and one for each rank beyond
that is routed; SETTLE of a planned lengthening runs from it. A BOUNDS packet on a BF port whose link is up joins the set of its BOUND_SEQ, and a
newer one discards an incomplete older set; a complete set takes the place of what the neighbour announced before, and is republished with cause 9
where it differs. Another packet changes nothing. A planned narrowing takes effect once every span of the port's calendar fits; the other planned
changes take effect, and SETTLING clears, when SETTLE has passed. -/
def Obligations.Bounds : Prop :=
  ∀ (s : State), s.quiet →
    let nothing := fun c : Instr => completes c s { s with out := [] }
    let seq := s.get PKG_BOUND.BOUND_SEQ
    let narrowing := fun x : Planned => match x with | .narrow _ _ => true | _ => false
    (s.announceDue = false → nothing .boundsAnnounce) ∧
    (s.announceDue = true →
      let lead := fun p : Nat => (((s.link p).partner.map fun i => i.sender / 1024 * 1024 + 780).getD 0)
      let parts := fun p : Nat => partsOf 64 (s.boundsRecords p)
      let body := fun (p : Nat) (x : Nat × List Nat) => ({ ptype := 0xA, vc := 3, cls := 0, dest := lead p, src := s.fabricId 780, sub := 3, noWin := true, len := 8 * x.2.length, addr := seq * 2 ^ 32 + x.1 * 2 ^ 16 + (parts p).length, deadline := s.now % 2 ^ 48, payload := x.2.flatMap (beBytes 8) } : Packet)
      let packet := fun (p : Nat) (x : Nat × List Nat) => ({ point := 1000 + p, ingress := 780, deadline := s.now % 2 ^ 48, pkt := body p x } : Waiting)
      let formed := (s.bfPorts.filter s.bfUp).flatMap fun p => ((List.range (parts p).length).zip (parts p)).map (packet p)
      let starts := s.get PKG_BOUND.SETTLING = 1 ∧ s.modes.settleAt = 0
      completes .boundsAnnounce s { s with out := [], announceDue := false, waiting := s.waiting ++ formed, modes := if starts then { s.modes with settleAt := s.now + 16000 * s.get PKG_BOUND.SETTLE } else s.modes }) ∧
    (∀ (p : Nat) (k : Packet),
      let c := Instr.boundsReceive p k
      let newSeq := k.addr / 2 ^ 32 % 65536
      let part := k.addr / 2 ^ 16 % 65536
      let count := k.addr % 65536
      let takes := s.bfUp p = true ∧ k.ptype = 0xA ∧ k.sub % 128 = 3 ∧ part < count ∧ k.len % 8 = 0 ∧ 8 ≤ k.len ∧ k.len ≤ 256
      let was := tabGet (fun _ => {}) s.boundsSets p
      let newer := was.parts = [] ∨ (0 < (newSeq + 65536 - was.seq) % 65536 ∧ (newSeq + 65536 - was.seq) % 65536 < 32768)
      let base : BoundsSet := if newer then { seq := newSeq, count := count } else was
      let set := { base with parts := (base.parts.filter fun y => y.1 ≠ part) ++ [(part, k.payload)] }
      let whole := ∀ i < count, ∃ b, (i, b) ∈ set.parts
      (¬ takes → nothing c) ∧ (takes → ¬ newer → was.seq ≠ newSeq ∨ was.count ≠ count → nothing c) ∧
      (takes → base.seq = newSeq → base.count = count → ¬ whole → completes c s { s with out := [], boundsSets := tabPut (fun _ => {}) s.boundsSets p set }) ∧
      (takes → base.seq = newSeq → base.count = count → whole →
        let bytes := (List.range count).flatMap fun i => ((set.parts.find? fun y => y.1 = i).map (·.2)).getD []
        let records := (List.range (bytes.length / 8)).map fun i => beNat ((bytes.drop (8 * i)).take 8)
        let keep := s.bounds.filter fun b => decide (b.1 / 65536 % 1024 ≠ p) || decide (b.1 / 65536 / 1024 = 3)
        let place := fun (t : Tab Nat) (r : Nat) => if r / 2 ^ 38 % 4 = 3 then t else
          tabPut (fun _ => 0) t ((r / 2 ^ 38 % 4 * 1024 + p) * 65536 + r / 2 ^ 48 % 65536) (1 + r % 2 ^ 32 + r / 2 ^ 35 % 8 * 2 ^ 32)
        let bounds := tabPut (fun _ => 0) (records.foldl place keep) ((3 * 1024 + p) * 65536) 1
        completesIn workSame c s s fun t => t.bounds = bounds ∧ t.boundsSets = tabPut (fun _ => {}) s.boundsSets p {} ∧ t.out = [] ∧
          (bounds = s.bounds → t.get PKG_BOUND.BOUND_SEQ = seq ∧ t.announceDue = s.announceDue) ∧
          (bounds ≠ s.bounds → t.get PKG_BOUND.BOUND_SEQ = (seq + 1) % 65536 ∧ t.get PKG_BOUND.LAST_CAUSE = 9 ∧ t.announceDue = true ∧ t.hasCause (srcPkg 5) 0))) ∧
    (∀ p : Nat,
      let c := Instr.cbookLowerApply p
      let mine := fun x : Planned => match x with | .narrow q _ => decide (q = p) | _ => false
      let fits := ∀ j < 512, s.booked p j false ≤ (j + 1) * s.bucketBytes p
      (¬ (∃ x ∈ s.planned, mine x = true) ∨ ¬ fits → nothing c) ∧
      ((∃ x ∈ s.planned, mine x = true) → fits →
        let width := s.planned.foldl (fun n x => match x with | .narrow q w => if q = p then min n w else n | _ => n) (s.get (PORT_PCIE.ACTIVE_WIDTH p))
        completes c s (State.set { s with out := [], planned := s.planned.filter fun x => !mine x } (PORT_PCIE.ACTIVE_WIDTH p) width))) ∧
    (s.get PKG_BOUND.SETTLING = 0 ∨ s.modes.settleAt = 0 → nothing .settleExpiry) ∧
    (s.get PKG_BOUND.SETTLING ≠ 0 → s.modes.settleAt ≠ 0 →
      completes .settleExpiry s (State.set { s.waitUntil s.modes.settleAt with out := [], planned := s.planned.filter narrowing, modes := { s.modes with settleAt := 0 } } PKG_BOUND.SETTLING 0))

/-- O52. Ledger breaches, die-to-die interfaces that fail and return, and a full partition of a basin. On a quiet state. A ledger whose words read and
whose counts agree changes nothing. Else the record of Table 09-7 is written to the store, with its fields in a lost word as all ones, and from M2 the
package enters M11 with HALT_SRC 0x1FFE; a breach that an injection caused is only written, in M10, and elsewhere counted as refused with cause 0 of
package source 6. A die-to-die interface that fails, or where what a die's ledger says has landed differs from what the far die counts, sets cause 0
at both ends (cause 2 too), its crossings 0 to 5 enter reset and the packets in flight on it are counted in DIE_XDISCARD of the die that sent them
(log entry 51); while every pair of dies has its interface or a relay nothing is fenced; a pair that has neither has every region of one of its dies
fenced, of the failed interface's own pair the die without the lead or the higher one (D1 of the FB256), and M6 becomes M7 (the order of the pairs is
the model's, log entry 52). One that returns sets cause 1 and carries traffic again. An interface the part does not have, or that is already so,
changes nothing. A partition of the basin without room for a unit sets cause 3 of its die's source 1. -/
def Obligations.LedgersAndInterfaces : Prop :=
  ∀ (s : State), s.quiet →
    let nothing := fun c : Instr => completes c s { s with out := [] }
    (∀ (scope index lost : Nat) (injected : Bool), scope < 68 →
      let c := Instr.ledgerBreach scope index lost injected
      let l := s.ledger (if scope < 64 then 256 * scope + index else 16384 + 256 * (scope - 64) + index)
      let kind : Byte := if lost ≠ 0 then 1 else if l.issued ≠ l.out + l.returned then 2 else if l.total ≠ 0 ∧ l.total < l.out then 3 else 4
      let field := fun (i n v : Nat) => if lost.testBit i then List.replicate n (0xFF : Byte) else leBytes n v
      let head : List Byte := [kind, if scope < 64 then 1 else 2] ++ leBytes 2 (if scope < 64 then scope else scope - 64) ++ [BitVec.ofNat 8 index, if injected then 1 else 0, 0, 0] ++
        leBytes 8 s.now ++ field 0 4 l.total ++ field 1 4 l.out ++ field 2 10 l.issued ++ field 3 10 l.returned ++ field 4 8 l.reclaimed ++ [0, 0, 0, 0]
      let record := head ++ leBytes 4 (crc32c head) ++ [0, 0, 0, 0]
      let nvs := putBytes s.nvs (0x07000000 + 64 * s.dir.recordNext) record
      let broken := lost ≠ 0 ∨ l.issued ≠ l.out + l.returned ∨ (l.total ≠ 0 ∧ l.total < l.out) ∨ l.returned < l.reclaimed
      let written := completesWith c s { s with out := [], nvs := nvs } fun t => s.routed → t.dir = { s.dir with recordNext := (s.dir.recordNext + 1) % 262144 }
      let d := if scope < 64 then scope / 16 else scope - 64
      (¬ broken → nothing c) ∧
      (broken → injected = true → s.mode = 10 → written) ∧
      (broken → injected = true → s.mode ≠ 10 → completesIn workSame c s s fun t => counts s t (DIE_EVT_INJECT.REFUSED d) ∧ t.hasCause (srcPkg 6) 0 ∧ t.out = []) ∧
      (broken → injected = false → s.mode < 2 ∨ s.mode = 11 → written) ∧
      (broken → injected = false → 2 ≤ s.mode → s.mode ≠ 11 → completesIn fenceSame c s s fun t =>
        t.mode = 11 ∧ t.get PKG_MODE.PREV_MODE = s.mode ∧ t.get PKG_MODE.HALT_SRC = 0x1FFE ∧ .pin pinHalt false ∈ t.out ∧ (s.records = [] → t.nvs = nvs))) ∧
    (∀ x first second : Nat,
      let a := (d2dEnds x).1
      let b := (d2dEnds x).2
      let ia := d2dIndex a b
      let ib := d2dIndex b a
      let has := x = 0 ∨ (s.chip.fb512 = true ∧ x < 6)
      let both := fun (t : State) (k : Nat) => t.hasCause (srcDie a (3 + ia)) k ∧ t.hasCause (srcDie b (3 + ib)) k
      let fail := Instr.d2dInterfaceFail x
      let tally := Instr.d2dTallyExchange x first second
      -- what has left a die of the interface and landed on the other (log entry 97), as the far dies count it
      let landed := fun d i : Nat => (s.ledger (dieLedger d (67 + i))).returned - (s.ledger (dieLedger d (67 + i))).reclaimed
      let agree := landed a ia = first ∧ landed b ib = second
      let back := Instr.d2dInterfaceReturn x
      let inFlight := fun (d i : Nat) => (s.waiting.filter fun w => w.holds.any fun h => h.ledger = dieLedger d (67 + i)).length
      let relay := ∃ r ∈ s.healthyDies, r ≠ a ∧ r ≠ b ∧ s.d2dUp a r = true ∧ s.d2dUp r b = true
      let up := fun i j : Nat => s.d2dUp i j = true ∧ ¬ (i = a ∧ j = b) ∧ ¬ (i = b ∧ j = a)
      let cut := fun y : Nat =>
        let i := (d2dEnds y).1
        let j := (d2dEnds y).2
        (y = 0 ∨ s.chip.fb512 = true) ∧ ¬ up i j ∧ ¬ ∃ r ∈ s.healthyDies, r ≠ i ∧ r ≠ j ∧ up i r ∧ up r j
      let loser := if s.chip.fb512 = false then 1 else if s.leadDie = b then a else b
      let failed := fun t : State => both t 0 ∧ t.d2dUp a b = false ∧
        (∀ k ∈ [ia, 3 + ia], (s.crossing (dieCrossing a k)).nearStopped = false → t.bitOf (DIE_XSTAT.IN_RESET a) k = true ∧ (t.crossing (dieCrossing a k)).crossReset = true) ∧
        (∀ k ∈ [ib, 3 + ib], (s.crossing (dieCrossing b k)).nearStopped = false → t.bitOf (DIE_XSTAT.IN_RESET b) k = true ∧ (t.crossing (dieCrossing b k)).crossReset = true) ∧
        t.get (DIE_XDISCARD.VALUE a) = (s.get (DIE_XDISCARD.VALUE a) + inFlight a ia) % 2 ^ 64 ∧ t.get (DIE_XDISCARD.VALUE b) = (s.get (DIE_XDISCARD.VALUE b) + inFlight b ib) % 2 ^ 64 ∧
        (relay → (∀ y < 6, ¬ cut y) → t.rd PKG_FENCE_RG.addr = s.rd PKG_FENCE_RG.addr ∧ t.mode = s.mode) ∧
        (∀ y < 6, cut y → (∀ g < 4, t.regionFenced (4 * (d2dEnds y).1 + g) = true) ∨ ∀ g < 4, t.regionFenced (4 * (d2dEnds y).2 + g) = true) ∧
        (¬ relay → (∀ g < 4, t.regionFenced (4 * loser + g) = true) ∧ (s.mode = 6 → (∃ g < 4, s.regionFenced (4 * loser + g) = false) → t.mode = 7))
      (¬ has → nothing fail ∧ nothing tally ∧ nothing back) ∧ (agree → nothing tally) ∧
      (s.d2dUp a b = false → nothing fail) ∧ (s.d2dUp a b = true → nothing back) ∧
      (has → s.d2dUp a b = true → completesIn fenceSame fail s s failed) ∧
      (has → ¬ agree → s.d2dUp a b = true → completesIn fenceSame tally s s fun t => failed t ∧ both t 2) ∧
      (has → ¬ agree → s.d2dUp a b = false → completesIn eventSame tally s { s with out := [] } fun t => both t 2) ∧
      (has → s.d2dUp a b = false → completesIn fenceSame back s s fun t => both t 1 ∧ t.d2dUp a b = true ∧ t.rd PKG_FENCE_RG.addr = s.rd PKG_FENCE_RG.addr ∧ t.mode = s.mode ∧
        (∀ k ∈ [ia, 3 + ia], (t.crossing (dieCrossing a k)).nearReset = false) ∧ ∀ k ∈ [ib, 3 + ib], (t.crossing (dieCrossing b k)).nearReset = false)) ∧
    ∀ d part : Nat, d < 4 →
      let l := s.ledger (dieLedger d part)
      let full := s.basinPresent d part = true ∧ part < 15 ∧ l.total ≠ 0 ∧ l.total ≤ l.out
      (¬ full → nothing (.basinPartitionFull d part)) ∧
      (full → completesIn eventSame (.basinPartitionFull d part) s { s with out := [] } fun t => t.hasCause (srcDie d 1) 3)

/-- O53. Arithmetic, logic, shifts, SWAP and TIME of a transaction engine. On a quiet state in which engine te runs and the word at its program
counter spells the instruction, LI, LIX, ADD, SUB, AND, OR, XOR, SHL, SHR, ADDI, ANDI, SHLI, SHRI and TIME write D with the value of Table 01-11, D =
0 writes nothing, the program counter moves to the next word, and nothing else changes but what the end of every command may change. The immediate of
ADDI is sign-extended, of ANDI zero-extended; SHLI and SHRI are stated for IMM14 below 64. The command of one of these that the word does not spell
changes nothing (log entry 34). On a quiet state in which engine te runs and the word spells it, SWAP with IMM14 = k of 1, 2 or 3 writes D with a
value whose byte i is byte i − i mod n + (n − 1 − i mod n) of A, for n = 2^k and every i below 8, the program counter moves to the next word, and
nothing else changes but what the end of every command may change. D = 0 writes nothing. -/
def Obligations.EngineArithmetic : Prop :=
  (∀ (s : State) (te rd ra rb : Nat) (i14 : BitVec 14) (i18 : BitVec 18), s.quiet → te < 512 → s.engineRuns te = true →
     let e := s.engine te
     let a := e.reg ra
     let b := e.reg rb
     let takes := fun v : Word => ({ s with
       out := []
       engines := tabPut (fun _ => {}) s.engines te
         { e with g := if rd = 0 then e.g else tabPut (fun _ => 0) e.g rd v, pc := e.pc + 1, retired := e.retired + 1 } } : State)
     let runs := fun (c : Instr) (op : EngineOp) (v : Word) =>
       (s.fetched te = some op → completes c s (takes v)) ∧ (s.fetched te ≠ some op → completes c s { s with out := [] })
     runs (.li te rd i18) (.li rd i18) (i18.signExtend 64) ∧
     runs (.lix te rd i18) (.lix rd i18) (e.reg rd <<< 16 ||| BitVec.ofNat 64 (i18.toNat % 2 ^ 16)) ∧
     runs (.add te rd ra rb) (.add rd ra rb) (BitVec.ofNat 64 (a.toNat + b.toNat)) ∧
     runs (.sub te rd ra rb) (.sub rd ra rb) (BitVec.ofInt 64 (a.toNat - b.toNat)) ∧
     runs (.and te rd ra rb) (.and rd ra rb) (a &&& b) ∧
     runs (.or te rd ra rb) (.or rd ra rb) (a ||| b) ∧
     runs (.xor te rd ra rb) (.xor rd ra rb) (a ^^^ b) ∧
     runs (.shl te rd ra rb) (.shl rd ra rb) (BitVec.ofNat 64 (a.toNat * 2 ^ (b.toNat % 64))) ∧
     runs (.shr te rd ra rb) (.shr rd ra rb) (BitVec.ofNat 64 (a.toNat / 2 ^ (b.toNat % 64))) ∧
     runs (.addi te rd ra i14) (.addi rd ra i14) (BitVec.ofInt 64 (a.toNat + i14.toInt)) ∧
     runs (.andi te rd ra i14) (.andi rd ra i14) (a &&& BitVec.ofNat 64 i14.toNat) ∧
     (i14.toNat < 64 → runs (.shli te rd ra i14) (.shli rd ra i14) (BitVec.ofNat 64 (a.toNat * 2 ^ i14.toNat)) ∧
       runs (.shri te rd ra i14) (.shri rd ra i14) (BitVec.ofNat 64 (a.toNat / 2 ^ i14.toNat))) ∧
     runs (.time te rd) (.time rd) (BitVec.ofNat 64 (16 * s.cycles.toNat + s.adjust.toNat))) ∧
  ∀ (s : State) (te rd ra : Nat) (imm : BitVec 14), s.quiet → te < 512 → s.engineRuns te = true → s.fetched te = some (.swap rd ra imm) → 1 ≤ imm.toNat → imm.toNat ≤ 3 →
    let e := s.engine te
    let n := 2 ^ imm.toNat
    ∃ v : Word,
      completes (.swap te rd ra imm) s { s with
        out := []
        engines := tabPut (fun _ => {}) s.engines te
          { e with g := if rd = 0 then e.g else tabPut (fun _ => 0) e.g rd v, pc := e.pc + 1, retired := e.retired + 1 } } ∧
      ∀ i < 8, v.extractLsb' (8 * i) 8 = (e.reg ra).extractLsb' (8 * (i - i % n + (n - 1 - i % n))) 8

/-- O54. LD8, LD16, LD32 and LD64. On a quiet state in which engine te runs and the word at its program counter spells it, a load of n = 1, 2, 4 or 8
bytes at an address x = A + IMM14 that is aligned to n and lies in the 32,768 bytes of data memory, where the word's check bits are good, writes D
with the zero-extended number that the n bytes spell, least significant byte first, moves to the next word, and changes nothing else but what the end
of every command may change. Where the word is uncorrectable D takes all ones in its n bytes and cause 3 of the engine's source is set. A load that
the word does not spell changes nothing (log entry 34). That IMM14 is sign-extended here is deduced (log entry 35). -/
def Obligations.EngineLoads : Prop :=
  ∀ (s : State) (te rd ra : Nat) (imm : BitVec 14), s.quiet → te < 512 → s.engineRuns te = true →
    let e := s.engine te
    let x := (e.reg ra + imm.signExtend 64).toNat
    let takes := fun v : Word => ({ s with
      out := []
      engines := tabPut (fun _ => {}) s.engines te
        { e with g := if rd = 0 then e.g else tabPut (fun _ => 0) e.g rd v, pc := e.pc + 1, retired := e.retired + 1 } } : State)
    let loads := fun (c : Instr) (op : EngineOp) (n : Nat) =>
      (s.fetched te ≠ some op → completes c s { s with out := [] }) ∧ (s.fetched te = some op → x + n ≤ 32768 → x % n = 0 →
      (s.wordState (dataAddr te (x / 8 * 8)) = 0 →
        completes c s (takes (BitVec.ofNat 64 (leNat ((List.range n).map fun i => byteAt s.dataMem (32768 * te + (x + i))))))) ∧
      (s.wordState (dataAddr te (x / 8 * 8)) = 2 →
        completesWithEvents c s (takes (BitVec.ofNat 64 (2 ^ (8 * n) - 1))) fun t =>
          (t.get (EVT_SRC_A.CAUSE (64 * (te / 8) + 20 + te % 8))).testBit 3 = true))
    loads (.ld8 te rd ra imm) (.ld8 rd ra imm) 1 ∧ loads (.ld16 te rd ra imm) (.ld16 rd ra imm) 2 ∧
    loads (.ld32 te rd ra imm) (.ld32 rd ra imm) 4 ∧ loads (.ld64 te rd ra imm) (.ld64 rd ra imm) 8

/-- O55. ST8, ST16, ST32 and ST64. On a quiet state in which engine te runs, with no injection armed on its data memory and the word at its program
counter spelling it, a store of n = 1, 2, 4 or 8 bytes at an address x = A + IMM14 that is aligned to n and lies in data memory puts the low n bytes
of D there, least significant first, leaves the word's check bits good, moves to the next word, and changes nothing else but what the end of every
command may change; every other byte of every engine's data memory reads as before. With an injection of mode 1 or 2 armed the word's check bits take
that mode and REMAIN falls by one. A store that the word does not spell changes nothing (log entry 34). -/
def Obligations.EngineStores : Prop :=
  ∀ (s : State) (te rd ra : Nat) (imm : BitVec 14), s.quiet → te < 512 → s.engineRuns te = true →
    let e := s.engine te
    let x := (e.reg ra + imm.signExtend 64).toNat
    let stores := fun (c : Instr) (op : EngineOp) (n : Nat) =>
      (s.fetched te ≠ some op → completes c s { s with out := [] }) ∧ (s.fetched te = some op → x + n ≤ 32768 → x % n = 0 →
      let mem := putBytes s.dataMem (32768 * te + x) (leBytes n (e.reg rd).toNat)
      (∀ k, byteAt mem k = if 32768 * te + x ≤ k ∧ k < 32768 * te + x + n then BitVec.ofNat 8 ((e.reg rd).toNat / 256 ^ (k - (32768 * te + x))) else byteAt s.dataMem k) ∧
      (s.injectMode (te / 128) 5 (te % 128) = 0 →
        completes c s { s with
          out := [], dataMem := mem, ecc := tabPut (fun _ => 0) s.ecc (dataAddr te (x / 8 * 8)) 0
          engines := tabPut (fun _ => {}) s.engines te { e with pc := e.pc + 1, retired := e.retired + 1 } }) ∧
      ∀ m, s.injectMode (te / 128) 5 (te % 128) = m → m = 1 ∨ m = 2 →
        ∃ t, exec c s = .next t ∧ t.dataMem = mem ∧ t.wordState (dataAddr te (x / 8 * 8)) = m ∧
          t.get (DIE_EVT_INJECT.REMAIN (te / 128)) + 1 = s.get (DIE_EVT_INJECT.REMAIN (te / 128)))
    stores (.st8 te rd ra imm) (.st8 rd ra imm) 1 ∧ stores (.st16 te rd ra imm) (.st16 rd ra imm) 2 ∧
    stores (.st32 te rd ra imm) (.st32 rd ra imm) 4 ∧ stores (.st64 te rd ra imm) (.st64 rd ra imm) 8

/-- O56. Branches, jumps and calls of a transaction engine. On a quiet state in which engine te runs and the word at its program counter spells the
instruction, BEQ, BNE, BLTU and BGEU move to the present word plus the sign-extended IMM14, modulo 4,096, when their condition holds (unsigned for
BLTU and BGEU) and to the next word when it does not; JMP and CALL with IMM18 below 4,096 move to the word IMM18, CALL writes G15 with the present
word plus 1, and JR moves to A[11:0]. One that the word does not spell changes nothing (log entry 34). Nothing else changes but what the end of every
command may change. -/
def Obligations.EngineBranches : Prop :=
  ∀ (s : State) (te ra rb : Nat) (imm : BitVec 14) (i18 : BitVec 18), s.quiet → te < 512 → s.engineRuns te = true →
    let e := s.engine te
    let a := (e.reg ra).toNat
    let b := (e.reg rb).toNat
    let goes := fun (c : Instr) (op : EngineOp) (g : Tab Word) (pc : BitVec 12) => (s.fetched te ≠ some op → completes c s { s with out := [] }) ∧
      (s.fetched te = some op → completes c s { s with
        out := []
        engines := tabPut (fun _ => {}) s.engines te { e with g := g, pc := pc, retired := e.retired + 1 } })
    let branch := fun (taken : Bool) => if taken then BitVec.ofInt 12 (e.pc.toNat + imm.toInt) else e.pc + 1
    goes (.beq te ra rb imm) (.beq ra rb imm) e.g (branch (a == b)) ∧ goes (.bne te ra rb imm) (.bne ra rb imm) e.g (branch (a != b)) ∧
    goes (.bltu te ra rb imm) (.bltu ra rb imm) e.g (branch (decide (a < b))) ∧ goes (.bgeu te ra rb imm) (.bgeu ra rb imm) e.g (branch (decide (b ≤ a))) ∧
    goes (.jr te ra) (.jr ra) e.g (BitVec.ofNat 12 a) ∧
    (i18.toNat < 4096 → goes (.jmp te i18) (.jmp i18) e.g (BitVec.ofNat 12 i18.toNat) ∧
      goes (.call te i18) (.call i18) (tabPut (fun _ => 0) e.g 15 (BitVec.ofNat 64 (e.pc.toNat + 1))) (BitVec.ofNat 12 i18.toNat))

/-- O57. The three AMO instructions of a transaction engine. On a quiet state in which engine te runs, with no injection armed on its data memory and
the word at its program counter spelling it, AMO FetchAdd, Swap and CAS on the 8 bytes at an aligned address x = A inside data memory, whose check
bits are good, put old + B, B, and B if old = D (else old) there, write D with the old value (D = 0 writes nothing), move to the next word, and change
nothing else but what the end of every command may change. One that the word does not spell changes nothing (log entry 34). -/
def Obligations.EngineAtomics : Prop :=
  ∀ (s : State) (te rd ra rb : Nat), s.quiet → te < 512 → s.engineRuns te = true → s.injectMode (te / 128) 5 (te % 128) = 0 →
    let e := s.engine te
    let x := (e.reg ra).toNat
    x + 8 ≤ 32768 → x % 8 = 0 → s.wordState (dataAddr te x) = 0 →
    let old := BitVec.ofNat 64 (leNat ((List.range 8).map fun i => byteAt s.dataMem (32768 * te + (x + i))))
    let swaps := fun (c : Instr) (op : EngineOp) (new : Word) =>
      (s.fetched te ≠ some op → completes c s { s with out := [] }) ∧ (s.fetched te = some op → completes c s { s with
      out := [], dataMem := putBytes s.dataMem (32768 * te + x) (leBytes 8 new.toNat)
      engines := tabPut (fun _ => {}) s.engines te
        { e with g := if rd = 0 then e.g else tabPut (fun _ => 0) e.g rd old, pc := e.pc + 1, retired := e.retired + 1 } })
    swaps (.amoFetchadd te rd ra rb) (.amoFetchadd rd ra rb) (old + e.reg rb) ∧ swaps (.amoSwap te rd ra rb) (.amoSwap rd ra rb) (e.reg rb) ∧
    swaps (.amoCas te rd ra rb) (.amoCas rd ra rb) (if old = e.reg rd then e.reg rb else old)

/-- O58. Items, their layout in the inbox, WAIT and the timer of a transaction engine. On a quiet state: an item for a waiting engine with an empty
queue is written into the inbox (no injection armed, no bad word anywhere) and the engine continues at the word of the item's KIND; for a running
engine it joins the end of a queue of fewer than 32 with the present fabric time; at a full queue nothing is delivered; at a halted engine with room
it is discarded; one of more than 256 bytes is never delivered, and its request is answered Unsupported Request or NOT-MAPPED. An item of a PCI
Express requester that owes an answer and is not discarded is outstanding at its port from then on. WAIT of a running engine that its word spells, or
of a waiting one, makes it wait when its queue is empty, and otherwise takes the oldest item in the same way. An answer that the handler which ends
still owes is left to its requester's bound. TIMER, where the word spells it, arms the timer A ticks from now, and disarms it for A = 0; the expiry of
an armed timer of a running engine with room clears it, moves time on to the armed instant and queues an item of KIND 6, which a waiting engine takes
at once. Nothing else changes but what the end of every command may change. For an item whose fields fit and that reached its engine at a time below
2^64, the bytes written into the inbox are DESC (KIND, LEN, PORT, REQUESTER and CTX in their places), the time, sixteen zero bytes, the header padded
with zeros to 32 bytes and the payload. -/
def Obligations.EngineItems : Prop :=
  (∀ (s : State) (te ra : Nat), s.quiet → te < 512 → te < 8 * s.numClusters →
     let e := s.engine te
     let puts := fun (e : Engine) => ({ s with out := [], engines := tabPut (fun _ => {}) s.engines te e } : State)
     -- an answer that the handler that ends still owes is left to its requester's bound
     let owed := if e.reply = .none then e.owed else e.owed ++ [(e.reply, e.since)]
     let handles := fun (i : EngineItem) (r : ReplyTo) (time : Nat) (rest : List (EngineItem × ReplyTo × Nat)) =>
       { puts { e with queue := rest, run := .running, reply := r, owed := owed, retired := 0, since := time, pc := BitVec.ofNat 12 i.kind } with
         dataMem := putBytes s.dataMem (32768 * te + 0x7C00) (i.inbox time) }
     -- a request of a PCI Express requester is outstanding at its port until it is answered
     let owes := fun (r : ReplyTo) (t : State) => match r with
       | .pcie p tag req config => { t with
           nextId := s.nextId + 1
           outstanding := s.outstanding ++ [
             { id := s.nextId + 1, port := p, ptype := 0, noWin := true, received := s.now
               tlp := some { kind := if config then .cfgRead false else .other, reqId := req, tag := tag, target := req } }] }
       | _ => t
     (∀ i : EngineItem, i.kind < 7 → i.payload.length ≤ 256 →
       (e.run = .waiting → e.queue = [] → s.ecc = [] → s.injectMode (te / 128) 5 (te % 128) = 0 →
         completes (.engineItemArrival te i) s (owes i.replyTo (handles i i.replyTo s.now []))) ∧
       (e.run = .running → e.queue.length < 32 →
         completes (.engineItemArrival te i) s (owes i.replyTo (puts { e with queue := e.queue ++ [(i, i.replyTo, s.now)] }))) ∧
       (32 ≤ e.queue.length → completes (.engineItemArrival te i) s { s with out := [] }) ∧
       (e.run = .halted → completes (.engineItemArrival te i) s { s with out := [] })) ∧
     -- an item of more than 256 bytes is never delivered, and its request is answered (R70)
     (∀ i : EngineItem, i.kind < 7 → 256 < i.payload.length → completesIn workSame (.engineItemArrival te i) s s fun t =>
       (∀ p tag req cfg, i.replyTo = .pcie p tag req cfg → told t [.tlpOut p { kind := .completion 1, reqId := s.fabricId p, tag := tag, target := req }] ∧ t.waiting = s.waiting) ∧
       (∀ k, i.replyTo = .burek k → k.src / 1024 ≠ s.rank → s.transitOf k = none → s.clusterHeld (te / 8) = false →
         ∀ x xs, s.pathFrom (te / 8) (s.egress (te / 128) k.src) = some (x :: xs) →
           ∃ w, t.waiting = s.waiting ++ [w] ∧ w.point = x ∧ w.path = xs ∧ w.pkt.ptype = 7 ∧ w.pkt.status = 1 ∧ w.pkt.dest = k.src ∧ w.pkt.tag = k.tag) ∧
       (i.replyTo = .none → told t [] ∧ t.waiting = s.waiting)) ∧
     (s.engineRuns te = true → s.fetched te ≠ some .wait → completes (.wait te) s { s with out := [] }) ∧
     ((s.engineRuns te = true ∧ s.fetched te = some .wait) ∨ e.run = .waiting → e.queue = [] →
       completes (.wait te) s (puts { e with run := .waiting, reply := .none, owed := owed, retired := 0 })) ∧
     (∀ i r time rest, (s.engineRuns te = true ∧ s.fetched te = some .wait) ∨ e.run = .waiting → e.queue = (i, r, time) :: rest → i.kind < 7 → s.ecc = [] → s.injectMode (te / 128) 5 (te % 128) = 0 →
       completes (.wait te) s (handles i r time rest)) ∧
     (s.fetched te ≠ some (.timer ra) → completes (.timer te ra) s { s with out := [] }) ∧
     (s.engineRuns te = true → s.fetched te = some (.timer ra) →
       completes (.timer te ra) s (puts { e with
         pc := e.pc + 1, retired := e.retired + 1, timer := if e.reg ra = 0 then none else some (s.now + (e.reg ra).toNat) })) ∧
     (∀ due, e.timer = some due → e.run = .running → e.queue.length < 32 →
       let s' := s.waitUntil due
       completes (.engineTimerExpiry te) s { s' with
         out := [], engines := tabPut (fun _ => {}) s.engines te { e with timer := none, queue := e.queue ++ [({ kind := 6 }, .none, s'.now)] } }) ∧
     (∀ due, e.timer = some due → e.run = .waiting → e.queue = [] →
       ∃ t, exec (.engineTimerExpiry te) s = .next t ∧ t.cycles = (s.waitUntil due).cycles ∧ (t.engine te).timer = none ∧ (t.engine te).run = .running ∧
         (t.engine te).pc = 6 ∧ (t.engine te).queue = [])) ∧
  ∀ (i : EngineItem) (time : Nat), i.kind < 16 → i.port < 65536 → i.requester < 65536 → i.ctx < 65536 → i.header.length ≤ 32 → i.payload.length ≤ 256 → time < 2 ^ 64 →
    let b := i.inbox time
    leNat (b.take 8) = i.kind * 2 ^ 60 + i.payload.length * 2 ^ 48 + i.port * 2 ^ 32 + i.requester * 2 ^ 16 + i.ctx ∧
    leNat ((b.drop 8).take 8) = time ∧ (b.drop 16).take 16 = List.replicate 16 0 ∧
    (b.drop 32).take 32 = i.header ++ List.replicate (32 - i.header.length) 0 ∧ b.drop 64 = i.payload

/-- O59. Illegal instructions, the watchdog, an uncorrectable program word and RAISE. On a quiet state in which engine te runs (and, for what abandons
an item while another waits, no injection is armed on its data memory and no word of the package carries an error): a word that decodes to no
instruction, a load, store or AMO whose address is misaligned or beyond data memory, a JMP or CALL with IMM18 of 4,096 or more, a SHLI or SHRI with
IMM14 of 64 or more, a SWAP with IMM14 other than 1, 2 and 3, and an ISSUE from an engine that is not the handler of a PD port set cause 0 of the
engine's source where the word at the program counter spells them, abandon the item and the answer it owes, and the engine takes the oldest item that
waits, or waits when there is none; the handler watchdog of a running engine does the same with cause 1 once 1,048,576 instructions have retired, and
nothing before; an uncorrectable program word sets cause 2 and halts the engine with its queue discarded, and until then the engine retires nothing;
RAISE, where the word spells it, sets cause 6 and moves to the next word. Nothing else changes but what raising causes and the end of every command
may change. -/
def Obligations.EngineFaults : Prop :=
  ∀ (s : State) (te rd ra rb : Nat) (imm : BitVec 14) (i18 : BitVec 18), s.quiet → te < 512 → (s.engine te).run = .running →
    let e := s.engine te
    let src := 64 * (te / 8) + 20 + te % 8
    -- an answer that the handler still owes is left to its requester's bound
    let owed := if e.reply = .none then e.owed else e.owed ++ [(e.reply, e.since)]
    let sets := fun (c : Instr) (cause : Nat) (mem : Tab Byte) (e' : Engine) =>
      completesWithEvents c s { s with out := [], dataMem := mem, engines := tabPut (fun _ => {}) s.engines te e' } fun t =>
        (t.get (EVT_SRC_A.CAUSE src)).testBit cause = true
    let abandons := fun (c : Instr) (cause : Nat) =>
      match e.queue with
      | [] => sets c cause s.dataMem { e with run := .waiting, reply := .none, owed := owed, retired := 0 }
      | (i, r, time) :: rest => sets c cause (putBytes s.dataMem (32768 * te + 0x7C00) (i.inbox time))
          { e with queue := rest, run := .running, reply := r, owed := owed, retired := 0, since := time, pc := BitVec.ofNat 12 (i.kind % 16) }
    let breaks := fun (c : Instr) (op : EngineOp) => s.fetched te = some op → abandons c 0
    let x := (e.reg ra + imm.signExtend 64).toNat
    let y := (e.reg ra).toNat
    -- an item that waits can be written into the inbox
    let calm := e.queue = [] ∨ (s.ecc = [] ∧ s.injectMode (te / 128) 5 (te % 128) = 0)
    (e.retired < 1048576 → completes (.handlerWatchdog te) s { s with out := [] }) ∧
    (1048576 ≤ e.retired → calm → abandons (.handlerWatchdog te) 1) ∧
    sets (.programWordUncorrectable te) 2 s.dataMem { e with run := .halted, queue := [], reply := .none, owed := owed } ∧
    (s.wordLost te = true → completes (.illegalInstruction te) s { s with out := [] } ∧ completes (.raise te) s { s with out := [] }) ∧
    (s.engineRuns te = true → s.fetched te ≠ none → completes (.illegalInstruction te) s { s with out := [] }) ∧
    (s.engineRuns te = true → s.fetched te ≠ some .raise → completes (.raise te) s { s with out := [] }) ∧
    (s.engineRuns te = true → s.fetched te = some .raise → sets (.raise te) 6 s.dataMem { e with pc := e.pc + 1, retired := e.retired + 1 }) ∧
    (s.engineRuns te = true → calm →
      (s.fetched te = none → abandons (.illegalInstruction te) 0) ∧
      (32768 ≤ x → breaks (.ld8 te rd ra imm) (.ld8 rd ra imm) ∧ breaks (.st8 te rd ra imm) (.st8 rd ra imm)) ∧
      (32768 < x + 2 ∨ x % 2 ≠ 0 → breaks (.ld16 te rd ra imm) (.ld16 rd ra imm) ∧ breaks (.st16 te rd ra imm) (.st16 rd ra imm)) ∧
      (32768 < x + 4 ∨ x % 4 ≠ 0 → breaks (.ld32 te rd ra imm) (.ld32 rd ra imm) ∧ breaks (.st32 te rd ra imm) (.st32 rd ra imm)) ∧
      (32768 < x + 8 ∨ x % 8 ≠ 0 → breaks (.ld64 te rd ra imm) (.ld64 rd ra imm) ∧ breaks (.st64 te rd ra imm) (.st64 rd ra imm)) ∧
      (32768 < y + 8 ∨ y % 8 ≠ 0 →
        breaks (.amoFetchadd te rd ra rb) (.amoFetchadd rd ra rb) ∧ breaks (.amoSwap te rd ra rb) (.amoSwap rd ra rb) ∧ breaks (.amoCas te rd ra rb) (.amoCas rd ra rb)) ∧
      (4096 ≤ i18.toNat → breaks (.jmp te i18) (.jmp i18) ∧ breaks (.call te i18) (.call i18)) ∧
      (64 ≤ imm.toNat → breaks (.shli te rd ra imm) (.shli rd ra imm) ∧ breaks (.shri te rd ra imm) (.shri rd ra imm)) ∧
      (imm.toNat = 0 ∨ 3 < imm.toNat → breaks (.swap te rd ra imm) (.swap rd ra imm)) ∧
      (te % 2 = 1 ∨ s.isPd (4 * (te / 8) + te % 8 / 2) = false → breaks (.issue te ra) (.issue ra)))

/-- O60. SEND, ISSUE and REPLY of a transaction engine. On a quiet state in which engine te runs and the word at its program counter spells the
instruction (else its command changes nothing): SEND of an outbox packet whose SRC is the engine's endpoint or a port of its cluster and whose payload
fits the outbox moves to the next word, and the packet, with HOPS 0, no deadline yet and no tag yet when it is non-posted, is the one request that
waits at the engine's ingress, where it stalls the engine; a non-posted one is outstanding with the CTX A[15:0]. ISSUE by the handler of a PD port
whose link is up, that is not locked, and whose pool, credits and calendar hold it (log entry 67; else it waits) puts the configuration read,
configuration write, memory read, memory write or message that outbox word 0 asks for (KIND 1 to 5) on the link with requester ID 0, a non-posted one
(KIND 1 to 3) with the lowest free tag and one unit of the port's ledger 27. REPLY when no answer is owed only moves on and owes none; REPLY to a
request of a PCI Express port that is still outstanding takes it away and puts a completion with A[2:0] by Table 10-1 on the link, with the B bytes
from 0x7E20 (at most 256) only when it is successful, and Request Retry Status for A[3] of a configuration request; REPLY to a Burek request from
another package whose transit is not recorded and toward whose source a path exists forms a Completion with status A[2:0] and those bytes. -/
def Obligations.EnginePackets : Prop :=
  ∀ (s : State) (te ra rb : Nat), s.quiet → te < 512 → s.engineRuns te = true →
    let e := s.engine te
    let a := (e.reg ra).toNat
    let word := fun k => leNat ((List.range 8).map fun i => byteAt s.dataMem (32768 * te + (0x7E00 + 8 * k + i)))
    let next := { e with pc := e.pc + 1, retired := e.retired + 1 }
    let k := headerOf (word 0) (word 1) (word 2) (word 3)
    let size := if k.payloadElements = 0 then 0 else k.len
    (s.fetched te ≠ some (.send ra) → completes (.send te ra) s { s with out := [] }) ∧
    (s.fetched te ≠ some (.issue ra) → completes (.issue te ra) s { s with out := [] }) ∧
    (s.fetched te ≠ some (.reply ra rb) → completes (.reply te ra rb) s { s with out := [] }) ∧
    (s.fetched te = some (.send ra) → (k.src = s.fabricId (256 + te) ∨ ∃ p, s.localPort k.src = some p ∧ p / 4 = te / 8) → size ≤ 480 →
      ∃ t q, exec (.send te ra) s = .next t ∧ t.engine te = next ∧ t.dataMem = s.dataMem ∧ t.ingressQ (16 * (1024 + te)) = [q] ∧ t.engineRuns te = false ∧
        q.pkts = [{ k with hops := 0, deadline := 0, tag := if k.vc = 1 then 0 else k.tag, payload := bytesAt s.dataMem (32768 * te + 0x7E20) size }] ∧
        (k.vc = 1 → ∃ o, t.outstanding = s.outstanding ++ [o] ∧ o.ctx = a % 65536 ∧ o.port = 1024 + te ∧ o.dest = k.dest)) ∧
    (let p := 4 * (te / 8) + te % 8 / 2
     let kind := word 0 / 2 ^ 60 % 16
     let data := bytesAt s.dataMem (32768 * te + 0x7E20) (word 0 / 2 ^ 48 % 4096)
     let fits := ∀ x, s.issueTlp te (s.linkTag p) = some x → s.issueFits p x (decide (kind ≤ 3)) = true
     s.fetched te = some (.issue ra) → te % 2 = 0 → s.isPd p = true →
     ((s.pcieUp p = false ∨ s.get (PORT_LOCK.LOCKED p) = 1 ∨ ¬ fits) → 1 ≤ kind → kind ≤ 5 → completes (.issue te ra) s { s with out := [] }) ∧
     (kind = 0 ∨ 5 < kind → completes (.issue te ra) s { s with out := [], engines := tabPut (fun _ => {}) s.engines te next }) ∧
     (s.pcieUp p = true → s.get (PORT_LOCK.LOCKED p) = 0 → fits → 1 ≤ kind → kind ≤ 5 →
      ∃ t x, exec (.issue te ra) s = .next t ∧ t.engine te = next ∧ t.dataMem = s.dataMem ∧ t.out = [.tlpOut p x] ∧ x.reqId = 0 ∧
        x.len = word 0 / 2 ^ 48 % 4096 ∧ x.firstBe = word 0 / 2 ^ 40 % 16 ∧ x.lastBe = word 0 / 2 ^ 44 % 16 ∧
        (kind ≤ 4 → x.kind = (match kind with | 1 => .cfgRead false | 2 => .cfgWrite false | 3 => .memRead | _ => .memWrite)) ∧ (kind = 5 → ∃ code, x.kind = .message code) ∧
        (kind ≤ 2 → x.addr = word 0 % 4096 ∧ x.target = word 0 / 2 ^ 16 % 65536) ∧ (kind = 3 ∨ kind = 4 → x.addr = word 1) ∧
        (kind = 2 ∨ 4 ≤ kind → x.data = data) ∧
        (kind ≤ 3 → x.tag = s.linkTag p ∧ (∃ d, t.device = s.device ++ [d] ∧ d.engine = some te ∧ d.ctx = a % 65536 ∧ d.tag = x.tag) ∧
          (t.ledger (portLedger p 27)).out = (s.ledger (portLedger p 27)).out + 1))) ∧
    (let data := bytesAt s.dataMem (32768 * te + 0x7E20) (min (e.reg rb).toNat 256)
     let after := ({ s with out := [], engines := tabPut (fun _ => {}) s.engines te { next with reply := .none } } : State)
     s.fetched te = some (.reply ra rb) →
     (e.reply = .none → completes (.reply te ra rb) s after) ∧
     (∀ p tag req cfg, e.reply = .pcie p tag req cfg → p < 256 →
        (s.owedItem p tag req = none → completes (.reply te ra rb) s after) ∧ ∀ o, s.owedItem p tag req = some o →
        let cpl := fun (code : Nat) (d : List Byte) => ({ after with
          outstanding := s.outstanding.filter (fun y => y.id ≠ o.id)
          out := [.tlpOut p { kind := .completion code, reqId := s.fabricId p, tag := tag, target := req, len := d.length, data := d }] } : State)
        (a % 8 = 0 → (cfg && a.testBit 3) = false → completes (.reply te ra rb) s (cpl 0 data)) ∧
        (cfg = true → a.testBit 3 = true → completes (.reply te ra rb) s (cpl 2 [])) ∧
        (a % 8 = 1 → (cfg && a.testBit 3) = false → completesWithEvents (.reply te ra rb) s (cpl 1 []) fun t =>
          (t.get (EVT_SRC_A.CAUSE (64 * (p / 4) + 12 + p % 4))).testBit 2 = true) ∧
        (2 ≤ a % 8 → (cfg && a.testBit 3) = false → completesWithEvents (.reply te ra rb) s (cpl 4 []) fun t =>
          (t.get (EVT_SRC_A.CAUSE (64 * (p / 4) + 12 + p % 4))).testBit 3 = true)) ∧
     (∀ k : Packet, e.reply = .burek k → k.src / 1024 ≠ s.rank → s.transitOf k = none →
        (s.pathFrom (te / 8) (s.egress (te / 8 / 16) k.src)).isSome = true →
        ∃ t w, exec (.reply te ra rb) s = .next t ∧ t.engine te = { next with reply := .none } ∧ t.waiting = s.waiting ++ [w] ∧
          w.pkt.ptype = 7 ∧ w.pkt.dest = k.src ∧ w.pkt.tag = k.tag ∧ w.pkt.status = a % 8 ∧ w.pkt.payload = data))
end

