-- ==== Sys2Proof/Laws/Engine.lean ====
section
/-! SUPPORT. The transaction engines: what stands between an instruction command and its effect (the word at the program counter, a running engine), and
what ends a handler. -/

namespace Sys2Proof.Machine

/-! ### Registers -/

@[simp] theorem Engine.reg_zero (e : Engine) : e.reg 0 = 0 := rfl

@[simp] theorem Engine.setReg_zero (e : Engine) (v : Word) : e.setReg 0 v = e := rfl

theorem Engine.setReg_of_ne (e : Engine) {n : Nat} (v : Word) (h : n ≠ 0) : e.setReg n v = { e with g := tabPut (fun _ => 0) e.g n v } := by
  simp [Engine.setReg, h]

@[simp] theorem Engine.setReg_run (e : Engine) (n : Nat) (v : Word) : (e.setReg n v).run = e.run := by unfold Engine.setReg; split <;> rfl
@[simp] theorem Engine.setReg_pc (e : Engine) (n : Nat) (v : Word) : (e.setReg n v).pc = e.pc := by unfold Engine.setReg; split <;> rfl
@[simp] theorem Engine.setReg_queue (e : Engine) (n : Nat) (v : Word) : (e.setReg n v).queue = e.queue := by unfold Engine.setReg; split <;> rfl
@[simp] theorem Engine.setReg_reply (e : Engine) (n : Nat) (v : Word) : (e.setReg n v).reply = e.reply := by unfold Engine.setReg; split <;> rfl
@[simp] theorem Engine.setReg_owed (e : Engine) (n : Nat) (v : Word) : (e.setReg n v).owed = e.owed := by unfold Engine.setReg; split <;> rfl
@[simp] theorem Engine.setReg_timer (e : Engine) (n : Nat) (v : Word) : (e.setReg n v).timer = e.timer := by unfold Engine.setReg; split <;> rfl
@[simp] theorem Engine.setReg_retired (e : Engine) (n : Nat) (v : Word) : (e.setReg n v).retired = e.retired := by unfold Engine.setReg; split <;> rfl

@[simp] theorem Engine.next_pc (e : Engine) : e.next.pc = e.pc + 1 := rfl
@[simp] theorem Engine.next_g (e : Engine) : e.next.g = e.g := rfl
@[simp] theorem Engine.next_retired (e : Engine) : e.next.retired = e.retired + 1 := rfl
@[simp] theorem Engine.jump_pc (e : Engine) (pc : BitVec 12) : (e.jump pc).pc = pc := rfl
@[simp] theorem Engine.jump_retired (e : Engine) (pc : BitVec 12) : (e.jump pc).retired = e.retired + 1 := rfl

/-! ### The end of a handler -/

/-- A handler that owes no answer leaves its engine as it was. -/
theorem Engine.ended_of_none {e : Engine} (h : e.reply = .none) : e.ended = e := by simp [Engine.ended, h]

/-- An answer that is owed is left to its requester's surrogate bound. -/
theorem Engine.ended_of_owed {e : Engine} (h : e.reply ≠ .none) : e.ended = { e with reply := .none, owed := e.owed ++ [(e.reply, e.since)] } := by
  simp [Engine.ended, h]

@[simp] theorem Engine.ended_reply (e : Engine) : e.ended.reply = .none := by unfold Engine.ended; split <;> simp_all
@[simp] theorem Engine.ended_g (e : Engine) : e.ended.g = e.g := by unfold Engine.ended; split <;> rfl
@[simp] theorem Engine.ended_pc (e : Engine) : e.ended.pc = e.pc := by unfold Engine.ended; split <;> rfl
@[simp] theorem Engine.ended_run (e : Engine) : e.ended.run = e.run := by unfold Engine.ended; split <;> rfl
@[simp] theorem Engine.ended_queue (e : Engine) : e.ended.queue = e.queue := by unfold Engine.ended; split <;> rfl
@[simp] theorem Engine.ended_timer (e : Engine) : e.ended.timer = e.timer := by unfold Engine.ended; split <;> rfl
@[simp] theorem Engine.ended_retired (e : Engine) : e.ended.retired = e.retired := by unfold Engine.ended; split <;> rfl

/-! ### The word at the program counter -/

/-- A command that the word spells has its effect. -/
theorem State.fetch_spelled {s : State} {te : Nat} {i : EngineOp} (f : State → State) (h : s.fetched te = some i) : s.fetch te i f = f s := by
  simp [State.fetch, h]

/-- A command that the word does not spell has none. -/
theorem State.fetch_other {s : State} {te : Nat} {i : EngineOp} (f : State → State) (h : s.fetched te ≠ some i) : s.fetch te i f = s := by
  simp [State.fetch, h]

/-- An instruction of an engine that does not run has no effect. -/
theorem State.instruct_idle {s : State} {te : Nat} (f : State → Engine → State) (h : s.engineRuns te = false) : s.instruct te f = s := by
  simp [State.instruct, h]

/-- An instruction of a running engine has its effect, and is counted. -/
theorem State.instruct_runs {s : State} {te : Nat} (f : State → Engine → State) (h : s.engineRuns te = true) :
    s.instruct te f = (f s (s.engine te)).countCl (te / 8) 0x1C 1 fun q => maskHas q 0 8 (te % 8) := by
  simp [State.instruct, h]

/-- An engine that runs has a handler within the watchdog, no SEND of its own that waits, and a good word at its program counter. -/
theorem State.engineRuns_iff (s : State) (te : Nat) : s.engineRuns te = true ↔
    (s.engine te).run = .running ∧ (s.engine te).retired < handlerLimit ∧ (s.ingressQ (ingressKey (1024 + te) 0)).isEmpty = true ∧ s.wordLost te = false := by
  simp [State.engineRuns, and_assoc]

/-- The item that the engine takes next: the oldest of its queue, or none. -/
theorem State.nextItem_empty {s : State} {te : Nat} (h : (s.engine te).queue = []) :
    s.nextItem te = s.setEngine te { (s.engine te).ended with run := .waiting, retired := 0 } := by
  simp [State.nextItem, h]

theorem State.nextItem_cons {s : State} {te : Nat} {i : EngineItem} {r : ReplyTo} {t : Nat} {rest : List (EngineItem × ReplyTo × Nat)}
    (h : (s.engine te).queue = (i, r, t) :: rest) :
    s.nextItem te = (s.putEngine te 0x7C00 (i.inbox t)).setEngine te
      { (s.engine te).ended with queue := rest, run := .running, reply := r, since := t, retired := 0, pc := BitVec.ofNat 12 (i.kind % 16) } := by
  simp [State.nextItem, h]

end Sys2Proof.Machine
end

