-- ==== Sys2Proof/Laws/Tab.lean ====
section
/-! SUPPORT. The laws of the sparse tables: a read after a write, a write elsewhere, and the canonical form kept. -/

namespace Sys2Proof.Machine

variable {α : Type}

@[simp] theorem tabGet_nil (d : Nat → α) (k : Nat) : tabGet d [] k = d k := rfl

theorem tabGet_tabErase_same (d : Nat → α) (t : Tab α) (k : Nat) : tabGet d (tabErase t k) k = d k := by
  induction t with
  | nil => rfl
  | cons x t ih =>
    obtain ⟨k', v⟩ := x
    simp only [tabErase]
    split
    · exact ih
    · simp [tabGet, *]

theorem tabGet_tabErase_ne (d : Nat → α) (t : Tab α) {k j : Nat} (h : j ≠ k) : tabGet d (tabErase t k) j = tabGet d t j := by
  induction t with
  | nil => rfl
  | cons x t ih =>
    obtain ⟨k', v⟩ := x
    simp only [tabErase]
    split
    · subst_vars; rw [ih]; simp [tabGet, h.symm]
    · simp only [tabGet]; rw [ih]

theorem tabGet_tabInsert_same (d : Nat → α) (t : Tab α) (k : Nat) (v : α) (h : ∀ x ∈ t, x.1 ≠ k) : tabGet d (tabInsert t k v) k = v := by
  induction t with
  | nil => simp [tabInsert, tabGet]
  | cons x t ih =>
    obtain ⟨k', w⟩ := x
    simp only [tabInsert]
    have hk : k' ≠ k := h (k', w) (by simp)
    split
    · simp [tabGet]
    · simp only [tabGet, if_neg hk]
      exact ih fun x hx => h x (by simp [hx])

theorem tabGet_tabInsert_ne (d : Nat → α) (t : Tab α) {k j : Nat} (v : α) (h : j ≠ k) : tabGet d (tabInsert t k v) j = tabGet d t j := by
  induction t with
  | nil => simp [tabInsert, tabGet, h.symm]
  | cons x t ih =>
    obtain ⟨k', w⟩ := x
    simp only [tabInsert]
    split
    · simp [tabGet, h.symm]
    · simp only [tabGet]; rw [ih]

theorem tabErase_no_key (t : Tab α) (k : Nat) : ∀ x ∈ tabErase t k, x.1 ≠ k := by
  induction t with
  | nil => simp [tabErase]
  | cons x t ih =>
    obtain ⟨k', v⟩ := x
    simp only [tabErase]
    split
    · exact ih
    · intro y hy
      rcases List.mem_cons.1 hy with rfl | hy
      · assumption
      · exact ih y hy

/-- A read after a write to the same key gives the value written. -/
@[simp] theorem tabGet_tabPut_same [DecidableEq α] (d : Nat → α) (t : Tab α) (k : Nat) (v : α) : tabGet d (tabPut d t k v) k = v := by
  unfold tabPut
  split
  · rw [tabGet_tabErase_same]; exact Eq.symm ‹_›
  · exact tabGet_tabInsert_same d _ k v (tabErase_no_key t k)

/-- A write leaves every other key alone. -/
theorem tabGet_tabPut_ne [DecidableEq α] (d : Nat → α) (t : Tab α) {k j : Nat} (v : α) (h : j ≠ k) :
    tabGet d (tabPut d t k v) j = tabGet d t j := by
  unfold tabPut
  split
  · exact tabGet_tabErase_ne d t h
  · rw [tabGet_tabInsert_ne d _ v h, tabGet_tabErase_ne d t h]

theorem tabGet_tabPut [DecidableEq α] (d : Nat → α) (t : Tab α) (k j : Nat) (v : α) :
    tabGet d (tabPut d t k v) j = if j = k then v else tabGet d t j := by
  split
  · subst_vars; simp
  · exact tabGet_tabPut_ne d t v ‹_›

theorem tabAbove_of_lt {t : Tab α} {j k : Nat} (hjk : j ≤ k) (h : tabAbove k t = true) : tabAbove j t = true := by
  induction t with
  | nil => rfl
  | cons x t ih =>
    simp only [tabAbove, Bool.and_eq_true, decide_eq_true_eq] at h ⊢
    exact ⟨by omega, ih h.2⟩

theorem tabAbove_tabErase {t : Tab α} {j k : Nat} (h : tabAbove j t = true) : tabAbove j (tabErase t k) = true := by
  induction t with
  | nil => rfl
  | cons x t ih =>
    simp only [tabAbove, Bool.and_eq_true, decide_eq_true_eq] at h
    simp only [tabErase]
    split
    · exact ih h.2
    · simp [tabAbove, h.1, ih h.2]

theorem tabAbove_tabInsert {t : Tab α} {j k : Nat} {v : α} (hk : j < k) (h : tabAbove j t = true) : tabAbove j (tabInsert t k v) = true := by
  induction t with
  | nil => simp [tabInsert, tabAbove, hk]
  | cons x t ih =>
    simp only [tabAbove, Bool.and_eq_true, decide_eq_true_eq] at h
    simp only [tabInsert]
    split
    · simp [tabAbove, hk, h.1, h.2]
    · simp [tabAbove, h.1, ih h.2]

theorem tabWf_tabErase [DecidableEq α] {d : Nat → α} {t : Tab α} {k : Nat} (h : tabWf d t = true) : tabWf d (tabErase t k) = true := by
  induction t with
  | nil => rfl
  | cons x t ih =>
    simp only [tabWf, Bool.and_eq_true] at h
    simp only [tabErase]
    split
    · exact ih h.2
    · simp only [tabWf, Bool.and_eq_true]
      exact ⟨⟨h.1.1, tabAbove_tabErase h.1.2⟩, ih h.2⟩

theorem tabWf_tabInsert [DecidableEq α] {d : Nat → α} {t : Tab α} {k : Nat} {v : α} (hv : v ≠ d k) (hk : ∀ x ∈ t, x.1 ≠ k)
    (h : tabWf d t = true) : tabWf d (tabInsert t k v) = true := by
  induction t with
  | nil => simp [tabInsert, tabWf, tabAbove, hv]
  | cons x t ih =>
    have hx : x.1 ≠ k := hk x (by simp)
    obtain ⟨k', w⟩ := x
    simp only [tabWf, Bool.and_eq_true] at h
    simp only [tabInsert]
    split
    · rename_i hlt
      simp only [tabWf, tabAbove, Bool.and_eq_true, decide_eq_true_eq]
      exact ⟨⟨hv, hlt, tabAbove_of_lt (Nat.le_of_lt hlt) h.1.2⟩, ⟨of_decide_eq_true h.1.1, h.1.2⟩, h.2⟩
    · rename_i hlt
      simp only [tabWf, Bool.and_eq_true]
      have hx' : k' ≠ k := hx
      exact ⟨⟨h.1.1, tabAbove_tabInsert (by omega) h.1.2⟩, ih (fun x hx => hk x (by simp [hx])) h.2⟩

/-- Every write keeps the canonical form. -/
theorem tabWf_tabPut [DecidableEq α] {d : Nat → α} {t : Tab α} (k : Nat) (v : α) (h : tabWf d t = true) : tabWf d (tabPut d t k v) = true := by
  unfold tabPut
  split
  · exact tabWf_tabErase h
  · exact tabWf_tabInsert ‹_› (tabErase_no_key t k) (tabWf_tabErase h)

theorem tabErase_tabErase (t : Tab α) (k : Nat) : tabErase (tabErase t k) k = tabErase t k := by
  induction t with
  | nil => rfl
  | cons x t ih =>
    obtain ⟨k', v⟩ := x
    by_cases h : k' = k <;> simp [tabErase, h, ih]

theorem tabErase_tabInsert (t : Tab α) (k : Nat) (v : α) : tabErase (tabInsert t k v) k = tabErase t k := by
  induction t with
  | nil => simp [tabInsert, tabErase]
  | cons x t ih =>
    obtain ⟨k', w⟩ := x
    simp only [tabInsert]
    split
    · simp [tabErase]
    · by_cases h : k' = k <;> simp [tabErase, h, ih]

/-- The latest write at a key stands. -/
@[simp] theorem tabPut_tabPut [DecidableEq α] (d : Nat → α) (t : Tab α) (k : Nat) (v w : α) : tabPut d (tabPut d t k v) k w = tabPut d t k w := by
  have h : tabErase (tabPut d t k v) k = tabErase t k := by
    unfold tabPut
    split
    · exact tabErase_tabErase t k
    · rw [tabErase_tabInsert, tabErase_tabErase]
  simp only [tabPut, h] at *

end Sys2Proof.Machine
end

