-- ==== Sys2Proof/Laws/State.lean ====
section
/-! SUPPORT. The laws of the state: what reading a register gives after a write, and that each update of one part leaves every other part alone. -/

namespace Sys2Proof.Machine

/-! ### Fields of a register word -/

/-- A field reads back what was written, cut to its width. -/
theorem getBits_setBits_same (w : Word) {lo n : Nat} (v : Nat) (h : lo + n ≤ 64) : getBits (setBits w lo n v) lo n = v % 2 ^ n := by
  unfold getBits setBits
  apply Nat.eq_of_testBit_eq
  intro i
  simp only [BitVec.testBit_toNat, BitVec.getLsbD_extractLsb', BitVec.getLsbD_or, BitVec.getLsbD_and, BitVec.getLsbD_not,
    BitVec.getLsbD_shiftLeft, BitVec.getLsbD_ofNat, Nat.testBit_two_pow_sub_one, Nat.testBit_mod_two_pow]
  by_cases hi : i < n
  · have h1 : lo + i < 64 := by omega
    have h2 : ¬ lo + i < lo := by omega
    have h3 : lo + i - lo = i := by omega
    have h4 : i < 64 := by omega
    simp [hi, h1, h4]
  · simp [hi]

/-- A field keeps its value when another field of the word is written. -/
theorem getBits_setBits_other (w : Word) {lo n lo' n' : Nat} (v : Nat) (h : lo + n ≤ lo' ∨ lo' + n' ≤ lo) :
    getBits (setBits w lo' n' v) lo n = getBits w lo n := by
  unfold getBits setBits
  apply Nat.eq_of_testBit_eq
  intro i
  simp only [BitVec.testBit_toNat, BitVec.getLsbD_extractLsb', BitVec.getLsbD_or, BitVec.getLsbD_and, BitVec.getLsbD_not,
    BitVec.getLsbD_shiftLeft, BitVec.getLsbD_ofNat, Nat.testBit_two_pow_sub_one]
  by_cases hi : i < n
  · by_cases h1 : lo + i < 64
    · rcases h with h | h
      · have h2 : lo + i < lo' := by omega
        simp [hi, h1, h2]
      · have h2 : ¬ lo + i < lo' := by omega
        have h3 : ¬ lo + i - lo' < n' := by omega
        simp [hi, h1, h2, h3]
    · simp [h1, BitVec.getLsbD_of_ge w (lo + i) (by omega)]
  · simp [hi]

/-! ### Registers -/

@[simp] theorem State.rd_wr_same (s : State) (a : Nat) (w : Word) : (s.wr a w).rd a = w := by
  simp [State.rd, State.wr]

theorem State.rd_wr_ne (s : State) {a b : Nat} (w : Word) (h : b ≠ a) : (s.wr a w).rd b = s.rd b := by
  simp [State.rd, State.wr, tabGet_tabPut_ne _ _ _ h]

theorem State.rd_wr (s : State) (a b : Nat) (w : Word) : (s.wr a w).rd b = if b = a then w else s.rd b := by
  simp [State.rd, State.wr, tabGet_tabPut]

/-- A field reads back what hardware wrote to it. -/
theorem State.get_set_same (s : State) (f : FieldRef) (v : Nat) (h : f.lo + f.width ≤ 64) : (s.set f v).get f = v % 2 ^ f.width := by
  simp [State.get, State.set, getBits_setBits_same _ _ h]

/-- Fields of other registers keep their values. -/
theorem State.get_set_ne (s : State) {f g : FieldRef} (v : Nat) (h : g.addr ≠ f.addr) : (s.set f v).get g = s.get g := by
  simp [State.get, State.set, State.rd_wr_ne _ _ h]

/-- Other fields of the same register keep their values. -/
theorem State.get_set_other (s : State) {f g : FieldRef} (v : Nat) (h : g.lo + g.width ≤ f.lo ∨ f.lo + f.width ≤ g.lo) :
    (s.set f v).get g = s.get g := by
  by_cases ha : g.addr = f.addr
  · simp [State.get, State.set, ha, getBits_setBits_other _ _ h]
  · exact State.get_set_ne s v ha

theorem State.rd_set_ne (s : State) {f : FieldRef} {a : Nat} (v : Nat) (h : a ≠ f.addr) : (s.set f v).rd a = s.rd a := by
  simp [State.set, State.rd_wr_ne _ _ h]

/-- A read of a field depends on its register's word only. -/
theorem State.get_congr {s t : State} {f : FieldRef} (h : s.rd f.addr = t.rd f.addr) : s.get f = t.get f := by
  simp [State.get, h]

/-- The registers read the same when the register table is the same. -/
theorem State.rd_congr {s t : State} (h : s.regs = t.regs) (a : Nat) : s.rd a = t.rd a := by
  simp [State.rd, h]

/-! ### Each update leaves every other part of the state alone -/


@[simp] theorem State.wr_pending (s : State) (a : Nat) (w : Word) : (s.wr a w).pending = s.pending := rfl
@[simp] theorem State.wr_chip (s : State) (a : Nat) (w : Word) : (s.wr a w).chip = s.chip := rfl
@[simp] theorem State.wr_cycles (s : State) (a : Nat) (w : Word) : (s.wr a w).cycles = s.cycles := rfl
@[simp] theorem State.wr_adjust (s : State) (a : Nat) (w : Word) : (s.wr a w).adjust = s.adjust := rfl
@[simp] theorem State.wr_freeCount (s : State) (a : Nat) (w : Word) : (s.wr a w).freeCount = s.freeCount := rfl
@[simp] theorem State.wr_actions (s : State) (a : Nat) (w : Word) : (s.wr a w).actions = s.actions := rfl
@[simp] theorem State.wr_out (s : State) (a : Nat) (w : Word) : (s.wr a w).out = s.out := rfl
@[simp] theorem State.wr_outbox (s : State) (a : Nat) (w : Word) : (s.wr a w).outbox = s.outbox := rfl
@[simp] theorem State.wr_fuses (s : State) (a : Nat) (w : Word) : (s.wr a w).fuses = s.fuses := rfl
@[simp] theorem State.wr_sealed (s : State) (a : Nat) (w : Word) : (s.wr a w).sealed = s.sealed := rfl
@[simp] theorem State.wr_sealRequests (s : State) (a : Nat) (w : Word) : (s.wr a w).sealRequests = s.sealRequests := rfl
@[simp] theorem State.wr_nvs (s : State) (a : Nat) (w : Word) : (s.wr a w).nvs = s.nvs := rfl
@[simp] theorem State.wr_dir (s : State) (a : Nat) (w : Word) : (s.wr a w).dir = s.dir := rfl
@[simp] theorem State.wr_staged (s : State) (a : Nat) (w : Word) : (s.wr a w).staged = s.staged := rfl
@[simp] theorem State.wr_loading (s : State) (a : Nat) (w : Word) : (s.wr a w).loading = s.loading := rfl
@[simp] theorem State.wr_loadOrder (s : State) (a : Nat) (w : Word) : (s.wr a w).loadOrder = s.loadOrder := rfl
@[simp] theorem State.wr_reload (s : State) (a : Nat) (w : Word) : (s.wr a w).reload = s.reload := rfl
@[simp] theorem State.wr_slotWrite (s : State) (a : Nat) (w : Word) : (s.wr a w).slotWrite = s.slotWrite := rfl
@[simp] theorem State.wr_nvsOp (s : State) (a : Nat) (w : Word) : (s.wr a w).nvsOp = s.nvsOp := rfl
@[simp] theorem State.wr_cfg (s : State) (a : Nat) (w : Word) : (s.wr a w).cfg = s.cfg := rfl
@[simp] theorem State.wr_mr (s : State) (a : Nat) (w : Word) : (s.wr a w).mr = s.mr := rfl
@[simp] theorem State.wr_queues (s : State) (a : Nat) (w : Word) : (s.wr a w).queues = s.queues := rfl
@[simp] theorem State.wr_records (s : State) (a : Nat) (w : Word) : (s.wr a w).records = s.records := rfl
@[simp] theorem State.wr_tow (s : State) (a : Nat) (w : Word) : (s.wr a w).tow = s.tow := rfl
@[simp] theorem State.wr_ports (s : State) (a : Nat) (w : Word) : (s.wr a w).ports = s.ports := rfl
@[simp] theorem State.wr_staging (s : State) (a : Nat) (w : Word) : (s.wr a w).staging = s.staging := rfl
@[simp] theorem State.wr_stageHolder (s : State) (a : Nat) (w : Word) : (s.wr a w).stageHolder = s.stageHolder := rfl
@[simp] theorem State.wr_live (s : State) (a : Nat) (w : Word) : (s.wr a w).live = s.live := rfl
@[simp] theorem State.wr_commits (s : State) (a : Nat) (w : Word) : (s.wr a w).commits = s.commits := rfl
@[simp] theorem State.wr_fenceStart (s : State) (a : Nat) (w : Word) : (s.wr a w).fenceStart = s.fenceStart := rfl
@[simp] theorem State.wr_crossings (s : State) (a : Nat) (w : Word) : (s.wr a w).crossings = s.crossings := rfl
@[simp] theorem State.wr_modes (s : State) (a : Nat) (w : Word) : (s.wr a w).modes = s.modes := rfl
@[simp] theorem State.wr_ledgers (s : State) (a : Nat) (w : Word) : (s.wr a w).ledgers = s.ledgers := rfl
@[simp] theorem State.wr_ingress (s : State) (a : Nat) (w : Word) : (s.wr a w).ingress = s.ingress := rfl
@[simp] theorem State.wr_waiting (s : State) (a : Nat) (w : Word) : (s.wr a w).waiting = s.waiting := rfl
@[simp] theorem State.wr_outstanding (s : State) (a : Nat) (w : Word) : (s.wr a w).outstanding = s.outstanding := rfl
@[simp] theorem State.wr_nextId (s : State) (a : Nat) (w : Word) : (s.wr a w).nextId = s.nextId := rfl
@[simp] theorem State.wr_device (s : State) (a : Nat) (w : Word) : (s.wr a w).device = s.device := rfl
@[simp] theorem State.wr_heldFailures (s : State) (a : Nat) (w : Word) : (s.wr a w).heldFailures = s.heldFailures := rfl
@[simp] theorem State.wr_streams (s : State) (a : Nat) (w : Word) : (s.wr a w).streams = s.streams := rfl
@[simp] theorem State.wr_flowLast (s : State) (a : Nat) (w : Word) : (s.wr a w).flowLast = s.flowLast := rfl
@[simp] theorem State.wr_writeLast (s : State) (a : Nat) (w : Word) : (s.wr a w).writeLast = s.writeLast := rfl
@[simp] theorem State.wr_lockWait (s : State) (a : Nat) (w : Word) : (s.wr a w).lockWait = s.lockWait := rfl
@[simp] theorem State.wr_portLocks (s : State) (a : Nat) (w : Word) : (s.wr a w).portLocks = s.portLocks := rfl
@[simp] theorem State.wr_planned (s : State) (a : Nat) (w : Word) : (s.wr a w).planned = s.planned := rfl
@[simp] theorem State.wr_bounds (s : State) (a : Nat) (w : Word) : (s.wr a w).bounds = s.bounds := rfl
@[simp] theorem State.wr_boundsSets (s : State) (a : Nat) (w : Word) : (s.wr a w).boundsSets = s.boundsSets := rfl
@[simp] theorem State.wr_postedCount (s : State) (a : Nat) (w : Word) : (s.wr a w).postedCount = s.postedCount := rfl
@[simp] theorem State.wr_requesters (s : State) (a : Nat) (w : Word) : (s.wr a w).requesters = s.requesters := rfl
@[simp] theorem State.wr_engines (s : State) (a : Nat) (w : Word) : (s.wr a w).engines = s.engines := rfl
@[simp] theorem State.wr_program (s : State) (a : Nat) (w : Word) : (s.wr a w).program = s.program := rfl
@[simp] theorem State.wr_dataMem (s : State) (a : Nat) (w : Word) : (s.wr a w).dataMem = s.dataMem := rfl
@[simp] theorem State.wr_links (s : State) (a : Nat) (w : Word) : (s.wr a w).links = s.links := rfl
@[simp] theorem State.wr_vlast (s : State) (a : Nat) (w : Word) : (s.wr a w).vlast = s.vlast := rfl
@[simp] theorem State.wr_ecc (s : State) (a : Nat) (w : Word) : (s.wr a w).ecc = s.ecc := rfl
@[simp] theorem State.wr_l1Exit (s : State) (a : Nat) (w : Word) : (s.wr a w).l1Exit = s.l1Exit := rfl
@[simp] theorem State.wr_announceDue (s : State) (a : Nat) (w : Word) : (s.wr a w).announceDue = s.announceDue := rfl
@[simp] theorem State.wr_gated (s : State) (a : Nat) (w : Word) : (s.wr a w).gated = s.gated := rfl
@[simp] theorem State.wr_woken (s : State) (a : Nat) (w : Word) : (s.wr a w).woken = s.woken := rfl
@[simp] theorem State.wr_devices (s : State) (a : Nat) (w : Word) : (s.wr a w).devices = s.devices := rfl
@[simp] theorem State.wr_hidden (s : State) (a : Nat) (w : Word) : (s.wr a w).hidden = s.hidden := rfl
@[simp] theorem State.wr_bindPu (s : State) (a : Nat) (w : Word) : (s.wr a w).bindPu = s.bindPu := rfl
@[simp] theorem State.wr_virt (s : State) (a : Nat) (w : Word) : (s.wr a w).virt = s.virt := rfl
@[simp] theorem State.wr_virtPorts (s : State) (a : Nat) (w : Word) : (s.wr a w).virtPorts = s.virtPorts := rfl
@[simp] theorem State.wr_deviceMps (s : State) (a : Nat) (w : Word) : (s.wr a w).deviceMps = s.deviceMps := rfl
@[simp] theorem State.wr_aer (s : State) (a : Nat) (w : Word) : (s.wr a w).aer = s.aer := rfl
@[simp] theorem State.wr_aerHeader (s : State) (a : Nat) (w : Word) : (s.wr a w).aerHeader = s.aerHeader := rfl
@[simp] theorem State.wr_intxLevel (s : State) (a : Nat) (w : Word) : (s.wr a w).intxLevel = s.intxLevel := rfl
@[simp] theorem State.wr_intxCount (s : State) (a : Nat) (w : Word) : (s.wr a w).intxCount = s.intxCount := rfl
@[simp] theorem State.wr_flr (s : State) (a : Nat) (w : Word) : (s.wr a w).flr = s.flr := rfl
@[simp] theorem State.wr_configJobs (s : State) (a : Nat) (w : Word) : (s.wr a w).configJobs = s.configJobs := rfl
@[simp] theorem State.wr_pmeOff (s : State) (a : Nat) (w : Word) : (s.wr a w).pmeOff = s.pmeOff := rfl
@[simp] theorem State.wr_rings (s : State) (a : Nat) (w : Word) : (s.wr a w).rings = s.rings := rfl
@[simp] theorem State.wr_beyond64 (s : State) (a : Nat) (w : Word) : (s.wr a w).beyond64 = s.beyond64 := rfl
@[simp] theorem State.wr_lanes (s : State) (a : Nat) (w : Word) : (s.wr a w).lanes = s.lanes := rfl
@[simp] theorem State.wr_time (s : State) (a : Nat) (w : Word) : (s.wr a w).time = s.time := rfl
@[simp] theorem State.wr_dpcSince (s : State) (a : Nat) (w : Word) : (s.wr a w).dpcSince = s.dpcSince := rfl
@[simp] theorem State.wr_doe (s : State) (a : Nat) (w : Word) : (s.wr a w).doe = s.doe := rfl
@[simp] theorem State.wr_doeOrder (s : State) (a : Nat) (w : Word) : (s.wr a w).doeOrder = s.doeOrder := rfl
@[simp] theorem State.wr_kickAt (s : State) (a : Nat) (w : Word) : (s.wr a w).kickAt = s.kickAt := rfl
@[simp] theorem State.wr_hosts (s : State) (a : Nat) (w : Word) : (s.wr a w).hosts = s.hosts := rfl
@[simp] theorem State.wr_bindSets (s : State) (a : Nat) (w : Word) : (s.wr a w).bindSets = s.bindSets := rfl
@[simp] theorem State.wr_powerSamples (s : State) (a : Nat) (w : Word) : (s.wr a w).powerSamples = s.powerSamples := rfl
@[simp] theorem State.wr_coolSince (s : State) (a : Nat) (w : Word) : (s.wr a w).coolSince = s.coolSince := rfl
@[simp] theorem State.wr_batchNo (s : State) (a : Nat) (w : Word) : (s.wr a w).batchNo = s.batchNo := rfl
@[simp] theorem State.wr_batchSize (s : State) (a : Nat) (w : Word) : (s.wr a w).batchSize = s.batchSize := rfl
@[simp] theorem State.wr_shadow (s : State) (a : Nat) (w : Word) : (s.wr a w).shadow = s.shadow := rfl
@[simp] theorem State.wr_stagedAt (s : State) (a : Nat) (w : Word) : (s.wr a w).stagedAt = s.stagedAt := rfl
@[simp] theorem State.wr_lockClass (s : State) (a : Nat) (w : Word) : (s.wr a w).lockClass = s.lockClass := rfl
@[simp] theorem State.wr_intxSent (s : State) (a : Nat) (w : Word) : (s.wr a w).intxSent = s.intxSent := rfl
@[simp] theorem State.wr_bankWrite (s : State) (a : Nat) (w : Word) : (s.wr a w).bankWrite = s.bankWrite := rfl
@[simp] theorem State.wr_keeperRun (s : State) (a : Nat) (w : Word) : (s.wr a w).keeperRun = s.keeperRun := rfl
@[simp] theorem State.wr_secSizes (s : State) (a : Nat) (w : Word) : (s.wr a w).secSizes = s.secSizes := rfl
@[simp] theorem State.wr_l0pPartners (s : State) (a : Nat) (w : Word) : (s.wr a w).l0pPartners = s.l0pPartners := rfl
@[simp] theorem State.wr_pulses (s : State) (a : Nat) (w : Word) : (s.wr a w).pulses = s.pulses := rfl
@[simp] theorem State.wr_slotsUsed (s : State) (a : Nat) (w : Word) : (s.wr a w).slotsUsed = s.slotsUsed := rfl

@[simp] theorem State.set_pending (s : State) (f : FieldRef) (v : Nat) : (s.set f v).pending = s.pending := rfl
@[simp] theorem State.set_chip (s : State) (f : FieldRef) (v : Nat) : (s.set f v).chip = s.chip := rfl
@[simp] theorem State.set_cycles (s : State) (f : FieldRef) (v : Nat) : (s.set f v).cycles = s.cycles := rfl
@[simp] theorem State.set_adjust (s : State) (f : FieldRef) (v : Nat) : (s.set f v).adjust = s.adjust := rfl
@[simp] theorem State.set_freeCount (s : State) (f : FieldRef) (v : Nat) : (s.set f v).freeCount = s.freeCount := rfl
@[simp] theorem State.set_actions (s : State) (f : FieldRef) (v : Nat) : (s.set f v).actions = s.actions := rfl
@[simp] theorem State.set_out (s : State) (f : FieldRef) (v : Nat) : (s.set f v).out = s.out := rfl
@[simp] theorem State.set_outbox (s : State) (f : FieldRef) (v : Nat) : (s.set f v).outbox = s.outbox := rfl
@[simp] theorem State.set_fuses (s : State) (f : FieldRef) (v : Nat) : (s.set f v).fuses = s.fuses := rfl
@[simp] theorem State.set_sealed (s : State) (f : FieldRef) (v : Nat) : (s.set f v).sealed = s.sealed := rfl
@[simp] theorem State.set_sealRequests (s : State) (f : FieldRef) (v : Nat) : (s.set f v).sealRequests = s.sealRequests := rfl
@[simp] theorem State.set_nvs (s : State) (f : FieldRef) (v : Nat) : (s.set f v).nvs = s.nvs := rfl
@[simp] theorem State.set_dir (s : State) (f : FieldRef) (v : Nat) : (s.set f v).dir = s.dir := rfl
@[simp] theorem State.set_staged (s : State) (f : FieldRef) (v : Nat) : (s.set f v).staged = s.staged := rfl
@[simp] theorem State.set_loading (s : State) (f : FieldRef) (v : Nat) : (s.set f v).loading = s.loading := rfl
@[simp] theorem State.set_loadOrder (s : State) (f : FieldRef) (v : Nat) : (s.set f v).loadOrder = s.loadOrder := rfl
@[simp] theorem State.set_reload (s : State) (f : FieldRef) (v : Nat) : (s.set f v).reload = s.reload := rfl
@[simp] theorem State.set_slotWrite (s : State) (f : FieldRef) (v : Nat) : (s.set f v).slotWrite = s.slotWrite := rfl
@[simp] theorem State.set_nvsOp (s : State) (f : FieldRef) (v : Nat) : (s.set f v).nvsOp = s.nvsOp := rfl
@[simp] theorem State.set_cfg (s : State) (f : FieldRef) (v : Nat) : (s.set f v).cfg = s.cfg := rfl
@[simp] theorem State.set_mr (s : State) (f : FieldRef) (v : Nat) : (s.set f v).mr = s.mr := rfl
@[simp] theorem State.set_queues (s : State) (f : FieldRef) (v : Nat) : (s.set f v).queues = s.queues := rfl
@[simp] theorem State.set_records (s : State) (f : FieldRef) (v : Nat) : (s.set f v).records = s.records := rfl
@[simp] theorem State.set_tow (s : State) (f : FieldRef) (v : Nat) : (s.set f v).tow = s.tow := rfl
@[simp] theorem State.set_ports (s : State) (f : FieldRef) (v : Nat) : (s.set f v).ports = s.ports := rfl
@[simp] theorem State.set_staging (s : State) (f : FieldRef) (v : Nat) : (s.set f v).staging = s.staging := rfl
@[simp] theorem State.set_stageHolder (s : State) (f : FieldRef) (v : Nat) : (s.set f v).stageHolder = s.stageHolder := rfl
@[simp] theorem State.set_live (s : State) (f : FieldRef) (v : Nat) : (s.set f v).live = s.live := rfl
@[simp] theorem State.set_commits (s : State) (f : FieldRef) (v : Nat) : (s.set f v).commits = s.commits := rfl
@[simp] theorem State.set_fenceStart (s : State) (f : FieldRef) (v : Nat) : (s.set f v).fenceStart = s.fenceStart := rfl
@[simp] theorem State.set_crossings (s : State) (f : FieldRef) (v : Nat) : (s.set f v).crossings = s.crossings := rfl
@[simp] theorem State.set_modes (s : State) (f : FieldRef) (v : Nat) : (s.set f v).modes = s.modes := rfl
@[simp] theorem State.set_ledgers (s : State) (f : FieldRef) (v : Nat) : (s.set f v).ledgers = s.ledgers := rfl
@[simp] theorem State.set_ingress (s : State) (f : FieldRef) (v : Nat) : (s.set f v).ingress = s.ingress := rfl
@[simp] theorem State.set_waiting (s : State) (f : FieldRef) (v : Nat) : (s.set f v).waiting = s.waiting := rfl
@[simp] theorem State.set_outstanding (s : State) (f : FieldRef) (v : Nat) : (s.set f v).outstanding = s.outstanding := rfl
@[simp] theorem State.set_nextId (s : State) (f : FieldRef) (v : Nat) : (s.set f v).nextId = s.nextId := rfl
@[simp] theorem State.set_device (s : State) (f : FieldRef) (v : Nat) : (s.set f v).device = s.device := rfl
@[simp] theorem State.set_heldFailures (s : State) (f : FieldRef) (v : Nat) : (s.set f v).heldFailures = s.heldFailures := rfl
@[simp] theorem State.set_streams (s : State) (f : FieldRef) (v : Nat) : (s.set f v).streams = s.streams := rfl
@[simp] theorem State.set_flowLast (s : State) (f : FieldRef) (v : Nat) : (s.set f v).flowLast = s.flowLast := rfl
@[simp] theorem State.set_writeLast (s : State) (f : FieldRef) (v : Nat) : (s.set f v).writeLast = s.writeLast := rfl
@[simp] theorem State.set_lockWait (s : State) (f : FieldRef) (v : Nat) : (s.set f v).lockWait = s.lockWait := rfl
@[simp] theorem State.set_portLocks (s : State) (f : FieldRef) (v : Nat) : (s.set f v).portLocks = s.portLocks := rfl
@[simp] theorem State.set_planned (s : State) (f : FieldRef) (v : Nat) : (s.set f v).planned = s.planned := rfl
@[simp] theorem State.set_bounds (s : State) (f : FieldRef) (v : Nat) : (s.set f v).bounds = s.bounds := rfl
@[simp] theorem State.set_boundsSets (s : State) (f : FieldRef) (v : Nat) : (s.set f v).boundsSets = s.boundsSets := rfl
@[simp] theorem State.set_postedCount (s : State) (f : FieldRef) (v : Nat) : (s.set f v).postedCount = s.postedCount := rfl
@[simp] theorem State.set_requesters (s : State) (f : FieldRef) (v : Nat) : (s.set f v).requesters = s.requesters := rfl
@[simp] theorem State.set_engines (s : State) (f : FieldRef) (v : Nat) : (s.set f v).engines = s.engines := rfl
@[simp] theorem State.set_program (s : State) (f : FieldRef) (v : Nat) : (s.set f v).program = s.program := rfl
@[simp] theorem State.set_dataMem (s : State) (f : FieldRef) (v : Nat) : (s.set f v).dataMem = s.dataMem := rfl
@[simp] theorem State.set_links (s : State) (f : FieldRef) (v : Nat) : (s.set f v).links = s.links := rfl
@[simp] theorem State.set_vlast (s : State) (f : FieldRef) (v : Nat) : (s.set f v).vlast = s.vlast := rfl
@[simp] theorem State.set_ecc (s : State) (f : FieldRef) (v : Nat) : (s.set f v).ecc = s.ecc := rfl
@[simp] theorem State.set_l1Exit (s : State) (f : FieldRef) (v : Nat) : (s.set f v).l1Exit = s.l1Exit := rfl
@[simp] theorem State.set_announceDue (s : State) (f : FieldRef) (v : Nat) : (s.set f v).announceDue = s.announceDue := rfl
@[simp] theorem State.set_gated (s : State) (f : FieldRef) (v : Nat) : (s.set f v).gated = s.gated := rfl
@[simp] theorem State.set_woken (s : State) (f : FieldRef) (v : Nat) : (s.set f v).woken = s.woken := rfl
@[simp] theorem State.set_devices (s : State) (f : FieldRef) (v : Nat) : (s.set f v).devices = s.devices := rfl
@[simp] theorem State.set_hidden (s : State) (f : FieldRef) (v : Nat) : (s.set f v).hidden = s.hidden := rfl
@[simp] theorem State.set_bindPu (s : State) (f : FieldRef) (v : Nat) : (s.set f v).bindPu = s.bindPu := rfl
@[simp] theorem State.set_virt (s : State) (f : FieldRef) (v : Nat) : (s.set f v).virt = s.virt := rfl
@[simp] theorem State.set_virtPorts (s : State) (f : FieldRef) (v : Nat) : (s.set f v).virtPorts = s.virtPorts := rfl
@[simp] theorem State.set_deviceMps (s : State) (f : FieldRef) (v : Nat) : (s.set f v).deviceMps = s.deviceMps := rfl
@[simp] theorem State.set_aer (s : State) (f : FieldRef) (v : Nat) : (s.set f v).aer = s.aer := rfl
@[simp] theorem State.set_aerHeader (s : State) (f : FieldRef) (v : Nat) : (s.set f v).aerHeader = s.aerHeader := rfl
@[simp] theorem State.set_intxLevel (s : State) (f : FieldRef) (v : Nat) : (s.set f v).intxLevel = s.intxLevel := rfl
@[simp] theorem State.set_intxCount (s : State) (f : FieldRef) (v : Nat) : (s.set f v).intxCount = s.intxCount := rfl
@[simp] theorem State.set_flr (s : State) (f : FieldRef) (v : Nat) : (s.set f v).flr = s.flr := rfl
@[simp] theorem State.set_configJobs (s : State) (f : FieldRef) (v : Nat) : (s.set f v).configJobs = s.configJobs := rfl
@[simp] theorem State.set_pmeOff (s : State) (f : FieldRef) (v : Nat) : (s.set f v).pmeOff = s.pmeOff := rfl
@[simp] theorem State.set_rings (s : State) (f : FieldRef) (v : Nat) : (s.set f v).rings = s.rings := rfl
@[simp] theorem State.set_beyond64 (s : State) (f : FieldRef) (v : Nat) : (s.set f v).beyond64 = s.beyond64 := rfl
@[simp] theorem State.set_lanes (s : State) (f : FieldRef) (v : Nat) : (s.set f v).lanes = s.lanes := rfl
@[simp] theorem State.set_time (s : State) (f : FieldRef) (v : Nat) : (s.set f v).time = s.time := rfl
@[simp] theorem State.set_dpcSince (s : State) (f : FieldRef) (v : Nat) : (s.set f v).dpcSince = s.dpcSince := rfl
@[simp] theorem State.set_doe (s : State) (f : FieldRef) (v : Nat) : (s.set f v).doe = s.doe := rfl
@[simp] theorem State.set_doeOrder (s : State) (f : FieldRef) (v : Nat) : (s.set f v).doeOrder = s.doeOrder := rfl
@[simp] theorem State.set_kickAt (s : State) (f : FieldRef) (v : Nat) : (s.set f v).kickAt = s.kickAt := rfl
@[simp] theorem State.set_hosts (s : State) (f : FieldRef) (v : Nat) : (s.set f v).hosts = s.hosts := rfl
@[simp] theorem State.set_bindSets (s : State) (f : FieldRef) (v : Nat) : (s.set f v).bindSets = s.bindSets := rfl
@[simp] theorem State.set_powerSamples (s : State) (f : FieldRef) (v : Nat) : (s.set f v).powerSamples = s.powerSamples := rfl
@[simp] theorem State.set_coolSince (s : State) (f : FieldRef) (v : Nat) : (s.set f v).coolSince = s.coolSince := rfl
@[simp] theorem State.set_batchNo (s : State) (f : FieldRef) (v : Nat) : (s.set f v).batchNo = s.batchNo := rfl
@[simp] theorem State.set_batchSize (s : State) (f : FieldRef) (v : Nat) : (s.set f v).batchSize = s.batchSize := rfl
@[simp] theorem State.set_shadow (s : State) (f : FieldRef) (v : Nat) : (s.set f v).shadow = s.shadow := rfl
@[simp] theorem State.set_stagedAt (s : State) (f : FieldRef) (v : Nat) : (s.set f v).stagedAt = s.stagedAt := rfl
@[simp] theorem State.set_lockClass (s : State) (f : FieldRef) (v : Nat) : (s.set f v).lockClass = s.lockClass := rfl
@[simp] theorem State.set_intxSent (s : State) (f : FieldRef) (v : Nat) : (s.set f v).intxSent = s.intxSent := rfl
@[simp] theorem State.set_bankWrite (s : State) (f : FieldRef) (v : Nat) : (s.set f v).bankWrite = s.bankWrite := rfl
@[simp] theorem State.set_keeperRun (s : State) (f : FieldRef) (v : Nat) : (s.set f v).keeperRun = s.keeperRun := rfl
@[simp] theorem State.set_secSizes (s : State) (f : FieldRef) (v : Nat) : (s.set f v).secSizes = s.secSizes := rfl
@[simp] theorem State.set_l0pPartners (s : State) (f : FieldRef) (v : Nat) : (s.set f v).l0pPartners = s.l0pPartners := rfl
@[simp] theorem State.set_pulses (s : State) (f : FieldRef) (v : Nat) : (s.set f v).pulses = s.pulses := rfl
@[simp] theorem State.set_slotsUsed (s : State) (f : FieldRef) (v : Nat) : (s.set f v).slotsUsed = s.slotsUsed := rfl

@[simp] theorem State.setFlag_pending (s : State) (f : FieldRef) (b : Bool) : (s.setFlag f b).pending = s.pending := rfl
@[simp] theorem State.setFlag_chip (s : State) (f : FieldRef) (b : Bool) : (s.setFlag f b).chip = s.chip := rfl
@[simp] theorem State.setFlag_cycles (s : State) (f : FieldRef) (b : Bool) : (s.setFlag f b).cycles = s.cycles := rfl
@[simp] theorem State.setFlag_adjust (s : State) (f : FieldRef) (b : Bool) : (s.setFlag f b).adjust = s.adjust := rfl
@[simp] theorem State.setFlag_freeCount (s : State) (f : FieldRef) (b : Bool) : (s.setFlag f b).freeCount = s.freeCount := rfl
@[simp] theorem State.setFlag_actions (s : State) (f : FieldRef) (b : Bool) : (s.setFlag f b).actions = s.actions := rfl
@[simp] theorem State.setFlag_out (s : State) (f : FieldRef) (b : Bool) : (s.setFlag f b).out = s.out := rfl
@[simp] theorem State.setFlag_outbox (s : State) (f : FieldRef) (b : Bool) : (s.setFlag f b).outbox = s.outbox := rfl
@[simp] theorem State.setFlag_fuses (s : State) (f : FieldRef) (b : Bool) : (s.setFlag f b).fuses = s.fuses := rfl
@[simp] theorem State.setFlag_sealed (s : State) (f : FieldRef) (b : Bool) : (s.setFlag f b).sealed = s.sealed := rfl
@[simp] theorem State.setFlag_sealRequests (s : State) (f : FieldRef) (b : Bool) : (s.setFlag f b).sealRequests = s.sealRequests := rfl
@[simp] theorem State.setFlag_nvs (s : State) (f : FieldRef) (b : Bool) : (s.setFlag f b).nvs = s.nvs := rfl
@[simp] theorem State.setFlag_dir (s : State) (f : FieldRef) (b : Bool) : (s.setFlag f b).dir = s.dir := rfl
@[simp] theorem State.setFlag_staged (s : State) (f : FieldRef) (b : Bool) : (s.setFlag f b).staged = s.staged := rfl
@[simp] theorem State.setFlag_loading (s : State) (f : FieldRef) (b : Bool) : (s.setFlag f b).loading = s.loading := rfl
@[simp] theorem State.setFlag_loadOrder (s : State) (f : FieldRef) (b : Bool) : (s.setFlag f b).loadOrder = s.loadOrder := rfl
@[simp] theorem State.setFlag_reload (s : State) (f : FieldRef) (b : Bool) : (s.setFlag f b).reload = s.reload := rfl
@[simp] theorem State.setFlag_slotWrite (s : State) (f : FieldRef) (b : Bool) : (s.setFlag f b).slotWrite = s.slotWrite := rfl
@[simp] theorem State.setFlag_nvsOp (s : State) (f : FieldRef) (b : Bool) : (s.setFlag f b).nvsOp = s.nvsOp := rfl
@[simp] theorem State.setFlag_cfg (s : State) (f : FieldRef) (b : Bool) : (s.setFlag f b).cfg = s.cfg := rfl
@[simp] theorem State.setFlag_mr (s : State) (f : FieldRef) (b : Bool) : (s.setFlag f b).mr = s.mr := rfl
@[simp] theorem State.setFlag_queues (s : State) (f : FieldRef) (b : Bool) : (s.setFlag f b).queues = s.queues := rfl
@[simp] theorem State.setFlag_records (s : State) (f : FieldRef) (b : Bool) : (s.setFlag f b).records = s.records := rfl
@[simp] theorem State.setFlag_tow (s : State) (f : FieldRef) (b : Bool) : (s.setFlag f b).tow = s.tow := rfl
@[simp] theorem State.setFlag_ports (s : State) (f : FieldRef) (b : Bool) : (s.setFlag f b).ports = s.ports := rfl
@[simp] theorem State.setFlag_staging (s : State) (f : FieldRef) (b : Bool) : (s.setFlag f b).staging = s.staging := rfl
@[simp] theorem State.setFlag_stageHolder (s : State) (f : FieldRef) (b : Bool) : (s.setFlag f b).stageHolder = s.stageHolder := rfl
@[simp] theorem State.setFlag_live (s : State) (f : FieldRef) (b : Bool) : (s.setFlag f b).live = s.live := rfl
@[simp] theorem State.setFlag_commits (s : State) (f : FieldRef) (b : Bool) : (s.setFlag f b).commits = s.commits := rfl
@[simp] theorem State.setFlag_fenceStart (s : State) (f : FieldRef) (b : Bool) : (s.setFlag f b).fenceStart = s.fenceStart := rfl
@[simp] theorem State.setFlag_crossings (s : State) (f : FieldRef) (b : Bool) : (s.setFlag f b).crossings = s.crossings := rfl
@[simp] theorem State.setFlag_modes (s : State) (f : FieldRef) (b : Bool) : (s.setFlag f b).modes = s.modes := rfl
@[simp] theorem State.setFlag_ledgers (s : State) (f : FieldRef) (b : Bool) : (s.setFlag f b).ledgers = s.ledgers := rfl
@[simp] theorem State.setFlag_ingress (s : State) (f : FieldRef) (b : Bool) : (s.setFlag f b).ingress = s.ingress := rfl
@[simp] theorem State.setFlag_waiting (s : State) (f : FieldRef) (b : Bool) : (s.setFlag f b).waiting = s.waiting := rfl
@[simp] theorem State.setFlag_outstanding (s : State) (f : FieldRef) (b : Bool) : (s.setFlag f b).outstanding = s.outstanding := rfl
@[simp] theorem State.setFlag_nextId (s : State) (f : FieldRef) (b : Bool) : (s.setFlag f b).nextId = s.nextId := rfl
@[simp] theorem State.setFlag_device (s : State) (f : FieldRef) (b : Bool) : (s.setFlag f b).device = s.device := rfl
@[simp] theorem State.setFlag_heldFailures (s : State) (f : FieldRef) (b : Bool) : (s.setFlag f b).heldFailures = s.heldFailures := rfl
@[simp] theorem State.setFlag_streams (s : State) (f : FieldRef) (b : Bool) : (s.setFlag f b).streams = s.streams := rfl
@[simp] theorem State.setFlag_flowLast (s : State) (f : FieldRef) (b : Bool) : (s.setFlag f b).flowLast = s.flowLast := rfl
@[simp] theorem State.setFlag_writeLast (s : State) (f : FieldRef) (b : Bool) : (s.setFlag f b).writeLast = s.writeLast := rfl
@[simp] theorem State.setFlag_lockWait (s : State) (f : FieldRef) (b : Bool) : (s.setFlag f b).lockWait = s.lockWait := rfl
@[simp] theorem State.setFlag_portLocks (s : State) (f : FieldRef) (b : Bool) : (s.setFlag f b).portLocks = s.portLocks := rfl
@[simp] theorem State.setFlag_planned (s : State) (f : FieldRef) (b : Bool) : (s.setFlag f b).planned = s.planned := rfl
@[simp] theorem State.setFlag_bounds (s : State) (f : FieldRef) (b : Bool) : (s.setFlag f b).bounds = s.bounds := rfl
@[simp] theorem State.setFlag_boundsSets (s : State) (f : FieldRef) (b : Bool) : (s.setFlag f b).boundsSets = s.boundsSets := rfl
@[simp] theorem State.setFlag_postedCount (s : State) (f : FieldRef) (b : Bool) : (s.setFlag f b).postedCount = s.postedCount := rfl
@[simp] theorem State.setFlag_requesters (s : State) (f : FieldRef) (b : Bool) : (s.setFlag f b).requesters = s.requesters := rfl
@[simp] theorem State.setFlag_engines (s : State) (f : FieldRef) (b : Bool) : (s.setFlag f b).engines = s.engines := rfl
@[simp] theorem State.setFlag_program (s : State) (f : FieldRef) (b : Bool) : (s.setFlag f b).program = s.program := rfl
@[simp] theorem State.setFlag_dataMem (s : State) (f : FieldRef) (b : Bool) : (s.setFlag f b).dataMem = s.dataMem := rfl
@[simp] theorem State.setFlag_links (s : State) (f : FieldRef) (b : Bool) : (s.setFlag f b).links = s.links := rfl
@[simp] theorem State.setFlag_vlast (s : State) (f : FieldRef) (b : Bool) : (s.setFlag f b).vlast = s.vlast := rfl
@[simp] theorem State.setFlag_ecc (s : State) (f : FieldRef) (b : Bool) : (s.setFlag f b).ecc = s.ecc := rfl
@[simp] theorem State.setFlag_l1Exit (s : State) (f : FieldRef) (b : Bool) : (s.setFlag f b).l1Exit = s.l1Exit := rfl
@[simp] theorem State.setFlag_announceDue (s : State) (f : FieldRef) (b : Bool) : (s.setFlag f b).announceDue = s.announceDue := rfl
@[simp] theorem State.setFlag_gated (s : State) (f : FieldRef) (b : Bool) : (s.setFlag f b).gated = s.gated := rfl
@[simp] theorem State.setFlag_woken (s : State) (f : FieldRef) (b : Bool) : (s.setFlag f b).woken = s.woken := rfl
@[simp] theorem State.setFlag_devices (s : State) (f : FieldRef) (b : Bool) : (s.setFlag f b).devices = s.devices := rfl
@[simp] theorem State.setFlag_hidden (s : State) (f : FieldRef) (b : Bool) : (s.setFlag f b).hidden = s.hidden := rfl
@[simp] theorem State.setFlag_bindPu (s : State) (f : FieldRef) (b : Bool) : (s.setFlag f b).bindPu = s.bindPu := rfl
@[simp] theorem State.setFlag_virt (s : State) (f : FieldRef) (b : Bool) : (s.setFlag f b).virt = s.virt := rfl
@[simp] theorem State.setFlag_virtPorts (s : State) (f : FieldRef) (b : Bool) : (s.setFlag f b).virtPorts = s.virtPorts := rfl
@[simp] theorem State.setFlag_deviceMps (s : State) (f : FieldRef) (b : Bool) : (s.setFlag f b).deviceMps = s.deviceMps := rfl
@[simp] theorem State.setFlag_aer (s : State) (f : FieldRef) (b : Bool) : (s.setFlag f b).aer = s.aer := rfl
@[simp] theorem State.setFlag_aerHeader (s : State) (f : FieldRef) (b : Bool) : (s.setFlag f b).aerHeader = s.aerHeader := rfl
@[simp] theorem State.setFlag_intxLevel (s : State) (f : FieldRef) (b : Bool) : (s.setFlag f b).intxLevel = s.intxLevel := rfl
@[simp] theorem State.setFlag_intxCount (s : State) (f : FieldRef) (b : Bool) : (s.setFlag f b).intxCount = s.intxCount := rfl
@[simp] theorem State.setFlag_flr (s : State) (f : FieldRef) (b : Bool) : (s.setFlag f b).flr = s.flr := rfl
@[simp] theorem State.setFlag_configJobs (s : State) (f : FieldRef) (b : Bool) : (s.setFlag f b).configJobs = s.configJobs := rfl
@[simp] theorem State.setFlag_pmeOff (s : State) (f : FieldRef) (b : Bool) : (s.setFlag f b).pmeOff = s.pmeOff := rfl
@[simp] theorem State.setFlag_rings (s : State) (f : FieldRef) (b : Bool) : (s.setFlag f b).rings = s.rings := rfl
@[simp] theorem State.setFlag_beyond64 (s : State) (f : FieldRef) (b : Bool) : (s.setFlag f b).beyond64 = s.beyond64 := rfl
@[simp] theorem State.setFlag_lanes (s : State) (f : FieldRef) (b : Bool) : (s.setFlag f b).lanes = s.lanes := rfl
@[simp] theorem State.setFlag_time (s : State) (f : FieldRef) (b : Bool) : (s.setFlag f b).time = s.time := rfl
@[simp] theorem State.setFlag_dpcSince (s : State) (f : FieldRef) (b : Bool) : (s.setFlag f b).dpcSince = s.dpcSince := rfl
@[simp] theorem State.setFlag_doe (s : State) (f : FieldRef) (b : Bool) : (s.setFlag f b).doe = s.doe := rfl
@[simp] theorem State.setFlag_doeOrder (s : State) (f : FieldRef) (b : Bool) : (s.setFlag f b).doeOrder = s.doeOrder := rfl
@[simp] theorem State.setFlag_kickAt (s : State) (f : FieldRef) (b : Bool) : (s.setFlag f b).kickAt = s.kickAt := rfl
@[simp] theorem State.setFlag_hosts (s : State) (f : FieldRef) (b : Bool) : (s.setFlag f b).hosts = s.hosts := rfl
@[simp] theorem State.setFlag_bindSets (s : State) (f : FieldRef) (b : Bool) : (s.setFlag f b).bindSets = s.bindSets := rfl
@[simp] theorem State.setFlag_powerSamples (s : State) (f : FieldRef) (b : Bool) : (s.setFlag f b).powerSamples = s.powerSamples := rfl
@[simp] theorem State.setFlag_coolSince (s : State) (f : FieldRef) (b : Bool) : (s.setFlag f b).coolSince = s.coolSince := rfl
@[simp] theorem State.setFlag_batchNo (s : State) (f : FieldRef) (b : Bool) : (s.setFlag f b).batchNo = s.batchNo := rfl
@[simp] theorem State.setFlag_batchSize (s : State) (f : FieldRef) (b : Bool) : (s.setFlag f b).batchSize = s.batchSize := rfl
@[simp] theorem State.setFlag_shadow (s : State) (f : FieldRef) (b : Bool) : (s.setFlag f b).shadow = s.shadow := rfl
@[simp] theorem State.setFlag_stagedAt (s : State) (f : FieldRef) (b : Bool) : (s.setFlag f b).stagedAt = s.stagedAt := rfl
@[simp] theorem State.setFlag_lockClass (s : State) (f : FieldRef) (b : Bool) : (s.setFlag f b).lockClass = s.lockClass := rfl
@[simp] theorem State.setFlag_intxSent (s : State) (f : FieldRef) (b : Bool) : (s.setFlag f b).intxSent = s.intxSent := rfl
@[simp] theorem State.setFlag_bankWrite (s : State) (f : FieldRef) (b : Bool) : (s.setFlag f b).bankWrite = s.bankWrite := rfl
@[simp] theorem State.setFlag_keeperRun (s : State) (f : FieldRef) (b : Bool) : (s.setFlag f b).keeperRun = s.keeperRun := rfl
@[simp] theorem State.setFlag_secSizes (s : State) (f : FieldRef) (b : Bool) : (s.setFlag f b).secSizes = s.secSizes := rfl
@[simp] theorem State.setFlag_l0pPartners (s : State) (f : FieldRef) (b : Bool) : (s.setFlag f b).l0pPartners = s.l0pPartners := rfl
@[simp] theorem State.setFlag_pulses (s : State) (f : FieldRef) (b : Bool) : (s.setFlag f b).pulses = s.pulses := rfl
@[simp] theorem State.setFlag_slotsUsed (s : State) (f : FieldRef) (b : Bool) : (s.setFlag f b).slotsUsed = s.slotsUsed := rfl

@[simp] theorem State.bumpBy_pending (s : State) (f : FieldRef) (n : Nat) : (s.bumpBy f n).pending = s.pending := rfl
@[simp] theorem State.bumpBy_chip (s : State) (f : FieldRef) (n : Nat) : (s.bumpBy f n).chip = s.chip := rfl
@[simp] theorem State.bumpBy_cycles (s : State) (f : FieldRef) (n : Nat) : (s.bumpBy f n).cycles = s.cycles := rfl
@[simp] theorem State.bumpBy_adjust (s : State) (f : FieldRef) (n : Nat) : (s.bumpBy f n).adjust = s.adjust := rfl
@[simp] theorem State.bumpBy_freeCount (s : State) (f : FieldRef) (n : Nat) : (s.bumpBy f n).freeCount = s.freeCount := rfl
@[simp] theorem State.bumpBy_actions (s : State) (f : FieldRef) (n : Nat) : (s.bumpBy f n).actions = s.actions := rfl
@[simp] theorem State.bumpBy_out (s : State) (f : FieldRef) (n : Nat) : (s.bumpBy f n).out = s.out := rfl
@[simp] theorem State.bumpBy_outbox (s : State) (f : FieldRef) (n : Nat) : (s.bumpBy f n).outbox = s.outbox := rfl
@[simp] theorem State.bumpBy_fuses (s : State) (f : FieldRef) (n : Nat) : (s.bumpBy f n).fuses = s.fuses := rfl
@[simp] theorem State.bumpBy_sealed (s : State) (f : FieldRef) (n : Nat) : (s.bumpBy f n).sealed = s.sealed := rfl
@[simp] theorem State.bumpBy_sealRequests (s : State) (f : FieldRef) (n : Nat) : (s.bumpBy f n).sealRequests = s.sealRequests := rfl
@[simp] theorem State.bumpBy_nvs (s : State) (f : FieldRef) (n : Nat) : (s.bumpBy f n).nvs = s.nvs := rfl
@[simp] theorem State.bumpBy_dir (s : State) (f : FieldRef) (n : Nat) : (s.bumpBy f n).dir = s.dir := rfl
@[simp] theorem State.bumpBy_staged (s : State) (f : FieldRef) (n : Nat) : (s.bumpBy f n).staged = s.staged := rfl
@[simp] theorem State.bumpBy_loading (s : State) (f : FieldRef) (n : Nat) : (s.bumpBy f n).loading = s.loading := rfl
@[simp] theorem State.bumpBy_loadOrder (s : State) (f : FieldRef) (n : Nat) : (s.bumpBy f n).loadOrder = s.loadOrder := rfl
@[simp] theorem State.bumpBy_reload (s : State) (f : FieldRef) (n : Nat) : (s.bumpBy f n).reload = s.reload := rfl
@[simp] theorem State.bumpBy_slotWrite (s : State) (f : FieldRef) (n : Nat) : (s.bumpBy f n).slotWrite = s.slotWrite := rfl
@[simp] theorem State.bumpBy_nvsOp (s : State) (f : FieldRef) (n : Nat) : (s.bumpBy f n).nvsOp = s.nvsOp := rfl
@[simp] theorem State.bumpBy_cfg (s : State) (f : FieldRef) (n : Nat) : (s.bumpBy f n).cfg = s.cfg := rfl
@[simp] theorem State.bumpBy_mr (s : State) (f : FieldRef) (n : Nat) : (s.bumpBy f n).mr = s.mr := rfl
@[simp] theorem State.bumpBy_queues (s : State) (f : FieldRef) (n : Nat) : (s.bumpBy f n).queues = s.queues := rfl
@[simp] theorem State.bumpBy_records (s : State) (f : FieldRef) (n : Nat) : (s.bumpBy f n).records = s.records := rfl
@[simp] theorem State.bumpBy_tow (s : State) (f : FieldRef) (n : Nat) : (s.bumpBy f n).tow = s.tow := rfl
@[simp] theorem State.bumpBy_ports (s : State) (f : FieldRef) (n : Nat) : (s.bumpBy f n).ports = s.ports := rfl
@[simp] theorem State.bumpBy_staging (s : State) (f : FieldRef) (n : Nat) : (s.bumpBy f n).staging = s.staging := rfl
@[simp] theorem State.bumpBy_stageHolder (s : State) (f : FieldRef) (n : Nat) : (s.bumpBy f n).stageHolder = s.stageHolder := rfl
@[simp] theorem State.bumpBy_live (s : State) (f : FieldRef) (n : Nat) : (s.bumpBy f n).live = s.live := rfl
@[simp] theorem State.bumpBy_commits (s : State) (f : FieldRef) (n : Nat) : (s.bumpBy f n).commits = s.commits := rfl
@[simp] theorem State.bumpBy_fenceStart (s : State) (f : FieldRef) (n : Nat) : (s.bumpBy f n).fenceStart = s.fenceStart := rfl
@[simp] theorem State.bumpBy_crossings (s : State) (f : FieldRef) (n : Nat) : (s.bumpBy f n).crossings = s.crossings := rfl
@[simp] theorem State.bumpBy_modes (s : State) (f : FieldRef) (n : Nat) : (s.bumpBy f n).modes = s.modes := rfl
@[simp] theorem State.bumpBy_ledgers (s : State) (f : FieldRef) (n : Nat) : (s.bumpBy f n).ledgers = s.ledgers := rfl
@[simp] theorem State.bumpBy_ingress (s : State) (f : FieldRef) (n : Nat) : (s.bumpBy f n).ingress = s.ingress := rfl
@[simp] theorem State.bumpBy_waiting (s : State) (f : FieldRef) (n : Nat) : (s.bumpBy f n).waiting = s.waiting := rfl
@[simp] theorem State.bumpBy_outstanding (s : State) (f : FieldRef) (n : Nat) : (s.bumpBy f n).outstanding = s.outstanding := rfl
@[simp] theorem State.bumpBy_nextId (s : State) (f : FieldRef) (n : Nat) : (s.bumpBy f n).nextId = s.nextId := rfl
@[simp] theorem State.bumpBy_device (s : State) (f : FieldRef) (n : Nat) : (s.bumpBy f n).device = s.device := rfl
@[simp] theorem State.bumpBy_heldFailures (s : State) (f : FieldRef) (n : Nat) : (s.bumpBy f n).heldFailures = s.heldFailures := rfl
@[simp] theorem State.bumpBy_streams (s : State) (f : FieldRef) (n : Nat) : (s.bumpBy f n).streams = s.streams := rfl
@[simp] theorem State.bumpBy_flowLast (s : State) (f : FieldRef) (n : Nat) : (s.bumpBy f n).flowLast = s.flowLast := rfl
@[simp] theorem State.bumpBy_writeLast (s : State) (f : FieldRef) (n : Nat) : (s.bumpBy f n).writeLast = s.writeLast := rfl
@[simp] theorem State.bumpBy_lockWait (s : State) (f : FieldRef) (n : Nat) : (s.bumpBy f n).lockWait = s.lockWait := rfl
@[simp] theorem State.bumpBy_portLocks (s : State) (f : FieldRef) (n : Nat) : (s.bumpBy f n).portLocks = s.portLocks := rfl
@[simp] theorem State.bumpBy_planned (s : State) (f : FieldRef) (n : Nat) : (s.bumpBy f n).planned = s.planned := rfl
@[simp] theorem State.bumpBy_bounds (s : State) (f : FieldRef) (n : Nat) : (s.bumpBy f n).bounds = s.bounds := rfl
@[simp] theorem State.bumpBy_boundsSets (s : State) (f : FieldRef) (n : Nat) : (s.bumpBy f n).boundsSets = s.boundsSets := rfl
@[simp] theorem State.bumpBy_postedCount (s : State) (f : FieldRef) (n : Nat) : (s.bumpBy f n).postedCount = s.postedCount := rfl
@[simp] theorem State.bumpBy_requesters (s : State) (f : FieldRef) (n : Nat) : (s.bumpBy f n).requesters = s.requesters := rfl
@[simp] theorem State.bumpBy_engines (s : State) (f : FieldRef) (n : Nat) : (s.bumpBy f n).engines = s.engines := rfl
@[simp] theorem State.bumpBy_program (s : State) (f : FieldRef) (n : Nat) : (s.bumpBy f n).program = s.program := rfl
@[simp] theorem State.bumpBy_dataMem (s : State) (f : FieldRef) (n : Nat) : (s.bumpBy f n).dataMem = s.dataMem := rfl
@[simp] theorem State.bumpBy_links (s : State) (f : FieldRef) (n : Nat) : (s.bumpBy f n).links = s.links := rfl
@[simp] theorem State.bumpBy_vlast (s : State) (f : FieldRef) (n : Nat) : (s.bumpBy f n).vlast = s.vlast := rfl
@[simp] theorem State.bumpBy_ecc (s : State) (f : FieldRef) (n : Nat) : (s.bumpBy f n).ecc = s.ecc := rfl
@[simp] theorem State.bumpBy_l1Exit (s : State) (f : FieldRef) (n : Nat) : (s.bumpBy f n).l1Exit = s.l1Exit := rfl
@[simp] theorem State.bumpBy_announceDue (s : State) (f : FieldRef) (n : Nat) : (s.bumpBy f n).announceDue = s.announceDue := rfl
@[simp] theorem State.bumpBy_gated (s : State) (f : FieldRef) (n : Nat) : (s.bumpBy f n).gated = s.gated := rfl
@[simp] theorem State.bumpBy_woken (s : State) (f : FieldRef) (n : Nat) : (s.bumpBy f n).woken = s.woken := rfl
@[simp] theorem State.bumpBy_devices (s : State) (f : FieldRef) (n : Nat) : (s.bumpBy f n).devices = s.devices := rfl
@[simp] theorem State.bumpBy_hidden (s : State) (f : FieldRef) (n : Nat) : (s.bumpBy f n).hidden = s.hidden := rfl
@[simp] theorem State.bumpBy_bindPu (s : State) (f : FieldRef) (n : Nat) : (s.bumpBy f n).bindPu = s.bindPu := rfl
@[simp] theorem State.bumpBy_virt (s : State) (f : FieldRef) (n : Nat) : (s.bumpBy f n).virt = s.virt := rfl
@[simp] theorem State.bumpBy_virtPorts (s : State) (f : FieldRef) (n : Nat) : (s.bumpBy f n).virtPorts = s.virtPorts := rfl
@[simp] theorem State.bumpBy_deviceMps (s : State) (f : FieldRef) (n : Nat) : (s.bumpBy f n).deviceMps = s.deviceMps := rfl
@[simp] theorem State.bumpBy_aer (s : State) (f : FieldRef) (n : Nat) : (s.bumpBy f n).aer = s.aer := rfl
@[simp] theorem State.bumpBy_aerHeader (s : State) (f : FieldRef) (n : Nat) : (s.bumpBy f n).aerHeader = s.aerHeader := rfl
@[simp] theorem State.bumpBy_intxLevel (s : State) (f : FieldRef) (n : Nat) : (s.bumpBy f n).intxLevel = s.intxLevel := rfl
@[simp] theorem State.bumpBy_intxCount (s : State) (f : FieldRef) (n : Nat) : (s.bumpBy f n).intxCount = s.intxCount := rfl
@[simp] theorem State.bumpBy_flr (s : State) (f : FieldRef) (n : Nat) : (s.bumpBy f n).flr = s.flr := rfl
@[simp] theorem State.bumpBy_configJobs (s : State) (f : FieldRef) (n : Nat) : (s.bumpBy f n).configJobs = s.configJobs := rfl
@[simp] theorem State.bumpBy_pmeOff (s : State) (f : FieldRef) (n : Nat) : (s.bumpBy f n).pmeOff = s.pmeOff := rfl
@[simp] theorem State.bumpBy_rings (s : State) (f : FieldRef) (n : Nat) : (s.bumpBy f n).rings = s.rings := rfl
@[simp] theorem State.bumpBy_beyond64 (s : State) (f : FieldRef) (n : Nat) : (s.bumpBy f n).beyond64 = s.beyond64 := rfl
@[simp] theorem State.bumpBy_lanes (s : State) (f : FieldRef) (n : Nat) : (s.bumpBy f n).lanes = s.lanes := rfl
@[simp] theorem State.bumpBy_time (s : State) (f : FieldRef) (n : Nat) : (s.bumpBy f n).time = s.time := rfl
@[simp] theorem State.bumpBy_dpcSince (s : State) (f : FieldRef) (n : Nat) : (s.bumpBy f n).dpcSince = s.dpcSince := rfl
@[simp] theorem State.bumpBy_doe (s : State) (f : FieldRef) (n : Nat) : (s.bumpBy f n).doe = s.doe := rfl
@[simp] theorem State.bumpBy_doeOrder (s : State) (f : FieldRef) (n : Nat) : (s.bumpBy f n).doeOrder = s.doeOrder := rfl
@[simp] theorem State.bumpBy_kickAt (s : State) (f : FieldRef) (n : Nat) : (s.bumpBy f n).kickAt = s.kickAt := rfl
@[simp] theorem State.bumpBy_hosts (s : State) (f : FieldRef) (n : Nat) : (s.bumpBy f n).hosts = s.hosts := rfl
@[simp] theorem State.bumpBy_bindSets (s : State) (f : FieldRef) (n : Nat) : (s.bumpBy f n).bindSets = s.bindSets := rfl
@[simp] theorem State.bumpBy_powerSamples (s : State) (f : FieldRef) (n : Nat) : (s.bumpBy f n).powerSamples = s.powerSamples := rfl
@[simp] theorem State.bumpBy_coolSince (s : State) (f : FieldRef) (n : Nat) : (s.bumpBy f n).coolSince = s.coolSince := rfl
@[simp] theorem State.bumpBy_batchNo (s : State) (f : FieldRef) (n : Nat) : (s.bumpBy f n).batchNo = s.batchNo := rfl
@[simp] theorem State.bumpBy_batchSize (s : State) (f : FieldRef) (n : Nat) : (s.bumpBy f n).batchSize = s.batchSize := rfl
@[simp] theorem State.bumpBy_shadow (s : State) (f : FieldRef) (n : Nat) : (s.bumpBy f n).shadow = s.shadow := rfl
@[simp] theorem State.bumpBy_stagedAt (s : State) (f : FieldRef) (n : Nat) : (s.bumpBy f n).stagedAt = s.stagedAt := rfl
@[simp] theorem State.bumpBy_lockClass (s : State) (f : FieldRef) (n : Nat) : (s.bumpBy f n).lockClass = s.lockClass := rfl
@[simp] theorem State.bumpBy_intxSent (s : State) (f : FieldRef) (n : Nat) : (s.bumpBy f n).intxSent = s.intxSent := rfl
@[simp] theorem State.bumpBy_bankWrite (s : State) (f : FieldRef) (n : Nat) : (s.bumpBy f n).bankWrite = s.bankWrite := rfl
@[simp] theorem State.bumpBy_keeperRun (s : State) (f : FieldRef) (n : Nat) : (s.bumpBy f n).keeperRun = s.keeperRun := rfl
@[simp] theorem State.bumpBy_secSizes (s : State) (f : FieldRef) (n : Nat) : (s.bumpBy f n).secSizes = s.secSizes := rfl
@[simp] theorem State.bumpBy_l0pPartners (s : State) (f : FieldRef) (n : Nat) : (s.bumpBy f n).l0pPartners = s.l0pPartners := rfl
@[simp] theorem State.bumpBy_pulses (s : State) (f : FieldRef) (n : Nat) : (s.bumpBy f n).pulses = s.pulses := rfl
@[simp] theorem State.bumpBy_slotsUsed (s : State) (f : FieldRef) (n : Nat) : (s.bumpBy f n).slotsUsed = s.slotsUsed := rfl

@[simp] theorem State.bump_pending (s : State) (f : FieldRef) : (s.bump f).pending = s.pending := rfl
@[simp] theorem State.bump_chip (s : State) (f : FieldRef) : (s.bump f).chip = s.chip := rfl
@[simp] theorem State.bump_cycles (s : State) (f : FieldRef) : (s.bump f).cycles = s.cycles := rfl
@[simp] theorem State.bump_adjust (s : State) (f : FieldRef) : (s.bump f).adjust = s.adjust := rfl
@[simp] theorem State.bump_freeCount (s : State) (f : FieldRef) : (s.bump f).freeCount = s.freeCount := rfl
@[simp] theorem State.bump_actions (s : State) (f : FieldRef) : (s.bump f).actions = s.actions := rfl
@[simp] theorem State.bump_out (s : State) (f : FieldRef) : (s.bump f).out = s.out := rfl
@[simp] theorem State.bump_outbox (s : State) (f : FieldRef) : (s.bump f).outbox = s.outbox := rfl
@[simp] theorem State.bump_fuses (s : State) (f : FieldRef) : (s.bump f).fuses = s.fuses := rfl
@[simp] theorem State.bump_sealed (s : State) (f : FieldRef) : (s.bump f).sealed = s.sealed := rfl
@[simp] theorem State.bump_sealRequests (s : State) (f : FieldRef) : (s.bump f).sealRequests = s.sealRequests := rfl
@[simp] theorem State.bump_nvs (s : State) (f : FieldRef) : (s.bump f).nvs = s.nvs := rfl
@[simp] theorem State.bump_dir (s : State) (f : FieldRef) : (s.bump f).dir = s.dir := rfl
@[simp] theorem State.bump_staged (s : State) (f : FieldRef) : (s.bump f).staged = s.staged := rfl
@[simp] theorem State.bump_loading (s : State) (f : FieldRef) : (s.bump f).loading = s.loading := rfl
@[simp] theorem State.bump_loadOrder (s : State) (f : FieldRef) : (s.bump f).loadOrder = s.loadOrder := rfl
@[simp] theorem State.bump_reload (s : State) (f : FieldRef) : (s.bump f).reload = s.reload := rfl
@[simp] theorem State.bump_slotWrite (s : State) (f : FieldRef) : (s.bump f).slotWrite = s.slotWrite := rfl
@[simp] theorem State.bump_nvsOp (s : State) (f : FieldRef) : (s.bump f).nvsOp = s.nvsOp := rfl
@[simp] theorem State.bump_cfg (s : State) (f : FieldRef) : (s.bump f).cfg = s.cfg := rfl
@[simp] theorem State.bump_mr (s : State) (f : FieldRef) : (s.bump f).mr = s.mr := rfl
@[simp] theorem State.bump_queues (s : State) (f : FieldRef) : (s.bump f).queues = s.queues := rfl
@[simp] theorem State.bump_records (s : State) (f : FieldRef) : (s.bump f).records = s.records := rfl
@[simp] theorem State.bump_tow (s : State) (f : FieldRef) : (s.bump f).tow = s.tow := rfl
@[simp] theorem State.bump_ports (s : State) (f : FieldRef) : (s.bump f).ports = s.ports := rfl
@[simp] theorem State.bump_staging (s : State) (f : FieldRef) : (s.bump f).staging = s.staging := rfl
@[simp] theorem State.bump_stageHolder (s : State) (f : FieldRef) : (s.bump f).stageHolder = s.stageHolder := rfl
@[simp] theorem State.bump_live (s : State) (f : FieldRef) : (s.bump f).live = s.live := rfl
@[simp] theorem State.bump_commits (s : State) (f : FieldRef) : (s.bump f).commits = s.commits := rfl
@[simp] theorem State.bump_fenceStart (s : State) (f : FieldRef) : (s.bump f).fenceStart = s.fenceStart := rfl
@[simp] theorem State.bump_crossings (s : State) (f : FieldRef) : (s.bump f).crossings = s.crossings := rfl
@[simp] theorem State.bump_modes (s : State) (f : FieldRef) : (s.bump f).modes = s.modes := rfl
@[simp] theorem State.bump_ledgers (s : State) (f : FieldRef) : (s.bump f).ledgers = s.ledgers := rfl
@[simp] theorem State.bump_ingress (s : State) (f : FieldRef) : (s.bump f).ingress = s.ingress := rfl
@[simp] theorem State.bump_waiting (s : State) (f : FieldRef) : (s.bump f).waiting = s.waiting := rfl
@[simp] theorem State.bump_outstanding (s : State) (f : FieldRef) : (s.bump f).outstanding = s.outstanding := rfl
@[simp] theorem State.bump_nextId (s : State) (f : FieldRef) : (s.bump f).nextId = s.nextId := rfl
@[simp] theorem State.bump_device (s : State) (f : FieldRef) : (s.bump f).device = s.device := rfl
@[simp] theorem State.bump_heldFailures (s : State) (f : FieldRef) : (s.bump f).heldFailures = s.heldFailures := rfl
@[simp] theorem State.bump_streams (s : State) (f : FieldRef) : (s.bump f).streams = s.streams := rfl
@[simp] theorem State.bump_flowLast (s : State) (f : FieldRef) : (s.bump f).flowLast = s.flowLast := rfl
@[simp] theorem State.bump_writeLast (s : State) (f : FieldRef) : (s.bump f).writeLast = s.writeLast := rfl
@[simp] theorem State.bump_lockWait (s : State) (f : FieldRef) : (s.bump f).lockWait = s.lockWait := rfl
@[simp] theorem State.bump_portLocks (s : State) (f : FieldRef) : (s.bump f).portLocks = s.portLocks := rfl
@[simp] theorem State.bump_planned (s : State) (f : FieldRef) : (s.bump f).planned = s.planned := rfl
@[simp] theorem State.bump_bounds (s : State) (f : FieldRef) : (s.bump f).bounds = s.bounds := rfl
@[simp] theorem State.bump_boundsSets (s : State) (f : FieldRef) : (s.bump f).boundsSets = s.boundsSets := rfl
@[simp] theorem State.bump_postedCount (s : State) (f : FieldRef) : (s.bump f).postedCount = s.postedCount := rfl
@[simp] theorem State.bump_requesters (s : State) (f : FieldRef) : (s.bump f).requesters = s.requesters := rfl
@[simp] theorem State.bump_engines (s : State) (f : FieldRef) : (s.bump f).engines = s.engines := rfl
@[simp] theorem State.bump_program (s : State) (f : FieldRef) : (s.bump f).program = s.program := rfl
@[simp] theorem State.bump_dataMem (s : State) (f : FieldRef) : (s.bump f).dataMem = s.dataMem := rfl
@[simp] theorem State.bump_links (s : State) (f : FieldRef) : (s.bump f).links = s.links := rfl
@[simp] theorem State.bump_vlast (s : State) (f : FieldRef) : (s.bump f).vlast = s.vlast := rfl
@[simp] theorem State.bump_ecc (s : State) (f : FieldRef) : (s.bump f).ecc = s.ecc := rfl
@[simp] theorem State.bump_l1Exit (s : State) (f : FieldRef) : (s.bump f).l1Exit = s.l1Exit := rfl
@[simp] theorem State.bump_announceDue (s : State) (f : FieldRef) : (s.bump f).announceDue = s.announceDue := rfl
@[simp] theorem State.bump_gated (s : State) (f : FieldRef) : (s.bump f).gated = s.gated := rfl
@[simp] theorem State.bump_woken (s : State) (f : FieldRef) : (s.bump f).woken = s.woken := rfl
@[simp] theorem State.bump_devices (s : State) (f : FieldRef) : (s.bump f).devices = s.devices := rfl
@[simp] theorem State.bump_hidden (s : State) (f : FieldRef) : (s.bump f).hidden = s.hidden := rfl
@[simp] theorem State.bump_bindPu (s : State) (f : FieldRef) : (s.bump f).bindPu = s.bindPu := rfl
@[simp] theorem State.bump_virt (s : State) (f : FieldRef) : (s.bump f).virt = s.virt := rfl
@[simp] theorem State.bump_virtPorts (s : State) (f : FieldRef) : (s.bump f).virtPorts = s.virtPorts := rfl
@[simp] theorem State.bump_deviceMps (s : State) (f : FieldRef) : (s.bump f).deviceMps = s.deviceMps := rfl
@[simp] theorem State.bump_aer (s : State) (f : FieldRef) : (s.bump f).aer = s.aer := rfl
@[simp] theorem State.bump_aerHeader (s : State) (f : FieldRef) : (s.bump f).aerHeader = s.aerHeader := rfl
@[simp] theorem State.bump_intxLevel (s : State) (f : FieldRef) : (s.bump f).intxLevel = s.intxLevel := rfl
@[simp] theorem State.bump_intxCount (s : State) (f : FieldRef) : (s.bump f).intxCount = s.intxCount := rfl
@[simp] theorem State.bump_flr (s : State) (f : FieldRef) : (s.bump f).flr = s.flr := rfl
@[simp] theorem State.bump_configJobs (s : State) (f : FieldRef) : (s.bump f).configJobs = s.configJobs := rfl
@[simp] theorem State.bump_pmeOff (s : State) (f : FieldRef) : (s.bump f).pmeOff = s.pmeOff := rfl
@[simp] theorem State.bump_rings (s : State) (f : FieldRef) : (s.bump f).rings = s.rings := rfl
@[simp] theorem State.bump_beyond64 (s : State) (f : FieldRef) : (s.bump f).beyond64 = s.beyond64 := rfl
@[simp] theorem State.bump_lanes (s : State) (f : FieldRef) : (s.bump f).lanes = s.lanes := rfl
@[simp] theorem State.bump_time (s : State) (f : FieldRef) : (s.bump f).time = s.time := rfl
@[simp] theorem State.bump_dpcSince (s : State) (f : FieldRef) : (s.bump f).dpcSince = s.dpcSince := rfl
@[simp] theorem State.bump_doe (s : State) (f : FieldRef) : (s.bump f).doe = s.doe := rfl
@[simp] theorem State.bump_doeOrder (s : State) (f : FieldRef) : (s.bump f).doeOrder = s.doeOrder := rfl
@[simp] theorem State.bump_kickAt (s : State) (f : FieldRef) : (s.bump f).kickAt = s.kickAt := rfl
@[simp] theorem State.bump_hosts (s : State) (f : FieldRef) : (s.bump f).hosts = s.hosts := rfl
@[simp] theorem State.bump_bindSets (s : State) (f : FieldRef) : (s.bump f).bindSets = s.bindSets := rfl
@[simp] theorem State.bump_powerSamples (s : State) (f : FieldRef) : (s.bump f).powerSamples = s.powerSamples := rfl
@[simp] theorem State.bump_coolSince (s : State) (f : FieldRef) : (s.bump f).coolSince = s.coolSince := rfl
@[simp] theorem State.bump_batchNo (s : State) (f : FieldRef) : (s.bump f).batchNo = s.batchNo := rfl
@[simp] theorem State.bump_batchSize (s : State) (f : FieldRef) : (s.bump f).batchSize = s.batchSize := rfl
@[simp] theorem State.bump_shadow (s : State) (f : FieldRef) : (s.bump f).shadow = s.shadow := rfl
@[simp] theorem State.bump_stagedAt (s : State) (f : FieldRef) : (s.bump f).stagedAt = s.stagedAt := rfl
@[simp] theorem State.bump_lockClass (s : State) (f : FieldRef) : (s.bump f).lockClass = s.lockClass := rfl
@[simp] theorem State.bump_intxSent (s : State) (f : FieldRef) : (s.bump f).intxSent = s.intxSent := rfl
@[simp] theorem State.bump_bankWrite (s : State) (f : FieldRef) : (s.bump f).bankWrite = s.bankWrite := rfl
@[simp] theorem State.bump_keeperRun (s : State) (f : FieldRef) : (s.bump f).keeperRun = s.keeperRun := rfl
@[simp] theorem State.bump_secSizes (s : State) (f : FieldRef) : (s.bump f).secSizes = s.secSizes := rfl
@[simp] theorem State.bump_l0pPartners (s : State) (f : FieldRef) : (s.bump f).l0pPartners = s.l0pPartners := rfl
@[simp] theorem State.bump_pulses (s : State) (f : FieldRef) : (s.bump f).pulses = s.pulses := rfl
@[simp] theorem State.bump_slotsUsed (s : State) (f : FieldRef) : (s.bump f).slotsUsed = s.slotsUsed := rfl

@[simp] theorem State.setBit_pending (s : State) (f : FieldRef) (i : Nat) (b : Bool) : (s.setBit f i b).pending = s.pending := rfl
@[simp] theorem State.setBit_chip (s : State) (f : FieldRef) (i : Nat) (b : Bool) : (s.setBit f i b).chip = s.chip := rfl
@[simp] theorem State.setBit_cycles (s : State) (f : FieldRef) (i : Nat) (b : Bool) : (s.setBit f i b).cycles = s.cycles := rfl
@[simp] theorem State.setBit_adjust (s : State) (f : FieldRef) (i : Nat) (b : Bool) : (s.setBit f i b).adjust = s.adjust := rfl
@[simp] theorem State.setBit_freeCount (s : State) (f : FieldRef) (i : Nat) (b : Bool) : (s.setBit f i b).freeCount = s.freeCount := rfl
@[simp] theorem State.setBit_actions (s : State) (f : FieldRef) (i : Nat) (b : Bool) : (s.setBit f i b).actions = s.actions := rfl
@[simp] theorem State.setBit_out (s : State) (f : FieldRef) (i : Nat) (b : Bool) : (s.setBit f i b).out = s.out := rfl
@[simp] theorem State.setBit_outbox (s : State) (f : FieldRef) (i : Nat) (b : Bool) : (s.setBit f i b).outbox = s.outbox := rfl
@[simp] theorem State.setBit_fuses (s : State) (f : FieldRef) (i : Nat) (b : Bool) : (s.setBit f i b).fuses = s.fuses := rfl
@[simp] theorem State.setBit_sealed (s : State) (f : FieldRef) (i : Nat) (b : Bool) : (s.setBit f i b).sealed = s.sealed := rfl
@[simp] theorem State.setBit_sealRequests (s : State) (f : FieldRef) (i : Nat) (b : Bool) : (s.setBit f i b).sealRequests = s.sealRequests := rfl
@[simp] theorem State.setBit_nvs (s : State) (f : FieldRef) (i : Nat) (b : Bool) : (s.setBit f i b).nvs = s.nvs := rfl
@[simp] theorem State.setBit_dir (s : State) (f : FieldRef) (i : Nat) (b : Bool) : (s.setBit f i b).dir = s.dir := rfl
@[simp] theorem State.setBit_staged (s : State) (f : FieldRef) (i : Nat) (b : Bool) : (s.setBit f i b).staged = s.staged := rfl
@[simp] theorem State.setBit_loading (s : State) (f : FieldRef) (i : Nat) (b : Bool) : (s.setBit f i b).loading = s.loading := rfl
@[simp] theorem State.setBit_loadOrder (s : State) (f : FieldRef) (i : Nat) (b : Bool) : (s.setBit f i b).loadOrder = s.loadOrder := rfl
@[simp] theorem State.setBit_reload (s : State) (f : FieldRef) (i : Nat) (b : Bool) : (s.setBit f i b).reload = s.reload := rfl
@[simp] theorem State.setBit_slotWrite (s : State) (f : FieldRef) (i : Nat) (b : Bool) : (s.setBit f i b).slotWrite = s.slotWrite := rfl
@[simp] theorem State.setBit_nvsOp (s : State) (f : FieldRef) (i : Nat) (b : Bool) : (s.setBit f i b).nvsOp = s.nvsOp := rfl
@[simp] theorem State.setBit_cfg (s : State) (f : FieldRef) (i : Nat) (b : Bool) : (s.setBit f i b).cfg = s.cfg := rfl
@[simp] theorem State.setBit_mr (s : State) (f : FieldRef) (i : Nat) (b : Bool) : (s.setBit f i b).mr = s.mr := rfl
@[simp] theorem State.setBit_queues (s : State) (f : FieldRef) (i : Nat) (b : Bool) : (s.setBit f i b).queues = s.queues := rfl
@[simp] theorem State.setBit_records (s : State) (f : FieldRef) (i : Nat) (b : Bool) : (s.setBit f i b).records = s.records := rfl
@[simp] theorem State.setBit_tow (s : State) (f : FieldRef) (i : Nat) (b : Bool) : (s.setBit f i b).tow = s.tow := rfl
@[simp] theorem State.setBit_ports (s : State) (f : FieldRef) (i : Nat) (b : Bool) : (s.setBit f i b).ports = s.ports := rfl
@[simp] theorem State.setBit_staging (s : State) (f : FieldRef) (i : Nat) (b : Bool) : (s.setBit f i b).staging = s.staging := rfl
@[simp] theorem State.setBit_stageHolder (s : State) (f : FieldRef) (i : Nat) (b : Bool) : (s.setBit f i b).stageHolder = s.stageHolder := rfl
@[simp] theorem State.setBit_live (s : State) (f : FieldRef) (i : Nat) (b : Bool) : (s.setBit f i b).live = s.live := rfl
@[simp] theorem State.setBit_commits (s : State) (f : FieldRef) (i : Nat) (b : Bool) : (s.setBit f i b).commits = s.commits := rfl
@[simp] theorem State.setBit_fenceStart (s : State) (f : FieldRef) (i : Nat) (b : Bool) : (s.setBit f i b).fenceStart = s.fenceStart := rfl
@[simp] theorem State.setBit_crossings (s : State) (f : FieldRef) (i : Nat) (b : Bool) : (s.setBit f i b).crossings = s.crossings := rfl
@[simp] theorem State.setBit_modes (s : State) (f : FieldRef) (i : Nat) (b : Bool) : (s.setBit f i b).modes = s.modes := rfl
@[simp] theorem State.setBit_ledgers (s : State) (f : FieldRef) (i : Nat) (b : Bool) : (s.setBit f i b).ledgers = s.ledgers := rfl
@[simp] theorem State.setBit_ingress (s : State) (f : FieldRef) (i : Nat) (b : Bool) : (s.setBit f i b).ingress = s.ingress := rfl
@[simp] theorem State.setBit_waiting (s : State) (f : FieldRef) (i : Nat) (b : Bool) : (s.setBit f i b).waiting = s.waiting := rfl
@[simp] theorem State.setBit_outstanding (s : State) (f : FieldRef) (i : Nat) (b : Bool) : (s.setBit f i b).outstanding = s.outstanding := rfl
@[simp] theorem State.setBit_nextId (s : State) (f : FieldRef) (i : Nat) (b : Bool) : (s.setBit f i b).nextId = s.nextId := rfl
@[simp] theorem State.setBit_device (s : State) (f : FieldRef) (i : Nat) (b : Bool) : (s.setBit f i b).device = s.device := rfl
@[simp] theorem State.setBit_heldFailures (s : State) (f : FieldRef) (i : Nat) (b : Bool) : (s.setBit f i b).heldFailures = s.heldFailures := rfl
@[simp] theorem State.setBit_streams (s : State) (f : FieldRef) (i : Nat) (b : Bool) : (s.setBit f i b).streams = s.streams := rfl
@[simp] theorem State.setBit_flowLast (s : State) (f : FieldRef) (i : Nat) (b : Bool) : (s.setBit f i b).flowLast = s.flowLast := rfl
@[simp] theorem State.setBit_writeLast (s : State) (f : FieldRef) (i : Nat) (b : Bool) : (s.setBit f i b).writeLast = s.writeLast := rfl
@[simp] theorem State.setBit_lockWait (s : State) (f : FieldRef) (i : Nat) (b : Bool) : (s.setBit f i b).lockWait = s.lockWait := rfl
@[simp] theorem State.setBit_portLocks (s : State) (f : FieldRef) (i : Nat) (b : Bool) : (s.setBit f i b).portLocks = s.portLocks := rfl
@[simp] theorem State.setBit_planned (s : State) (f : FieldRef) (i : Nat) (b : Bool) : (s.setBit f i b).planned = s.planned := rfl
@[simp] theorem State.setBit_bounds (s : State) (f : FieldRef) (i : Nat) (b : Bool) : (s.setBit f i b).bounds = s.bounds := rfl
@[simp] theorem State.setBit_boundsSets (s : State) (f : FieldRef) (i : Nat) (b : Bool) : (s.setBit f i b).boundsSets = s.boundsSets := rfl
@[simp] theorem State.setBit_postedCount (s : State) (f : FieldRef) (i : Nat) (b : Bool) : (s.setBit f i b).postedCount = s.postedCount := rfl
@[simp] theorem State.setBit_requesters (s : State) (f : FieldRef) (i : Nat) (b : Bool) : (s.setBit f i b).requesters = s.requesters := rfl
@[simp] theorem State.setBit_engines (s : State) (f : FieldRef) (i : Nat) (b : Bool) : (s.setBit f i b).engines = s.engines := rfl
@[simp] theorem State.setBit_program (s : State) (f : FieldRef) (i : Nat) (b : Bool) : (s.setBit f i b).program = s.program := rfl
@[simp] theorem State.setBit_dataMem (s : State) (f : FieldRef) (i : Nat) (b : Bool) : (s.setBit f i b).dataMem = s.dataMem := rfl
@[simp] theorem State.setBit_links (s : State) (f : FieldRef) (i : Nat) (b : Bool) : (s.setBit f i b).links = s.links := rfl
@[simp] theorem State.setBit_vlast (s : State) (f : FieldRef) (i : Nat) (b : Bool) : (s.setBit f i b).vlast = s.vlast := rfl
@[simp] theorem State.setBit_ecc (s : State) (f : FieldRef) (i : Nat) (b : Bool) : (s.setBit f i b).ecc = s.ecc := rfl
@[simp] theorem State.setBit_l1Exit (s : State) (f : FieldRef) (i : Nat) (b : Bool) : (s.setBit f i b).l1Exit = s.l1Exit := rfl
@[simp] theorem State.setBit_announceDue (s : State) (f : FieldRef) (i : Nat) (b : Bool) : (s.setBit f i b).announceDue = s.announceDue := rfl
@[simp] theorem State.setBit_gated (s : State) (f : FieldRef) (i : Nat) (b : Bool) : (s.setBit f i b).gated = s.gated := rfl
@[simp] theorem State.setBit_woken (s : State) (f : FieldRef) (i : Nat) (b : Bool) : (s.setBit f i b).woken = s.woken := rfl
@[simp] theorem State.setBit_devices (s : State) (f : FieldRef) (i : Nat) (b : Bool) : (s.setBit f i b).devices = s.devices := rfl
@[simp] theorem State.setBit_hidden (s : State) (f : FieldRef) (i : Nat) (b : Bool) : (s.setBit f i b).hidden = s.hidden := rfl
@[simp] theorem State.setBit_bindPu (s : State) (f : FieldRef) (i : Nat) (b : Bool) : (s.setBit f i b).bindPu = s.bindPu := rfl
@[simp] theorem State.setBit_virt (s : State) (f : FieldRef) (i : Nat) (b : Bool) : (s.setBit f i b).virt = s.virt := rfl
@[simp] theorem State.setBit_virtPorts (s : State) (f : FieldRef) (i : Nat) (b : Bool) : (s.setBit f i b).virtPorts = s.virtPorts := rfl
@[simp] theorem State.setBit_deviceMps (s : State) (f : FieldRef) (i : Nat) (b : Bool) : (s.setBit f i b).deviceMps = s.deviceMps := rfl
@[simp] theorem State.setBit_aer (s : State) (f : FieldRef) (i : Nat) (b : Bool) : (s.setBit f i b).aer = s.aer := rfl
@[simp] theorem State.setBit_aerHeader (s : State) (f : FieldRef) (i : Nat) (b : Bool) : (s.setBit f i b).aerHeader = s.aerHeader := rfl
@[simp] theorem State.setBit_intxLevel (s : State) (f : FieldRef) (i : Nat) (b : Bool) : (s.setBit f i b).intxLevel = s.intxLevel := rfl
@[simp] theorem State.setBit_intxCount (s : State) (f : FieldRef) (i : Nat) (b : Bool) : (s.setBit f i b).intxCount = s.intxCount := rfl
@[simp] theorem State.setBit_flr (s : State) (f : FieldRef) (i : Nat) (b : Bool) : (s.setBit f i b).flr = s.flr := rfl
@[simp] theorem State.setBit_configJobs (s : State) (f : FieldRef) (i : Nat) (b : Bool) : (s.setBit f i b).configJobs = s.configJobs := rfl
@[simp] theorem State.setBit_pmeOff (s : State) (f : FieldRef) (i : Nat) (b : Bool) : (s.setBit f i b).pmeOff = s.pmeOff := rfl
@[simp] theorem State.setBit_rings (s : State) (f : FieldRef) (i : Nat) (b : Bool) : (s.setBit f i b).rings = s.rings := rfl
@[simp] theorem State.setBit_beyond64 (s : State) (f : FieldRef) (i : Nat) (b : Bool) : (s.setBit f i b).beyond64 = s.beyond64 := rfl
@[simp] theorem State.setBit_lanes (s : State) (f : FieldRef) (i : Nat) (b : Bool) : (s.setBit f i b).lanes = s.lanes := rfl
@[simp] theorem State.setBit_time (s : State) (f : FieldRef) (i : Nat) (b : Bool) : (s.setBit f i b).time = s.time := rfl
@[simp] theorem State.setBit_dpcSince (s : State) (f : FieldRef) (i : Nat) (b : Bool) : (s.setBit f i b).dpcSince = s.dpcSince := rfl
@[simp] theorem State.setBit_doe (s : State) (f : FieldRef) (i : Nat) (b : Bool) : (s.setBit f i b).doe = s.doe := rfl
@[simp] theorem State.setBit_doeOrder (s : State) (f : FieldRef) (i : Nat) (b : Bool) : (s.setBit f i b).doeOrder = s.doeOrder := rfl
@[simp] theorem State.setBit_kickAt (s : State) (f : FieldRef) (i : Nat) (b : Bool) : (s.setBit f i b).kickAt = s.kickAt := rfl
@[simp] theorem State.setBit_hosts (s : State) (f : FieldRef) (i : Nat) (b : Bool) : (s.setBit f i b).hosts = s.hosts := rfl
@[simp] theorem State.setBit_bindSets (s : State) (f : FieldRef) (i : Nat) (b : Bool) : (s.setBit f i b).bindSets = s.bindSets := rfl
@[simp] theorem State.setBit_powerSamples (s : State) (f : FieldRef) (i : Nat) (b : Bool) : (s.setBit f i b).powerSamples = s.powerSamples := rfl
@[simp] theorem State.setBit_coolSince (s : State) (f : FieldRef) (i : Nat) (b : Bool) : (s.setBit f i b).coolSince = s.coolSince := rfl
@[simp] theorem State.setBit_batchNo (s : State) (f : FieldRef) (i : Nat) (b : Bool) : (s.setBit f i b).batchNo = s.batchNo := rfl
@[simp] theorem State.setBit_batchSize (s : State) (f : FieldRef) (i : Nat) (b : Bool) : (s.setBit f i b).batchSize = s.batchSize := rfl
@[simp] theorem State.setBit_shadow (s : State) (f : FieldRef) (i : Nat) (b : Bool) : (s.setBit f i b).shadow = s.shadow := rfl
@[simp] theorem State.setBit_stagedAt (s : State) (f : FieldRef) (i : Nat) (b : Bool) : (s.setBit f i b).stagedAt = s.stagedAt := rfl
@[simp] theorem State.setBit_lockClass (s : State) (f : FieldRef) (i : Nat) (b : Bool) : (s.setBit f i b).lockClass = s.lockClass := rfl
@[simp] theorem State.setBit_intxSent (s : State) (f : FieldRef) (i : Nat) (b : Bool) : (s.setBit f i b).intxSent = s.intxSent := rfl
@[simp] theorem State.setBit_bankWrite (s : State) (f : FieldRef) (i : Nat) (b : Bool) : (s.setBit f i b).bankWrite = s.bankWrite := rfl
@[simp] theorem State.setBit_keeperRun (s : State) (f : FieldRef) (i : Nat) (b : Bool) : (s.setBit f i b).keeperRun = s.keeperRun := rfl
@[simp] theorem State.setBit_secSizes (s : State) (f : FieldRef) (i : Nat) (b : Bool) : (s.setBit f i b).secSizes = s.secSizes := rfl
@[simp] theorem State.setBit_l0pPartners (s : State) (f : FieldRef) (i : Nat) (b : Bool) : (s.setBit f i b).l0pPartners = s.l0pPartners := rfl
@[simp] theorem State.setBit_pulses (s : State) (f : FieldRef) (i : Nat) (b : Bool) : (s.setBit f i b).pulses = s.pulses := rfl
@[simp] theorem State.setBit_slotsUsed (s : State) (f : FieldRef) (i : Nat) (b : Bool) : (s.setBit f i b).slotsUsed = s.slotsUsed := rfl

@[simp] theorem State.emit_pending (s : State) (o : Output) : (s.emit o).pending = s.pending := rfl
@[simp] theorem State.emit_chip (s : State) (o : Output) : (s.emit o).chip = s.chip := rfl
@[simp] theorem State.emit_regs (s : State) (o : Output) : (s.emit o).regs = s.regs := rfl
@[simp] theorem State.emit_cycles (s : State) (o : Output) : (s.emit o).cycles = s.cycles := rfl
@[simp] theorem State.emit_adjust (s : State) (o : Output) : (s.emit o).adjust = s.adjust := rfl
@[simp] theorem State.emit_freeCount (s : State) (o : Output) : (s.emit o).freeCount = s.freeCount := rfl
@[simp] theorem State.emit_actions (s : State) (o : Output) : (s.emit o).actions = s.actions := rfl
@[simp] theorem State.emit_outbox (s : State) (o : Output) : (s.emit o).outbox = s.outbox := rfl
@[simp] theorem State.emit_fuses (s : State) (o : Output) : (s.emit o).fuses = s.fuses := rfl
@[simp] theorem State.emit_sealed (s : State) (o : Output) : (s.emit o).sealed = s.sealed := rfl
@[simp] theorem State.emit_sealRequests (s : State) (o : Output) : (s.emit o).sealRequests = s.sealRequests := rfl
@[simp] theorem State.emit_nvs (s : State) (o : Output) : (s.emit o).nvs = s.nvs := rfl
@[simp] theorem State.emit_dir (s : State) (o : Output) : (s.emit o).dir = s.dir := rfl
@[simp] theorem State.emit_staged (s : State) (o : Output) : (s.emit o).staged = s.staged := rfl
@[simp] theorem State.emit_loading (s : State) (o : Output) : (s.emit o).loading = s.loading := rfl
@[simp] theorem State.emit_loadOrder (s : State) (o : Output) : (s.emit o).loadOrder = s.loadOrder := rfl
@[simp] theorem State.emit_reload (s : State) (o : Output) : (s.emit o).reload = s.reload := rfl
@[simp] theorem State.emit_slotWrite (s : State) (o : Output) : (s.emit o).slotWrite = s.slotWrite := rfl
@[simp] theorem State.emit_nvsOp (s : State) (o : Output) : (s.emit o).nvsOp = s.nvsOp := rfl
@[simp] theorem State.emit_cfg (s : State) (o : Output) : (s.emit o).cfg = s.cfg := rfl
@[simp] theorem State.emit_mr (s : State) (o : Output) : (s.emit o).mr = s.mr := rfl
@[simp] theorem State.emit_queues (s : State) (o : Output) : (s.emit o).queues = s.queues := rfl
@[simp] theorem State.emit_records (s : State) (o : Output) : (s.emit o).records = s.records := rfl
@[simp] theorem State.emit_tow (s : State) (o : Output) : (s.emit o).tow = s.tow := rfl
@[simp] theorem State.emit_ports (s : State) (o : Output) : (s.emit o).ports = s.ports := rfl
@[simp] theorem State.emit_staging (s : State) (o : Output) : (s.emit o).staging = s.staging := rfl
@[simp] theorem State.emit_stageHolder (s : State) (o : Output) : (s.emit o).stageHolder = s.stageHolder := rfl
@[simp] theorem State.emit_live (s : State) (o : Output) : (s.emit o).live = s.live := rfl
@[simp] theorem State.emit_commits (s : State) (o : Output) : (s.emit o).commits = s.commits := rfl
@[simp] theorem State.emit_fenceStart (s : State) (o : Output) : (s.emit o).fenceStart = s.fenceStart := rfl
@[simp] theorem State.emit_crossings (s : State) (o : Output) : (s.emit o).crossings = s.crossings := rfl
@[simp] theorem State.emit_modes (s : State) (o : Output) : (s.emit o).modes = s.modes := rfl
@[simp] theorem State.emit_ledgers (s : State) (o : Output) : (s.emit o).ledgers = s.ledgers := rfl
@[simp] theorem State.emit_ingress (s : State) (o : Output) : (s.emit o).ingress = s.ingress := rfl
@[simp] theorem State.emit_waiting (s : State) (o : Output) : (s.emit o).waiting = s.waiting := rfl
@[simp] theorem State.emit_outstanding (s : State) (o : Output) : (s.emit o).outstanding = s.outstanding := rfl
@[simp] theorem State.emit_nextId (s : State) (o : Output) : (s.emit o).nextId = s.nextId := rfl
@[simp] theorem State.emit_device (s : State) (o : Output) : (s.emit o).device = s.device := rfl
@[simp] theorem State.emit_heldFailures (s : State) (o : Output) : (s.emit o).heldFailures = s.heldFailures := rfl
@[simp] theorem State.emit_streams (s : State) (o : Output) : (s.emit o).streams = s.streams := rfl
@[simp] theorem State.emit_flowLast (s : State) (o : Output) : (s.emit o).flowLast = s.flowLast := rfl
@[simp] theorem State.emit_writeLast (s : State) (o : Output) : (s.emit o).writeLast = s.writeLast := rfl
@[simp] theorem State.emit_lockWait (s : State) (o : Output) : (s.emit o).lockWait = s.lockWait := rfl
@[simp] theorem State.emit_portLocks (s : State) (o : Output) : (s.emit o).portLocks = s.portLocks := rfl
@[simp] theorem State.emit_planned (s : State) (o : Output) : (s.emit o).planned = s.planned := rfl
@[simp] theorem State.emit_bounds (s : State) (o : Output) : (s.emit o).bounds = s.bounds := rfl
@[simp] theorem State.emit_boundsSets (s : State) (o : Output) : (s.emit o).boundsSets = s.boundsSets := rfl
@[simp] theorem State.emit_postedCount (s : State) (o : Output) : (s.emit o).postedCount = s.postedCount := rfl
@[simp] theorem State.emit_requesters (s : State) (o : Output) : (s.emit o).requesters = s.requesters := rfl
@[simp] theorem State.emit_engines (s : State) (o : Output) : (s.emit o).engines = s.engines := rfl
@[simp] theorem State.emit_program (s : State) (o : Output) : (s.emit o).program = s.program := rfl
@[simp] theorem State.emit_dataMem (s : State) (o : Output) : (s.emit o).dataMem = s.dataMem := rfl
@[simp] theorem State.emit_links (s : State) (o : Output) : (s.emit o).links = s.links := rfl
@[simp] theorem State.emit_vlast (s : State) (o : Output) : (s.emit o).vlast = s.vlast := rfl
@[simp] theorem State.emit_ecc (s : State) (o : Output) : (s.emit o).ecc = s.ecc := rfl
@[simp] theorem State.emit_l1Exit (s : State) (o : Output) : (s.emit o).l1Exit = s.l1Exit := rfl
@[simp] theorem State.emit_announceDue (s : State) (o : Output) : (s.emit o).announceDue = s.announceDue := rfl
@[simp] theorem State.emit_gated (s : State) (o : Output) : (s.emit o).gated = s.gated := rfl
@[simp] theorem State.emit_woken (s : State) (o : Output) : (s.emit o).woken = s.woken := rfl
@[simp] theorem State.emit_devices (s : State) (o : Output) : (s.emit o).devices = s.devices := rfl
@[simp] theorem State.emit_hidden (s : State) (o : Output) : (s.emit o).hidden = s.hidden := rfl
@[simp] theorem State.emit_bindPu (s : State) (o : Output) : (s.emit o).bindPu = s.bindPu := rfl
@[simp] theorem State.emit_virt (s : State) (o : Output) : (s.emit o).virt = s.virt := rfl
@[simp] theorem State.emit_virtPorts (s : State) (o : Output) : (s.emit o).virtPorts = s.virtPorts := rfl
@[simp] theorem State.emit_deviceMps (s : State) (o : Output) : (s.emit o).deviceMps = s.deviceMps := rfl
@[simp] theorem State.emit_aer (s : State) (o : Output) : (s.emit o).aer = s.aer := rfl
@[simp] theorem State.emit_aerHeader (s : State) (o : Output) : (s.emit o).aerHeader = s.aerHeader := rfl
@[simp] theorem State.emit_intxLevel (s : State) (o : Output) : (s.emit o).intxLevel = s.intxLevel := rfl
@[simp] theorem State.emit_intxCount (s : State) (o : Output) : (s.emit o).intxCount = s.intxCount := rfl
@[simp] theorem State.emit_flr (s : State) (o : Output) : (s.emit o).flr = s.flr := rfl
@[simp] theorem State.emit_configJobs (s : State) (o : Output) : (s.emit o).configJobs = s.configJobs := rfl
@[simp] theorem State.emit_pmeOff (s : State) (o : Output) : (s.emit o).pmeOff = s.pmeOff := rfl
@[simp] theorem State.emit_rings (s : State) (o : Output) : (s.emit o).rings = s.rings := rfl
@[simp] theorem State.emit_beyond64 (s : State) (o : Output) : (s.emit o).beyond64 = s.beyond64 := rfl
@[simp] theorem State.emit_lanes (s : State) (o : Output) : (s.emit o).lanes = s.lanes := rfl
@[simp] theorem State.emit_time (s : State) (o : Output) : (s.emit o).time = s.time := rfl
@[simp] theorem State.emit_dpcSince (s : State) (o : Output) : (s.emit o).dpcSince = s.dpcSince := rfl
@[simp] theorem State.emit_doe (s : State) (o : Output) : (s.emit o).doe = s.doe := rfl
@[simp] theorem State.emit_doeOrder (s : State) (o : Output) : (s.emit o).doeOrder = s.doeOrder := rfl
@[simp] theorem State.emit_kickAt (s : State) (o : Output) : (s.emit o).kickAt = s.kickAt := rfl
@[simp] theorem State.emit_hosts (s : State) (o : Output) : (s.emit o).hosts = s.hosts := rfl
@[simp] theorem State.emit_bindSets (s : State) (o : Output) : (s.emit o).bindSets = s.bindSets := rfl
@[simp] theorem State.emit_powerSamples (s : State) (o : Output) : (s.emit o).powerSamples = s.powerSamples := rfl
@[simp] theorem State.emit_coolSince (s : State) (o : Output) : (s.emit o).coolSince = s.coolSince := rfl
@[simp] theorem State.emit_batchNo (s : State) (o : Output) : (s.emit o).batchNo = s.batchNo := rfl
@[simp] theorem State.emit_batchSize (s : State) (o : Output) : (s.emit o).batchSize = s.batchSize := rfl
@[simp] theorem State.emit_shadow (s : State) (o : Output) : (s.emit o).shadow = s.shadow := rfl
@[simp] theorem State.emit_stagedAt (s : State) (o : Output) : (s.emit o).stagedAt = s.stagedAt := rfl
@[simp] theorem State.emit_lockClass (s : State) (o : Output) : (s.emit o).lockClass = s.lockClass := rfl
@[simp] theorem State.emit_intxSent (s : State) (o : Output) : (s.emit o).intxSent = s.intxSent := rfl
@[simp] theorem State.emit_bankWrite (s : State) (o : Output) : (s.emit o).bankWrite = s.bankWrite := rfl
@[simp] theorem State.emit_keeperRun (s : State) (o : Output) : (s.emit o).keeperRun = s.keeperRun := rfl
@[simp] theorem State.emit_secSizes (s : State) (o : Output) : (s.emit o).secSizes = s.secSizes := rfl
@[simp] theorem State.emit_l0pPartners (s : State) (o : Output) : (s.emit o).l0pPartners = s.l0pPartners := rfl
@[simp] theorem State.emit_pulses (s : State) (o : Output) : (s.emit o).pulses = s.pulses := rfl
@[simp] theorem State.emit_slotsUsed (s : State) (o : Output) : (s.emit o).slotsUsed = s.slotsUsed := rfl

@[simp] theorem State.tookFree_pending (s : State)  : (s.tookFree).pending = s.pending := rfl
@[simp] theorem State.tookFree_chip (s : State)  : (s.tookFree).chip = s.chip := rfl
@[simp] theorem State.tookFree_regs (s : State)  : (s.tookFree).regs = s.regs := rfl
@[simp] theorem State.tookFree_cycles (s : State)  : (s.tookFree).cycles = s.cycles := rfl
@[simp] theorem State.tookFree_adjust (s : State)  : (s.tookFree).adjust = s.adjust := rfl
@[simp] theorem State.tookFree_actions (s : State)  : (s.tookFree).actions = s.actions := rfl
@[simp] theorem State.tookFree_out (s : State)  : (s.tookFree).out = s.out := rfl
@[simp] theorem State.tookFree_outbox (s : State)  : (s.tookFree).outbox = s.outbox := rfl
@[simp] theorem State.tookFree_fuses (s : State)  : (s.tookFree).fuses = s.fuses := rfl
@[simp] theorem State.tookFree_sealed (s : State)  : (s.tookFree).sealed = s.sealed := rfl
@[simp] theorem State.tookFree_sealRequests (s : State)  : (s.tookFree).sealRequests = s.sealRequests := rfl
@[simp] theorem State.tookFree_nvs (s : State)  : (s.tookFree).nvs = s.nvs := rfl
@[simp] theorem State.tookFree_dir (s : State)  : (s.tookFree).dir = s.dir := rfl
@[simp] theorem State.tookFree_staged (s : State)  : (s.tookFree).staged = s.staged := rfl
@[simp] theorem State.tookFree_loading (s : State)  : (s.tookFree).loading = s.loading := rfl
@[simp] theorem State.tookFree_loadOrder (s : State)  : (s.tookFree).loadOrder = s.loadOrder := rfl
@[simp] theorem State.tookFree_reload (s : State)  : (s.tookFree).reload = s.reload := rfl
@[simp] theorem State.tookFree_slotWrite (s : State)  : (s.tookFree).slotWrite = s.slotWrite := rfl
@[simp] theorem State.tookFree_nvsOp (s : State)  : (s.tookFree).nvsOp = s.nvsOp := rfl
@[simp] theorem State.tookFree_cfg (s : State)  : (s.tookFree).cfg = s.cfg := rfl
@[simp] theorem State.tookFree_mr (s : State)  : (s.tookFree).mr = s.mr := rfl
@[simp] theorem State.tookFree_queues (s : State)  : (s.tookFree).queues = s.queues := rfl
@[simp] theorem State.tookFree_records (s : State)  : (s.tookFree).records = s.records := rfl
@[simp] theorem State.tookFree_tow (s : State)  : (s.tookFree).tow = s.tow := rfl
@[simp] theorem State.tookFree_ports (s : State)  : (s.tookFree).ports = s.ports := rfl
@[simp] theorem State.tookFree_staging (s : State)  : (s.tookFree).staging = s.staging := rfl
@[simp] theorem State.tookFree_stageHolder (s : State)  : (s.tookFree).stageHolder = s.stageHolder := rfl
@[simp] theorem State.tookFree_live (s : State)  : (s.tookFree).live = s.live := rfl
@[simp] theorem State.tookFree_commits (s : State)  : (s.tookFree).commits = s.commits := rfl
@[simp] theorem State.tookFree_fenceStart (s : State)  : (s.tookFree).fenceStart = s.fenceStart := rfl
@[simp] theorem State.tookFree_crossings (s : State)  : (s.tookFree).crossings = s.crossings := rfl
@[simp] theorem State.tookFree_modes (s : State)  : (s.tookFree).modes = s.modes := rfl
@[simp] theorem State.tookFree_ledgers (s : State)  : (s.tookFree).ledgers = s.ledgers := rfl
@[simp] theorem State.tookFree_ingress (s : State)  : (s.tookFree).ingress = s.ingress := rfl
@[simp] theorem State.tookFree_waiting (s : State)  : (s.tookFree).waiting = s.waiting := rfl
@[simp] theorem State.tookFree_outstanding (s : State)  : (s.tookFree).outstanding = s.outstanding := rfl
@[simp] theorem State.tookFree_nextId (s : State)  : (s.tookFree).nextId = s.nextId := rfl
@[simp] theorem State.tookFree_device (s : State)  : (s.tookFree).device = s.device := rfl
@[simp] theorem State.tookFree_heldFailures (s : State)  : (s.tookFree).heldFailures = s.heldFailures := rfl
@[simp] theorem State.tookFree_streams (s : State)  : (s.tookFree).streams = s.streams := rfl
@[simp] theorem State.tookFree_flowLast (s : State)  : (s.tookFree).flowLast = s.flowLast := rfl
@[simp] theorem State.tookFree_writeLast (s : State)  : (s.tookFree).writeLast = s.writeLast := rfl
@[simp] theorem State.tookFree_lockWait (s : State)  : (s.tookFree).lockWait = s.lockWait := rfl
@[simp] theorem State.tookFree_portLocks (s : State)  : (s.tookFree).portLocks = s.portLocks := rfl
@[simp] theorem State.tookFree_planned (s : State)  : (s.tookFree).planned = s.planned := rfl
@[simp] theorem State.tookFree_bounds (s : State)  : (s.tookFree).bounds = s.bounds := rfl
@[simp] theorem State.tookFree_boundsSets (s : State)  : (s.tookFree).boundsSets = s.boundsSets := rfl
@[simp] theorem State.tookFree_postedCount (s : State)  : (s.tookFree).postedCount = s.postedCount := rfl
@[simp] theorem State.tookFree_requesters (s : State)  : (s.tookFree).requesters = s.requesters := rfl
@[simp] theorem State.tookFree_engines (s : State)  : (s.tookFree).engines = s.engines := rfl
@[simp] theorem State.tookFree_program (s : State)  : (s.tookFree).program = s.program := rfl
@[simp] theorem State.tookFree_dataMem (s : State)  : (s.tookFree).dataMem = s.dataMem := rfl
@[simp] theorem State.tookFree_links (s : State)  : (s.tookFree).links = s.links := rfl
@[simp] theorem State.tookFree_vlast (s : State)  : (s.tookFree).vlast = s.vlast := rfl
@[simp] theorem State.tookFree_ecc (s : State)  : (s.tookFree).ecc = s.ecc := rfl
@[simp] theorem State.tookFree_l1Exit (s : State)  : (s.tookFree).l1Exit = s.l1Exit := rfl
@[simp] theorem State.tookFree_announceDue (s : State)  : (s.tookFree).announceDue = s.announceDue := rfl
@[simp] theorem State.tookFree_gated (s : State)  : (s.tookFree).gated = s.gated := rfl
@[simp] theorem State.tookFree_woken (s : State)  : (s.tookFree).woken = s.woken := rfl
@[simp] theorem State.tookFree_devices (s : State)  : (s.tookFree).devices = s.devices := rfl
@[simp] theorem State.tookFree_hidden (s : State)  : (s.tookFree).hidden = s.hidden := rfl
@[simp] theorem State.tookFree_bindPu (s : State)  : (s.tookFree).bindPu = s.bindPu := rfl
@[simp] theorem State.tookFree_virt (s : State)  : (s.tookFree).virt = s.virt := rfl
@[simp] theorem State.tookFree_virtPorts (s : State)  : (s.tookFree).virtPorts = s.virtPorts := rfl
@[simp] theorem State.tookFree_deviceMps (s : State)  : (s.tookFree).deviceMps = s.deviceMps := rfl
@[simp] theorem State.tookFree_aer (s : State)  : (s.tookFree).aer = s.aer := rfl
@[simp] theorem State.tookFree_aerHeader (s : State)  : (s.tookFree).aerHeader = s.aerHeader := rfl
@[simp] theorem State.tookFree_intxLevel (s : State)  : (s.tookFree).intxLevel = s.intxLevel := rfl
@[simp] theorem State.tookFree_intxCount (s : State)  : (s.tookFree).intxCount = s.intxCount := rfl
@[simp] theorem State.tookFree_flr (s : State)  : (s.tookFree).flr = s.flr := rfl
@[simp] theorem State.tookFree_configJobs (s : State)  : (s.tookFree).configJobs = s.configJobs := rfl
@[simp] theorem State.tookFree_pmeOff (s : State)  : (s.tookFree).pmeOff = s.pmeOff := rfl
@[simp] theorem State.tookFree_rings (s : State)  : (s.tookFree).rings = s.rings := rfl
@[simp] theorem State.tookFree_beyond64 (s : State)  : (s.tookFree).beyond64 = s.beyond64 := rfl
@[simp] theorem State.tookFree_lanes (s : State)  : (s.tookFree).lanes = s.lanes := rfl
@[simp] theorem State.tookFree_time (s : State)  : (s.tookFree).time = s.time := rfl
@[simp] theorem State.tookFree_dpcSince (s : State)  : (s.tookFree).dpcSince = s.dpcSince := rfl
@[simp] theorem State.tookFree_doe (s : State)  : (s.tookFree).doe = s.doe := rfl
@[simp] theorem State.tookFree_doeOrder (s : State)  : (s.tookFree).doeOrder = s.doeOrder := rfl
@[simp] theorem State.tookFree_kickAt (s : State)  : (s.tookFree).kickAt = s.kickAt := rfl
@[simp] theorem State.tookFree_hosts (s : State)  : (s.tookFree).hosts = s.hosts := rfl
@[simp] theorem State.tookFree_bindSets (s : State)  : (s.tookFree).bindSets = s.bindSets := rfl
@[simp] theorem State.tookFree_powerSamples (s : State)  : (s.tookFree).powerSamples = s.powerSamples := rfl
@[simp] theorem State.tookFree_coolSince (s : State)  : (s.tookFree).coolSince = s.coolSince := rfl
@[simp] theorem State.tookFree_batchNo (s : State)  : (s.tookFree).batchNo = s.batchNo := rfl
@[simp] theorem State.tookFree_batchSize (s : State)  : (s.tookFree).batchSize = s.batchSize := rfl
@[simp] theorem State.tookFree_shadow (s : State)  : (s.tookFree).shadow = s.shadow := rfl
@[simp] theorem State.tookFree_stagedAt (s : State)  : (s.tookFree).stagedAt = s.stagedAt := rfl
@[simp] theorem State.tookFree_lockClass (s : State)  : (s.tookFree).lockClass = s.lockClass := rfl
@[simp] theorem State.tookFree_intxSent (s : State)  : (s.tookFree).intxSent = s.intxSent := rfl
@[simp] theorem State.tookFree_bankWrite (s : State)  : (s.tookFree).bankWrite = s.bankWrite := rfl
@[simp] theorem State.tookFree_keeperRun (s : State)  : (s.tookFree).keeperRun = s.keeperRun := rfl
@[simp] theorem State.tookFree_secSizes (s : State)  : (s.tookFree).secSizes = s.secSizes := rfl
@[simp] theorem State.tookFree_l0pPartners (s : State)  : (s.tookFree).l0pPartners = s.l0pPartners := rfl
@[simp] theorem State.tookFree_pulses (s : State)  : (s.tookFree).pulses = s.pulses := rfl
@[simp] theorem State.tookFree_slotsUsed (s : State)  : (s.tookFree).slotsUsed = s.slotsUsed := rfl

@[simp] theorem State.originate_pending (s : State) (p : Packet) : (s.originate p).pending = s.pending := rfl
@[simp] theorem State.originate_chip (s : State) (p : Packet) : (s.originate p).chip = s.chip := rfl
@[simp] theorem State.originate_regs (s : State) (p : Packet) : (s.originate p).regs = s.regs := rfl
@[simp] theorem State.originate_cycles (s : State) (p : Packet) : (s.originate p).cycles = s.cycles := rfl
@[simp] theorem State.originate_adjust (s : State) (p : Packet) : (s.originate p).adjust = s.adjust := rfl
@[simp] theorem State.originate_freeCount (s : State) (p : Packet) : (s.originate p).freeCount = s.freeCount := rfl
@[simp] theorem State.originate_actions (s : State) (p : Packet) : (s.originate p).actions = s.actions := rfl
@[simp] theorem State.originate_out (s : State) (p : Packet) : (s.originate p).out = s.out := rfl
@[simp] theorem State.originate_fuses (s : State) (p : Packet) : (s.originate p).fuses = s.fuses := rfl
@[simp] theorem State.originate_sealed (s : State) (p : Packet) : (s.originate p).sealed = s.sealed := rfl
@[simp] theorem State.originate_sealRequests (s : State) (p : Packet) : (s.originate p).sealRequests = s.sealRequests := rfl
@[simp] theorem State.originate_nvs (s : State) (p : Packet) : (s.originate p).nvs = s.nvs := rfl
@[simp] theorem State.originate_dir (s : State) (p : Packet) : (s.originate p).dir = s.dir := rfl
@[simp] theorem State.originate_staged (s : State) (p : Packet) : (s.originate p).staged = s.staged := rfl
@[simp] theorem State.originate_loading (s : State) (p : Packet) : (s.originate p).loading = s.loading := rfl
@[simp] theorem State.originate_loadOrder (s : State) (p : Packet) : (s.originate p).loadOrder = s.loadOrder := rfl
@[simp] theorem State.originate_reload (s : State) (p : Packet) : (s.originate p).reload = s.reload := rfl
@[simp] theorem State.originate_slotWrite (s : State) (p : Packet) : (s.originate p).slotWrite = s.slotWrite := rfl
@[simp] theorem State.originate_nvsOp (s : State) (p : Packet) : (s.originate p).nvsOp = s.nvsOp := rfl
@[simp] theorem State.originate_cfg (s : State) (p : Packet) : (s.originate p).cfg = s.cfg := rfl
@[simp] theorem State.originate_mr (s : State) (p : Packet) : (s.originate p).mr = s.mr := rfl
@[simp] theorem State.originate_queues (s : State) (p : Packet) : (s.originate p).queues = s.queues := rfl
@[simp] theorem State.originate_records (s : State) (p : Packet) : (s.originate p).records = s.records := rfl
@[simp] theorem State.originate_tow (s : State) (p : Packet) : (s.originate p).tow = s.tow := rfl
@[simp] theorem State.originate_ports (s : State) (p : Packet) : (s.originate p).ports = s.ports := rfl
@[simp] theorem State.originate_staging (s : State) (p : Packet) : (s.originate p).staging = s.staging := rfl
@[simp] theorem State.originate_stageHolder (s : State) (p : Packet) : (s.originate p).stageHolder = s.stageHolder := rfl
@[simp] theorem State.originate_live (s : State) (p : Packet) : (s.originate p).live = s.live := rfl
@[simp] theorem State.originate_commits (s : State) (p : Packet) : (s.originate p).commits = s.commits := rfl
@[simp] theorem State.originate_fenceStart (s : State) (p : Packet) : (s.originate p).fenceStart = s.fenceStart := rfl
@[simp] theorem State.originate_crossings (s : State) (p : Packet) : (s.originate p).crossings = s.crossings := rfl
@[simp] theorem State.originate_modes (s : State) (p : Packet) : (s.originate p).modes = s.modes := rfl
@[simp] theorem State.originate_ledgers (s : State) (p : Packet) : (s.originate p).ledgers = s.ledgers := rfl
@[simp] theorem State.originate_ingress (s : State) (p : Packet) : (s.originate p).ingress = s.ingress := rfl
@[simp] theorem State.originate_waiting (s : State) (p : Packet) : (s.originate p).waiting = s.waiting := rfl
@[simp] theorem State.originate_outstanding (s : State) (p : Packet) : (s.originate p).outstanding = s.outstanding := rfl
@[simp] theorem State.originate_nextId (s : State) (p : Packet) : (s.originate p).nextId = s.nextId := rfl
@[simp] theorem State.originate_device (s : State) (p : Packet) : (s.originate p).device = s.device := rfl
@[simp] theorem State.originate_heldFailures (s : State) (p : Packet) : (s.originate p).heldFailures = s.heldFailures := rfl
@[simp] theorem State.originate_streams (s : State) (p : Packet) : (s.originate p).streams = s.streams := rfl
@[simp] theorem State.originate_flowLast (s : State) (p : Packet) : (s.originate p).flowLast = s.flowLast := rfl
@[simp] theorem State.originate_writeLast (s : State) (p : Packet) : (s.originate p).writeLast = s.writeLast := rfl
@[simp] theorem State.originate_lockWait (s : State) (p : Packet) : (s.originate p).lockWait = s.lockWait := rfl
@[simp] theorem State.originate_portLocks (s : State) (p : Packet) : (s.originate p).portLocks = s.portLocks := rfl
@[simp] theorem State.originate_planned (s : State) (p : Packet) : (s.originate p).planned = s.planned := rfl
@[simp] theorem State.originate_bounds (s : State) (p : Packet) : (s.originate p).bounds = s.bounds := rfl
@[simp] theorem State.originate_boundsSets (s : State) (p : Packet) : (s.originate p).boundsSets = s.boundsSets := rfl
@[simp] theorem State.originate_postedCount (s : State) (p : Packet) : (s.originate p).postedCount = s.postedCount := rfl
@[simp] theorem State.originate_requesters (s : State) (p : Packet) : (s.originate p).requesters = s.requesters := rfl
@[simp] theorem State.originate_engines (s : State) (p : Packet) : (s.originate p).engines = s.engines := rfl
@[simp] theorem State.originate_program (s : State) (p : Packet) : (s.originate p).program = s.program := rfl
@[simp] theorem State.originate_dataMem (s : State) (p : Packet) : (s.originate p).dataMem = s.dataMem := rfl
@[simp] theorem State.originate_links (s : State) (p : Packet) : (s.originate p).links = s.links := rfl
@[simp] theorem State.originate_vlast (s : State) (p : Packet) : (s.originate p).vlast = s.vlast := rfl
@[simp] theorem State.originate_ecc (s : State) (p : Packet) : (s.originate p).ecc = s.ecc := rfl
@[simp] theorem State.originate_l1Exit (s : State) (p : Packet) : (s.originate p).l1Exit = s.l1Exit := rfl
@[simp] theorem State.originate_announceDue (s : State) (p : Packet) : (s.originate p).announceDue = s.announceDue := rfl
@[simp] theorem State.originate_gated (s : State) (p : Packet) : (s.originate p).gated = s.gated := rfl
@[simp] theorem State.originate_woken (s : State) (p : Packet) : (s.originate p).woken = s.woken := rfl
@[simp] theorem State.originate_devices (s : State) (p : Packet) : (s.originate p).devices = s.devices := rfl
@[simp] theorem State.originate_hidden (s : State) (p : Packet) : (s.originate p).hidden = s.hidden := rfl
@[simp] theorem State.originate_bindPu (s : State) (p : Packet) : (s.originate p).bindPu = s.bindPu := rfl
@[simp] theorem State.originate_virt (s : State) (p : Packet) : (s.originate p).virt = s.virt := rfl
@[simp] theorem State.originate_virtPorts (s : State) (p : Packet) : (s.originate p).virtPorts = s.virtPorts := rfl
@[simp] theorem State.originate_deviceMps (s : State) (p : Packet) : (s.originate p).deviceMps = s.deviceMps := rfl
@[simp] theorem State.originate_aer (s : State) (p : Packet) : (s.originate p).aer = s.aer := rfl
@[simp] theorem State.originate_aerHeader (s : State) (p : Packet) : (s.originate p).aerHeader = s.aerHeader := rfl
@[simp] theorem State.originate_intxLevel (s : State) (p : Packet) : (s.originate p).intxLevel = s.intxLevel := rfl
@[simp] theorem State.originate_intxCount (s : State) (p : Packet) : (s.originate p).intxCount = s.intxCount := rfl
@[simp] theorem State.originate_flr (s : State) (p : Packet) : (s.originate p).flr = s.flr := rfl
@[simp] theorem State.originate_configJobs (s : State) (p : Packet) : (s.originate p).configJobs = s.configJobs := rfl
@[simp] theorem State.originate_pmeOff (s : State) (p : Packet) : (s.originate p).pmeOff = s.pmeOff := rfl
@[simp] theorem State.originate_rings (s : State) (p : Packet) : (s.originate p).rings = s.rings := rfl
@[simp] theorem State.originate_beyond64 (s : State) (p : Packet) : (s.originate p).beyond64 = s.beyond64 := rfl
@[simp] theorem State.originate_lanes (s : State) (p : Packet) : (s.originate p).lanes = s.lanes := rfl
@[simp] theorem State.originate_time (s : State) (p : Packet) : (s.originate p).time = s.time := rfl
@[simp] theorem State.originate_dpcSince (s : State) (p : Packet) : (s.originate p).dpcSince = s.dpcSince := rfl
@[simp] theorem State.originate_doe (s : State) (p : Packet) : (s.originate p).doe = s.doe := rfl
@[simp] theorem State.originate_doeOrder (s : State) (p : Packet) : (s.originate p).doeOrder = s.doeOrder := rfl
@[simp] theorem State.originate_kickAt (s : State) (p : Packet) : (s.originate p).kickAt = s.kickAt := rfl
@[simp] theorem State.originate_hosts (s : State) (p : Packet) : (s.originate p).hosts = s.hosts := rfl
@[simp] theorem State.originate_bindSets (s : State) (p : Packet) : (s.originate p).bindSets = s.bindSets := rfl
@[simp] theorem State.originate_powerSamples (s : State) (p : Packet) : (s.originate p).powerSamples = s.powerSamples := rfl
@[simp] theorem State.originate_coolSince (s : State) (p : Packet) : (s.originate p).coolSince = s.coolSince := rfl
@[simp] theorem State.originate_batchNo (s : State) (p : Packet) : (s.originate p).batchNo = s.batchNo := rfl
@[simp] theorem State.originate_batchSize (s : State) (p : Packet) : (s.originate p).batchSize = s.batchSize := rfl
@[simp] theorem State.originate_shadow (s : State) (p : Packet) : (s.originate p).shadow = s.shadow := rfl
@[simp] theorem State.originate_stagedAt (s : State) (p : Packet) : (s.originate p).stagedAt = s.stagedAt := rfl
@[simp] theorem State.originate_lockClass (s : State) (p : Packet) : (s.originate p).lockClass = s.lockClass := rfl
@[simp] theorem State.originate_intxSent (s : State) (p : Packet) : (s.originate p).intxSent = s.intxSent := rfl
@[simp] theorem State.originate_bankWrite (s : State) (p : Packet) : (s.originate p).bankWrite = s.bankWrite := rfl
@[simp] theorem State.originate_keeperRun (s : State) (p : Packet) : (s.originate p).keeperRun = s.keeperRun := rfl
@[simp] theorem State.originate_secSizes (s : State) (p : Packet) : (s.originate p).secSizes = s.secSizes := rfl
@[simp] theorem State.originate_l0pPartners (s : State) (p : Packet) : (s.originate p).l0pPartners = s.l0pPartners := rfl
@[simp] theorem State.originate_pulses (s : State) (p : Packet) : (s.originate p).pulses = s.pulses := rfl
@[simp] theorem State.originate_slotsUsed (s : State) (p : Packet) : (s.originate p).slotsUsed = s.slotsUsed := rfl

@[simp] theorem State.setQueue_pending (s : State) (k : QueueId) (q : LossyQueue) : (s.setQueue k q).pending = s.pending := rfl
@[simp] theorem State.setQueue_chip (s : State) (k : QueueId) (q : LossyQueue) : (s.setQueue k q).chip = s.chip := rfl
@[simp] theorem State.setQueue_regs (s : State) (k : QueueId) (q : LossyQueue) : (s.setQueue k q).regs = s.regs := rfl
@[simp] theorem State.setQueue_cycles (s : State) (k : QueueId) (q : LossyQueue) : (s.setQueue k q).cycles = s.cycles := rfl
@[simp] theorem State.setQueue_adjust (s : State) (k : QueueId) (q : LossyQueue) : (s.setQueue k q).adjust = s.adjust := rfl
@[simp] theorem State.setQueue_freeCount (s : State) (k : QueueId) (q : LossyQueue) : (s.setQueue k q).freeCount = s.freeCount := rfl
@[simp] theorem State.setQueue_actions (s : State) (k : QueueId) (q : LossyQueue) : (s.setQueue k q).actions = s.actions := rfl
@[simp] theorem State.setQueue_out (s : State) (k : QueueId) (q : LossyQueue) : (s.setQueue k q).out = s.out := rfl
@[simp] theorem State.setQueue_outbox (s : State) (k : QueueId) (q : LossyQueue) : (s.setQueue k q).outbox = s.outbox := rfl
@[simp] theorem State.setQueue_fuses (s : State) (k : QueueId) (q : LossyQueue) : (s.setQueue k q).fuses = s.fuses := rfl
@[simp] theorem State.setQueue_sealed (s : State) (k : QueueId) (q : LossyQueue) : (s.setQueue k q).sealed = s.sealed := rfl
@[simp] theorem State.setQueue_sealRequests (s : State) (k : QueueId) (q : LossyQueue) : (s.setQueue k q).sealRequests = s.sealRequests := rfl
@[simp] theorem State.setQueue_nvs (s : State) (k : QueueId) (q : LossyQueue) : (s.setQueue k q).nvs = s.nvs := rfl
@[simp] theorem State.setQueue_dir (s : State) (k : QueueId) (q : LossyQueue) : (s.setQueue k q).dir = s.dir := rfl
@[simp] theorem State.setQueue_staged (s : State) (k : QueueId) (q : LossyQueue) : (s.setQueue k q).staged = s.staged := rfl
@[simp] theorem State.setQueue_loading (s : State) (k : QueueId) (q : LossyQueue) : (s.setQueue k q).loading = s.loading := rfl
@[simp] theorem State.setQueue_loadOrder (s : State) (k : QueueId) (q : LossyQueue) : (s.setQueue k q).loadOrder = s.loadOrder := rfl
@[simp] theorem State.setQueue_reload (s : State) (k : QueueId) (q : LossyQueue) : (s.setQueue k q).reload = s.reload := rfl
@[simp] theorem State.setQueue_slotWrite (s : State) (k : QueueId) (q : LossyQueue) : (s.setQueue k q).slotWrite = s.slotWrite := rfl
@[simp] theorem State.setQueue_nvsOp (s : State) (k : QueueId) (q : LossyQueue) : (s.setQueue k q).nvsOp = s.nvsOp := rfl
@[simp] theorem State.setQueue_cfg (s : State) (k : QueueId) (q : LossyQueue) : (s.setQueue k q).cfg = s.cfg := rfl
@[simp] theorem State.setQueue_mr (s : State) (k : QueueId) (q : LossyQueue) : (s.setQueue k q).mr = s.mr := rfl
@[simp] theorem State.setQueue_records (s : State) (k : QueueId) (q : LossyQueue) : (s.setQueue k q).records = s.records := rfl
@[simp] theorem State.setQueue_tow (s : State) (k : QueueId) (q : LossyQueue) : (s.setQueue k q).tow = s.tow := rfl
@[simp] theorem State.setQueue_ports (s : State) (k : QueueId) (q : LossyQueue) : (s.setQueue k q).ports = s.ports := rfl
@[simp] theorem State.setQueue_staging (s : State) (k : QueueId) (q : LossyQueue) : (s.setQueue k q).staging = s.staging := rfl
@[simp] theorem State.setQueue_stageHolder (s : State) (k : QueueId) (q : LossyQueue) : (s.setQueue k q).stageHolder = s.stageHolder := rfl
@[simp] theorem State.setQueue_live (s : State) (k : QueueId) (q : LossyQueue) : (s.setQueue k q).live = s.live := rfl
@[simp] theorem State.setQueue_commits (s : State) (k : QueueId) (q : LossyQueue) : (s.setQueue k q).commits = s.commits := rfl
@[simp] theorem State.setQueue_fenceStart (s : State) (k : QueueId) (q : LossyQueue) : (s.setQueue k q).fenceStart = s.fenceStart := rfl
@[simp] theorem State.setQueue_crossings (s : State) (k : QueueId) (q : LossyQueue) : (s.setQueue k q).crossings = s.crossings := rfl
@[simp] theorem State.setQueue_modes (s : State) (k : QueueId) (q : LossyQueue) : (s.setQueue k q).modes = s.modes := rfl
@[simp] theorem State.setQueue_ledgers (s : State) (k : QueueId) (q : LossyQueue) : (s.setQueue k q).ledgers = s.ledgers := rfl
@[simp] theorem State.setQueue_ingress (s : State) (k : QueueId) (q : LossyQueue) : (s.setQueue k q).ingress = s.ingress := rfl
@[simp] theorem State.setQueue_waiting (s : State) (k : QueueId) (q : LossyQueue) : (s.setQueue k q).waiting = s.waiting := rfl
@[simp] theorem State.setQueue_outstanding (s : State) (k : QueueId) (q : LossyQueue) : (s.setQueue k q).outstanding = s.outstanding := rfl
@[simp] theorem State.setQueue_nextId (s : State) (k : QueueId) (q : LossyQueue) : (s.setQueue k q).nextId = s.nextId := rfl
@[simp] theorem State.setQueue_device (s : State) (k : QueueId) (q : LossyQueue) : (s.setQueue k q).device = s.device := rfl
@[simp] theorem State.setQueue_heldFailures (s : State) (k : QueueId) (q : LossyQueue) : (s.setQueue k q).heldFailures = s.heldFailures := rfl
@[simp] theorem State.setQueue_streams (s : State) (k : QueueId) (q : LossyQueue) : (s.setQueue k q).streams = s.streams := rfl
@[simp] theorem State.setQueue_flowLast (s : State) (k : QueueId) (q : LossyQueue) : (s.setQueue k q).flowLast = s.flowLast := rfl
@[simp] theorem State.setQueue_writeLast (s : State) (k : QueueId) (q : LossyQueue) : (s.setQueue k q).writeLast = s.writeLast := rfl
@[simp] theorem State.setQueue_lockWait (s : State) (k : QueueId) (q : LossyQueue) : (s.setQueue k q).lockWait = s.lockWait := rfl
@[simp] theorem State.setQueue_portLocks (s : State) (k : QueueId) (q : LossyQueue) : (s.setQueue k q).portLocks = s.portLocks := rfl
@[simp] theorem State.setQueue_planned (s : State) (k : QueueId) (q : LossyQueue) : (s.setQueue k q).planned = s.planned := rfl
@[simp] theorem State.setQueue_bounds (s : State) (k : QueueId) (q : LossyQueue) : (s.setQueue k q).bounds = s.bounds := rfl
@[simp] theorem State.setQueue_boundsSets (s : State) (k : QueueId) (q : LossyQueue) : (s.setQueue k q).boundsSets = s.boundsSets := rfl
@[simp] theorem State.setQueue_postedCount (s : State) (k : QueueId) (q : LossyQueue) : (s.setQueue k q).postedCount = s.postedCount := rfl
@[simp] theorem State.setQueue_requesters (s : State) (k : QueueId) (q : LossyQueue) : (s.setQueue k q).requesters = s.requesters := rfl
@[simp] theorem State.setQueue_engines (s : State) (k : QueueId) (q : LossyQueue) : (s.setQueue k q).engines = s.engines := rfl
@[simp] theorem State.setQueue_program (s : State) (k : QueueId) (q : LossyQueue) : (s.setQueue k q).program = s.program := rfl
@[simp] theorem State.setQueue_dataMem (s : State) (k : QueueId) (q : LossyQueue) : (s.setQueue k q).dataMem = s.dataMem := rfl
@[simp] theorem State.setQueue_links (s : State) (k : QueueId) (q : LossyQueue) : (s.setQueue k q).links = s.links := rfl
@[simp] theorem State.setQueue_vlast (s : State) (k : QueueId) (q : LossyQueue) : (s.setQueue k q).vlast = s.vlast := rfl
@[simp] theorem State.setQueue_ecc (s : State) (k : QueueId) (q : LossyQueue) : (s.setQueue k q).ecc = s.ecc := rfl
@[simp] theorem State.setQueue_l1Exit (s : State) (k : QueueId) (q : LossyQueue) : (s.setQueue k q).l1Exit = s.l1Exit := rfl
@[simp] theorem State.setQueue_announceDue (s : State) (k : QueueId) (q : LossyQueue) : (s.setQueue k q).announceDue = s.announceDue := rfl
@[simp] theorem State.setQueue_gated (s : State) (k : QueueId) (q : LossyQueue) : (s.setQueue k q).gated = s.gated := rfl
@[simp] theorem State.setQueue_woken (s : State) (k : QueueId) (q : LossyQueue) : (s.setQueue k q).woken = s.woken := rfl
@[simp] theorem State.setQueue_devices (s : State) (k : QueueId) (q : LossyQueue) : (s.setQueue k q).devices = s.devices := rfl
@[simp] theorem State.setQueue_hidden (s : State) (k : QueueId) (q : LossyQueue) : (s.setQueue k q).hidden = s.hidden := rfl
@[simp] theorem State.setQueue_bindPu (s : State) (k : QueueId) (q : LossyQueue) : (s.setQueue k q).bindPu = s.bindPu := rfl
@[simp] theorem State.setQueue_virt (s : State) (k : QueueId) (q : LossyQueue) : (s.setQueue k q).virt = s.virt := rfl
@[simp] theorem State.setQueue_virtPorts (s : State) (k : QueueId) (q : LossyQueue) : (s.setQueue k q).virtPorts = s.virtPorts := rfl
@[simp] theorem State.setQueue_deviceMps (s : State) (k : QueueId) (q : LossyQueue) : (s.setQueue k q).deviceMps = s.deviceMps := rfl
@[simp] theorem State.setQueue_aer (s : State) (k : QueueId) (q : LossyQueue) : (s.setQueue k q).aer = s.aer := rfl
@[simp] theorem State.setQueue_aerHeader (s : State) (k : QueueId) (q : LossyQueue) : (s.setQueue k q).aerHeader = s.aerHeader := rfl
@[simp] theorem State.setQueue_intxLevel (s : State) (k : QueueId) (q : LossyQueue) : (s.setQueue k q).intxLevel = s.intxLevel := rfl
@[simp] theorem State.setQueue_intxCount (s : State) (k : QueueId) (q : LossyQueue) : (s.setQueue k q).intxCount = s.intxCount := rfl
@[simp] theorem State.setQueue_flr (s : State) (k : QueueId) (q : LossyQueue) : (s.setQueue k q).flr = s.flr := rfl
@[simp] theorem State.setQueue_configJobs (s : State) (k : QueueId) (q : LossyQueue) : (s.setQueue k q).configJobs = s.configJobs := rfl
@[simp] theorem State.setQueue_pmeOff (s : State) (k : QueueId) (q : LossyQueue) : (s.setQueue k q).pmeOff = s.pmeOff := rfl
@[simp] theorem State.setQueue_rings (s : State) (k : QueueId) (q : LossyQueue) : (s.setQueue k q).rings = s.rings := rfl
@[simp] theorem State.setQueue_beyond64 (s : State) (k : QueueId) (q : LossyQueue) : (s.setQueue k q).beyond64 = s.beyond64 := rfl
@[simp] theorem State.setQueue_lanes (s : State) (k : QueueId) (q : LossyQueue) : (s.setQueue k q).lanes = s.lanes := rfl
@[simp] theorem State.setQueue_time (s : State) (k : QueueId) (q : LossyQueue) : (s.setQueue k q).time = s.time := rfl
@[simp] theorem State.setQueue_dpcSince (s : State) (k : QueueId) (q : LossyQueue) : (s.setQueue k q).dpcSince = s.dpcSince := rfl
@[simp] theorem State.setQueue_doe (s : State) (k : QueueId) (q : LossyQueue) : (s.setQueue k q).doe = s.doe := rfl
@[simp] theorem State.setQueue_doeOrder (s : State) (k : QueueId) (q : LossyQueue) : (s.setQueue k q).doeOrder = s.doeOrder := rfl
@[simp] theorem State.setQueue_kickAt (s : State) (k : QueueId) (q : LossyQueue) : (s.setQueue k q).kickAt = s.kickAt := rfl
@[simp] theorem State.setQueue_hosts (s : State) (k : QueueId) (q : LossyQueue) : (s.setQueue k q).hosts = s.hosts := rfl
@[simp] theorem State.setQueue_bindSets (s : State) (k : QueueId) (q : LossyQueue) : (s.setQueue k q).bindSets = s.bindSets := rfl
@[simp] theorem State.setQueue_powerSamples (s : State) (k : QueueId) (q : LossyQueue) : (s.setQueue k q).powerSamples = s.powerSamples := rfl
@[simp] theorem State.setQueue_coolSince (s : State) (k : QueueId) (q : LossyQueue) : (s.setQueue k q).coolSince = s.coolSince := rfl
@[simp] theorem State.setQueue_batchNo (s : State) (k : QueueId) (q : LossyQueue) : (s.setQueue k q).batchNo = s.batchNo := rfl
@[simp] theorem State.setQueue_batchSize (s : State) (k : QueueId) (q : LossyQueue) : (s.setQueue k q).batchSize = s.batchSize := rfl
@[simp] theorem State.setQueue_shadow (s : State) (k : QueueId) (q : LossyQueue) : (s.setQueue k q).shadow = s.shadow := rfl
@[simp] theorem State.setQueue_stagedAt (s : State) (k : QueueId) (q : LossyQueue) : (s.setQueue k q).stagedAt = s.stagedAt := rfl
@[simp] theorem State.setQueue_lockClass (s : State) (k : QueueId) (q : LossyQueue) : (s.setQueue k q).lockClass = s.lockClass := rfl
@[simp] theorem State.setQueue_intxSent (s : State) (k : QueueId) (q : LossyQueue) : (s.setQueue k q).intxSent = s.intxSent := rfl
@[simp] theorem State.setQueue_bankWrite (s : State) (k : QueueId) (q : LossyQueue) : (s.setQueue k q).bankWrite = s.bankWrite := rfl
@[simp] theorem State.setQueue_keeperRun (s : State) (k : QueueId) (q : LossyQueue) : (s.setQueue k q).keeperRun = s.keeperRun := rfl
@[simp] theorem State.setQueue_secSizes (s : State) (k : QueueId) (q : LossyQueue) : (s.setQueue k q).secSizes = s.secSizes := rfl
@[simp] theorem State.setQueue_l0pPartners (s : State) (k : QueueId) (q : LossyQueue) : (s.setQueue k q).l0pPartners = s.l0pPartners := rfl
@[simp] theorem State.setQueue_pulses (s : State) (k : QueueId) (q : LossyQueue) : (s.setQueue k q).pulses = s.pulses := rfl
@[simp] theorem State.setQueue_slotsUsed (s : State) (k : QueueId) (q : LossyQueue) : (s.setQueue k q).slotsUsed = s.slotsUsed := rfl
@[simp] theorem State.emit_rd (s : State) (o : Output) (x : Nat) : (s.emit o).rd x = s.rd x := rfl
@[simp] theorem State.emit_get (s : State) (o : Output) (x : FieldRef) : (s.emit o).get x = s.get x := rfl
@[simp] theorem State.tookFree_rd (s : State)  (x : Nat) : (s.tookFree).rd x = s.rd x := rfl
@[simp] theorem State.tookFree_get (s : State)  (x : FieldRef) : (s.tookFree).get x = s.get x := rfl
@[simp] theorem State.originate_rd (s : State) (p : Packet) (x : Nat) : (s.originate p).rd x = s.rd x := rfl
@[simp] theorem State.originate_get (s : State) (p : Packet) (x : FieldRef) : (s.originate p).get x = s.get x := rfl
@[simp] theorem State.setQueue_rd (s : State) (k : QueueId) (q : LossyQueue) (x : Nat) : (s.setQueue k q).rd x = s.rd x := rfl
@[simp] theorem State.setQueue_get (s : State) (k : QueueId) (q : LossyQueue) (x : FieldRef) : (s.setQueue k q).get x = s.get x := rfl

end Sys2Proof.Machine
end

