-- ==== Sys2Proof/Laws/Touch.lean ====
section
/-! SUPPORT. What an operation leaves alone: `touch m s t` says that t differs from s at most in the parts of the state whose bits m has. Bits 0 to 95
stand for the fields of State other than the registers, in their order; bits 100 to 209 for the registers of chapter 17 and the others, in the order
of Machine/Regs.lean. -/

namespace Sys2Proof.Machine

/-- The offset a belongs to a register that m has. -/
def touched (m a : Nat) : Prop :=
  (m.testBit 100 = true ∧ a = PKG_ID.addr) ∨
  (m.testBit 101 = true ∧ a = PKG_SERIAL.addr) ∨
  (m.testBit 102 = true ∧ a = PKG_LEAD.addr) ∨
  (m.testBit 103 = true ∧ a = PKG_MODE.addr) ∨
  (m.testBit 104 = true ∧ a = PKG_MODE_CTL.addr) ∨
  (m.testBit 105 = true ∧ a = PKG_FW.addr) ∨
  (m.testBit 106 = true ∧ a = PKG_BOUND.addr) ∨
  (m.testBit 107 = true ∧ a = PKG_LOCK.addr) ∨
  (m.testBit 108 = true ∧ a = PKG_FENCE_CL.addr) ∨
  (m.testBit 109 = true ∧ a = PKG_FENCE_RG.addr) ∨
  (m.testBit 110 = true ∧ a = TOLL_FENCE.addr) ∨
  (m.testBit 111 = true ∧ a = PKG_EVT_INJECT.addr) ∨
  (m.testBit 112 = true ∧ a = PKG_XSTAT.addr) ∨
  (m.testBit 113 = true ∧ a = PKG_SCOPE_RESET.addr) ∨
  (m.testBit 114 = true ∧ a = PKG_SBS_CTL.addr) ∨
  (m.testBit 115 = true ∧ a = PKG_SBS_STATUS.addr) ∨
  (m.testBit 116 = true ∧ a = PKG_NVS_CTL.addr) ∨
  (m.testBit 117 = true ∧ ∃ k, a = PKG_NVS_DATA.addr k) ∨
  (m.testBit 118 = true ∧ a = SEAL_CTL.addr) ∨
  (m.testBit 119 = true ∧ a = SEAL_REMAIN.addr) ∨
  (m.testBit 120 = true ∧ ∃ n, a = SEM.addr n) ∨
  (m.testBit 121 = true ∧ ∃ n, a = PKG_CP_STATE.addr n) ∨
  (m.testBit 122 = true ∧ ∃ n, a = PKG_CP_IBA_CTL.addr n) ∨
  (m.testBit 123 = true ∧ ∃ n, a = PKG_CP_IBA_STAT.addr n) ∨
  (m.testBit 124 = true ∧ ∃ n, a = PKG_CP_IBA_DATA.addr n) ∨
  (m.testBit 125 = true ∧ ∃ n, a = PKG_CP_EVOFFERED.addr n) ∨
  (m.testBit 126 = true ∧ ∃ n, a = PKG_CP_EVDROPPED.addr n) ∨
  (m.testBit 127 = true ∧ ∃ n k, a = PKG_CP_EVQ.addr n k) ∨
  (m.testBit 128 = true ∧ a = PKG_MGT_ACCEPT.addr) ∨
  (m.testBit 129 = true ∧ a = PKG_MGT_PRIV.addr) ∨
  (m.testBit 130 = true ∧ a = PKG_MGT_STAT.addr) ∨
  (m.testBit 131 = true ∧ a = PKG_MEAS_CTL.addr) ∨
  (m.testBit 132 = true ∧ ∃ k, a = PKG_MEAS_D.addr k) ∨
  (m.testBit 133 = true ∧ ∃ k, a = PKG_MEAS_X.addr k) ∨
  (m.testBit 134 = true ∧ ∃ d, a = DIE_TIME.addr d) ∨
  (m.testBit 135 = true ∧ ∃ d, a = DIE_PWR.addr d) ∨
  (m.testBit 136 = true ∧ ∃ d, a = DIE_THERM.addr d) ∨
  (m.testBit 137 = true ∧ ∃ k, a = DIE_KEEPER_WDT.addr k) ∨
  (m.testBit 138 = true ∧ ∃ d, a = DIE_RECON.addr d) ∨
  (m.testBit 139 = true ∧ ∃ d, a = DIE_RECON_CTL.addr d) ∨
  (m.testBit 140 = true ∧ ∃ d, a = DIE_XSTAT.addr d) ∨
  (m.testBit 141 = true ∧ ∃ d, a = DIE_XDISCARD.addr d) ∨
  (m.testBit 142 = true ∧ ∃ d, a = DIE_TALLY_SEL.addr d) ∨
  (m.testBit 143 = true ∧ ∃ d, a = DIE_TALLY_A.addr d) ∨
  (m.testBit 144 = true ∧ ∃ d, a = DIE_TALLY_B.addr d) ∨
  (m.testBit 145 = true ∧ ∃ d, a = DIE_TALLY_C.addr d) ∨
  (m.testBit 146 = true ∧ ∃ d, a = DIE_TALLY_D.addr d) ∨
  (m.testBit 147 = true ∧ ∃ d, a = DIE_TALLY_E.addr d) ∨
  (m.testBit 148 = true ∧ ∃ d, a = DIE_EVT_INJECT.addr d) ∨
  (m.testBit 149 = true ∧ ∃ d, a = TOLL_CTL.addr d) ∨
  (m.testBit 150 = true ∧ ∃ d, a = TOLL_VIOL.addr d) ∨
  (m.testBit 151 = true ∧ ∃ d k, a = TOLL_VFIRST.addr d k) ∨
  (m.testBit 152 = true ∧ ∃ d k, a = TOLL_VLAST.addr d k) ∨
  (m.testBit 153 = true ∧ ∃ d, a = PMON_GATHER.addr d) ∨
  (m.testBit 154 = true ∧ ∃ d, a = PMON_DIE_HI.addr d) ∨
  (m.testBit 155 = true ∧ ∃ d, a = PMON_TQ_OFFERED.addr d) ∨
  (m.testBit 156 = true ∧ ∃ d, a = PMON_TQ_DROPPED.addr d) ∨
  (m.testBit 157 = true ∧ ∃ d k, a = EVT_LATCH.addr d k) ∨
  (m.testBit 158 = true ∧ ∃ d q, a = EVT_XQ_OFFERED.addr d q) ∨
  (m.testBit 159 = true ∧ ∃ d q, a = EVT_XQ_DROPPED.addr d q) ∨
  (m.testBit 160 = true ∧ ∃ d p k, a = EVT_PQ.addr d p k) ∨
  (m.testBit 161 = true ∧ ∃ d p, a = EVT_PQ_OFFERED.addr d p) ∨
  (m.testBit 162 = true ∧ ∃ d p, a = EVT_PQ_DROPPED.addr d p) ∨
  (m.testBit 163 = true ∧ ∃ d n, a = PMON_DIE_SEL.addr d n) ∨
  (m.testBit 164 = true ∧ ∃ d n, a = PMON_DIE_CTR.addr d n) ∨
  (m.testBit 165 = true ∧ ∃ d i k, a = TOLL.addr d i k) ∨
  (m.testBit 166 = true ∧ ∃ c, a = CL_XSTAT.addr c) ∨
  (m.testBit 167 = true ∧ ∃ c n, a = CL_XERR.addr c n) ∨
  (m.testBit 168 = true ∧ ∃ c, a = CL_TALLY_SEL.addr c) ∨
  (m.testBit 169 = true ∧ ∃ c, a = CL_TALLY_A.addr c) ∨
  (m.testBit 170 = true ∧ ∃ c, a = CL_TALLY_B.addr c) ∨
  (m.testBit 171 = true ∧ ∃ c, a = CL_TALLY_C.addr c) ∨
  (m.testBit 172 = true ∧ ∃ c, a = CL_TALLY_D.addr c) ∨
  (m.testBit 173 = true ∧ ∃ c, a = CL_TALLY_E.addr c) ∨
  (m.testBit 174 = true ∧ ∃ c, a = CL_WCON_CTL.addr c) ∨
  (m.testBit 175 = true ∧ ∃ c, a = WIN_TRACK.addr c) ∨
  (m.testBit 176 = true ∧ ∃ c, a = PMON_CL_CTL.addr c) ∨
  (m.testBit 177 = true ∧ ∃ c, a = PMON_CL_HI.addr c) ∨
  (m.testBit 178 = true ∧ ∃ c n, a = CL_WCON_MAP.addr c n) ∨
  (m.testBit 179 = true ∧ ∃ l, a = LN_STATE.addr l) ∨
  (m.testBit 180 = true ∧ ∃ l, a = LN_QUAL.addr l) ∨
  (m.testBit 181 = true ∧ ∃ l, a = LN_EYE.addr l) ∨
  (m.testBit 182 = true ∧ ∃ l, a = LN_TXEQ.addr l) ∨
  (m.testBit 183 = true ∧ ∃ l, a = LN_FEC_CORR.addr l) ∨
  (m.testBit 184 = true ∧ ∃ l, a = LN_FEC_UNC.addr l) ∨
  (m.testBit 185 = true ∧ ∃ l, a = LN_BLK_ERR.addr l) ∨
  (m.testBit 186 = true ∧ ∃ p, a = PORT_BOND.addr p) ∨
  (m.testBit 187 = true ∧ ∃ p, a = PORT_LINK.addr p) ∨
  (m.testBit 188 = true ∧ ∃ p, a = PORT_CRC_ERR.addr p) ∨
  (m.testBit 189 = true ∧ ∃ p, a = PORT_REPLAYED.addr p) ∨
  (m.testBit 190 = true ∧ ∃ p, a = PORT_MALFORMED.addr p) ∨
  (m.testBit 191 = true ∧ ∃ p, a = PORT_TALLY.addr p) ∨
  (m.testBit 192 = true ∧ ∃ p, a = PORT_PCIE.addr p) ∨
  (m.testBit 193 = true ∧ ∃ p, a = PORT_DPC.addr p) ∨
  (m.testBit 194 = true ∧ ∃ p, a = PORT_LOCK.addr p) ∨
  (m.testBit 195 = true ∧ ∃ p, a = PORT_CONTAIN.addr p) ∨
  (m.testBit 196 = true ∧ ∃ p, a = PORT_BOUND.addr p) ∨
  (m.testBit 197 = true ∧ ∃ p, a = PORT_SLUICE.addr p) ∨
  (m.testBit 198 = true ∧ ∃ p, a = PORT_HOLD.addr p) ∨
  (m.testBit 199 = true ∧ ∃ p, a = PORT_WAKE.addr p) ∨
  (m.testBit 200 = true ∧ ∃ c n, a = PMON_CL_SEL.addr c n) ∨
  (m.testBit 201 = true ∧ ∃ c n, a = PMON_CL_CTR.addr c n) ∨
  (m.testBit 202 = true ∧ ∃ w, a = WIN_BASE.addr w) ∨
  (m.testBit 203 = true ∧ ∃ w, a = WIN_LIMIT.addr w) ∨
  (m.testBit 204 = true ∧ ∃ w, a = WIN_REMOTE.addr w) ∨
  (m.testBit 205 = true ∧ ∃ w, a = WIN_ATTR.addr w) ∨
  (m.testBit 206 = true ∧ ∃ w, a = WIN_STATE.addr w) ∨
  (m.testBit 207 = true ∧ ∃ e, a = EVT_SRC_A.addr e) ∨
  (m.testBit 208 = true ∧ ∃ e, a = EVT_SRC_B.addr e) ∨
  (m.testBit 209 = true ∧ ∃ e, a = EVT_SRC_C.addr e)

/-- t differs from s at most in what m has. -/
structure touch (m : Nat) (s t : State) : Prop where
  rd : ∀ a, ¬ touched m a → t.rd a = s.rd a
  cause : ∀ e < 4608, ∀ k, (s.get (EVT_SRC_A.CAUSE e)).testBit k = true → (t.get (EVT_SRC_A.CAUSE e)).testBit k = true
  pending : m.testBit 0 = false → t.pending = s.pending
  chip : m.testBit 1 = false → t.chip = s.chip
  cycles : m.testBit 2 = false → t.cycles = s.cycles
  adjust : m.testBit 3 = false → t.adjust = s.adjust
  freeCount : m.testBit 4 = false → t.freeCount = s.freeCount
  actions : m.testBit 5 = false → t.actions = s.actions
  out : m.testBit 6 = false → t.out = s.out
  outbox : m.testBit 7 = false → t.outbox = s.outbox
  fuses : m.testBit 8 = false → t.fuses = s.fuses
  sealed : m.testBit 9 = false → t.sealed = s.sealed
  sealRequests : m.testBit 10 = false → t.sealRequests = s.sealRequests
  nvs : m.testBit 11 = false → t.nvs = s.nvs
  dir : m.testBit 12 = false → t.dir = s.dir
  staged : m.testBit 13 = false → t.staged = s.staged
  loading : m.testBit 14 = false → t.loading = s.loading
  loadOrder : m.testBit 15 = false → t.loadOrder = s.loadOrder
  reload : m.testBit 16 = false → t.reload = s.reload
  slotWrite : m.testBit 17 = false → t.slotWrite = s.slotWrite
  nvsOp : m.testBit 18 = false → t.nvsOp = s.nvsOp
  cfg : m.testBit 19 = false → t.cfg = s.cfg
  mr : m.testBit 20 = false → t.mr = s.mr
  queues : m.testBit 21 = false → t.queues = s.queues
  records : m.testBit 22 = false → t.records = s.records
  tow : m.testBit 23 = false → t.tow = s.tow
  ports : m.testBit 24 = false → t.ports = s.ports
  staging : m.testBit 25 = false → t.staging = s.staging
  stageHolder : m.testBit 26 = false → t.stageHolder = s.stageHolder
  live : m.testBit 27 = false → t.live = s.live
  commits : m.testBit 28 = false → t.commits = s.commits
  fenceStart : m.testBit 29 = false → t.fenceStart = s.fenceStart
  crossings : m.testBit 30 = false → t.crossings = s.crossings
  modes : m.testBit 31 = false → t.modes = s.modes
  ledgers : m.testBit 32 = false → t.ledgers = s.ledgers
  ingress : m.testBit 33 = false → t.ingress = s.ingress
  waiting : m.testBit 34 = false → t.waiting = s.waiting
  outstanding : m.testBit 35 = false → t.outstanding = s.outstanding
  nextId : m.testBit 36 = false → t.nextId = s.nextId
  device : m.testBit 37 = false → t.device = s.device
  heldFailures : m.testBit 38 = false → t.heldFailures = s.heldFailures
  streams : m.testBit 39 = false → t.streams = s.streams
  flowLast : m.testBit 40 = false → t.flowLast = s.flowLast
  writeLast : m.testBit 41 = false → t.writeLast = s.writeLast
  lockWait : m.testBit 42 = false → t.lockWait = s.lockWait
  portLocks : m.testBit 43 = false → t.portLocks = s.portLocks
  planned : m.testBit 44 = false → t.planned = s.planned
  bounds : m.testBit 45 = false → t.bounds = s.bounds
  boundsSets : m.testBit 46 = false → t.boundsSets = s.boundsSets
  postedCount : m.testBit 47 = false → t.postedCount = s.postedCount
  requesters : m.testBit 48 = false → t.requesters = s.requesters
  engines : m.testBit 49 = false → t.engines = s.engines
  program : m.testBit 50 = false → t.program = s.program
  dataMem : m.testBit 51 = false → t.dataMem = s.dataMem
  links : m.testBit 52 = false → t.links = s.links
  vlast : m.testBit 53 = false → t.vlast = s.vlast
  ecc : m.testBit 54 = false → t.ecc = s.ecc
  l1Exit : m.testBit 55 = false → t.l1Exit = s.l1Exit
  announceDue : m.testBit 56 = false → t.announceDue = s.announceDue
  gated : m.testBit 57 = false → t.gated = s.gated
  woken : m.testBit 58 = false → t.woken = s.woken
  devices : m.testBit 59 = false → t.devices = s.devices
  hidden : m.testBit 60 = false → t.hidden = s.hidden
  bindPu : m.testBit 61 = false → t.bindPu = s.bindPu
  virt : m.testBit 62 = false → t.virt = s.virt
  virtPorts : m.testBit 63 = false → t.virtPorts = s.virtPorts
  deviceMps : m.testBit 64 = false → t.deviceMps = s.deviceMps
  aer : m.testBit 65 = false → t.aer = s.aer
  aerHeader : m.testBit 66 = false → t.aerHeader = s.aerHeader
  intxLevel : m.testBit 67 = false → t.intxLevel = s.intxLevel
  intxCount : m.testBit 68 = false → t.intxCount = s.intxCount
  flr : m.testBit 69 = false → t.flr = s.flr
  configJobs : m.testBit 70 = false → t.configJobs = s.configJobs
  pmeOff : m.testBit 71 = false → t.pmeOff = s.pmeOff
  rings : m.testBit 72 = false → t.rings = s.rings
  beyond64 : m.testBit 73 = false → t.beyond64 = s.beyond64
  lanes : m.testBit 74 = false → t.lanes = s.lanes
  time : m.testBit 75 = false → t.time = s.time
  dpcSince : m.testBit 76 = false → t.dpcSince = s.dpcSince
  doe : m.testBit 77 = false → t.doe = s.doe
  doeOrder : m.testBit 78 = false → t.doeOrder = s.doeOrder
  kickAt : m.testBit 79 = false → t.kickAt = s.kickAt
  hosts : m.testBit 80 = false → t.hosts = s.hosts
  bindSets : m.testBit 81 = false → t.bindSets = s.bindSets
  powerSamples : m.testBit 82 = false → t.powerSamples = s.powerSamples
  coolSince : m.testBit 83 = false → t.coolSince = s.coolSince
  batchNo : m.testBit 84 = false → t.batchNo = s.batchNo
  batchSize : m.testBit 85 = false → t.batchSize = s.batchSize
  shadow : m.testBit 86 = false → t.shadow = s.shadow
  stagedAt : m.testBit 87 = false → t.stagedAt = s.stagedAt
  lockClass : m.testBit 88 = false → t.lockClass = s.lockClass
  intxSent : m.testBit 89 = false → t.intxSent = s.intxSent
  bankWrite : m.testBit 90 = false → t.bankWrite = s.bankWrite
  keeperRun : m.testBit 91 = false → t.keeperRun = s.keeperRun
  secSizes : m.testBit 92 = false → t.secSizes = s.secSizes
  l0pPartners : m.testBit 93 = false → t.l0pPartners = s.l0pPartners
  pulses : m.testBit 94 = false → t.pulses = s.pulses
  slotsUsed : m.testBit 95 = false → t.slotsUsed = s.slotsUsed

theorem touched.or {m n a : Nat} (h : touched m a ∨ touched n a) : touched (m ||| n) a := by
  unfold touched at h ⊢
  simp only [Nat.testBit_or, Bool.or_eq_true, or_and_right]
  rcases h with h | h
  · exact (Or.imp (fun h => .inl h) (Or.imp (fun h => .inl h) (Or.imp (fun h => .inl h) (Or.imp (fun h => .inl h) (Or.imp (fun h => .inl h) (Or.imp (fun h => .inl h) (Or.imp (fun h => .inl h) (Or.imp (fun h => .inl h) (Or.imp (fun h => .inl h) (Or.imp (fun h => .inl h) (Or.imp (fun h => .inl h) (Or.imp (fun h => .inl h) (Or.imp (fun h => .inl h) (Or.imp (fun h => .inl h) (Or.imp (fun h => .inl h) (Or.imp (fun h => .inl h) (Or.imp (fun h => .inl h) (Or.imp (fun h => .inl h) (Or.imp (fun h => .inl h) (Or.imp (fun h => .inl h) (Or.imp (fun h => .inl h) (Or.imp (fun h => .inl h) (Or.imp (fun h => .inl h) (Or.imp (fun h => .inl h) (Or.imp (fun h => .inl h) (Or.imp (fun h => .inl h) (Or.imp (fun h => .inl h) (Or.imp (fun h => .inl h) (Or.imp (fun h => .inl h) (Or.imp (fun h => .inl h) (Or.imp (fun h => .inl h) (Or.imp (fun h => .inl h) (Or.imp (fun h => .inl h) (Or.imp (fun h => .inl h) (Or.imp (fun h => .inl h) (Or.imp (fun h => .inl h) (Or.imp (fun h => .inl h) (Or.imp (fun h => .inl h) (Or.imp (fun h => .inl h) (Or.imp (fun h => .inl h) (Or.imp (fun h => .inl h) (Or.imp (fun h => .inl h) (Or.imp (fun h => .inl h) (Or.imp (fun h => .inl h) (Or.imp (fun h => .inl h) (Or.imp (fun h => .inl h) (Or.imp (fun h => .inl h) (Or.imp (fun h => .inl h) (Or.imp (fun h => .inl h) (Or.imp (fun h => .inl h) (Or.imp (fun h => .inl h) (Or.imp (fun h => .inl h) (Or.imp (fun h => .inl h) (Or.imp (fun h => .inl h) (Or.imp (fun h => .inl h) (Or.imp (fun h => .inl h) (Or.imp (fun h => .inl h) (Or.imp (fun h => .inl h) (Or.imp (fun h => .inl h) (Or.imp (fun h => .inl h) (Or.imp (fun h => .inl h) (Or.imp (fun h => .inl h) (Or.imp (fun h => .inl h) (Or.imp (fun h => .inl h) (Or.imp (fun h => .inl h) (Or.imp (fun h => .inl h) (Or.imp (fun h => .inl h) (Or.imp (fun h => .inl h) (Or.imp (fun h => .inl h) (Or.imp (fun h => .inl h) (Or.imp (fun h => .inl h) (Or.imp (fun h => .inl h) (Or.imp (fun h => .inl h) (Or.imp (fun h => .inl h) (Or.imp (fun h => .inl h) (Or.imp (fun h => .inl h) (Or.imp (fun h => .inl h) (Or.imp (fun h => .inl h) (Or.imp (fun h => .inl h) (Or.imp (fun h => .inl h) (Or.imp (fun h => .inl h) (Or.imp (fun h => .inl h) (Or.imp (fun h => .inl h) (Or.imp (fun h => .inl h) (Or.imp (fun h => .inl h) (Or.imp (fun h => .inl h) (Or.imp (fun h => .inl h) (Or.imp (fun h => .inl h) (Or.imp (fun h => .inl h) (Or.imp (fun h => .inl h) (Or.imp (fun h => .inl h) (Or.imp (fun h => .inl h) (Or.imp (fun h => .inl h) (Or.imp (fun h => .inl h) (Or.imp (fun h => .inl h) (Or.imp (fun h => .inl h) (Or.imp (fun h => .inl h) (Or.imp (fun h => .inl h) (Or.imp (fun h => .inl h) (Or.imp (fun h => .inl h) (Or.imp (fun h => .inl h) (Or.imp (fun h => .inl h) (Or.imp (fun h => .inl h) (Or.imp (fun h => .inl h) (Or.imp (fun h => .inl h) (Or.imp (fun h => .inl h) (Or.imp (fun h => .inl h) (Or.imp (fun h => .inl h) (Or.imp (fun h => .inl h) ((fun h => .inl h))))))))))))))))))))))))))))))))))))))))))))))))))))))))))))))))))))))))))))))))))))))))))))))))))))))))))))))) h
  · exact (Or.imp (fun h => .inr h) (Or.imp (fun h => .inr h) (Or.imp (fun h => .inr h) (Or.imp (fun h => .inr h) (Or.imp (fun h => .inr h) (Or.imp (fun h => .inr h) (Or.imp (fun h => .inr h) (Or.imp (fun h => .inr h) (Or.imp (fun h => .inr h) (Or.imp (fun h => .inr h) (Or.imp (fun h => .inr h) (Or.imp (fun h => .inr h) (Or.imp (fun h => .inr h) (Or.imp (fun h => .inr h) (Or.imp (fun h => .inr h) (Or.imp (fun h => .inr h) (Or.imp (fun h => .inr h) (Or.imp (fun h => .inr h) (Or.imp (fun h => .inr h) (Or.imp (fun h => .inr h) (Or.imp (fun h => .inr h) (Or.imp (fun h => .inr h) (Or.imp (fun h => .inr h) (Or.imp (fun h => .inr h) (Or.imp (fun h => .inr h) (Or.imp (fun h => .inr h) (Or.imp (fun h => .inr h) (Or.imp (fun h => .inr h) (Or.imp (fun h => .inr h) (Or.imp (fun h => .inr h) (Or.imp (fun h => .inr h) (Or.imp (fun h => .inr h) (Or.imp (fun h => .inr h) (Or.imp (fun h => .inr h) (Or.imp (fun h => .inr h) (Or.imp (fun h => .inr h) (Or.imp (fun h => .inr h) (Or.imp (fun h => .inr h) (Or.imp (fun h => .inr h) (Or.imp (fun h => .inr h) (Or.imp (fun h => .inr h) (Or.imp (fun h => .inr h) (Or.imp (fun h => .inr h) (Or.imp (fun h => .inr h) (Or.imp (fun h => .inr h) (Or.imp (fun h => .inr h) (Or.imp (fun h => .inr h) (Or.imp (fun h => .inr h) (Or.imp (fun h => .inr h) (Or.imp (fun h => .inr h) (Or.imp (fun h => .inr h) (Or.imp (fun h => .inr h) (Or.imp (fun h => .inr h) (Or.imp (fun h => .inr h) (Or.imp (fun h => .inr h) (Or.imp (fun h => .inr h) (Or.imp (fun h => .inr h) (Or.imp (fun h => .inr h) (Or.imp (fun h => .inr h) (Or.imp (fun h => .inr h) (Or.imp (fun h => .inr h) (Or.imp (fun h => .inr h) (Or.imp (fun h => .inr h) (Or.imp (fun h => .inr h) (Or.imp (fun h => .inr h) (Or.imp (fun h => .inr h) (Or.imp (fun h => .inr h) (Or.imp (fun h => .inr h) (Or.imp (fun h => .inr h) (Or.imp (fun h => .inr h) (Or.imp (fun h => .inr h) (Or.imp (fun h => .inr h) (Or.imp (fun h => .inr h) (Or.imp (fun h => .inr h) (Or.imp (fun h => .inr h) (Or.imp (fun h => .inr h) (Or.imp (fun h => .inr h) (Or.imp (fun h => .inr h) (Or.imp (fun h => .inr h) (Or.imp (fun h => .inr h) (Or.imp (fun h => .inr h) (Or.imp (fun h => .inr h) (Or.imp (fun h => .inr h) (Or.imp (fun h => .inr h) (Or.imp (fun h => .inr h) (Or.imp (fun h => .inr h) (Or.imp (fun h => .inr h) (Or.imp (fun h => .inr h) (Or.imp (fun h => .inr h) (Or.imp (fun h => .inr h) (Or.imp (fun h => .inr h) (Or.imp (fun h => .inr h) (Or.imp (fun h => .inr h) (Or.imp (fun h => .inr h) (Or.imp (fun h => .inr h) (Or.imp (fun h => .inr h) (Or.imp (fun h => .inr h) (Or.imp (fun h => .inr h) (Or.imp (fun h => .inr h) (Or.imp (fun h => .inr h) (Or.imp (fun h => .inr h) (Or.imp (fun h => .inr h) (Or.imp (fun h => .inr h) (Or.imp (fun h => .inr h) (Or.imp (fun h => .inr h) (Or.imp (fun h => .inr h) (Or.imp (fun h => .inr h) (Or.imp (fun h => .inr h) (Or.imp (fun h => .inr h) ((fun h => .inr h))))))))))))))))))))))))))))))))))))))))))))))))))))))))))))))))))))))))))))))))))))))))))))))))))))))))))))))) h

theorem touch.refl (m : Nat) (s : State) : touch m s s :=
  ⟨fun _ _ => rfl, fun _ _ _ h => h, fun _ => rfl, fun _ => rfl, fun _ => rfl, fun _ => rfl, fun _ => rfl, fun _ => rfl, fun _ => rfl, fun _ => rfl, fun _ => rfl, fun _ => rfl, fun _ => rfl, fun _ => rfl, fun _ => rfl, fun _ => rfl, fun _ => rfl, fun _ => rfl, fun _ => rfl, fun _ => rfl, fun _ => rfl, fun _ => rfl, fun _ => rfl, fun _ => rfl, fun _ => rfl, fun _ => rfl, fun _ => rfl, fun _ => rfl, fun _ => rfl, fun _ => rfl, fun _ => rfl, fun _ => rfl, fun _ => rfl, fun _ => rfl, fun _ => rfl, fun _ => rfl, fun _ => rfl, fun _ => rfl, fun _ => rfl, fun _ => rfl, fun _ => rfl, fun _ => rfl, fun _ => rfl, fun _ => rfl, fun _ => rfl, fun _ => rfl, fun _ => rfl, fun _ => rfl, fun _ => rfl, fun _ => rfl, fun _ => rfl, fun _ => rfl, fun _ => rfl, fun _ => rfl, fun _ => rfl, fun _ => rfl, fun _ => rfl, fun _ => rfl, fun _ => rfl, fun _ => rfl, fun _ => rfl, fun _ => rfl, fun _ => rfl, fun _ => rfl, fun _ => rfl, fun _ => rfl, fun _ => rfl, fun _ => rfl, fun _ => rfl, fun _ => rfl, fun _ => rfl, fun _ => rfl, fun _ => rfl, fun _ => rfl, fun _ => rfl, fun _ => rfl, fun _ => rfl, fun _ => rfl, fun _ => rfl, fun _ => rfl, fun _ => rfl, fun _ => rfl, fun _ => rfl, fun _ => rfl, fun _ => rfl, fun _ => rfl, fun _ => rfl, fun _ => rfl, fun _ => rfl, fun _ => rfl, fun _ => rfl, fun _ => rfl, fun _ => rfl, fun _ => rfl, fun _ => rfl, fun _ => rfl, fun _ => rfl, fun _ => rfl⟩

theorem touch.orBit {n m k : Nat} (e : n ||| m = m) (h : m.testBit k = false) : n.testBit k = false := by
  rw [← e, Nat.testBit_or, Bool.or_eq_false_iff] at h
  exact h.1

theorem touch.mono {n m : Nat} {s t : State} (h : touch n s t) (e : n ||| m = m) : touch m s t :=
  ⟨fun a ha => h.rd a fun hn => ha (e ▸ touched.or (.inl hn)), h.cause, fun k => h.pending (touch.orBit e k), fun k => h.chip (touch.orBit e k), fun k => h.cycles (touch.orBit e k), fun k => h.adjust (touch.orBit e k), fun k => h.freeCount (touch.orBit e k), fun k => h.actions (touch.orBit e k), fun k => h.out (touch.orBit e k), fun k => h.outbox (touch.orBit e k), fun k => h.fuses (touch.orBit e k), fun k => h.sealed (touch.orBit e k), fun k => h.sealRequests (touch.orBit e k), fun k => h.nvs (touch.orBit e k), fun k => h.dir (touch.orBit e k), fun k => h.staged (touch.orBit e k), fun k => h.loading (touch.orBit e k), fun k => h.loadOrder (touch.orBit e k), fun k => h.reload (touch.orBit e k), fun k => h.slotWrite (touch.orBit e k), fun k => h.nvsOp (touch.orBit e k), fun k => h.cfg (touch.orBit e k), fun k => h.mr (touch.orBit e k), fun k => h.queues (touch.orBit e k), fun k => h.records (touch.orBit e k), fun k => h.tow (touch.orBit e k), fun k => h.ports (touch.orBit e k), fun k => h.staging (touch.orBit e k), fun k => h.stageHolder (touch.orBit e k), fun k => h.live (touch.orBit e k), fun k => h.commits (touch.orBit e k), fun k => h.fenceStart (touch.orBit e k), fun k => h.crossings (touch.orBit e k), fun k => h.modes (touch.orBit e k), fun k => h.ledgers (touch.orBit e k), fun k => h.ingress (touch.orBit e k), fun k => h.waiting (touch.orBit e k), fun k => h.outstanding (touch.orBit e k), fun k => h.nextId (touch.orBit e k), fun k => h.device (touch.orBit e k), fun k => h.heldFailures (touch.orBit e k), fun k => h.streams (touch.orBit e k), fun k => h.flowLast (touch.orBit e k), fun k => h.writeLast (touch.orBit e k), fun k => h.lockWait (touch.orBit e k), fun k => h.portLocks (touch.orBit e k), fun k => h.planned (touch.orBit e k), fun k => h.bounds (touch.orBit e k), fun k => h.boundsSets (touch.orBit e k), fun k => h.postedCount (touch.orBit e k), fun k => h.requesters (touch.orBit e k), fun k => h.engines (touch.orBit e k), fun k => h.program (touch.orBit e k), fun k => h.dataMem (touch.orBit e k), fun k => h.links (touch.orBit e k), fun k => h.vlast (touch.orBit e k), fun k => h.ecc (touch.orBit e k), fun k => h.l1Exit (touch.orBit e k), fun k => h.announceDue (touch.orBit e k), fun k => h.gated (touch.orBit e k), fun k => h.woken (touch.orBit e k), fun k => h.devices (touch.orBit e k), fun k => h.hidden (touch.orBit e k), fun k => h.bindPu (touch.orBit e k), fun k => h.virt (touch.orBit e k), fun k => h.virtPorts (touch.orBit e k), fun k => h.deviceMps (touch.orBit e k), fun k => h.aer (touch.orBit e k), fun k => h.aerHeader (touch.orBit e k), fun k => h.intxLevel (touch.orBit e k), fun k => h.intxCount (touch.orBit e k), fun k => h.flr (touch.orBit e k), fun k => h.configJobs (touch.orBit e k), fun k => h.pmeOff (touch.orBit e k), fun k => h.rings (touch.orBit e k), fun k => h.beyond64 (touch.orBit e k), fun k => h.lanes (touch.orBit e k), fun k => h.time (touch.orBit e k), fun k => h.dpcSince (touch.orBit e k), fun k => h.doe (touch.orBit e k), fun k => h.doeOrder (touch.orBit e k), fun k => h.kickAt (touch.orBit e k), fun k => h.hosts (touch.orBit e k), fun k => h.bindSets (touch.orBit e k), fun k => h.powerSamples (touch.orBit e k), fun k => h.coolSince (touch.orBit e k), fun k => h.batchNo (touch.orBit e k), fun k => h.batchSize (touch.orBit e k), fun k => h.shadow (touch.orBit e k), fun k => h.stagedAt (touch.orBit e k), fun k => h.lockClass (touch.orBit e k), fun k => h.intxSent (touch.orBit e k), fun k => h.bankWrite (touch.orBit e k), fun k => h.keeperRun (touch.orBit e k), fun k => h.secSizes (touch.orBit e k), fun k => h.l0pPartners (touch.orBit e k), fun k => h.pulses (touch.orBit e k), fun k => h.slotsUsed (touch.orBit e k)⟩

theorem touch.trans {m : Nat} {s t u : State} (h : touch m s t) (k : touch m t u) : touch m s u :=
  ⟨fun a ha => (k.rd a ha).trans (h.rd a ha), fun e he i hi => k.cause e he i (h.cause e he i hi), fun b => (k.pending b).trans (h.pending b), fun b => (k.chip b).trans (h.chip b), fun b => (k.cycles b).trans (h.cycles b), fun b => (k.adjust b).trans (h.adjust b), fun b => (k.freeCount b).trans (h.freeCount b), fun b => (k.actions b).trans (h.actions b), fun b => (k.out b).trans (h.out b), fun b => (k.outbox b).trans (h.outbox b), fun b => (k.fuses b).trans (h.fuses b), fun b => (k.sealed b).trans (h.sealed b), fun b => (k.sealRequests b).trans (h.sealRequests b), fun b => (k.nvs b).trans (h.nvs b), fun b => (k.dir b).trans (h.dir b), fun b => (k.staged b).trans (h.staged b), fun b => (k.loading b).trans (h.loading b), fun b => (k.loadOrder b).trans (h.loadOrder b), fun b => (k.reload b).trans (h.reload b), fun b => (k.slotWrite b).trans (h.slotWrite b), fun b => (k.nvsOp b).trans (h.nvsOp b), fun b => (k.cfg b).trans (h.cfg b), fun b => (k.mr b).trans (h.mr b), fun b => (k.queues b).trans (h.queues b), fun b => (k.records b).trans (h.records b), fun b => (k.tow b).trans (h.tow b), fun b => (k.ports b).trans (h.ports b), fun b => (k.staging b).trans (h.staging b), fun b => (k.stageHolder b).trans (h.stageHolder b), fun b => (k.live b).trans (h.live b), fun b => (k.commits b).trans (h.commits b), fun b => (k.fenceStart b).trans (h.fenceStart b), fun b => (k.crossings b).trans (h.crossings b), fun b => (k.modes b).trans (h.modes b), fun b => (k.ledgers b).trans (h.ledgers b), fun b => (k.ingress b).trans (h.ingress b), fun b => (k.waiting b).trans (h.waiting b), fun b => (k.outstanding b).trans (h.outstanding b), fun b => (k.nextId b).trans (h.nextId b), fun b => (k.device b).trans (h.device b), fun b => (k.heldFailures b).trans (h.heldFailures b), fun b => (k.streams b).trans (h.streams b), fun b => (k.flowLast b).trans (h.flowLast b), fun b => (k.writeLast b).trans (h.writeLast b), fun b => (k.lockWait b).trans (h.lockWait b), fun b => (k.portLocks b).trans (h.portLocks b), fun b => (k.planned b).trans (h.planned b), fun b => (k.bounds b).trans (h.bounds b), fun b => (k.boundsSets b).trans (h.boundsSets b), fun b => (k.postedCount b).trans (h.postedCount b), fun b => (k.requesters b).trans (h.requesters b), fun b => (k.engines b).trans (h.engines b), fun b => (k.program b).trans (h.program b), fun b => (k.dataMem b).trans (h.dataMem b), fun b => (k.links b).trans (h.links b), fun b => (k.vlast b).trans (h.vlast b), fun b => (k.ecc b).trans (h.ecc b), fun b => (k.l1Exit b).trans (h.l1Exit b), fun b => (k.announceDue b).trans (h.announceDue b), fun b => (k.gated b).trans (h.gated b), fun b => (k.woken b).trans (h.woken b), fun b => (k.devices b).trans (h.devices b), fun b => (k.hidden b).trans (h.hidden b), fun b => (k.bindPu b).trans (h.bindPu b), fun b => (k.virt b).trans (h.virt b), fun b => (k.virtPorts b).trans (h.virtPorts b), fun b => (k.deviceMps b).trans (h.deviceMps b), fun b => (k.aer b).trans (h.aer b), fun b => (k.aerHeader b).trans (h.aerHeader b), fun b => (k.intxLevel b).trans (h.intxLevel b), fun b => (k.intxCount b).trans (h.intxCount b), fun b => (k.flr b).trans (h.flr b), fun b => (k.configJobs b).trans (h.configJobs b), fun b => (k.pmeOff b).trans (h.pmeOff b), fun b => (k.rings b).trans (h.rings b), fun b => (k.beyond64 b).trans (h.beyond64 b), fun b => (k.lanes b).trans (h.lanes b), fun b => (k.time b).trans (h.time b), fun b => (k.dpcSince b).trans (h.dpcSince b), fun b => (k.doe b).trans (h.doe b), fun b => (k.doeOrder b).trans (h.doeOrder b), fun b => (k.kickAt b).trans (h.kickAt b), fun b => (k.hosts b).trans (h.hosts b), fun b => (k.bindSets b).trans (h.bindSets b), fun b => (k.powerSamples b).trans (h.powerSamples b), fun b => (k.coolSince b).trans (h.coolSince b), fun b => (k.batchNo b).trans (h.batchNo b), fun b => (k.batchSize b).trans (h.batchSize b), fun b => (k.shadow b).trans (h.shadow b), fun b => (k.stagedAt b).trans (h.stagedAt b), fun b => (k.lockClass b).trans (h.lockClass b), fun b => (k.intxSent b).trans (h.intxSent b), fun b => (k.bankWrite b).trans (h.bankWrite b), fun b => (k.keeperRun b).trans (h.keeperRun b), fun b => (k.secSizes b).trans (h.secSizes b), fun b => (k.l0pPartners b).trans (h.l0pPartners b), fun b => (k.pulses b).trans (h.pulses b), fun b => (k.slotsUsed b).trans (h.slotsUsed b)⟩

theorem touch.step {n m : Nat} {s t u : State} (h : touch m s t) (k : touch n t u) (e : n ||| m = m) : touch m s u := h.trans (k.mono e)

theorem touch.ite {m : Nat} {s a b : State} {c : Prop} {i : Decidable c} (h : touch m s a) (k : touch m s b) : touch m s (if c then a else b) := by
  split
  · exact h
  · exact k

theorem touch.fstIte {α : Type} {m : Nat} {s : State} {a b : State × α} {c : Prop} {i : Decidable c} (h : touch m s a.1) (k : touch m s b.1) :
    touch m s (if c then a else b).1 := by
  split
  · exact h
  · exact k

theorem touch.fstMk {α : Type} {m : Nat} {s t : State} {x : α} (h : touch m s t) : touch m s (t, x).1 := h

theorem touch.ofEq {α : Type} {m : Nat} {s t : State} {x : α} {p : State × α} (e : p = (t, x)) (h : touch m s p.1) : touch m s t := by
  rw [e] at h
  exact h

theorem touch.foldl {β : Type} {m : Nat} {s t : State} {f : State → β → State} {l : List β} (h : touch m s t)
    (k : ∀ u x, touch m s u → touch m s (f u x)) : touch m s (l.foldl f t) := by
  induction l generalizing t with
  | nil => exact h
  | cons x l ih => exact ih (k t x h)

theorem touch.foldlFst {α β : Type} {m : Nat} {s : State} {t : State × α} {f : State × α → β → State × α} {l : List β} (h : touch m s t.1)
    (k : ∀ u x, touch m s u.1 → touch m s (f u x).1) : touch m s (l.foldl f t).1 := by
  induction l generalizing t with
  | nil => exact h
  | cons x l ih => exact ih (k t x h)

/-- Registers outside the sources' are at other offsets than the causes: package registers, die registers and cluster registers. -/
theorem source_ne_package {a e : Nat} (h : a < 0x9000 ∨ 0x9800 ≤ a ∧ a < 0x10000000) (he : e < 4608) : EVT_SRC_A.addr e ≠ a := by
  unfold EVT_SRC_A.addr eventBase
  split
  · simp only [clusterBase, dieBase]; omega
  · split
    · simp only [dieBase]; omega
    · omega

theorem source_ne_die {d o e : Nat} (h : o < 0x1000 ∨ 0x1E00 ≤ o ∧ o < 0x02000000) (he : e < 4608) : EVT_SRC_A.addr e ≠ dieBase d + o := by
  have hd : min d 4 < 5 := by omega
  unfold EVT_SRC_A.addr eventBase
  split
  · have hc : e / 64 / 16 < 4 := by omega
    simp only [clusterBase, dieBase, Nat.min_eq_left (Nat.le_of_lt hc)]
    generalize e / 64 / 16 = x at hc ⊢
    generalize min d 4 = y at hd ⊢
    interval_cases x <;> interval_cases y <;> omega
  · split
    · simp only [dieBase]; omega
    · simp only [dieBase]; omega

theorem source_ne_cluster {c o e : Nat} (h : o < 0x3000 ∨ 0x3800 ≤ o ∧ o < 0x100000) (he : e < 4608) : EVT_SRC_A.addr e ≠ clusterBase c + o := by
  unfold EVT_SRC_A.addr eventBase
  split
  · simp only [clusterBase, dieBase]; omega
  · split
    · simp only [clusterBase, dieBase]; omega
    · simp only [clusterBase, dieBase]; omega

theorem eventBase_mod (e : Nat) : eventBase e % 32 = 0 := by
  unfold eventBase
  split
  · simp only [clusterBase, dieBase]; omega
  · split
    · simp only [dieBase]; omega
    · omega

theorem source_ne_source {e i k : Nat} (h : k % 32 ≠ 0) : EVT_SRC_A.addr e ≠ eventBase i + k := by
  have h1 := eventBase_mod e
  have h2 := eventBase_mod i
  unfold EVT_SRC_A.addr
  omega

theorem touch.of_wr {m a : Nat} (s : State) (w : Word) (h : touched m a) (hs : ∀ e < 4608, EVT_SRC_A.addr e ≠ a) : touch m s (s.wr a w) :=
  ⟨fun _ hb => State.rd_wr_ne _ _ fun e => hb (e ▸ h),
   fun e he k hk => by
    have := State.rd_wr_ne s w (hs e he)
    simpa only [State.get, EVT_SRC_A.CAUSE, this] using hk, fun _ => rfl, fun _ => rfl, fun _ => rfl, fun _ => rfl, fun _ => rfl, fun _ => rfl, fun _ => rfl, fun _ => rfl, fun _ => rfl, fun _ => rfl, fun _ => rfl, fun _ => rfl, fun _ => rfl, fun _ => rfl, fun _ => rfl, fun _ => rfl, fun _ => rfl, fun _ => rfl, fun _ => rfl, fun _ => rfl, fun _ => rfl, fun _ => rfl, fun _ => rfl, fun _ => rfl, fun _ => rfl, fun _ => rfl, fun _ => rfl, fun _ => rfl, fun _ => rfl, fun _ => rfl, fun _ => rfl, fun _ => rfl, fun _ => rfl, fun _ => rfl, fun _ => rfl, fun _ => rfl, fun _ => rfl, fun _ => rfl, fun _ => rfl, fun _ => rfl, fun _ => rfl, fun _ => rfl, fun _ => rfl, fun _ => rfl, fun _ => rfl, fun _ => rfl, fun _ => rfl, fun _ => rfl, fun _ => rfl, fun _ => rfl, fun _ => rfl, fun _ => rfl, fun _ => rfl, fun _ => rfl, fun _ => rfl, fun _ => rfl, fun _ => rfl, fun _ => rfl, fun _ => rfl, fun _ => rfl, fun _ => rfl, fun _ => rfl, fun _ => rfl, fun _ => rfl, fun _ => rfl, fun _ => rfl, fun _ => rfl, fun _ => rfl, fun _ => rfl, fun _ => rfl, fun _ => rfl, fun _ => rfl, fun _ => rfl, fun _ => rfl, fun _ => rfl, fun _ => rfl, fun _ => rfl, fun _ => rfl, fun _ => rfl, fun _ => rfl, fun _ => rfl, fun _ => rfl, fun _ => rfl, fun _ => rfl, fun _ => rfl, fun _ => rfl, fun _ => rfl, fun _ => rfl, fun _ => rfl, fun _ => rfl, fun _ => rfl, fun _ => rfl, fun _ => rfl, fun _ => rfl, fun _ => rfl, fun _ => rfl⟩

theorem touch.PKG_ID (s : State) (v : Word) : touch 0x10000000000000000000000000 s (s.wr (PKG_ID.addr) v) :=
  touch.of_wr s v (.inl ⟨rfl, rfl⟩) (fun _ he => source_ne_package (by unfold PKG_ID.addr; omega) he)
theorem touch.PKG_SERIAL (s : State) (v : Word) : touch 0x20000000000000000000000000 s (s.wr (PKG_SERIAL.addr) v) :=
  touch.of_wr s v (.inr (.inl ⟨rfl, rfl⟩)) (fun _ he => source_ne_package (by unfold PKG_SERIAL.addr; omega) he)
theorem touch.PKG_LEAD (s : State) (v : Word) : touch 0x40000000000000000000000000 s (s.wr (PKG_LEAD.addr) v) :=
  touch.of_wr s v (.inr (.inr (.inl ⟨rfl, rfl⟩))) (fun _ he => source_ne_package (by unfold PKG_LEAD.addr; omega) he)
theorem touch.PKG_MODE (s : State) (v : Word) : touch 0x80000000000000000000000000 s (s.wr (PKG_MODE.addr) v) :=
  touch.of_wr s v (.inr (.inr (.inr (.inl ⟨rfl, rfl⟩)))) (fun _ he => source_ne_package (by unfold PKG_MODE.addr; omega) he)
theorem touch.PKG_MODE_CTL (s : State) (v : Word) : touch 0x100000000000000000000000000 s (s.wr (PKG_MODE_CTL.addr) v) :=
  touch.of_wr s v (.inr (.inr (.inr (.inr (.inl ⟨rfl, rfl⟩))))) (fun _ he => source_ne_package (by unfold PKG_MODE_CTL.addr; omega) he)
theorem touch.PKG_FW (s : State) (v : Word) : touch 0x200000000000000000000000000 s (s.wr (PKG_FW.addr) v) :=
  touch.of_wr s v (.inr (.inr (.inr (.inr (.inr (.inl ⟨rfl, rfl⟩)))))) (fun _ he => source_ne_package (by unfold PKG_FW.addr; omega) he)
theorem touch.PKG_BOUND (s : State) (v : Word) : touch 0x400000000000000000000000000 s (s.wr (PKG_BOUND.addr) v) :=
  touch.of_wr s v (.inr (.inr (.inr (.inr (.inr (.inr (.inl ⟨rfl, rfl⟩))))))) (fun _ he => source_ne_package (by unfold PKG_BOUND.addr; omega) he)
theorem touch.PKG_LOCK (s : State) (v : Word) : touch 0x800000000000000000000000000 s (s.wr (PKG_LOCK.addr) v) :=
  touch.of_wr s v (.inr (.inr (.inr (.inr (.inr (.inr (.inr (.inl ⟨rfl, rfl⟩)))))))) (fun _ he => source_ne_package (by unfold PKG_LOCK.addr; omega) he)
theorem touch.PKG_FENCE_CL (s : State) (v : Word) : touch 0x1000000000000000000000000000 s (s.wr (PKG_FENCE_CL.addr) v) :=
  touch.of_wr s v (.inr (.inr (.inr (.inr (.inr (.inr (.inr (.inr (.inl ⟨rfl, rfl⟩))))))))) (fun _ he => source_ne_package (by unfold PKG_FENCE_CL.addr; omega) he)
theorem touch.PKG_FENCE_RG (s : State) (v : Word) : touch 0x2000000000000000000000000000 s (s.wr (PKG_FENCE_RG.addr) v) :=
  touch.of_wr s v (.inr (.inr (.inr (.inr (.inr (.inr (.inr (.inr (.inr (.inl ⟨rfl, rfl⟩)))))))))) (fun _ he => source_ne_package (by unfold PKG_FENCE_RG.addr; omega) he)
theorem touch.TOLL_FENCE (s : State) (v : Word) : touch 0x4000000000000000000000000000 s (s.wr (TOLL_FENCE.addr) v) :=
  touch.of_wr s v (.inr (.inr (.inr (.inr (.inr (.inr (.inr (.inr (.inr (.inr (.inl ⟨rfl, rfl⟩))))))))))) (fun _ he => source_ne_package (by unfold TOLL_FENCE.addr; omega) he)
theorem touch.PKG_EVT_INJECT (s : State) (v : Word) : touch 0x8000000000000000000000000000 s (s.wr (PKG_EVT_INJECT.addr) v) :=
  touch.of_wr s v (.inr (.inr (.inr (.inr (.inr (.inr (.inr (.inr (.inr (.inr (.inr (.inl ⟨rfl, rfl⟩)))))))))))) (fun _ he => source_ne_package (by unfold PKG_EVT_INJECT.addr; omega) he)
theorem touch.PKG_XSTAT (s : State) (v : Word) : touch 0x10000000000000000000000000000 s (s.wr (PKG_XSTAT.addr) v) :=
  touch.of_wr s v (.inr (.inr (.inr (.inr (.inr (.inr (.inr (.inr (.inr (.inr (.inr (.inr (.inl ⟨rfl, rfl⟩))))))))))))) (fun _ he => source_ne_package (by unfold PKG_XSTAT.addr; omega) he)
theorem touch.PKG_SCOPE_RESET (s : State) (v : Word) : touch 0x20000000000000000000000000000 s (s.wr (PKG_SCOPE_RESET.addr) v) :=
  touch.of_wr s v (.inr (.inr (.inr (.inr (.inr (.inr (.inr (.inr (.inr (.inr (.inr (.inr (.inr (.inl ⟨rfl, rfl⟩)))))))))))))) (fun _ he => source_ne_package (by unfold PKG_SCOPE_RESET.addr; omega) he)
theorem touch.PKG_SBS_CTL (s : State) (v : Word) : touch 0x40000000000000000000000000000 s (s.wr (PKG_SBS_CTL.addr) v) :=
  touch.of_wr s v (.inr (.inr (.inr (.inr (.inr (.inr (.inr (.inr (.inr (.inr (.inr (.inr (.inr (.inr (.inl ⟨rfl, rfl⟩))))))))))))))) (fun _ he => source_ne_package (by unfold PKG_SBS_CTL.addr; omega) he)
theorem touch.PKG_SBS_STATUS (s : State) (v : Word) : touch 0x80000000000000000000000000000 s (s.wr (PKG_SBS_STATUS.addr) v) :=
  touch.of_wr s v (.inr (.inr (.inr (.inr (.inr (.inr (.inr (.inr (.inr (.inr (.inr (.inr (.inr (.inr (.inr (.inl ⟨rfl, rfl⟩)))))))))))))))) (fun _ he => source_ne_package (by unfold PKG_SBS_STATUS.addr; omega) he)
theorem touch.PKG_NVS_CTL (s : State) (v : Word) : touch 0x100000000000000000000000000000 s (s.wr (PKG_NVS_CTL.addr) v) :=
  touch.of_wr s v (.inr (.inr (.inr (.inr (.inr (.inr (.inr (.inr (.inr (.inr (.inr (.inr (.inr (.inr (.inr (.inr (.inl ⟨rfl, rfl⟩))))))))))))))))) (fun _ he => source_ne_package (by unfold PKG_NVS_CTL.addr; omega) he)
theorem touch.PKG_NVS_DATA (s : State) (k : Nat) (v : Word) : touch 0x200000000000000000000000000000 s (s.wr (PKG_NVS_DATA.addr k) v) :=
  touch.of_wr s v (.inr (.inr (.inr (.inr (.inr (.inr (.inr (.inr (.inr (.inr (.inr (.inr (.inr (.inr (.inr (.inr (.inr (.inl ⟨rfl, _, rfl⟩)))))))))))))))))) (fun _ he => source_ne_package (by unfold PKG_NVS_DATA.addr; omega) he)
theorem touch.SEAL_CTL (s : State) (v : Word) : touch 0x400000000000000000000000000000 s (s.wr (SEAL_CTL.addr) v) :=
  touch.of_wr s v (.inr (.inr (.inr (.inr (.inr (.inr (.inr (.inr (.inr (.inr (.inr (.inr (.inr (.inr (.inr (.inr (.inr (.inr (.inl ⟨rfl, rfl⟩))))))))))))))))))) (fun _ he => source_ne_package (by unfold SEAL_CTL.addr; omega) he)
theorem touch.SEAL_REMAIN (s : State) (v : Word) : touch 0x800000000000000000000000000000 s (s.wr (SEAL_REMAIN.addr) v) :=
  touch.of_wr s v (.inr (.inr (.inr (.inr (.inr (.inr (.inr (.inr (.inr (.inr (.inr (.inr (.inr (.inr (.inr (.inr (.inr (.inr (.inr (.inl ⟨rfl, rfl⟩)))))))))))))))))))) (fun _ he => source_ne_package (by unfold SEAL_REMAIN.addr; omega) he)
theorem touch.SEM (s : State) (n : Nat) (v : Word) : touch 0x1000000000000000000000000000000 s (s.wr (SEM.addr n) v) :=
  touch.of_wr s v (.inr (.inr (.inr (.inr (.inr (.inr (.inr (.inr (.inr (.inr (.inr (.inr (.inr (.inr (.inr (.inr (.inr (.inr (.inr (.inr (.inl ⟨rfl, _, rfl⟩))))))))))))))))))))) (fun _ he => source_ne_package (by unfold SEM.addr; omega) he)
theorem touch.PKG_CP_STATE (s : State) (n : Nat) (v : Word) : touch 0x2000000000000000000000000000000 s (s.wr (PKG_CP_STATE.addr n) v) :=
  touch.of_wr s v (.inr (.inr (.inr (.inr (.inr (.inr (.inr (.inr (.inr (.inr (.inr (.inr (.inr (.inr (.inr (.inr (.inr (.inr (.inr (.inr (.inr (.inl ⟨rfl, _, rfl⟩)))))))))))))))))))))) (fun _ he => source_ne_package (by unfold PKG_CP_STATE.addr cpBase; split <;> omega) he)
theorem touch.PKG_CP_IBA_CTL (s : State) (n : Nat) (v : Word) : touch 0x4000000000000000000000000000000 s (s.wr (PKG_CP_IBA_CTL.addr n) v) :=
  touch.of_wr s v (.inr (.inr (.inr (.inr (.inr (.inr (.inr (.inr (.inr (.inr (.inr (.inr (.inr (.inr (.inr (.inr (.inr (.inr (.inr (.inr (.inr (.inr (.inl ⟨rfl, _, rfl⟩))))))))))))))))))))))) (fun _ he => source_ne_package (by unfold PKG_CP_IBA_CTL.addr cpBase; split <;> omega) he)
theorem touch.PKG_CP_IBA_STAT (s : State) (n : Nat) (v : Word) : touch 0x8000000000000000000000000000000 s (s.wr (PKG_CP_IBA_STAT.addr n) v) :=
  touch.of_wr s v (.inr (.inr (.inr (.inr (.inr (.inr (.inr (.inr (.inr (.inr (.inr (.inr (.inr (.inr (.inr (.inr (.inr (.inr (.inr (.inr (.inr (.inr (.inr (.inl ⟨rfl, _, rfl⟩)))))))))))))))))))))))) (fun _ he => source_ne_package (by unfold PKG_CP_IBA_STAT.addr cpBase; split <;> omega) he)
theorem touch.PKG_CP_IBA_DATA (s : State) (n : Nat) (v : Word) : touch 0x10000000000000000000000000000000 s (s.wr (PKG_CP_IBA_DATA.addr n) v) :=
  touch.of_wr s v (.inr (.inr (.inr (.inr (.inr (.inr (.inr (.inr (.inr (.inr (.inr (.inr (.inr (.inr (.inr (.inr (.inr (.inr (.inr (.inr (.inr (.inr (.inr (.inr (.inl ⟨rfl, _, rfl⟩))))))))))))))))))))))))) (fun _ he => source_ne_package (by unfold PKG_CP_IBA_DATA.addr cpBase; split <;> omega) he)
theorem touch.PKG_CP_EVOFFERED (s : State) (n : Nat) (v : Word) : touch 0x20000000000000000000000000000000 s (s.wr (PKG_CP_EVOFFERED.addr n) v) :=
  touch.of_wr s v (.inr (.inr (.inr (.inr (.inr (.inr (.inr (.inr (.inr (.inr (.inr (.inr (.inr (.inr (.inr (.inr (.inr (.inr (.inr (.inr (.inr (.inr (.inr (.inr (.inr (.inl ⟨rfl, _, rfl⟩)))))))))))))))))))))))))) (fun _ he => source_ne_package (by unfold PKG_CP_EVOFFERED.addr cpBase; split <;> omega) he)
theorem touch.PKG_CP_EVDROPPED (s : State) (n : Nat) (v : Word) : touch 0x40000000000000000000000000000000 s (s.wr (PKG_CP_EVDROPPED.addr n) v) :=
  touch.of_wr s v (.inr (.inr (.inr (.inr (.inr (.inr (.inr (.inr (.inr (.inr (.inr (.inr (.inr (.inr (.inr (.inr (.inr (.inr (.inr (.inr (.inr (.inr (.inr (.inr (.inr (.inr (.inl ⟨rfl, _, rfl⟩))))))))))))))))))))))))))) (fun _ he => source_ne_package (by unfold PKG_CP_EVDROPPED.addr cpBase; split <;> omega) he)
theorem touch.PKG_CP_EVQ (s : State) (n k : Nat) (v : Word) : touch 0x80000000000000000000000000000000 s (s.wr (PKG_CP_EVQ.addr n k) v) :=
  touch.of_wr s v (.inr (.inr (.inr (.inr (.inr (.inr (.inr (.inr (.inr (.inr (.inr (.inr (.inr (.inr (.inr (.inr (.inr (.inr (.inr (.inr (.inr (.inr (.inr (.inr (.inr (.inr (.inr (.inl ⟨rfl, _, _, rfl⟩)))))))))))))))))))))))))))) (fun _ he => source_ne_package (by unfold PKG_CP_EVQ.addr cpBase; split <;> omega) he)
theorem touch.PKG_MGT_ACCEPT (s : State) (v : Word) : touch 0x100000000000000000000000000000000 s (s.wr (PKG_MGT_ACCEPT.addr) v) :=
  touch.of_wr s v (.inr (.inr (.inr (.inr (.inr (.inr (.inr (.inr (.inr (.inr (.inr (.inr (.inr (.inr (.inr (.inr (.inr (.inr (.inr (.inr (.inr (.inr (.inr (.inr (.inr (.inr (.inr (.inr (.inl ⟨rfl, rfl⟩))))))))))))))))))))))))))))) (fun _ he => source_ne_package (by unfold PKG_MGT_ACCEPT.addr; omega) he)
theorem touch.PKG_MGT_PRIV (s : State) (v : Word) : touch 0x200000000000000000000000000000000 s (s.wr (PKG_MGT_PRIV.addr) v) :=
  touch.of_wr s v (.inr (.inr (.inr (.inr (.inr (.inr (.inr (.inr (.inr (.inr (.inr (.inr (.inr (.inr (.inr (.inr (.inr (.inr (.inr (.inr (.inr (.inr (.inr (.inr (.inr (.inr (.inr (.inr (.inr (.inl ⟨rfl, rfl⟩)))))))))))))))))))))))))))))) (fun _ he => source_ne_package (by unfold PKG_MGT_PRIV.addr; omega) he)
theorem touch.PKG_MGT_STAT (s : State) (v : Word) : touch 0x400000000000000000000000000000000 s (s.wr (PKG_MGT_STAT.addr) v) :=
  touch.of_wr s v (.inr (.inr (.inr (.inr (.inr (.inr (.inr (.inr (.inr (.inr (.inr (.inr (.inr (.inr (.inr (.inr (.inr (.inr (.inr (.inr (.inr (.inr (.inr (.inr (.inr (.inr (.inr (.inr (.inr (.inr (.inl ⟨rfl, rfl⟩))))))))))))))))))))))))))))))) (fun _ he => source_ne_package (by unfold PKG_MGT_STAT.addr; omega) he)
theorem touch.PKG_MEAS_CTL (s : State) (v : Word) : touch 0x800000000000000000000000000000000 s (s.wr (PKG_MEAS_CTL.addr) v) :=
  touch.of_wr s v (.inr (.inr (.inr (.inr (.inr (.inr (.inr (.inr (.inr (.inr (.inr (.inr (.inr (.inr (.inr (.inr (.inr (.inr (.inr (.inr (.inr (.inr (.inr (.inr (.inr (.inr (.inr (.inr (.inr (.inr (.inr (.inl ⟨rfl, rfl⟩)))))))))))))))))))))))))))))))) (fun _ he => source_ne_package (by unfold PKG_MEAS_CTL.addr; omega) he)
theorem touch.PKG_MEAS_D (s : State) (k : Nat) (v : Word) : touch 0x1000000000000000000000000000000000 s (s.wr (PKG_MEAS_D.addr k) v) :=
  touch.of_wr s v (.inr (.inr (.inr (.inr (.inr (.inr (.inr (.inr (.inr (.inr (.inr (.inr (.inr (.inr (.inr (.inr (.inr (.inr (.inr (.inr (.inr (.inr (.inr (.inr (.inr (.inr (.inr (.inr (.inr (.inr (.inr (.inr (.inl ⟨rfl, _, rfl⟩))))))))))))))))))))))))))))))))) (fun _ he => source_ne_package (by unfold PKG_MEAS_D.addr; omega) he)
theorem touch.PKG_MEAS_X (s : State) (k : Nat) (v : Word) : touch 0x2000000000000000000000000000000000 s (s.wr (PKG_MEAS_X.addr k) v) :=
  touch.of_wr s v (.inr (.inr (.inr (.inr (.inr (.inr (.inr (.inr (.inr (.inr (.inr (.inr (.inr (.inr (.inr (.inr (.inr (.inr (.inr (.inr (.inr (.inr (.inr (.inr (.inr (.inr (.inr (.inr (.inr (.inr (.inr (.inr (.inr (.inl ⟨rfl, _, rfl⟩)))))))))))))))))))))))))))))))))) (fun _ he => source_ne_package (by unfold PKG_MEAS_X.addr; omega) he)
theorem touch.DIE_TIME (s : State) (d : Nat) (v : Word) : touch 0x4000000000000000000000000000000000 s (s.wr (DIE_TIME.addr d) v) :=
  touch.of_wr s v (.inr (.inr (.inr (.inr (.inr (.inr (.inr (.inr (.inr (.inr (.inr (.inr (.inr (.inr (.inr (.inr (.inr (.inr (.inr (.inr (.inr (.inr (.inr (.inr (.inr (.inr (.inr (.inr (.inr (.inr (.inr (.inr (.inr (.inr (.inl ⟨rfl, _, rfl⟩))))))))))))))))))))))))))))))))))) (fun _ he => by
    have := source_ne_die (d := d) (o := 0) (by omega) he
    unfold DIE_TIME.addr
    simpa using this)
theorem touch.DIE_PWR (s : State) (d : Nat) (v : Word) : touch 0x8000000000000000000000000000000000 s (s.wr (DIE_PWR.addr d) v) :=
  touch.of_wr s v (.inr (.inr (.inr (.inr (.inr (.inr (.inr (.inr (.inr (.inr (.inr (.inr (.inr (.inr (.inr (.inr (.inr (.inr (.inr (.inr (.inr (.inr (.inr (.inr (.inr (.inr (.inr (.inr (.inr (.inr (.inr (.inr (.inr (.inr (.inr (.inl ⟨rfl, _, rfl⟩)))))))))))))))))))))))))))))))))))) (fun _ he => by
    have := source_ne_die (d := d) (o := 0x8) (by omega) he
    unfold DIE_PWR.addr
    omega)
theorem touch.DIE_THERM (s : State) (d : Nat) (v : Word) : touch 0x10000000000000000000000000000000000 s (s.wr (DIE_THERM.addr d) v) :=
  touch.of_wr s v (.inr (.inr (.inr (.inr (.inr (.inr (.inr (.inr (.inr (.inr (.inr (.inr (.inr (.inr (.inr (.inr (.inr (.inr (.inr (.inr (.inr (.inr (.inr (.inr (.inr (.inr (.inr (.inr (.inr (.inr (.inr (.inr (.inr (.inr (.inr (.inr (.inl ⟨rfl, _, rfl⟩))))))))))))))))))))))))))))))))))))) (fun _ he => by
    have := source_ne_die (d := d) (o := 0x10) (by omega) he
    unfold DIE_THERM.addr
    omega)
theorem touch.DIE_KEEPER_WDT (s : State) (k : Nat) (v : Word) : touch 0x20000000000000000000000000000000000 s (s.wr (DIE_KEEPER_WDT.addr k) v) :=
  touch.of_wr s v (.inr (.inr (.inr (.inr (.inr (.inr (.inr (.inr (.inr (.inr (.inr (.inr (.inr (.inr (.inr (.inr (.inr (.inr (.inr (.inr (.inr (.inr (.inr (.inr (.inr (.inr (.inr (.inr (.inr (.inr (.inr (.inr (.inr (.inr (.inr (.inr (.inr (.inl ⟨rfl, _, rfl⟩)))))))))))))))))))))))))))))))))))))) (fun _ he => by
    have := source_ne_die (d := k / 2) (o := 0x18 + 8 * (k % 2)) (by omega) he
    unfold DIE_KEEPER_WDT.addr
    omega)
theorem touch.DIE_RECON (s : State) (d : Nat) (v : Word) : touch 0x40000000000000000000000000000000000 s (s.wr (DIE_RECON.addr d) v) :=
  touch.of_wr s v (.inr (.inr (.inr (.inr (.inr (.inr (.inr (.inr (.inr (.inr (.inr (.inr (.inr (.inr (.inr (.inr (.inr (.inr (.inr (.inr (.inr (.inr (.inr (.inr (.inr (.inr (.inr (.inr (.inr (.inr (.inr (.inr (.inr (.inr (.inr (.inr (.inr (.inr (.inl ⟨rfl, _, rfl⟩))))))))))))))))))))))))))))))))))))))) (fun _ he => by
    have := source_ne_die (d := d) (o := 0x28) (by omega) he
    unfold DIE_RECON.addr
    omega)
theorem touch.DIE_RECON_CTL (s : State) (d : Nat) (v : Word) : touch 0x80000000000000000000000000000000000 s (s.wr (DIE_RECON_CTL.addr d) v) :=
  touch.of_wr s v (.inr (.inr (.inr (.inr (.inr (.inr (.inr (.inr (.inr (.inr (.inr (.inr (.inr (.inr (.inr (.inr (.inr (.inr (.inr (.inr (.inr (.inr (.inr (.inr (.inr (.inr (.inr (.inr (.inr (.inr (.inr (.inr (.inr (.inr (.inr (.inr (.inr (.inr (.inr (.inl ⟨rfl, _, rfl⟩)))))))))))))))))))))))))))))))))))))))) (fun _ he => by
    have := source_ne_die (d := d) (o := 0x30) (by omega) he
    unfold DIE_RECON_CTL.addr
    omega)
theorem touch.DIE_XSTAT (s : State) (d : Nat) (v : Word) : touch 0x100000000000000000000000000000000000 s (s.wr (DIE_XSTAT.addr d) v) :=
  touch.of_wr s v (.inr (.inr (.inr (.inr (.inr (.inr (.inr (.inr (.inr (.inr (.inr (.inr (.inr (.inr (.inr (.inr (.inr (.inr (.inr (.inr (.inr (.inr (.inr (.inr (.inr (.inr (.inr (.inr (.inr (.inr (.inr (.inr (.inr (.inr (.inr (.inr (.inr (.inr (.inr (.inr (.inl ⟨rfl, _, rfl⟩))))))))))))))))))))))))))))))))))))))))) (fun _ he => by
    have := source_ne_die (d := d) (o := 0x38) (by omega) he
    unfold DIE_XSTAT.addr
    omega)
theorem touch.DIE_XDISCARD (s : State) (d : Nat) (v : Word) : touch 0x200000000000000000000000000000000000 s (s.wr (DIE_XDISCARD.addr d) v) :=
  touch.of_wr s v (.inr (.inr (.inr (.inr (.inr (.inr (.inr (.inr (.inr (.inr (.inr (.inr (.inr (.inr (.inr (.inr (.inr (.inr (.inr (.inr (.inr (.inr (.inr (.inr (.inr (.inr (.inr (.inr (.inr (.inr (.inr (.inr (.inr (.inr (.inr (.inr (.inr (.inr (.inr (.inr (.inr (.inl ⟨rfl, _, rfl⟩)))))))))))))))))))))))))))))))))))))))))) (fun _ he => by
    have := source_ne_die (d := d) (o := 0x40) (by omega) he
    unfold DIE_XDISCARD.addr
    omega)
theorem touch.DIE_TALLY_SEL (s : State) (d : Nat) (v : Word) : touch 0x400000000000000000000000000000000000 s (s.wr (DIE_TALLY_SEL.addr d) v) :=
  touch.of_wr s v (.inr (.inr (.inr (.inr (.inr (.inr (.inr (.inr (.inr (.inr (.inr (.inr (.inr (.inr (.inr (.inr (.inr (.inr (.inr (.inr (.inr (.inr (.inr (.inr (.inr (.inr (.inr (.inr (.inr (.inr (.inr (.inr (.inr (.inr (.inr (.inr (.inr (.inr (.inr (.inr (.inr (.inr (.inl ⟨rfl, _, rfl⟩))))))))))))))))))))))))))))))))))))))))))) (fun _ he => by
    have := source_ne_die (d := d) (o := 0x48) (by omega) he
    unfold DIE_TALLY_SEL.addr
    omega)
theorem touch.DIE_TALLY_A (s : State) (d : Nat) (v : Word) : touch 0x800000000000000000000000000000000000 s (s.wr (DIE_TALLY_A.addr d) v) :=
  touch.of_wr s v (.inr (.inr (.inr (.inr (.inr (.inr (.inr (.inr (.inr (.inr (.inr (.inr (.inr (.inr (.inr (.inr (.inr (.inr (.inr (.inr (.inr (.inr (.inr (.inr (.inr (.inr (.inr (.inr (.inr (.inr (.inr (.inr (.inr (.inr (.inr (.inr (.inr (.inr (.inr (.inr (.inr (.inr (.inr (.inl ⟨rfl, _, rfl⟩)))))))))))))))))))))))))))))))))))))))))))) (fun _ he => by
    have := source_ne_die (d := d) (o := 0x50) (by omega) he
    unfold DIE_TALLY_A.addr
    omega)
theorem touch.DIE_TALLY_B (s : State) (d : Nat) (v : Word) : touch 0x1000000000000000000000000000000000000 s (s.wr (DIE_TALLY_B.addr d) v) :=
  touch.of_wr s v (.inr (.inr (.inr (.inr (.inr (.inr (.inr (.inr (.inr (.inr (.inr (.inr (.inr (.inr (.inr (.inr (.inr (.inr (.inr (.inr (.inr (.inr (.inr (.inr (.inr (.inr (.inr (.inr (.inr (.inr (.inr (.inr (.inr (.inr (.inr (.inr (.inr (.inr (.inr (.inr (.inr (.inr (.inr (.inr (.inl ⟨rfl, _, rfl⟩))))))))))))))))))))))))))))))))))))))))))))) (fun _ he => by
    have := source_ne_die (d := d) (o := 0x58) (by omega) he
    unfold DIE_TALLY_B.addr
    omega)
theorem touch.DIE_TALLY_C (s : State) (d : Nat) (v : Word) : touch 0x2000000000000000000000000000000000000 s (s.wr (DIE_TALLY_C.addr d) v) :=
  touch.of_wr s v (.inr (.inr (.inr (.inr (.inr (.inr (.inr (.inr (.inr (.inr (.inr (.inr (.inr (.inr (.inr (.inr (.inr (.inr (.inr (.inr (.inr (.inr (.inr (.inr (.inr (.inr (.inr (.inr (.inr (.inr (.inr (.inr (.inr (.inr (.inr (.inr (.inr (.inr (.inr (.inr (.inr (.inr (.inr (.inr (.inr (.inl ⟨rfl, _, rfl⟩)))))))))))))))))))))))))))))))))))))))))))))) (fun _ he => by
    have := source_ne_die (d := d) (o := 0x60) (by omega) he
    unfold DIE_TALLY_C.addr
    omega)
theorem touch.DIE_TALLY_D (s : State) (d : Nat) (v : Word) : touch 0x4000000000000000000000000000000000000 s (s.wr (DIE_TALLY_D.addr d) v) :=
  touch.of_wr s v (.inr (.inr (.inr (.inr (.inr (.inr (.inr (.inr (.inr (.inr (.inr (.inr (.inr (.inr (.inr (.inr (.inr (.inr (.inr (.inr (.inr (.inr (.inr (.inr (.inr (.inr (.inr (.inr (.inr (.inr (.inr (.inr (.inr (.inr (.inr (.inr (.inr (.inr (.inr (.inr (.inr (.inr (.inr (.inr (.inr (.inr (.inl ⟨rfl, _, rfl⟩))))))))))))))))))))))))))))))))))))))))))))))) (fun _ he => by
    have := source_ne_die (d := d) (o := 0x68) (by omega) he
    unfold DIE_TALLY_D.addr
    omega)
theorem touch.DIE_TALLY_E (s : State) (d : Nat) (v : Word) : touch 0x8000000000000000000000000000000000000 s (s.wr (DIE_TALLY_E.addr d) v) :=
  touch.of_wr s v (.inr (.inr (.inr (.inr (.inr (.inr (.inr (.inr (.inr (.inr (.inr (.inr (.inr (.inr (.inr (.inr (.inr (.inr (.inr (.inr (.inr (.inr (.inr (.inr (.inr (.inr (.inr (.inr (.inr (.inr (.inr (.inr (.inr (.inr (.inr (.inr (.inr (.inr (.inr (.inr (.inr (.inr (.inr (.inr (.inr (.inr (.inr (.inl ⟨rfl, _, rfl⟩)))))))))))))))))))))))))))))))))))))))))))))))) (fun _ he => by
    have := source_ne_die (d := d) (o := 0x70) (by omega) he
    unfold DIE_TALLY_E.addr
    omega)
theorem touch.DIE_EVT_INJECT (s : State) (d : Nat) (v : Word) : touch 0x10000000000000000000000000000000000000 s (s.wr (DIE_EVT_INJECT.addr d) v) :=
  touch.of_wr s v (.inr (.inr (.inr (.inr (.inr (.inr (.inr (.inr (.inr (.inr (.inr (.inr (.inr (.inr (.inr (.inr (.inr (.inr (.inr (.inr (.inr (.inr (.inr (.inr (.inr (.inr (.inr (.inr (.inr (.inr (.inr (.inr (.inr (.inr (.inr (.inr (.inr (.inr (.inr (.inr (.inr (.inr (.inr (.inr (.inr (.inr (.inr (.inr (.inl ⟨rfl, _, rfl⟩))))))))))))))))))))))))))))))))))))))))))))))))) (fun _ he => by
    have := source_ne_die (d := d) (o := 0x78) (by omega) he
    unfold DIE_EVT_INJECT.addr
    omega)
theorem touch.TOLL_CTL (s : State) (d : Nat) (v : Word) : touch 0x20000000000000000000000000000000000000 s (s.wr (TOLL_CTL.addr d) v) :=
  touch.of_wr s v (.inr (.inr (.inr (.inr (.inr (.inr (.inr (.inr (.inr (.inr (.inr (.inr (.inr (.inr (.inr (.inr (.inr (.inr (.inr (.inr (.inr (.inr (.inr (.inr (.inr (.inr (.inr (.inr (.inr (.inr (.inr (.inr (.inr (.inr (.inr (.inr (.inr (.inr (.inr (.inr (.inr (.inr (.inr (.inr (.inr (.inr (.inr (.inr (.inr (.inl ⟨rfl, _, rfl⟩)))))))))))))))))))))))))))))))))))))))))))))))))) (fun _ he => by
    have := source_ne_die (d := d) (o := 0x80) (by omega) he
    unfold TOLL_CTL.addr
    omega)
theorem touch.TOLL_VIOL (s : State) (d : Nat) (v : Word) : touch 0x40000000000000000000000000000000000000 s (s.wr (TOLL_VIOL.addr d) v) :=
  touch.of_wr s v (.inr (.inr (.inr (.inr (.inr (.inr (.inr (.inr (.inr (.inr (.inr (.inr (.inr (.inr (.inr (.inr (.inr (.inr (.inr (.inr (.inr (.inr (.inr (.inr (.inr (.inr (.inr (.inr (.inr (.inr (.inr (.inr (.inr (.inr (.inr (.inr (.inr (.inr (.inr (.inr (.inr (.inr (.inr (.inr (.inr (.inr (.inr (.inr (.inr (.inr (.inl ⟨rfl, _, rfl⟩))))))))))))))))))))))))))))))))))))))))))))))))))) (fun _ he => by
    have := source_ne_die (d := d) (o := 0x88) (by omega) he
    unfold TOLL_VIOL.addr
    omega)
theorem touch.TOLL_VFIRST (s : State) (d k : Nat) (v : Word) : touch 0x80000000000000000000000000000000000000 s (s.wr (TOLL_VFIRST.addr d k) v) :=
  touch.of_wr s v (.inr (.inr (.inr (.inr (.inr (.inr (.inr (.inr (.inr (.inr (.inr (.inr (.inr (.inr (.inr (.inr (.inr (.inr (.inr (.inr (.inr (.inr (.inr (.inr (.inr (.inr (.inr (.inr (.inr (.inr (.inr (.inr (.inr (.inr (.inr (.inr (.inr (.inr (.inr (.inr (.inr (.inr (.inr (.inr (.inr (.inr (.inr (.inr (.inr (.inr (.inr (.inl ⟨rfl, _, _, rfl⟩)))))))))))))))))))))))))))))))))))))))))))))))))))) (fun _ he => by
    have := source_ne_die (d := d) (o := 0x90 + 8 * min k 4) (by omega) he
    unfold TOLL_VFIRST.addr
    omega)
theorem touch.TOLL_VLAST (s : State) (d k : Nat) (v : Word) : touch 0x100000000000000000000000000000000000000 s (s.wr (TOLL_VLAST.addr d k) v) :=
  touch.of_wr s v (.inr (.inr (.inr (.inr (.inr (.inr (.inr (.inr (.inr (.inr (.inr (.inr (.inr (.inr (.inr (.inr (.inr (.inr (.inr (.inr (.inr (.inr (.inr (.inr (.inr (.inr (.inr (.inr (.inr (.inr (.inr (.inr (.inr (.inr (.inr (.inr (.inr (.inr (.inr (.inr (.inr (.inr (.inr (.inr (.inr (.inr (.inr (.inr (.inr (.inr (.inr (.inr (.inl ⟨rfl, _, _, rfl⟩))))))))))))))))))))))))))))))))))))))))))))))))))))) (fun _ he => by
    have := source_ne_die (d := d) (o := 0xB0 + 8 * min k 4) (by omega) he
    unfold TOLL_VLAST.addr
    omega)
theorem touch.PMON_GATHER (s : State) (d : Nat) (v : Word) : touch 0x200000000000000000000000000000000000000 s (s.wr (PMON_GATHER.addr d) v) :=
  touch.of_wr s v (.inr (.inr (.inr (.inr (.inr (.inr (.inr (.inr (.inr (.inr (.inr (.inr (.inr (.inr (.inr (.inr (.inr (.inr (.inr (.inr (.inr (.inr (.inr (.inr (.inr (.inr (.inr (.inr (.inr (.inr (.inr (.inr (.inr (.inr (.inr (.inr (.inr (.inr (.inr (.inr (.inr (.inr (.inr (.inr (.inr (.inr (.inr (.inr (.inr (.inr (.inr (.inr (.inr (.inl ⟨rfl, _, rfl⟩)))))))))))))))))))))))))))))))))))))))))))))))))))))) (fun _ he => by
    have := source_ne_die (d := d) (o := 0xD0) (by omega) he
    unfold PMON_GATHER.addr
    omega)
theorem touch.PMON_DIE_HI (s : State) (d : Nat) (v : Word) : touch 0x400000000000000000000000000000000000000 s (s.wr (PMON_DIE_HI.addr d) v) :=
  touch.of_wr s v (.inr (.inr (.inr (.inr (.inr (.inr (.inr (.inr (.inr (.inr (.inr (.inr (.inr (.inr (.inr (.inr (.inr (.inr (.inr (.inr (.inr (.inr (.inr (.inr (.inr (.inr (.inr (.inr (.inr (.inr (.inr (.inr (.inr (.inr (.inr (.inr (.inr (.inr (.inr (.inr (.inr (.inr (.inr (.inr (.inr (.inr (.inr (.inr (.inr (.inr (.inr (.inr (.inr (.inr (.inl ⟨rfl, _, rfl⟩))))))))))))))))))))))))))))))))))))))))))))))))))))))) (fun _ he => by
    have := source_ne_die (d := d) (o := 0xD8) (by omega) he
    unfold PMON_DIE_HI.addr
    omega)
theorem touch.PMON_TQ_OFFERED (s : State) (d : Nat) (v : Word) : touch 0x800000000000000000000000000000000000000 s (s.wr (PMON_TQ_OFFERED.addr d) v) :=
  touch.of_wr s v (.inr (.inr (.inr (.inr (.inr (.inr (.inr (.inr (.inr (.inr (.inr (.inr (.inr (.inr (.inr (.inr (.inr (.inr (.inr (.inr (.inr (.inr (.inr (.inr (.inr (.inr (.inr (.inr (.inr (.inr (.inr (.inr (.inr (.inr (.inr (.inr (.inr (.inr (.inr (.inr (.inr (.inr (.inr (.inr (.inr (.inr (.inr (.inr (.inr (.inr (.inr (.inr (.inr (.inr (.inr (.inl ⟨rfl, _, rfl⟩)))))))))))))))))))))))))))))))))))))))))))))))))))))))) (fun _ he => by
    have := source_ne_die (d := d) (o := 0xE0) (by omega) he
    unfold PMON_TQ_OFFERED.addr
    omega)
theorem touch.PMON_TQ_DROPPED (s : State) (d : Nat) (v : Word) : touch 0x1000000000000000000000000000000000000000 s (s.wr (PMON_TQ_DROPPED.addr d) v) :=
  touch.of_wr s v (.inr (.inr (.inr (.inr (.inr (.inr (.inr (.inr (.inr (.inr (.inr (.inr (.inr (.inr (.inr (.inr (.inr (.inr (.inr (.inr (.inr (.inr (.inr (.inr (.inr (.inr (.inr (.inr (.inr (.inr (.inr (.inr (.inr (.inr (.inr (.inr (.inr (.inr (.inr (.inr (.inr (.inr (.inr (.inr (.inr (.inr (.inr (.inr (.inr (.inr (.inr (.inr (.inr (.inr (.inr (.inr (.inl ⟨rfl, _, rfl⟩))))))))))))))))))))))))))))))))))))))))))))))))))))))))) (fun _ he => by
    have := source_ne_die (d := d) (o := 0xE8) (by omega) he
    unfold PMON_TQ_DROPPED.addr
    omega)
theorem touch.EVT_LATCH (s : State) (d k : Nat) (v : Word) : touch 0x2000000000000000000000000000000000000000 s (s.wr (EVT_LATCH.addr d k) v) :=
  touch.of_wr s v (.inr (.inr (.inr (.inr (.inr (.inr (.inr (.inr (.inr (.inr (.inr (.inr (.inr (.inr (.inr (.inr (.inr (.inr (.inr (.inr (.inr (.inr (.inr (.inr (.inr (.inr (.inr (.inr (.inr (.inr (.inr (.inr (.inr (.inr (.inr (.inr (.inr (.inr (.inr (.inr (.inr (.inr (.inr (.inr (.inr (.inr (.inr (.inr (.inr (.inr (.inr (.inr (.inr (.inr (.inr (.inr (.inr (.inl ⟨rfl, _, _, rfl⟩)))))))))))))))))))))))))))))))))))))))))))))))))))))))))) (fun _ he => by
    have := source_ne_die (d := d) (o := 0x2000 + 8 * min k 36) (by omega) he
    unfold EVT_LATCH.addr
    omega)
theorem touch.EVT_XQ_OFFERED (s : State) (d q : Nat) (v : Word) : touch 0x4000000000000000000000000000000000000000 s (s.wr (EVT_XQ_OFFERED.addr d q) v) :=
  touch.of_wr s v (.inr (.inr (.inr (.inr (.inr (.inr (.inr (.inr (.inr (.inr (.inr (.inr (.inr (.inr (.inr (.inr (.inr (.inr (.inr (.inr (.inr (.inr (.inr (.inr (.inr (.inr (.inr (.inr (.inr (.inr (.inr (.inr (.inr (.inr (.inr (.inr (.inr (.inr (.inr (.inr (.inr (.inr (.inr (.inr (.inr (.inr (.inr (.inr (.inr (.inr (.inr (.inr (.inr (.inr (.inr (.inr (.inr (.inr (.inl ⟨rfl, _, _, rfl⟩))))))))))))))))))))))))))))))))))))))))))))))))))))))))))) (fun _ he => by
    have := source_ne_die (d := d) (o := 0x2200 + 16 * min q 4) (by omega) he
    unfold EVT_XQ_OFFERED.addr
    omega)
theorem touch.EVT_XQ_DROPPED (s : State) (d q : Nat) (v : Word) : touch 0x8000000000000000000000000000000000000000 s (s.wr (EVT_XQ_DROPPED.addr d q) v) :=
  touch.of_wr s v (.inr (.inr (.inr (.inr (.inr (.inr (.inr (.inr (.inr (.inr (.inr (.inr (.inr (.inr (.inr (.inr (.inr (.inr (.inr (.inr (.inr (.inr (.inr (.inr (.inr (.inr (.inr (.inr (.inr (.inr (.inr (.inr (.inr (.inr (.inr (.inr (.inr (.inr (.inr (.inr (.inr (.inr (.inr (.inr (.inr (.inr (.inr (.inr (.inr (.inr (.inr (.inr (.inr (.inr (.inr (.inr (.inr (.inr (.inr (.inl ⟨rfl, _, _, rfl⟩)))))))))))))))))))))))))))))))))))))))))))))))))))))))))))) (fun _ he => by
    have := source_ne_die (d := d) (o := 0x2208 + 16 * min q 4) (by omega) he
    unfold EVT_XQ_DROPPED.addr
    omega)
theorem touch.EVT_PQ (s : State) (d p k : Nat) (v : Word) : touch 0x10000000000000000000000000000000000000000 s (s.wr (EVT_PQ.addr d p k) v) :=
  touch.of_wr s v (.inr (.inr (.inr (.inr (.inr (.inr (.inr (.inr (.inr (.inr (.inr (.inr (.inr (.inr (.inr (.inr (.inr (.inr (.inr (.inr (.inr (.inr (.inr (.inr (.inr (.inr (.inr (.inr (.inr (.inr (.inr (.inr (.inr (.inr (.inr (.inr (.inr (.inr (.inr (.inr (.inr (.inr (.inr (.inr (.inr (.inr (.inr (.inr (.inr (.inr (.inr (.inr (.inr (.inr (.inr (.inr (.inr (.inr (.inr (.inr (.inl ⟨rfl, _, _, _, rfl⟩))))))))))))))))))))))))))))))))))))))))))))))))))))))))))))) (fun _ he => by
    have := source_ne_die (d := d) (o := 0x3000 + 32 * min p 64 + 8 * min k 4) (by omega) he
    unfold EVT_PQ.addr
    omega)
theorem touch.EVT_PQ_OFFERED (s : State) (d p : Nat) (v : Word) : touch 0x20000000000000000000000000000000000000000 s (s.wr (EVT_PQ_OFFERED.addr d p) v) :=
  touch.of_wr s v (.inr (.inr (.inr (.inr (.inr (.inr (.inr (.inr (.inr (.inr (.inr (.inr (.inr (.inr (.inr (.inr (.inr (.inr (.inr (.inr (.inr (.inr (.inr (.inr (.inr (.inr (.inr (.inr (.inr (.inr (.inr (.inr (.inr (.inr (.inr (.inr (.inr (.inr (.inr (.inr (.inr (.inr (.inr (.inr (.inr (.inr (.inr (.inr (.inr (.inr (.inr (.inr (.inr (.inr (.inr (.inr (.inr (.inr (.inr (.inr (.inr (.inl ⟨rfl, _, _, rfl⟩)))))))))))))))))))))))))))))))))))))))))))))))))))))))))))))) (fun _ he => by
    have := source_ne_die (d := d) (o := 0x3800 + 16 * min p 64) (by omega) he
    unfold EVT_PQ_OFFERED.addr
    omega)
theorem touch.EVT_PQ_DROPPED (s : State) (d p : Nat) (v : Word) : touch 0x40000000000000000000000000000000000000000 s (s.wr (EVT_PQ_DROPPED.addr d p) v) :=
  touch.of_wr s v (.inr (.inr (.inr (.inr (.inr (.inr (.inr (.inr (.inr (.inr (.inr (.inr (.inr (.inr (.inr (.inr (.inr (.inr (.inr (.inr (.inr (.inr (.inr (.inr (.inr (.inr (.inr (.inr (.inr (.inr (.inr (.inr (.inr (.inr (.inr (.inr (.inr (.inr (.inr (.inr (.inr (.inr (.inr (.inr (.inr (.inr (.inr (.inr (.inr (.inr (.inr (.inr (.inr (.inr (.inr (.inr (.inr (.inr (.inr (.inr (.inr (.inr (.inl ⟨rfl, _, _, rfl⟩))))))))))))))))))))))))))))))))))))))))))))))))))))))))))))))) (fun _ he => by
    have := source_ne_die (d := d) (o := 0x3808 + 16 * min p 64) (by omega) he
    unfold EVT_PQ_DROPPED.addr
    omega)
theorem touch.PMON_DIE_SEL (s : State) (d n : Nat) (v : Word) : touch 0x80000000000000000000000000000000000000000 s (s.wr (PMON_DIE_SEL.addr d n) v) :=
  touch.of_wr s v (.inr (.inr (.inr (.inr (.inr (.inr (.inr (.inr (.inr (.inr (.inr (.inr (.inr (.inr (.inr (.inr (.inr (.inr (.inr (.inr (.inr (.inr (.inr (.inr (.inr (.inr (.inr (.inr (.inr (.inr (.inr (.inr (.inr (.inr (.inr (.inr (.inr (.inr (.inr (.inr (.inr (.inr (.inr (.inr (.inr (.inr (.inr (.inr (.inr (.inr (.inr (.inr (.inr (.inr (.inr (.inr (.inr (.inr (.inr (.inr (.inr (.inr (.inr (.inl ⟨rfl, _, _, rfl⟩)))))))))))))))))))))))))))))))))))))))))))))))))))))))))))))))) (fun _ he => by
    have := source_ne_die (d := d) (o := 0x4000 + 8 * min n 64) (by omega) he
    unfold PMON_DIE_SEL.addr
    omega)
theorem touch.PMON_DIE_CTR (s : State) (d n : Nat) (v : Word) : touch 0x100000000000000000000000000000000000000000 s (s.wr (PMON_DIE_CTR.addr d n) v) :=
  touch.of_wr s v (.inr (.inr (.inr (.inr (.inr (.inr (.inr (.inr (.inr (.inr (.inr (.inr (.inr (.inr (.inr (.inr (.inr (.inr (.inr (.inr (.inr (.inr (.inr (.inr (.inr (.inr (.inr (.inr (.inr (.inr (.inr (.inr (.inr (.inr (.inr (.inr (.inr (.inr (.inr (.inr (.inr (.inr (.inr (.inr (.inr (.inr (.inr (.inr (.inr (.inr (.inr (.inr (.inr (.inr (.inr (.inr (.inr (.inr (.inr (.inr (.inr (.inr (.inr (.inr (.inl ⟨rfl, _, _, rfl⟩))))))))))))))))))))))))))))))))))))))))))))))))))))))))))))))))) (fun _ he => by
    have := source_ne_die (d := d) (o := 0x4200 + 8 * min n 64) (by omega) he
    unfold PMON_DIE_CTR.addr
    omega)
theorem touch.TOLL (s : State) (d i k : Nat) (v : Word) : touch 0x200000000000000000000000000000000000000000 s (s.wr (TOLL.addr d i k) v) :=
  touch.of_wr s v (.inr (.inr (.inr (.inr (.inr (.inr (.inr (.inr (.inr (.inr (.inr (.inr (.inr (.inr (.inr (.inr (.inr (.inr (.inr (.inr (.inr (.inr (.inr (.inr (.inr (.inr (.inr (.inr (.inr (.inr (.inr (.inr (.inr (.inr (.inr (.inr (.inr (.inr (.inr (.inr (.inr (.inr (.inr (.inr (.inr (.inr (.inr (.inr (.inr (.inr (.inr (.inr (.inr (.inr (.inr (.inr (.inr (.inr (.inr (.inr (.inr (.inr (.inr (.inr (.inr (.inl ⟨rfl, _, _, _, rfl⟩)))))))))))))))))))))))))))))))))))))))))))))))))))))))))))))))))) (fun _ he => by
    have := source_ne_die (d := d) (o := 0x1000000 + 32 * min i 16384 + 8 * min k 4) (by omega) he
    unfold TOLL.addr
    omega)
theorem touch.CL_XSTAT (s : State) (c : Nat) (v : Word) : touch 0x400000000000000000000000000000000000000000 s (s.wr (CL_XSTAT.addr c) v) :=
  touch.of_wr s v (.inr (.inr (.inr (.inr (.inr (.inr (.inr (.inr (.inr (.inr (.inr (.inr (.inr (.inr (.inr (.inr (.inr (.inr (.inr (.inr (.inr (.inr (.inr (.inr (.inr (.inr (.inr (.inr (.inr (.inr (.inr (.inr (.inr (.inr (.inr (.inr (.inr (.inr (.inr (.inr (.inr (.inr (.inr (.inr (.inr (.inr (.inr (.inr (.inr (.inr (.inr (.inr (.inr (.inr (.inr (.inr (.inr (.inr (.inr (.inr (.inr (.inr (.inr (.inr (.inr (.inr (.inl ⟨rfl, _, rfl⟩))))))))))))))))))))))))))))))))))))))))))))))))))))))))))))))))))) (fun _ he => by
    have := source_ne_cluster (c := c) (o := 0) (by omega) he
    unfold CL_XSTAT.addr
    simpa using this)
theorem touch.CL_XERR (s : State) (c n : Nat) (v : Word) : touch 0x800000000000000000000000000000000000000000 s (s.wr (CL_XERR.addr c n) v) :=
  touch.of_wr s v (.inr (.inr (.inr (.inr (.inr (.inr (.inr (.inr (.inr (.inr (.inr (.inr (.inr (.inr (.inr (.inr (.inr (.inr (.inr (.inr (.inr (.inr (.inr (.inr (.inr (.inr (.inr (.inr (.inr (.inr (.inr (.inr (.inr (.inr (.inr (.inr (.inr (.inr (.inr (.inr (.inr (.inr (.inr (.inr (.inr (.inr (.inr (.inr (.inr (.inr (.inr (.inr (.inr (.inr (.inr (.inr (.inr (.inr (.inr (.inr (.inr (.inr (.inr (.inr (.inr (.inr (.inr (.inl ⟨rfl, _, _, rfl⟩)))))))))))))))))))))))))))))))))))))))))))))))))))))))))))))))))))) (fun _ he => by
    have := source_ne_cluster (c := c) (o := 0 + 0x8 + 8 * (n % 4)) (by omega) he
    unfold CL_XERR.addr
    omega)
theorem touch.CL_TALLY_SEL (s : State) (c : Nat) (v : Word) : touch 0x1000000000000000000000000000000000000000000 s (s.wr (CL_TALLY_SEL.addr c) v) :=
  touch.of_wr s v (.inr (.inr (.inr (.inr (.inr (.inr (.inr (.inr (.inr (.inr (.inr (.inr (.inr (.inr (.inr (.inr (.inr (.inr (.inr (.inr (.inr (.inr (.inr (.inr (.inr (.inr (.inr (.inr (.inr (.inr (.inr (.inr (.inr (.inr (.inr (.inr (.inr (.inr (.inr (.inr (.inr (.inr (.inr (.inr (.inr (.inr (.inr (.inr (.inr (.inr (.inr (.inr (.inr (.inr (.inr (.inr (.inr (.inr (.inr (.inr (.inr (.inr (.inr (.inr (.inr (.inr (.inr (.inr (.inl ⟨rfl, _, rfl⟩))))))))))))))))))))))))))))))))))))))))))))))))))))))))))))))))))))) (fun _ he => by
    have := source_ne_cluster (c := c) (o := 0 + 0x28) (by omega) he
    unfold CL_TALLY_SEL.addr
    omega)
theorem touch.CL_TALLY_A (s : State) (c : Nat) (v : Word) : touch 0x2000000000000000000000000000000000000000000 s (s.wr (CL_TALLY_A.addr c) v) :=
  touch.of_wr s v (.inr (.inr (.inr (.inr (.inr (.inr (.inr (.inr (.inr (.inr (.inr (.inr (.inr (.inr (.inr (.inr (.inr (.inr (.inr (.inr (.inr (.inr (.inr (.inr (.inr (.inr (.inr (.inr (.inr (.inr (.inr (.inr (.inr (.inr (.inr (.inr (.inr (.inr (.inr (.inr (.inr (.inr (.inr (.inr (.inr (.inr (.inr (.inr (.inr (.inr (.inr (.inr (.inr (.inr (.inr (.inr (.inr (.inr (.inr (.inr (.inr (.inr (.inr (.inr (.inr (.inr (.inr (.inr (.inr (.inl ⟨rfl, _, rfl⟩)))))))))))))))))))))))))))))))))))))))))))))))))))))))))))))))))))))) (fun _ he => by
    have := source_ne_cluster (c := c) (o := 0 + 0x30) (by omega) he
    unfold CL_TALLY_A.addr
    omega)
theorem touch.CL_TALLY_B (s : State) (c : Nat) (v : Word) : touch 0x4000000000000000000000000000000000000000000 s (s.wr (CL_TALLY_B.addr c) v) :=
  touch.of_wr s v (.inr (.inr (.inr (.inr (.inr (.inr (.inr (.inr (.inr (.inr (.inr (.inr (.inr (.inr (.inr (.inr (.inr (.inr (.inr (.inr (.inr (.inr (.inr (.inr (.inr (.inr (.inr (.inr (.inr (.inr (.inr (.inr (.inr (.inr (.inr (.inr (.inr (.inr (.inr (.inr (.inr (.inr (.inr (.inr (.inr (.inr (.inr (.inr (.inr (.inr (.inr (.inr (.inr (.inr (.inr (.inr (.inr (.inr (.inr (.inr (.inr (.inr (.inr (.inr (.inr (.inr (.inr (.inr (.inr (.inr (.inl ⟨rfl, _, rfl⟩))))))))))))))))))))))))))))))))))))))))))))))))))))))))))))))))))))))) (fun _ he => by
    have := source_ne_cluster (c := c) (o := 0 + 0x38) (by omega) he
    unfold CL_TALLY_B.addr
    omega)
theorem touch.CL_TALLY_C (s : State) (c : Nat) (v : Word) : touch 0x8000000000000000000000000000000000000000000 s (s.wr (CL_TALLY_C.addr c) v) :=
  touch.of_wr s v (.inr (.inr (.inr (.inr (.inr (.inr (.inr (.inr (.inr (.inr (.inr (.inr (.inr (.inr (.inr (.inr (.inr (.inr (.inr (.inr (.inr (.inr (.inr (.inr (.inr (.inr (.inr (.inr (.inr (.inr (.inr (.inr (.inr (.inr (.inr (.inr (.inr (.inr (.inr (.inr (.inr (.inr (.inr (.inr (.inr (.inr (.inr (.inr (.inr (.inr (.inr (.inr (.inr (.inr (.inr (.inr (.inr (.inr (.inr (.inr (.inr (.inr (.inr (.inr (.inr (.inr (.inr (.inr (.inr (.inr (.inr (.inl ⟨rfl, _, rfl⟩)))))))))))))))))))))))))))))))))))))))))))))))))))))))))))))))))))))))) (fun _ he => by
    have := source_ne_cluster (c := c) (o := 0 + 0x40) (by omega) he
    unfold CL_TALLY_C.addr
    omega)
theorem touch.CL_TALLY_D (s : State) (c : Nat) (v : Word) : touch 0x10000000000000000000000000000000000000000000 s (s.wr (CL_TALLY_D.addr c) v) :=
  touch.of_wr s v (.inr (.inr (.inr (.inr (.inr (.inr (.inr (.inr (.inr (.inr (.inr (.inr (.inr (.inr (.inr (.inr (.inr (.inr (.inr (.inr (.inr (.inr (.inr (.inr (.inr (.inr (.inr (.inr (.inr (.inr (.inr (.inr (.inr (.inr (.inr (.inr (.inr (.inr (.inr (.inr (.inr (.inr (.inr (.inr (.inr (.inr (.inr (.inr (.inr (.inr (.inr (.inr (.inr (.inr (.inr (.inr (.inr (.inr (.inr (.inr (.inr (.inr (.inr (.inr (.inr (.inr (.inr (.inr (.inr (.inr (.inr (.inr (.inl ⟨rfl, _, rfl⟩))))))))))))))))))))))))))))))))))))))))))))))))))))))))))))))))))))))))) (fun _ he => by
    have := source_ne_cluster (c := c) (o := 0 + 0x48) (by omega) he
    unfold CL_TALLY_D.addr
    omega)
theorem touch.CL_TALLY_E (s : State) (c : Nat) (v : Word) : touch 0x20000000000000000000000000000000000000000000 s (s.wr (CL_TALLY_E.addr c) v) :=
  touch.of_wr s v (.inr (.inr (.inr (.inr (.inr (.inr (.inr (.inr (.inr (.inr (.inr (.inr (.inr (.inr (.inr (.inr (.inr (.inr (.inr (.inr (.inr (.inr (.inr (.inr (.inr (.inr (.inr (.inr (.inr (.inr (.inr (.inr (.inr (.inr (.inr (.inr (.inr (.inr (.inr (.inr (.inr (.inr (.inr (.inr (.inr (.inr (.inr (.inr (.inr (.inr (.inr (.inr (.inr (.inr (.inr (.inr (.inr (.inr (.inr (.inr (.inr (.inr (.inr (.inr (.inr (.inr (.inr (.inr (.inr (.inr (.inr (.inr (.inr (.inl ⟨rfl, _, rfl⟩)))))))))))))))))))))))))))))))))))))))))))))))))))))))))))))))))))))))))) (fun _ he => by
    have := source_ne_cluster (c := c) (o := 0 + 0x50) (by omega) he
    unfold CL_TALLY_E.addr
    omega)
theorem touch.CL_WCON_CTL (s : State) (c : Nat) (v : Word) : touch 0x40000000000000000000000000000000000000000000 s (s.wr (CL_WCON_CTL.addr c) v) :=
  touch.of_wr s v (.inr (.inr (.inr (.inr (.inr (.inr (.inr (.inr (.inr (.inr (.inr (.inr (.inr (.inr (.inr (.inr (.inr (.inr (.inr (.inr (.inr (.inr (.inr (.inr (.inr (.inr (.inr (.inr (.inr (.inr (.inr (.inr (.inr (.inr (.inr (.inr (.inr (.inr (.inr (.inr (.inr (.inr (.inr (.inr (.inr (.inr (.inr (.inr (.inr (.inr (.inr (.inr (.inr (.inr (.inr (.inr (.inr (.inr (.inr (.inr (.inr (.inr (.inr (.inr (.inr (.inr (.inr (.inr (.inr (.inr (.inr (.inr (.inr (.inr (.inl ⟨rfl, _, rfl⟩))))))))))))))))))))))))))))))))))))))))))))))))))))))))))))))))))))))))))) (fun _ he => by
    have := source_ne_cluster (c := c) (o := 0 + 0x58) (by omega) he
    unfold CL_WCON_CTL.addr
    omega)
theorem touch.WIN_TRACK (s : State) (c : Nat) (v : Word) : touch 0x80000000000000000000000000000000000000000000 s (s.wr (WIN_TRACK.addr c) v) :=
  touch.of_wr s v (.inr (.inr (.inr (.inr (.inr (.inr (.inr (.inr (.inr (.inr (.inr (.inr (.inr (.inr (.inr (.inr (.inr (.inr (.inr (.inr (.inr (.inr (.inr (.inr (.inr (.inr (.inr (.inr (.inr (.inr (.inr (.inr (.inr (.inr (.inr (.inr (.inr (.inr (.inr (.inr (.inr (.inr (.inr (.inr (.inr (.inr (.inr (.inr (.inr (.inr (.inr (.inr (.inr (.inr (.inr (.inr (.inr (.inr (.inr (.inr (.inr (.inr (.inr (.inr (.inr (.inr (.inr (.inr (.inr (.inr (.inr (.inr (.inr (.inr (.inr (.inl ⟨rfl, _, rfl⟩)))))))))))))))))))))))))))))))))))))))))))))))))))))))))))))))))))))))))))) (fun _ he => by
    have := source_ne_cluster (c := c) (o := 0 + 0x60) (by omega) he
    unfold WIN_TRACK.addr
    omega)
theorem touch.PMON_CL_CTL (s : State) (c : Nat) (v : Word) : touch 0x100000000000000000000000000000000000000000000 s (s.wr (PMON_CL_CTL.addr c) v) :=
  touch.of_wr s v (.inr (.inr (.inr (.inr (.inr (.inr (.inr (.inr (.inr (.inr (.inr (.inr (.inr (.inr (.inr (.inr (.inr (.inr (.inr (.inr (.inr (.inr (.inr (.inr (.inr (.inr (.inr (.inr (.inr (.inr (.inr (.inr (.inr (.inr (.inr (.inr (.inr (.inr (.inr (.inr (.inr (.inr (.inr (.inr (.inr (.inr (.inr (.inr (.inr (.inr (.inr (.inr (.inr (.inr (.inr (.inr (.inr (.inr (.inr (.inr (.inr (.inr (.inr (.inr (.inr (.inr (.inr (.inr (.inr (.inr (.inr (.inr (.inr (.inr (.inr (.inr (.inl ⟨rfl, _, rfl⟩))))))))))))))))))))))))))))))))))))))))))))))))))))))))))))))))))))))))))))) (fun _ he => by
    have := source_ne_cluster (c := c) (o := 0 + 0x68) (by omega) he
    unfold PMON_CL_CTL.addr
    omega)
theorem touch.PMON_CL_HI (s : State) (c : Nat) (v : Word) : touch 0x200000000000000000000000000000000000000000000 s (s.wr (PMON_CL_HI.addr c) v) :=
  touch.of_wr s v (.inr (.inr (.inr (.inr (.inr (.inr (.inr (.inr (.inr (.inr (.inr (.inr (.inr (.inr (.inr (.inr (.inr (.inr (.inr (.inr (.inr (.inr (.inr (.inr (.inr (.inr (.inr (.inr (.inr (.inr (.inr (.inr (.inr (.inr (.inr (.inr (.inr (.inr (.inr (.inr (.inr (.inr (.inr (.inr (.inr (.inr (.inr (.inr (.inr (.inr (.inr (.inr (.inr (.inr (.inr (.inr (.inr (.inr (.inr (.inr (.inr (.inr (.inr (.inr (.inr (.inr (.inr (.inr (.inr (.inr (.inr (.inr (.inr (.inr (.inr (.inr (.inr (.inl ⟨rfl, _, rfl⟩)))))))))))))))))))))))))))))))))))))))))))))))))))))))))))))))))))))))))))))) (fun _ he => by
    have := source_ne_cluster (c := c) (o := 0 + 0x70) (by omega) he
    unfold PMON_CL_HI.addr
    omega)
theorem touch.CL_WCON_MAP (s : State) (c n : Nat) (v : Word) : touch 0x400000000000000000000000000000000000000000000 s (s.wr (CL_WCON_MAP.addr c n) v) :=
  touch.of_wr s v (.inr (.inr (.inr (.inr (.inr (.inr (.inr (.inr (.inr (.inr (.inr (.inr (.inr (.inr (.inr (.inr (.inr (.inr (.inr (.inr (.inr (.inr (.inr (.inr (.inr (.inr (.inr (.inr (.inr (.inr (.inr (.inr (.inr (.inr (.inr (.inr (.inr (.inr (.inr (.inr (.inr (.inr (.inr (.inr (.inr (.inr (.inr (.inr (.inr (.inr (.inr (.inr (.inr (.inr (.inr (.inr (.inr (.inr (.inr (.inr (.inr (.inr (.inr (.inr (.inr (.inr (.inr (.inr (.inr (.inr (.inr (.inr (.inr (.inr (.inr (.inr (.inr (.inr (.inl ⟨rfl, _, _, rfl⟩))))))))))))))))))))))))))))))))))))))))))))))))))))))))))))))))))))))))))))))) (fun _ he => by
    have := source_ne_cluster (c := c) (o := 0 + 0x80 + 8 * min n 16) (by omega) he
    unfold CL_WCON_MAP.addr
    omega)
theorem touch.LN_STATE (s : State) (l : Nat) (v : Word) : touch 0x800000000000000000000000000000000000000000000 s (s.wr (LN_STATE.addr l) v) :=
  touch.of_wr s v (.inr (.inr (.inr (.inr (.inr (.inr (.inr (.inr (.inr (.inr (.inr (.inr (.inr (.inr (.inr (.inr (.inr (.inr (.inr (.inr (.inr (.inr (.inr (.inr (.inr (.inr (.inr (.inr (.inr (.inr (.inr (.inr (.inr (.inr (.inr (.inr (.inr (.inr (.inr (.inr (.inr (.inr (.inr (.inr (.inr (.inr (.inr (.inr (.inr (.inr (.inr (.inr (.inr (.inr (.inr (.inr (.inr (.inr (.inr (.inr (.inr (.inr (.inr (.inr (.inr (.inr (.inr (.inr (.inr (.inr (.inr (.inr (.inr (.inr (.inr (.inr (.inr (.inr (.inr (.inl ⟨rfl, _, rfl⟩)))))))))))))))))))))))))))))))))))))))))))))))))))))))))))))))))))))))))))))))) (fun _ he => by
    have := source_ne_cluster (c := l / 8) (o := 0x1000 + 0x100 * (l % 8)) (by omega) he
    unfold LN_STATE.addr laneBase
    omega)
theorem touch.LN_QUAL (s : State) (l : Nat) (v : Word) : touch 0x1000000000000000000000000000000000000000000000 s (s.wr (LN_QUAL.addr l) v) :=
  touch.of_wr s v (.inr (.inr (.inr (.inr (.inr (.inr (.inr (.inr (.inr (.inr (.inr (.inr (.inr (.inr (.inr (.inr (.inr (.inr (.inr (.inr (.inr (.inr (.inr (.inr (.inr (.inr (.inr (.inr (.inr (.inr (.inr (.inr (.inr (.inr (.inr (.inr (.inr (.inr (.inr (.inr (.inr (.inr (.inr (.inr (.inr (.inr (.inr (.inr (.inr (.inr (.inr (.inr (.inr (.inr (.inr (.inr (.inr (.inr (.inr (.inr (.inr (.inr (.inr (.inr (.inr (.inr (.inr (.inr (.inr (.inr (.inr (.inr (.inr (.inr (.inr (.inr (.inr (.inr (.inr (.inr (.inl ⟨rfl, _, rfl⟩))))))))))))))))))))))))))))))))))))))))))))))))))))))))))))))))))))))))))))))))) (fun _ he => by
    have := source_ne_cluster (c := l / 8) (o := 0x1000 + 0x100 * (l % 8) + 0x8) (by omega) he
    unfold LN_QUAL.addr laneBase
    omega)
theorem touch.LN_EYE (s : State) (l : Nat) (v : Word) : touch 0x2000000000000000000000000000000000000000000000 s (s.wr (LN_EYE.addr l) v) :=
  touch.of_wr s v (.inr (.inr (.inr (.inr (.inr (.inr (.inr (.inr (.inr (.inr (.inr (.inr (.inr (.inr (.inr (.inr (.inr (.inr (.inr (.inr (.inr (.inr (.inr (.inr (.inr (.inr (.inr (.inr (.inr (.inr (.inr (.inr (.inr (.inr (.inr (.inr (.inr (.inr (.inr (.inr (.inr (.inr (.inr (.inr (.inr (.inr (.inr (.inr (.inr (.inr (.inr (.inr (.inr (.inr (.inr (.inr (.inr (.inr (.inr (.inr (.inr (.inr (.inr (.inr (.inr (.inr (.inr (.inr (.inr (.inr (.inr (.inr (.inr (.inr (.inr (.inr (.inr (.inr (.inr (.inr (.inr (.inl ⟨rfl, _, rfl⟩)))))))))))))))))))))))))))))))))))))))))))))))))))))))))))))))))))))))))))))))))) (fun _ he => by
    have := source_ne_cluster (c := l / 8) (o := 0x1000 + 0x100 * (l % 8) + 0x10) (by omega) he
    unfold LN_EYE.addr laneBase
    omega)
theorem touch.LN_TXEQ (s : State) (l : Nat) (v : Word) : touch 0x4000000000000000000000000000000000000000000000 s (s.wr (LN_TXEQ.addr l) v) :=
  touch.of_wr s v (.inr (.inr (.inr (.inr (.inr (.inr (.inr (.inr (.inr (.inr (.inr (.inr (.inr (.inr (.inr (.inr (.inr (.inr (.inr (.inr (.inr (.inr (.inr (.inr (.inr (.inr (.inr (.inr (.inr (.inr (.inr (.inr (.inr (.inr (.inr (.inr (.inr (.inr (.inr (.inr (.inr (.inr (.inr (.inr (.inr (.inr (.inr (.inr (.inr (.inr (.inr (.inr (.inr (.inr (.inr (.inr (.inr (.inr (.inr (.inr (.inr (.inr (.inr (.inr (.inr (.inr (.inr (.inr (.inr (.inr (.inr (.inr (.inr (.inr (.inr (.inr (.inr (.inr (.inr (.inr (.inr (.inr (.inl ⟨rfl, _, rfl⟩))))))))))))))))))))))))))))))))))))))))))))))))))))))))))))))))))))))))))))))))))) (fun _ he => by
    have := source_ne_cluster (c := l / 8) (o := 0x1000 + 0x100 * (l % 8) + 0x18) (by omega) he
    unfold LN_TXEQ.addr laneBase
    omega)
theorem touch.LN_FEC_CORR (s : State) (l : Nat) (v : Word) : touch 0x8000000000000000000000000000000000000000000000 s (s.wr (LN_FEC_CORR.addr l) v) :=
  touch.of_wr s v (.inr (.inr (.inr (.inr (.inr (.inr (.inr (.inr (.inr (.inr (.inr (.inr (.inr (.inr (.inr (.inr (.inr (.inr (.inr (.inr (.inr (.inr (.inr (.inr (.inr (.inr (.inr (.inr (.inr (.inr (.inr (.inr (.inr (.inr (.inr (.inr (.inr (.inr (.inr (.inr (.inr (.inr (.inr (.inr (.inr (.inr (.inr (.inr (.inr (.inr (.inr (.inr (.inr (.inr (.inr (.inr (.inr (.inr (.inr (.inr (.inr (.inr (.inr (.inr (.inr (.inr (.inr (.inr (.inr (.inr (.inr (.inr (.inr (.inr (.inr (.inr (.inr (.inr (.inr (.inr (.inr (.inr (.inr (.inl ⟨rfl, _, rfl⟩)))))))))))))))))))))))))))))))))))))))))))))))))))))))))))))))))))))))))))))))))))) (fun _ he => by
    have := source_ne_cluster (c := l / 8) (o := 0x1000 + 0x100 * (l % 8) + 0x20) (by omega) he
    unfold LN_FEC_CORR.addr laneBase
    omega)
theorem touch.LN_FEC_UNC (s : State) (l : Nat) (v : Word) : touch 0x10000000000000000000000000000000000000000000000 s (s.wr (LN_FEC_UNC.addr l) v) :=
  touch.of_wr s v (.inr (.inr (.inr (.inr (.inr (.inr (.inr (.inr (.inr (.inr (.inr (.inr (.inr (.inr (.inr (.inr (.inr (.inr (.inr (.inr (.inr (.inr (.inr (.inr (.inr (.inr (.inr (.inr (.inr (.inr (.inr (.inr (.inr (.inr (.inr (.inr (.inr (.inr (.inr (.inr (.inr (.inr (.inr (.inr (.inr (.inr (.inr (.inr (.inr (.inr (.inr (.inr (.inr (.inr (.inr (.inr (.inr (.inr (.inr (.inr (.inr (.inr (.inr (.inr (.inr (.inr (.inr (.inr (.inr (.inr (.inr (.inr (.inr (.inr (.inr (.inr (.inr (.inr (.inr (.inr (.inr (.inr (.inr (.inr (.inl ⟨rfl, _, rfl⟩))))))))))))))))))))))))))))))))))))))))))))))))))))))))))))))))))))))))))))))))))))) (fun _ he => by
    have := source_ne_cluster (c := l / 8) (o := 0x1000 + 0x100 * (l % 8) + 0x28) (by omega) he
    unfold LN_FEC_UNC.addr laneBase
    omega)
theorem touch.LN_BLK_ERR (s : State) (l : Nat) (v : Word) : touch 0x20000000000000000000000000000000000000000000000 s (s.wr (LN_BLK_ERR.addr l) v) :=
  touch.of_wr s v (.inr (.inr (.inr (.inr (.inr (.inr (.inr (.inr (.inr (.inr (.inr (.inr (.inr (.inr (.inr (.inr (.inr (.inr (.inr (.inr (.inr (.inr (.inr (.inr (.inr (.inr (.inr (.inr (.inr (.inr (.inr (.inr (.inr (.inr (.inr (.inr (.inr (.inr (.inr (.inr (.inr (.inr (.inr (.inr (.inr (.inr (.inr (.inr (.inr (.inr (.inr (.inr (.inr (.inr (.inr (.inr (.inr (.inr (.inr (.inr (.inr (.inr (.inr (.inr (.inr (.inr (.inr (.inr (.inr (.inr (.inr (.inr (.inr (.inr (.inr (.inr (.inr (.inr (.inr (.inr (.inr (.inr (.inr (.inr (.inr (.inl ⟨rfl, _, rfl⟩)))))))))))))))))))))))))))))))))))))))))))))))))))))))))))))))))))))))))))))))))))))) (fun _ he => by
    have := source_ne_cluster (c := l / 8) (o := 0x1000 + 0x100 * (l % 8) + 0x30) (by omega) he
    unfold LN_BLK_ERR.addr laneBase
    omega)
theorem touch.PORT_BOND (s : State) (p : Nat) (v : Word) : touch 0x40000000000000000000000000000000000000000000000 s (s.wr (PORT_BOND.addr p) v) :=
  touch.of_wr s v (.inr (.inr (.inr (.inr (.inr (.inr (.inr (.inr (.inr (.inr (.inr (.inr (.inr (.inr (.inr (.inr (.inr (.inr (.inr (.inr (.inr (.inr (.inr (.inr (.inr (.inr (.inr (.inr (.inr (.inr (.inr (.inr (.inr (.inr (.inr (.inr (.inr (.inr (.inr (.inr (.inr (.inr (.inr (.inr (.inr (.inr (.inr (.inr (.inr (.inr (.inr (.inr (.inr (.inr (.inr (.inr (.inr (.inr (.inr (.inr (.inr (.inr (.inr (.inr (.inr (.inr (.inr (.inr (.inr (.inr (.inr (.inr (.inr (.inr (.inr (.inr (.inr (.inr (.inr (.inr (.inr (.inr (.inr (.inr (.inr (.inr (.inl ⟨rfl, _, rfl⟩))))))))))))))))))))))))))))))))))))))))))))))))))))))))))))))))))))))))))))))))))))))) (fun _ he => by
    have := source_ne_cluster (c := p / 4) (o := 0x2000 + 0x200 * (p % 4)) (by omega) he
    unfold PORT_BOND.addr portBase
    omega)
theorem touch.PORT_LINK (s : State) (p : Nat) (v : Word) : touch 0x80000000000000000000000000000000000000000000000 s (s.wr (PORT_LINK.addr p) v) :=
  touch.of_wr s v (.inr (.inr (.inr (.inr (.inr (.inr (.inr (.inr (.inr (.inr (.inr (.inr (.inr (.inr (.inr (.inr (.inr (.inr (.inr (.inr (.inr (.inr (.inr (.inr (.inr (.inr (.inr (.inr (.inr (.inr (.inr (.inr (.inr (.inr (.inr (.inr (.inr (.inr (.inr (.inr (.inr (.inr (.inr (.inr (.inr (.inr (.inr (.inr (.inr (.inr (.inr (.inr (.inr (.inr (.inr (.inr (.inr (.inr (.inr (.inr (.inr (.inr (.inr (.inr (.inr (.inr (.inr (.inr (.inr (.inr (.inr (.inr (.inr (.inr (.inr (.inr (.inr (.inr (.inr (.inr (.inr (.inr (.inr (.inr (.inr (.inr (.inr (.inl ⟨rfl, _, rfl⟩)))))))))))))))))))))))))))))))))))))))))))))))))))))))))))))))))))))))))))))))))))))))) (fun _ he => by
    have := source_ne_cluster (c := p / 4) (o := 0x2000 + 0x200 * (p % 4) + 0x8) (by omega) he
    unfold PORT_LINK.addr portBase
    omega)
theorem touch.PORT_CRC_ERR (s : State) (p : Nat) (v : Word) : touch 0x100000000000000000000000000000000000000000000000 s (s.wr (PORT_CRC_ERR.addr p) v) :=
  touch.of_wr s v (.inr (.inr (.inr (.inr (.inr (.inr (.inr (.inr (.inr (.inr (.inr (.inr (.inr (.inr (.inr (.inr (.inr (.inr (.inr (.inr (.inr (.inr (.inr (.inr (.inr (.inr (.inr (.inr (.inr (.inr (.inr (.inr (.inr (.inr (.inr (.inr (.inr (.inr (.inr (.inr (.inr (.inr (.inr (.inr (.inr (.inr (.inr (.inr (.inr (.inr (.inr (.inr (.inr (.inr (.inr (.inr (.inr (.inr (.inr (.inr (.inr (.inr (.inr (.inr (.inr (.inr (.inr (.inr (.inr (.inr (.inr (.inr (.inr (.inr (.inr (.inr (.inr (.inr (.inr (.inr (.inr (.inr (.inr (.inr (.inr (.inr (.inr (.inr (.inl ⟨rfl, _, rfl⟩))))))))))))))))))))))))))))))))))))))))))))))))))))))))))))))))))))))))))))))))))))))))) (fun _ he => by
    have := source_ne_cluster (c := p / 4) (o := 0x2000 + 0x200 * (p % 4) + 0x10) (by omega) he
    unfold PORT_CRC_ERR.addr portBase
    omega)
theorem touch.PORT_REPLAYED (s : State) (p : Nat) (v : Word) : touch 0x200000000000000000000000000000000000000000000000 s (s.wr (PORT_REPLAYED.addr p) v) :=
  touch.of_wr s v (.inr (.inr (.inr (.inr (.inr (.inr (.inr (.inr (.inr (.inr (.inr (.inr (.inr (.inr (.inr (.inr (.inr (.inr (.inr (.inr (.inr (.inr (.inr (.inr (.inr (.inr (.inr (.inr (.inr (.inr (.inr (.inr (.inr (.inr (.inr (.inr (.inr (.inr (.inr (.inr (.inr (.inr (.inr (.inr (.inr (.inr (.inr (.inr (.inr (.inr (.inr (.inr (.inr (.inr (.inr (.inr (.inr (.inr (.inr (.inr (.inr (.inr (.inr (.inr (.inr (.inr (.inr (.inr (.inr (.inr (.inr (.inr (.inr (.inr (.inr (.inr (.inr (.inr (.inr (.inr (.inr (.inr (.inr (.inr (.inr (.inr (.inr (.inr (.inr (.inl ⟨rfl, _, rfl⟩)))))))))))))))))))))))))))))))))))))))))))))))))))))))))))))))))))))))))))))))))))))))))) (fun _ he => by
    have := source_ne_cluster (c := p / 4) (o := 0x2000 + 0x200 * (p % 4) + 0x18) (by omega) he
    unfold PORT_REPLAYED.addr portBase
    omega)
theorem touch.PORT_MALFORMED (s : State) (p : Nat) (v : Word) : touch 0x400000000000000000000000000000000000000000000000 s (s.wr (PORT_MALFORMED.addr p) v) :=
  touch.of_wr s v (.inr (.inr (.inr (.inr (.inr (.inr (.inr (.inr (.inr (.inr (.inr (.inr (.inr (.inr (.inr (.inr (.inr (.inr (.inr (.inr (.inr (.inr (.inr (.inr (.inr (.inr (.inr (.inr (.inr (.inr (.inr (.inr (.inr (.inr (.inr (.inr (.inr (.inr (.inr (.inr (.inr (.inr (.inr (.inr (.inr (.inr (.inr (.inr (.inr (.inr (.inr (.inr (.inr (.inr (.inr (.inr (.inr (.inr (.inr (.inr (.inr (.inr (.inr (.inr (.inr (.inr (.inr (.inr (.inr (.inr (.inr (.inr (.inr (.inr (.inr (.inr (.inr (.inr (.inr (.inr (.inr (.inr (.inr (.inr (.inr (.inr (.inr (.inr (.inr (.inr (.inl ⟨rfl, _, rfl⟩))))))))))))))))))))))))))))))))))))))))))))))))))))))))))))))))))))))))))))))))))))))))))) (fun _ he => by
    have := source_ne_cluster (c := p / 4) (o := 0x2000 + 0x200 * (p % 4) + 0x20) (by omega) he
    unfold PORT_MALFORMED.addr portBase
    omega)
theorem touch.PORT_TALLY (s : State) (p : Nat) (v : Word) : touch 0x800000000000000000000000000000000000000000000000 s (s.wr (PORT_TALLY.addr p) v) :=
  touch.of_wr s v (.inr (.inr (.inr (.inr (.inr (.inr (.inr (.inr (.inr (.inr (.inr (.inr (.inr (.inr (.inr (.inr (.inr (.inr (.inr (.inr (.inr (.inr (.inr (.inr (.inr (.inr (.inr (.inr (.inr (.inr (.inr (.inr (.inr (.inr (.inr (.inr (.inr (.inr (.inr (.inr (.inr (.inr (.inr (.inr (.inr (.inr (.inr (.inr (.inr (.inr (.inr (.inr (.inr (.inr (.inr (.inr (.inr (.inr (.inr (.inr (.inr (.inr (.inr (.inr (.inr (.inr (.inr (.inr (.inr (.inr (.inr (.inr (.inr (.inr (.inr (.inr (.inr (.inr (.inr (.inr (.inr (.inr (.inr (.inr (.inr (.inr (.inr (.inr (.inr (.inr (.inr (.inl ⟨rfl, _, rfl⟩)))))))))))))))))))))))))))))))))))))))))))))))))))))))))))))))))))))))))))))))))))))))))))) (fun _ he => by
    have := source_ne_cluster (c := p / 4) (o := 0x2000 + 0x200 * (p % 4) + 0x28) (by omega) he
    unfold PORT_TALLY.addr portBase
    omega)
theorem touch.PORT_PCIE (s : State) (p : Nat) (v : Word) : touch 0x1000000000000000000000000000000000000000000000000 s (s.wr (PORT_PCIE.addr p) v) :=
  touch.of_wr s v (.inr (.inr (.inr (.inr (.inr (.inr (.inr (.inr (.inr (.inr (.inr (.inr (.inr (.inr (.inr (.inr (.inr (.inr (.inr (.inr (.inr (.inr (.inr (.inr (.inr (.inr (.inr (.inr (.inr (.inr (.inr (.inr (.inr (.inr (.inr (.inr (.inr (.inr (.inr (.inr (.inr (.inr (.inr (.inr (.inr (.inr (.inr (.inr (.inr (.inr (.inr (.inr (.inr (.inr (.inr (.inr (.inr (.inr (.inr (.inr (.inr (.inr (.inr (.inr (.inr (.inr (.inr (.inr (.inr (.inr (.inr (.inr (.inr (.inr (.inr (.inr (.inr (.inr (.inr (.inr (.inr (.inr (.inr (.inr (.inr (.inr (.inr (.inr (.inr (.inr (.inr (.inr (.inl ⟨rfl, _, rfl⟩))))))))))))))))))))))))))))))))))))))))))))))))))))))))))))))))))))))))))))))))))))))))))))) (fun _ he => by
    have := source_ne_cluster (c := p / 4) (o := 0x2000 + 0x200 * (p % 4) + 0x30) (by omega) he
    unfold PORT_PCIE.addr portBase
    omega)
theorem touch.PORT_DPC (s : State) (p : Nat) (v : Word) : touch 0x2000000000000000000000000000000000000000000000000 s (s.wr (PORT_DPC.addr p) v) :=
  touch.of_wr s v (.inr (.inr (.inr (.inr (.inr (.inr (.inr (.inr (.inr (.inr (.inr (.inr (.inr (.inr (.inr (.inr (.inr (.inr (.inr (.inr (.inr (.inr (.inr (.inr (.inr (.inr (.inr (.inr (.inr (.inr (.inr (.inr (.inr (.inr (.inr (.inr (.inr (.inr (.inr (.inr (.inr (.inr (.inr (.inr (.inr (.inr (.inr (.inr (.inr (.inr (.inr (.inr (.inr (.inr (.inr (.inr (.inr (.inr (.inr (.inr (.inr (.inr (.inr (.inr (.inr (.inr (.inr (.inr (.inr (.inr (.inr (.inr (.inr (.inr (.inr (.inr (.inr (.inr (.inr (.inr (.inr (.inr (.inr (.inr (.inr (.inr (.inr (.inr (.inr (.inr (.inr (.inr (.inr (.inl ⟨rfl, _, rfl⟩)))))))))))))))))))))))))))))))))))))))))))))))))))))))))))))))))))))))))))))))))))))))))))))) (fun _ he => by
    have := source_ne_cluster (c := p / 4) (o := 0x2000 + 0x200 * (p % 4) + 0x38) (by omega) he
    unfold PORT_DPC.addr portBase
    omega)
theorem touch.PORT_LOCK (s : State) (p : Nat) (v : Word) : touch 0x4000000000000000000000000000000000000000000000000 s (s.wr (PORT_LOCK.addr p) v) :=
  touch.of_wr s v (.inr (.inr (.inr (.inr (.inr (.inr (.inr (.inr (.inr (.inr (.inr (.inr (.inr (.inr (.inr (.inr (.inr (.inr (.inr (.inr (.inr (.inr (.inr (.inr (.inr (.inr (.inr (.inr (.inr (.inr (.inr (.inr (.inr (.inr (.inr (.inr (.inr (.inr (.inr (.inr (.inr (.inr (.inr (.inr (.inr (.inr (.inr (.inr (.inr (.inr (.inr (.inr (.inr (.inr (.inr (.inr (.inr (.inr (.inr (.inr (.inr (.inr (.inr (.inr (.inr (.inr (.inr (.inr (.inr (.inr (.inr (.inr (.inr (.inr (.inr (.inr (.inr (.inr (.inr (.inr (.inr (.inr (.inr (.inr (.inr (.inr (.inr (.inr (.inr (.inr (.inr (.inr (.inr (.inr (.inl ⟨rfl, _, rfl⟩))))))))))))))))))))))))))))))))))))))))))))))))))))))))))))))))))))))))))))))))))))))))))))))) (fun _ he => by
    have := source_ne_cluster (c := p / 4) (o := 0x2000 + 0x200 * (p % 4) + 0x40) (by omega) he
    unfold PORT_LOCK.addr portBase
    omega)
theorem touch.PORT_CONTAIN (s : State) (p : Nat) (v : Word) : touch 0x8000000000000000000000000000000000000000000000000 s (s.wr (PORT_CONTAIN.addr p) v) :=
  touch.of_wr s v (.inr (.inr (.inr (.inr (.inr (.inr (.inr (.inr (.inr (.inr (.inr (.inr (.inr (.inr (.inr (.inr (.inr (.inr (.inr (.inr (.inr (.inr (.inr (.inr (.inr (.inr (.inr (.inr (.inr (.inr (.inr (.inr (.inr (.inr (.inr (.inr (.inr (.inr (.inr (.inr (.inr (.inr (.inr (.inr (.inr (.inr (.inr (.inr (.inr (.inr (.inr (.inr (.inr (.inr (.inr (.inr (.inr (.inr (.inr (.inr (.inr (.inr (.inr (.inr (.inr (.inr (.inr (.inr (.inr (.inr (.inr (.inr (.inr (.inr (.inr (.inr (.inr (.inr (.inr (.inr (.inr (.inr (.inr (.inr (.inr (.inr (.inr (.inr (.inr (.inr (.inr (.inr (.inr (.inr (.inr (.inl ⟨rfl, _, rfl⟩)))))))))))))))))))))))))))))))))))))))))))))))))))))))))))))))))))))))))))))))))))))))))))))))) (fun _ he => by
    have := source_ne_cluster (c := p / 4) (o := 0x2000 + 0x200 * (p % 4) + 0x48) (by omega) he
    unfold PORT_CONTAIN.addr portBase
    omega)
theorem touch.PORT_BOUND (s : State) (p : Nat) (v : Word) : touch 0x10000000000000000000000000000000000000000000000000 s (s.wr (PORT_BOUND.addr p) v) :=
  touch.of_wr s v (.inr (.inr (.inr (.inr (.inr (.inr (.inr (.inr (.inr (.inr (.inr (.inr (.inr (.inr (.inr (.inr (.inr (.inr (.inr (.inr (.inr (.inr (.inr (.inr (.inr (.inr (.inr (.inr (.inr (.inr (.inr (.inr (.inr (.inr (.inr (.inr (.inr (.inr (.inr (.inr (.inr (.inr (.inr (.inr (.inr (.inr (.inr (.inr (.inr (.inr (.inr (.inr (.inr (.inr (.inr (.inr (.inr (.inr (.inr (.inr (.inr (.inr (.inr (.inr (.inr (.inr (.inr (.inr (.inr (.inr (.inr (.inr (.inr (.inr (.inr (.inr (.inr (.inr (.inr (.inr (.inr (.inr (.inr (.inr (.inr (.inr (.inr (.inr (.inr (.inr (.inr (.inr (.inr (.inr (.inr (.inr (.inl ⟨rfl, _, rfl⟩))))))))))))))))))))))))))))))))))))))))))))))))))))))))))))))))))))))))))))))))))))))))))))))))) (fun _ he => by
    have := source_ne_cluster (c := p / 4) (o := 0x2000 + 0x200 * (p % 4) + 0x50) (by omega) he
    unfold PORT_BOUND.addr portBase
    omega)
theorem touch.PORT_SLUICE (s : State) (p : Nat) (v : Word) : touch 0x20000000000000000000000000000000000000000000000000 s (s.wr (PORT_SLUICE.addr p) v) :=
  touch.of_wr s v (.inr (.inr (.inr (.inr (.inr (.inr (.inr (.inr (.inr (.inr (.inr (.inr (.inr (.inr (.inr (.inr (.inr (.inr (.inr (.inr (.inr (.inr (.inr (.inr (.inr (.inr (.inr (.inr (.inr (.inr (.inr (.inr (.inr (.inr (.inr (.inr (.inr (.inr (.inr (.inr (.inr (.inr (.inr (.inr (.inr (.inr (.inr (.inr (.inr (.inr (.inr (.inr (.inr (.inr (.inr (.inr (.inr (.inr (.inr (.inr (.inr (.inr (.inr (.inr (.inr (.inr (.inr (.inr (.inr (.inr (.inr (.inr (.inr (.inr (.inr (.inr (.inr (.inr (.inr (.inr (.inr (.inr (.inr (.inr (.inr (.inr (.inr (.inr (.inr (.inr (.inr (.inr (.inr (.inr (.inr (.inr (.inr (.inl ⟨rfl, _, rfl⟩)))))))))))))))))))))))))))))))))))))))))))))))))))))))))))))))))))))))))))))))))))))))))))))))))) (fun _ he => by
    have := source_ne_cluster (c := p / 4) (o := 0x2000 + 0x200 * (p % 4) + 0x58) (by omega) he
    unfold PORT_SLUICE.addr portBase
    omega)
theorem touch.PORT_HOLD (s : State) (p : Nat) (v : Word) : touch 0x40000000000000000000000000000000000000000000000000 s (s.wr (PORT_HOLD.addr p) v) :=
  touch.of_wr s v (.inr (.inr (.inr (.inr (.inr (.inr (.inr (.inr (.inr (.inr (.inr (.inr (.inr (.inr (.inr (.inr (.inr (.inr (.inr (.inr (.inr (.inr (.inr (.inr (.inr (.inr (.inr (.inr (.inr (.inr (.inr (.inr (.inr (.inr (.inr (.inr (.inr (.inr (.inr (.inr (.inr (.inr (.inr (.inr (.inr (.inr (.inr (.inr (.inr (.inr (.inr (.inr (.inr (.inr (.inr (.inr (.inr (.inr (.inr (.inr (.inr (.inr (.inr (.inr (.inr (.inr (.inr (.inr (.inr (.inr (.inr (.inr (.inr (.inr (.inr (.inr (.inr (.inr (.inr (.inr (.inr (.inr (.inr (.inr (.inr (.inr (.inr (.inr (.inr (.inr (.inr (.inr (.inr (.inr (.inr (.inr (.inr (.inr (.inl ⟨rfl, _, rfl⟩))))))))))))))))))))))))))))))))))))))))))))))))))))))))))))))))))))))))))))))))))))))))))))))))))) (fun _ he => by
    have := source_ne_cluster (c := p / 4) (o := 0x2000 + 0x200 * (p % 4) + 0x60) (by omega) he
    unfold PORT_HOLD.addr portBase
    omega)
theorem touch.PORT_WAKE (s : State) (p : Nat) (v : Word) : touch 0x80000000000000000000000000000000000000000000000000 s (s.wr (PORT_WAKE.addr p) v) :=
  touch.of_wr s v (.inr (.inr (.inr (.inr (.inr (.inr (.inr (.inr (.inr (.inr (.inr (.inr (.inr (.inr (.inr (.inr (.inr (.inr (.inr (.inr (.inr (.inr (.inr (.inr (.inr (.inr (.inr (.inr (.inr (.inr (.inr (.inr (.inr (.inr (.inr (.inr (.inr (.inr (.inr (.inr (.inr (.inr (.inr (.inr (.inr (.inr (.inr (.inr (.inr (.inr (.inr (.inr (.inr (.inr (.inr (.inr (.inr (.inr (.inr (.inr (.inr (.inr (.inr (.inr (.inr (.inr (.inr (.inr (.inr (.inr (.inr (.inr (.inr (.inr (.inr (.inr (.inr (.inr (.inr (.inr (.inr (.inr (.inr (.inr (.inr (.inr (.inr (.inr (.inr (.inr (.inr (.inr (.inr (.inr (.inr (.inr (.inr (.inr (.inr (.inl ⟨rfl, _, rfl⟩)))))))))))))))))))))))))))))))))))))))))))))))))))))))))))))))))))))))))))))))))))))))))))))))))))) (fun _ he => by
    have := source_ne_cluster (c := p / 4) (o := 0x2000 + 0x200 * (p % 4) + 0x68) (by omega) he
    unfold PORT_WAKE.addr portBase
    omega)
theorem touch.PMON_CL_SEL (s : State) (c n : Nat) (v : Word) : touch 0x100000000000000000000000000000000000000000000000000 s (s.wr (PMON_CL_SEL.addr c n) v) :=
  touch.of_wr s v (.inr (.inr (.inr (.inr (.inr (.inr (.inr (.inr (.inr (.inr (.inr (.inr (.inr (.inr (.inr (.inr (.inr (.inr (.inr (.inr (.inr (.inr (.inr (.inr (.inr (.inr (.inr (.inr (.inr (.inr (.inr (.inr (.inr (.inr (.inr (.inr (.inr (.inr (.inr (.inr (.inr (.inr (.inr (.inr (.inr (.inr (.inr (.inr (.inr (.inr (.inr (.inr (.inr (.inr (.inr (.inr (.inr (.inr (.inr (.inr (.inr (.inr (.inr (.inr (.inr (.inr (.inr (.inr (.inr (.inr (.inr (.inr (.inr (.inr (.inr (.inr (.inr (.inr (.inr (.inr (.inr (.inr (.inr (.inr (.inr (.inr (.inr (.inr (.inr (.inr (.inr (.inr (.inr (.inr (.inr (.inr (.inr (.inr (.inr (.inr (.inl ⟨rfl, _, _, rfl⟩))))))))))))))))))))))))))))))))))))))))))))))))))))))))))))))))))))))))))))))))))))))))))))))))))))) (fun _ he => by
    have := source_ne_cluster (c := c) (o := 0 + 0x4000 + 8 * min n 32) (by omega) he
    unfold PMON_CL_SEL.addr
    omega)
theorem touch.PMON_CL_CTR (s : State) (c n : Nat) (v : Word) : touch 0x200000000000000000000000000000000000000000000000000 s (s.wr (PMON_CL_CTR.addr c n) v) :=
  touch.of_wr s v (.inr (.inr (.inr (.inr (.inr (.inr (.inr (.inr (.inr (.inr (.inr (.inr (.inr (.inr (.inr (.inr (.inr (.inr (.inr (.inr (.inr (.inr (.inr (.inr (.inr (.inr (.inr (.inr (.inr (.inr (.inr (.inr (.inr (.inr (.inr (.inr (.inr (.inr (.inr (.inr (.inr (.inr (.inr (.inr (.inr (.inr (.inr (.inr (.inr (.inr (.inr (.inr (.inr (.inr (.inr (.inr (.inr (.inr (.inr (.inr (.inr (.inr (.inr (.inr (.inr (.inr (.inr (.inr (.inr (.inr (.inr (.inr (.inr (.inr (.inr (.inr (.inr (.inr (.inr (.inr (.inr (.inr (.inr (.inr (.inr (.inr (.inr (.inr (.inr (.inr (.inr (.inr (.inr (.inr (.inr (.inr (.inr (.inr (.inr (.inr (.inr (.inl ⟨rfl, _, _, rfl⟩)))))))))))))))))))))))))))))))))))))))))))))))))))))))))))))))))))))))))))))))))))))))))))))))))))))) (fun _ he => by
    have := source_ne_cluster (c := c) (o := 0 + 0x4100 + 8 * min n 32) (by omega) he
    unfold PMON_CL_CTR.addr
    omega)
theorem touch.WIN_BASE (s : State) (w : Nat) (v : Word) : touch 0x400000000000000000000000000000000000000000000000000 s (s.wr (WIN_BASE.addr w) v) :=
  touch.of_wr s v (.inr (.inr (.inr (.inr (.inr (.inr (.inr (.inr (.inr (.inr (.inr (.inr (.inr (.inr (.inr (.inr (.inr (.inr (.inr (.inr (.inr (.inr (.inr (.inr (.inr (.inr (.inr (.inr (.inr (.inr (.inr (.inr (.inr (.inr (.inr (.inr (.inr (.inr (.inr (.inr (.inr (.inr (.inr (.inr (.inr (.inr (.inr (.inr (.inr (.inr (.inr (.inr (.inr (.inr (.inr (.inr (.inr (.inr (.inr (.inr (.inr (.inr (.inr (.inr (.inr (.inr (.inr (.inr (.inr (.inr (.inr (.inr (.inr (.inr (.inr (.inr (.inr (.inr (.inr (.inr (.inr (.inr (.inr (.inr (.inr (.inr (.inr (.inr (.inr (.inr (.inr (.inr (.inr (.inr (.inr (.inr (.inr (.inr (.inr (.inr (.inr (.inr (.inl ⟨rfl, _, rfl⟩))))))))))))))))))))))))))))))))))))))))))))))))))))))))))))))))))))))))))))))))))))))))))))))))))))))) (fun _ he => by
    have := source_ne_cluster (c := w / 1024) (o := 0x10000 + 64 * (w % 1024)) (by omega) he
    unfold WIN_BASE.addr windowBase
    omega)
theorem touch.WIN_LIMIT (s : State) (w : Nat) (v : Word) : touch 0x800000000000000000000000000000000000000000000000000 s (s.wr (WIN_LIMIT.addr w) v) :=
  touch.of_wr s v (.inr (.inr (.inr (.inr (.inr (.inr (.inr (.inr (.inr (.inr (.inr (.inr (.inr (.inr (.inr (.inr (.inr (.inr (.inr (.inr (.inr (.inr (.inr (.inr (.inr (.inr (.inr (.inr (.inr (.inr (.inr (.inr (.inr (.inr (.inr (.inr (.inr (.inr (.inr (.inr (.inr (.inr (.inr (.inr (.inr (.inr (.inr (.inr (.inr (.inr (.inr (.inr (.inr (.inr (.inr (.inr (.inr (.inr (.inr (.inr (.inr (.inr (.inr (.inr (.inr (.inr (.inr (.inr (.inr (.inr (.inr (.inr (.inr (.inr (.inr (.inr (.inr (.inr (.inr (.inr (.inr (.inr (.inr (.inr (.inr (.inr (.inr (.inr (.inr (.inr (.inr (.inr (.inr (.inr (.inr (.inr (.inr (.inr (.inr (.inr (.inr (.inr (.inr (.inl ⟨rfl, _, rfl⟩)))))))))))))))))))))))))))))))))))))))))))))))))))))))))))))))))))))))))))))))))))))))))))))))))))))))) (fun _ he => by
    have := source_ne_cluster (c := w / 1024) (o := 0x10000 + 64 * (w % 1024) + 0x8) (by omega) he
    unfold WIN_LIMIT.addr windowBase
    omega)
theorem touch.WIN_REMOTE (s : State) (w : Nat) (v : Word) : touch 0x1000000000000000000000000000000000000000000000000000 s (s.wr (WIN_REMOTE.addr w) v) :=
  touch.of_wr s v (.inr (.inr (.inr (.inr (.inr (.inr (.inr (.inr (.inr (.inr (.inr (.inr (.inr (.inr (.inr (.inr (.inr (.inr (.inr (.inr (.inr (.inr (.inr (.inr (.inr (.inr (.inr (.inr (.inr (.inr (.inr (.inr (.inr (.inr (.inr (.inr (.inr (.inr (.inr (.inr (.inr (.inr (.inr (.inr (.inr (.inr (.inr (.inr (.inr (.inr (.inr (.inr (.inr (.inr (.inr (.inr (.inr (.inr (.inr (.inr (.inr (.inr (.inr (.inr (.inr (.inr (.inr (.inr (.inr (.inr (.inr (.inr (.inr (.inr (.inr (.inr (.inr (.inr (.inr (.inr (.inr (.inr (.inr (.inr (.inr (.inr (.inr (.inr (.inr (.inr (.inr (.inr (.inr (.inr (.inr (.inr (.inr (.inr (.inr (.inr (.inr (.inr (.inr (.inr (.inl ⟨rfl, _, rfl⟩))))))))))))))))))))))))))))))))))))))))))))))))))))))))))))))))))))))))))))))))))))))))))))))))))))))))) (fun _ he => by
    have := source_ne_cluster (c := w / 1024) (o := 0x10000 + 64 * (w % 1024) + 0x10) (by omega) he
    unfold WIN_REMOTE.addr windowBase
    omega)
theorem touch.WIN_ATTR (s : State) (w : Nat) (v : Word) : touch 0x2000000000000000000000000000000000000000000000000000 s (s.wr (WIN_ATTR.addr w) v) :=
  touch.of_wr s v (.inr (.inr (.inr (.inr (.inr (.inr (.inr (.inr (.inr (.inr (.inr (.inr (.inr (.inr (.inr (.inr (.inr (.inr (.inr (.inr (.inr (.inr (.inr (.inr (.inr (.inr (.inr (.inr (.inr (.inr (.inr (.inr (.inr (.inr (.inr (.inr (.inr (.inr (.inr (.inr (.inr (.inr (.inr (.inr (.inr (.inr (.inr (.inr (.inr (.inr (.inr (.inr (.inr (.inr (.inr (.inr (.inr (.inr (.inr (.inr (.inr (.inr (.inr (.inr (.inr (.inr (.inr (.inr (.inr (.inr (.inr (.inr (.inr (.inr (.inr (.inr (.inr (.inr (.inr (.inr (.inr (.inr (.inr (.inr (.inr (.inr (.inr (.inr (.inr (.inr (.inr (.inr (.inr (.inr (.inr (.inr (.inr (.inr (.inr (.inr (.inr (.inr (.inr (.inr (.inr (.inl ⟨rfl, _, rfl⟩)))))))))))))))))))))))))))))))))))))))))))))))))))))))))))))))))))))))))))))))))))))))))))))))))))))))))) (fun _ he => by
    have := source_ne_cluster (c := w / 1024) (o := 0x10000 + 64 * (w % 1024) + 0x18) (by omega) he
    unfold WIN_ATTR.addr windowBase
    omega)
theorem touch.WIN_STATE (s : State) (w : Nat) (v : Word) : touch 0x4000000000000000000000000000000000000000000000000000 s (s.wr (WIN_STATE.addr w) v) :=
  touch.of_wr s v (.inr (.inr (.inr (.inr (.inr (.inr (.inr (.inr (.inr (.inr (.inr (.inr (.inr (.inr (.inr (.inr (.inr (.inr (.inr (.inr (.inr (.inr (.inr (.inr (.inr (.inr (.inr (.inr (.inr (.inr (.inr (.inr (.inr (.inr (.inr (.inr (.inr (.inr (.inr (.inr (.inr (.inr (.inr (.inr (.inr (.inr (.inr (.inr (.inr (.inr (.inr (.inr (.inr (.inr (.inr (.inr (.inr (.inr (.inr (.inr (.inr (.inr (.inr (.inr (.inr (.inr (.inr (.inr (.inr (.inr (.inr (.inr (.inr (.inr (.inr (.inr (.inr (.inr (.inr (.inr (.inr (.inr (.inr (.inr (.inr (.inr (.inr (.inr (.inr (.inr (.inr (.inr (.inr (.inr (.inr (.inr (.inr (.inr (.inr (.inr (.inr (.inr (.inr (.inr (.inr (.inr (.inl ⟨rfl, _, rfl⟩))))))))))))))))))))))))))))))))))))))))))))))))))))))))))))))))))))))))))))))))))))))))))))))))))))))))))) (fun _ he => by
    have := source_ne_cluster (c := w / 1024) (o := 0x10000 + 64 * (w % 1024) + 0x20) (by omega) he
    unfold WIN_STATE.addr windowBase
    omega)
theorem touch.EVT_SRC_B (s : State) (e : Nat) (v : Word) : touch 0x10000000000000000000000000000000000000000000000000000 s (s.wr (EVT_SRC_B.addr e) v) :=
  touch.of_wr s v (.inr (.inr (.inr (.inr (.inr (.inr (.inr (.inr (.inr (.inr (.inr (.inr (.inr (.inr (.inr (.inr (.inr (.inr (.inr (.inr (.inr (.inr (.inr (.inr (.inr (.inr (.inr (.inr (.inr (.inr (.inr (.inr (.inr (.inr (.inr (.inr (.inr (.inr (.inr (.inr (.inr (.inr (.inr (.inr (.inr (.inr (.inr (.inr (.inr (.inr (.inr (.inr (.inr (.inr (.inr (.inr (.inr (.inr (.inr (.inr (.inr (.inr (.inr (.inr (.inr (.inr (.inr (.inr (.inr (.inr (.inr (.inr (.inr (.inr (.inr (.inr (.inr (.inr (.inr (.inr (.inr (.inr (.inr (.inr (.inr (.inr (.inr (.inr (.inr (.inr (.inr (.inr (.inr (.inr (.inr (.inr (.inr (.inr (.inr (.inr (.inr (.inr (.inr (.inr (.inr (.inr (.inr (.inr (.inl ⟨rfl, _, rfl⟩))))))))))))))))))))))))))))))))))))))))))))))))))))))))))))))))))))))))))))))))))))))))))))))))))))))))))))) (fun _ _ => source_ne_source (by decide))
theorem touch.EVT_SRC_C (s : State) (e : Nat) (v : Word) : touch 0x20000000000000000000000000000000000000000000000000000 s (s.wr (EVT_SRC_C.addr e) v) :=
  touch.of_wr s v (.inr (.inr (.inr (.inr (.inr (.inr (.inr (.inr (.inr (.inr (.inr (.inr (.inr (.inr (.inr (.inr (.inr (.inr (.inr (.inr (.inr (.inr (.inr (.inr (.inr (.inr (.inr (.inr (.inr (.inr (.inr (.inr (.inr (.inr (.inr (.inr (.inr (.inr (.inr (.inr (.inr (.inr (.inr (.inr (.inr (.inr (.inr (.inr (.inr (.inr (.inr (.inr (.inr (.inr (.inr (.inr (.inr (.inr (.inr (.inr (.inr (.inr (.inr (.inr (.inr (.inr (.inr (.inr (.inr (.inr (.inr (.inr (.inr (.inr (.inr (.inr (.inr (.inr (.inr (.inr (.inr (.inr (.inr (.inr (.inr (.inr (.inr (.inr (.inr (.inr (.inr (.inr (.inr (.inr (.inr (.inr (.inr (.inr (.inr (.inr (.inr (.inr (.inr (.inr (.inr (.inr (.inr (.inr (.inr (⟨rfl, _, rfl⟩)))))))))))))))))))))))))))))))))))))))))))))))))))))))))))))))))))))))))))))))))))))))))))))))))))))))))))))) (fun _ _ => source_ne_source (by decide))

/-- A write of EVT_SRC_A that clears no cause. -/
theorem touch.EVT_SRC_A (s : State) (e : Nat) (v : Word)
    (h : ∀ k, (getBits (s.rd (EVT_SRC_A.addr e)) 48 16).testBit k = true → (getBits v 48 16).testBit k = true) : touch 0x8000000000000000000000000000000000000000000000000000 s (s.wr (EVT_SRC_A.addr e) v) :=
  ⟨fun _ hb => State.rd_wr_ne _ _ fun x => hb (x ▸ (.inr (.inr (.inr (.inr (.inr (.inr (.inr (.inr (.inr (.inr (.inr (.inr (.inr (.inr (.inr (.inr (.inr (.inr (.inr (.inr (.inr (.inr (.inr (.inr (.inr (.inr (.inr (.inr (.inr (.inr (.inr (.inr (.inr (.inr (.inr (.inr (.inr (.inr (.inr (.inr (.inr (.inr (.inr (.inr (.inr (.inr (.inr (.inr (.inr (.inr (.inr (.inr (.inr (.inr (.inr (.inr (.inr (.inr (.inr (.inr (.inr (.inr (.inr (.inr (.inr (.inr (.inr (.inr (.inr (.inr (.inr (.inr (.inr (.inr (.inr (.inr (.inr (.inr (.inr (.inr (.inr (.inr (.inr (.inr (.inr (.inr (.inr (.inr (.inr (.inr (.inr (.inr (.inr (.inr (.inr (.inr (.inr (.inr (.inr (.inr (.inr (.inr (.inr (.inr (.inr (.inr (.inr (.inl ⟨rfl, _, rfl⟩))))))))))))))))))))))))))))))))))))))))))))))))))))))))))))))))))))))))))))))))))))))))))))))))))))))))))))),
   fun i _ k hk => by
    by_cases hx : EVT_SRC_A.addr i = EVT_SRC_A.addr e
    · simp only [State.get, EVT_SRC_A.CAUSE, hx] at hk ⊢
      rw [State.rd_wr_same]
      exact h k hk
    · have := State.rd_wr_ne s v hx
      simpa only [State.get, EVT_SRC_A.CAUSE, this] using hk, fun _ => rfl, fun _ => rfl, fun _ => rfl, fun _ => rfl, fun _ => rfl, fun _ => rfl, fun _ => rfl, fun _ => rfl, fun _ => rfl, fun _ => rfl, fun _ => rfl, fun _ => rfl, fun _ => rfl, fun _ => rfl, fun _ => rfl, fun _ => rfl, fun _ => rfl, fun _ => rfl, fun _ => rfl, fun _ => rfl, fun _ => rfl, fun _ => rfl, fun _ => rfl, fun _ => rfl, fun _ => rfl, fun _ => rfl, fun _ => rfl, fun _ => rfl, fun _ => rfl, fun _ => rfl, fun _ => rfl, fun _ => rfl, fun _ => rfl, fun _ => rfl, fun _ => rfl, fun _ => rfl, fun _ => rfl, fun _ => rfl, fun _ => rfl, fun _ => rfl, fun _ => rfl, fun _ => rfl, fun _ => rfl, fun _ => rfl, fun _ => rfl, fun _ => rfl, fun _ => rfl, fun _ => rfl, fun _ => rfl, fun _ => rfl, fun _ => rfl, fun _ => rfl, fun _ => rfl, fun _ => rfl, fun _ => rfl, fun _ => rfl, fun _ => rfl, fun _ => rfl, fun _ => rfl, fun _ => rfl, fun _ => rfl, fun _ => rfl, fun _ => rfl, fun _ => rfl, fun _ => rfl, fun _ => rfl, fun _ => rfl, fun _ => rfl, fun _ => rfl, fun _ => rfl, fun _ => rfl, fun _ => rfl, fun _ => rfl, fun _ => rfl, fun _ => rfl, fun _ => rfl, fun _ => rfl, fun _ => rfl, fun _ => rfl, fun _ => rfl, fun _ => rfl, fun _ => rfl, fun _ => rfl, fun _ => rfl, fun _ => rfl, fun _ => rfl, fun _ => rfl, fun _ => rfl, fun _ => rfl, fun _ => rfl, fun _ => rfl, fun _ => rfl, fun _ => rfl, fun _ => rfl, fun _ => rfl, fun _ => rfl⟩


end Sys2Proof.Machine
end

