-- ==== Sys2Proof/Laws/TouchOps.lean ====
section
/-! SUPPORT. What each operation of the machine leaves alone. -/

namespace Sys2Proof.Machine

theorem touch.upd_actions (s : State) (v0) : touch 0x20 s { s with actions := v0 } :=
  ⟨fun _ _ => rfl, fun _ _ _ h => h, fun _ => rfl, fun _ => rfl, fun _ => rfl, fun _ => rfl, fun _ => rfl, fun k => absurd k (by decide), fun _ => rfl, fun _ => rfl, fun _ => rfl, fun _ => rfl, fun _ => rfl, fun _ => rfl, fun _ => rfl, fun _ => rfl, fun _ => rfl, fun _ => rfl, fun _ => rfl, fun _ => rfl, fun _ => rfl, fun _ => rfl, fun _ => rfl, fun _ => rfl, fun _ => rfl, fun _ => rfl, fun _ => rfl, fun _ => rfl, fun _ => rfl, fun _ => rfl, fun _ => rfl, fun _ => rfl, fun _ => rfl, fun _ => rfl, fun _ => rfl, fun _ => rfl, fun _ => rfl, fun _ => rfl, fun _ => rfl, fun _ => rfl, fun _ => rfl, fun _ => rfl, fun _ => rfl, fun _ => rfl, fun _ => rfl, fun _ => rfl, fun _ => rfl, fun _ => rfl, fun _ => rfl, fun _ => rfl, fun _ => rfl, fun _ => rfl, fun _ => rfl, fun _ => rfl, fun _ => rfl, fun _ => rfl, fun _ => rfl, fun _ => rfl, fun _ => rfl, fun _ => rfl, fun _ => rfl, fun _ => rfl, fun _ => rfl, fun _ => rfl, fun _ => rfl, fun _ => rfl, fun _ => rfl, fun _ => rfl, fun _ => rfl, fun _ => rfl, fun _ => rfl, fun _ => rfl, fun _ => rfl, fun _ => rfl, fun _ => rfl, fun _ => rfl, fun _ => rfl, fun _ => rfl, fun _ => rfl, fun _ => rfl, fun _ => rfl, fun _ => rfl, fun _ => rfl, fun _ => rfl, fun _ => rfl, fun _ => rfl, fun _ => rfl, fun _ => rfl, fun _ => rfl, fun _ => rfl, fun _ => rfl, fun _ => rfl, fun _ => rfl, fun _ => rfl, fun _ => rfl, fun _ => rfl, fun _ => rfl, fun _ => rfl⟩

theorem touch.upd_actions_records (s : State) (v0 v1) : touch 0x400020 s { s with actions := v0, records := v1 } :=
  ⟨fun _ _ => rfl, fun _ _ _ h => h, fun _ => rfl, fun _ => rfl, fun _ => rfl, fun _ => rfl, fun _ => rfl, fun k => absurd k (by decide), fun _ => rfl, fun _ => rfl, fun _ => rfl, fun _ => rfl, fun _ => rfl, fun _ => rfl, fun _ => rfl, fun _ => rfl, fun _ => rfl, fun _ => rfl, fun _ => rfl, fun _ => rfl, fun _ => rfl, fun _ => rfl, fun _ => rfl, fun _ => rfl, fun k => absurd k (by decide), fun _ => rfl, fun _ => rfl, fun _ => rfl, fun _ => rfl, fun _ => rfl, fun _ => rfl, fun _ => rfl, fun _ => rfl, fun _ => rfl, fun _ => rfl, fun _ => rfl, fun _ => rfl, fun _ => rfl, fun _ => rfl, fun _ => rfl, fun _ => rfl, fun _ => rfl, fun _ => rfl, fun _ => rfl, fun _ => rfl, fun _ => rfl, fun _ => rfl, fun _ => rfl, fun _ => rfl, fun _ => rfl, fun _ => rfl, fun _ => rfl, fun _ => rfl, fun _ => rfl, fun _ => rfl, fun _ => rfl, fun _ => rfl, fun _ => rfl, fun _ => rfl, fun _ => rfl, fun _ => rfl, fun _ => rfl, fun _ => rfl, fun _ => rfl, fun _ => rfl, fun _ => rfl, fun _ => rfl, fun _ => rfl, fun _ => rfl, fun _ => rfl, fun _ => rfl, fun _ => rfl, fun _ => rfl, fun _ => rfl, fun _ => rfl, fun _ => rfl, fun _ => rfl, fun _ => rfl, fun _ => rfl, fun _ => rfl, fun _ => rfl, fun _ => rfl, fun _ => rfl, fun _ => rfl, fun _ => rfl, fun _ => rfl, fun _ => rfl, fun _ => rfl, fun _ => rfl, fun _ => rfl, fun _ => rfl, fun _ => rfl, fun _ => rfl, fun _ => rfl, fun _ => rfl, fun _ => rfl, fun _ => rfl, fun _ => rfl⟩

theorem touch.upd_adjust (s : State) (v0) : touch 0x8 s { s with adjust := v0 } :=
  ⟨fun _ _ => rfl, fun _ _ _ h => h, fun _ => rfl, fun _ => rfl, fun _ => rfl, fun k => absurd k (by decide), fun _ => rfl, fun _ => rfl, fun _ => rfl, fun _ => rfl, fun _ => rfl, fun _ => rfl, fun _ => rfl, fun _ => rfl, fun _ => rfl, fun _ => rfl, fun _ => rfl, fun _ => rfl, fun _ => rfl, fun _ => rfl, fun _ => rfl, fun _ => rfl, fun _ => rfl, fun _ => rfl, fun _ => rfl, fun _ => rfl, fun _ => rfl, fun _ => rfl, fun _ => rfl, fun _ => rfl, fun _ => rfl, fun _ => rfl, fun _ => rfl, fun _ => rfl, fun _ => rfl, fun _ => rfl, fun _ => rfl, fun _ => rfl, fun _ => rfl, fun _ => rfl, fun _ => rfl, fun _ => rfl, fun _ => rfl, fun _ => rfl, fun _ => rfl, fun _ => rfl, fun _ => rfl, fun _ => rfl, fun _ => rfl, fun _ => rfl, fun _ => rfl, fun _ => rfl, fun _ => rfl, fun _ => rfl, fun _ => rfl, fun _ => rfl, fun _ => rfl, fun _ => rfl, fun _ => rfl, fun _ => rfl, fun _ => rfl, fun _ => rfl, fun _ => rfl, fun _ => rfl, fun _ => rfl, fun _ => rfl, fun _ => rfl, fun _ => rfl, fun _ => rfl, fun _ => rfl, fun _ => rfl, fun _ => rfl, fun _ => rfl, fun _ => rfl, fun _ => rfl, fun _ => rfl, fun _ => rfl, fun _ => rfl, fun _ => rfl, fun _ => rfl, fun _ => rfl, fun _ => rfl, fun _ => rfl, fun _ => rfl, fun _ => rfl, fun _ => rfl, fun _ => rfl, fun _ => rfl, fun _ => rfl, fun _ => rfl, fun _ => rfl, fun _ => rfl, fun _ => rfl, fun _ => rfl, fun _ => rfl, fun _ => rfl, fun _ => rfl, fun _ => rfl⟩

theorem touch.upd_adjust_time (s : State) (v0 v1) : touch 0x8000000000000000008 s { s with adjust := v0, time := v1 } :=
  ⟨fun _ _ => rfl, fun _ _ _ h => h, fun _ => rfl, fun _ => rfl, fun _ => rfl, fun k => absurd k (by decide), fun _ => rfl, fun _ => rfl, fun _ => rfl, fun _ => rfl, fun _ => rfl, fun _ => rfl, fun _ => rfl, fun _ => rfl, fun _ => rfl, fun _ => rfl, fun _ => rfl, fun _ => rfl, fun _ => rfl, fun _ => rfl, fun _ => rfl, fun _ => rfl, fun _ => rfl, fun _ => rfl, fun _ => rfl, fun _ => rfl, fun _ => rfl, fun _ => rfl, fun _ => rfl, fun _ => rfl, fun _ => rfl, fun _ => rfl, fun _ => rfl, fun _ => rfl, fun _ => rfl, fun _ => rfl, fun _ => rfl, fun _ => rfl, fun _ => rfl, fun _ => rfl, fun _ => rfl, fun _ => rfl, fun _ => rfl, fun _ => rfl, fun _ => rfl, fun _ => rfl, fun _ => rfl, fun _ => rfl, fun _ => rfl, fun _ => rfl, fun _ => rfl, fun _ => rfl, fun _ => rfl, fun _ => rfl, fun _ => rfl, fun _ => rfl, fun _ => rfl, fun _ => rfl, fun _ => rfl, fun _ => rfl, fun _ => rfl, fun _ => rfl, fun _ => rfl, fun _ => rfl, fun _ => rfl, fun _ => rfl, fun _ => rfl, fun _ => rfl, fun _ => rfl, fun _ => rfl, fun _ => rfl, fun _ => rfl, fun _ => rfl, fun _ => rfl, fun _ => rfl, fun _ => rfl, fun _ => rfl, fun k => absurd k (by decide), fun _ => rfl, fun _ => rfl, fun _ => rfl, fun _ => rfl, fun _ => rfl, fun _ => rfl, fun _ => rfl, fun _ => rfl, fun _ => rfl, fun _ => rfl, fun _ => rfl, fun _ => rfl, fun _ => rfl, fun _ => rfl, fun _ => rfl, fun _ => rfl, fun _ => rfl, fun _ => rfl, fun _ => rfl, fun _ => rfl⟩

theorem touch.upd_aer (s : State) (v0) : touch 0x20000000000000000 s { s with aer := v0 } :=
  ⟨fun _ _ => rfl, fun _ _ _ h => h, fun _ => rfl, fun _ => rfl, fun _ => rfl, fun _ => rfl, fun _ => rfl, fun _ => rfl, fun _ => rfl, fun _ => rfl, fun _ => rfl, fun _ => rfl, fun _ => rfl, fun _ => rfl, fun _ => rfl, fun _ => rfl, fun _ => rfl, fun _ => rfl, fun _ => rfl, fun _ => rfl, fun _ => rfl, fun _ => rfl, fun _ => rfl, fun _ => rfl, fun _ => rfl, fun _ => rfl, fun _ => rfl, fun _ => rfl, fun _ => rfl, fun _ => rfl, fun _ => rfl, fun _ => rfl, fun _ => rfl, fun _ => rfl, fun _ => rfl, fun _ => rfl, fun _ => rfl, fun _ => rfl, fun _ => rfl, fun _ => rfl, fun _ => rfl, fun _ => rfl, fun _ => rfl, fun _ => rfl, fun _ => rfl, fun _ => rfl, fun _ => rfl, fun _ => rfl, fun _ => rfl, fun _ => rfl, fun _ => rfl, fun _ => rfl, fun _ => rfl, fun _ => rfl, fun _ => rfl, fun _ => rfl, fun _ => rfl, fun _ => rfl, fun _ => rfl, fun _ => rfl, fun _ => rfl, fun _ => rfl, fun _ => rfl, fun _ => rfl, fun _ => rfl, fun _ => rfl, fun _ => rfl, fun k => absurd k (by decide), fun _ => rfl, fun _ => rfl, fun _ => rfl, fun _ => rfl, fun _ => rfl, fun _ => rfl, fun _ => rfl, fun _ => rfl, fun _ => rfl, fun _ => rfl, fun _ => rfl, fun _ => rfl, fun _ => rfl, fun _ => rfl, fun _ => rfl, fun _ => rfl, fun _ => rfl, fun _ => rfl, fun _ => rfl, fun _ => rfl, fun _ => rfl, fun _ => rfl, fun _ => rfl, fun _ => rfl, fun _ => rfl, fun _ => rfl, fun _ => rfl, fun _ => rfl, fun _ => rfl, fun _ => rfl⟩

theorem touch.upd_aerHeader (s : State) (v0) : touch 0x40000000000000000 s { s with aerHeader := v0 } :=
  ⟨fun _ _ => rfl, fun _ _ _ h => h, fun _ => rfl, fun _ => rfl, fun _ => rfl, fun _ => rfl, fun _ => rfl, fun _ => rfl, fun _ => rfl, fun _ => rfl, fun _ => rfl, fun _ => rfl, fun _ => rfl, fun _ => rfl, fun _ => rfl, fun _ => rfl, fun _ => rfl, fun _ => rfl, fun _ => rfl, fun _ => rfl, fun _ => rfl, fun _ => rfl, fun _ => rfl, fun _ => rfl, fun _ => rfl, fun _ => rfl, fun _ => rfl, fun _ => rfl, fun _ => rfl, fun _ => rfl, fun _ => rfl, fun _ => rfl, fun _ => rfl, fun _ => rfl, fun _ => rfl, fun _ => rfl, fun _ => rfl, fun _ => rfl, fun _ => rfl, fun _ => rfl, fun _ => rfl, fun _ => rfl, fun _ => rfl, fun _ => rfl, fun _ => rfl, fun _ => rfl, fun _ => rfl, fun _ => rfl, fun _ => rfl, fun _ => rfl, fun _ => rfl, fun _ => rfl, fun _ => rfl, fun _ => rfl, fun _ => rfl, fun _ => rfl, fun _ => rfl, fun _ => rfl, fun _ => rfl, fun _ => rfl, fun _ => rfl, fun _ => rfl, fun _ => rfl, fun _ => rfl, fun _ => rfl, fun _ => rfl, fun _ => rfl, fun _ => rfl, fun k => absurd k (by decide), fun _ => rfl, fun _ => rfl, fun _ => rfl, fun _ => rfl, fun _ => rfl, fun _ => rfl, fun _ => rfl, fun _ => rfl, fun _ => rfl, fun _ => rfl, fun _ => rfl, fun _ => rfl, fun _ => rfl, fun _ => rfl, fun _ => rfl, fun _ => rfl, fun _ => rfl, fun _ => rfl, fun _ => rfl, fun _ => rfl, fun _ => rfl, fun _ => rfl, fun _ => rfl, fun _ => rfl, fun _ => rfl, fun _ => rfl, fun _ => rfl, fun _ => rfl, fun _ => rfl⟩

theorem touch.upd_announceDue (s : State) (v0) : touch 0x100000000000000 s { s with announceDue := v0 } :=
  ⟨fun _ _ => rfl, fun _ _ _ h => h, fun _ => rfl, fun _ => rfl, fun _ => rfl, fun _ => rfl, fun _ => rfl, fun _ => rfl, fun _ => rfl, fun _ => rfl, fun _ => rfl, fun _ => rfl, fun _ => rfl, fun _ => rfl, fun _ => rfl, fun _ => rfl, fun _ => rfl, fun _ => rfl, fun _ => rfl, fun _ => rfl, fun _ => rfl, fun _ => rfl, fun _ => rfl, fun _ => rfl, fun _ => rfl, fun _ => rfl, fun _ => rfl, fun _ => rfl, fun _ => rfl, fun _ => rfl, fun _ => rfl, fun _ => rfl, fun _ => rfl, fun _ => rfl, fun _ => rfl, fun _ => rfl, fun _ => rfl, fun _ => rfl, fun _ => rfl, fun _ => rfl, fun _ => rfl, fun _ => rfl, fun _ => rfl, fun _ => rfl, fun _ => rfl, fun _ => rfl, fun _ => rfl, fun _ => rfl, fun _ => rfl, fun _ => rfl, fun _ => rfl, fun _ => rfl, fun _ => rfl, fun _ => rfl, fun _ => rfl, fun _ => rfl, fun _ => rfl, fun _ => rfl, fun k => absurd k (by decide), fun _ => rfl, fun _ => rfl, fun _ => rfl, fun _ => rfl, fun _ => rfl, fun _ => rfl, fun _ => rfl, fun _ => rfl, fun _ => rfl, fun _ => rfl, fun _ => rfl, fun _ => rfl, fun _ => rfl, fun _ => rfl, fun _ => rfl, fun _ => rfl, fun _ => rfl, fun _ => rfl, fun _ => rfl, fun _ => rfl, fun _ => rfl, fun _ => rfl, fun _ => rfl, fun _ => rfl, fun _ => rfl, fun _ => rfl, fun _ => rfl, fun _ => rfl, fun _ => rfl, fun _ => rfl, fun _ => rfl, fun _ => rfl, fun _ => rfl, fun _ => rfl, fun _ => rfl, fun _ => rfl, fun _ => rfl, fun _ => rfl, fun _ => rfl⟩

theorem touch.upd_bankWrite (s : State) (v0) : touch 0x40000000000000000000000 s { s with bankWrite := v0 } :=
  ⟨fun _ _ => rfl, fun _ _ _ h => h, fun _ => rfl, fun _ => rfl, fun _ => rfl, fun _ => rfl, fun _ => rfl, fun _ => rfl, fun _ => rfl, fun _ => rfl, fun _ => rfl, fun _ => rfl, fun _ => rfl, fun _ => rfl, fun _ => rfl, fun _ => rfl, fun _ => rfl, fun _ => rfl, fun _ => rfl, fun _ => rfl, fun _ => rfl, fun _ => rfl, fun _ => rfl, fun _ => rfl, fun _ => rfl, fun _ => rfl, fun _ => rfl, fun _ => rfl, fun _ => rfl, fun _ => rfl, fun _ => rfl, fun _ => rfl, fun _ => rfl, fun _ => rfl, fun _ => rfl, fun _ => rfl, fun _ => rfl, fun _ => rfl, fun _ => rfl, fun _ => rfl, fun _ => rfl, fun _ => rfl, fun _ => rfl, fun _ => rfl, fun _ => rfl, fun _ => rfl, fun _ => rfl, fun _ => rfl, fun _ => rfl, fun _ => rfl, fun _ => rfl, fun _ => rfl, fun _ => rfl, fun _ => rfl, fun _ => rfl, fun _ => rfl, fun _ => rfl, fun _ => rfl, fun _ => rfl, fun _ => rfl, fun _ => rfl, fun _ => rfl, fun _ => rfl, fun _ => rfl, fun _ => rfl, fun _ => rfl, fun _ => rfl, fun _ => rfl, fun _ => rfl, fun _ => rfl, fun _ => rfl, fun _ => rfl, fun _ => rfl, fun _ => rfl, fun _ => rfl, fun _ => rfl, fun _ => rfl, fun _ => rfl, fun _ => rfl, fun _ => rfl, fun _ => rfl, fun _ => rfl, fun _ => rfl, fun _ => rfl, fun _ => rfl, fun _ => rfl, fun _ => rfl, fun _ => rfl, fun _ => rfl, fun _ => rfl, fun _ => rfl, fun _ => rfl, fun k => absurd k (by decide), fun _ => rfl, fun _ => rfl, fun _ => rfl, fun _ => rfl, fun _ => rfl⟩

theorem touch.upd_batchSize (s : State) (v0) : touch 0x2000000000000000000000 s { s with batchSize := v0 } :=
  ⟨fun _ _ => rfl, fun _ _ _ h => h, fun _ => rfl, fun _ => rfl, fun _ => rfl, fun _ => rfl, fun _ => rfl, fun _ => rfl, fun _ => rfl, fun _ => rfl, fun _ => rfl, fun _ => rfl, fun _ => rfl, fun _ => rfl, fun _ => rfl, fun _ => rfl, fun _ => rfl, fun _ => rfl, fun _ => rfl, fun _ => rfl, fun _ => rfl, fun _ => rfl, fun _ => rfl, fun _ => rfl, fun _ => rfl, fun _ => rfl, fun _ => rfl, fun _ => rfl, fun _ => rfl, fun _ => rfl, fun _ => rfl, fun _ => rfl, fun _ => rfl, fun _ => rfl, fun _ => rfl, fun _ => rfl, fun _ => rfl, fun _ => rfl, fun _ => rfl, fun _ => rfl, fun _ => rfl, fun _ => rfl, fun _ => rfl, fun _ => rfl, fun _ => rfl, fun _ => rfl, fun _ => rfl, fun _ => rfl, fun _ => rfl, fun _ => rfl, fun _ => rfl, fun _ => rfl, fun _ => rfl, fun _ => rfl, fun _ => rfl, fun _ => rfl, fun _ => rfl, fun _ => rfl, fun _ => rfl, fun _ => rfl, fun _ => rfl, fun _ => rfl, fun _ => rfl, fun _ => rfl, fun _ => rfl, fun _ => rfl, fun _ => rfl, fun _ => rfl, fun _ => rfl, fun _ => rfl, fun _ => rfl, fun _ => rfl, fun _ => rfl, fun _ => rfl, fun _ => rfl, fun _ => rfl, fun _ => rfl, fun _ => rfl, fun _ => rfl, fun _ => rfl, fun _ => rfl, fun _ => rfl, fun _ => rfl, fun _ => rfl, fun _ => rfl, fun _ => rfl, fun _ => rfl, fun k => absurd k (by decide), fun _ => rfl, fun _ => rfl, fun _ => rfl, fun _ => rfl, fun _ => rfl, fun _ => rfl, fun _ => rfl, fun _ => rfl, fun _ => rfl, fun _ => rfl⟩

theorem touch.upd_beyond64 (s : State) (v0) : touch 0x2000000000000000000 s { s with beyond64 := v0 } :=
  ⟨fun _ _ => rfl, fun _ _ _ h => h, fun _ => rfl, fun _ => rfl, fun _ => rfl, fun _ => rfl, fun _ => rfl, fun _ => rfl, fun _ => rfl, fun _ => rfl, fun _ => rfl, fun _ => rfl, fun _ => rfl, fun _ => rfl, fun _ => rfl, fun _ => rfl, fun _ => rfl, fun _ => rfl, fun _ => rfl, fun _ => rfl, fun _ => rfl, fun _ => rfl, fun _ => rfl, fun _ => rfl, fun _ => rfl, fun _ => rfl, fun _ => rfl, fun _ => rfl, fun _ => rfl, fun _ => rfl, fun _ => rfl, fun _ => rfl, fun _ => rfl, fun _ => rfl, fun _ => rfl, fun _ => rfl, fun _ => rfl, fun _ => rfl, fun _ => rfl, fun _ => rfl, fun _ => rfl, fun _ => rfl, fun _ => rfl, fun _ => rfl, fun _ => rfl, fun _ => rfl, fun _ => rfl, fun _ => rfl, fun _ => rfl, fun _ => rfl, fun _ => rfl, fun _ => rfl, fun _ => rfl, fun _ => rfl, fun _ => rfl, fun _ => rfl, fun _ => rfl, fun _ => rfl, fun _ => rfl, fun _ => rfl, fun _ => rfl, fun _ => rfl, fun _ => rfl, fun _ => rfl, fun _ => rfl, fun _ => rfl, fun _ => rfl, fun _ => rfl, fun _ => rfl, fun _ => rfl, fun _ => rfl, fun _ => rfl, fun _ => rfl, fun _ => rfl, fun _ => rfl, fun k => absurd k (by decide), fun _ => rfl, fun _ => rfl, fun _ => rfl, fun _ => rfl, fun _ => rfl, fun _ => rfl, fun _ => rfl, fun _ => rfl, fun _ => rfl, fun _ => rfl, fun _ => rfl, fun _ => rfl, fun _ => rfl, fun _ => rfl, fun _ => rfl, fun _ => rfl, fun _ => rfl, fun _ => rfl, fun _ => rfl, fun _ => rfl, fun _ => rfl, fun _ => rfl⟩

theorem touch.upd_bindPu (s : State) (v0) : touch 0x2000000000000000 s { s with bindPu := v0 } :=
  ⟨fun _ _ => rfl, fun _ _ _ h => h, fun _ => rfl, fun _ => rfl, fun _ => rfl, fun _ => rfl, fun _ => rfl, fun _ => rfl, fun _ => rfl, fun _ => rfl, fun _ => rfl, fun _ => rfl, fun _ => rfl, fun _ => rfl, fun _ => rfl, fun _ => rfl, fun _ => rfl, fun _ => rfl, fun _ => rfl, fun _ => rfl, fun _ => rfl, fun _ => rfl, fun _ => rfl, fun _ => rfl, fun _ => rfl, fun _ => rfl, fun _ => rfl, fun _ => rfl, fun _ => rfl, fun _ => rfl, fun _ => rfl, fun _ => rfl, fun _ => rfl, fun _ => rfl, fun _ => rfl, fun _ => rfl, fun _ => rfl, fun _ => rfl, fun _ => rfl, fun _ => rfl, fun _ => rfl, fun _ => rfl, fun _ => rfl, fun _ => rfl, fun _ => rfl, fun _ => rfl, fun _ => rfl, fun _ => rfl, fun _ => rfl, fun _ => rfl, fun _ => rfl, fun _ => rfl, fun _ => rfl, fun _ => rfl, fun _ => rfl, fun _ => rfl, fun _ => rfl, fun _ => rfl, fun _ => rfl, fun _ => rfl, fun _ => rfl, fun _ => rfl, fun _ => rfl, fun k => absurd k (by decide), fun _ => rfl, fun _ => rfl, fun _ => rfl, fun _ => rfl, fun _ => rfl, fun _ => rfl, fun _ => rfl, fun _ => rfl, fun _ => rfl, fun _ => rfl, fun _ => rfl, fun _ => rfl, fun _ => rfl, fun _ => rfl, fun _ => rfl, fun _ => rfl, fun _ => rfl, fun _ => rfl, fun _ => rfl, fun _ => rfl, fun _ => rfl, fun _ => rfl, fun _ => rfl, fun _ => rfl, fun _ => rfl, fun _ => rfl, fun _ => rfl, fun _ => rfl, fun _ => rfl, fun _ => rfl, fun _ => rfl, fun _ => rfl, fun _ => rfl, fun _ => rfl⟩

theorem touch.upd_bounds (s : State) (v0) : touch 0x200000000000 s { s with bounds := v0 } :=
  ⟨fun _ _ => rfl, fun _ _ _ h => h, fun _ => rfl, fun _ => rfl, fun _ => rfl, fun _ => rfl, fun _ => rfl, fun _ => rfl, fun _ => rfl, fun _ => rfl, fun _ => rfl, fun _ => rfl, fun _ => rfl, fun _ => rfl, fun _ => rfl, fun _ => rfl, fun _ => rfl, fun _ => rfl, fun _ => rfl, fun _ => rfl, fun _ => rfl, fun _ => rfl, fun _ => rfl, fun _ => rfl, fun _ => rfl, fun _ => rfl, fun _ => rfl, fun _ => rfl, fun _ => rfl, fun _ => rfl, fun _ => rfl, fun _ => rfl, fun _ => rfl, fun _ => rfl, fun _ => rfl, fun _ => rfl, fun _ => rfl, fun _ => rfl, fun _ => rfl, fun _ => rfl, fun _ => rfl, fun _ => rfl, fun _ => rfl, fun _ => rfl, fun _ => rfl, fun _ => rfl, fun _ => rfl, fun k => absurd k (by decide), fun _ => rfl, fun _ => rfl, fun _ => rfl, fun _ => rfl, fun _ => rfl, fun _ => rfl, fun _ => rfl, fun _ => rfl, fun _ => rfl, fun _ => rfl, fun _ => rfl, fun _ => rfl, fun _ => rfl, fun _ => rfl, fun _ => rfl, fun _ => rfl, fun _ => rfl, fun _ => rfl, fun _ => rfl, fun _ => rfl, fun _ => rfl, fun _ => rfl, fun _ => rfl, fun _ => rfl, fun _ => rfl, fun _ => rfl, fun _ => rfl, fun _ => rfl, fun _ => rfl, fun _ => rfl, fun _ => rfl, fun _ => rfl, fun _ => rfl, fun _ => rfl, fun _ => rfl, fun _ => rfl, fun _ => rfl, fun _ => rfl, fun _ => rfl, fun _ => rfl, fun _ => rfl, fun _ => rfl, fun _ => rfl, fun _ => rfl, fun _ => rfl, fun _ => rfl, fun _ => rfl, fun _ => rfl, fun _ => rfl, fun _ => rfl⟩

theorem touch.upd_cfg (s : State) (v0) : touch 0x80000 s { s with cfg := v0 } :=
  ⟨fun _ _ => rfl, fun _ _ _ h => h, fun _ => rfl, fun _ => rfl, fun _ => rfl, fun _ => rfl, fun _ => rfl, fun _ => rfl, fun _ => rfl, fun _ => rfl, fun _ => rfl, fun _ => rfl, fun _ => rfl, fun _ => rfl, fun _ => rfl, fun _ => rfl, fun _ => rfl, fun _ => rfl, fun _ => rfl, fun _ => rfl, fun _ => rfl, fun k => absurd k (by decide), fun _ => rfl, fun _ => rfl, fun _ => rfl, fun _ => rfl, fun _ => rfl, fun _ => rfl, fun _ => rfl, fun _ => rfl, fun _ => rfl, fun _ => rfl, fun _ => rfl, fun _ => rfl, fun _ => rfl, fun _ => rfl, fun _ => rfl, fun _ => rfl, fun _ => rfl, fun _ => rfl, fun _ => rfl, fun _ => rfl, fun _ => rfl, fun _ => rfl, fun _ => rfl, fun _ => rfl, fun _ => rfl, fun _ => rfl, fun _ => rfl, fun _ => rfl, fun _ => rfl, fun _ => rfl, fun _ => rfl, fun _ => rfl, fun _ => rfl, fun _ => rfl, fun _ => rfl, fun _ => rfl, fun _ => rfl, fun _ => rfl, fun _ => rfl, fun _ => rfl, fun _ => rfl, fun _ => rfl, fun _ => rfl, fun _ => rfl, fun _ => rfl, fun _ => rfl, fun _ => rfl, fun _ => rfl, fun _ => rfl, fun _ => rfl, fun _ => rfl, fun _ => rfl, fun _ => rfl, fun _ => rfl, fun _ => rfl, fun _ => rfl, fun _ => rfl, fun _ => rfl, fun _ => rfl, fun _ => rfl, fun _ => rfl, fun _ => rfl, fun _ => rfl, fun _ => rfl, fun _ => rfl, fun _ => rfl, fun _ => rfl, fun _ => rfl, fun _ => rfl, fun _ => rfl, fun _ => rfl, fun _ => rfl, fun _ => rfl, fun _ => rfl, fun _ => rfl, fun _ => rfl⟩

theorem touch.upd_commits (s : State) (v0) : touch 0x10000000 s { s with commits := v0 } :=
  ⟨fun _ _ => rfl, fun _ _ _ h => h, fun _ => rfl, fun _ => rfl, fun _ => rfl, fun _ => rfl, fun _ => rfl, fun _ => rfl, fun _ => rfl, fun _ => rfl, fun _ => rfl, fun _ => rfl, fun _ => rfl, fun _ => rfl, fun _ => rfl, fun _ => rfl, fun _ => rfl, fun _ => rfl, fun _ => rfl, fun _ => rfl, fun _ => rfl, fun _ => rfl, fun _ => rfl, fun _ => rfl, fun _ => rfl, fun _ => rfl, fun _ => rfl, fun _ => rfl, fun _ => rfl, fun _ => rfl, fun k => absurd k (by decide), fun _ => rfl, fun _ => rfl, fun _ => rfl, fun _ => rfl, fun _ => rfl, fun _ => rfl, fun _ => rfl, fun _ => rfl, fun _ => rfl, fun _ => rfl, fun _ => rfl, fun _ => rfl, fun _ => rfl, fun _ => rfl, fun _ => rfl, fun _ => rfl, fun _ => rfl, fun _ => rfl, fun _ => rfl, fun _ => rfl, fun _ => rfl, fun _ => rfl, fun _ => rfl, fun _ => rfl, fun _ => rfl, fun _ => rfl, fun _ => rfl, fun _ => rfl, fun _ => rfl, fun _ => rfl, fun _ => rfl, fun _ => rfl, fun _ => rfl, fun _ => rfl, fun _ => rfl, fun _ => rfl, fun _ => rfl, fun _ => rfl, fun _ => rfl, fun _ => rfl, fun _ => rfl, fun _ => rfl, fun _ => rfl, fun _ => rfl, fun _ => rfl, fun _ => rfl, fun _ => rfl, fun _ => rfl, fun _ => rfl, fun _ => rfl, fun _ => rfl, fun _ => rfl, fun _ => rfl, fun _ => rfl, fun _ => rfl, fun _ => rfl, fun _ => rfl, fun _ => rfl, fun _ => rfl, fun _ => rfl, fun _ => rfl, fun _ => rfl, fun _ => rfl, fun _ => rfl, fun _ => rfl, fun _ => rfl, fun _ => rfl⟩

theorem touch.upd_configJobs (s : State) (v0) : touch 0x400000000000000000 s { s with configJobs := v0 } :=
  ⟨fun _ _ => rfl, fun _ _ _ h => h, fun _ => rfl, fun _ => rfl, fun _ => rfl, fun _ => rfl, fun _ => rfl, fun _ => rfl, fun _ => rfl, fun _ => rfl, fun _ => rfl, fun _ => rfl, fun _ => rfl, fun _ => rfl, fun _ => rfl, fun _ => rfl, fun _ => rfl, fun _ => rfl, fun _ => rfl, fun _ => rfl, fun _ => rfl, fun _ => rfl, fun _ => rfl, fun _ => rfl, fun _ => rfl, fun _ => rfl, fun _ => rfl, fun _ => rfl, fun _ => rfl, fun _ => rfl, fun _ => rfl, fun _ => rfl, fun _ => rfl, fun _ => rfl, fun _ => rfl, fun _ => rfl, fun _ => rfl, fun _ => rfl, fun _ => rfl, fun _ => rfl, fun _ => rfl, fun _ => rfl, fun _ => rfl, fun _ => rfl, fun _ => rfl, fun _ => rfl, fun _ => rfl, fun _ => rfl, fun _ => rfl, fun _ => rfl, fun _ => rfl, fun _ => rfl, fun _ => rfl, fun _ => rfl, fun _ => rfl, fun _ => rfl, fun _ => rfl, fun _ => rfl, fun _ => rfl, fun _ => rfl, fun _ => rfl, fun _ => rfl, fun _ => rfl, fun _ => rfl, fun _ => rfl, fun _ => rfl, fun _ => rfl, fun _ => rfl, fun _ => rfl, fun _ => rfl, fun _ => rfl, fun _ => rfl, fun k => absurd k (by decide), fun _ => rfl, fun _ => rfl, fun _ => rfl, fun _ => rfl, fun _ => rfl, fun _ => rfl, fun _ => rfl, fun _ => rfl, fun _ => rfl, fun _ => rfl, fun _ => rfl, fun _ => rfl, fun _ => rfl, fun _ => rfl, fun _ => rfl, fun _ => rfl, fun _ => rfl, fun _ => rfl, fun _ => rfl, fun _ => rfl, fun _ => rfl, fun _ => rfl, fun _ => rfl, fun _ => rfl, fun _ => rfl⟩

theorem touch.upd_coolSince (s : State) (v0) : touch 0x800000000000000000000 s { s with coolSince := v0 } :=
  ⟨fun _ _ => rfl, fun _ _ _ h => h, fun _ => rfl, fun _ => rfl, fun _ => rfl, fun _ => rfl, fun _ => rfl, fun _ => rfl, fun _ => rfl, fun _ => rfl, fun _ => rfl, fun _ => rfl, fun _ => rfl, fun _ => rfl, fun _ => rfl, fun _ => rfl, fun _ => rfl, fun _ => rfl, fun _ => rfl, fun _ => rfl, fun _ => rfl, fun _ => rfl, fun _ => rfl, fun _ => rfl, fun _ => rfl, fun _ => rfl, fun _ => rfl, fun _ => rfl, fun _ => rfl, fun _ => rfl, fun _ => rfl, fun _ => rfl, fun _ => rfl, fun _ => rfl, fun _ => rfl, fun _ => rfl, fun _ => rfl, fun _ => rfl, fun _ => rfl, fun _ => rfl, fun _ => rfl, fun _ => rfl, fun _ => rfl, fun _ => rfl, fun _ => rfl, fun _ => rfl, fun _ => rfl, fun _ => rfl, fun _ => rfl, fun _ => rfl, fun _ => rfl, fun _ => rfl, fun _ => rfl, fun _ => rfl, fun _ => rfl, fun _ => rfl, fun _ => rfl, fun _ => rfl, fun _ => rfl, fun _ => rfl, fun _ => rfl, fun _ => rfl, fun _ => rfl, fun _ => rfl, fun _ => rfl, fun _ => rfl, fun _ => rfl, fun _ => rfl, fun _ => rfl, fun _ => rfl, fun _ => rfl, fun _ => rfl, fun _ => rfl, fun _ => rfl, fun _ => rfl, fun _ => rfl, fun _ => rfl, fun _ => rfl, fun _ => rfl, fun _ => rfl, fun _ => rfl, fun _ => rfl, fun _ => rfl, fun _ => rfl, fun _ => rfl, fun k => absurd k (by decide), fun _ => rfl, fun _ => rfl, fun _ => rfl, fun _ => rfl, fun _ => rfl, fun _ => rfl, fun _ => rfl, fun _ => rfl, fun _ => rfl, fun _ => rfl, fun _ => rfl, fun _ => rfl⟩

theorem touch.upd_crossings (s : State) (v0) : touch 0x40000000 s { s with crossings := v0 } :=
  ⟨fun _ _ => rfl, fun _ _ _ h => h, fun _ => rfl, fun _ => rfl, fun _ => rfl, fun _ => rfl, fun _ => rfl, fun _ => rfl, fun _ => rfl, fun _ => rfl, fun _ => rfl, fun _ => rfl, fun _ => rfl, fun _ => rfl, fun _ => rfl, fun _ => rfl, fun _ => rfl, fun _ => rfl, fun _ => rfl, fun _ => rfl, fun _ => rfl, fun _ => rfl, fun _ => rfl, fun _ => rfl, fun _ => rfl, fun _ => rfl, fun _ => rfl, fun _ => rfl, fun _ => rfl, fun _ => rfl, fun _ => rfl, fun _ => rfl, fun k => absurd k (by decide), fun _ => rfl, fun _ => rfl, fun _ => rfl, fun _ => rfl, fun _ => rfl, fun _ => rfl, fun _ => rfl, fun _ => rfl, fun _ => rfl, fun _ => rfl, fun _ => rfl, fun _ => rfl, fun _ => rfl, fun _ => rfl, fun _ => rfl, fun _ => rfl, fun _ => rfl, fun _ => rfl, fun _ => rfl, fun _ => rfl, fun _ => rfl, fun _ => rfl, fun _ => rfl, fun _ => rfl, fun _ => rfl, fun _ => rfl, fun _ => rfl, fun _ => rfl, fun _ => rfl, fun _ => rfl, fun _ => rfl, fun _ => rfl, fun _ => rfl, fun _ => rfl, fun _ => rfl, fun _ => rfl, fun _ => rfl, fun _ => rfl, fun _ => rfl, fun _ => rfl, fun _ => rfl, fun _ => rfl, fun _ => rfl, fun _ => rfl, fun _ => rfl, fun _ => rfl, fun _ => rfl, fun _ => rfl, fun _ => rfl, fun _ => rfl, fun _ => rfl, fun _ => rfl, fun _ => rfl, fun _ => rfl, fun _ => rfl, fun _ => rfl, fun _ => rfl, fun _ => rfl, fun _ => rfl, fun _ => rfl, fun _ => rfl, fun _ => rfl, fun _ => rfl, fun _ => rfl, fun _ => rfl⟩

theorem touch.upd_cycles (s : State) (v0) : touch 0x4 s { s with cycles := v0 } :=
  ⟨fun _ _ => rfl, fun _ _ _ h => h, fun _ => rfl, fun _ => rfl, fun k => absurd k (by decide), fun _ => rfl, fun _ => rfl, fun _ => rfl, fun _ => rfl, fun _ => rfl, fun _ => rfl, fun _ => rfl, fun _ => rfl, fun _ => rfl, fun _ => rfl, fun _ => rfl, fun _ => rfl, fun _ => rfl, fun _ => rfl, fun _ => rfl, fun _ => rfl, fun _ => rfl, fun _ => rfl, fun _ => rfl, fun _ => rfl, fun _ => rfl, fun _ => rfl, fun _ => rfl, fun _ => rfl, fun _ => rfl, fun _ => rfl, fun _ => rfl, fun _ => rfl, fun _ => rfl, fun _ => rfl, fun _ => rfl, fun _ => rfl, fun _ => rfl, fun _ => rfl, fun _ => rfl, fun _ => rfl, fun _ => rfl, fun _ => rfl, fun _ => rfl, fun _ => rfl, fun _ => rfl, fun _ => rfl, fun _ => rfl, fun _ => rfl, fun _ => rfl, fun _ => rfl, fun _ => rfl, fun _ => rfl, fun _ => rfl, fun _ => rfl, fun _ => rfl, fun _ => rfl, fun _ => rfl, fun _ => rfl, fun _ => rfl, fun _ => rfl, fun _ => rfl, fun _ => rfl, fun _ => rfl, fun _ => rfl, fun _ => rfl, fun _ => rfl, fun _ => rfl, fun _ => rfl, fun _ => rfl, fun _ => rfl, fun _ => rfl, fun _ => rfl, fun _ => rfl, fun _ => rfl, fun _ => rfl, fun _ => rfl, fun _ => rfl, fun _ => rfl, fun _ => rfl, fun _ => rfl, fun _ => rfl, fun _ => rfl, fun _ => rfl, fun _ => rfl, fun _ => rfl, fun _ => rfl, fun _ => rfl, fun _ => rfl, fun _ => rfl, fun _ => rfl, fun _ => rfl, fun _ => rfl, fun _ => rfl, fun _ => rfl, fun _ => rfl, fun _ => rfl, fun _ => rfl⟩

theorem touch.upd_dataMem (s : State) (v0) : touch 0x8000000000000 s { s with dataMem := v0 } :=
  ⟨fun _ _ => rfl, fun _ _ _ h => h, fun _ => rfl, fun _ => rfl, fun _ => rfl, fun _ => rfl, fun _ => rfl, fun _ => rfl, fun _ => rfl, fun _ => rfl, fun _ => rfl, fun _ => rfl, fun _ => rfl, fun _ => rfl, fun _ => rfl, fun _ => rfl, fun _ => rfl, fun _ => rfl, fun _ => rfl, fun _ => rfl, fun _ => rfl, fun _ => rfl, fun _ => rfl, fun _ => rfl, fun _ => rfl, fun _ => rfl, fun _ => rfl, fun _ => rfl, fun _ => rfl, fun _ => rfl, fun _ => rfl, fun _ => rfl, fun _ => rfl, fun _ => rfl, fun _ => rfl, fun _ => rfl, fun _ => rfl, fun _ => rfl, fun _ => rfl, fun _ => rfl, fun _ => rfl, fun _ => rfl, fun _ => rfl, fun _ => rfl, fun _ => rfl, fun _ => rfl, fun _ => rfl, fun _ => rfl, fun _ => rfl, fun _ => rfl, fun _ => rfl, fun _ => rfl, fun _ => rfl, fun k => absurd k (by decide), fun _ => rfl, fun _ => rfl, fun _ => rfl, fun _ => rfl, fun _ => rfl, fun _ => rfl, fun _ => rfl, fun _ => rfl, fun _ => rfl, fun _ => rfl, fun _ => rfl, fun _ => rfl, fun _ => rfl, fun _ => rfl, fun _ => rfl, fun _ => rfl, fun _ => rfl, fun _ => rfl, fun _ => rfl, fun _ => rfl, fun _ => rfl, fun _ => rfl, fun _ => rfl, fun _ => rfl, fun _ => rfl, fun _ => rfl, fun _ => rfl, fun _ => rfl, fun _ => rfl, fun _ => rfl, fun _ => rfl, fun _ => rfl, fun _ => rfl, fun _ => rfl, fun _ => rfl, fun _ => rfl, fun _ => rfl, fun _ => rfl, fun _ => rfl, fun _ => rfl, fun _ => rfl, fun _ => rfl, fun _ => rfl, fun _ => rfl⟩

theorem touch.upd_device (s : State) (v0) : touch 0x2000000000 s { s with device := v0 } :=
  ⟨fun _ _ => rfl, fun _ _ _ h => h, fun _ => rfl, fun _ => rfl, fun _ => rfl, fun _ => rfl, fun _ => rfl, fun _ => rfl, fun _ => rfl, fun _ => rfl, fun _ => rfl, fun _ => rfl, fun _ => rfl, fun _ => rfl, fun _ => rfl, fun _ => rfl, fun _ => rfl, fun _ => rfl, fun _ => rfl, fun _ => rfl, fun _ => rfl, fun _ => rfl, fun _ => rfl, fun _ => rfl, fun _ => rfl, fun _ => rfl, fun _ => rfl, fun _ => rfl, fun _ => rfl, fun _ => rfl, fun _ => rfl, fun _ => rfl, fun _ => rfl, fun _ => rfl, fun _ => rfl, fun _ => rfl, fun _ => rfl, fun _ => rfl, fun _ => rfl, fun k => absurd k (by decide), fun _ => rfl, fun _ => rfl, fun _ => rfl, fun _ => rfl, fun _ => rfl, fun _ => rfl, fun _ => rfl, fun _ => rfl, fun _ => rfl, fun _ => rfl, fun _ => rfl, fun _ => rfl, fun _ => rfl, fun _ => rfl, fun _ => rfl, fun _ => rfl, fun _ => rfl, fun _ => rfl, fun _ => rfl, fun _ => rfl, fun _ => rfl, fun _ => rfl, fun _ => rfl, fun _ => rfl, fun _ => rfl, fun _ => rfl, fun _ => rfl, fun _ => rfl, fun _ => rfl, fun _ => rfl, fun _ => rfl, fun _ => rfl, fun _ => rfl, fun _ => rfl, fun _ => rfl, fun _ => rfl, fun _ => rfl, fun _ => rfl, fun _ => rfl, fun _ => rfl, fun _ => rfl, fun _ => rfl, fun _ => rfl, fun _ => rfl, fun _ => rfl, fun _ => rfl, fun _ => rfl, fun _ => rfl, fun _ => rfl, fun _ => rfl, fun _ => rfl, fun _ => rfl, fun _ => rfl, fun _ => rfl, fun _ => rfl, fun _ => rfl, fun _ => rfl, fun _ => rfl⟩

theorem touch.upd_deviceMps (s : State) (v0) : touch 0x10000000000000000 s { s with deviceMps := v0 } :=
  ⟨fun _ _ => rfl, fun _ _ _ h => h, fun _ => rfl, fun _ => rfl, fun _ => rfl, fun _ => rfl, fun _ => rfl, fun _ => rfl, fun _ => rfl, fun _ => rfl, fun _ => rfl, fun _ => rfl, fun _ => rfl, fun _ => rfl, fun _ => rfl, fun _ => rfl, fun _ => rfl, fun _ => rfl, fun _ => rfl, fun _ => rfl, fun _ => rfl, fun _ => rfl, fun _ => rfl, fun _ => rfl, fun _ => rfl, fun _ => rfl, fun _ => rfl, fun _ => rfl, fun _ => rfl, fun _ => rfl, fun _ => rfl, fun _ => rfl, fun _ => rfl, fun _ => rfl, fun _ => rfl, fun _ => rfl, fun _ => rfl, fun _ => rfl, fun _ => rfl, fun _ => rfl, fun _ => rfl, fun _ => rfl, fun _ => rfl, fun _ => rfl, fun _ => rfl, fun _ => rfl, fun _ => rfl, fun _ => rfl, fun _ => rfl, fun _ => rfl, fun _ => rfl, fun _ => rfl, fun _ => rfl, fun _ => rfl, fun _ => rfl, fun _ => rfl, fun _ => rfl, fun _ => rfl, fun _ => rfl, fun _ => rfl, fun _ => rfl, fun _ => rfl, fun _ => rfl, fun _ => rfl, fun _ => rfl, fun _ => rfl, fun k => absurd k (by decide), fun _ => rfl, fun _ => rfl, fun _ => rfl, fun _ => rfl, fun _ => rfl, fun _ => rfl, fun _ => rfl, fun _ => rfl, fun _ => rfl, fun _ => rfl, fun _ => rfl, fun _ => rfl, fun _ => rfl, fun _ => rfl, fun _ => rfl, fun _ => rfl, fun _ => rfl, fun _ => rfl, fun _ => rfl, fun _ => rfl, fun _ => rfl, fun _ => rfl, fun _ => rfl, fun _ => rfl, fun _ => rfl, fun _ => rfl, fun _ => rfl, fun _ => rfl, fun _ => rfl, fun _ => rfl, fun _ => rfl⟩

theorem touch.upd_dir (s : State) (v0) : touch 0x1000 s { s with dir := v0 } :=
  ⟨fun _ _ => rfl, fun _ _ _ h => h, fun _ => rfl, fun _ => rfl, fun _ => rfl, fun _ => rfl, fun _ => rfl, fun _ => rfl, fun _ => rfl, fun _ => rfl, fun _ => rfl, fun _ => rfl, fun _ => rfl, fun _ => rfl, fun k => absurd k (by decide), fun _ => rfl, fun _ => rfl, fun _ => rfl, fun _ => rfl, fun _ => rfl, fun _ => rfl, fun _ => rfl, fun _ => rfl, fun _ => rfl, fun _ => rfl, fun _ => rfl, fun _ => rfl, fun _ => rfl, fun _ => rfl, fun _ => rfl, fun _ => rfl, fun _ => rfl, fun _ => rfl, fun _ => rfl, fun _ => rfl, fun _ => rfl, fun _ => rfl, fun _ => rfl, fun _ => rfl, fun _ => rfl, fun _ => rfl, fun _ => rfl, fun _ => rfl, fun _ => rfl, fun _ => rfl, fun _ => rfl, fun _ => rfl, fun _ => rfl, fun _ => rfl, fun _ => rfl, fun _ => rfl, fun _ => rfl, fun _ => rfl, fun _ => rfl, fun _ => rfl, fun _ => rfl, fun _ => rfl, fun _ => rfl, fun _ => rfl, fun _ => rfl, fun _ => rfl, fun _ => rfl, fun _ => rfl, fun _ => rfl, fun _ => rfl, fun _ => rfl, fun _ => rfl, fun _ => rfl, fun _ => rfl, fun _ => rfl, fun _ => rfl, fun _ => rfl, fun _ => rfl, fun _ => rfl, fun _ => rfl, fun _ => rfl, fun _ => rfl, fun _ => rfl, fun _ => rfl, fun _ => rfl, fun _ => rfl, fun _ => rfl, fun _ => rfl, fun _ => rfl, fun _ => rfl, fun _ => rfl, fun _ => rfl, fun _ => rfl, fun _ => rfl, fun _ => rfl, fun _ => rfl, fun _ => rfl, fun _ => rfl, fun _ => rfl, fun _ => rfl, fun _ => rfl, fun _ => rfl, fun _ => rfl⟩

theorem touch.upd_dir_bankWrite (s : State) (v0 v1) : touch 0x40000000000000000001000 s { s with dir := v0, bankWrite := v1 } :=
  ⟨fun _ _ => rfl, fun _ _ _ h => h, fun _ => rfl, fun _ => rfl, fun _ => rfl, fun _ => rfl, fun _ => rfl, fun _ => rfl, fun _ => rfl, fun _ => rfl, fun _ => rfl, fun _ => rfl, fun _ => rfl, fun _ => rfl, fun k => absurd k (by decide), fun _ => rfl, fun _ => rfl, fun _ => rfl, fun _ => rfl, fun _ => rfl, fun _ => rfl, fun _ => rfl, fun _ => rfl, fun _ => rfl, fun _ => rfl, fun _ => rfl, fun _ => rfl, fun _ => rfl, fun _ => rfl, fun _ => rfl, fun _ => rfl, fun _ => rfl, fun _ => rfl, fun _ => rfl, fun _ => rfl, fun _ => rfl, fun _ => rfl, fun _ => rfl, fun _ => rfl, fun _ => rfl, fun _ => rfl, fun _ => rfl, fun _ => rfl, fun _ => rfl, fun _ => rfl, fun _ => rfl, fun _ => rfl, fun _ => rfl, fun _ => rfl, fun _ => rfl, fun _ => rfl, fun _ => rfl, fun _ => rfl, fun _ => rfl, fun _ => rfl, fun _ => rfl, fun _ => rfl, fun _ => rfl, fun _ => rfl, fun _ => rfl, fun _ => rfl, fun _ => rfl, fun _ => rfl, fun _ => rfl, fun _ => rfl, fun _ => rfl, fun _ => rfl, fun _ => rfl, fun _ => rfl, fun _ => rfl, fun _ => rfl, fun _ => rfl, fun _ => rfl, fun _ => rfl, fun _ => rfl, fun _ => rfl, fun _ => rfl, fun _ => rfl, fun _ => rfl, fun _ => rfl, fun _ => rfl, fun _ => rfl, fun _ => rfl, fun _ => rfl, fun _ => rfl, fun _ => rfl, fun _ => rfl, fun _ => rfl, fun _ => rfl, fun _ => rfl, fun _ => rfl, fun _ => rfl, fun k => absurd k (by decide), fun _ => rfl, fun _ => rfl, fun _ => rfl, fun _ => rfl, fun _ => rfl⟩

theorem touch.upd_doe (s : State) (v0) : touch 0x20000000000000000000 s { s with doe := v0 } :=
  ⟨fun _ _ => rfl, fun _ _ _ h => h, fun _ => rfl, fun _ => rfl, fun _ => rfl, fun _ => rfl, fun _ => rfl, fun _ => rfl, fun _ => rfl, fun _ => rfl, fun _ => rfl, fun _ => rfl, fun _ => rfl, fun _ => rfl, fun _ => rfl, fun _ => rfl, fun _ => rfl, fun _ => rfl, fun _ => rfl, fun _ => rfl, fun _ => rfl, fun _ => rfl, fun _ => rfl, fun _ => rfl, fun _ => rfl, fun _ => rfl, fun _ => rfl, fun _ => rfl, fun _ => rfl, fun _ => rfl, fun _ => rfl, fun _ => rfl, fun _ => rfl, fun _ => rfl, fun _ => rfl, fun _ => rfl, fun _ => rfl, fun _ => rfl, fun _ => rfl, fun _ => rfl, fun _ => rfl, fun _ => rfl, fun _ => rfl, fun _ => rfl, fun _ => rfl, fun _ => rfl, fun _ => rfl, fun _ => rfl, fun _ => rfl, fun _ => rfl, fun _ => rfl, fun _ => rfl, fun _ => rfl, fun _ => rfl, fun _ => rfl, fun _ => rfl, fun _ => rfl, fun _ => rfl, fun _ => rfl, fun _ => rfl, fun _ => rfl, fun _ => rfl, fun _ => rfl, fun _ => rfl, fun _ => rfl, fun _ => rfl, fun _ => rfl, fun _ => rfl, fun _ => rfl, fun _ => rfl, fun _ => rfl, fun _ => rfl, fun _ => rfl, fun _ => rfl, fun _ => rfl, fun _ => rfl, fun _ => rfl, fun _ => rfl, fun _ => rfl, fun k => absurd k (by decide), fun _ => rfl, fun _ => rfl, fun _ => rfl, fun _ => rfl, fun _ => rfl, fun _ => rfl, fun _ => rfl, fun _ => rfl, fun _ => rfl, fun _ => rfl, fun _ => rfl, fun _ => rfl, fun _ => rfl, fun _ => rfl, fun _ => rfl, fun _ => rfl, fun _ => rfl, fun _ => rfl⟩

theorem touch.upd_doeOrder (s : State) (v0) : touch 0x40000000000000000000 s { s with doeOrder := v0 } :=
  ⟨fun _ _ => rfl, fun _ _ _ h => h, fun _ => rfl, fun _ => rfl, fun _ => rfl, fun _ => rfl, fun _ => rfl, fun _ => rfl, fun _ => rfl, fun _ => rfl, fun _ => rfl, fun _ => rfl, fun _ => rfl, fun _ => rfl, fun _ => rfl, fun _ => rfl, fun _ => rfl, fun _ => rfl, fun _ => rfl, fun _ => rfl, fun _ => rfl, fun _ => rfl, fun _ => rfl, fun _ => rfl, fun _ => rfl, fun _ => rfl, fun _ => rfl, fun _ => rfl, fun _ => rfl, fun _ => rfl, fun _ => rfl, fun _ => rfl, fun _ => rfl, fun _ => rfl, fun _ => rfl, fun _ => rfl, fun _ => rfl, fun _ => rfl, fun _ => rfl, fun _ => rfl, fun _ => rfl, fun _ => rfl, fun _ => rfl, fun _ => rfl, fun _ => rfl, fun _ => rfl, fun _ => rfl, fun _ => rfl, fun _ => rfl, fun _ => rfl, fun _ => rfl, fun _ => rfl, fun _ => rfl, fun _ => rfl, fun _ => rfl, fun _ => rfl, fun _ => rfl, fun _ => rfl, fun _ => rfl, fun _ => rfl, fun _ => rfl, fun _ => rfl, fun _ => rfl, fun _ => rfl, fun _ => rfl, fun _ => rfl, fun _ => rfl, fun _ => rfl, fun _ => rfl, fun _ => rfl, fun _ => rfl, fun _ => rfl, fun _ => rfl, fun _ => rfl, fun _ => rfl, fun _ => rfl, fun _ => rfl, fun _ => rfl, fun _ => rfl, fun _ => rfl, fun k => absurd k (by decide), fun _ => rfl, fun _ => rfl, fun _ => rfl, fun _ => rfl, fun _ => rfl, fun _ => rfl, fun _ => rfl, fun _ => rfl, fun _ => rfl, fun _ => rfl, fun _ => rfl, fun _ => rfl, fun _ => rfl, fun _ => rfl, fun _ => rfl, fun _ => rfl, fun _ => rfl⟩

theorem touch.upd_doe_doeOrder (s : State) (v0 v1) : touch 0x60000000000000000000 s { s with doe := v0, doeOrder := v1 } :=
  ⟨fun _ _ => rfl, fun _ _ _ h => h, fun _ => rfl, fun _ => rfl, fun _ => rfl, fun _ => rfl, fun _ => rfl, fun _ => rfl, fun _ => rfl, fun _ => rfl, fun _ => rfl, fun _ => rfl, fun _ => rfl, fun _ => rfl, fun _ => rfl, fun _ => rfl, fun _ => rfl, fun _ => rfl, fun _ => rfl, fun _ => rfl, fun _ => rfl, fun _ => rfl, fun _ => rfl, fun _ => rfl, fun _ => rfl, fun _ => rfl, fun _ => rfl, fun _ => rfl, fun _ => rfl, fun _ => rfl, fun _ => rfl, fun _ => rfl, fun _ => rfl, fun _ => rfl, fun _ => rfl, fun _ => rfl, fun _ => rfl, fun _ => rfl, fun _ => rfl, fun _ => rfl, fun _ => rfl, fun _ => rfl, fun _ => rfl, fun _ => rfl, fun _ => rfl, fun _ => rfl, fun _ => rfl, fun _ => rfl, fun _ => rfl, fun _ => rfl, fun _ => rfl, fun _ => rfl, fun _ => rfl, fun _ => rfl, fun _ => rfl, fun _ => rfl, fun _ => rfl, fun _ => rfl, fun _ => rfl, fun _ => rfl, fun _ => rfl, fun _ => rfl, fun _ => rfl, fun _ => rfl, fun _ => rfl, fun _ => rfl, fun _ => rfl, fun _ => rfl, fun _ => rfl, fun _ => rfl, fun _ => rfl, fun _ => rfl, fun _ => rfl, fun _ => rfl, fun _ => rfl, fun _ => rfl, fun _ => rfl, fun _ => rfl, fun _ => rfl, fun k => absurd k (by decide), fun k => absurd k (by decide), fun _ => rfl, fun _ => rfl, fun _ => rfl, fun _ => rfl, fun _ => rfl, fun _ => rfl, fun _ => rfl, fun _ => rfl, fun _ => rfl, fun _ => rfl, fun _ => rfl, fun _ => rfl, fun _ => rfl, fun _ => rfl, fun _ => rfl, fun _ => rfl, fun _ => rfl⟩

theorem touch.upd_dpcSince (s : State) (v0) : touch 0x10000000000000000000 s { s with dpcSince := v0 } :=
  ⟨fun _ _ => rfl, fun _ _ _ h => h, fun _ => rfl, fun _ => rfl, fun _ => rfl, fun _ => rfl, fun _ => rfl, fun _ => rfl, fun _ => rfl, fun _ => rfl, fun _ => rfl, fun _ => rfl, fun _ => rfl, fun _ => rfl, fun _ => rfl, fun _ => rfl, fun _ => rfl, fun _ => rfl, fun _ => rfl, fun _ => rfl, fun _ => rfl, fun _ => rfl, fun _ => rfl, fun _ => rfl, fun _ => rfl, fun _ => rfl, fun _ => rfl, fun _ => rfl, fun _ => rfl, fun _ => rfl, fun _ => rfl, fun _ => rfl, fun _ => rfl, fun _ => rfl, fun _ => rfl, fun _ => rfl, fun _ => rfl, fun _ => rfl, fun _ => rfl, fun _ => rfl, fun _ => rfl, fun _ => rfl, fun _ => rfl, fun _ => rfl, fun _ => rfl, fun _ => rfl, fun _ => rfl, fun _ => rfl, fun _ => rfl, fun _ => rfl, fun _ => rfl, fun _ => rfl, fun _ => rfl, fun _ => rfl, fun _ => rfl, fun _ => rfl, fun _ => rfl, fun _ => rfl, fun _ => rfl, fun _ => rfl, fun _ => rfl, fun _ => rfl, fun _ => rfl, fun _ => rfl, fun _ => rfl, fun _ => rfl, fun _ => rfl, fun _ => rfl, fun _ => rfl, fun _ => rfl, fun _ => rfl, fun _ => rfl, fun _ => rfl, fun _ => rfl, fun _ => rfl, fun _ => rfl, fun _ => rfl, fun _ => rfl, fun k => absurd k (by decide), fun _ => rfl, fun _ => rfl, fun _ => rfl, fun _ => rfl, fun _ => rfl, fun _ => rfl, fun _ => rfl, fun _ => rfl, fun _ => rfl, fun _ => rfl, fun _ => rfl, fun _ => rfl, fun _ => rfl, fun _ => rfl, fun _ => rfl, fun _ => rfl, fun _ => rfl, fun _ => rfl, fun _ => rfl⟩

theorem touch.upd_ecc (s : State) (v0) : touch 0x40000000000000 s { s with ecc := v0 } :=
  ⟨fun _ _ => rfl, fun _ _ _ h => h, fun _ => rfl, fun _ => rfl, fun _ => rfl, fun _ => rfl, fun _ => rfl, fun _ => rfl, fun _ => rfl, fun _ => rfl, fun _ => rfl, fun _ => rfl, fun _ => rfl, fun _ => rfl, fun _ => rfl, fun _ => rfl, fun _ => rfl, fun _ => rfl, fun _ => rfl, fun _ => rfl, fun _ => rfl, fun _ => rfl, fun _ => rfl, fun _ => rfl, fun _ => rfl, fun _ => rfl, fun _ => rfl, fun _ => rfl, fun _ => rfl, fun _ => rfl, fun _ => rfl, fun _ => rfl, fun _ => rfl, fun _ => rfl, fun _ => rfl, fun _ => rfl, fun _ => rfl, fun _ => rfl, fun _ => rfl, fun _ => rfl, fun _ => rfl, fun _ => rfl, fun _ => rfl, fun _ => rfl, fun _ => rfl, fun _ => rfl, fun _ => rfl, fun _ => rfl, fun _ => rfl, fun _ => rfl, fun _ => rfl, fun _ => rfl, fun _ => rfl, fun _ => rfl, fun _ => rfl, fun _ => rfl, fun k => absurd k (by decide), fun _ => rfl, fun _ => rfl, fun _ => rfl, fun _ => rfl, fun _ => rfl, fun _ => rfl, fun _ => rfl, fun _ => rfl, fun _ => rfl, fun _ => rfl, fun _ => rfl, fun _ => rfl, fun _ => rfl, fun _ => rfl, fun _ => rfl, fun _ => rfl, fun _ => rfl, fun _ => rfl, fun _ => rfl, fun _ => rfl, fun _ => rfl, fun _ => rfl, fun _ => rfl, fun _ => rfl, fun _ => rfl, fun _ => rfl, fun _ => rfl, fun _ => rfl, fun _ => rfl, fun _ => rfl, fun _ => rfl, fun _ => rfl, fun _ => rfl, fun _ => rfl, fun _ => rfl, fun _ => rfl, fun _ => rfl, fun _ => rfl, fun _ => rfl, fun _ => rfl, fun _ => rfl⟩

theorem touch.upd_engines (s : State) (v0) : touch 0x2000000000000 s { s with engines := v0 } :=
  ⟨fun _ _ => rfl, fun _ _ _ h => h, fun _ => rfl, fun _ => rfl, fun _ => rfl, fun _ => rfl, fun _ => rfl, fun _ => rfl, fun _ => rfl, fun _ => rfl, fun _ => rfl, fun _ => rfl, fun _ => rfl, fun _ => rfl, fun _ => rfl, fun _ => rfl, fun _ => rfl, fun _ => rfl, fun _ => rfl, fun _ => rfl, fun _ => rfl, fun _ => rfl, fun _ => rfl, fun _ => rfl, fun _ => rfl, fun _ => rfl, fun _ => rfl, fun _ => rfl, fun _ => rfl, fun _ => rfl, fun _ => rfl, fun _ => rfl, fun _ => rfl, fun _ => rfl, fun _ => rfl, fun _ => rfl, fun _ => rfl, fun _ => rfl, fun _ => rfl, fun _ => rfl, fun _ => rfl, fun _ => rfl, fun _ => rfl, fun _ => rfl, fun _ => rfl, fun _ => rfl, fun _ => rfl, fun _ => rfl, fun _ => rfl, fun _ => rfl, fun _ => rfl, fun k => absurd k (by decide), fun _ => rfl, fun _ => rfl, fun _ => rfl, fun _ => rfl, fun _ => rfl, fun _ => rfl, fun _ => rfl, fun _ => rfl, fun _ => rfl, fun _ => rfl, fun _ => rfl, fun _ => rfl, fun _ => rfl, fun _ => rfl, fun _ => rfl, fun _ => rfl, fun _ => rfl, fun _ => rfl, fun _ => rfl, fun _ => rfl, fun _ => rfl, fun _ => rfl, fun _ => rfl, fun _ => rfl, fun _ => rfl, fun _ => rfl, fun _ => rfl, fun _ => rfl, fun _ => rfl, fun _ => rfl, fun _ => rfl, fun _ => rfl, fun _ => rfl, fun _ => rfl, fun _ => rfl, fun _ => rfl, fun _ => rfl, fun _ => rfl, fun _ => rfl, fun _ => rfl, fun _ => rfl, fun _ => rfl, fun _ => rfl, fun _ => rfl, fun _ => rfl, fun _ => rfl⟩

theorem touch.upd_fenceStart (s : State) (v0) : touch 0x20000000 s { s with fenceStart := v0 } :=
  ⟨fun _ _ => rfl, fun _ _ _ h => h, fun _ => rfl, fun _ => rfl, fun _ => rfl, fun _ => rfl, fun _ => rfl, fun _ => rfl, fun _ => rfl, fun _ => rfl, fun _ => rfl, fun _ => rfl, fun _ => rfl, fun _ => rfl, fun _ => rfl, fun _ => rfl, fun _ => rfl, fun _ => rfl, fun _ => rfl, fun _ => rfl, fun _ => rfl, fun _ => rfl, fun _ => rfl, fun _ => rfl, fun _ => rfl, fun _ => rfl, fun _ => rfl, fun _ => rfl, fun _ => rfl, fun _ => rfl, fun _ => rfl, fun k => absurd k (by decide), fun _ => rfl, fun _ => rfl, fun _ => rfl, fun _ => rfl, fun _ => rfl, fun _ => rfl, fun _ => rfl, fun _ => rfl, fun _ => rfl, fun _ => rfl, fun _ => rfl, fun _ => rfl, fun _ => rfl, fun _ => rfl, fun _ => rfl, fun _ => rfl, fun _ => rfl, fun _ => rfl, fun _ => rfl, fun _ => rfl, fun _ => rfl, fun _ => rfl, fun _ => rfl, fun _ => rfl, fun _ => rfl, fun _ => rfl, fun _ => rfl, fun _ => rfl, fun _ => rfl, fun _ => rfl, fun _ => rfl, fun _ => rfl, fun _ => rfl, fun _ => rfl, fun _ => rfl, fun _ => rfl, fun _ => rfl, fun _ => rfl, fun _ => rfl, fun _ => rfl, fun _ => rfl, fun _ => rfl, fun _ => rfl, fun _ => rfl, fun _ => rfl, fun _ => rfl, fun _ => rfl, fun _ => rfl, fun _ => rfl, fun _ => rfl, fun _ => rfl, fun _ => rfl, fun _ => rfl, fun _ => rfl, fun _ => rfl, fun _ => rfl, fun _ => rfl, fun _ => rfl, fun _ => rfl, fun _ => rfl, fun _ => rfl, fun _ => rfl, fun _ => rfl, fun _ => rfl, fun _ => rfl, fun _ => rfl⟩

theorem touch.upd_flowLast (s : State) (v0) : touch 0x10000000000 s { s with flowLast := v0 } :=
  ⟨fun _ _ => rfl, fun _ _ _ h => h, fun _ => rfl, fun _ => rfl, fun _ => rfl, fun _ => rfl, fun _ => rfl, fun _ => rfl, fun _ => rfl, fun _ => rfl, fun _ => rfl, fun _ => rfl, fun _ => rfl, fun _ => rfl, fun _ => rfl, fun _ => rfl, fun _ => rfl, fun _ => rfl, fun _ => rfl, fun _ => rfl, fun _ => rfl, fun _ => rfl, fun _ => rfl, fun _ => rfl, fun _ => rfl, fun _ => rfl, fun _ => rfl, fun _ => rfl, fun _ => rfl, fun _ => rfl, fun _ => rfl, fun _ => rfl, fun _ => rfl, fun _ => rfl, fun _ => rfl, fun _ => rfl, fun _ => rfl, fun _ => rfl, fun _ => rfl, fun _ => rfl, fun _ => rfl, fun _ => rfl, fun k => absurd k (by decide), fun _ => rfl, fun _ => rfl, fun _ => rfl, fun _ => rfl, fun _ => rfl, fun _ => rfl, fun _ => rfl, fun _ => rfl, fun _ => rfl, fun _ => rfl, fun _ => rfl, fun _ => rfl, fun _ => rfl, fun _ => rfl, fun _ => rfl, fun _ => rfl, fun _ => rfl, fun _ => rfl, fun _ => rfl, fun _ => rfl, fun _ => rfl, fun _ => rfl, fun _ => rfl, fun _ => rfl, fun _ => rfl, fun _ => rfl, fun _ => rfl, fun _ => rfl, fun _ => rfl, fun _ => rfl, fun _ => rfl, fun _ => rfl, fun _ => rfl, fun _ => rfl, fun _ => rfl, fun _ => rfl, fun _ => rfl, fun _ => rfl, fun _ => rfl, fun _ => rfl, fun _ => rfl, fun _ => rfl, fun _ => rfl, fun _ => rfl, fun _ => rfl, fun _ => rfl, fun _ => rfl, fun _ => rfl, fun _ => rfl, fun _ => rfl, fun _ => rfl, fun _ => rfl, fun _ => rfl, fun _ => rfl, fun _ => rfl⟩

theorem touch.upd_flr (s : State) (v0) : touch 0x200000000000000000 s { s with flr := v0 } :=
  ⟨fun _ _ => rfl, fun _ _ _ h => h, fun _ => rfl, fun _ => rfl, fun _ => rfl, fun _ => rfl, fun _ => rfl, fun _ => rfl, fun _ => rfl, fun _ => rfl, fun _ => rfl, fun _ => rfl, fun _ => rfl, fun _ => rfl, fun _ => rfl, fun _ => rfl, fun _ => rfl, fun _ => rfl, fun _ => rfl, fun _ => rfl, fun _ => rfl, fun _ => rfl, fun _ => rfl, fun _ => rfl, fun _ => rfl, fun _ => rfl, fun _ => rfl, fun _ => rfl, fun _ => rfl, fun _ => rfl, fun _ => rfl, fun _ => rfl, fun _ => rfl, fun _ => rfl, fun _ => rfl, fun _ => rfl, fun _ => rfl, fun _ => rfl, fun _ => rfl, fun _ => rfl, fun _ => rfl, fun _ => rfl, fun _ => rfl, fun _ => rfl, fun _ => rfl, fun _ => rfl, fun _ => rfl, fun _ => rfl, fun _ => rfl, fun _ => rfl, fun _ => rfl, fun _ => rfl, fun _ => rfl, fun _ => rfl, fun _ => rfl, fun _ => rfl, fun _ => rfl, fun _ => rfl, fun _ => rfl, fun _ => rfl, fun _ => rfl, fun _ => rfl, fun _ => rfl, fun _ => rfl, fun _ => rfl, fun _ => rfl, fun _ => rfl, fun _ => rfl, fun _ => rfl, fun _ => rfl, fun _ => rfl, fun k => absurd k (by decide), fun _ => rfl, fun _ => rfl, fun _ => rfl, fun _ => rfl, fun _ => rfl, fun _ => rfl, fun _ => rfl, fun _ => rfl, fun _ => rfl, fun _ => rfl, fun _ => rfl, fun _ => rfl, fun _ => rfl, fun _ => rfl, fun _ => rfl, fun _ => rfl, fun _ => rfl, fun _ => rfl, fun _ => rfl, fun _ => rfl, fun _ => rfl, fun _ => rfl, fun _ => rfl, fun _ => rfl, fun _ => rfl, fun _ => rfl⟩

theorem touch.upd_freeCount (s : State) (v0) : touch 0x10 s { s with freeCount := v0 } :=
  ⟨fun _ _ => rfl, fun _ _ _ h => h, fun _ => rfl, fun _ => rfl, fun _ => rfl, fun _ => rfl, fun k => absurd k (by decide), fun _ => rfl, fun _ => rfl, fun _ => rfl, fun _ => rfl, fun _ => rfl, fun _ => rfl, fun _ => rfl, fun _ => rfl, fun _ => rfl, fun _ => rfl, fun _ => rfl, fun _ => rfl, fun _ => rfl, fun _ => rfl, fun _ => rfl, fun _ => rfl, fun _ => rfl, fun _ => rfl, fun _ => rfl, fun _ => rfl, fun _ => rfl, fun _ => rfl, fun _ => rfl, fun _ => rfl, fun _ => rfl, fun _ => rfl, fun _ => rfl, fun _ => rfl, fun _ => rfl, fun _ => rfl, fun _ => rfl, fun _ => rfl, fun _ => rfl, fun _ => rfl, fun _ => rfl, fun _ => rfl, fun _ => rfl, fun _ => rfl, fun _ => rfl, fun _ => rfl, fun _ => rfl, fun _ => rfl, fun _ => rfl, fun _ => rfl, fun _ => rfl, fun _ => rfl, fun _ => rfl, fun _ => rfl, fun _ => rfl, fun _ => rfl, fun _ => rfl, fun _ => rfl, fun _ => rfl, fun _ => rfl, fun _ => rfl, fun _ => rfl, fun _ => rfl, fun _ => rfl, fun _ => rfl, fun _ => rfl, fun _ => rfl, fun _ => rfl, fun _ => rfl, fun _ => rfl, fun _ => rfl, fun _ => rfl, fun _ => rfl, fun _ => rfl, fun _ => rfl, fun _ => rfl, fun _ => rfl, fun _ => rfl, fun _ => rfl, fun _ => rfl, fun _ => rfl, fun _ => rfl, fun _ => rfl, fun _ => rfl, fun _ => rfl, fun _ => rfl, fun _ => rfl, fun _ => rfl, fun _ => rfl, fun _ => rfl, fun _ => rfl, fun _ => rfl, fun _ => rfl, fun _ => rfl, fun _ => rfl, fun _ => rfl, fun _ => rfl⟩

theorem touch.upd_fuses_nvs (s : State) (v0 v1) : touch 0x900 s { s with fuses := v0, nvs := v1 } :=
  ⟨fun _ _ => rfl, fun _ _ _ h => h, fun _ => rfl, fun _ => rfl, fun _ => rfl, fun _ => rfl, fun _ => rfl, fun _ => rfl, fun _ => rfl, fun _ => rfl, fun k => absurd k (by decide), fun _ => rfl, fun _ => rfl, fun k => absurd k (by decide), fun _ => rfl, fun _ => rfl, fun _ => rfl, fun _ => rfl, fun _ => rfl, fun _ => rfl, fun _ => rfl, fun _ => rfl, fun _ => rfl, fun _ => rfl, fun _ => rfl, fun _ => rfl, fun _ => rfl, fun _ => rfl, fun _ => rfl, fun _ => rfl, fun _ => rfl, fun _ => rfl, fun _ => rfl, fun _ => rfl, fun _ => rfl, fun _ => rfl, fun _ => rfl, fun _ => rfl, fun _ => rfl, fun _ => rfl, fun _ => rfl, fun _ => rfl, fun _ => rfl, fun _ => rfl, fun _ => rfl, fun _ => rfl, fun _ => rfl, fun _ => rfl, fun _ => rfl, fun _ => rfl, fun _ => rfl, fun _ => rfl, fun _ => rfl, fun _ => rfl, fun _ => rfl, fun _ => rfl, fun _ => rfl, fun _ => rfl, fun _ => rfl, fun _ => rfl, fun _ => rfl, fun _ => rfl, fun _ => rfl, fun _ => rfl, fun _ => rfl, fun _ => rfl, fun _ => rfl, fun _ => rfl, fun _ => rfl, fun _ => rfl, fun _ => rfl, fun _ => rfl, fun _ => rfl, fun _ => rfl, fun _ => rfl, fun _ => rfl, fun _ => rfl, fun _ => rfl, fun _ => rfl, fun _ => rfl, fun _ => rfl, fun _ => rfl, fun _ => rfl, fun _ => rfl, fun _ => rfl, fun _ => rfl, fun _ => rfl, fun _ => rfl, fun _ => rfl, fun _ => rfl, fun _ => rfl, fun _ => rfl, fun _ => rfl, fun _ => rfl, fun _ => rfl, fun _ => rfl, fun _ => rfl, fun _ => rfl⟩

theorem touch.upd_fuses_nvs_dir (s : State) (v0 v1 v2) : touch 0x1900 s { s with fuses := v0, nvs := v1, dir := v2 } :=
  ⟨fun _ _ => rfl, fun _ _ _ h => h, fun _ => rfl, fun _ => rfl, fun _ => rfl, fun _ => rfl, fun _ => rfl, fun _ => rfl, fun _ => rfl, fun _ => rfl, fun k => absurd k (by decide), fun _ => rfl, fun _ => rfl, fun k => absurd k (by decide), fun k => absurd k (by decide), fun _ => rfl, fun _ => rfl, fun _ => rfl, fun _ => rfl, fun _ => rfl, fun _ => rfl, fun _ => rfl, fun _ => rfl, fun _ => rfl, fun _ => rfl, fun _ => rfl, fun _ => rfl, fun _ => rfl, fun _ => rfl, fun _ => rfl, fun _ => rfl, fun _ => rfl, fun _ => rfl, fun _ => rfl, fun _ => rfl, fun _ => rfl, fun _ => rfl, fun _ => rfl, fun _ => rfl, fun _ => rfl, fun _ => rfl, fun _ => rfl, fun _ => rfl, fun _ => rfl, fun _ => rfl, fun _ => rfl, fun _ => rfl, fun _ => rfl, fun _ => rfl, fun _ => rfl, fun _ => rfl, fun _ => rfl, fun _ => rfl, fun _ => rfl, fun _ => rfl, fun _ => rfl, fun _ => rfl, fun _ => rfl, fun _ => rfl, fun _ => rfl, fun _ => rfl, fun _ => rfl, fun _ => rfl, fun _ => rfl, fun _ => rfl, fun _ => rfl, fun _ => rfl, fun _ => rfl, fun _ => rfl, fun _ => rfl, fun _ => rfl, fun _ => rfl, fun _ => rfl, fun _ => rfl, fun _ => rfl, fun _ => rfl, fun _ => rfl, fun _ => rfl, fun _ => rfl, fun _ => rfl, fun _ => rfl, fun _ => rfl, fun _ => rfl, fun _ => rfl, fun _ => rfl, fun _ => rfl, fun _ => rfl, fun _ => rfl, fun _ => rfl, fun _ => rfl, fun _ => rfl, fun _ => rfl, fun _ => rfl, fun _ => rfl, fun _ => rfl, fun _ => rfl, fun _ => rfl, fun _ => rfl⟩

theorem touch.upd_gated (s : State) (v0) : touch 0x200000000000000 s { s with gated := v0 } :=
  ⟨fun _ _ => rfl, fun _ _ _ h => h, fun _ => rfl, fun _ => rfl, fun _ => rfl, fun _ => rfl, fun _ => rfl, fun _ => rfl, fun _ => rfl, fun _ => rfl, fun _ => rfl, fun _ => rfl, fun _ => rfl, fun _ => rfl, fun _ => rfl, fun _ => rfl, fun _ => rfl, fun _ => rfl, fun _ => rfl, fun _ => rfl, fun _ => rfl, fun _ => rfl, fun _ => rfl, fun _ => rfl, fun _ => rfl, fun _ => rfl, fun _ => rfl, fun _ => rfl, fun _ => rfl, fun _ => rfl, fun _ => rfl, fun _ => rfl, fun _ => rfl, fun _ => rfl, fun _ => rfl, fun _ => rfl, fun _ => rfl, fun _ => rfl, fun _ => rfl, fun _ => rfl, fun _ => rfl, fun _ => rfl, fun _ => rfl, fun _ => rfl, fun _ => rfl, fun _ => rfl, fun _ => rfl, fun _ => rfl, fun _ => rfl, fun _ => rfl, fun _ => rfl, fun _ => rfl, fun _ => rfl, fun _ => rfl, fun _ => rfl, fun _ => rfl, fun _ => rfl, fun _ => rfl, fun _ => rfl, fun k => absurd k (by decide), fun _ => rfl, fun _ => rfl, fun _ => rfl, fun _ => rfl, fun _ => rfl, fun _ => rfl, fun _ => rfl, fun _ => rfl, fun _ => rfl, fun _ => rfl, fun _ => rfl, fun _ => rfl, fun _ => rfl, fun _ => rfl, fun _ => rfl, fun _ => rfl, fun _ => rfl, fun _ => rfl, fun _ => rfl, fun _ => rfl, fun _ => rfl, fun _ => rfl, fun _ => rfl, fun _ => rfl, fun _ => rfl, fun _ => rfl, fun _ => rfl, fun _ => rfl, fun _ => rfl, fun _ => rfl, fun _ => rfl, fun _ => rfl, fun _ => rfl, fun _ => rfl, fun _ => rfl, fun _ => rfl, fun _ => rfl, fun _ => rfl⟩

theorem touch.upd_heldFailures (s : State) (v0) : touch 0x4000000000 s { s with heldFailures := v0 } :=
  ⟨fun _ _ => rfl, fun _ _ _ h => h, fun _ => rfl, fun _ => rfl, fun _ => rfl, fun _ => rfl, fun _ => rfl, fun _ => rfl, fun _ => rfl, fun _ => rfl, fun _ => rfl, fun _ => rfl, fun _ => rfl, fun _ => rfl, fun _ => rfl, fun _ => rfl, fun _ => rfl, fun _ => rfl, fun _ => rfl, fun _ => rfl, fun _ => rfl, fun _ => rfl, fun _ => rfl, fun _ => rfl, fun _ => rfl, fun _ => rfl, fun _ => rfl, fun _ => rfl, fun _ => rfl, fun _ => rfl, fun _ => rfl, fun _ => rfl, fun _ => rfl, fun _ => rfl, fun _ => rfl, fun _ => rfl, fun _ => rfl, fun _ => rfl, fun _ => rfl, fun _ => rfl, fun k => absurd k (by decide), fun _ => rfl, fun _ => rfl, fun _ => rfl, fun _ => rfl, fun _ => rfl, fun _ => rfl, fun _ => rfl, fun _ => rfl, fun _ => rfl, fun _ => rfl, fun _ => rfl, fun _ => rfl, fun _ => rfl, fun _ => rfl, fun _ => rfl, fun _ => rfl, fun _ => rfl, fun _ => rfl, fun _ => rfl, fun _ => rfl, fun _ => rfl, fun _ => rfl, fun _ => rfl, fun _ => rfl, fun _ => rfl, fun _ => rfl, fun _ => rfl, fun _ => rfl, fun _ => rfl, fun _ => rfl, fun _ => rfl, fun _ => rfl, fun _ => rfl, fun _ => rfl, fun _ => rfl, fun _ => rfl, fun _ => rfl, fun _ => rfl, fun _ => rfl, fun _ => rfl, fun _ => rfl, fun _ => rfl, fun _ => rfl, fun _ => rfl, fun _ => rfl, fun _ => rfl, fun _ => rfl, fun _ => rfl, fun _ => rfl, fun _ => rfl, fun _ => rfl, fun _ => rfl, fun _ => rfl, fun _ => rfl, fun _ => rfl, fun _ => rfl, fun _ => rfl⟩

theorem touch.upd_hidden (s : State) (v0) : touch 0x1000000000000000 s { s with hidden := v0 } :=
  ⟨fun _ _ => rfl, fun _ _ _ h => h, fun _ => rfl, fun _ => rfl, fun _ => rfl, fun _ => rfl, fun _ => rfl, fun _ => rfl, fun _ => rfl, fun _ => rfl, fun _ => rfl, fun _ => rfl, fun _ => rfl, fun _ => rfl, fun _ => rfl, fun _ => rfl, fun _ => rfl, fun _ => rfl, fun _ => rfl, fun _ => rfl, fun _ => rfl, fun _ => rfl, fun _ => rfl, fun _ => rfl, fun _ => rfl, fun _ => rfl, fun _ => rfl, fun _ => rfl, fun _ => rfl, fun _ => rfl, fun _ => rfl, fun _ => rfl, fun _ => rfl, fun _ => rfl, fun _ => rfl, fun _ => rfl, fun _ => rfl, fun _ => rfl, fun _ => rfl, fun _ => rfl, fun _ => rfl, fun _ => rfl, fun _ => rfl, fun _ => rfl, fun _ => rfl, fun _ => rfl, fun _ => rfl, fun _ => rfl, fun _ => rfl, fun _ => rfl, fun _ => rfl, fun _ => rfl, fun _ => rfl, fun _ => rfl, fun _ => rfl, fun _ => rfl, fun _ => rfl, fun _ => rfl, fun _ => rfl, fun _ => rfl, fun _ => rfl, fun _ => rfl, fun k => absurd k (by decide), fun _ => rfl, fun _ => rfl, fun _ => rfl, fun _ => rfl, fun _ => rfl, fun _ => rfl, fun _ => rfl, fun _ => rfl, fun _ => rfl, fun _ => rfl, fun _ => rfl, fun _ => rfl, fun _ => rfl, fun _ => rfl, fun _ => rfl, fun _ => rfl, fun _ => rfl, fun _ => rfl, fun _ => rfl, fun _ => rfl, fun _ => rfl, fun _ => rfl, fun _ => rfl, fun _ => rfl, fun _ => rfl, fun _ => rfl, fun _ => rfl, fun _ => rfl, fun _ => rfl, fun _ => rfl, fun _ => rfl, fun _ => rfl, fun _ => rfl, fun _ => rfl, fun _ => rfl⟩

theorem touch.upd_ingress (s : State) (v0) : touch 0x200000000 s { s with ingress := v0 } :=
  ⟨fun _ _ => rfl, fun _ _ _ h => h, fun _ => rfl, fun _ => rfl, fun _ => rfl, fun _ => rfl, fun _ => rfl, fun _ => rfl, fun _ => rfl, fun _ => rfl, fun _ => rfl, fun _ => rfl, fun _ => rfl, fun _ => rfl, fun _ => rfl, fun _ => rfl, fun _ => rfl, fun _ => rfl, fun _ => rfl, fun _ => rfl, fun _ => rfl, fun _ => rfl, fun _ => rfl, fun _ => rfl, fun _ => rfl, fun _ => rfl, fun _ => rfl, fun _ => rfl, fun _ => rfl, fun _ => rfl, fun _ => rfl, fun _ => rfl, fun _ => rfl, fun _ => rfl, fun _ => rfl, fun k => absurd k (by decide), fun _ => rfl, fun _ => rfl, fun _ => rfl, fun _ => rfl, fun _ => rfl, fun _ => rfl, fun _ => rfl, fun _ => rfl, fun _ => rfl, fun _ => rfl, fun _ => rfl, fun _ => rfl, fun _ => rfl, fun _ => rfl, fun _ => rfl, fun _ => rfl, fun _ => rfl, fun _ => rfl, fun _ => rfl, fun _ => rfl, fun _ => rfl, fun _ => rfl, fun _ => rfl, fun _ => rfl, fun _ => rfl, fun _ => rfl, fun _ => rfl, fun _ => rfl, fun _ => rfl, fun _ => rfl, fun _ => rfl, fun _ => rfl, fun _ => rfl, fun _ => rfl, fun _ => rfl, fun _ => rfl, fun _ => rfl, fun _ => rfl, fun _ => rfl, fun _ => rfl, fun _ => rfl, fun _ => rfl, fun _ => rfl, fun _ => rfl, fun _ => rfl, fun _ => rfl, fun _ => rfl, fun _ => rfl, fun _ => rfl, fun _ => rfl, fun _ => rfl, fun _ => rfl, fun _ => rfl, fun _ => rfl, fun _ => rfl, fun _ => rfl, fun _ => rfl, fun _ => rfl, fun _ => rfl, fun _ => rfl, fun _ => rfl, fun _ => rfl⟩

theorem touch.upd_ingress_device (s : State) (v0 v1) : touch 0x2200000000 s { s with ingress := v0, device := v1 } :=
  ⟨fun _ _ => rfl, fun _ _ _ h => h, fun _ => rfl, fun _ => rfl, fun _ => rfl, fun _ => rfl, fun _ => rfl, fun _ => rfl, fun _ => rfl, fun _ => rfl, fun _ => rfl, fun _ => rfl, fun _ => rfl, fun _ => rfl, fun _ => rfl, fun _ => rfl, fun _ => rfl, fun _ => rfl, fun _ => rfl, fun _ => rfl, fun _ => rfl, fun _ => rfl, fun _ => rfl, fun _ => rfl, fun _ => rfl, fun _ => rfl, fun _ => rfl, fun _ => rfl, fun _ => rfl, fun _ => rfl, fun _ => rfl, fun _ => rfl, fun _ => rfl, fun _ => rfl, fun _ => rfl, fun k => absurd k (by decide), fun _ => rfl, fun _ => rfl, fun _ => rfl, fun k => absurd k (by decide), fun _ => rfl, fun _ => rfl, fun _ => rfl, fun _ => rfl, fun _ => rfl, fun _ => rfl, fun _ => rfl, fun _ => rfl, fun _ => rfl, fun _ => rfl, fun _ => rfl, fun _ => rfl, fun _ => rfl, fun _ => rfl, fun _ => rfl, fun _ => rfl, fun _ => rfl, fun _ => rfl, fun _ => rfl, fun _ => rfl, fun _ => rfl, fun _ => rfl, fun _ => rfl, fun _ => rfl, fun _ => rfl, fun _ => rfl, fun _ => rfl, fun _ => rfl, fun _ => rfl, fun _ => rfl, fun _ => rfl, fun _ => rfl, fun _ => rfl, fun _ => rfl, fun _ => rfl, fun _ => rfl, fun _ => rfl, fun _ => rfl, fun _ => rfl, fun _ => rfl, fun _ => rfl, fun _ => rfl, fun _ => rfl, fun _ => rfl, fun _ => rfl, fun _ => rfl, fun _ => rfl, fun _ => rfl, fun _ => rfl, fun _ => rfl, fun _ => rfl, fun _ => rfl, fun _ => rfl, fun _ => rfl, fun _ => rfl, fun _ => rfl, fun _ => rfl, fun _ => rfl⟩

theorem touch.upd_intxCount (s : State) (v0) : touch 0x100000000000000000 s { s with intxCount := v0 } :=
  ⟨fun _ _ => rfl, fun _ _ _ h => h, fun _ => rfl, fun _ => rfl, fun _ => rfl, fun _ => rfl, fun _ => rfl, fun _ => rfl, fun _ => rfl, fun _ => rfl, fun _ => rfl, fun _ => rfl, fun _ => rfl, fun _ => rfl, fun _ => rfl, fun _ => rfl, fun _ => rfl, fun _ => rfl, fun _ => rfl, fun _ => rfl, fun _ => rfl, fun _ => rfl, fun _ => rfl, fun _ => rfl, fun _ => rfl, fun _ => rfl, fun _ => rfl, fun _ => rfl, fun _ => rfl, fun _ => rfl, fun _ => rfl, fun _ => rfl, fun _ => rfl, fun _ => rfl, fun _ => rfl, fun _ => rfl, fun _ => rfl, fun _ => rfl, fun _ => rfl, fun _ => rfl, fun _ => rfl, fun _ => rfl, fun _ => rfl, fun _ => rfl, fun _ => rfl, fun _ => rfl, fun _ => rfl, fun _ => rfl, fun _ => rfl, fun _ => rfl, fun _ => rfl, fun _ => rfl, fun _ => rfl, fun _ => rfl, fun _ => rfl, fun _ => rfl, fun _ => rfl, fun _ => rfl, fun _ => rfl, fun _ => rfl, fun _ => rfl, fun _ => rfl, fun _ => rfl, fun _ => rfl, fun _ => rfl, fun _ => rfl, fun _ => rfl, fun _ => rfl, fun _ => rfl, fun _ => rfl, fun k => absurd k (by decide), fun _ => rfl, fun _ => rfl, fun _ => rfl, fun _ => rfl, fun _ => rfl, fun _ => rfl, fun _ => rfl, fun _ => rfl, fun _ => rfl, fun _ => rfl, fun _ => rfl, fun _ => rfl, fun _ => rfl, fun _ => rfl, fun _ => rfl, fun _ => rfl, fun _ => rfl, fun _ => rfl, fun _ => rfl, fun _ => rfl, fun _ => rfl, fun _ => rfl, fun _ => rfl, fun _ => rfl, fun _ => rfl, fun _ => rfl, fun _ => rfl⟩

theorem touch.upd_intxLevel (s : State) (v0) : touch 0x80000000000000000 s { s with intxLevel := v0 } :=
  ⟨fun _ _ => rfl, fun _ _ _ h => h, fun _ => rfl, fun _ => rfl, fun _ => rfl, fun _ => rfl, fun _ => rfl, fun _ => rfl, fun _ => rfl, fun _ => rfl, fun _ => rfl, fun _ => rfl, fun _ => rfl, fun _ => rfl, fun _ => rfl, fun _ => rfl, fun _ => rfl, fun _ => rfl, fun _ => rfl, fun _ => rfl, fun _ => rfl, fun _ => rfl, fun _ => rfl, fun _ => rfl, fun _ => rfl, fun _ => rfl, fun _ => rfl, fun _ => rfl, fun _ => rfl, fun _ => rfl, fun _ => rfl, fun _ => rfl, fun _ => rfl, fun _ => rfl, fun _ => rfl, fun _ => rfl, fun _ => rfl, fun _ => rfl, fun _ => rfl, fun _ => rfl, fun _ => rfl, fun _ => rfl, fun _ => rfl, fun _ => rfl, fun _ => rfl, fun _ => rfl, fun _ => rfl, fun _ => rfl, fun _ => rfl, fun _ => rfl, fun _ => rfl, fun _ => rfl, fun _ => rfl, fun _ => rfl, fun _ => rfl, fun _ => rfl, fun _ => rfl, fun _ => rfl, fun _ => rfl, fun _ => rfl, fun _ => rfl, fun _ => rfl, fun _ => rfl, fun _ => rfl, fun _ => rfl, fun _ => rfl, fun _ => rfl, fun _ => rfl, fun _ => rfl, fun k => absurd k (by decide), fun _ => rfl, fun _ => rfl, fun _ => rfl, fun _ => rfl, fun _ => rfl, fun _ => rfl, fun _ => rfl, fun _ => rfl, fun _ => rfl, fun _ => rfl, fun _ => rfl, fun _ => rfl, fun _ => rfl, fun _ => rfl, fun _ => rfl, fun _ => rfl, fun _ => rfl, fun _ => rfl, fun _ => rfl, fun _ => rfl, fun _ => rfl, fun _ => rfl, fun _ => rfl, fun _ => rfl, fun _ => rfl, fun _ => rfl, fun _ => rfl, fun _ => rfl⟩

theorem touch.upd_intxLevel_intxSent (s : State) (v0 v1) : touch 0x20000080000000000000000 s { s with intxLevel := v0, intxSent := v1 } :=
  ⟨fun _ _ => rfl, fun _ _ _ h => h, fun _ => rfl, fun _ => rfl, fun _ => rfl, fun _ => rfl, fun _ => rfl, fun _ => rfl, fun _ => rfl, fun _ => rfl, fun _ => rfl, fun _ => rfl, fun _ => rfl, fun _ => rfl, fun _ => rfl, fun _ => rfl, fun _ => rfl, fun _ => rfl, fun _ => rfl, fun _ => rfl, fun _ => rfl, fun _ => rfl, fun _ => rfl, fun _ => rfl, fun _ => rfl, fun _ => rfl, fun _ => rfl, fun _ => rfl, fun _ => rfl, fun _ => rfl, fun _ => rfl, fun _ => rfl, fun _ => rfl, fun _ => rfl, fun _ => rfl, fun _ => rfl, fun _ => rfl, fun _ => rfl, fun _ => rfl, fun _ => rfl, fun _ => rfl, fun _ => rfl, fun _ => rfl, fun _ => rfl, fun _ => rfl, fun _ => rfl, fun _ => rfl, fun _ => rfl, fun _ => rfl, fun _ => rfl, fun _ => rfl, fun _ => rfl, fun _ => rfl, fun _ => rfl, fun _ => rfl, fun _ => rfl, fun _ => rfl, fun _ => rfl, fun _ => rfl, fun _ => rfl, fun _ => rfl, fun _ => rfl, fun _ => rfl, fun _ => rfl, fun _ => rfl, fun _ => rfl, fun _ => rfl, fun _ => rfl, fun _ => rfl, fun k => absurd k (by decide), fun _ => rfl, fun _ => rfl, fun _ => rfl, fun _ => rfl, fun _ => rfl, fun _ => rfl, fun _ => rfl, fun _ => rfl, fun _ => rfl, fun _ => rfl, fun _ => rfl, fun _ => rfl, fun _ => rfl, fun _ => rfl, fun _ => rfl, fun _ => rfl, fun _ => rfl, fun _ => rfl, fun _ => rfl, fun _ => rfl, fun _ => rfl, fun k => absurd k (by decide), fun _ => rfl, fun _ => rfl, fun _ => rfl, fun _ => rfl, fun _ => rfl, fun _ => rfl⟩

theorem touch.upd_intxSent (s : State) (v0) : touch 0x20000000000000000000000 s { s with intxSent := v0 } :=
  ⟨fun _ _ => rfl, fun _ _ _ h => h, fun _ => rfl, fun _ => rfl, fun _ => rfl, fun _ => rfl, fun _ => rfl, fun _ => rfl, fun _ => rfl, fun _ => rfl, fun _ => rfl, fun _ => rfl, fun _ => rfl, fun _ => rfl, fun _ => rfl, fun _ => rfl, fun _ => rfl, fun _ => rfl, fun _ => rfl, fun _ => rfl, fun _ => rfl, fun _ => rfl, fun _ => rfl, fun _ => rfl, fun _ => rfl, fun _ => rfl, fun _ => rfl, fun _ => rfl, fun _ => rfl, fun _ => rfl, fun _ => rfl, fun _ => rfl, fun _ => rfl, fun _ => rfl, fun _ => rfl, fun _ => rfl, fun _ => rfl, fun _ => rfl, fun _ => rfl, fun _ => rfl, fun _ => rfl, fun _ => rfl, fun _ => rfl, fun _ => rfl, fun _ => rfl, fun _ => rfl, fun _ => rfl, fun _ => rfl, fun _ => rfl, fun _ => rfl, fun _ => rfl, fun _ => rfl, fun _ => rfl, fun _ => rfl, fun _ => rfl, fun _ => rfl, fun _ => rfl, fun _ => rfl, fun _ => rfl, fun _ => rfl, fun _ => rfl, fun _ => rfl, fun _ => rfl, fun _ => rfl, fun _ => rfl, fun _ => rfl, fun _ => rfl, fun _ => rfl, fun _ => rfl, fun _ => rfl, fun _ => rfl, fun _ => rfl, fun _ => rfl, fun _ => rfl, fun _ => rfl, fun _ => rfl, fun _ => rfl, fun _ => rfl, fun _ => rfl, fun _ => rfl, fun _ => rfl, fun _ => rfl, fun _ => rfl, fun _ => rfl, fun _ => rfl, fun _ => rfl, fun _ => rfl, fun _ => rfl, fun _ => rfl, fun _ => rfl, fun _ => rfl, fun k => absurd k (by decide), fun _ => rfl, fun _ => rfl, fun _ => rfl, fun _ => rfl, fun _ => rfl, fun _ => rfl⟩

theorem touch.upd_keeperRun (s : State) (v0) : touch 0x80000000000000000000000 s { s with keeperRun := v0 } :=
  ⟨fun _ _ => rfl, fun _ _ _ h => h, fun _ => rfl, fun _ => rfl, fun _ => rfl, fun _ => rfl, fun _ => rfl, fun _ => rfl, fun _ => rfl, fun _ => rfl, fun _ => rfl, fun _ => rfl, fun _ => rfl, fun _ => rfl, fun _ => rfl, fun _ => rfl, fun _ => rfl, fun _ => rfl, fun _ => rfl, fun _ => rfl, fun _ => rfl, fun _ => rfl, fun _ => rfl, fun _ => rfl, fun _ => rfl, fun _ => rfl, fun _ => rfl, fun _ => rfl, fun _ => rfl, fun _ => rfl, fun _ => rfl, fun _ => rfl, fun _ => rfl, fun _ => rfl, fun _ => rfl, fun _ => rfl, fun _ => rfl, fun _ => rfl, fun _ => rfl, fun _ => rfl, fun _ => rfl, fun _ => rfl, fun _ => rfl, fun _ => rfl, fun _ => rfl, fun _ => rfl, fun _ => rfl, fun _ => rfl, fun _ => rfl, fun _ => rfl, fun _ => rfl, fun _ => rfl, fun _ => rfl, fun _ => rfl, fun _ => rfl, fun _ => rfl, fun _ => rfl, fun _ => rfl, fun _ => rfl, fun _ => rfl, fun _ => rfl, fun _ => rfl, fun _ => rfl, fun _ => rfl, fun _ => rfl, fun _ => rfl, fun _ => rfl, fun _ => rfl, fun _ => rfl, fun _ => rfl, fun _ => rfl, fun _ => rfl, fun _ => rfl, fun _ => rfl, fun _ => rfl, fun _ => rfl, fun _ => rfl, fun _ => rfl, fun _ => rfl, fun _ => rfl, fun _ => rfl, fun _ => rfl, fun _ => rfl, fun _ => rfl, fun _ => rfl, fun _ => rfl, fun _ => rfl, fun _ => rfl, fun _ => rfl, fun _ => rfl, fun _ => rfl, fun _ => rfl, fun _ => rfl, fun k => absurd k (by decide), fun _ => rfl, fun _ => rfl, fun _ => rfl, fun _ => rfl⟩

theorem touch.upd_kickAt (s : State) (v0) : touch 0x80000000000000000000 s { s with kickAt := v0 } :=
  ⟨fun _ _ => rfl, fun _ _ _ h => h, fun _ => rfl, fun _ => rfl, fun _ => rfl, fun _ => rfl, fun _ => rfl, fun _ => rfl, fun _ => rfl, fun _ => rfl, fun _ => rfl, fun _ => rfl, fun _ => rfl, fun _ => rfl, fun _ => rfl, fun _ => rfl, fun _ => rfl, fun _ => rfl, fun _ => rfl, fun _ => rfl, fun _ => rfl, fun _ => rfl, fun _ => rfl, fun _ => rfl, fun _ => rfl, fun _ => rfl, fun _ => rfl, fun _ => rfl, fun _ => rfl, fun _ => rfl, fun _ => rfl, fun _ => rfl, fun _ => rfl, fun _ => rfl, fun _ => rfl, fun _ => rfl, fun _ => rfl, fun _ => rfl, fun _ => rfl, fun _ => rfl, fun _ => rfl, fun _ => rfl, fun _ => rfl, fun _ => rfl, fun _ => rfl, fun _ => rfl, fun _ => rfl, fun _ => rfl, fun _ => rfl, fun _ => rfl, fun _ => rfl, fun _ => rfl, fun _ => rfl, fun _ => rfl, fun _ => rfl, fun _ => rfl, fun _ => rfl, fun _ => rfl, fun _ => rfl, fun _ => rfl, fun _ => rfl, fun _ => rfl, fun _ => rfl, fun _ => rfl, fun _ => rfl, fun _ => rfl, fun _ => rfl, fun _ => rfl, fun _ => rfl, fun _ => rfl, fun _ => rfl, fun _ => rfl, fun _ => rfl, fun _ => rfl, fun _ => rfl, fun _ => rfl, fun _ => rfl, fun _ => rfl, fun _ => rfl, fun _ => rfl, fun _ => rfl, fun k => absurd k (by decide), fun _ => rfl, fun _ => rfl, fun _ => rfl, fun _ => rfl, fun _ => rfl, fun _ => rfl, fun _ => rfl, fun _ => rfl, fun _ => rfl, fun _ => rfl, fun _ => rfl, fun _ => rfl, fun _ => rfl, fun _ => rfl, fun _ => rfl, fun _ => rfl⟩

theorem touch.upd_l0pPartners (s : State) (v0) : touch 0x200000000000000000000000 s { s with l0pPartners := v0 } :=
  ⟨fun _ _ => rfl, fun _ _ _ h => h, fun _ => rfl, fun _ => rfl, fun _ => rfl, fun _ => rfl, fun _ => rfl, fun _ => rfl, fun _ => rfl, fun _ => rfl, fun _ => rfl, fun _ => rfl, fun _ => rfl, fun _ => rfl, fun _ => rfl, fun _ => rfl, fun _ => rfl, fun _ => rfl, fun _ => rfl, fun _ => rfl, fun _ => rfl, fun _ => rfl, fun _ => rfl, fun _ => rfl, fun _ => rfl, fun _ => rfl, fun _ => rfl, fun _ => rfl, fun _ => rfl, fun _ => rfl, fun _ => rfl, fun _ => rfl, fun _ => rfl, fun _ => rfl, fun _ => rfl, fun _ => rfl, fun _ => rfl, fun _ => rfl, fun _ => rfl, fun _ => rfl, fun _ => rfl, fun _ => rfl, fun _ => rfl, fun _ => rfl, fun _ => rfl, fun _ => rfl, fun _ => rfl, fun _ => rfl, fun _ => rfl, fun _ => rfl, fun _ => rfl, fun _ => rfl, fun _ => rfl, fun _ => rfl, fun _ => rfl, fun _ => rfl, fun _ => rfl, fun _ => rfl, fun _ => rfl, fun _ => rfl, fun _ => rfl, fun _ => rfl, fun _ => rfl, fun _ => rfl, fun _ => rfl, fun _ => rfl, fun _ => rfl, fun _ => rfl, fun _ => rfl, fun _ => rfl, fun _ => rfl, fun _ => rfl, fun _ => rfl, fun _ => rfl, fun _ => rfl, fun _ => rfl, fun _ => rfl, fun _ => rfl, fun _ => rfl, fun _ => rfl, fun _ => rfl, fun _ => rfl, fun _ => rfl, fun _ => rfl, fun _ => rfl, fun _ => rfl, fun _ => rfl, fun _ => rfl, fun _ => rfl, fun _ => rfl, fun _ => rfl, fun _ => rfl, fun _ => rfl, fun _ => rfl, fun _ => rfl, fun k => absurd k (by decide), fun _ => rfl, fun _ => rfl⟩

theorem touch.upd_lanes (s : State) (v0) : touch 0x4000000000000000000 s { s with lanes := v0 } :=
  ⟨fun _ _ => rfl, fun _ _ _ h => h, fun _ => rfl, fun _ => rfl, fun _ => rfl, fun _ => rfl, fun _ => rfl, fun _ => rfl, fun _ => rfl, fun _ => rfl, fun _ => rfl, fun _ => rfl, fun _ => rfl, fun _ => rfl, fun _ => rfl, fun _ => rfl, fun _ => rfl, fun _ => rfl, fun _ => rfl, fun _ => rfl, fun _ => rfl, fun _ => rfl, fun _ => rfl, fun _ => rfl, fun _ => rfl, fun _ => rfl, fun _ => rfl, fun _ => rfl, fun _ => rfl, fun _ => rfl, fun _ => rfl, fun _ => rfl, fun _ => rfl, fun _ => rfl, fun _ => rfl, fun _ => rfl, fun _ => rfl, fun _ => rfl, fun _ => rfl, fun _ => rfl, fun _ => rfl, fun _ => rfl, fun _ => rfl, fun _ => rfl, fun _ => rfl, fun _ => rfl, fun _ => rfl, fun _ => rfl, fun _ => rfl, fun _ => rfl, fun _ => rfl, fun _ => rfl, fun _ => rfl, fun _ => rfl, fun _ => rfl, fun _ => rfl, fun _ => rfl, fun _ => rfl, fun _ => rfl, fun _ => rfl, fun _ => rfl, fun _ => rfl, fun _ => rfl, fun _ => rfl, fun _ => rfl, fun _ => rfl, fun _ => rfl, fun _ => rfl, fun _ => rfl, fun _ => rfl, fun _ => rfl, fun _ => rfl, fun _ => rfl, fun _ => rfl, fun _ => rfl, fun _ => rfl, fun k => absurd k (by decide), fun _ => rfl, fun _ => rfl, fun _ => rfl, fun _ => rfl, fun _ => rfl, fun _ => rfl, fun _ => rfl, fun _ => rfl, fun _ => rfl, fun _ => rfl, fun _ => rfl, fun _ => rfl, fun _ => rfl, fun _ => rfl, fun _ => rfl, fun _ => rfl, fun _ => rfl, fun _ => rfl, fun _ => rfl, fun _ => rfl, fun _ => rfl⟩

theorem touch.upd_ledgers (s : State) (v0) : touch 0x100000000 s { s with ledgers := v0 } :=
  ⟨fun _ _ => rfl, fun _ _ _ h => h, fun _ => rfl, fun _ => rfl, fun _ => rfl, fun _ => rfl, fun _ => rfl, fun _ => rfl, fun _ => rfl, fun _ => rfl, fun _ => rfl, fun _ => rfl, fun _ => rfl, fun _ => rfl, fun _ => rfl, fun _ => rfl, fun _ => rfl, fun _ => rfl, fun _ => rfl, fun _ => rfl, fun _ => rfl, fun _ => rfl, fun _ => rfl, fun _ => rfl, fun _ => rfl, fun _ => rfl, fun _ => rfl, fun _ => rfl, fun _ => rfl, fun _ => rfl, fun _ => rfl, fun _ => rfl, fun _ => rfl, fun _ => rfl, fun k => absurd k (by decide), fun _ => rfl, fun _ => rfl, fun _ => rfl, fun _ => rfl, fun _ => rfl, fun _ => rfl, fun _ => rfl, fun _ => rfl, fun _ => rfl, fun _ => rfl, fun _ => rfl, fun _ => rfl, fun _ => rfl, fun _ => rfl, fun _ => rfl, fun _ => rfl, fun _ => rfl, fun _ => rfl, fun _ => rfl, fun _ => rfl, fun _ => rfl, fun _ => rfl, fun _ => rfl, fun _ => rfl, fun _ => rfl, fun _ => rfl, fun _ => rfl, fun _ => rfl, fun _ => rfl, fun _ => rfl, fun _ => rfl, fun _ => rfl, fun _ => rfl, fun _ => rfl, fun _ => rfl, fun _ => rfl, fun _ => rfl, fun _ => rfl, fun _ => rfl, fun _ => rfl, fun _ => rfl, fun _ => rfl, fun _ => rfl, fun _ => rfl, fun _ => rfl, fun _ => rfl, fun _ => rfl, fun _ => rfl, fun _ => rfl, fun _ => rfl, fun _ => rfl, fun _ => rfl, fun _ => rfl, fun _ => rfl, fun _ => rfl, fun _ => rfl, fun _ => rfl, fun _ => rfl, fun _ => rfl, fun _ => rfl, fun _ => rfl, fun _ => rfl, fun _ => rfl⟩

theorem touch.upd_links (s : State) (v0) : touch 0x10000000000000 s { s with links := v0 } :=
  ⟨fun _ _ => rfl, fun _ _ _ h => h, fun _ => rfl, fun _ => rfl, fun _ => rfl, fun _ => rfl, fun _ => rfl, fun _ => rfl, fun _ => rfl, fun _ => rfl, fun _ => rfl, fun _ => rfl, fun _ => rfl, fun _ => rfl, fun _ => rfl, fun _ => rfl, fun _ => rfl, fun _ => rfl, fun _ => rfl, fun _ => rfl, fun _ => rfl, fun _ => rfl, fun _ => rfl, fun _ => rfl, fun _ => rfl, fun _ => rfl, fun _ => rfl, fun _ => rfl, fun _ => rfl, fun _ => rfl, fun _ => rfl, fun _ => rfl, fun _ => rfl, fun _ => rfl, fun _ => rfl, fun _ => rfl, fun _ => rfl, fun _ => rfl, fun _ => rfl, fun _ => rfl, fun _ => rfl, fun _ => rfl, fun _ => rfl, fun _ => rfl, fun _ => rfl, fun _ => rfl, fun _ => rfl, fun _ => rfl, fun _ => rfl, fun _ => rfl, fun _ => rfl, fun _ => rfl, fun _ => rfl, fun _ => rfl, fun k => absurd k (by decide), fun _ => rfl, fun _ => rfl, fun _ => rfl, fun _ => rfl, fun _ => rfl, fun _ => rfl, fun _ => rfl, fun _ => rfl, fun _ => rfl, fun _ => rfl, fun _ => rfl, fun _ => rfl, fun _ => rfl, fun _ => rfl, fun _ => rfl, fun _ => rfl, fun _ => rfl, fun _ => rfl, fun _ => rfl, fun _ => rfl, fun _ => rfl, fun _ => rfl, fun _ => rfl, fun _ => rfl, fun _ => rfl, fun _ => rfl, fun _ => rfl, fun _ => rfl, fun _ => rfl, fun _ => rfl, fun _ => rfl, fun _ => rfl, fun _ => rfl, fun _ => rfl, fun _ => rfl, fun _ => rfl, fun _ => rfl, fun _ => rfl, fun _ => rfl, fun _ => rfl, fun _ => rfl, fun _ => rfl, fun _ => rfl⟩

theorem touch.upd_live (s : State) (v0) : touch 0x8000000 s { s with live := v0 } :=
  ⟨fun _ _ => rfl, fun _ _ _ h => h, fun _ => rfl, fun _ => rfl, fun _ => rfl, fun _ => rfl, fun _ => rfl, fun _ => rfl, fun _ => rfl, fun _ => rfl, fun _ => rfl, fun _ => rfl, fun _ => rfl, fun _ => rfl, fun _ => rfl, fun _ => rfl, fun _ => rfl, fun _ => rfl, fun _ => rfl, fun _ => rfl, fun _ => rfl, fun _ => rfl, fun _ => rfl, fun _ => rfl, fun _ => rfl, fun _ => rfl, fun _ => rfl, fun _ => rfl, fun _ => rfl, fun k => absurd k (by decide), fun _ => rfl, fun _ => rfl, fun _ => rfl, fun _ => rfl, fun _ => rfl, fun _ => rfl, fun _ => rfl, fun _ => rfl, fun _ => rfl, fun _ => rfl, fun _ => rfl, fun _ => rfl, fun _ => rfl, fun _ => rfl, fun _ => rfl, fun _ => rfl, fun _ => rfl, fun _ => rfl, fun _ => rfl, fun _ => rfl, fun _ => rfl, fun _ => rfl, fun _ => rfl, fun _ => rfl, fun _ => rfl, fun _ => rfl, fun _ => rfl, fun _ => rfl, fun _ => rfl, fun _ => rfl, fun _ => rfl, fun _ => rfl, fun _ => rfl, fun _ => rfl, fun _ => rfl, fun _ => rfl, fun _ => rfl, fun _ => rfl, fun _ => rfl, fun _ => rfl, fun _ => rfl, fun _ => rfl, fun _ => rfl, fun _ => rfl, fun _ => rfl, fun _ => rfl, fun _ => rfl, fun _ => rfl, fun _ => rfl, fun _ => rfl, fun _ => rfl, fun _ => rfl, fun _ => rfl, fun _ => rfl, fun _ => rfl, fun _ => rfl, fun _ => rfl, fun _ => rfl, fun _ => rfl, fun _ => rfl, fun _ => rfl, fun _ => rfl, fun _ => rfl, fun _ => rfl, fun _ => rfl, fun _ => rfl, fun _ => rfl, fun _ => rfl⟩

theorem touch.upd_loadOrder (s : State) (v0) : touch 0x8000 s { s with loadOrder := v0 } :=
  ⟨fun _ _ => rfl, fun _ _ _ h => h, fun _ => rfl, fun _ => rfl, fun _ => rfl, fun _ => rfl, fun _ => rfl, fun _ => rfl, fun _ => rfl, fun _ => rfl, fun _ => rfl, fun _ => rfl, fun _ => rfl, fun _ => rfl, fun _ => rfl, fun _ => rfl, fun _ => rfl, fun k => absurd k (by decide), fun _ => rfl, fun _ => rfl, fun _ => rfl, fun _ => rfl, fun _ => rfl, fun _ => rfl, fun _ => rfl, fun _ => rfl, fun _ => rfl, fun _ => rfl, fun _ => rfl, fun _ => rfl, fun _ => rfl, fun _ => rfl, fun _ => rfl, fun _ => rfl, fun _ => rfl, fun _ => rfl, fun _ => rfl, fun _ => rfl, fun _ => rfl, fun _ => rfl, fun _ => rfl, fun _ => rfl, fun _ => rfl, fun _ => rfl, fun _ => rfl, fun _ => rfl, fun _ => rfl, fun _ => rfl, fun _ => rfl, fun _ => rfl, fun _ => rfl, fun _ => rfl, fun _ => rfl, fun _ => rfl, fun _ => rfl, fun _ => rfl, fun _ => rfl, fun _ => rfl, fun _ => rfl, fun _ => rfl, fun _ => rfl, fun _ => rfl, fun _ => rfl, fun _ => rfl, fun _ => rfl, fun _ => rfl, fun _ => rfl, fun _ => rfl, fun _ => rfl, fun _ => rfl, fun _ => rfl, fun _ => rfl, fun _ => rfl, fun _ => rfl, fun _ => rfl, fun _ => rfl, fun _ => rfl, fun _ => rfl, fun _ => rfl, fun _ => rfl, fun _ => rfl, fun _ => rfl, fun _ => rfl, fun _ => rfl, fun _ => rfl, fun _ => rfl, fun _ => rfl, fun _ => rfl, fun _ => rfl, fun _ => rfl, fun _ => rfl, fun _ => rfl, fun _ => rfl, fun _ => rfl, fun _ => rfl, fun _ => rfl, fun _ => rfl, fun _ => rfl⟩

theorem touch.upd_loading (s : State) (v0) : touch 0x4000 s { s with loading := v0 } :=
  ⟨fun _ _ => rfl, fun _ _ _ h => h, fun _ => rfl, fun _ => rfl, fun _ => rfl, fun _ => rfl, fun _ => rfl, fun _ => rfl, fun _ => rfl, fun _ => rfl, fun _ => rfl, fun _ => rfl, fun _ => rfl, fun _ => rfl, fun _ => rfl, fun _ => rfl, fun k => absurd k (by decide), fun _ => rfl, fun _ => rfl, fun _ => rfl, fun _ => rfl, fun _ => rfl, fun _ => rfl, fun _ => rfl, fun _ => rfl, fun _ => rfl, fun _ => rfl, fun _ => rfl, fun _ => rfl, fun _ => rfl, fun _ => rfl, fun _ => rfl, fun _ => rfl, fun _ => rfl, fun _ => rfl, fun _ => rfl, fun _ => rfl, fun _ => rfl, fun _ => rfl, fun _ => rfl, fun _ => rfl, fun _ => rfl, fun _ => rfl, fun _ => rfl, fun _ => rfl, fun _ => rfl, fun _ => rfl, fun _ => rfl, fun _ => rfl, fun _ => rfl, fun _ => rfl, fun _ => rfl, fun _ => rfl, fun _ => rfl, fun _ => rfl, fun _ => rfl, fun _ => rfl, fun _ => rfl, fun _ => rfl, fun _ => rfl, fun _ => rfl, fun _ => rfl, fun _ => rfl, fun _ => rfl, fun _ => rfl, fun _ => rfl, fun _ => rfl, fun _ => rfl, fun _ => rfl, fun _ => rfl, fun _ => rfl, fun _ => rfl, fun _ => rfl, fun _ => rfl, fun _ => rfl, fun _ => rfl, fun _ => rfl, fun _ => rfl, fun _ => rfl, fun _ => rfl, fun _ => rfl, fun _ => rfl, fun _ => rfl, fun _ => rfl, fun _ => rfl, fun _ => rfl, fun _ => rfl, fun _ => rfl, fun _ => rfl, fun _ => rfl, fun _ => rfl, fun _ => rfl, fun _ => rfl, fun _ => rfl, fun _ => rfl, fun _ => rfl, fun _ => rfl, fun _ => rfl⟩

theorem touch.upd_loading_loadOrder (s : State) (v0 v1) : touch 0xc000 s { s with loading := v0, loadOrder := v1 } :=
  ⟨fun _ _ => rfl, fun _ _ _ h => h, fun _ => rfl, fun _ => rfl, fun _ => rfl, fun _ => rfl, fun _ => rfl, fun _ => rfl, fun _ => rfl, fun _ => rfl, fun _ => rfl, fun _ => rfl, fun _ => rfl, fun _ => rfl, fun _ => rfl, fun _ => rfl, fun k => absurd k (by decide), fun k => absurd k (by decide), fun _ => rfl, fun _ => rfl, fun _ => rfl, fun _ => rfl, fun _ => rfl, fun _ => rfl, fun _ => rfl, fun _ => rfl, fun _ => rfl, fun _ => rfl, fun _ => rfl, fun _ => rfl, fun _ => rfl, fun _ => rfl, fun _ => rfl, fun _ => rfl, fun _ => rfl, fun _ => rfl, fun _ => rfl, fun _ => rfl, fun _ => rfl, fun _ => rfl, fun _ => rfl, fun _ => rfl, fun _ => rfl, fun _ => rfl, fun _ => rfl, fun _ => rfl, fun _ => rfl, fun _ => rfl, fun _ => rfl, fun _ => rfl, fun _ => rfl, fun _ => rfl, fun _ => rfl, fun _ => rfl, fun _ => rfl, fun _ => rfl, fun _ => rfl, fun _ => rfl, fun _ => rfl, fun _ => rfl, fun _ => rfl, fun _ => rfl, fun _ => rfl, fun _ => rfl, fun _ => rfl, fun _ => rfl, fun _ => rfl, fun _ => rfl, fun _ => rfl, fun _ => rfl, fun _ => rfl, fun _ => rfl, fun _ => rfl, fun _ => rfl, fun _ => rfl, fun _ => rfl, fun _ => rfl, fun _ => rfl, fun _ => rfl, fun _ => rfl, fun _ => rfl, fun _ => rfl, fun _ => rfl, fun _ => rfl, fun _ => rfl, fun _ => rfl, fun _ => rfl, fun _ => rfl, fun _ => rfl, fun _ => rfl, fun _ => rfl, fun _ => rfl, fun _ => rfl, fun _ => rfl, fun _ => rfl, fun _ => rfl, fun _ => rfl, fun _ => rfl⟩

theorem touch.upd_lockClass (s : State) (v0) : touch 0x10000000000000000000000 s { s with lockClass := v0 } :=
  ⟨fun _ _ => rfl, fun _ _ _ h => h, fun _ => rfl, fun _ => rfl, fun _ => rfl, fun _ => rfl, fun _ => rfl, fun _ => rfl, fun _ => rfl, fun _ => rfl, fun _ => rfl, fun _ => rfl, fun _ => rfl, fun _ => rfl, fun _ => rfl, fun _ => rfl, fun _ => rfl, fun _ => rfl, fun _ => rfl, fun _ => rfl, fun _ => rfl, fun _ => rfl, fun _ => rfl, fun _ => rfl, fun _ => rfl, fun _ => rfl, fun _ => rfl, fun _ => rfl, fun _ => rfl, fun _ => rfl, fun _ => rfl, fun _ => rfl, fun _ => rfl, fun _ => rfl, fun _ => rfl, fun _ => rfl, fun _ => rfl, fun _ => rfl, fun _ => rfl, fun _ => rfl, fun _ => rfl, fun _ => rfl, fun _ => rfl, fun _ => rfl, fun _ => rfl, fun _ => rfl, fun _ => rfl, fun _ => rfl, fun _ => rfl, fun _ => rfl, fun _ => rfl, fun _ => rfl, fun _ => rfl, fun _ => rfl, fun _ => rfl, fun _ => rfl, fun _ => rfl, fun _ => rfl, fun _ => rfl, fun _ => rfl, fun _ => rfl, fun _ => rfl, fun _ => rfl, fun _ => rfl, fun _ => rfl, fun _ => rfl, fun _ => rfl, fun _ => rfl, fun _ => rfl, fun _ => rfl, fun _ => rfl, fun _ => rfl, fun _ => rfl, fun _ => rfl, fun _ => rfl, fun _ => rfl, fun _ => rfl, fun _ => rfl, fun _ => rfl, fun _ => rfl, fun _ => rfl, fun _ => rfl, fun _ => rfl, fun _ => rfl, fun _ => rfl, fun _ => rfl, fun _ => rfl, fun _ => rfl, fun _ => rfl, fun _ => rfl, fun k => absurd k (by decide), fun _ => rfl, fun _ => rfl, fun _ => rfl, fun _ => rfl, fun _ => rfl, fun _ => rfl, fun _ => rfl⟩

theorem touch.upd_lockWait (s : State) (v0) : touch 0x40000000000 s { s with lockWait := v0 } :=
  ⟨fun _ _ => rfl, fun _ _ _ h => h, fun _ => rfl, fun _ => rfl, fun _ => rfl, fun _ => rfl, fun _ => rfl, fun _ => rfl, fun _ => rfl, fun _ => rfl, fun _ => rfl, fun _ => rfl, fun _ => rfl, fun _ => rfl, fun _ => rfl, fun _ => rfl, fun _ => rfl, fun _ => rfl, fun _ => rfl, fun _ => rfl, fun _ => rfl, fun _ => rfl, fun _ => rfl, fun _ => rfl, fun _ => rfl, fun _ => rfl, fun _ => rfl, fun _ => rfl, fun _ => rfl, fun _ => rfl, fun _ => rfl, fun _ => rfl, fun _ => rfl, fun _ => rfl, fun _ => rfl, fun _ => rfl, fun _ => rfl, fun _ => rfl, fun _ => rfl, fun _ => rfl, fun _ => rfl, fun _ => rfl, fun _ => rfl, fun _ => rfl, fun k => absurd k (by decide), fun _ => rfl, fun _ => rfl, fun _ => rfl, fun _ => rfl, fun _ => rfl, fun _ => rfl, fun _ => rfl, fun _ => rfl, fun _ => rfl, fun _ => rfl, fun _ => rfl, fun _ => rfl, fun _ => rfl, fun _ => rfl, fun _ => rfl, fun _ => rfl, fun _ => rfl, fun _ => rfl, fun _ => rfl, fun _ => rfl, fun _ => rfl, fun _ => rfl, fun _ => rfl, fun _ => rfl, fun _ => rfl, fun _ => rfl, fun _ => rfl, fun _ => rfl, fun _ => rfl, fun _ => rfl, fun _ => rfl, fun _ => rfl, fun _ => rfl, fun _ => rfl, fun _ => rfl, fun _ => rfl, fun _ => rfl, fun _ => rfl, fun _ => rfl, fun _ => rfl, fun _ => rfl, fun _ => rfl, fun _ => rfl, fun _ => rfl, fun _ => rfl, fun _ => rfl, fun _ => rfl, fun _ => rfl, fun _ => rfl, fun _ => rfl, fun _ => rfl, fun _ => rfl, fun _ => rfl⟩

theorem touch.upd_modes (s : State) (v0) : touch 0x80000000 s { s with modes := v0 } :=
  ⟨fun _ _ => rfl, fun _ _ _ h => h, fun _ => rfl, fun _ => rfl, fun _ => rfl, fun _ => rfl, fun _ => rfl, fun _ => rfl, fun _ => rfl, fun _ => rfl, fun _ => rfl, fun _ => rfl, fun _ => rfl, fun _ => rfl, fun _ => rfl, fun _ => rfl, fun _ => rfl, fun _ => rfl, fun _ => rfl, fun _ => rfl, fun _ => rfl, fun _ => rfl, fun _ => rfl, fun _ => rfl, fun _ => rfl, fun _ => rfl, fun _ => rfl, fun _ => rfl, fun _ => rfl, fun _ => rfl, fun _ => rfl, fun _ => rfl, fun _ => rfl, fun k => absurd k (by decide), fun _ => rfl, fun _ => rfl, fun _ => rfl, fun _ => rfl, fun _ => rfl, fun _ => rfl, fun _ => rfl, fun _ => rfl, fun _ => rfl, fun _ => rfl, fun _ => rfl, fun _ => rfl, fun _ => rfl, fun _ => rfl, fun _ => rfl, fun _ => rfl, fun _ => rfl, fun _ => rfl, fun _ => rfl, fun _ => rfl, fun _ => rfl, fun _ => rfl, fun _ => rfl, fun _ => rfl, fun _ => rfl, fun _ => rfl, fun _ => rfl, fun _ => rfl, fun _ => rfl, fun _ => rfl, fun _ => rfl, fun _ => rfl, fun _ => rfl, fun _ => rfl, fun _ => rfl, fun _ => rfl, fun _ => rfl, fun _ => rfl, fun _ => rfl, fun _ => rfl, fun _ => rfl, fun _ => rfl, fun _ => rfl, fun _ => rfl, fun _ => rfl, fun _ => rfl, fun _ => rfl, fun _ => rfl, fun _ => rfl, fun _ => rfl, fun _ => rfl, fun _ => rfl, fun _ => rfl, fun _ => rfl, fun _ => rfl, fun _ => rfl, fun _ => rfl, fun _ => rfl, fun _ => rfl, fun _ => rfl, fun _ => rfl, fun _ => rfl, fun _ => rfl, fun _ => rfl⟩

theorem touch.upd_modes_bounds_intxCount_flr_pmeOff (s : State) (v0 v1 v2 v3 v4) : touch 0xb00000200080000000 s { s with modes := v0, bounds := v1, intxCount := v2, flr := v3, pmeOff := v4 } :=
  ⟨fun _ _ => rfl, fun _ _ _ h => h, fun _ => rfl, fun _ => rfl, fun _ => rfl, fun _ => rfl, fun _ => rfl, fun _ => rfl, fun _ => rfl, fun _ => rfl, fun _ => rfl, fun _ => rfl, fun _ => rfl, fun _ => rfl, fun _ => rfl, fun _ => rfl, fun _ => rfl, fun _ => rfl, fun _ => rfl, fun _ => rfl, fun _ => rfl, fun _ => rfl, fun _ => rfl, fun _ => rfl, fun _ => rfl, fun _ => rfl, fun _ => rfl, fun _ => rfl, fun _ => rfl, fun _ => rfl, fun _ => rfl, fun _ => rfl, fun _ => rfl, fun k => absurd k (by decide), fun _ => rfl, fun _ => rfl, fun _ => rfl, fun _ => rfl, fun _ => rfl, fun _ => rfl, fun _ => rfl, fun _ => rfl, fun _ => rfl, fun _ => rfl, fun _ => rfl, fun _ => rfl, fun _ => rfl, fun k => absurd k (by decide), fun _ => rfl, fun _ => rfl, fun _ => rfl, fun _ => rfl, fun _ => rfl, fun _ => rfl, fun _ => rfl, fun _ => rfl, fun _ => rfl, fun _ => rfl, fun _ => rfl, fun _ => rfl, fun _ => rfl, fun _ => rfl, fun _ => rfl, fun _ => rfl, fun _ => rfl, fun _ => rfl, fun _ => rfl, fun _ => rfl, fun _ => rfl, fun _ => rfl, fun k => absurd k (by decide), fun k => absurd k (by decide), fun _ => rfl, fun k => absurd k (by decide), fun _ => rfl, fun _ => rfl, fun _ => rfl, fun _ => rfl, fun _ => rfl, fun _ => rfl, fun _ => rfl, fun _ => rfl, fun _ => rfl, fun _ => rfl, fun _ => rfl, fun _ => rfl, fun _ => rfl, fun _ => rfl, fun _ => rfl, fun _ => rfl, fun _ => rfl, fun _ => rfl, fun _ => rfl, fun _ => rfl, fun _ => rfl, fun _ => rfl, fun _ => rfl, fun _ => rfl⟩

theorem touch.upd_modes_planned (s : State) (v0 v1) : touch 0x100080000000 s { s with modes := v0, planned := v1 } :=
  ⟨fun _ _ => rfl, fun _ _ _ h => h, fun _ => rfl, fun _ => rfl, fun _ => rfl, fun _ => rfl, fun _ => rfl, fun _ => rfl, fun _ => rfl, fun _ => rfl, fun _ => rfl, fun _ => rfl, fun _ => rfl, fun _ => rfl, fun _ => rfl, fun _ => rfl, fun _ => rfl, fun _ => rfl, fun _ => rfl, fun _ => rfl, fun _ => rfl, fun _ => rfl, fun _ => rfl, fun _ => rfl, fun _ => rfl, fun _ => rfl, fun _ => rfl, fun _ => rfl, fun _ => rfl, fun _ => rfl, fun _ => rfl, fun _ => rfl, fun _ => rfl, fun k => absurd k (by decide), fun _ => rfl, fun _ => rfl, fun _ => rfl, fun _ => rfl, fun _ => rfl, fun _ => rfl, fun _ => rfl, fun _ => rfl, fun _ => rfl, fun _ => rfl, fun _ => rfl, fun _ => rfl, fun k => absurd k (by decide), fun _ => rfl, fun _ => rfl, fun _ => rfl, fun _ => rfl, fun _ => rfl, fun _ => rfl, fun _ => rfl, fun _ => rfl, fun _ => rfl, fun _ => rfl, fun _ => rfl, fun _ => rfl, fun _ => rfl, fun _ => rfl, fun _ => rfl, fun _ => rfl, fun _ => rfl, fun _ => rfl, fun _ => rfl, fun _ => rfl, fun _ => rfl, fun _ => rfl, fun _ => rfl, fun _ => rfl, fun _ => rfl, fun _ => rfl, fun _ => rfl, fun _ => rfl, fun _ => rfl, fun _ => rfl, fun _ => rfl, fun _ => rfl, fun _ => rfl, fun _ => rfl, fun _ => rfl, fun _ => rfl, fun _ => rfl, fun _ => rfl, fun _ => rfl, fun _ => rfl, fun _ => rfl, fun _ => rfl, fun _ => rfl, fun _ => rfl, fun _ => rfl, fun _ => rfl, fun _ => rfl, fun _ => rfl, fun _ => rfl, fun _ => rfl, fun _ => rfl⟩

theorem touch.upd_mr (s : State) (v0) : touch 0x100000 s { s with mr := v0 } :=
  ⟨fun _ _ => rfl, fun _ _ _ h => h, fun _ => rfl, fun _ => rfl, fun _ => rfl, fun _ => rfl, fun _ => rfl, fun _ => rfl, fun _ => rfl, fun _ => rfl, fun _ => rfl, fun _ => rfl, fun _ => rfl, fun _ => rfl, fun _ => rfl, fun _ => rfl, fun _ => rfl, fun _ => rfl, fun _ => rfl, fun _ => rfl, fun _ => rfl, fun _ => rfl, fun k => absurd k (by decide), fun _ => rfl, fun _ => rfl, fun _ => rfl, fun _ => rfl, fun _ => rfl, fun _ => rfl, fun _ => rfl, fun _ => rfl, fun _ => rfl, fun _ => rfl, fun _ => rfl, fun _ => rfl, fun _ => rfl, fun _ => rfl, fun _ => rfl, fun _ => rfl, fun _ => rfl, fun _ => rfl, fun _ => rfl, fun _ => rfl, fun _ => rfl, fun _ => rfl, fun _ => rfl, fun _ => rfl, fun _ => rfl, fun _ => rfl, fun _ => rfl, fun _ => rfl, fun _ => rfl, fun _ => rfl, fun _ => rfl, fun _ => rfl, fun _ => rfl, fun _ => rfl, fun _ => rfl, fun _ => rfl, fun _ => rfl, fun _ => rfl, fun _ => rfl, fun _ => rfl, fun _ => rfl, fun _ => rfl, fun _ => rfl, fun _ => rfl, fun _ => rfl, fun _ => rfl, fun _ => rfl, fun _ => rfl, fun _ => rfl, fun _ => rfl, fun _ => rfl, fun _ => rfl, fun _ => rfl, fun _ => rfl, fun _ => rfl, fun _ => rfl, fun _ => rfl, fun _ => rfl, fun _ => rfl, fun _ => rfl, fun _ => rfl, fun _ => rfl, fun _ => rfl, fun _ => rfl, fun _ => rfl, fun _ => rfl, fun _ => rfl, fun _ => rfl, fun _ => rfl, fun _ => rfl, fun _ => rfl, fun _ => rfl, fun _ => rfl, fun _ => rfl, fun _ => rfl⟩

theorem touch.upd_nextId (s : State) (v0) : touch 0x1000000000 s { s with nextId := v0 } :=
  ⟨fun _ _ => rfl, fun _ _ _ h => h, fun _ => rfl, fun _ => rfl, fun _ => rfl, fun _ => rfl, fun _ => rfl, fun _ => rfl, fun _ => rfl, fun _ => rfl, fun _ => rfl, fun _ => rfl, fun _ => rfl, fun _ => rfl, fun _ => rfl, fun _ => rfl, fun _ => rfl, fun _ => rfl, fun _ => rfl, fun _ => rfl, fun _ => rfl, fun _ => rfl, fun _ => rfl, fun _ => rfl, fun _ => rfl, fun _ => rfl, fun _ => rfl, fun _ => rfl, fun _ => rfl, fun _ => rfl, fun _ => rfl, fun _ => rfl, fun _ => rfl, fun _ => rfl, fun _ => rfl, fun _ => rfl, fun _ => rfl, fun _ => rfl, fun k => absurd k (by decide), fun _ => rfl, fun _ => rfl, fun _ => rfl, fun _ => rfl, fun _ => rfl, fun _ => rfl, fun _ => rfl, fun _ => rfl, fun _ => rfl, fun _ => rfl, fun _ => rfl, fun _ => rfl, fun _ => rfl, fun _ => rfl, fun _ => rfl, fun _ => rfl, fun _ => rfl, fun _ => rfl, fun _ => rfl, fun _ => rfl, fun _ => rfl, fun _ => rfl, fun _ => rfl, fun _ => rfl, fun _ => rfl, fun _ => rfl, fun _ => rfl, fun _ => rfl, fun _ => rfl, fun _ => rfl, fun _ => rfl, fun _ => rfl, fun _ => rfl, fun _ => rfl, fun _ => rfl, fun _ => rfl, fun _ => rfl, fun _ => rfl, fun _ => rfl, fun _ => rfl, fun _ => rfl, fun _ => rfl, fun _ => rfl, fun _ => rfl, fun _ => rfl, fun _ => rfl, fun _ => rfl, fun _ => rfl, fun _ => rfl, fun _ => rfl, fun _ => rfl, fun _ => rfl, fun _ => rfl, fun _ => rfl, fun _ => rfl, fun _ => rfl, fun _ => rfl, fun _ => rfl, fun _ => rfl⟩

theorem touch.upd_nvs (s : State) (v0) : touch 0x800 s { s with nvs := v0 } :=
  ⟨fun _ _ => rfl, fun _ _ _ h => h, fun _ => rfl, fun _ => rfl, fun _ => rfl, fun _ => rfl, fun _ => rfl, fun _ => rfl, fun _ => rfl, fun _ => rfl, fun _ => rfl, fun _ => rfl, fun _ => rfl, fun k => absurd k (by decide), fun _ => rfl, fun _ => rfl, fun _ => rfl, fun _ => rfl, fun _ => rfl, fun _ => rfl, fun _ => rfl, fun _ => rfl, fun _ => rfl, fun _ => rfl, fun _ => rfl, fun _ => rfl, fun _ => rfl, fun _ => rfl, fun _ => rfl, fun _ => rfl, fun _ => rfl, fun _ => rfl, fun _ => rfl, fun _ => rfl, fun _ => rfl, fun _ => rfl, fun _ => rfl, fun _ => rfl, fun _ => rfl, fun _ => rfl, fun _ => rfl, fun _ => rfl, fun _ => rfl, fun _ => rfl, fun _ => rfl, fun _ => rfl, fun _ => rfl, fun _ => rfl, fun _ => rfl, fun _ => rfl, fun _ => rfl, fun _ => rfl, fun _ => rfl, fun _ => rfl, fun _ => rfl, fun _ => rfl, fun _ => rfl, fun _ => rfl, fun _ => rfl, fun _ => rfl, fun _ => rfl, fun _ => rfl, fun _ => rfl, fun _ => rfl, fun _ => rfl, fun _ => rfl, fun _ => rfl, fun _ => rfl, fun _ => rfl, fun _ => rfl, fun _ => rfl, fun _ => rfl, fun _ => rfl, fun _ => rfl, fun _ => rfl, fun _ => rfl, fun _ => rfl, fun _ => rfl, fun _ => rfl, fun _ => rfl, fun _ => rfl, fun _ => rfl, fun _ => rfl, fun _ => rfl, fun _ => rfl, fun _ => rfl, fun _ => rfl, fun _ => rfl, fun _ => rfl, fun _ => rfl, fun _ => rfl, fun _ => rfl, fun _ => rfl, fun _ => rfl, fun _ => rfl, fun _ => rfl, fun _ => rfl, fun _ => rfl⟩

theorem touch.upd_nvsOp (s : State) (v0) : touch 0x40000 s { s with nvsOp := v0 } :=
  ⟨fun _ _ => rfl, fun _ _ _ h => h, fun _ => rfl, fun _ => rfl, fun _ => rfl, fun _ => rfl, fun _ => rfl, fun _ => rfl, fun _ => rfl, fun _ => rfl, fun _ => rfl, fun _ => rfl, fun _ => rfl, fun _ => rfl, fun _ => rfl, fun _ => rfl, fun _ => rfl, fun _ => rfl, fun _ => rfl, fun _ => rfl, fun k => absurd k (by decide), fun _ => rfl, fun _ => rfl, fun _ => rfl, fun _ => rfl, fun _ => rfl, fun _ => rfl, fun _ => rfl, fun _ => rfl, fun _ => rfl, fun _ => rfl, fun _ => rfl, fun _ => rfl, fun _ => rfl, fun _ => rfl, fun _ => rfl, fun _ => rfl, fun _ => rfl, fun _ => rfl, fun _ => rfl, fun _ => rfl, fun _ => rfl, fun _ => rfl, fun _ => rfl, fun _ => rfl, fun _ => rfl, fun _ => rfl, fun _ => rfl, fun _ => rfl, fun _ => rfl, fun _ => rfl, fun _ => rfl, fun _ => rfl, fun _ => rfl, fun _ => rfl, fun _ => rfl, fun _ => rfl, fun _ => rfl, fun _ => rfl, fun _ => rfl, fun _ => rfl, fun _ => rfl, fun _ => rfl, fun _ => rfl, fun _ => rfl, fun _ => rfl, fun _ => rfl, fun _ => rfl, fun _ => rfl, fun _ => rfl, fun _ => rfl, fun _ => rfl, fun _ => rfl, fun _ => rfl, fun _ => rfl, fun _ => rfl, fun _ => rfl, fun _ => rfl, fun _ => rfl, fun _ => rfl, fun _ => rfl, fun _ => rfl, fun _ => rfl, fun _ => rfl, fun _ => rfl, fun _ => rfl, fun _ => rfl, fun _ => rfl, fun _ => rfl, fun _ => rfl, fun _ => rfl, fun _ => rfl, fun _ => rfl, fun _ => rfl, fun _ => rfl, fun _ => rfl, fun _ => rfl, fun _ => rfl⟩

theorem touch.upd_nvsOp_bankWrite (s : State) (v0 v1) : touch 0x40000000000000000040000 s { s with nvsOp := v0, bankWrite := v1 } :=
  ⟨fun _ _ => rfl, fun _ _ _ h => h, fun _ => rfl, fun _ => rfl, fun _ => rfl, fun _ => rfl, fun _ => rfl, fun _ => rfl, fun _ => rfl, fun _ => rfl, fun _ => rfl, fun _ => rfl, fun _ => rfl, fun _ => rfl, fun _ => rfl, fun _ => rfl, fun _ => rfl, fun _ => rfl, fun _ => rfl, fun _ => rfl, fun k => absurd k (by decide), fun _ => rfl, fun _ => rfl, fun _ => rfl, fun _ => rfl, fun _ => rfl, fun _ => rfl, fun _ => rfl, fun _ => rfl, fun _ => rfl, fun _ => rfl, fun _ => rfl, fun _ => rfl, fun _ => rfl, fun _ => rfl, fun _ => rfl, fun _ => rfl, fun _ => rfl, fun _ => rfl, fun _ => rfl, fun _ => rfl, fun _ => rfl, fun _ => rfl, fun _ => rfl, fun _ => rfl, fun _ => rfl, fun _ => rfl, fun _ => rfl, fun _ => rfl, fun _ => rfl, fun _ => rfl, fun _ => rfl, fun _ => rfl, fun _ => rfl, fun _ => rfl, fun _ => rfl, fun _ => rfl, fun _ => rfl, fun _ => rfl, fun _ => rfl, fun _ => rfl, fun _ => rfl, fun _ => rfl, fun _ => rfl, fun _ => rfl, fun _ => rfl, fun _ => rfl, fun _ => rfl, fun _ => rfl, fun _ => rfl, fun _ => rfl, fun _ => rfl, fun _ => rfl, fun _ => rfl, fun _ => rfl, fun _ => rfl, fun _ => rfl, fun _ => rfl, fun _ => rfl, fun _ => rfl, fun _ => rfl, fun _ => rfl, fun _ => rfl, fun _ => rfl, fun _ => rfl, fun _ => rfl, fun _ => rfl, fun _ => rfl, fun _ => rfl, fun _ => rfl, fun _ => rfl, fun _ => rfl, fun k => absurd k (by decide), fun _ => rfl, fun _ => rfl, fun _ => rfl, fun _ => rfl, fun _ => rfl⟩

theorem touch.upd_nvs_dir (s : State) (v0 v1) : touch 0x1800 s { s with nvs := v0, dir := v1 } :=
  ⟨fun _ _ => rfl, fun _ _ _ h => h, fun _ => rfl, fun _ => rfl, fun _ => rfl, fun _ => rfl, fun _ => rfl, fun _ => rfl, fun _ => rfl, fun _ => rfl, fun _ => rfl, fun _ => rfl, fun _ => rfl, fun k => absurd k (by decide), fun k => absurd k (by decide), fun _ => rfl, fun _ => rfl, fun _ => rfl, fun _ => rfl, fun _ => rfl, fun _ => rfl, fun _ => rfl, fun _ => rfl, fun _ => rfl, fun _ => rfl, fun _ => rfl, fun _ => rfl, fun _ => rfl, fun _ => rfl, fun _ => rfl, fun _ => rfl, fun _ => rfl, fun _ => rfl, fun _ => rfl, fun _ => rfl, fun _ => rfl, fun _ => rfl, fun _ => rfl, fun _ => rfl, fun _ => rfl, fun _ => rfl, fun _ => rfl, fun _ => rfl, fun _ => rfl, fun _ => rfl, fun _ => rfl, fun _ => rfl, fun _ => rfl, fun _ => rfl, fun _ => rfl, fun _ => rfl, fun _ => rfl, fun _ => rfl, fun _ => rfl, fun _ => rfl, fun _ => rfl, fun _ => rfl, fun _ => rfl, fun _ => rfl, fun _ => rfl, fun _ => rfl, fun _ => rfl, fun _ => rfl, fun _ => rfl, fun _ => rfl, fun _ => rfl, fun _ => rfl, fun _ => rfl, fun _ => rfl, fun _ => rfl, fun _ => rfl, fun _ => rfl, fun _ => rfl, fun _ => rfl, fun _ => rfl, fun _ => rfl, fun _ => rfl, fun _ => rfl, fun _ => rfl, fun _ => rfl, fun _ => rfl, fun _ => rfl, fun _ => rfl, fun _ => rfl, fun _ => rfl, fun _ => rfl, fun _ => rfl, fun _ => rfl, fun _ => rfl, fun _ => rfl, fun _ => rfl, fun _ => rfl, fun _ => rfl, fun _ => rfl, fun _ => rfl, fun _ => rfl, fun _ => rfl, fun _ => rfl⟩

theorem touch.upd_nvs_staged (s : State) (v0 v1) : touch 0x2800 s { s with nvs := v0, staged := v1 } :=
  ⟨fun _ _ => rfl, fun _ _ _ h => h, fun _ => rfl, fun _ => rfl, fun _ => rfl, fun _ => rfl, fun _ => rfl, fun _ => rfl, fun _ => rfl, fun _ => rfl, fun _ => rfl, fun _ => rfl, fun _ => rfl, fun k => absurd k (by decide), fun _ => rfl, fun k => absurd k (by decide), fun _ => rfl, fun _ => rfl, fun _ => rfl, fun _ => rfl, fun _ => rfl, fun _ => rfl, fun _ => rfl, fun _ => rfl, fun _ => rfl, fun _ => rfl, fun _ => rfl, fun _ => rfl, fun _ => rfl, fun _ => rfl, fun _ => rfl, fun _ => rfl, fun _ => rfl, fun _ => rfl, fun _ => rfl, fun _ => rfl, fun _ => rfl, fun _ => rfl, fun _ => rfl, fun _ => rfl, fun _ => rfl, fun _ => rfl, fun _ => rfl, fun _ => rfl, fun _ => rfl, fun _ => rfl, fun _ => rfl, fun _ => rfl, fun _ => rfl, fun _ => rfl, fun _ => rfl, fun _ => rfl, fun _ => rfl, fun _ => rfl, fun _ => rfl, fun _ => rfl, fun _ => rfl, fun _ => rfl, fun _ => rfl, fun _ => rfl, fun _ => rfl, fun _ => rfl, fun _ => rfl, fun _ => rfl, fun _ => rfl, fun _ => rfl, fun _ => rfl, fun _ => rfl, fun _ => rfl, fun _ => rfl, fun _ => rfl, fun _ => rfl, fun _ => rfl, fun _ => rfl, fun _ => rfl, fun _ => rfl, fun _ => rfl, fun _ => rfl, fun _ => rfl, fun _ => rfl, fun _ => rfl, fun _ => rfl, fun _ => rfl, fun _ => rfl, fun _ => rfl, fun _ => rfl, fun _ => rfl, fun _ => rfl, fun _ => rfl, fun _ => rfl, fun _ => rfl, fun _ => rfl, fun _ => rfl, fun _ => rfl, fun _ => rfl, fun _ => rfl, fun _ => rfl, fun _ => rfl⟩

theorem touch.upd_out (s : State) (v0) : touch 0x40 s { s with out := v0 } :=
  ⟨fun _ _ => rfl, fun _ _ _ h => h, fun _ => rfl, fun _ => rfl, fun _ => rfl, fun _ => rfl, fun _ => rfl, fun _ => rfl, fun k => absurd k (by decide), fun _ => rfl, fun _ => rfl, fun _ => rfl, fun _ => rfl, fun _ => rfl, fun _ => rfl, fun _ => rfl, fun _ => rfl, fun _ => rfl, fun _ => rfl, fun _ => rfl, fun _ => rfl, fun _ => rfl, fun _ => rfl, fun _ => rfl, fun _ => rfl, fun _ => rfl, fun _ => rfl, fun _ => rfl, fun _ => rfl, fun _ => rfl, fun _ => rfl, fun _ => rfl, fun _ => rfl, fun _ => rfl, fun _ => rfl, fun _ => rfl, fun _ => rfl, fun _ => rfl, fun _ => rfl, fun _ => rfl, fun _ => rfl, fun _ => rfl, fun _ => rfl, fun _ => rfl, fun _ => rfl, fun _ => rfl, fun _ => rfl, fun _ => rfl, fun _ => rfl, fun _ => rfl, fun _ => rfl, fun _ => rfl, fun _ => rfl, fun _ => rfl, fun _ => rfl, fun _ => rfl, fun _ => rfl, fun _ => rfl, fun _ => rfl, fun _ => rfl, fun _ => rfl, fun _ => rfl, fun _ => rfl, fun _ => rfl, fun _ => rfl, fun _ => rfl, fun _ => rfl, fun _ => rfl, fun _ => rfl, fun _ => rfl, fun _ => rfl, fun _ => rfl, fun _ => rfl, fun _ => rfl, fun _ => rfl, fun _ => rfl, fun _ => rfl, fun _ => rfl, fun _ => rfl, fun _ => rfl, fun _ => rfl, fun _ => rfl, fun _ => rfl, fun _ => rfl, fun _ => rfl, fun _ => rfl, fun _ => rfl, fun _ => rfl, fun _ => rfl, fun _ => rfl, fun _ => rfl, fun _ => rfl, fun _ => rfl, fun _ => rfl, fun _ => rfl, fun _ => rfl, fun _ => rfl, fun _ => rfl⟩

theorem touch.upd_outbox (s : State) (v0) : touch 0x80 s { s with outbox := v0 } :=
  ⟨fun _ _ => rfl, fun _ _ _ h => h, fun _ => rfl, fun _ => rfl, fun _ => rfl, fun _ => rfl, fun _ => rfl, fun _ => rfl, fun _ => rfl, fun k => absurd k (by decide), fun _ => rfl, fun _ => rfl, fun _ => rfl, fun _ => rfl, fun _ => rfl, fun _ => rfl, fun _ => rfl, fun _ => rfl, fun _ => rfl, fun _ => rfl, fun _ => rfl, fun _ => rfl, fun _ => rfl, fun _ => rfl, fun _ => rfl, fun _ => rfl, fun _ => rfl, fun _ => rfl, fun _ => rfl, fun _ => rfl, fun _ => rfl, fun _ => rfl, fun _ => rfl, fun _ => rfl, fun _ => rfl, fun _ => rfl, fun _ => rfl, fun _ => rfl, fun _ => rfl, fun _ => rfl, fun _ => rfl, fun _ => rfl, fun _ => rfl, fun _ => rfl, fun _ => rfl, fun _ => rfl, fun _ => rfl, fun _ => rfl, fun _ => rfl, fun _ => rfl, fun _ => rfl, fun _ => rfl, fun _ => rfl, fun _ => rfl, fun _ => rfl, fun _ => rfl, fun _ => rfl, fun _ => rfl, fun _ => rfl, fun _ => rfl, fun _ => rfl, fun _ => rfl, fun _ => rfl, fun _ => rfl, fun _ => rfl, fun _ => rfl, fun _ => rfl, fun _ => rfl, fun _ => rfl, fun _ => rfl, fun _ => rfl, fun _ => rfl, fun _ => rfl, fun _ => rfl, fun _ => rfl, fun _ => rfl, fun _ => rfl, fun _ => rfl, fun _ => rfl, fun _ => rfl, fun _ => rfl, fun _ => rfl, fun _ => rfl, fun _ => rfl, fun _ => rfl, fun _ => rfl, fun _ => rfl, fun _ => rfl, fun _ => rfl, fun _ => rfl, fun _ => rfl, fun _ => rfl, fun _ => rfl, fun _ => rfl, fun _ => rfl, fun _ => rfl, fun _ => rfl, fun _ => rfl⟩

theorem touch.upd_outstanding (s : State) (v0) : touch 0x800000000 s { s with outstanding := v0 } :=
  ⟨fun _ _ => rfl, fun _ _ _ h => h, fun _ => rfl, fun _ => rfl, fun _ => rfl, fun _ => rfl, fun _ => rfl, fun _ => rfl, fun _ => rfl, fun _ => rfl, fun _ => rfl, fun _ => rfl, fun _ => rfl, fun _ => rfl, fun _ => rfl, fun _ => rfl, fun _ => rfl, fun _ => rfl, fun _ => rfl, fun _ => rfl, fun _ => rfl, fun _ => rfl, fun _ => rfl, fun _ => rfl, fun _ => rfl, fun _ => rfl, fun _ => rfl, fun _ => rfl, fun _ => rfl, fun _ => rfl, fun _ => rfl, fun _ => rfl, fun _ => rfl, fun _ => rfl, fun _ => rfl, fun _ => rfl, fun _ => rfl, fun k => absurd k (by decide), fun _ => rfl, fun _ => rfl, fun _ => rfl, fun _ => rfl, fun _ => rfl, fun _ => rfl, fun _ => rfl, fun _ => rfl, fun _ => rfl, fun _ => rfl, fun _ => rfl, fun _ => rfl, fun _ => rfl, fun _ => rfl, fun _ => rfl, fun _ => rfl, fun _ => rfl, fun _ => rfl, fun _ => rfl, fun _ => rfl, fun _ => rfl, fun _ => rfl, fun _ => rfl, fun _ => rfl, fun _ => rfl, fun _ => rfl, fun _ => rfl, fun _ => rfl, fun _ => rfl, fun _ => rfl, fun _ => rfl, fun _ => rfl, fun _ => rfl, fun _ => rfl, fun _ => rfl, fun _ => rfl, fun _ => rfl, fun _ => rfl, fun _ => rfl, fun _ => rfl, fun _ => rfl, fun _ => rfl, fun _ => rfl, fun _ => rfl, fun _ => rfl, fun _ => rfl, fun _ => rfl, fun _ => rfl, fun _ => rfl, fun _ => rfl, fun _ => rfl, fun _ => rfl, fun _ => rfl, fun _ => rfl, fun _ => rfl, fun _ => rfl, fun _ => rfl, fun _ => rfl, fun _ => rfl, fun _ => rfl⟩

theorem touch.upd_outstanding_streams (s : State) (v0 v1) : touch 0x8800000000 s { s with outstanding := v0, streams := v1 } :=
  ⟨fun _ _ => rfl, fun _ _ _ h => h, fun _ => rfl, fun _ => rfl, fun _ => rfl, fun _ => rfl, fun _ => rfl, fun _ => rfl, fun _ => rfl, fun _ => rfl, fun _ => rfl, fun _ => rfl, fun _ => rfl, fun _ => rfl, fun _ => rfl, fun _ => rfl, fun _ => rfl, fun _ => rfl, fun _ => rfl, fun _ => rfl, fun _ => rfl, fun _ => rfl, fun _ => rfl, fun _ => rfl, fun _ => rfl, fun _ => rfl, fun _ => rfl, fun _ => rfl, fun _ => rfl, fun _ => rfl, fun _ => rfl, fun _ => rfl, fun _ => rfl, fun _ => rfl, fun _ => rfl, fun _ => rfl, fun _ => rfl, fun k => absurd k (by decide), fun _ => rfl, fun _ => rfl, fun _ => rfl, fun k => absurd k (by decide), fun _ => rfl, fun _ => rfl, fun _ => rfl, fun _ => rfl, fun _ => rfl, fun _ => rfl, fun _ => rfl, fun _ => rfl, fun _ => rfl, fun _ => rfl, fun _ => rfl, fun _ => rfl, fun _ => rfl, fun _ => rfl, fun _ => rfl, fun _ => rfl, fun _ => rfl, fun _ => rfl, fun _ => rfl, fun _ => rfl, fun _ => rfl, fun _ => rfl, fun _ => rfl, fun _ => rfl, fun _ => rfl, fun _ => rfl, fun _ => rfl, fun _ => rfl, fun _ => rfl, fun _ => rfl, fun _ => rfl, fun _ => rfl, fun _ => rfl, fun _ => rfl, fun _ => rfl, fun _ => rfl, fun _ => rfl, fun _ => rfl, fun _ => rfl, fun _ => rfl, fun _ => rfl, fun _ => rfl, fun _ => rfl, fun _ => rfl, fun _ => rfl, fun _ => rfl, fun _ => rfl, fun _ => rfl, fun _ => rfl, fun _ => rfl, fun _ => rfl, fun _ => rfl, fun _ => rfl, fun _ => rfl, fun _ => rfl, fun _ => rfl⟩

theorem touch.upd_pending (s : State) (v0) : touch 0x1 s { s with pending := v0 } :=
  ⟨fun _ _ => rfl, fun _ _ _ h => h, fun k => absurd k (by decide), fun _ => rfl, fun _ => rfl, fun _ => rfl, fun _ => rfl, fun _ => rfl, fun _ => rfl, fun _ => rfl, fun _ => rfl, fun _ => rfl, fun _ => rfl, fun _ => rfl, fun _ => rfl, fun _ => rfl, fun _ => rfl, fun _ => rfl, fun _ => rfl, fun _ => rfl, fun _ => rfl, fun _ => rfl, fun _ => rfl, fun _ => rfl, fun _ => rfl, fun _ => rfl, fun _ => rfl, fun _ => rfl, fun _ => rfl, fun _ => rfl, fun _ => rfl, fun _ => rfl, fun _ => rfl, fun _ => rfl, fun _ => rfl, fun _ => rfl, fun _ => rfl, fun _ => rfl, fun _ => rfl, fun _ => rfl, fun _ => rfl, fun _ => rfl, fun _ => rfl, fun _ => rfl, fun _ => rfl, fun _ => rfl, fun _ => rfl, fun _ => rfl, fun _ => rfl, fun _ => rfl, fun _ => rfl, fun _ => rfl, fun _ => rfl, fun _ => rfl, fun _ => rfl, fun _ => rfl, fun _ => rfl, fun _ => rfl, fun _ => rfl, fun _ => rfl, fun _ => rfl, fun _ => rfl, fun _ => rfl, fun _ => rfl, fun _ => rfl, fun _ => rfl, fun _ => rfl, fun _ => rfl, fun _ => rfl, fun _ => rfl, fun _ => rfl, fun _ => rfl, fun _ => rfl, fun _ => rfl, fun _ => rfl, fun _ => rfl, fun _ => rfl, fun _ => rfl, fun _ => rfl, fun _ => rfl, fun _ => rfl, fun _ => rfl, fun _ => rfl, fun _ => rfl, fun _ => rfl, fun _ => rfl, fun _ => rfl, fun _ => rfl, fun _ => rfl, fun _ => rfl, fun _ => rfl, fun _ => rfl, fun _ => rfl, fun _ => rfl, fun _ => rfl, fun _ => rfl, fun _ => rfl, fun _ => rfl⟩

theorem touch.upd_pending_chip (s : State) (v0 v1) : touch 0x3 s { s with pending := v0, chip := v1 } :=
  ⟨fun _ _ => rfl, fun _ _ _ h => h, fun k => absurd k (by decide), fun k => absurd k (by decide), fun _ => rfl, fun _ => rfl, fun _ => rfl, fun _ => rfl, fun _ => rfl, fun _ => rfl, fun _ => rfl, fun _ => rfl, fun _ => rfl, fun _ => rfl, fun _ => rfl, fun _ => rfl, fun _ => rfl, fun _ => rfl, fun _ => rfl, fun _ => rfl, fun _ => rfl, fun _ => rfl, fun _ => rfl, fun _ => rfl, fun _ => rfl, fun _ => rfl, fun _ => rfl, fun _ => rfl, fun _ => rfl, fun _ => rfl, fun _ => rfl, fun _ => rfl, fun _ => rfl, fun _ => rfl, fun _ => rfl, fun _ => rfl, fun _ => rfl, fun _ => rfl, fun _ => rfl, fun _ => rfl, fun _ => rfl, fun _ => rfl, fun _ => rfl, fun _ => rfl, fun _ => rfl, fun _ => rfl, fun _ => rfl, fun _ => rfl, fun _ => rfl, fun _ => rfl, fun _ => rfl, fun _ => rfl, fun _ => rfl, fun _ => rfl, fun _ => rfl, fun _ => rfl, fun _ => rfl, fun _ => rfl, fun _ => rfl, fun _ => rfl, fun _ => rfl, fun _ => rfl, fun _ => rfl, fun _ => rfl, fun _ => rfl, fun _ => rfl, fun _ => rfl, fun _ => rfl, fun _ => rfl, fun _ => rfl, fun _ => rfl, fun _ => rfl, fun _ => rfl, fun _ => rfl, fun _ => rfl, fun _ => rfl, fun _ => rfl, fun _ => rfl, fun _ => rfl, fun _ => rfl, fun _ => rfl, fun _ => rfl, fun _ => rfl, fun _ => rfl, fun _ => rfl, fun _ => rfl, fun _ => rfl, fun _ => rfl, fun _ => rfl, fun _ => rfl, fun _ => rfl, fun _ => rfl, fun _ => rfl, fun _ => rfl, fun _ => rfl, fun _ => rfl, fun _ => rfl, fun _ => rfl⟩

theorem touch.upd_planned (s : State) (v0) : touch 0x100000000000 s { s with planned := v0 } :=
  ⟨fun _ _ => rfl, fun _ _ _ h => h, fun _ => rfl, fun _ => rfl, fun _ => rfl, fun _ => rfl, fun _ => rfl, fun _ => rfl, fun _ => rfl, fun _ => rfl, fun _ => rfl, fun _ => rfl, fun _ => rfl, fun _ => rfl, fun _ => rfl, fun _ => rfl, fun _ => rfl, fun _ => rfl, fun _ => rfl, fun _ => rfl, fun _ => rfl, fun _ => rfl, fun _ => rfl, fun _ => rfl, fun _ => rfl, fun _ => rfl, fun _ => rfl, fun _ => rfl, fun _ => rfl, fun _ => rfl, fun _ => rfl, fun _ => rfl, fun _ => rfl, fun _ => rfl, fun _ => rfl, fun _ => rfl, fun _ => rfl, fun _ => rfl, fun _ => rfl, fun _ => rfl, fun _ => rfl, fun _ => rfl, fun _ => rfl, fun _ => rfl, fun _ => rfl, fun _ => rfl, fun k => absurd k (by decide), fun _ => rfl, fun _ => rfl, fun _ => rfl, fun _ => rfl, fun _ => rfl, fun _ => rfl, fun _ => rfl, fun _ => rfl, fun _ => rfl, fun _ => rfl, fun _ => rfl, fun _ => rfl, fun _ => rfl, fun _ => rfl, fun _ => rfl, fun _ => rfl, fun _ => rfl, fun _ => rfl, fun _ => rfl, fun _ => rfl, fun _ => rfl, fun _ => rfl, fun _ => rfl, fun _ => rfl, fun _ => rfl, fun _ => rfl, fun _ => rfl, fun _ => rfl, fun _ => rfl, fun _ => rfl, fun _ => rfl, fun _ => rfl, fun _ => rfl, fun _ => rfl, fun _ => rfl, fun _ => rfl, fun _ => rfl, fun _ => rfl, fun _ => rfl, fun _ => rfl, fun _ => rfl, fun _ => rfl, fun _ => rfl, fun _ => rfl, fun _ => rfl, fun _ => rfl, fun _ => rfl, fun _ => rfl, fun _ => rfl, fun _ => rfl, fun _ => rfl⟩

theorem touch.upd_portLocks (s : State) (v0) : touch 0x80000000000 s { s with portLocks := v0 } :=
  ⟨fun _ _ => rfl, fun _ _ _ h => h, fun _ => rfl, fun _ => rfl, fun _ => rfl, fun _ => rfl, fun _ => rfl, fun _ => rfl, fun _ => rfl, fun _ => rfl, fun _ => rfl, fun _ => rfl, fun _ => rfl, fun _ => rfl, fun _ => rfl, fun _ => rfl, fun _ => rfl, fun _ => rfl, fun _ => rfl, fun _ => rfl, fun _ => rfl, fun _ => rfl, fun _ => rfl, fun _ => rfl, fun _ => rfl, fun _ => rfl, fun _ => rfl, fun _ => rfl, fun _ => rfl, fun _ => rfl, fun _ => rfl, fun _ => rfl, fun _ => rfl, fun _ => rfl, fun _ => rfl, fun _ => rfl, fun _ => rfl, fun _ => rfl, fun _ => rfl, fun _ => rfl, fun _ => rfl, fun _ => rfl, fun _ => rfl, fun _ => rfl, fun _ => rfl, fun k => absurd k (by decide), fun _ => rfl, fun _ => rfl, fun _ => rfl, fun _ => rfl, fun _ => rfl, fun _ => rfl, fun _ => rfl, fun _ => rfl, fun _ => rfl, fun _ => rfl, fun _ => rfl, fun _ => rfl, fun _ => rfl, fun _ => rfl, fun _ => rfl, fun _ => rfl, fun _ => rfl, fun _ => rfl, fun _ => rfl, fun _ => rfl, fun _ => rfl, fun _ => rfl, fun _ => rfl, fun _ => rfl, fun _ => rfl, fun _ => rfl, fun _ => rfl, fun _ => rfl, fun _ => rfl, fun _ => rfl, fun _ => rfl, fun _ => rfl, fun _ => rfl, fun _ => rfl, fun _ => rfl, fun _ => rfl, fun _ => rfl, fun _ => rfl, fun _ => rfl, fun _ => rfl, fun _ => rfl, fun _ => rfl, fun _ => rfl, fun _ => rfl, fun _ => rfl, fun _ => rfl, fun _ => rfl, fun _ => rfl, fun _ => rfl, fun _ => rfl, fun _ => rfl, fun _ => rfl⟩

theorem touch.upd_ports (s : State) (v0) : touch 0x1000000 s { s with ports := v0 } :=
  ⟨fun _ _ => rfl, fun _ _ _ h => h, fun _ => rfl, fun _ => rfl, fun _ => rfl, fun _ => rfl, fun _ => rfl, fun _ => rfl, fun _ => rfl, fun _ => rfl, fun _ => rfl, fun _ => rfl, fun _ => rfl, fun _ => rfl, fun _ => rfl, fun _ => rfl, fun _ => rfl, fun _ => rfl, fun _ => rfl, fun _ => rfl, fun _ => rfl, fun _ => rfl, fun _ => rfl, fun _ => rfl, fun _ => rfl, fun _ => rfl, fun k => absurd k (by decide), fun _ => rfl, fun _ => rfl, fun _ => rfl, fun _ => rfl, fun _ => rfl, fun _ => rfl, fun _ => rfl, fun _ => rfl, fun _ => rfl, fun _ => rfl, fun _ => rfl, fun _ => rfl, fun _ => rfl, fun _ => rfl, fun _ => rfl, fun _ => rfl, fun _ => rfl, fun _ => rfl, fun _ => rfl, fun _ => rfl, fun _ => rfl, fun _ => rfl, fun _ => rfl, fun _ => rfl, fun _ => rfl, fun _ => rfl, fun _ => rfl, fun _ => rfl, fun _ => rfl, fun _ => rfl, fun _ => rfl, fun _ => rfl, fun _ => rfl, fun _ => rfl, fun _ => rfl, fun _ => rfl, fun _ => rfl, fun _ => rfl, fun _ => rfl, fun _ => rfl, fun _ => rfl, fun _ => rfl, fun _ => rfl, fun _ => rfl, fun _ => rfl, fun _ => rfl, fun _ => rfl, fun _ => rfl, fun _ => rfl, fun _ => rfl, fun _ => rfl, fun _ => rfl, fun _ => rfl, fun _ => rfl, fun _ => rfl, fun _ => rfl, fun _ => rfl, fun _ => rfl, fun _ => rfl, fun _ => rfl, fun _ => rfl, fun _ => rfl, fun _ => rfl, fun _ => rfl, fun _ => rfl, fun _ => rfl, fun _ => rfl, fun _ => rfl, fun _ => rfl, fun _ => rfl, fun _ => rfl⟩

theorem touch.upd_postedCount (s : State) (v0) : touch 0x800000000000 s { s with postedCount := v0 } :=
  ⟨fun _ _ => rfl, fun _ _ _ h => h, fun _ => rfl, fun _ => rfl, fun _ => rfl, fun _ => rfl, fun _ => rfl, fun _ => rfl, fun _ => rfl, fun _ => rfl, fun _ => rfl, fun _ => rfl, fun _ => rfl, fun _ => rfl, fun _ => rfl, fun _ => rfl, fun _ => rfl, fun _ => rfl, fun _ => rfl, fun _ => rfl, fun _ => rfl, fun _ => rfl, fun _ => rfl, fun _ => rfl, fun _ => rfl, fun _ => rfl, fun _ => rfl, fun _ => rfl, fun _ => rfl, fun _ => rfl, fun _ => rfl, fun _ => rfl, fun _ => rfl, fun _ => rfl, fun _ => rfl, fun _ => rfl, fun _ => rfl, fun _ => rfl, fun _ => rfl, fun _ => rfl, fun _ => rfl, fun _ => rfl, fun _ => rfl, fun _ => rfl, fun _ => rfl, fun _ => rfl, fun _ => rfl, fun _ => rfl, fun _ => rfl, fun k => absurd k (by decide), fun _ => rfl, fun _ => rfl, fun _ => rfl, fun _ => rfl, fun _ => rfl, fun _ => rfl, fun _ => rfl, fun _ => rfl, fun _ => rfl, fun _ => rfl, fun _ => rfl, fun _ => rfl, fun _ => rfl, fun _ => rfl, fun _ => rfl, fun _ => rfl, fun _ => rfl, fun _ => rfl, fun _ => rfl, fun _ => rfl, fun _ => rfl, fun _ => rfl, fun _ => rfl, fun _ => rfl, fun _ => rfl, fun _ => rfl, fun _ => rfl, fun _ => rfl, fun _ => rfl, fun _ => rfl, fun _ => rfl, fun _ => rfl, fun _ => rfl, fun _ => rfl, fun _ => rfl, fun _ => rfl, fun _ => rfl, fun _ => rfl, fun _ => rfl, fun _ => rfl, fun _ => rfl, fun _ => rfl, fun _ => rfl, fun _ => rfl, fun _ => rfl, fun _ => rfl, fun _ => rfl, fun _ => rfl⟩

theorem touch.upd_powerSamples (s : State) (v0) : touch 0x400000000000000000000 s { s with powerSamples := v0 } :=
  ⟨fun _ _ => rfl, fun _ _ _ h => h, fun _ => rfl, fun _ => rfl, fun _ => rfl, fun _ => rfl, fun _ => rfl, fun _ => rfl, fun _ => rfl, fun _ => rfl, fun _ => rfl, fun _ => rfl, fun _ => rfl, fun _ => rfl, fun _ => rfl, fun _ => rfl, fun _ => rfl, fun _ => rfl, fun _ => rfl, fun _ => rfl, fun _ => rfl, fun _ => rfl, fun _ => rfl, fun _ => rfl, fun _ => rfl, fun _ => rfl, fun _ => rfl, fun _ => rfl, fun _ => rfl, fun _ => rfl, fun _ => rfl, fun _ => rfl, fun _ => rfl, fun _ => rfl, fun _ => rfl, fun _ => rfl, fun _ => rfl, fun _ => rfl, fun _ => rfl, fun _ => rfl, fun _ => rfl, fun _ => rfl, fun _ => rfl, fun _ => rfl, fun _ => rfl, fun _ => rfl, fun _ => rfl, fun _ => rfl, fun _ => rfl, fun _ => rfl, fun _ => rfl, fun _ => rfl, fun _ => rfl, fun _ => rfl, fun _ => rfl, fun _ => rfl, fun _ => rfl, fun _ => rfl, fun _ => rfl, fun _ => rfl, fun _ => rfl, fun _ => rfl, fun _ => rfl, fun _ => rfl, fun _ => rfl, fun _ => rfl, fun _ => rfl, fun _ => rfl, fun _ => rfl, fun _ => rfl, fun _ => rfl, fun _ => rfl, fun _ => rfl, fun _ => rfl, fun _ => rfl, fun _ => rfl, fun _ => rfl, fun _ => rfl, fun _ => rfl, fun _ => rfl, fun _ => rfl, fun _ => rfl, fun _ => rfl, fun _ => rfl, fun k => absurd k (by decide), fun _ => rfl, fun _ => rfl, fun _ => rfl, fun _ => rfl, fun _ => rfl, fun _ => rfl, fun _ => rfl, fun _ => rfl, fun _ => rfl, fun _ => rfl, fun _ => rfl, fun _ => rfl, fun _ => rfl⟩

theorem touch.upd_program_ecc (s : State) (v0 v1) : touch 0x44000000000000 s { s with program := v0, ecc := v1 } :=
  ⟨fun _ _ => rfl, fun _ _ _ h => h, fun _ => rfl, fun _ => rfl, fun _ => rfl, fun _ => rfl, fun _ => rfl, fun _ => rfl, fun _ => rfl, fun _ => rfl, fun _ => rfl, fun _ => rfl, fun _ => rfl, fun _ => rfl, fun _ => rfl, fun _ => rfl, fun _ => rfl, fun _ => rfl, fun _ => rfl, fun _ => rfl, fun _ => rfl, fun _ => rfl, fun _ => rfl, fun _ => rfl, fun _ => rfl, fun _ => rfl, fun _ => rfl, fun _ => rfl, fun _ => rfl, fun _ => rfl, fun _ => rfl, fun _ => rfl, fun _ => rfl, fun _ => rfl, fun _ => rfl, fun _ => rfl, fun _ => rfl, fun _ => rfl, fun _ => rfl, fun _ => rfl, fun _ => rfl, fun _ => rfl, fun _ => rfl, fun _ => rfl, fun _ => rfl, fun _ => rfl, fun _ => rfl, fun _ => rfl, fun _ => rfl, fun _ => rfl, fun _ => rfl, fun _ => rfl, fun k => absurd k (by decide), fun _ => rfl, fun _ => rfl, fun _ => rfl, fun k => absurd k (by decide), fun _ => rfl, fun _ => rfl, fun _ => rfl, fun _ => rfl, fun _ => rfl, fun _ => rfl, fun _ => rfl, fun _ => rfl, fun _ => rfl, fun _ => rfl, fun _ => rfl, fun _ => rfl, fun _ => rfl, fun _ => rfl, fun _ => rfl, fun _ => rfl, fun _ => rfl, fun _ => rfl, fun _ => rfl, fun _ => rfl, fun _ => rfl, fun _ => rfl, fun _ => rfl, fun _ => rfl, fun _ => rfl, fun _ => rfl, fun _ => rfl, fun _ => rfl, fun _ => rfl, fun _ => rfl, fun _ => rfl, fun _ => rfl, fun _ => rfl, fun _ => rfl, fun _ => rfl, fun _ => rfl, fun _ => rfl, fun _ => rfl, fun _ => rfl, fun _ => rfl, fun _ => rfl⟩

theorem touch.upd_pulses (s : State) (v0) : touch 0x400000000000000000000000 s { s with pulses := v0 } :=
  ⟨fun _ _ => rfl, fun _ _ _ h => h, fun _ => rfl, fun _ => rfl, fun _ => rfl, fun _ => rfl, fun _ => rfl, fun _ => rfl, fun _ => rfl, fun _ => rfl, fun _ => rfl, fun _ => rfl, fun _ => rfl, fun _ => rfl, fun _ => rfl, fun _ => rfl, fun _ => rfl, fun _ => rfl, fun _ => rfl, fun _ => rfl, fun _ => rfl, fun _ => rfl, fun _ => rfl, fun _ => rfl, fun _ => rfl, fun _ => rfl, fun _ => rfl, fun _ => rfl, fun _ => rfl, fun _ => rfl, fun _ => rfl, fun _ => rfl, fun _ => rfl, fun _ => rfl, fun _ => rfl, fun _ => rfl, fun _ => rfl, fun _ => rfl, fun _ => rfl, fun _ => rfl, fun _ => rfl, fun _ => rfl, fun _ => rfl, fun _ => rfl, fun _ => rfl, fun _ => rfl, fun _ => rfl, fun _ => rfl, fun _ => rfl, fun _ => rfl, fun _ => rfl, fun _ => rfl, fun _ => rfl, fun _ => rfl, fun _ => rfl, fun _ => rfl, fun _ => rfl, fun _ => rfl, fun _ => rfl, fun _ => rfl, fun _ => rfl, fun _ => rfl, fun _ => rfl, fun _ => rfl, fun _ => rfl, fun _ => rfl, fun _ => rfl, fun _ => rfl, fun _ => rfl, fun _ => rfl, fun _ => rfl, fun _ => rfl, fun _ => rfl, fun _ => rfl, fun _ => rfl, fun _ => rfl, fun _ => rfl, fun _ => rfl, fun _ => rfl, fun _ => rfl, fun _ => rfl, fun _ => rfl, fun _ => rfl, fun _ => rfl, fun _ => rfl, fun _ => rfl, fun _ => rfl, fun _ => rfl, fun _ => rfl, fun _ => rfl, fun _ => rfl, fun _ => rfl, fun _ => rfl, fun _ => rfl, fun _ => rfl, fun _ => rfl, fun k => absurd k (by decide), fun _ => rfl⟩

theorem touch.upd_queues (s : State) (v0) : touch 0x200000 s { s with queues := v0 } :=
  ⟨fun _ _ => rfl, fun _ _ _ h => h, fun _ => rfl, fun _ => rfl, fun _ => rfl, fun _ => rfl, fun _ => rfl, fun _ => rfl, fun _ => rfl, fun _ => rfl, fun _ => rfl, fun _ => rfl, fun _ => rfl, fun _ => rfl, fun _ => rfl, fun _ => rfl, fun _ => rfl, fun _ => rfl, fun _ => rfl, fun _ => rfl, fun _ => rfl, fun _ => rfl, fun _ => rfl, fun k => absurd k (by decide), fun _ => rfl, fun _ => rfl, fun _ => rfl, fun _ => rfl, fun _ => rfl, fun _ => rfl, fun _ => rfl, fun _ => rfl, fun _ => rfl, fun _ => rfl, fun _ => rfl, fun _ => rfl, fun _ => rfl, fun _ => rfl, fun _ => rfl, fun _ => rfl, fun _ => rfl, fun _ => rfl, fun _ => rfl, fun _ => rfl, fun _ => rfl, fun _ => rfl, fun _ => rfl, fun _ => rfl, fun _ => rfl, fun _ => rfl, fun _ => rfl, fun _ => rfl, fun _ => rfl, fun _ => rfl, fun _ => rfl, fun _ => rfl, fun _ => rfl, fun _ => rfl, fun _ => rfl, fun _ => rfl, fun _ => rfl, fun _ => rfl, fun _ => rfl, fun _ => rfl, fun _ => rfl, fun _ => rfl, fun _ => rfl, fun _ => rfl, fun _ => rfl, fun _ => rfl, fun _ => rfl, fun _ => rfl, fun _ => rfl, fun _ => rfl, fun _ => rfl, fun _ => rfl, fun _ => rfl, fun _ => rfl, fun _ => rfl, fun _ => rfl, fun _ => rfl, fun _ => rfl, fun _ => rfl, fun _ => rfl, fun _ => rfl, fun _ => rfl, fun _ => rfl, fun _ => rfl, fun _ => rfl, fun _ => rfl, fun _ => rfl, fun _ => rfl, fun _ => rfl, fun _ => rfl, fun _ => rfl, fun _ => rfl, fun _ => rfl, fun _ => rfl⟩

theorem touch.upd_records (s : State) (v0) : touch 0x400000 s { s with records := v0 } :=
  ⟨fun _ _ => rfl, fun _ _ _ h => h, fun _ => rfl, fun _ => rfl, fun _ => rfl, fun _ => rfl, fun _ => rfl, fun _ => rfl, fun _ => rfl, fun _ => rfl, fun _ => rfl, fun _ => rfl, fun _ => rfl, fun _ => rfl, fun _ => rfl, fun _ => rfl, fun _ => rfl, fun _ => rfl, fun _ => rfl, fun _ => rfl, fun _ => rfl, fun _ => rfl, fun _ => rfl, fun _ => rfl, fun k => absurd k (by decide), fun _ => rfl, fun _ => rfl, fun _ => rfl, fun _ => rfl, fun _ => rfl, fun _ => rfl, fun _ => rfl, fun _ => rfl, fun _ => rfl, fun _ => rfl, fun _ => rfl, fun _ => rfl, fun _ => rfl, fun _ => rfl, fun _ => rfl, fun _ => rfl, fun _ => rfl, fun _ => rfl, fun _ => rfl, fun _ => rfl, fun _ => rfl, fun _ => rfl, fun _ => rfl, fun _ => rfl, fun _ => rfl, fun _ => rfl, fun _ => rfl, fun _ => rfl, fun _ => rfl, fun _ => rfl, fun _ => rfl, fun _ => rfl, fun _ => rfl, fun _ => rfl, fun _ => rfl, fun _ => rfl, fun _ => rfl, fun _ => rfl, fun _ => rfl, fun _ => rfl, fun _ => rfl, fun _ => rfl, fun _ => rfl, fun _ => rfl, fun _ => rfl, fun _ => rfl, fun _ => rfl, fun _ => rfl, fun _ => rfl, fun _ => rfl, fun _ => rfl, fun _ => rfl, fun _ => rfl, fun _ => rfl, fun _ => rfl, fun _ => rfl, fun _ => rfl, fun _ => rfl, fun _ => rfl, fun _ => rfl, fun _ => rfl, fun _ => rfl, fun _ => rfl, fun _ => rfl, fun _ => rfl, fun _ => rfl, fun _ => rfl, fun _ => rfl, fun _ => rfl, fun _ => rfl, fun _ => rfl, fun _ => rfl, fun _ => rfl⟩

theorem touch.upd_reload (s : State) (v0) : touch 0x10000 s { s with reload := v0 } :=
  ⟨fun _ _ => rfl, fun _ _ _ h => h, fun _ => rfl, fun _ => rfl, fun _ => rfl, fun _ => rfl, fun _ => rfl, fun _ => rfl, fun _ => rfl, fun _ => rfl, fun _ => rfl, fun _ => rfl, fun _ => rfl, fun _ => rfl, fun _ => rfl, fun _ => rfl, fun _ => rfl, fun _ => rfl, fun k => absurd k (by decide), fun _ => rfl, fun _ => rfl, fun _ => rfl, fun _ => rfl, fun _ => rfl, fun _ => rfl, fun _ => rfl, fun _ => rfl, fun _ => rfl, fun _ => rfl, fun _ => rfl, fun _ => rfl, fun _ => rfl, fun _ => rfl, fun _ => rfl, fun _ => rfl, fun _ => rfl, fun _ => rfl, fun _ => rfl, fun _ => rfl, fun _ => rfl, fun _ => rfl, fun _ => rfl, fun _ => rfl, fun _ => rfl, fun _ => rfl, fun _ => rfl, fun _ => rfl, fun _ => rfl, fun _ => rfl, fun _ => rfl, fun _ => rfl, fun _ => rfl, fun _ => rfl, fun _ => rfl, fun _ => rfl, fun _ => rfl, fun _ => rfl, fun _ => rfl, fun _ => rfl, fun _ => rfl, fun _ => rfl, fun _ => rfl, fun _ => rfl, fun _ => rfl, fun _ => rfl, fun _ => rfl, fun _ => rfl, fun _ => rfl, fun _ => rfl, fun _ => rfl, fun _ => rfl, fun _ => rfl, fun _ => rfl, fun _ => rfl, fun _ => rfl, fun _ => rfl, fun _ => rfl, fun _ => rfl, fun _ => rfl, fun _ => rfl, fun _ => rfl, fun _ => rfl, fun _ => rfl, fun _ => rfl, fun _ => rfl, fun _ => rfl, fun _ => rfl, fun _ => rfl, fun _ => rfl, fun _ => rfl, fun _ => rfl, fun _ => rfl, fun _ => rfl, fun _ => rfl, fun _ => rfl, fun _ => rfl, fun _ => rfl, fun _ => rfl⟩

theorem touch.upd_requesters (s : State) (v0) : touch 0x1000000000000 s { s with requesters := v0 } :=
  ⟨fun _ _ => rfl, fun _ _ _ h => h, fun _ => rfl, fun _ => rfl, fun _ => rfl, fun _ => rfl, fun _ => rfl, fun _ => rfl, fun _ => rfl, fun _ => rfl, fun _ => rfl, fun _ => rfl, fun _ => rfl, fun _ => rfl, fun _ => rfl, fun _ => rfl, fun _ => rfl, fun _ => rfl, fun _ => rfl, fun _ => rfl, fun _ => rfl, fun _ => rfl, fun _ => rfl, fun _ => rfl, fun _ => rfl, fun _ => rfl, fun _ => rfl, fun _ => rfl, fun _ => rfl, fun _ => rfl, fun _ => rfl, fun _ => rfl, fun _ => rfl, fun _ => rfl, fun _ => rfl, fun _ => rfl, fun _ => rfl, fun _ => rfl, fun _ => rfl, fun _ => rfl, fun _ => rfl, fun _ => rfl, fun _ => rfl, fun _ => rfl, fun _ => rfl, fun _ => rfl, fun _ => rfl, fun _ => rfl, fun _ => rfl, fun _ => rfl, fun k => absurd k (by decide), fun _ => rfl, fun _ => rfl, fun _ => rfl, fun _ => rfl, fun _ => rfl, fun _ => rfl, fun _ => rfl, fun _ => rfl, fun _ => rfl, fun _ => rfl, fun _ => rfl, fun _ => rfl, fun _ => rfl, fun _ => rfl, fun _ => rfl, fun _ => rfl, fun _ => rfl, fun _ => rfl, fun _ => rfl, fun _ => rfl, fun _ => rfl, fun _ => rfl, fun _ => rfl, fun _ => rfl, fun _ => rfl, fun _ => rfl, fun _ => rfl, fun _ => rfl, fun _ => rfl, fun _ => rfl, fun _ => rfl, fun _ => rfl, fun _ => rfl, fun _ => rfl, fun _ => rfl, fun _ => rfl, fun _ => rfl, fun _ => rfl, fun _ => rfl, fun _ => rfl, fun _ => rfl, fun _ => rfl, fun _ => rfl, fun _ => rfl, fun _ => rfl, fun _ => rfl, fun _ => rfl⟩

theorem touch.upd_rings (s : State) (v0) : touch 0x1000000000000000000 s { s with rings := v0 } :=
  ⟨fun _ _ => rfl, fun _ _ _ h => h, fun _ => rfl, fun _ => rfl, fun _ => rfl, fun _ => rfl, fun _ => rfl, fun _ => rfl, fun _ => rfl, fun _ => rfl, fun _ => rfl, fun _ => rfl, fun _ => rfl, fun _ => rfl, fun _ => rfl, fun _ => rfl, fun _ => rfl, fun _ => rfl, fun _ => rfl, fun _ => rfl, fun _ => rfl, fun _ => rfl, fun _ => rfl, fun _ => rfl, fun _ => rfl, fun _ => rfl, fun _ => rfl, fun _ => rfl, fun _ => rfl, fun _ => rfl, fun _ => rfl, fun _ => rfl, fun _ => rfl, fun _ => rfl, fun _ => rfl, fun _ => rfl, fun _ => rfl, fun _ => rfl, fun _ => rfl, fun _ => rfl, fun _ => rfl, fun _ => rfl, fun _ => rfl, fun _ => rfl, fun _ => rfl, fun _ => rfl, fun _ => rfl, fun _ => rfl, fun _ => rfl, fun _ => rfl, fun _ => rfl, fun _ => rfl, fun _ => rfl, fun _ => rfl, fun _ => rfl, fun _ => rfl, fun _ => rfl, fun _ => rfl, fun _ => rfl, fun _ => rfl, fun _ => rfl, fun _ => rfl, fun _ => rfl, fun _ => rfl, fun _ => rfl, fun _ => rfl, fun _ => rfl, fun _ => rfl, fun _ => rfl, fun _ => rfl, fun _ => rfl, fun _ => rfl, fun _ => rfl, fun _ => rfl, fun k => absurd k (by decide), fun _ => rfl, fun _ => rfl, fun _ => rfl, fun _ => rfl, fun _ => rfl, fun _ => rfl, fun _ => rfl, fun _ => rfl, fun _ => rfl, fun _ => rfl, fun _ => rfl, fun _ => rfl, fun _ => rfl, fun _ => rfl, fun _ => rfl, fun _ => rfl, fun _ => rfl, fun _ => rfl, fun _ => rfl, fun _ => rfl, fun _ => rfl, fun _ => rfl, fun _ => rfl⟩

theorem touch.upd_sealRequests (s : State) (v0) : touch 0x400 s { s with sealRequests := v0 } :=
  ⟨fun _ _ => rfl, fun _ _ _ h => h, fun _ => rfl, fun _ => rfl, fun _ => rfl, fun _ => rfl, fun _ => rfl, fun _ => rfl, fun _ => rfl, fun _ => rfl, fun _ => rfl, fun _ => rfl, fun k => absurd k (by decide), fun _ => rfl, fun _ => rfl, fun _ => rfl, fun _ => rfl, fun _ => rfl, fun _ => rfl, fun _ => rfl, fun _ => rfl, fun _ => rfl, fun _ => rfl, fun _ => rfl, fun _ => rfl, fun _ => rfl, fun _ => rfl, fun _ => rfl, fun _ => rfl, fun _ => rfl, fun _ => rfl, fun _ => rfl, fun _ => rfl, fun _ => rfl, fun _ => rfl, fun _ => rfl, fun _ => rfl, fun _ => rfl, fun _ => rfl, fun _ => rfl, fun _ => rfl, fun _ => rfl, fun _ => rfl, fun _ => rfl, fun _ => rfl, fun _ => rfl, fun _ => rfl, fun _ => rfl, fun _ => rfl, fun _ => rfl, fun _ => rfl, fun _ => rfl, fun _ => rfl, fun _ => rfl, fun _ => rfl, fun _ => rfl, fun _ => rfl, fun _ => rfl, fun _ => rfl, fun _ => rfl, fun _ => rfl, fun _ => rfl, fun _ => rfl, fun _ => rfl, fun _ => rfl, fun _ => rfl, fun _ => rfl, fun _ => rfl, fun _ => rfl, fun _ => rfl, fun _ => rfl, fun _ => rfl, fun _ => rfl, fun _ => rfl, fun _ => rfl, fun _ => rfl, fun _ => rfl, fun _ => rfl, fun _ => rfl, fun _ => rfl, fun _ => rfl, fun _ => rfl, fun _ => rfl, fun _ => rfl, fun _ => rfl, fun _ => rfl, fun _ => rfl, fun _ => rfl, fun _ => rfl, fun _ => rfl, fun _ => rfl, fun _ => rfl, fun _ => rfl, fun _ => rfl, fun _ => rfl, fun _ => rfl, fun _ => rfl, fun _ => rfl⟩

theorem touch.upd_shadow (s : State) (v0) : touch 0x4000000000000000000000 s { s with shadow := v0 } :=
  ⟨fun _ _ => rfl, fun _ _ _ h => h, fun _ => rfl, fun _ => rfl, fun _ => rfl, fun _ => rfl, fun _ => rfl, fun _ => rfl, fun _ => rfl, fun _ => rfl, fun _ => rfl, fun _ => rfl, fun _ => rfl, fun _ => rfl, fun _ => rfl, fun _ => rfl, fun _ => rfl, fun _ => rfl, fun _ => rfl, fun _ => rfl, fun _ => rfl, fun _ => rfl, fun _ => rfl, fun _ => rfl, fun _ => rfl, fun _ => rfl, fun _ => rfl, fun _ => rfl, fun _ => rfl, fun _ => rfl, fun _ => rfl, fun _ => rfl, fun _ => rfl, fun _ => rfl, fun _ => rfl, fun _ => rfl, fun _ => rfl, fun _ => rfl, fun _ => rfl, fun _ => rfl, fun _ => rfl, fun _ => rfl, fun _ => rfl, fun _ => rfl, fun _ => rfl, fun _ => rfl, fun _ => rfl, fun _ => rfl, fun _ => rfl, fun _ => rfl, fun _ => rfl, fun _ => rfl, fun _ => rfl, fun _ => rfl, fun _ => rfl, fun _ => rfl, fun _ => rfl, fun _ => rfl, fun _ => rfl, fun _ => rfl, fun _ => rfl, fun _ => rfl, fun _ => rfl, fun _ => rfl, fun _ => rfl, fun _ => rfl, fun _ => rfl, fun _ => rfl, fun _ => rfl, fun _ => rfl, fun _ => rfl, fun _ => rfl, fun _ => rfl, fun _ => rfl, fun _ => rfl, fun _ => rfl, fun _ => rfl, fun _ => rfl, fun _ => rfl, fun _ => rfl, fun _ => rfl, fun _ => rfl, fun _ => rfl, fun _ => rfl, fun _ => rfl, fun _ => rfl, fun _ => rfl, fun _ => rfl, fun k => absurd k (by decide), fun _ => rfl, fun _ => rfl, fun _ => rfl, fun _ => rfl, fun _ => rfl, fun _ => rfl, fun _ => rfl, fun _ => rfl, fun _ => rfl⟩

theorem touch.upd_slotWrite (s : State) (v0) : touch 0x20000 s { s with slotWrite := v0 } :=
  ⟨fun _ _ => rfl, fun _ _ _ h => h, fun _ => rfl, fun _ => rfl, fun _ => rfl, fun _ => rfl, fun _ => rfl, fun _ => rfl, fun _ => rfl, fun _ => rfl, fun _ => rfl, fun _ => rfl, fun _ => rfl, fun _ => rfl, fun _ => rfl, fun _ => rfl, fun _ => rfl, fun _ => rfl, fun _ => rfl, fun k => absurd k (by decide), fun _ => rfl, fun _ => rfl, fun _ => rfl, fun _ => rfl, fun _ => rfl, fun _ => rfl, fun _ => rfl, fun _ => rfl, fun _ => rfl, fun _ => rfl, fun _ => rfl, fun _ => rfl, fun _ => rfl, fun _ => rfl, fun _ => rfl, fun _ => rfl, fun _ => rfl, fun _ => rfl, fun _ => rfl, fun _ => rfl, fun _ => rfl, fun _ => rfl, fun _ => rfl, fun _ => rfl, fun _ => rfl, fun _ => rfl, fun _ => rfl, fun _ => rfl, fun _ => rfl, fun _ => rfl, fun _ => rfl, fun _ => rfl, fun _ => rfl, fun _ => rfl, fun _ => rfl, fun _ => rfl, fun _ => rfl, fun _ => rfl, fun _ => rfl, fun _ => rfl, fun _ => rfl, fun _ => rfl, fun _ => rfl, fun _ => rfl, fun _ => rfl, fun _ => rfl, fun _ => rfl, fun _ => rfl, fun _ => rfl, fun _ => rfl, fun _ => rfl, fun _ => rfl, fun _ => rfl, fun _ => rfl, fun _ => rfl, fun _ => rfl, fun _ => rfl, fun _ => rfl, fun _ => rfl, fun _ => rfl, fun _ => rfl, fun _ => rfl, fun _ => rfl, fun _ => rfl, fun _ => rfl, fun _ => rfl, fun _ => rfl, fun _ => rfl, fun _ => rfl, fun _ => rfl, fun _ => rfl, fun _ => rfl, fun _ => rfl, fun _ => rfl, fun _ => rfl, fun _ => rfl, fun _ => rfl, fun _ => rfl⟩

theorem touch.upd_slotsUsed (s : State) (v0) : touch 0x800000000000000000000000 s { s with slotsUsed := v0 } :=
  ⟨fun _ _ => rfl, fun _ _ _ h => h, fun _ => rfl, fun _ => rfl, fun _ => rfl, fun _ => rfl, fun _ => rfl, fun _ => rfl, fun _ => rfl, fun _ => rfl, fun _ => rfl, fun _ => rfl, fun _ => rfl, fun _ => rfl, fun _ => rfl, fun _ => rfl, fun _ => rfl, fun _ => rfl, fun _ => rfl, fun _ => rfl, fun _ => rfl, fun _ => rfl, fun _ => rfl, fun _ => rfl, fun _ => rfl, fun _ => rfl, fun _ => rfl, fun _ => rfl, fun _ => rfl, fun _ => rfl, fun _ => rfl, fun _ => rfl, fun _ => rfl, fun _ => rfl, fun _ => rfl, fun _ => rfl, fun _ => rfl, fun _ => rfl, fun _ => rfl, fun _ => rfl, fun _ => rfl, fun _ => rfl, fun _ => rfl, fun _ => rfl, fun _ => rfl, fun _ => rfl, fun _ => rfl, fun _ => rfl, fun _ => rfl, fun _ => rfl, fun _ => rfl, fun _ => rfl, fun _ => rfl, fun _ => rfl, fun _ => rfl, fun _ => rfl, fun _ => rfl, fun _ => rfl, fun _ => rfl, fun _ => rfl, fun _ => rfl, fun _ => rfl, fun _ => rfl, fun _ => rfl, fun _ => rfl, fun _ => rfl, fun _ => rfl, fun _ => rfl, fun _ => rfl, fun _ => rfl, fun _ => rfl, fun _ => rfl, fun _ => rfl, fun _ => rfl, fun _ => rfl, fun _ => rfl, fun _ => rfl, fun _ => rfl, fun _ => rfl, fun _ => rfl, fun _ => rfl, fun _ => rfl, fun _ => rfl, fun _ => rfl, fun _ => rfl, fun _ => rfl, fun _ => rfl, fun _ => rfl, fun _ => rfl, fun _ => rfl, fun _ => rfl, fun _ => rfl, fun _ => rfl, fun _ => rfl, fun _ => rfl, fun _ => rfl, fun _ => rfl, fun k => absurd k (by decide)⟩

theorem touch.upd_stageHolder (s : State) (v0) : touch 0x4000000 s { s with stageHolder := v0 } :=
  ⟨fun _ _ => rfl, fun _ _ _ h => h, fun _ => rfl, fun _ => rfl, fun _ => rfl, fun _ => rfl, fun _ => rfl, fun _ => rfl, fun _ => rfl, fun _ => rfl, fun _ => rfl, fun _ => rfl, fun _ => rfl, fun _ => rfl, fun _ => rfl, fun _ => rfl, fun _ => rfl, fun _ => rfl, fun _ => rfl, fun _ => rfl, fun _ => rfl, fun _ => rfl, fun _ => rfl, fun _ => rfl, fun _ => rfl, fun _ => rfl, fun _ => rfl, fun _ => rfl, fun k => absurd k (by decide), fun _ => rfl, fun _ => rfl, fun _ => rfl, fun _ => rfl, fun _ => rfl, fun _ => rfl, fun _ => rfl, fun _ => rfl, fun _ => rfl, fun _ => rfl, fun _ => rfl, fun _ => rfl, fun _ => rfl, fun _ => rfl, fun _ => rfl, fun _ => rfl, fun _ => rfl, fun _ => rfl, fun _ => rfl, fun _ => rfl, fun _ => rfl, fun _ => rfl, fun _ => rfl, fun _ => rfl, fun _ => rfl, fun _ => rfl, fun _ => rfl, fun _ => rfl, fun _ => rfl, fun _ => rfl, fun _ => rfl, fun _ => rfl, fun _ => rfl, fun _ => rfl, fun _ => rfl, fun _ => rfl, fun _ => rfl, fun _ => rfl, fun _ => rfl, fun _ => rfl, fun _ => rfl, fun _ => rfl, fun _ => rfl, fun _ => rfl, fun _ => rfl, fun _ => rfl, fun _ => rfl, fun _ => rfl, fun _ => rfl, fun _ => rfl, fun _ => rfl, fun _ => rfl, fun _ => rfl, fun _ => rfl, fun _ => rfl, fun _ => rfl, fun _ => rfl, fun _ => rfl, fun _ => rfl, fun _ => rfl, fun _ => rfl, fun _ => rfl, fun _ => rfl, fun _ => rfl, fun _ => rfl, fun _ => rfl, fun _ => rfl, fun _ => rfl, fun _ => rfl⟩

theorem touch.upd_staged (s : State) (v0) : touch 0x2000 s { s with staged := v0 } :=
  ⟨fun _ _ => rfl, fun _ _ _ h => h, fun _ => rfl, fun _ => rfl, fun _ => rfl, fun _ => rfl, fun _ => rfl, fun _ => rfl, fun _ => rfl, fun _ => rfl, fun _ => rfl, fun _ => rfl, fun _ => rfl, fun _ => rfl, fun _ => rfl, fun k => absurd k (by decide), fun _ => rfl, fun _ => rfl, fun _ => rfl, fun _ => rfl, fun _ => rfl, fun _ => rfl, fun _ => rfl, fun _ => rfl, fun _ => rfl, fun _ => rfl, fun _ => rfl, fun _ => rfl, fun _ => rfl, fun _ => rfl, fun _ => rfl, fun _ => rfl, fun _ => rfl, fun _ => rfl, fun _ => rfl, fun _ => rfl, fun _ => rfl, fun _ => rfl, fun _ => rfl, fun _ => rfl, fun _ => rfl, fun _ => rfl, fun _ => rfl, fun _ => rfl, fun _ => rfl, fun _ => rfl, fun _ => rfl, fun _ => rfl, fun _ => rfl, fun _ => rfl, fun _ => rfl, fun _ => rfl, fun _ => rfl, fun _ => rfl, fun _ => rfl, fun _ => rfl, fun _ => rfl, fun _ => rfl, fun _ => rfl, fun _ => rfl, fun _ => rfl, fun _ => rfl, fun _ => rfl, fun _ => rfl, fun _ => rfl, fun _ => rfl, fun _ => rfl, fun _ => rfl, fun _ => rfl, fun _ => rfl, fun _ => rfl, fun _ => rfl, fun _ => rfl, fun _ => rfl, fun _ => rfl, fun _ => rfl, fun _ => rfl, fun _ => rfl, fun _ => rfl, fun _ => rfl, fun _ => rfl, fun _ => rfl, fun _ => rfl, fun _ => rfl, fun _ => rfl, fun _ => rfl, fun _ => rfl, fun _ => rfl, fun _ => rfl, fun _ => rfl, fun _ => rfl, fun _ => rfl, fun _ => rfl, fun _ => rfl, fun _ => rfl, fun _ => rfl, fun _ => rfl, fun _ => rfl⟩

theorem touch.upd_stagedAt (s : State) (v0) : touch 0x8000000000000000000000 s { s with stagedAt := v0 } :=
  ⟨fun _ _ => rfl, fun _ _ _ h => h, fun _ => rfl, fun _ => rfl, fun _ => rfl, fun _ => rfl, fun _ => rfl, fun _ => rfl, fun _ => rfl, fun _ => rfl, fun _ => rfl, fun _ => rfl, fun _ => rfl, fun _ => rfl, fun _ => rfl, fun _ => rfl, fun _ => rfl, fun _ => rfl, fun _ => rfl, fun _ => rfl, fun _ => rfl, fun _ => rfl, fun _ => rfl, fun _ => rfl, fun _ => rfl, fun _ => rfl, fun _ => rfl, fun _ => rfl, fun _ => rfl, fun _ => rfl, fun _ => rfl, fun _ => rfl, fun _ => rfl, fun _ => rfl, fun _ => rfl, fun _ => rfl, fun _ => rfl, fun _ => rfl, fun _ => rfl, fun _ => rfl, fun _ => rfl, fun _ => rfl, fun _ => rfl, fun _ => rfl, fun _ => rfl, fun _ => rfl, fun _ => rfl, fun _ => rfl, fun _ => rfl, fun _ => rfl, fun _ => rfl, fun _ => rfl, fun _ => rfl, fun _ => rfl, fun _ => rfl, fun _ => rfl, fun _ => rfl, fun _ => rfl, fun _ => rfl, fun _ => rfl, fun _ => rfl, fun _ => rfl, fun _ => rfl, fun _ => rfl, fun _ => rfl, fun _ => rfl, fun _ => rfl, fun _ => rfl, fun _ => rfl, fun _ => rfl, fun _ => rfl, fun _ => rfl, fun _ => rfl, fun _ => rfl, fun _ => rfl, fun _ => rfl, fun _ => rfl, fun _ => rfl, fun _ => rfl, fun _ => rfl, fun _ => rfl, fun _ => rfl, fun _ => rfl, fun _ => rfl, fun _ => rfl, fun _ => rfl, fun _ => rfl, fun _ => rfl, fun _ => rfl, fun k => absurd k (by decide), fun _ => rfl, fun _ => rfl, fun _ => rfl, fun _ => rfl, fun _ => rfl, fun _ => rfl, fun _ => rfl, fun _ => rfl⟩

theorem touch.upd_staged_loading_loadOrder (s : State) (v0 v1 v2) : touch 0xe000 s { s with staged := v0, loading := v1, loadOrder := v2 } :=
  ⟨fun _ _ => rfl, fun _ _ _ h => h, fun _ => rfl, fun _ => rfl, fun _ => rfl, fun _ => rfl, fun _ => rfl, fun _ => rfl, fun _ => rfl, fun _ => rfl, fun _ => rfl, fun _ => rfl, fun _ => rfl, fun _ => rfl, fun _ => rfl, fun k => absurd k (by decide), fun k => absurd k (by decide), fun k => absurd k (by decide), fun _ => rfl, fun _ => rfl, fun _ => rfl, fun _ => rfl, fun _ => rfl, fun _ => rfl, fun _ => rfl, fun _ => rfl, fun _ => rfl, fun _ => rfl, fun _ => rfl, fun _ => rfl, fun _ => rfl, fun _ => rfl, fun _ => rfl, fun _ => rfl, fun _ => rfl, fun _ => rfl, fun _ => rfl, fun _ => rfl, fun _ => rfl, fun _ => rfl, fun _ => rfl, fun _ => rfl, fun _ => rfl, fun _ => rfl, fun _ => rfl, fun _ => rfl, fun _ => rfl, fun _ => rfl, fun _ => rfl, fun _ => rfl, fun _ => rfl, fun _ => rfl, fun _ => rfl, fun _ => rfl, fun _ => rfl, fun _ => rfl, fun _ => rfl, fun _ => rfl, fun _ => rfl, fun _ => rfl, fun _ => rfl, fun _ => rfl, fun _ => rfl, fun _ => rfl, fun _ => rfl, fun _ => rfl, fun _ => rfl, fun _ => rfl, fun _ => rfl, fun _ => rfl, fun _ => rfl, fun _ => rfl, fun _ => rfl, fun _ => rfl, fun _ => rfl, fun _ => rfl, fun _ => rfl, fun _ => rfl, fun _ => rfl, fun _ => rfl, fun _ => rfl, fun _ => rfl, fun _ => rfl, fun _ => rfl, fun _ => rfl, fun _ => rfl, fun _ => rfl, fun _ => rfl, fun _ => rfl, fun _ => rfl, fun _ => rfl, fun _ => rfl, fun _ => rfl, fun _ => rfl, fun _ => rfl, fun _ => rfl, fun _ => rfl, fun _ => rfl⟩

theorem touch.upd_staged_reload_modes (s : State) (v0 v1 v2) : touch 0x80012000 s { s with staged := v0, reload := v1, modes := v2 } :=
  ⟨fun _ _ => rfl, fun _ _ _ h => h, fun _ => rfl, fun _ => rfl, fun _ => rfl, fun _ => rfl, fun _ => rfl, fun _ => rfl, fun _ => rfl, fun _ => rfl, fun _ => rfl, fun _ => rfl, fun _ => rfl, fun _ => rfl, fun _ => rfl, fun k => absurd k (by decide), fun _ => rfl, fun _ => rfl, fun k => absurd k (by decide), fun _ => rfl, fun _ => rfl, fun _ => rfl, fun _ => rfl, fun _ => rfl, fun _ => rfl, fun _ => rfl, fun _ => rfl, fun _ => rfl, fun _ => rfl, fun _ => rfl, fun _ => rfl, fun _ => rfl, fun _ => rfl, fun k => absurd k (by decide), fun _ => rfl, fun _ => rfl, fun _ => rfl, fun _ => rfl, fun _ => rfl, fun _ => rfl, fun _ => rfl, fun _ => rfl, fun _ => rfl, fun _ => rfl, fun _ => rfl, fun _ => rfl, fun _ => rfl, fun _ => rfl, fun _ => rfl, fun _ => rfl, fun _ => rfl, fun _ => rfl, fun _ => rfl, fun _ => rfl, fun _ => rfl, fun _ => rfl, fun _ => rfl, fun _ => rfl, fun _ => rfl, fun _ => rfl, fun _ => rfl, fun _ => rfl, fun _ => rfl, fun _ => rfl, fun _ => rfl, fun _ => rfl, fun _ => rfl, fun _ => rfl, fun _ => rfl, fun _ => rfl, fun _ => rfl, fun _ => rfl, fun _ => rfl, fun _ => rfl, fun _ => rfl, fun _ => rfl, fun _ => rfl, fun _ => rfl, fun _ => rfl, fun _ => rfl, fun _ => rfl, fun _ => rfl, fun _ => rfl, fun _ => rfl, fun _ => rfl, fun _ => rfl, fun _ => rfl, fun _ => rfl, fun _ => rfl, fun _ => rfl, fun _ => rfl, fun _ => rfl, fun _ => rfl, fun _ => rfl, fun _ => rfl, fun _ => rfl, fun _ => rfl, fun _ => rfl⟩

theorem touch.upd_staged_slotWrite (s : State) (v0 v1) : touch 0x22000 s { s with staged := v0, slotWrite := v1 } :=
  ⟨fun _ _ => rfl, fun _ _ _ h => h, fun _ => rfl, fun _ => rfl, fun _ => rfl, fun _ => rfl, fun _ => rfl, fun _ => rfl, fun _ => rfl, fun _ => rfl, fun _ => rfl, fun _ => rfl, fun _ => rfl, fun _ => rfl, fun _ => rfl, fun k => absurd k (by decide), fun _ => rfl, fun _ => rfl, fun _ => rfl, fun k => absurd k (by decide), fun _ => rfl, fun _ => rfl, fun _ => rfl, fun _ => rfl, fun _ => rfl, fun _ => rfl, fun _ => rfl, fun _ => rfl, fun _ => rfl, fun _ => rfl, fun _ => rfl, fun _ => rfl, fun _ => rfl, fun _ => rfl, fun _ => rfl, fun _ => rfl, fun _ => rfl, fun _ => rfl, fun _ => rfl, fun _ => rfl, fun _ => rfl, fun _ => rfl, fun _ => rfl, fun _ => rfl, fun _ => rfl, fun _ => rfl, fun _ => rfl, fun _ => rfl, fun _ => rfl, fun _ => rfl, fun _ => rfl, fun _ => rfl, fun _ => rfl, fun _ => rfl, fun _ => rfl, fun _ => rfl, fun _ => rfl, fun _ => rfl, fun _ => rfl, fun _ => rfl, fun _ => rfl, fun _ => rfl, fun _ => rfl, fun _ => rfl, fun _ => rfl, fun _ => rfl, fun _ => rfl, fun _ => rfl, fun _ => rfl, fun _ => rfl, fun _ => rfl, fun _ => rfl, fun _ => rfl, fun _ => rfl, fun _ => rfl, fun _ => rfl, fun _ => rfl, fun _ => rfl, fun _ => rfl, fun _ => rfl, fun _ => rfl, fun _ => rfl, fun _ => rfl, fun _ => rfl, fun _ => rfl, fun _ => rfl, fun _ => rfl, fun _ => rfl, fun _ => rfl, fun _ => rfl, fun _ => rfl, fun _ => rfl, fun _ => rfl, fun _ => rfl, fun _ => rfl, fun _ => rfl, fun _ => rfl, fun _ => rfl⟩

theorem touch.upd_staging (s : State) (v0) : touch 0x2000000 s { s with staging := v0 } :=
  ⟨fun _ _ => rfl, fun _ _ _ h => h, fun _ => rfl, fun _ => rfl, fun _ => rfl, fun _ => rfl, fun _ => rfl, fun _ => rfl, fun _ => rfl, fun _ => rfl, fun _ => rfl, fun _ => rfl, fun _ => rfl, fun _ => rfl, fun _ => rfl, fun _ => rfl, fun _ => rfl, fun _ => rfl, fun _ => rfl, fun _ => rfl, fun _ => rfl, fun _ => rfl, fun _ => rfl, fun _ => rfl, fun _ => rfl, fun _ => rfl, fun _ => rfl, fun k => absurd k (by decide), fun _ => rfl, fun _ => rfl, fun _ => rfl, fun _ => rfl, fun _ => rfl, fun _ => rfl, fun _ => rfl, fun _ => rfl, fun _ => rfl, fun _ => rfl, fun _ => rfl, fun _ => rfl, fun _ => rfl, fun _ => rfl, fun _ => rfl, fun _ => rfl, fun _ => rfl, fun _ => rfl, fun _ => rfl, fun _ => rfl, fun _ => rfl, fun _ => rfl, fun _ => rfl, fun _ => rfl, fun _ => rfl, fun _ => rfl, fun _ => rfl, fun _ => rfl, fun _ => rfl, fun _ => rfl, fun _ => rfl, fun _ => rfl, fun _ => rfl, fun _ => rfl, fun _ => rfl, fun _ => rfl, fun _ => rfl, fun _ => rfl, fun _ => rfl, fun _ => rfl, fun _ => rfl, fun _ => rfl, fun _ => rfl, fun _ => rfl, fun _ => rfl, fun _ => rfl, fun _ => rfl, fun _ => rfl, fun _ => rfl, fun _ => rfl, fun _ => rfl, fun _ => rfl, fun _ => rfl, fun _ => rfl, fun _ => rfl, fun _ => rfl, fun _ => rfl, fun _ => rfl, fun _ => rfl, fun _ => rfl, fun _ => rfl, fun _ => rfl, fun _ => rfl, fun _ => rfl, fun _ => rfl, fun _ => rfl, fun _ => rfl, fun _ => rfl, fun _ => rfl, fun _ => rfl⟩

theorem touch.upd_staging_stageHolder (s : State) (v0 v1) : touch 0x6000000 s { s with staging := v0, stageHolder := v1 } :=
  ⟨fun _ _ => rfl, fun _ _ _ h => h, fun _ => rfl, fun _ => rfl, fun _ => rfl, fun _ => rfl, fun _ => rfl, fun _ => rfl, fun _ => rfl, fun _ => rfl, fun _ => rfl, fun _ => rfl, fun _ => rfl, fun _ => rfl, fun _ => rfl, fun _ => rfl, fun _ => rfl, fun _ => rfl, fun _ => rfl, fun _ => rfl, fun _ => rfl, fun _ => rfl, fun _ => rfl, fun _ => rfl, fun _ => rfl, fun _ => rfl, fun _ => rfl, fun k => absurd k (by decide), fun k => absurd k (by decide), fun _ => rfl, fun _ => rfl, fun _ => rfl, fun _ => rfl, fun _ => rfl, fun _ => rfl, fun _ => rfl, fun _ => rfl, fun _ => rfl, fun _ => rfl, fun _ => rfl, fun _ => rfl, fun _ => rfl, fun _ => rfl, fun _ => rfl, fun _ => rfl, fun _ => rfl, fun _ => rfl, fun _ => rfl, fun _ => rfl, fun _ => rfl, fun _ => rfl, fun _ => rfl, fun _ => rfl, fun _ => rfl, fun _ => rfl, fun _ => rfl, fun _ => rfl, fun _ => rfl, fun _ => rfl, fun _ => rfl, fun _ => rfl, fun _ => rfl, fun _ => rfl, fun _ => rfl, fun _ => rfl, fun _ => rfl, fun _ => rfl, fun _ => rfl, fun _ => rfl, fun _ => rfl, fun _ => rfl, fun _ => rfl, fun _ => rfl, fun _ => rfl, fun _ => rfl, fun _ => rfl, fun _ => rfl, fun _ => rfl, fun _ => rfl, fun _ => rfl, fun _ => rfl, fun _ => rfl, fun _ => rfl, fun _ => rfl, fun _ => rfl, fun _ => rfl, fun _ => rfl, fun _ => rfl, fun _ => rfl, fun _ => rfl, fun _ => rfl, fun _ => rfl, fun _ => rfl, fun _ => rfl, fun _ => rfl, fun _ => rfl, fun _ => rfl, fun _ => rfl⟩

theorem touch.upd_streams (s : State) (v0) : touch 0x8000000000 s { s with streams := v0 } :=
  ⟨fun _ _ => rfl, fun _ _ _ h => h, fun _ => rfl, fun _ => rfl, fun _ => rfl, fun _ => rfl, fun _ => rfl, fun _ => rfl, fun _ => rfl, fun _ => rfl, fun _ => rfl, fun _ => rfl, fun _ => rfl, fun _ => rfl, fun _ => rfl, fun _ => rfl, fun _ => rfl, fun _ => rfl, fun _ => rfl, fun _ => rfl, fun _ => rfl, fun _ => rfl, fun _ => rfl, fun _ => rfl, fun _ => rfl, fun _ => rfl, fun _ => rfl, fun _ => rfl, fun _ => rfl, fun _ => rfl, fun _ => rfl, fun _ => rfl, fun _ => rfl, fun _ => rfl, fun _ => rfl, fun _ => rfl, fun _ => rfl, fun _ => rfl, fun _ => rfl, fun _ => rfl, fun _ => rfl, fun k => absurd k (by decide), fun _ => rfl, fun _ => rfl, fun _ => rfl, fun _ => rfl, fun _ => rfl, fun _ => rfl, fun _ => rfl, fun _ => rfl, fun _ => rfl, fun _ => rfl, fun _ => rfl, fun _ => rfl, fun _ => rfl, fun _ => rfl, fun _ => rfl, fun _ => rfl, fun _ => rfl, fun _ => rfl, fun _ => rfl, fun _ => rfl, fun _ => rfl, fun _ => rfl, fun _ => rfl, fun _ => rfl, fun _ => rfl, fun _ => rfl, fun _ => rfl, fun _ => rfl, fun _ => rfl, fun _ => rfl, fun _ => rfl, fun _ => rfl, fun _ => rfl, fun _ => rfl, fun _ => rfl, fun _ => rfl, fun _ => rfl, fun _ => rfl, fun _ => rfl, fun _ => rfl, fun _ => rfl, fun _ => rfl, fun _ => rfl, fun _ => rfl, fun _ => rfl, fun _ => rfl, fun _ => rfl, fun _ => rfl, fun _ => rfl, fun _ => rfl, fun _ => rfl, fun _ => rfl, fun _ => rfl, fun _ => rfl, fun _ => rfl, fun _ => rfl⟩

theorem touch.upd_time (s : State) (v0) : touch 0x8000000000000000000 s { s with time := v0 } :=
  ⟨fun _ _ => rfl, fun _ _ _ h => h, fun _ => rfl, fun _ => rfl, fun _ => rfl, fun _ => rfl, fun _ => rfl, fun _ => rfl, fun _ => rfl, fun _ => rfl, fun _ => rfl, fun _ => rfl, fun _ => rfl, fun _ => rfl, fun _ => rfl, fun _ => rfl, fun _ => rfl, fun _ => rfl, fun _ => rfl, fun _ => rfl, fun _ => rfl, fun _ => rfl, fun _ => rfl, fun _ => rfl, fun _ => rfl, fun _ => rfl, fun _ => rfl, fun _ => rfl, fun _ => rfl, fun _ => rfl, fun _ => rfl, fun _ => rfl, fun _ => rfl, fun _ => rfl, fun _ => rfl, fun _ => rfl, fun _ => rfl, fun _ => rfl, fun _ => rfl, fun _ => rfl, fun _ => rfl, fun _ => rfl, fun _ => rfl, fun _ => rfl, fun _ => rfl, fun _ => rfl, fun _ => rfl, fun _ => rfl, fun _ => rfl, fun _ => rfl, fun _ => rfl, fun _ => rfl, fun _ => rfl, fun _ => rfl, fun _ => rfl, fun _ => rfl, fun _ => rfl, fun _ => rfl, fun _ => rfl, fun _ => rfl, fun _ => rfl, fun _ => rfl, fun _ => rfl, fun _ => rfl, fun _ => rfl, fun _ => rfl, fun _ => rfl, fun _ => rfl, fun _ => rfl, fun _ => rfl, fun _ => rfl, fun _ => rfl, fun _ => rfl, fun _ => rfl, fun _ => rfl, fun _ => rfl, fun _ => rfl, fun k => absurd k (by decide), fun _ => rfl, fun _ => rfl, fun _ => rfl, fun _ => rfl, fun _ => rfl, fun _ => rfl, fun _ => rfl, fun _ => rfl, fun _ => rfl, fun _ => rfl, fun _ => rfl, fun _ => rfl, fun _ => rfl, fun _ => rfl, fun _ => rfl, fun _ => rfl, fun _ => rfl, fun _ => rfl, fun _ => rfl, fun _ => rfl⟩

theorem touch.upd_tow (s : State) (v0) : touch 0x800000 s { s with tow := v0 } :=
  ⟨fun _ _ => rfl, fun _ _ _ h => h, fun _ => rfl, fun _ => rfl, fun _ => rfl, fun _ => rfl, fun _ => rfl, fun _ => rfl, fun _ => rfl, fun _ => rfl, fun _ => rfl, fun _ => rfl, fun _ => rfl, fun _ => rfl, fun _ => rfl, fun _ => rfl, fun _ => rfl, fun _ => rfl, fun _ => rfl, fun _ => rfl, fun _ => rfl, fun _ => rfl, fun _ => rfl, fun _ => rfl, fun _ => rfl, fun k => absurd k (by decide), fun _ => rfl, fun _ => rfl, fun _ => rfl, fun _ => rfl, fun _ => rfl, fun _ => rfl, fun _ => rfl, fun _ => rfl, fun _ => rfl, fun _ => rfl, fun _ => rfl, fun _ => rfl, fun _ => rfl, fun _ => rfl, fun _ => rfl, fun _ => rfl, fun _ => rfl, fun _ => rfl, fun _ => rfl, fun _ => rfl, fun _ => rfl, fun _ => rfl, fun _ => rfl, fun _ => rfl, fun _ => rfl, fun _ => rfl, fun _ => rfl, fun _ => rfl, fun _ => rfl, fun _ => rfl, fun _ => rfl, fun _ => rfl, fun _ => rfl, fun _ => rfl, fun _ => rfl, fun _ => rfl, fun _ => rfl, fun _ => rfl, fun _ => rfl, fun _ => rfl, fun _ => rfl, fun _ => rfl, fun _ => rfl, fun _ => rfl, fun _ => rfl, fun _ => rfl, fun _ => rfl, fun _ => rfl, fun _ => rfl, fun _ => rfl, fun _ => rfl, fun _ => rfl, fun _ => rfl, fun _ => rfl, fun _ => rfl, fun _ => rfl, fun _ => rfl, fun _ => rfl, fun _ => rfl, fun _ => rfl, fun _ => rfl, fun _ => rfl, fun _ => rfl, fun _ => rfl, fun _ => rfl, fun _ => rfl, fun _ => rfl, fun _ => rfl, fun _ => rfl, fun _ => rfl, fun _ => rfl, fun _ => rfl⟩

theorem touch.upd_virt (s : State) (v0) : touch 0x4000000000000000 s { s with virt := v0 } :=
  ⟨fun _ _ => rfl, fun _ _ _ h => h, fun _ => rfl, fun _ => rfl, fun _ => rfl, fun _ => rfl, fun _ => rfl, fun _ => rfl, fun _ => rfl, fun _ => rfl, fun _ => rfl, fun _ => rfl, fun _ => rfl, fun _ => rfl, fun _ => rfl, fun _ => rfl, fun _ => rfl, fun _ => rfl, fun _ => rfl, fun _ => rfl, fun _ => rfl, fun _ => rfl, fun _ => rfl, fun _ => rfl, fun _ => rfl, fun _ => rfl, fun _ => rfl, fun _ => rfl, fun _ => rfl, fun _ => rfl, fun _ => rfl, fun _ => rfl, fun _ => rfl, fun _ => rfl, fun _ => rfl, fun _ => rfl, fun _ => rfl, fun _ => rfl, fun _ => rfl, fun _ => rfl, fun _ => rfl, fun _ => rfl, fun _ => rfl, fun _ => rfl, fun _ => rfl, fun _ => rfl, fun _ => rfl, fun _ => rfl, fun _ => rfl, fun _ => rfl, fun _ => rfl, fun _ => rfl, fun _ => rfl, fun _ => rfl, fun _ => rfl, fun _ => rfl, fun _ => rfl, fun _ => rfl, fun _ => rfl, fun _ => rfl, fun _ => rfl, fun _ => rfl, fun _ => rfl, fun _ => rfl, fun k => absurd k (by decide), fun _ => rfl, fun _ => rfl, fun _ => rfl, fun _ => rfl, fun _ => rfl, fun _ => rfl, fun _ => rfl, fun _ => rfl, fun _ => rfl, fun _ => rfl, fun _ => rfl, fun _ => rfl, fun _ => rfl, fun _ => rfl, fun _ => rfl, fun _ => rfl, fun _ => rfl, fun _ => rfl, fun _ => rfl, fun _ => rfl, fun _ => rfl, fun _ => rfl, fun _ => rfl, fun _ => rfl, fun _ => rfl, fun _ => rfl, fun _ => rfl, fun _ => rfl, fun _ => rfl, fun _ => rfl, fun _ => rfl, fun _ => rfl, fun _ => rfl⟩

theorem touch.upd_virtPorts (s : State) (v0) : touch 0x8000000000000000 s { s with virtPorts := v0 } :=
  ⟨fun _ _ => rfl, fun _ _ _ h => h, fun _ => rfl, fun _ => rfl, fun _ => rfl, fun _ => rfl, fun _ => rfl, fun _ => rfl, fun _ => rfl, fun _ => rfl, fun _ => rfl, fun _ => rfl, fun _ => rfl, fun _ => rfl, fun _ => rfl, fun _ => rfl, fun _ => rfl, fun _ => rfl, fun _ => rfl, fun _ => rfl, fun _ => rfl, fun _ => rfl, fun _ => rfl, fun _ => rfl, fun _ => rfl, fun _ => rfl, fun _ => rfl, fun _ => rfl, fun _ => rfl, fun _ => rfl, fun _ => rfl, fun _ => rfl, fun _ => rfl, fun _ => rfl, fun _ => rfl, fun _ => rfl, fun _ => rfl, fun _ => rfl, fun _ => rfl, fun _ => rfl, fun _ => rfl, fun _ => rfl, fun _ => rfl, fun _ => rfl, fun _ => rfl, fun _ => rfl, fun _ => rfl, fun _ => rfl, fun _ => rfl, fun _ => rfl, fun _ => rfl, fun _ => rfl, fun _ => rfl, fun _ => rfl, fun _ => rfl, fun _ => rfl, fun _ => rfl, fun _ => rfl, fun _ => rfl, fun _ => rfl, fun _ => rfl, fun _ => rfl, fun _ => rfl, fun _ => rfl, fun _ => rfl, fun k => absurd k (by decide), fun _ => rfl, fun _ => rfl, fun _ => rfl, fun _ => rfl, fun _ => rfl, fun _ => rfl, fun _ => rfl, fun _ => rfl, fun _ => rfl, fun _ => rfl, fun _ => rfl, fun _ => rfl, fun _ => rfl, fun _ => rfl, fun _ => rfl, fun _ => rfl, fun _ => rfl, fun _ => rfl, fun _ => rfl, fun _ => rfl, fun _ => rfl, fun _ => rfl, fun _ => rfl, fun _ => rfl, fun _ => rfl, fun _ => rfl, fun _ => rfl, fun _ => rfl, fun _ => rfl, fun _ => rfl, fun _ => rfl, fun _ => rfl⟩

theorem touch.upd_virt_virtPorts_aer_aerHeader_rings_doe_doeOrder (s : State) (v0 v1 v2 v3 v4 v5 v6) : touch 0x6106c000000000000000 s { s with virt := v0, virtPorts := v1, aer := v2, aerHeader := v3, rings := v4, doe := v5, doeOrder := v6 } :=
  ⟨fun _ _ => rfl, fun _ _ _ h => h, fun _ => rfl, fun _ => rfl, fun _ => rfl, fun _ => rfl, fun _ => rfl, fun _ => rfl, fun _ => rfl, fun _ => rfl, fun _ => rfl, fun _ => rfl, fun _ => rfl, fun _ => rfl, fun _ => rfl, fun _ => rfl, fun _ => rfl, fun _ => rfl, fun _ => rfl, fun _ => rfl, fun _ => rfl, fun _ => rfl, fun _ => rfl, fun _ => rfl, fun _ => rfl, fun _ => rfl, fun _ => rfl, fun _ => rfl, fun _ => rfl, fun _ => rfl, fun _ => rfl, fun _ => rfl, fun _ => rfl, fun _ => rfl, fun _ => rfl, fun _ => rfl, fun _ => rfl, fun _ => rfl, fun _ => rfl, fun _ => rfl, fun _ => rfl, fun _ => rfl, fun _ => rfl, fun _ => rfl, fun _ => rfl, fun _ => rfl, fun _ => rfl, fun _ => rfl, fun _ => rfl, fun _ => rfl, fun _ => rfl, fun _ => rfl, fun _ => rfl, fun _ => rfl, fun _ => rfl, fun _ => rfl, fun _ => rfl, fun _ => rfl, fun _ => rfl, fun _ => rfl, fun _ => rfl, fun _ => rfl, fun _ => rfl, fun _ => rfl, fun k => absurd k (by decide), fun k => absurd k (by decide), fun _ => rfl, fun k => absurd k (by decide), fun k => absurd k (by decide), fun _ => rfl, fun _ => rfl, fun _ => rfl, fun _ => rfl, fun _ => rfl, fun k => absurd k (by decide), fun _ => rfl, fun _ => rfl, fun _ => rfl, fun _ => rfl, fun k => absurd k (by decide), fun k => absurd k (by decide), fun _ => rfl, fun _ => rfl, fun _ => rfl, fun _ => rfl, fun _ => rfl, fun _ => rfl, fun _ => rfl, fun _ => rfl, fun _ => rfl, fun _ => rfl, fun _ => rfl, fun _ => rfl, fun _ => rfl, fun _ => rfl, fun _ => rfl, fun _ => rfl, fun _ => rfl⟩

theorem touch.upd_vlast (s : State) (v0) : touch 0x20000000000000 s { s with vlast := v0 } :=
  ⟨fun _ _ => rfl, fun _ _ _ h => h, fun _ => rfl, fun _ => rfl, fun _ => rfl, fun _ => rfl, fun _ => rfl, fun _ => rfl, fun _ => rfl, fun _ => rfl, fun _ => rfl, fun _ => rfl, fun _ => rfl, fun _ => rfl, fun _ => rfl, fun _ => rfl, fun _ => rfl, fun _ => rfl, fun _ => rfl, fun _ => rfl, fun _ => rfl, fun _ => rfl, fun _ => rfl, fun _ => rfl, fun _ => rfl, fun _ => rfl, fun _ => rfl, fun _ => rfl, fun _ => rfl, fun _ => rfl, fun _ => rfl, fun _ => rfl, fun _ => rfl, fun _ => rfl, fun _ => rfl, fun _ => rfl, fun _ => rfl, fun _ => rfl, fun _ => rfl, fun _ => rfl, fun _ => rfl, fun _ => rfl, fun _ => rfl, fun _ => rfl, fun _ => rfl, fun _ => rfl, fun _ => rfl, fun _ => rfl, fun _ => rfl, fun _ => rfl, fun _ => rfl, fun _ => rfl, fun _ => rfl, fun _ => rfl, fun _ => rfl, fun k => absurd k (by decide), fun _ => rfl, fun _ => rfl, fun _ => rfl, fun _ => rfl, fun _ => rfl, fun _ => rfl, fun _ => rfl, fun _ => rfl, fun _ => rfl, fun _ => rfl, fun _ => rfl, fun _ => rfl, fun _ => rfl, fun _ => rfl, fun _ => rfl, fun _ => rfl, fun _ => rfl, fun _ => rfl, fun _ => rfl, fun _ => rfl, fun _ => rfl, fun _ => rfl, fun _ => rfl, fun _ => rfl, fun _ => rfl, fun _ => rfl, fun _ => rfl, fun _ => rfl, fun _ => rfl, fun _ => rfl, fun _ => rfl, fun _ => rfl, fun _ => rfl, fun _ => rfl, fun _ => rfl, fun _ => rfl, fun _ => rfl, fun _ => rfl, fun _ => rfl, fun _ => rfl, fun _ => rfl, fun _ => rfl⟩

theorem touch.upd_waiting (s : State) (v0) : touch 0x400000000 s { s with waiting := v0 } :=
  ⟨fun _ _ => rfl, fun _ _ _ h => h, fun _ => rfl, fun _ => rfl, fun _ => rfl, fun _ => rfl, fun _ => rfl, fun _ => rfl, fun _ => rfl, fun _ => rfl, fun _ => rfl, fun _ => rfl, fun _ => rfl, fun _ => rfl, fun _ => rfl, fun _ => rfl, fun _ => rfl, fun _ => rfl, fun _ => rfl, fun _ => rfl, fun _ => rfl, fun _ => rfl, fun _ => rfl, fun _ => rfl, fun _ => rfl, fun _ => rfl, fun _ => rfl, fun _ => rfl, fun _ => rfl, fun _ => rfl, fun _ => rfl, fun _ => rfl, fun _ => rfl, fun _ => rfl, fun _ => rfl, fun _ => rfl, fun k => absurd k (by decide), fun _ => rfl, fun _ => rfl, fun _ => rfl, fun _ => rfl, fun _ => rfl, fun _ => rfl, fun _ => rfl, fun _ => rfl, fun _ => rfl, fun _ => rfl, fun _ => rfl, fun _ => rfl, fun _ => rfl, fun _ => rfl, fun _ => rfl, fun _ => rfl, fun _ => rfl, fun _ => rfl, fun _ => rfl, fun _ => rfl, fun _ => rfl, fun _ => rfl, fun _ => rfl, fun _ => rfl, fun _ => rfl, fun _ => rfl, fun _ => rfl, fun _ => rfl, fun _ => rfl, fun _ => rfl, fun _ => rfl, fun _ => rfl, fun _ => rfl, fun _ => rfl, fun _ => rfl, fun _ => rfl, fun _ => rfl, fun _ => rfl, fun _ => rfl, fun _ => rfl, fun _ => rfl, fun _ => rfl, fun _ => rfl, fun _ => rfl, fun _ => rfl, fun _ => rfl, fun _ => rfl, fun _ => rfl, fun _ => rfl, fun _ => rfl, fun _ => rfl, fun _ => rfl, fun _ => rfl, fun _ => rfl, fun _ => rfl, fun _ => rfl, fun _ => rfl, fun _ => rfl, fun _ => rfl, fun _ => rfl, fun _ => rfl⟩

theorem touch.upd_woken (s : State) (v0) : touch 0x400000000000000 s { s with woken := v0 } :=
  ⟨fun _ _ => rfl, fun _ _ _ h => h, fun _ => rfl, fun _ => rfl, fun _ => rfl, fun _ => rfl, fun _ => rfl, fun _ => rfl, fun _ => rfl, fun _ => rfl, fun _ => rfl, fun _ => rfl, fun _ => rfl, fun _ => rfl, fun _ => rfl, fun _ => rfl, fun _ => rfl, fun _ => rfl, fun _ => rfl, fun _ => rfl, fun _ => rfl, fun _ => rfl, fun _ => rfl, fun _ => rfl, fun _ => rfl, fun _ => rfl, fun _ => rfl, fun _ => rfl, fun _ => rfl, fun _ => rfl, fun _ => rfl, fun _ => rfl, fun _ => rfl, fun _ => rfl, fun _ => rfl, fun _ => rfl, fun _ => rfl, fun _ => rfl, fun _ => rfl, fun _ => rfl, fun _ => rfl, fun _ => rfl, fun _ => rfl, fun _ => rfl, fun _ => rfl, fun _ => rfl, fun _ => rfl, fun _ => rfl, fun _ => rfl, fun _ => rfl, fun _ => rfl, fun _ => rfl, fun _ => rfl, fun _ => rfl, fun _ => rfl, fun _ => rfl, fun _ => rfl, fun _ => rfl, fun _ => rfl, fun _ => rfl, fun k => absurd k (by decide), fun _ => rfl, fun _ => rfl, fun _ => rfl, fun _ => rfl, fun _ => rfl, fun _ => rfl, fun _ => rfl, fun _ => rfl, fun _ => rfl, fun _ => rfl, fun _ => rfl, fun _ => rfl, fun _ => rfl, fun _ => rfl, fun _ => rfl, fun _ => rfl, fun _ => rfl, fun _ => rfl, fun _ => rfl, fun _ => rfl, fun _ => rfl, fun _ => rfl, fun _ => rfl, fun _ => rfl, fun _ => rfl, fun _ => rfl, fun _ => rfl, fun _ => rfl, fun _ => rfl, fun _ => rfl, fun _ => rfl, fun _ => rfl, fun _ => rfl, fun _ => rfl, fun _ => rfl, fun _ => rfl, fun _ => rfl⟩

theorem touch.upd_writeLast (s : State) (v0) : touch 0x20000000000 s { s with writeLast := v0 } :=
  ⟨fun _ _ => rfl, fun _ _ _ h => h, fun _ => rfl, fun _ => rfl, fun _ => rfl, fun _ => rfl, fun _ => rfl, fun _ => rfl, fun _ => rfl, fun _ => rfl, fun _ => rfl, fun _ => rfl, fun _ => rfl, fun _ => rfl, fun _ => rfl, fun _ => rfl, fun _ => rfl, fun _ => rfl, fun _ => rfl, fun _ => rfl, fun _ => rfl, fun _ => rfl, fun _ => rfl, fun _ => rfl, fun _ => rfl, fun _ => rfl, fun _ => rfl, fun _ => rfl, fun _ => rfl, fun _ => rfl, fun _ => rfl, fun _ => rfl, fun _ => rfl, fun _ => rfl, fun _ => rfl, fun _ => rfl, fun _ => rfl, fun _ => rfl, fun _ => rfl, fun _ => rfl, fun _ => rfl, fun _ => rfl, fun _ => rfl, fun k => absurd k (by decide), fun _ => rfl, fun _ => rfl, fun _ => rfl, fun _ => rfl, fun _ => rfl, fun _ => rfl, fun _ => rfl, fun _ => rfl, fun _ => rfl, fun _ => rfl, fun _ => rfl, fun _ => rfl, fun _ => rfl, fun _ => rfl, fun _ => rfl, fun _ => rfl, fun _ => rfl, fun _ => rfl, fun _ => rfl, fun _ => rfl, fun _ => rfl, fun _ => rfl, fun _ => rfl, fun _ => rfl, fun _ => rfl, fun _ => rfl, fun _ => rfl, fun _ => rfl, fun _ => rfl, fun _ => rfl, fun _ => rfl, fun _ => rfl, fun _ => rfl, fun _ => rfl, fun _ => rfl, fun _ => rfl, fun _ => rfl, fun _ => rfl, fun _ => rfl, fun _ => rfl, fun _ => rfl, fun _ => rfl, fun _ => rfl, fun _ => rfl, fun _ => rfl, fun _ => rfl, fun _ => rfl, fun _ => rfl, fun _ => rfl, fun _ => rfl, fun _ => rfl, fun _ => rfl, fun _ => rfl, fun _ => rfl⟩

theorem State.showUsed_touch : ∀ a0 a1, touch 0x2000000000000000000000000000000 a0 (State.showUsed a0 a1) := by
  intro a0 a1
  cases a1 with
  | controlPort n => exact touch.PKG_CP_STATE ..
  | _ => exact touch.refl _ _

theorem State.setCauses_touch : ∀ a0 a1 a2 a3, touch 0x38000000000000000000000000000000000000000000000000000 a0 (State.setCauses a0 a1 a2 a3) := by
  intro a0 a1 a2 a3
  have hA : ∀ (s : State) (f : FieldRef) (v : Nat), f.addr = EVT_SRC_A.addr a1 → f.lo + f.width ≤ 48 → touch 0x38000000000000000000000000000000000000000000000000000 s (s.set f v) := by
    intro s f v hf hw
    unfold State.set
    rw [hf]
    refine (touch.EVT_SRC_A _ _ _ fun k hk => ?_).mono rfl
    rwa [getBits_setBits_other _ _ (.inr hw)]
  have hC : touch 0x38000000000000000000000000000000000000000000000000000 a0 (a0.set (EVT_SRC_A.CAUSE a1) (a0.get (EVT_SRC_A.CAUSE a1) ||| a2)) := by
    refine (touch.EVT_SRC_A _ _ _ fun k hk => ?_).mono rfl
    have hlt : k < 16 := by
      by_contra hge
      rw [Nat.testBit_lt_two_pow (i := k) (Nat.lt_of_lt_of_le (show getBits (a0.rd (EVT_SRC_A.addr a1)) 48 16 < 2 ^ 16 from Nat.mod_lt _ (by decide))
        (Nat.pow_le_pow_right (by decide) (by omega)))] at hk
      exact absurd hk (by decide)
    show (getBits (setBits (a0.rd (EVT_SRC_A.CAUSE a1).addr) 48 16 (a0.get (EVT_SRC_A.CAUSE a1) ||| a2)) 48 16).testBit k = true
    rw [show getBits (setBits (a0.rd (EVT_SRC_A.CAUSE a1).addr) 48 16 (a0.get (EVT_SRC_A.CAUSE a1) ||| a2)) 48 16 =
      (a0.get (EVT_SRC_A.CAUSE a1) ||| a2) % 2 ^ 16 from getBits_setBits_same _ _ (by decide)]
    rw [Nat.testBit_mod_two_pow, Nat.testBit_or, show (a0.get (EVT_SRC_A.CAUSE a1)).testBit k = true from hk]
    simp [hlt]
  unfold State.setCauses
  extract_lets x1 x2 x3 x4 x5
  have h3 : touch 0x38000000000000000000000000000000000000000000000000000 a0 x3 := hC
  have h4 : touch 0x38000000000000000000000000000000000000000000000000000 a0 x4 := h3.trans (hA x3 (EVT_SRC_A.COUNT a1) _ rfl (show 0 + 32 ≤ 48 by decide))
  have h5 : touch 0x38000000000000000000000000000000000000000000000000000 a0 x5 := touch.ite (h4.step (touch.EVT_SRC_B ..) rfl) h4
  clear_value x3 x4 x5
  exact h5.step (touch.EVT_SRC_C ..) rfl

theorem State.setQueue_touch : ∀ a0 a1 a2, touch 0x200000 a0 (State.setQueue a0 a1 a2) := by
  intro a0 a1 a2
  unfold State.setQueue
  refine touch.step ?_ (touch.upd_queues ..) rfl
  exact touch.refl _ _

theorem State.markPlaced_touch : ∀ a0 a1, touch 0x38000000000000000000000000000000000000000000000000020 a0 (State.markPlaced a0 a1) := by
  intro a0 a1
  unfold State.markPlaced
  split
  · rename_i z41 z42 z43 z44
    extract_lets x45
    have h46 : touch 0x38000000000000000000000000000000000000000000000000020 a0 x45 := by
      unfold x45
      refine touch.step ?_ (State.setCauses_touch ..) rfl
      exact touch.refl _ _
    clear_value x45
    refine touch.step ?_ (touch.upd_actions ..) rfl
    exact h46
  · rename_i z47 z48
    exact touch.refl _ _

theorem State.offer_touch : ∀ a0 a1 a2, touch 0x3800000000006d800000062000000000000000000000000200020 a0 (State.offer a0 a1 a2) := by
  intro a0 a1 a2
  have ht : ∀ (s : State) v w, touch 0x3800000000006d800000062000000000000000000000000200020 s (match a1.totals with | some (o, d) => (s.set o v).set d w | none => s) := by
    intro s v w
    cases a1
    case telemetry => exact ((touch.PMON_TQ_OFFERED ..).mono rfl).trans ((touch.PMON_TQ_DROPPED ..).mono rfl)
    case controlPort => exact ((touch.PKG_CP_EVOFFERED ..).mono rfl).trans ((touch.PKG_CP_EVDROPPED ..).mono rfl)
    case partition => exact ((touch.EVT_PQ_OFFERED ..).mono rfl).trans ((touch.EVT_PQ_DROPPED ..).mono rfl)
    case power => exact touch.refl _ _
    all_goals exact ((touch.EVT_XQ_OFFERED ..).mono rfl).trans ((touch.EVT_XQ_DROPPED ..).mono rfl)
  unfold State.offer
  have h46 : touch 0x3800000000006d800000062000000000000000000000000200020 a0 (a0.setQueue a1 ((a0.queue a1).offer a1.capacity a0.now a2).1) := (State.setQueue_touch ..).mono rfl
  exact (touch.ite ((h46.trans (ht ..)).step (State.markPlaced_touch ..) rfl) (h46.trans (ht ..))).step (State.showUsed_touch ..) rfl

theorem State.setCrossing_touch : ∀ a0 a1 a2, touch 0x40000000 a0 (State.setCrossing a0 a1 a2) := by
  intro a0 a1 a2
  unfold State.setCrossing
  refine touch.step ?_ (touch.upd_crossings ..) rfl
  exact touch.refl _ _

theorem State.resetCrossing_touch : ∀ a0 a1, touch 0x400000100000010000000000000000000040000000 a0 (State.resetCrossing a0 a1) := by
  intro a0 a1
  have hx : ∀ (s : State) v, touch 0x400000100000010000000000000000000040000000 s (s.wr (crossingStatus a1).1.addr v) := by
    intro s v
    unfold crossingStatus
    split
    · exact (touch.CL_XSTAT ..).mono rfl
    · split
      · exact (touch.DIE_XSTAT ..).mono rfl
      · exact (touch.PKG_XSTAT ..).mono rfl
  unfold State.resetCrossing
  extract_lets x1 x2
  refine touch.ite ?_ ?_
  · exact (State.setCrossing_touch ..).mono rfl
  · exact ((State.setCrossing_touch ..).mono rfl).trans (hx ..)

theorem State.addCounter_touch : ∀ a0 a1 a2 a3 a4, touch 0x300000000180000000000000000000000000000000000000000 a0 (State.addCounter a0 a1 a2 a3 a4) := by
  intro a0 a1 a2 a3 a4
  have h : ∀ (s : State) n v, touch 0x300000000180000000000000000000000000000000000000000 s (s.wr (ctrAddr a1 a2 n) v) := by
    intro s n v
    unfold ctrAddr
    split
    · exact (touch.PMON_DIE_CTR ..).mono rfl
    · exact (touch.PMON_CL_CTR ..).mono rfl
  have h' : ∀ (s : State) n v, touch 0x300000000180000000000000000000000000000000000000000 s (s.wr (selAddr a1 a2 n) v) := by
    intro s n v
    unfold selAddr
    split
    · exact (touch.PMON_DIE_SEL ..).mono rfl
    · exact (touch.PMON_CL_SEL ..).mono rfl
  unfold State.addCounter
  extract_lets x1 x2
  refine touch.ite ?_ ?_
  · refine touch.ite ?_ ?_
    · exact touch.refl _ _
    · exact (h ..).trans (h ..)
  · refine touch.ite ?_ ?_
    · exact h ..
    · exact (h ..).trans (h' ..)

theorem State.postedTag_touch : ∀ a0 a1 a2, touch 0x1800000000000 a0 (State.postedTag a0 a1 a2).1 := by
  intro a0 a1 a2
  unfold State.postedTag
  extract_lets x41 x42 x43
  clear_value x41 x43
  have h44 : touch 0x1800000000000 a0 x42 := by
    unfold x42
    refine touch.step ?_ (touch.upd_postedCount ..) rfl
    exact touch.refl _ _
  clear_value x42
  refine touch.fstIte ?_ ?_
  · refine touch.fstMk ?_
    exact h44
  · split
    · rename_i z45 z46 z47 z48
      refine touch.fstMk ?_
      refine touch.step ?_ (touch.upd_requesters ..) rfl
      exact h44

theorem State.postedTags_touch : ∀ a0 a1 a2 a3, touch 0x1800000000000 a0 (State.postedTags a0 a1 a2 a3).1 := by
  intro a0 a1 a2 a3
  induction a3 generalizing a0 with
  | nil => exact touch.refl _ _
  | cons k ks ih => exact ((State.postedTag_touch ..).mono rfl).trans (ih _)

theorem State.setLive_touch : ∀ a0 a1 a2 a3, touch 0x8000000000000000000000000000000000000000000000000000 a0 (State.setLive a0 a1 a2 a3) := by
  intro a0 a1 a2 a3
  unfold State.setLive State.setBit State.set
  refine touch.EVT_SRC_A _ _ _ fun k hk => ?_
  exact (congrArg (fun n => Nat.testBit n k) (getBits_setBits_other _ _ (.inr (show 32 + 16 ≤ 48 by decide)))).trans hk

theorem State.setLink_touch : ∀ a0 a1 a2, touch 0x10000000000000 a0 (State.setLink a0 a1 a2) := by
  intro a0 a1 a2
  unfold State.setLink
  refine touch.step ?_ (touch.upd_links ..) rfl
  exact touch.refl _ _

theorem State.wakeRequest_touch : ∀ a0 a1, touch 0x10000000000000 a0 (State.wakeRequest a0 a1) := by
  intro a0 a1
  unfold State.wakeRequest
  extract_lets x41
  clear_value x41
  refine touch.ite ?_ ?_
  · exact touch.refl _ _
  · refine touch.step ?_ (State.setLink_touch ..) rfl
    exact touch.refl _ _

theorem State.bookedOn_touch : ∀ a0 a1, touch 0x10000000000000 a0 (State.bookedOn a0 a1) := by
  intro a0 a1
  unfold State.bookedOn
  refine touch.ite ?_ ?_
  · refine touch.step ?_ (State.wakeRequest_touch ..) rfl
    refine touch.step ?_ (State.setLink_touch ..) rfl
    exact touch.refl _ _
  · exact touch.refl _ _

theorem State.injectUsed_touch : ∀ a0 a1, touch 0x10000000000000000000000000000000000000 a0 (State.injectUsed a0 a1) := by
  intro a0 a1
  unfold State.injectUsed
  refine touch.step ?_ (touch.DIE_EVT_INJECT ..) rfl
  exact touch.refl _ _

theorem State.setLedger_touch : ∀ a0 a1 a2, touch 0x10000000000000000000000000000100000000 a0 (State.setLedger a0 a1 a2) := by
  intro a0 a1 a2
  unfold State.setLedger
  split
  · rename_i z41 z42 z43 z44
    extract_lets x45 x46 x47
    clear_value x45 x46
    have h48 : touch 0x10000000000000000000000000000100000000 a0 x47 := by
      unfold x47
      refine touch.step ?_ (touch.upd_ledgers ..) rfl
      exact touch.refl _ _
    clear_value x47
    refine touch.ite ?_ ?_
    · refine touch.step ?_ (touch.DIE_EVT_INJECT ..) rfl
      refine touch.step ?_ (touch.DIE_EVT_INJECT ..) rfl
      exact h48
    · refine touch.ite ?_ ?_
      · refine touch.step ?_ (State.injectUsed_touch ..) rfl
        exact h48
      · exact h48

theorem State.issue_touch : ∀ a0 a1 a2, touch 0x10000000000000000000000000000100000000 a0 (State.issue a0 a1 a2) := by
  intro a0 a1 a2
  unfold State.issue
  refine touch.step ?_ (State.setLedger_touch ..) rfl
  exact touch.refl _ _

theorem State.issueAll_touch : ∀ a0 a1, touch 0x10000000000000000000000000000100000000 a0 (State.issueAll a0 a1) := by
  intro a0 a1
  unfold State.issueAll
  refine touch.foldl ?_ ?_
  · exact touch.refl _ _
  · intro u41 y42 h43
    refine touch.step ?_ (State.issue_touch ..) rfl
    exact h43

theorem State.returnAll_touch : ∀ a0 a1, touch 0x10000000000000000000000000000100000000 a0 (State.returnAll a0 a1) := by
  intro a0 a1
  unfold State.returnAll
  refine touch.foldl ?_ ?_
  · exact touch.refl _ _
  · intro u41 y42 h43
    refine touch.step ?_ (State.setLedger_touch ..) rfl
    exact h43

theorem State.rebook_touch : ∀ a0 a1 a2 a3, touch 0x10000000000000000000000000000100000000 a0 (State.rebook a0 a1 a2 a3).1 := by
  intro a0 a1 a2 a3
  unfold State.rebook
  extract_lets x41 x42 x43 x44 x45 x46 x47 x48
  clear_value x42 x44 x45 x46 x48
  have h49 : touch 0x10000000000000000000000000000100000000 a0 x43 := by
    unfold x43
    refine touch.step ?_ (State.returnAll_touch ..) rfl
    refine touch.step ?_ (State.returnAll_touch ..) rfl
    exact touch.refl _ _
  have h50 : touch 0x10000000000000000000000000000100000000 a0 x47 := by
    unfold x47
    refine touch.step ?_ (State.issueAll_touch ..) rfl
    refine touch.step ?_ (State.issueAll_touch ..) rfl
    refine touch.step ?_ (State.returnAll_touch ..) rfl
    exact h49
  clear_value x41 x43 x47
  refine touch.fstMk ?_
  exact h50

theorem State.rebookDies_touch : ∀ a0 a1 a2, touch 0x10000000000000000000000000000100000000 a0 (State.rebookDies a0 a1 a2).1 := by
  intro a0 a1 a2
  unfold State.rebookDies
  extract_lets x41 x42 x43 x44 x45 x46 x47
  clear_value x41 x42 x44 x45 x47
  have h48 : touch 0x10000000000000000000000000000100000000 a0 x46 := by
    unfold x46
    refine touch.step ?_ (State.issueAll_touch ..) rfl
    refine touch.step ?_ (State.returnAll_touch ..) rfl
    exact touch.refl _ _
  clear_value x43 x46
  refine touch.fstMk ?_
  exact h48

theorem State.reroute_touch : ∀ a0, touch 0x10000000000000000000000010000500000000 a0 (State.reroute a0) := by
  intro a0
  unfold State.reroute
  split
  · rename_i z41 z42 z43 z44 z45
    have h46 : touch 0x10000000000000000000000010000500000000 a0 z42 := by
      refine touch.ofEq z45 ?_
      refine touch.foldlFst ?_ ?_
      · refine touch.fstMk ?_
        exact touch.refl _ _
      · intro u47 y48 h49
        split
        · rename_i z50 z51 z52 z53
          refine touch.fstIte ?_ ?_
          · refine touch.fstMk ?_
            exact h49
          · split
            · rename_i z54 z55 z56 z57
              extract_lets x58 x59 x60 x61
              clear_value x58 x59 x60 x61
              split
              · rename_i z62 z63 z64 z65
                have h66 : touch 0x10000000000000000000000010000500000000 a0 z63 := by
                  refine touch.ofEq z65 ?_
                  refine touch.step ?_ (State.rebookDies_touch ..) rfl
                  exact h49
                split
                · rename_i z67 z68 z69 z70
                  have h71 : touch 0x10000000000000000000000010000500000000 a0 z68 := by
                    refine touch.ofEq z70 ?_
                    refine touch.fstIte ?_ ?_
                    · split
                      · rename_i z72 z73 z74 z75
                        have h76 : touch 0x10000000000000000000000010000500000000 a0 z73 := by
                          refine touch.ofEq z75 ?_
                          refine touch.step ?_ (State.rebook_touch ..) rfl
                          exact h66
                        refine touch.fstMk ?_
                        refine touch.step ?_ (State.bookedOn_touch ..) rfl
                        exact h76
                    · refine touch.fstMk ?_
                      exact h66
                  extract_lets x77
                  clear_value x77
                  refine touch.fstIte ?_ ?_
                  · refine touch.fstMk ?_
                    exact h71
                  · refine touch.fstMk ?_
                    exact h71
            · rename_i z78 z79
              refine touch.fstMk ?_
              exact h49
    extract_lets x80
    clear_value x80
    refine touch.step ?_ (touch.upd_waiting ..) rfl
    exact h46

theorem State.originate_touch : ∀ a0 a1, touch 0x80 a0 (State.originate a0 a1) := by
  intro a0 a1
  unfold State.originate
  refine touch.step ?_ (touch.upd_outbox ..) rfl
  exact touch.refl _ _

theorem State.partitionEntry_touch : ∀ a0 a1 a2, touch 0x3800000000006d800000062000000000000000000000000200020 a0 (State.partitionEntry a0 a1 a2) := by
  intro a0 a1 a2
  unfold State.partitionEntry
  split
  · rename_i z41 z42 z43
    refine touch.step ?_ (State.offer_touch ..) rfl
    exact touch.refl _ _
  · rename_i z44 z45
    exact touch.refl _ _

theorem State.sendEvents_touch : ∀ a0 a1 a2 a3 a4 a5, touch 0x3800000000006d8000000620000000000000000000000002000a0 a0 (State.sendEvents a0 a1 a2 a3 a4 a5) := by
  intro a0 a1 a2 a3 a4 a5
  unfold State.sendEvents
  extract_lets x41 x42 x43 x44 x45
  clear_value x41
  have h46 : touch 0x3800000000006d8000000620000000000000000000000002000a0 a0 x42 := by
    unfold x42
    refine touch.ite ?_ ?_
    · refine touch.foldl ?_ ?_
      · exact touch.refl _ _
      · intro u47 y48 h49
        refine touch.step ?_ (State.partitionEntry_touch ..) rfl
        exact h49
    · exact touch.refl _ _
  have h50 : touch 0x3800000000006d8000000620000000000000000000000002000a0 a0 x43 := by
    unfold x43
    refine touch.ite ?_ ?_
    · refine touch.step ?_ (State.offer_touch ..) rfl
      exact h46
    · exact h46
  have h51 : touch 0x3800000000006d8000000620000000000000000000000002000a0 a0 x44 := by
    unfold x44
    refine touch.ite ?_ ?_
    · refine touch.step ?_ (State.offer_touch ..) rfl
      exact h50
    · exact h50
  have h52 : touch 0x3800000000006d8000000620000000000000000000000002000a0 a0 x45 := by
    unfold x45
    refine touch.ite ?_ ?_
    · refine touch.step ?_ (State.offer_touch ..) rfl
      exact h51
    · exact h51
  clear_value x42 x43 x44 x45
  refine touch.ite ?_ ?_
  · refine touch.foldl ?_ ?_
    · exact h52
    · intro u53 y54 h55
      refine touch.step ?_ (State.originate_touch ..) rfl
      exact h55
  · exact h52

theorem State.fire_touch : ∀ a0 a1 a2 a3, touch 0x3800000000006d8000000620000000000000000000000006000a0 a0 (State.fire a0 a1 a2 a3) := by
  intro a0 a1 a2 a3
  unfold State.fire
  extract_lets x41 x42 x43 x44 x45 x46 x47 x48
  clear_value x41 x42 x43 x44 x45 x46 x47
  have h49 : touch 0x3800000000006d8000000620000000000000000000000006000a0 a0 x48 := by
    unfold x48
    refine touch.ite ?_ ?_
    · refine touch.step ?_ (State.sendEvents_touch ..) rfl
      exact touch.refl _ _
    · exact touch.refl _ _
  clear_value x48
  split
  · rename_i z50 z51 z52
    extract_lets x53
    clear_value x53
    refine touch.step ?_ (touch.upd_actions_records ..) rfl
    exact touch.refl _ _
  · rename_i z54 z55
    refine touch.ite ?_ ?_
    · refine touch.step ?_ (touch.upd_actions_records ..) rfl
      exact touch.refl _ _
    · refine touch.step ?_ (touch.upd_actions ..) rfl
      exact h49

theorem State.receiveCauses_touch : ∀ a0 a1 a2 a3 a4, touch 0x3800000000006d8000000620000000000000000000000006000a0 a0 (State.receiveCauses a0 a1 a2 a3 a4) := by
  intro a0 a1 a2 a3 a4
  unfold State.receiveCauses
  extract_lets x41 x42
  clear_value x42
  have h43 : touch 0x3800000000006d8000000620000000000000000000000006000a0 a0 x41 := by
    unfold x41
    refine touch.step ?_ (State.setCauses_touch ..) rfl
    exact touch.refl _ _
  clear_value x41
  refine touch.ite ?_ ?_
  · exact h43
  · refine touch.step ?_ (State.fire_touch ..) rfl
    exact h43

theorem State.notePulses_touch : ∀ a0 a1 a2, touch 0x400000000000000000000000 a0 (State.notePulses a0 a1 a2) := by
  intro a0 a1 a2
  unfold State.notePulses
  refine touch.ite ?_ ?_
  · exact touch.refl _ _
  · refine touch.step ?_ (touch.upd_pulses ..) rfl
    exact touch.refl _ _

theorem State.raiseMask_touch : ∀ a0 a1 a2 a3, touch 0x3800000000046d8000000620000004000000000000000006000a0 a0 (State.raiseMask a0 a1 a2 a3) := by
  intro a0 a1 a2 a3
  unfold State.raiseMask
  refine touch.ite ?_ ?_
  · exact touch.refl _ _
  · extract_lets x41 x42
    clear_value x41
    have h43 : touch 0x3800000000046d8000000620000004000000000000000006000a0 a0 x42 := by
      unfold x42
      refine touch.step ?_ (State.receiveCauses_touch ..) rfl
      refine touch.step ?_ (State.notePulses_touch ..) rfl
      exact touch.refl _ _
    clear_value x42
    refine touch.ite ?_ ?_
    · exact h43
    · refine touch.step ?_ (State.receiveCauses_touch ..) rfl
      refine touch.step ?_ (touch.CL_XSTAT ..) rfl
      exact h43

theorem State.raise_touch : ∀ a0 a1 a2 a3, touch 0x3800000000046d8000000620000004000000000000000006000a0 a0 (State.raise a0 a1 a2 a3) := by
  intro a0 a1 a2 a3
  unfold State.raise
  refine touch.step ?_ (State.raiseMask_touch ..) rfl
  exact touch.refl _ _

theorem State.routesMoved_touch : ∀ a0 a1, touch 0x3800000000046d8100000620000004000000000100005006000a0 a0 (State.routesMoved a0 a1) := by
  intro a0 a1
  unfold State.routesMoved
  refine touch.step ?_ (State.reroute_touch ..) rfl
  refine touch.ite ?_ ?_
  · refine touch.step ?_ (State.raise_touch ..) rfl
    exact touch.refl _ _
  · exact touch.refl _ _

theorem State.enterMode_touch : ∀ a0 a1, touch 0x3800000000046d8000000620000804000000000000000806000a0 a0 (State.enterMode a0 a1) := by
  intro a0 a1
  unfold State.enterMode
  refine touch.ite ?_ ?_
  · exact touch.refl _ _
  · extract_lets x41 x42 x43
    clear_value x41
    have h44 : touch 0x3800000000046d8000000620000804000000000000000806000a0 a0 x42 := by
      unfold x42
      refine touch.step ?_ (touch.PKG_MODE ..) rfl
      refine touch.step ?_ (touch.upd_modes ..) rfl
      exact touch.refl _ _
    have h45 : touch 0x3800000000046d8000000620000804000000000000000806000a0 a0 x43 := by
      unfold x43
      refine touch.ite ?_ ?_
      · refine touch.step ?_ (touch.PKG_MODE ..) rfl
        exact h44
      · refine touch.step ?_ (touch.PKG_MODE ..) rfl
        refine touch.step ?_ (touch.PKG_MODE ..) rfl
        exact h44
    clear_value x42 x43
    refine touch.step ?_ (State.raiseMask_touch ..) rfl
    exact h45

theorem State.afterFence_touch : ∀ a0, touch 0x3800000000046d8000000620000804000000000000000806000a0 a0 (State.afterFence a0) := by
  intro a0
  unfold State.afterFence
  refine touch.ite ?_ ?_
  · refine touch.step ?_ (State.enterMode_touch ..) rfl
    exact touch.refl _ _
  · exact touch.refl _ _

theorem State.endReloadOf_touch : ∀ a0 a1, touch 0x80000000000000000000000010000 a0 (State.endReloadOf a0 a1) := by
  intro a0 a1
  unfold State.endReloadOf
  refine touch.ite ?_ ?_
  · refine touch.step ?_ (touch.PKG_SBS_STATUS ..) rfl
    refine touch.step ?_ (touch.upd_reload ..) rfl
    exact touch.refl _ _
  · exact touch.refl _ _

theorem State.showTime_touch : ∀ a0, touch 0x80000000000000000000000000 a0 (State.showTime a0) := by
  intro a0
  unfold State.showTime
  refine touch.ite ?_ ?_
  · exact touch.refl _ _
  · refine touch.step ?_ (touch.PKG_MODE ..) rfl
    refine touch.step ?_ (touch.PKG_MODE ..) rfl
    exact touch.refl _ _

theorem State.takeParent_touch : ∀ a0 a1, touch 0x3800000000046d8000000620000804000080000000000006000a0 a0 (State.takeParent a0 a1) := by
  intro a0 a1
  unfold State.takeParent
  extract_lets x41 x42 x43 x44
  clear_value x41 x42
  have h45 : touch 0x3800000000046d8000000620000804000080000000000006000a0 a0 x43 := by
    unfold x43
    refine touch.ite ?_ ?_
    · exact touch.refl _ _
    · refine touch.step ?_ (touch.upd_time ..) rfl
      exact touch.refl _ _
  have h46 : touch 0x3800000000046d8000000620000804000080000000000006000a0 a0 x44 := by
    unfold x44
    refine touch.step ?_ (State.showTime_touch ..) rfl
    exact h45
  clear_value x43 x44
  refine touch.ite ?_ ?_
  · refine touch.step ?_ (State.raise_touch ..) rfl
    exact h46
  · exact h46

theorem State.reclaimLedger_touch : ∀ a0 a1, touch 0x10000000000000000000000000000100000000 a0 (State.reclaimLedger a0 a1) := by
  intro a0 a1
  unfold State.reclaimLedger
  refine touch.step ?_ (State.setLedger_touch ..) rfl
  exact touch.refl _ _

theorem State.reclaimLink_touch : ∀ a0 a1, touch 0x10000000000000000000000000000500000000 a0 (State.reclaimLink a0 a1) := by
  intro a0 a1
  unfold State.reclaimLink
  extract_lets x41 x42
  have h43 : touch 0x10000000000000000000000000000500000000 a0 x41 := by
    unfold x41
    refine touch.foldl ?_ ?_
    · exact touch.refl _ _
    · intro u44 y45 h46
      refine touch.step ?_ (State.reclaimLedger_touch ..) rfl
      exact h46
  clear_value x41 x42
  refine touch.step ?_ (touch.upd_waiting ..) rfl
  exact h43

theorem State.writeItem_touch : ∀ a0 a1 a2 a3 a4 a5, touch 0x10000000000000000000000000000000000000 a0 (State.writeItem a0 a1 a2 a3 a4 a5).1 := by
  intro a0 a1 a2 a3 a4 a5
  unfold State.writeItem
  extract_lets x41
  clear_value x41
  refine touch.fstIte ?_ ?_
  · refine touch.fstMk ?_
    exact touch.refl _ _
  · refine touch.fstMk ?_
    refine touch.step ?_ (touch.DIE_EVT_INJECT ..) rfl
    exact touch.refl _ _

theorem State.setIngress_touch : ∀ a0 a1 a2, touch 0x200000000 a0 (State.setIngress a0 a1 a2) := by
  intro a0 a1 a2
  unfold State.setIngress
  refine touch.step ?_ (touch.upd_ingress ..) rfl
  exact touch.refl _ _

theorem State.enqueue_touch : ∀ a0 a1 a2, touch 0x10000000000000000000000000000300000000 a0 (State.enqueue a0 a1 a2) := by
  intro a0 a1 a2
  unfold State.enqueue
  extract_lets x41
  clear_value x41
  split
  · rename_i z42 z43 z44 z45
    have h46 : touch 0x10000000000000000000000000000300000000 a0 z43 := by
      refine touch.ofEq z45 ?_
      refine touch.fstIte ?_ ?_
      · refine touch.fstMk ?_
        exact touch.refl _ _
      · refine touch.step ?_ (State.writeItem_touch ..) rfl
        exact touch.refl _ _
    refine touch.step ?_ (State.setIngress_touch ..) rfl
    refine touch.step ?_ (State.issueAll_touch ..) rfl
    exact h46

theorem State.newId_touch : ∀ a0, touch 0x1000000000 a0 (State.newId a0).1 := by
  intro a0
  unfold State.newId
  refine touch.fstMk ?_
  refine touch.step ?_ (touch.upd_nextId ..) rfl
  exact touch.refl _ _

theorem State.formPosted_touch : ∀ a0 a1 a2, touch 0x10000000000000000000000000001300000000 a0 (State.formPosted a0 a1 a2) := by
  intro a0 a1 a2
  unfold State.formPosted
  split
  · rename_i z41 z42 z43 z44
    have h45 : touch 0x10000000000000000000000000001300000000 a0 z42 := by
      refine touch.ofEq z44 ?_
      refine touch.step ?_ (State.newId_touch ..) rfl
      exact touch.refl _ _
    refine touch.step ?_ (State.enqueue_touch ..) rfl
    exact h45

theorem State.settlePin_touch : ∀ a0 a1, touch 0x10000000000000020000080000001300000000 a0 (State.settlePin a0 a1) := by
  intro a0 a1
  unfold State.settlePin
  extract_lets x41 x42 x43
  clear_value x41 x42
  split
  · rename_i z44 z45 z46 z47 z48
    refine touch.ite ?_ ?_
    · exact touch.refl _ _
    · refine touch.step ?_ (State.formPosted_touch ..) rfl
      refine touch.step ?_ (touch.upd_intxLevel_intxSent ..) rfl
      exact touch.refl _ _
  · rename_i z49 z50
    refine touch.ite ?_ ?_
    · exact touch.refl _ _
    · split
      · rename_i z51 z52
        exact touch.refl _ _
      · rename_i z53 z54 z55
        split
        · rename_i z56 z57 z58
          refine touch.step ?_ (State.formPosted_touch ..) rfl
          refine touch.step ?_ (touch.upd_intxSent ..) rfl
          exact touch.refl _ _
        · rename_i z59 z60
          exact touch.refl _ _

theorem State.deassertPins_touch : ∀ a0 a1 a2, touch 0x10000000000000020000080000001300000000 a0 (State.deassertPins a0 a1 a2) := by
  intro a0 a1 a2
  unfold State.deassertPins
  refine touch.foldl ?_ ?_
  · exact touch.refl _ _
  · intro u41 y42 h43
    refine touch.step ?_ (State.settlePin_touch ..) rfl
    refine touch.step ?_ (touch.upd_intxLevel ..) rfl
    exact h43

theorem State.emit_touch : ∀ a0 a1, touch 0x40 a0 (State.emit a0 a1) := by
  intro a0 a1
  unfold State.emit
  refine touch.step ?_ (touch.upd_out ..) rfl
  exact touch.refl _ _

theorem State.sendTlp_touch : ∀ a0 a1 a2, touch 0x3800000000046d8000000620000004000000000000000006000e0 a0 (State.sendTlp a0 a1 a2) := by
  intro a0 a1 a2
  unfold State.sendTlp
  extract_lets x41
  have h42 : touch 0x3800000000046d8000000620000004000000000000000006000e0 a0 x41 := by
    unfold x41
    refine touch.step ?_ (State.emit_touch ..) rfl
    exact touch.refl _ _
  clear_value x41
  split
  · rename_i z43 z44
    refine touch.step ?_ (State.raise_touch ..) rfl
    exact h42
  · rename_i z45 z46
    refine touch.step ?_ (State.raise_touch ..) rfl
    exact h42
  · rename_i z47 z48 z49
    exact h42

theorem State.endLive_touch : ∀ a0 a1, touch 0x8000000 a0 (State.endLive a0 a1) := by
  intro a0 a1
  unfold State.endLive
  split
  · rename_i z41
    exact touch.refl _ _
  · rename_i z42 z43
    refine touch.step ?_ (touch.upd_live ..) rfl
    exact touch.refl _ _

theorem State.reclaimAll_touch : ∀ a0 a1, touch 0x10000000000000000000000000000100000000 a0 (State.reclaimAll a0 a1) := by
  intro a0 a1
  unfold State.reclaimAll
  refine touch.foldl ?_ ?_
  · exact touch.refl _ _
  · intro u41 y42 h43
    refine touch.step ?_ (State.setLedger_touch ..) rfl
    exact h43

theorem State.spareTag_touch : ∀ a0 a1, touch 0x10000000000000000000000000000100000000 a0 (State.spareTag a0 a1) := by
  intro a0 a1
  unfold State.spareTag
  refine touch.ite ?_ ?_
  · refine touch.step ?_ (State.returnAll_touch ..) rfl
    exact touch.refl _ _
  · exact touch.refl _ _

theorem State.noteRoute_touch : ∀ a0 a1 a2 a3, touch 0x3800000000046d8000000620000004000000000000000006000a0 a0 (State.noteRoute a0 a1 a2 a3) := by
  intro a0 a1 a2 a3
  unfold State.noteRoute
  split
  · rename_i z41
    refine touch.ite ?_ ?_
    · refine touch.step ?_ (State.raise_touch ..) rfl
      exact touch.refl _ _
    · exact touch.refl _ _
  · rename_i z42 z43
    exact touch.refl _ _

theorem State.bookedTo_touch : ∀ a0 a1, touch 0x10000000000000 a0 (State.bookedTo a0 a1) := by
  intro a0 a1
  unfold State.bookedTo
  split
  · rename_i z41 z42
    refine touch.step ?_ (State.bookedOn_touch ..) rfl
    exact touch.refl _ _
  · rename_i z43 z44
    exact touch.refl _ _

theorem State.sendOn_touch : ∀ a0 a1 a2 a3, touch 0x10000000000000000000000010000508000000 a0 (State.sendOn a0 a1 a2 a3) := by
  intro a0 a1 a2 a3
  unfold State.sendOn
  split
  · rename_i z41 z42 z43
    extract_lets x44 x45 x46
    clear_value x44 x46
    have h47 : touch 0x10000000000000000000000010000508000000 a0 x45 := by
      unfold x45
      refine touch.step ?_ (State.issueAll_touch ..) rfl
      exact touch.refl _ _
    clear_value x45
    split
    · rename_i z48 z49 z50 z51
      have h52 : touch 0x10000000000000000000000010000508000000 a0 z49 := by
        refine touch.ofEq z51 ?_
        refine touch.step ?_ (State.writeItem_touch ..) rfl
        exact h47
      refine touch.step ?_ (State.bookedTo_touch ..) rfl
      refine touch.step ?_ (touch.upd_waiting ..) rfl
      exact h52
  · rename_i z53 z54
    refine touch.step ?_ (State.endLive_touch ..) rfl
    refine touch.step ?_ (State.returnAll_touch ..) rfl
    exact touch.refl _ _

theorem State.sendFrom_touch : ∀ a0 a1 a2 a3, touch 0x3800000000046d8100000620000004000000000100005086000a0 a0 (State.sendFrom a0 a1 a2 a3) := by
  intro a0 a1 a2 a3
  unfold State.sendFrom
  extract_lets x41
  have h42 : touch 0x3800000000046d8100000620000004000000000100005086000a0 a0 x41 := by
    unfold x41
    refine touch.step ?_ (State.noteRoute_touch ..) rfl
    exact touch.refl _ _
  clear_value x41
  refine touch.step ?_ (State.sendOn_touch ..) rfl
  exact h42

theorem State.noteStamp_touch : ∀ a0 a1 a2 a3, touch 0x30000000000 a0 (State.noteStamp a0 a1 a2 a3) := by
  intro a0 a1 a2 a3
  unfold State.noteStamp
  extract_lets x41
  have h42 : touch 0x30000000000 a0 x41 := by
    unfold x41
    refine touch.step ?_ (touch.upd_flowLast ..) rfl
    exact touch.refl _ _
  clear_value x41
  refine touch.ite ?_ ?_
  · refine touch.step ?_ (touch.upd_writeLast ..) rfl
    exact h42
  · exact h42

theorem State.noteAnswer_touch : ∀ a0 a1, touch 0x30000000000 a0 (State.noteAnswer a0 a1) := by
  intro a0 a1
  unfold State.noteAnswer
  refine touch.step ?_ (State.noteStamp_touch ..) rfl
  exact touch.refl _ _

theorem State.sendAnswer_touch : ∀ a0 a1 a2 a3 a4 a5, touch 0x3800000000046d8100000620000004000000000100305086000a0 a0 (State.sendAnswer a0 a1 a2 a3 a4 a5) := by
  intro a0 a1 a2 a3 a4 a5
  unfold State.sendAnswer
  extract_lets x41 x42
  clear_value x41 x42
  refine touch.step ?_ (State.sendFrom_touch ..) rfl
  refine touch.step ?_ (State.noteAnswer_touch ..) rfl
  exact touch.refl _ _

theorem State.complete_touch : ∀ a0 a1 a2 a3 a4 a5 a6 a7, touch 0x3800000000046d8100000620000004000000000100305086000a0 a0 (State.complete a0 a1 a2 a3 a4 a5 a6 a7) := by
  intro a0 a1 a2 a3 a4 a5 a6 a7
  unfold State.complete
  refine touch.step ?_ (State.sendAnswer_touch ..) rfl
  exact touch.refl _ _

theorem State.useSlots_touch : ∀ a0 a1 a2 a3, touch 0x800000000000000000000000 a0 (State.useSlots a0 a1 a2 a3) := by
  intro a0 a1 a2 a3
  unfold State.useSlots
  extract_lets x41
  clear_value x41
  refine touch.step ?_ (touch.upd_slotsUsed ..) rfl
  exact touch.refl _ _

theorem State.countBy_touch : ∀ a0 a1, touch 0x300000000180000000000000000000000000000000000000000 a0 (State.countBy a0 a1) := by
  intro a0 a1
  unfold State.countBy
  refine touch.foldl ?_ ?_
  · exact touch.refl _ _
  · intro u41 y42 h43
    extract_lets x44 x45
    clear_value x44 x45
    refine touch.ite ?_ ?_
    · refine touch.step ?_ (State.addCounter_touch ..) rfl
      exact h43
    · exact h43

theorem State.countCl_touch : ∀ a0 a1 a2 a3 a4, touch 0x300000000180000000000000000000000000000000000000000 a0 (State.countCl a0 a1 a2 a3 a4) := by
  intro a0 a1 a2 a3 a4
  unfold State.countCl
  refine touch.step ?_ (State.countBy_touch ..) rfl
  exact touch.refl _ _

theorem State.slotClass_touch : ∀ a0 a1 a2 a3, touch 0x300000000180000000000000000000000000000000000000000 a0 (State.slotClass a0 a1 a2 a3) := by
  intro a0 a1 a2 a3
  unfold State.slotClass
  extract_lets x41
  have h42 : touch 0x300000000180000000000000000000000000000000000000000 a0 x41 := by
    unfold x41
    refine touch.step ?_ (State.countCl_touch ..) rfl
    exact touch.refl _ _
  clear_value x41
  refine touch.ite ?_ ?_
  · refine touch.step ?_ (State.addCounter_touch ..) rfl
    exact h42
  · exact h42

theorem State.moveSlots_touch : ∀ a0 a1 a2 a3 a4, touch 0x300000000180000000000000000800000000000000000000000 a0 (State.moveSlots a0 a1 a2 a3 a4) := by
  intro a0 a1 a2 a3 a4
  unfold State.moveSlots
  refine touch.step ?_ (State.slotClass_touch ..) rfl
  refine touch.step ?_ (State.useSlots_touch ..) rfl
  exact touch.refl _ _

theorem State.deferSlots_touch : ∀ a0 a1 a2 a3, touch 0x100000000000000000000800000000000000000000000 a0 (State.deferSlots a0 a1 a2 a3) := by
  intro a0 a1 a2 a3
  unfold State.deferSlots
  refine touch.step ?_ (touch.PMON_CL_CTL ..) rfl
  refine touch.step ?_ (State.useSlots_touch ..) rfl
  exact touch.refl _ _

theorem State.settleSlots_touch : ∀ a0 a1 a2 a3, touch 0x300000100180000000000000000000000000000000000000000 a0 (State.settleSlots a0 a1 a2 a3) := by
  intro a0 a1 a2 a3
  unfold State.settleSlots
  extract_lets x41
  clear_value x41
  refine touch.step ?_ (State.slotClass_touch ..) rfl
  refine touch.step ?_ (touch.PMON_CL_CTL ..) rfl
  exact touch.refl _ _

theorem State.wasteSlots_touch : ∀ a0 a1 a2, touch 0x300000100180000000000000000000000000000000000000000 a0 (State.wasteSlots a0 a1 a2) := by
  intro a0 a1 a2
  unfold State.wasteSlots
  refine touch.step ?_ (State.settleSlots_touch ..) rfl
  refine touch.step ?_ (State.countCl_touch ..) rfl
  exact touch.refl _ _

theorem State.returnTag_touch : ∀ a0 a1, touch 0x10000000000000000000000000000100000000 a0 (State.returnTag a0 a1) := by
  intro a0 a1
  unfold State.returnTag
  split
  · rename_i z41 z42 z43
    refine touch.step ?_ (State.returnAll_touch ..) rfl
    exact touch.refl _ _
  · rename_i z44 z45
    exact touch.refl _ _

theorem State.lateAnswer_touch : ∀ a0 a1, touch 0x3802000000046d8000000620000004000000000000000006000a0 a0 (State.lateAnswer a0 a1) := by
  intro a0 a1
  unfold State.lateAnswer
  refine touch.ite ?_ ?_
  · refine touch.step ?_ (State.raise_touch ..) rfl
    refine touch.step ?_ (touch.PORT_SLUICE ..) rfl
    exact touch.refl _ _
  · exact touch.refl _ _

theorem State.dropOutstanding_touch : ∀ a0 a1, touch 0x800000000 a0 (State.dropOutstanding a0 a1) := by
  intro a0 a1
  unfold State.dropOutstanding
  refine touch.step ?_ (touch.upd_outstanding ..) rfl
  exact touch.refl _ _

theorem State.prefetchArrives_touch : ∀ a0 a1 a2, touch 0x383200001005ed810000062000000c000000000000089086000a0 a0 (State.prefetchArrives a0 a1 a2) := by
  intro a0 a1 a2
  unfold State.prefetchArrives
  extract_lets x41 x42 x43 x44 x45 x46
  clear_value x42
  have h47 : touch 0x383200001005ed810000062000000c000000000000089086000a0 a0 x41 := by
    unfold x41
    refine touch.step ?_ (State.endLive_touch ..) rfl
    refine touch.step ?_ (State.returnTag_touch ..) rfl
    refine touch.step ?_ (State.dropOutstanding_touch ..) rfl
    exact touch.refl _ _
  have h48 : touch 0x383200001005ed810000062000000c000000000000089086000a0 a0 x43 := by
    unfold x43
    refine touch.step ?_ (State.returnAll_touch ..) rfl
    exact h47
  have h49 : touch 0x383200001005ed810000062000000c000000000000089086000a0 a0 x44 := by
    unfold x44
    refine touch.ite ?_ ?_
    · exact h48
    · refine touch.step ?_ (State.lateAnswer_touch ..) rfl
      exact h48
  have h50 : touch 0x383200001005ed810000062000000c000000000000089086000a0 a0 x45 := by
    unfold x45
    refine touch.step ?_ (State.deferSlots_touch ..) rfl
    exact h47
  have h51 : touch 0x383200001005ed810000062000000c000000000000089086000a0 a0 x46 := by
    unfold x46
    refine touch.step ?_ (State.wasteSlots_touch ..) rfl
    refine touch.step ?_ (State.returnAll_touch ..) rfl
    exact h47
  clear_value x41 x43 x44 x45 x46
  refine touch.ite ?_ ?_
  · refine touch.ite ?_ ?_
    · refine touch.step ?_ (State.moveSlots_touch ..) rfl
      refine touch.step ?_ (State.countCl_touch ..) rfl
      exact h49
    · exact h49
  · refine touch.ite ?_ ?_
    · refine touch.step ?_ (touch.upd_streams ..) rfl
      exact h50
    · refine touch.step ?_ (touch.upd_streams ..) rfl
      exact h51

theorem State.deliver_touch : ∀ a0 a1 a2 a3 a4 a5, touch 0x3800000000046d8100000620000004000000000100305086000a0 a0 (State.deliver a0 a1 a2 a3 a4 a5) := by
  intro a0 a1 a2 a3 a4 a5
  unfold State.deliver
  extract_lets x41 x42
  clear_value x41 x42
  split
  · rename_i z43 z44
    refine touch.ite ?_ ?_
    · refine touch.step ?_ (State.sendAnswer_touch ..) rfl
      exact touch.refl _ _
    · refine touch.step ?_ (State.sendOn_touch ..) rfl
      exact touch.refl _ _
  · rename_i z45
    refine touch.step ?_ (State.sendOn_touch ..) rfl
    exact touch.refl _ _

theorem State.setOutstanding_touch : ∀ a0 a1, touch 0x800000000 a0 (State.setOutstanding a0 a1) := by
  intro a0 a1
  unfold State.setOutstanding
  refine touch.step ?_ (touch.upd_outstanding ..) rfl
  exact touch.refl _ _

theorem State.bargeArrives_touch : ∀ a0 a1 a2, touch 0x3802000000046d810000062000000400000000010030d086000a0 a0 (State.bargeArrives a0 a1 a2) := by
  intro a0 a1 a2
  unfold State.bargeArrives
  split
  · rename_i z41 z42
    exact touch.refl _ _
  · rename_i z43 z44 z45
    extract_lets x46 x47 x48 x49 x50
    clear_value x46 x50
    have h51 : touch 0x3802000000046d810000062000000400000000010030d086000a0 a0 x48 := by
      unfold x48
      unfold x47
      refine touch.ite ?_ ?_
      · refine touch.step ?_ (State.raise_touch ..) rfl
        refine touch.step ?_ (touch.PORT_SLUICE ..) rfl
        refine touch.step ?_ (State.dropOutstanding_touch ..) rfl
        refine touch.step ?_ (State.returnTag_touch ..) rfl
        exact touch.refl _ _
      · refine touch.step ?_ (State.dropOutstanding_touch ..) rfl
        refine touch.step ?_ (State.returnTag_touch ..) rfl
        exact touch.refl _ _
    have h52 : touch 0x3802000000046d810000062000000400000000010030d086000a0 a0 x49 := by
      unfold x49
      refine touch.ite ?_ ?_
      · refine touch.ite ?_ ?_
        · refine touch.step ?_ (State.returnAll_touch ..) rfl
          exact h51
        · exact h51
      · refine touch.step ?_ (State.setOutstanding_touch ..) rfl
        exact touch.refl _ _
    clear_value x48 x49
    refine touch.ite ?_ ?_
    · exact h52
    · refine touch.step ?_ (State.deliver_touch ..) rfl
      exact h52

theorem State.countLoss_touch : ∀ a0 a1, touch 0x3c00000000046d8000000620000004000000000000000006000a0 a0 (State.countLoss a0 a1) := by
  intro a0 a1
  unfold State.countLoss
  extract_lets x41 x42
  clear_value x42
  have h43 : touch 0x3c00000000046d8000000620000004000000000000000006000a0 a0 x41 := by
    unfold x41
    refine touch.step ?_ (touch.WIN_STATE ..) rfl
    refine touch.step ?_ (touch.WIN_STATE ..) rfl
    exact touch.refl _ _
  clear_value x41
  refine touch.ite ?_ ?_
  · refine touch.step ?_ (State.raise_touch ..) rfl
    refine touch.step ?_ (touch.WIN_STATE ..) rfl
    exact h43
  · exact h43

theorem State.countDie_touch : ∀ a0 a1 a2 a3 a4, touch 0x300000000180000000000000000000000000000000000000000 a0 (State.countDie a0 a1 a2 a3 a4) := by
  intro a0 a1 a2 a3 a4
  unfold State.countDie
  refine touch.step ?_ (State.countBy_touch ..) rfl
  exact touch.refl _ _

theorem State.recordLoss_touch : ∀ a0 a1 a2, touch 0x3c3000000005ed8000000620000004000000000000000006000a0 a0 (State.recordLoss a0 a1 a2) := by
  intro a0 a1 a2
  unfold State.recordLoss
  extract_lets x41 x42 x43 x44
  clear_value x41
  have h45 : touch 0x3c3000000005ed8000000620000004000000000000000006000a0 a0 x42 := by
    unfold x42
    refine touch.step ?_ (State.countDie_touch ..) rfl
    refine touch.step ?_ (State.offer_touch ..) rfl
    exact touch.refl _ _
  have h46 : touch 0x3c3000000005ed8000000620000004000000000000000006000a0 a0 x43 := by
    unfold x43
    refine touch.ite ?_ ?_
    · exact h45
    · refine touch.step ?_ (State.countLoss_touch ..) rfl
      exact h45
  have h47 : touch 0x3c3000000005ed8000000620000004000000000000000006000a0 a0 x44 := by
    unfold x44
    refine touch.step ?_ (State.raise_touch ..) rfl
    exact h46
  clear_value x42 x43 x44
  refine touch.ite ?_ ?_
  · exact h47
  · refine touch.step ?_ (State.partitionEntry_touch ..) rfl
    exact h47

theorem State.failWrite_touch : ∀ a0 a1 a2 a3 a4 a5, touch 0x3c3000000005ed8000000620000004000000000000040006000a0 a0 (State.failWrite a0 a1 a2 a3 a4 a5) := by
  intro a0 a1 a2 a3 a4 a5
  unfold State.failWrite
  extract_lets x41 x42
  have h43 : touch 0x3c3000000005ed8000000620000004000000000000040006000a0 a0 x41 := by
    unfold x41
    refine touch.step ?_ (touch.upd_heldFailures ..) rfl
    exact touch.refl _ _
  have h44 : touch 0x3c3000000005ed8000000620000004000000000000040006000a0 a0 x42 := by
    unfold x42
    refine touch.step ?_ (touch.WIN_STATE ..) rfl
    exact h43
  clear_value x41 x42
  refine touch.step ?_ (State.recordLoss_touch ..) rfl
  exact h44

theorem State.showTracker_touch : ∀ a0 a1 a2, touch 0xc000000080000000000000000000000000000000000000000000 a0 (State.showTracker a0 a1 a2) := by
  intro a0 a1 a2
  unfold State.showTracker
  extract_lets x41 x42 x43 x44 x45
  clear_value x41 x45
  have h46 : touch 0xc000000080000000000000000000000000000000000000000000 a0 x42 := by
    unfold x42
    refine touch.step ?_ (touch.WIN_TRACK ..) rfl
    exact touch.refl _ _
  have h47 : touch 0xc000000080000000000000000000000000000000000000000000 a0 x43 := by
    unfold x43
    refine touch.step ?_ (State.setLive_touch ..) rfl
    exact h46
  have h48 : touch 0xc000000080000000000000000000000000000000000000000000 a0 x44 := by
    unfold x44
    refine touch.step ?_ (touch.WIN_TRACK ..) rfl
    exact h47
  clear_value x42 x43 x44
  refine touch.step ?_ (touch.WIN_STATE ..) rfl
  exact h48

theorem State.reportError_touch : ∀ a0 a1 a2 a3, touch 0x40 a0 (State.reportError a0 a1 a2 a3) := by
  intro a0 a1 a2 a3
  unfold State.reportError
  refine touch.ite ?_ ?_
  · refine touch.step ?_ (State.emit_touch ..) rfl
    exact touch.refl _ _
  · exact touch.refl _ _

theorem State.setVport_touch : ∀ a0 a1 a2 a3, touch 0x8000000000000000 a0 (State.setVport a0 a1 a2 a3) := by
  intro a0 a1 a2 a3
  unfold State.setVport
  refine touch.step ?_ (touch.upd_virtPorts ..) rfl
  exact touch.refl _ _

theorem State.noteAer_touch : ∀ a0 a1 a2 a3, touch 0x8000000000000040 a0 (State.noteAer a0 a1 a2 a3) := by
  intro a0 a1 a2 a3
  unfold State.noteAer
  split
  · rename_i z41 z42
    exact touch.refl _ _
  · rename_i z43 z44 z45 z46
    extract_lets x47 x48 x49 x50 x51 x52
    clear_value x47 x48 x49 x50 x51
    have h53 : touch 0x8000000000000040 a0 x52 := by
      unfold x52
      refine touch.step ?_ (State.setVport_touch ..) rfl
      exact touch.refl _ _
    clear_value x52
    refine touch.ite ?_ ?_
    · exact h53
    · refine touch.step ?_ (State.reportError_touch ..) rfl
      exact h53

theorem State.logAerAt_touch : ∀ a0 a1 a2 a3, touch 0x68000000000000040 a0 (State.logAerAt a0 a1 a2 a3) := by
  intro a0 a1 a2 a3
  unfold State.logAerAt
  extract_lets x41 x42 x43
  clear_value x41
  have h44 : touch 0x68000000000000040 a0 x42 := by
    unfold x42
    refine touch.step ?_ (touch.upd_aer ..) rfl
    exact touch.refl _ _
  have h45 : touch 0x68000000000000040 a0 x43 := by
    unfold x43
    split
    · rename_i z46 z47
      refine touch.ite ?_ ?_
      · refine touch.step ?_ (touch.upd_aerHeader ..) rfl
        exact h44
      · exact h44
    · rename_i z48
      exact h44
  clear_value x42 x43
  refine touch.step ?_ (State.noteAer_touch ..) rfl
  exact h45

theorem State.logAer_touch : ∀ a0 a1 a2 a3, touch 0x3800000000046d8000000620000004000000680000000006000e0 a0 (State.logAer a0 a1 a2 a3) := by
  intro a0 a1 a2 a3
  unfold State.logAer
  extract_lets x41
  have h42 : touch 0x3800000000046d8000000620000004000000680000000006000e0 a0 x41 := by
    unfold x41
    refine touch.foldl ?_ ?_
    · exact touch.refl _ _
    · intro u43 y44 h45
      refine touch.step ?_ (State.logAerAt_touch ..) rfl
      exact h45
  clear_value x41
  refine touch.ite ?_ ?_
  · refine touch.step ?_ (State.raise_touch ..) rfl
    exact h42
  · exact h42

theorem State.endWith_touch : ∀ a0 a1 a2, touch 0x3800000000046d810000062000000400000068010030d086000e0 a0 (State.endWith a0 a1 a2) := by
  intro a0 a1 a2
  unfold State.endWith
  extract_lets x41 x42
  clear_value x41
  have h43 : touch 0x3800000000046d810000062000000400000068010030d086000e0 a0 x42 := by
    unfold x42
    refine touch.step ?_ (State.dropOutstanding_touch ..) rfl
    exact touch.refl _ _
  clear_value x42
  split
  · rename_i z44 z45 z46
    extract_lets x47 x48
    have h49 : touch 0x3800000000046d810000062000000400000068010030d086000e0 a0 x47 := by
      unfold x47
      refine touch.step ?_ (State.logAer_touch ..) rfl
      exact h43
    have h50 : touch 0x3800000000046d810000062000000400000068010030d086000e0 a0 x48 := by
      unfold x48
      refine touch.ite ?_ ?_
      · refine touch.step ?_ (State.raise_touch ..) rfl
        exact h49
      · exact h49
    clear_value x47 x48
    refine touch.step ?_ (State.deliver_touch ..) rfl
    exact h50
  · rename_i z51 z52
    split
    · rename_i z53 z54 z55
      extract_lets x56
      clear_value x56
      refine touch.step ?_ (State.deliver_touch ..) rfl
      exact h43
    · rename_i z57 z58
      exact h43

theorem State.nativeLosses_touch : ∀ a0 a1 a2 a3 a4, touch 0x3c3000000005ed8000000620000004000000000000000006000a0 a0 (State.nativeLosses a0 a1 a2 a3 a4) := by
  intro a0 a1 a2 a3 a4
  unfold State.nativeLosses
  split
  · rename_i z41 z42 z43
    refine touch.ite ?_ ?_
    · refine touch.foldl ?_ ?_
      · exact touch.refl _ _
      · intro u44 y45 h46
        refine touch.step ?_ (State.recordLoss_touch ..) rfl
        exact h46
    · exact touch.refl _ _
  · rename_i z47 z48
    exact touch.refl _ _

theorem State.reportFailures_touch : ∀ a0 a1 a2 a3 a4, touch 0x4000000000000000000000000000000000000000004000000000 a0 (State.reportFailures a0 a1 a2 a3 a4) := by
  intro a0 a1 a2 a3 a4
  unfold State.reportFailures
  extract_lets x41 x42
  clear_value x41
  have h43 : touch 0x4000000000000000000000000000000000000000004000000000 a0 x42 := by
    unfold x42
    refine touch.step ?_ (touch.upd_heldFailures ..) rfl
    exact touch.refl _ _
  clear_value x42
  refine touch.ite ?_ ?_
  · exact h43
  · refine touch.step ?_ (touch.WIN_STATE ..) rfl
    exact h43

theorem State.progress_touch : ∀ a0 a1 a2, touch 0x3c3000000005ed810000062000000400000068010034d086000e0 a0 (State.progress a0 a1 a2) := by
  intro a0 a1 a2
  unfold State.progress
  split
  · rename_i z41 z42
    exact touch.refl _ _
  · rename_i z43 z44 z45
    refine touch.ite ?_ ?_
    · exact touch.refl _ _
    · refine touch.ite ?_ ?_
      · exact touch.refl _ _
      · refine touch.ite ?_ ?_
        · refine touch.ite ?_ ?_
          · exact touch.refl _ _
          · extract_lets x46 x47
            clear_value x46
            have h48 : touch 0x3c3000000005ed810000062000000400000068010034d086000e0 a0 x47 := by
              unfold x47
              refine touch.step ?_ (State.reportFailures_touch ..) rfl
              exact touch.refl _ _
            clear_value x47
            refine touch.step ?_ (State.endWith_touch ..) rfl
            exact h48
        · split
          · rename_i z49 z50 z51
            extract_lets x52 x53 x54 x55 x56 x57 x58 x59 x60 x61 x62
            clear_value x52 x53 x54 x55 x56 x58 x59 x60 x61 x62
            have h63 : touch 0x3c3000000005ed810000062000000400000068010034d086000e0 a0 x57 := by
              unfold x57
              refine touch.step ?_ (State.dropOutstanding_touch ..) rfl
              exact touch.refl _ _
            clear_value x57
            split
            · rename_i z64 z65
              extract_lets x66 x67 x68 x69 x70 x71 x72 x73
              clear_value x66 x67 x68 x69 x70 x72 x73
              have h74 : touch 0x3c3000000005ed810000062000000400000068010034d086000e0 a0 x71 := by
                unfold x71
                refine touch.ite ?_ ?_
                · refine touch.step ?_ (State.logAer_touch ..) rfl
                  exact h63
                · exact h63
              clear_value x71
              refine touch.ite ?_ ?_
              · refine touch.step ?_ (State.deliver_touch ..) rfl
                exact h74
              · refine touch.ite ?_ ?_
                · exact touch.refl _ _
                · refine touch.step ?_ (State.deliver_touch ..) rfl
                  refine touch.step ?_ (State.setOutstanding_touch ..) rfl
                  exact touch.refl _ _
            · rename_i z75
              refine touch.ite ?_ ?_
              · refine touch.ite ?_ ?_
                · refine touch.step ?_ (State.deliver_touch ..) rfl
                  exact h63
                · refine touch.ite ?_ ?_
                  · refine touch.step ?_ (State.deliver_touch ..) rfl
                    exact h63
                  · refine touch.step ?_ (State.deliver_touch ..) rfl
                    exact h63
              · refine touch.ite ?_ ?_
                · exact touch.refl _ _
                · refine touch.step ?_ (State.deliver_touch ..) rfl
                  refine touch.step ?_ (State.setOutstanding_touch ..) rfl
                  exact touch.refl _ _
          · rename_i z76 z77
            split
            · rename_i z78 z79
              refine touch.ite ?_ ?_
              · refine touch.step ?_ (State.endLive_touch ..) rfl
                refine touch.step ?_ (State.returnAll_touch ..) rfl
                refine touch.step ?_ (State.dropOutstanding_touch ..) rfl
                exact touch.refl _ _
              · exact touch.refl _ _
            · rename_i z80 z81 z82
              refine touch.ite ?_ ?_
              · exact touch.refl _ _
              · extract_lets x83 x84 x85 x86 x87 x88 x89
                clear_value x84 x86 x87 x88 x89
                have h90 : touch 0x3c3000000005ed810000062000000400000068010034d086000e0 a0 x83 := by
                  unfold x83
                  refine touch.step ?_ (State.dropOutstanding_touch ..) rfl
                  exact touch.refl _ _
                have h91 : touch 0x3c3000000005ed810000062000000400000068010034d086000e0 a0 x85 := by
                  unfold x85
                  refine touch.step ?_ (State.nativeLosses_touch ..) rfl
                  exact h90
                clear_value x83 x85
                refine touch.step ?_ (State.deliver_touch ..) rfl
                exact h91

theorem State.progressWindow_touch : ∀ a0 a1 a2 a3, touch 0x3c3000000005ed810000062000000400000068010034d086000e0 a0 (State.progressWindow a0 a1 a2 a3) := by
  intro a0 a1 a2 a3
  unfold State.progressWindow
  refine touch.foldl ?_ ?_
  · exact touch.refl _ _
  · intro u41 y42 h43
    refine touch.step ?_ (State.progress_touch ..) rfl
    exact h43

theorem State.ackWrite_touch : ∀ a0 a1 a2 a3 a4 a5, touch 0x3c3000000805ed810000062000000400000068010034d086000e0 a0 (State.ackWrite a0 a1 a2 a3 a4 a5) := by
  intro a0 a1 a2 a3 a4 a5
  unfold State.ackWrite
  extract_lets x41 x42 x43 x44 x45
  clear_value x44
  have h46 : touch 0x3c3000000805ed810000062000000400000068010034d086000e0 a0 x41 := by
    unfold x41
    refine touch.step ?_ (State.returnAll_touch ..) rfl
    exact touch.refl _ _
  have h47 : touch 0x3c3000000805ed810000062000000400000068010034d086000e0 a0 x42 := by
    unfold x42
    refine touch.ite ?_ ?_
    · refine touch.step ?_ (State.dropOutstanding_touch ..) rfl
      refine touch.step ?_ (State.endLive_touch ..) rfl
      refine touch.step ?_ (State.returnAll_touch ..) rfl
      exact h46
    · exact h46
  have h48 : touch 0x3c3000000805ed810000062000000400000068010034d086000e0 a0 x43 := by
    unfold x43
    refine touch.ite ?_ ?_
    · exact h47
    · refine touch.step ?_ (State.failWrite_touch ..) rfl
      exact h47
  have h49 : touch 0x3c3000000805ed810000062000000400000068010034d086000e0 a0 x45 := by
    unfold x45
    split
    · rename_i z50 z51 z52
      refine touch.ite ?_ ?_
      · refine touch.step ?_ (State.complete_touch ..) rfl
        exact h48
      · exact h48
    · rename_i z53 z54
      exact h48
  clear_value x41 x42 x43 x45
  refine touch.step ?_ (State.progressWindow_touch ..) rfl
  refine touch.step ?_ (State.showTracker_touch ..) rfl
  exact h49

theorem State.completionArrives_touch : ∀ a0 a1, touch 0x3c3200001805ed810000062000000c0000006801003cd086000e0 a0 (State.completionArrives a0 a1) := by
  intro a0 a1
  unfold State.completionArrives
  split
  · rename_i z41 z42
    exact touch.refl _ _
  · rename_i z43 z44 z45
    split
    · rename_i z46 z47
      exact touch.refl _ _
    · rename_i z48 z49 z50
      extract_lets x51 x52 x53 x54
      clear_value x51
      have h55 : touch 0x3c3200001805ed810000062000000c0000006801003cd086000e0 a0 x52 := by
        unfold x52
        refine touch.step ?_ (State.returnTag_touch ..) rfl
        exact touch.refl _ _
      have h56 : touch 0x3c3200001805ed810000062000000c0000006801003cd086000e0 a0 x53 := by
        unfold x53
        refine touch.step ?_ (State.lateAnswer_touch ..) rfl
        exact h55
      have h57 : touch 0x3c3200001805ed810000062000000c0000006801003cd086000e0 a0 x54 := by
        unfold x54
        refine touch.step ?_ (State.setOutstanding_touch ..) rfl
        exact h55
      clear_value x52 x53 x54
      refine touch.ite ?_ ?_
      · refine touch.step ?_ (State.bargeArrives_touch ..) rfl
        exact touch.refl _ _
      · refine touch.ite ?_ ?_
        · refine touch.step ?_ (State.prefetchArrives_touch ..) rfl
          exact touch.refl _ _
        · refine touch.ite ?_ ?_
          · refine touch.ite ?_ ?_
            · refine touch.step ?_ (State.dropOutstanding_touch ..) rfl
              refine touch.step ?_ (State.returnAll_touch ..) rfl
              exact h56
            · refine touch.step ?_ (State.setOutstanding_touch ..) rfl
              exact h56
          · refine touch.ite ?_ ?_
            · refine touch.step ?_ (State.ackWrite_touch ..) rfl
              exact h57
            · refine touch.ite ?_ ?_
              · refine touch.step ?_ (State.deliver_touch ..) rfl
                refine touch.step ?_ (State.dropOutstanding_touch ..) rfl
                exact h57
              · refine touch.step ?_ (State.progress_touch ..) rfl
                exact h57

theorem State.freeLock_touch : ∀ a0, touch 0x800000000000000000000000000 a0 (State.freeLock a0) := by
  intro a0
  unfold State.freeLock
  refine touch.step ?_ (touch.PKG_LOCK ..) rfl
  refine touch.step ?_ (touch.PKG_LOCK ..) rfl
  refine touch.step ?_ (touch.PKG_LOCK ..) rfl
  refine touch.step ?_ (touch.PKG_LOCK ..) rfl
  exact touch.refl _ _

theorem State.releaseNear_touch : ∀ a0, touch 0x800000000000000000000000000 a0 (State.releaseNear a0) := by
  intro a0
  unfold State.releaseNear
  refine touch.ite ?_ ?_
  · refine touch.step ?_ (touch.PKG_LOCK ..) rfl
    exact touch.refl _ _
  · refine touch.step ?_ (State.freeLock_touch ..) rfl
    exact touch.refl _ _

theorem State.unlockSent_touch : ∀ a0 a1 a2, touch 0x800000000000000000000000000 a0 (State.unlockSent a0 a1 a2) := by
  intro a0 a1 a2
  unfold State.unlockSent
  extract_lets x41
  clear_value x41
  refine touch.ite ?_ ?_
  · refine touch.step ?_ (State.releaseNear_touch ..) rfl
    exact touch.refl _ _
  · exact touch.refl _ _

theorem State.tookFree_touch : ∀ a0, touch 0x10 a0 (State.tookFree a0) := by
  intro a0
  unfold State.tookFree
  refine touch.step ?_ (touch.upd_freeCount ..) rfl
  exact touch.refl _ _

theorem State.lockBusy_touch : ∀ a0 a1, touch 0x3c3200001805ed810000062000800c0000006801007cd086000f0 a0 (State.lockBusy a0 a1) := by
  intro a0 a1
  unfold State.lockBusy
  split
  · rename_i z41 z42
    exact touch.refl _ _
  · rename_i z43 z44 z45
    refine touch.ite ?_ ?_
    · refine touch.step ?_ (State.completionArrives_touch ..) rfl
      exact touch.refl _ _
    · extract_lets x46 x47 x48 x49 x50
      have h51 : touch 0x3c3200001805ed810000062000800c0000006801007cd086000f0 a0 x46 := by
        unfold x46
        refine touch.step ?_ (State.endLive_touch ..) rfl
        refine touch.step ?_ (State.returnAll_touch ..) rfl
        refine touch.step ?_ (State.returnTag_touch ..) rfl
        exact touch.refl _ _
      have h52 : touch 0x3c3200001805ed810000062000800c0000006801007cd086000f0 a0 x47 := by
        unfold x47
        refine touch.step ?_ (State.moveSlots_touch ..) rfl
        refine touch.step ?_ (State.settleSlots_touch ..) rfl
        refine touch.step ?_ (State.countCl_touch ..) rfl
        exact h51
      have h53 : touch 0x3c3200001805ed810000062000800c0000006801007cd086000f0 a0 x48 := by
        unfold x48
        refine touch.step ?_ (State.setOutstanding_touch ..) rfl
        exact h52
      have h54 : touch 0x3c3200001805ed810000062000800c0000006801007cd086000f0 a0 x49 := by
        unfold x49
        refine touch.step ?_ (State.tookFree_touch ..) rfl
        refine touch.step ?_ (touch.upd_lockWait ..) rfl
        exact h53
      have h55 : touch 0x3c3200001805ed810000062000800c0000006801007cd086000f0 a0 x50 := by
        unfold x50
        refine touch.step ?_ (touch.PKG_LOCK ..) rfl
        refine touch.step ?_ (State.unlockSent_touch ..) rfl
        exact h54
      clear_value x46 x47 x48 x49 x50
      refine touch.ite ?_ ?_
      · refine touch.step ?_ (touch.upd_lockWait ..) rfl
        exact h55
      · exact h54

theorem State.issueWaiting_touch : ∀ a0 a1 a2 a3, touch 0x10000000000000000000000000001b00000000 a0 (State.issueWaiting a0 a1 a2 a3) := by
  intro a0 a1 a2 a3
  unfold State.issueWaiting
  refine touch.foldl ?_ ?_
  · exact touch.refl _ _
  · intro u41 y42 h43
    split
    · rename_i z44 z45 z46 z47
      have h48 : touch 0x10000000000000000000000000001b00000000 a0 z45 := by
        refine touch.ofEq z47 ?_
        refine touch.step ?_ (State.newId_touch ..) rfl
        refine touch.step ?_ (State.setOutstanding_touch ..) rfl
        exact h43
      refine touch.step ?_ (State.enqueue_touch ..) rfl
      exact h48

theorem State.useStream_touch : ∀ a0 a1 a2 a3, touch 0x300000100180010000000000000000000000000008100000000 a0 (State.useStream a0 a1 a2 a3) := by
  intro a0 a1 a2 a3
  unfold State.useStream
  split
  · rename_i z41 z42
    exact touch.refl _ _
  · rename_i z43 z44 z45
    split
    · rename_i z46 z47 z48 z49 z50
      refine touch.step ?_ (State.settleSlots_touch ..) rfl
      refine touch.step ?_ (State.returnAll_touch ..) rfl
      refine touch.step ?_ (touch.upd_streams ..) rfl
      exact touch.refl _ _

theorem State.fillWaiting_touch : ∀ a0 a1 a2, touch 0x3c3000001005ed81000006200000040000006801003df086000e0 a0 (State.fillWaiting a0 a1 a2) := by
  intro a0 a1 a2
  unfold State.fillWaiting
  refine touch.ite ?_ ?_
  · exact touch.refl _ _
  · refine touch.ite ?_ ?_
    · refine touch.step ?_ (State.issueWaiting_touch ..) rfl
      exact touch.refl _ _
    · refine touch.foldl ?_ ?_
      · exact touch.refl _ _
      · intro u41 y42 h43
        extract_lets x44 x45 x46 x47
        clear_value x44 x47
        have h48 : touch 0x3c3000001005ed81000006200000040000006801003df086000e0 a0 x45 := by
          unfold x45
          refine touch.step ?_ (State.useStream_touch ..) rfl
          exact h43
        clear_value x45 x46
        refine touch.step ?_ (State.countCl_touch ..) rfl
        refine touch.step ?_ (State.progress_touch ..) rfl
        refine touch.step ?_ (State.setOutstanding_touch ..) rfl
        exact h48

theorem State.endLocked_touch : ∀ a0 a1, touch 0x40000000000 a0 (State.endLocked a0 a1) := by
  intro a0 a1
  unfold State.endLocked
  refine touch.step ?_ (touch.upd_lockWait ..) rfl
  exact touch.refl _ _

theorem State.lockGranted_touch : ∀ a0 a1, touch 0x3c3200001805ed810000062000800c0000006801007cd086000e0 a0 (State.lockGranted a0 a1) := by
  intro a0 a1
  unfold State.lockGranted
  split
  · rename_i z41 z42
    exact touch.refl _ _
  · rename_i z43 z44 z45
    refine touch.ite ?_ ?_
    · refine touch.step ?_ (State.completionArrives_touch ..) rfl
      exact touch.refl _ _
    · extract_lets x46 x47
      clear_value x46
      have h48 : touch 0x3c3200001805ed810000062000800c0000006801007cd086000e0 a0 x47 := by
        unfold x47
        refine touch.ite ?_ ?_
        · refine touch.ite ?_ ?_
          · refine touch.step ?_ (touch.PKG_LOCK ..) rfl
            exact touch.refl _ _
          · exact touch.refl _ _
        · refine touch.ite ?_ ?_
          · refine touch.step ?_ (State.freeLock_touch ..) rfl
            exact touch.refl _ _
          · exact touch.refl _ _
      clear_value x47
      refine touch.step ?_ (State.completionArrives_touch ..) rfl
      refine touch.step ?_ (State.endLocked_touch ..) rfl
      refine touch.step ?_ (State.settleSlots_touch ..) rfl
      exact h48

theorem State.completionHere_touch : ∀ a0 a1, touch 0x3c3200001805ed810000062000800c0000006801007df086000f0 a0 (State.completionHere a0 a1) := by
  intro a0 a1
  unfold State.completionHere
  split
  · rename_i z41 z42 z43
    refine touch.ite ?_ ?_
    · refine touch.ite ?_ ?_
      · refine touch.step ?_ (State.lockBusy_touch ..) rfl
        exact touch.refl _ _
      · refine touch.step ?_ (State.lockGranted_touch ..) rfl
        exact touch.refl _ _
    · refine touch.ite ?_ ?_
      · split
        · rename_i z44 z45 z46 z47
          refine touch.step ?_ (State.fillWaiting_touch ..) rfl
          refine touch.step ?_ (State.prefetchArrives_touch ..) rfl
          exact touch.refl _ _
        · rename_i z48 z49
          exact touch.refl _ _
      · refine touch.step ?_ (State.completionArrives_touch ..) rfl
        exact touch.refl _ _
  · rename_i z50 z51
    exact touch.refl _ _

theorem State.carryNear_touch : ∀ a0 a1 a2 a3, touch 0x3c3200001805ed810000062000800c0000006801007df086000f0 a0 (State.carryNear a0 a1 a2 a3) := by
  intro a0 a1 a2 a3
  unfold State.carryNear
  split
  · rename_i z41 z42
    exact touch.refl _ _
  · rename_i z43 z44 z45
    refine touch.ite ?_ ?_
    · refine touch.step ?_ (State.completionHere_touch ..) rfl
      exact touch.refl _ _
    · extract_lets x46
      clear_value x46
      refine touch.step ?_ (State.sendOn_touch ..) rfl
      exact touch.refl _ _

theorem State.sendNear_touch : ∀ a0 a1 a2, touch 0x3c3200001805ed810000062000800c0000006801007df086000f0 a0 (State.sendNear a0 a1 a2) := by
  intro a0 a1 a2
  unfold State.sendNear
  extract_lets x41
  clear_value x41
  refine touch.step ?_ (State.carryNear_touch ..) rfl
  refine touch.step ?_ (State.noteAnswer_touch ..) rfl
  exact touch.refl _ _

theorem State.answerTo_touch : ∀ a0 a1 a2 a3 a4 a5, touch 0x3c3200001805ed810000062000800c0000006801007df086000f0 a0 (State.answerTo a0 a1 a2 a3 a4 a5) := by
  intro a0 a1 a2 a3 a4 a5
  unfold State.answerTo
  refine touch.ite ?_ ?_
  · refine touch.step ?_ (State.sendNear_touch ..) rfl
    exact touch.refl _ _
  · split
    · rename_i z41 z42 z43
      refine touch.ite ?_ ?_
      · refine touch.step ?_ (State.lateAnswer_touch ..) rfl
        refine touch.step ?_ (State.dropOutstanding_touch ..) rfl
        exact touch.refl _ _
      · refine touch.step ?_ (State.complete_touch ..) rfl
        refine touch.step ?_ (State.dropOutstanding_touch ..) rfl
        exact touch.refl _ _
    · rename_i z44 z45
      refine touch.step ?_ (State.complete_touch ..) rfl
      exact touch.refl _ _

theorem State.recordEndpointLoss_touch : ∀ a0 a1 a2, touch 0x383000000001ed800000062000000000000000000000000200020 a0 (State.recordEndpointLoss a0 a1 a2) := by
  intro a0 a1 a2
  unfold State.recordEndpointLoss
  extract_lets x41 x42
  clear_value x41 x42
  refine touch.step ?_ (State.countDie_touch ..) rfl
  refine touch.step ?_ (State.offer_touch ..) rfl
  exact touch.refl _ _

theorem State.enterLoss_touch : ∀ a0 a1, touch 0x3c3000000005ed8000000620000004000000000000000006000a0 a0 (State.enterLoss a0 a1) := by
  intro a0 a1
  unfold State.enterLoss
  split
  · rename_i z41 z42 z43 z44
    refine touch.step ?_ (State.recordLoss_touch ..) rfl
    exact touch.refl _ _
  · rename_i z45 z46 z47 z48 z49
    refine touch.step ?_ (State.recordEndpointLoss_touch ..) rfl
    exact touch.refl _ _
  · rename_i z50 z51 z52 z53
    exact touch.refl _ _

theorem State.lose_touch : ∀ a0 a1 a2 a3 a4, touch 0x3c3000000005ed8000000620000004000000000000000006000a0 a0 (State.lose a0 a1 a2 a3 a4) := by
  intro a0 a1 a2 a3 a4
  unfold State.lose
  extract_lets x41
  clear_value x41
  refine touch.ite ?_ ?_
  · refine touch.step ?_ (State.enterLoss_touch ..) rfl
    exact touch.refl _ _
  · refine touch.step ?_ (State.originate_touch ..) rfl
    exact touch.refl _ _

theorem State.failPacket_touch : ∀ a0 a1 a2 a3, touch 0x3c3200001805ed810000062000800c0000006801007df086000f0 a0 (State.failPacket a0 a1 a2 a3) := by
  intro a0 a1 a2 a3
  unfold State.failPacket
  refine touch.ite ?_ ?_
  · exact touch.refl _ _
  · refine touch.ite ?_ ?_
    · refine touch.step ?_ (State.answerTo_touch ..) rfl
      exact touch.refl _ _
    · refine touch.ite ?_ ?_
      · refine touch.step ?_ (State.lose_touch ..) rfl
        exact touch.refl _ _
      · exact touch.refl _ _

theorem State.failHeld_touch : ∀ a0 a1 a2 a3, touch 0x3c3200001805ed810000062000800c0000006801007df086000f0 a0 (State.failHeld a0 a1 a2 a3) := by
  intro a0 a1 a2 a3
  unfold State.failHeld
  extract_lets x41 x42
  clear_value x41
  have h43 : touch 0x3c3200001805ed810000062000800c0000006801007df086000f0 a0 x42 := by
    unfold x42
    refine touch.step ?_ (State.endLive_touch ..) rfl
    refine touch.ite ?_ ?_
    · refine touch.step ?_ (State.reclaimAll_touch ..) rfl
      exact touch.refl _ _
    · refine touch.step ?_ (State.returnAll_touch ..) rfl
      exact touch.refl _ _
  clear_value x42
  refine touch.ite ?_ ?_
  · exact h43
  · refine touch.step ?_ (State.failPacket_touch ..) rfl
    refine touch.ite ?_ ?_
    · refine touch.step ?_ (State.spareTag_touch ..) rfl
      exact h43
    · exact h43

theorem State.showTags_touch : ∀ a0 a1, touch 0x1000000000000000000000000000000000000000000000000 a0 (State.showTags a0 a1) := by
  intro a0 a1
  unfold State.showTags
  refine touch.ite ?_ ?_
  · refine touch.step ?_ (touch.PORT_PCIE ..) rfl
    exact touch.refl _ _
  · exact touch.refl _ _

theorem State.ask_touch : ∀ a0 a1, touch 0x1000000000000000000000000000000000000002000000000 a0 (State.ask a0 a1) := by
  intro a0 a1
  unfold State.ask
  refine touch.step ?_ (State.showTags_touch ..) rfl
  refine touch.step ?_ (touch.upd_device ..) rfl
  exact touch.refl _ _

theorem State.issueConfig_touch : ∀ a0 a1 a2, touch 0x3800100000046d8000000620000004000002000000020006000e0 a0 (State.issueConfig a0 a1 a2) := by
  intro a0 a1 a2
  unfold State.issueConfig
  extract_lets x41 x42 x43 x44 x45
  clear_value x41 x42 x43
  have h46 : touch 0x3800100000046d8000000620000004000002000000020006000e0 a0 x44 := by
    unfold x44
    refine touch.step ?_ (State.ask_touch ..) rfl
    exact touch.refl _ _
  have h47 : touch 0x3800100000046d8000000620000004000002000000020006000e0 a0 x45 := by
    unfold x45
    refine touch.ite ?_ ?_
    · refine touch.step ?_ (touch.upd_flr ..) rfl
      exact h46
    · exact h46
  clear_value x44 x45
  refine touch.step ?_ (State.sendTlp_touch ..) rfl
  exact h47

theorem State.nextConfig_touch : ∀ a0 a1, touch 0x3800100000046d8100000620000004000006000000021006000e0 a0 (State.nextConfig a0 a1) := by
  intro a0 a1
  unfold State.nextConfig
  refine touch.ite ?_ ?_
  · exact touch.refl _ _
  · split
    · rename_i z41 z42
      exact touch.refl _ _
    · rename_i z43 z44 z45
      refine touch.ite ?_ ?_
      · exact touch.refl _ _
      · extract_lets x46
        have h47 : touch 0x3800100000046d8100000620000004000006000000021006000e0 a0 x46 := by
          unfold x46
          refine touch.ite ?_ ?_
          · refine touch.step ?_ (State.issue_touch ..) rfl
            exact touch.refl _ _
          · exact touch.refl _ _
        clear_value x46
        refine touch.step ?_ (State.issueConfig_touch ..) rfl
        refine touch.step ?_ (touch.upd_configJobs ..) rfl
        exact h47

theorem State.setPortLock_touch : ∀ a0 a1 a2, touch 0x4000000000000000000000000000000000000080000000000 a0 (State.setPortLock a0 a1 a2) := by
  intro a0 a1 a2
  unfold State.setPortLock
  extract_lets x41
  have h42 : touch 0x4000000000000000000000000000000000000080000000000 a0 x41 := by
    unfold x41
    refine touch.step ?_ (touch.upd_portLocks ..) rfl
    exact touch.refl _ _
  clear_value x41
  refine touch.step ?_ (touch.PORT_LOCK ..) rfl
  exact h42

theorem State.countPort_touch : ∀ a0 a1 a2 a3, touch 0x300000000180000000000000000000000000000000000000000 a0 (State.countPort a0 a1 a2 a3) := by
  intro a0 a1 a2 a3
  unfold State.countPort
  refine touch.step ?_ (State.countCl_touch ..) rfl
  exact touch.refl _ _

theorem State.countMiss_touch : ∀ a0 a1 a2, touch 0x383200000005ed8000000620004004000000000000000006000a0 a0 (State.countMiss a0 a1 a2) := by
  intro a0 a1 a2
  unfold State.countMiss
  refine touch.ite ?_ ?_
  · exact touch.refl _ _
  · extract_lets x41
    have h42 : touch 0x383200000005ed8000000620004004000000000000000006000a0 a0 x41 := by
      unfold x41
      refine touch.ite ?_ ?_
      · refine touch.step ?_ (State.raise_touch ..) rfl
        refine touch.step ?_ (State.countPort_touch ..) rfl
        refine touch.step ?_ (touch.PORT_SLUICE ..) rfl
        exact touch.refl _ _
      · exact touch.refl _ _
    clear_value x41
    refine touch.ite ?_ ?_
    · refine touch.step ?_ (touch.PKG_BOUND ..) rfl
      exact h42
    · exact h42

theorem State.intxAtHost_touch : ∀ a0 a1 a2, touch 0x3800000000046d8000000620000004000001000000000006000e0 a0 (State.intxAtHost a0 a1 a2) := by
  intro a0 a1 a2
  unfold State.intxAtHost
  split
  · rename_i z41 z42
    refine touch.step ?_ (State.raise_touch ..) rfl
    exact touch.refl _ _
  · rename_i z43 z44 z45
    extract_lets x46 x47 x48 x49 x50
    clear_value x46 x47 x48 x49
    have h51 : touch 0x3800000000046d8000000620000004000001000000000006000e0 a0 x50 := by
      unfold x50
      refine touch.step ?_ (touch.upd_intxCount ..) rfl
      exact touch.refl _ _
    clear_value x50
    refine touch.ite ?_ ?_
    · refine touch.step ?_ (State.sendTlp_touch ..) rfl
      exact h51
    · refine touch.ite ?_ ?_
      · refine touch.step ?_ (State.sendTlp_touch ..) rfl
        exact h51
      · exact h51

theorem State.errorAtHost_touch : ∀ a0 a1 a2, touch 0x3800000000046d8000000620000004000000000000000006000e0 a0 (State.errorAtHost a0 a1 a2) := by
  intro a0 a1 a2
  unfold State.errorAtHost
  split
  · rename_i z41 z42
    refine touch.step ?_ (State.raise_touch ..) rfl
    exact touch.refl _ _
  · rename_i z43 z44 z45
    refine touch.step ?_ (State.sendTlp_touch ..) rfl
    exact touch.refl _ _

theorem State.configArrives_touch : ∀ a0 a1 a2, touch 0x3c3210001805ed810000062000800c0000066801007ff086000f0 a0 (State.configArrives a0 a1 a2) := by
  intro a0 a1 a2
  unfold State.configArrives
  split
  · rename_i z41 z42 z43
    refine touch.step ?_ (State.answerTo_touch ..) rfl
    refine touch.step ?_ (State.returnAll_touch ..) rfl
    exact touch.refl _ _
  · rename_i z44 z45
    refine touch.step ?_ (State.nextConfig_touch ..) rfl
    refine touch.step ?_ (touch.upd_configJobs ..) rfl
    exact touch.refl _ _

theorem State.msixAtHost_touch : ∀ a0 a1 a2, touch 0x3800000000046d8000000620000004000000000000000006000e0 a0 (State.msixAtHost a0 a1 a2) := by
  intro a0 a1 a2
  unfold State.msixAtHost
  split
  · rename_i z41 z42
    refine touch.step ?_ (State.raise_touch ..) rfl
    exact touch.refl _ _
  · rename_i z43 z44 z45
    extract_lets x46
    clear_value x46
    refine touch.step ?_ (State.sendTlp_touch ..) rfl
    exact touch.refl _ _

theorem State.issueOn_touch : ∀ a0 a1 a2, touch 0x3c3250001805ed810000062000800c0000076801007ff086000f0 a0 (State.issueOn a0 a1 a2) := by
  intro a0 a1 a2
  unfold State.issueOn
  refine touch.ite ?_ ?_
  · refine touch.ite ?_ ?_
    · refine touch.step ?_ (State.answerTo_touch ..) rfl
      exact touch.refl _ _
    · refine touch.step ?_ (State.logAer_touch ..) rfl
      exact touch.refl _ _
  · extract_lets x41 x42 x43 x44 x45 x46 x47 x48 x49 x50 x51 x52 x53 x54 x55 x56 x57
    clear_value x41 x42 x43 x45 x46 x48 x49 x50 x52 x53 x54 x55 x56
    have h58 : touch 0x3c3250001805ed810000062000800c0000076801007ff086000f0 a0 x44 := by
      unfold x44
      refine touch.step ?_ (State.ask_touch ..) rfl
      exact touch.refl _ _
    have h59 : touch 0x3c3250001805ed810000062000800c0000076801007ff086000f0 a0 x47 := by
      unfold x47
      refine touch.ite ?_ ?_
      · refine touch.step ?_ (State.sendTlp_touch ..) rfl
        exact touch.refl _ _
      · refine touch.step ?_ (State.sendTlp_touch ..) rfl
        refine touch.step ?_ (State.sendTlp_touch ..) rfl
        exact touch.refl _ _
    have h60 : touch 0x3c3250001805ed810000062000800c0000076801007ff086000f0 a0 x51 := by
      unfold x51
      refine touch.step ?_ (State.raise_touch ..) rfl
      refine touch.step ?_ (touch.PORT_LOCK ..) rfl
      exact touch.refl _ _
    have h61 : touch 0x3c3250001805ed810000062000800c0000076801007ff086000f0 a0 x57 := by
      unfold x57
      refine touch.ite ?_ ?_
      · refine touch.step ?_ (State.ask_touch ..) rfl
        exact touch.refl _ _
      · exact touch.refl _ _
    clear_value x44 x47 x51 x57
    refine touch.ite ?_ ?_
    · refine touch.step ?_ (State.sendTlp_touch ..) rfl
      exact h58
    · refine touch.ite ?_ ?_
      · refine touch.ite ?_ ?_
        · refine touch.step ?_ (State.ask_touch ..) rfl
          refine touch.ite ?_ ?_
          · refine touch.step ?_ (State.returnAll_touch ..) rfl
            exact h59
          · exact h59
        · exact h59
      · refine touch.ite ?_ ?_
        · refine touch.ite ?_ ?_
          · refine touch.step ?_ (State.sendTlp_touch ..) rfl
            exact h58
          · refine touch.step ?_ (State.answerTo_touch ..) rfl
            refine touch.step ?_ (State.returnAll_touch ..) rfl
            exact h60
        · refine touch.ite ?_ ?_
          · refine touch.step ?_ (State.sendTlp_touch ..) rfl
            exact h58
          · refine touch.ite ?_ ?_
            · refine touch.ite ?_ ?_
              · exact touch.refl _ _
              · refine touch.ite ?_ ?_
                · refine touch.step ?_ (State.msixAtHost_touch ..) rfl
                  exact touch.refl _ _
                · refine touch.ite ?_ ?_
                  · refine touch.step ?_ (State.intxAtHost_touch ..) rfl
                    exact touch.refl _ _
                  · refine touch.ite ?_ ?_
                    · refine touch.step ?_ (State.errorAtHost_touch ..) rfl
                      exact touch.refl _ _
                    · exact touch.refl _ _
            · refine touch.ite ?_ ?_
              · refine touch.ite ?_ ?_
                · refine touch.step ?_ (State.configArrives_touch ..) rfl
                  exact touch.refl _ _
                · refine touch.step ?_ (State.answerTo_touch ..) rfl
                  exact touch.refl _ _
              · refine touch.ite ?_ ?_
                · refine touch.step ?_ (State.sendTlp_touch ..) rfl
                  exact h61
                · exact touch.refl _ _

theorem State.issueHeld_touch : ∀ a0 a1 a2, touch 0x3c3250001805ed810000062000c00c0000076801007ff086000f0 a0 (State.issueHeld a0 a1 a2) := by
  intro a0 a1 a2
  unfold State.issueHeld
  extract_lets x41
  have h42 : touch 0x3c3250001805ed810000062000c00c0000076801007ff086000f0 a0 x41 := by
    unfold x41
    refine touch.step ?_ (State.returnAll_touch ..) rfl
    refine touch.step ?_ (State.countMiss_touch ..) rfl
    exact touch.refl _ _
  clear_value x41
  refine touch.step ?_ (State.endLive_touch ..) rfl
  refine touch.ite ?_ ?_
  · refine touch.step ?_ (State.issueOn_touch ..) rfl
    exact h42
  · refine touch.foldl ?_ ?_
    · exact h42
    · intro u43 y44 h45
      refine touch.step ?_ (State.sendTlp_touch ..) rfl
      exact h45

theorem State.releasePort_touch : ∀ a0 a1 a2 a3, touch 0x3c3250001805ed810000062000c00c000007680100fff086000f0 a0 (State.releasePort a0 a1 a2 a3) := by
  intro a0 a1 a2 a3
  unfold State.releasePort
  refine touch.ite ?_ ?_
  · exact touch.refl _ _
  · extract_lets x41 x42 x43 x44 x45
    clear_value x41 x44
    have h46 : touch 0x3c3250001805ed810000062000c00c000007680100fff086000f0 a0 x42 := by
      unfold x42
      refine touch.ite ?_ ?_
      · refine touch.step ?_ (State.sendTlp_touch ..) rfl
        exact touch.refl _ _
      · exact touch.refl _ _
    have h47 : touch 0x3c3250001805ed810000062000c00c000007680100fff086000f0 a0 x43 := by
      unfold x43
      refine touch.step ?_ (State.setPortLock_touch ..) rfl
      refine touch.step ?_ (touch.PORT_LOCK ..) rfl
      exact h46
    have h48 : touch 0x3c3250001805ed810000062000c00c000007680100fff086000f0 a0 x45 := by
      unfold x45
      refine touch.ite ?_ ?_
      · refine touch.ite ?_ ?_
        · refine touch.step ?_ (touch.PKG_LOCK ..) rfl
          exact h47
        · refine touch.ite ?_ ?_
          · refine touch.step ?_ (State.freeLock_touch ..) rfl
            exact h47
          · exact h47
      · exact h47
    clear_value x42 x43 x45
    refine touch.step ?_ (State.nextConfig_touch ..) rfl
    refine touch.foldl ?_ ?_
    · exact h48
    · intro u49 y50 h51
      refine touch.ite ?_ ?_
      · refine touch.step ?_ (State.issueHeld_touch ..) rfl
        exact h51
      · refine touch.step ?_ (State.failHeld_touch ..) rfl
        exact h51

theorem State.dropLock_touch : ∀ a0 a1 a2, touch 0x3c3250001805ed810000062000c00c000007680100fff086000f0 a0 (State.dropLock a0 a1 a2) := by
  intro a0 a1 a2
  unfold State.dropLock
  refine touch.ite ?_ ?_
  · refine touch.step ?_ (State.raise_touch ..) rfl
    refine touch.step ?_ (touch.PORT_LOCK ..) rfl
    refine touch.step ?_ (State.releasePort_touch ..) rfl
    exact touch.refl _ _
  · exact touch.refl _ _

theorem State.discardPacket_touch : ∀ a0 a1 a2 a3 a4, touch 0x3c3200001805ed810000062000800c0000006801007df086000f0 a0 (State.discardPacket a0 a1 a2 a3 a4) := by
  intro a0 a1 a2 a3 a4
  unfold State.discardPacket
  extract_lets x41 x42 x43
  clear_value x41 x43
  have h44 : touch 0x3c3200001805ed810000062000800c0000006801007df086000f0 a0 x42 := by
    unfold x42
    refine touch.step ?_ (State.endLive_touch ..) rfl
    refine touch.ite ?_ ?_
    · refine touch.step ?_ (State.reclaimAll_touch ..) rfl
      exact touch.refl _ _
    · refine touch.step ?_ (State.returnAll_touch ..) rfl
      exact touch.refl _ _
  clear_value x42
  refine touch.ite ?_ ?_
  · refine touch.step ?_ (touch.PORT_SLUICE ..) rfl
    exact h44
  · refine touch.ite ?_ ?_
    · exact h44
    · refine touch.ite ?_ ?_
      · refine touch.step ?_ (State.answerTo_touch ..) rfl
        refine touch.step ?_ (State.spareTag_touch ..) rfl
        refine touch.step ?_ (State.raise_touch ..) rfl
        exact h44
      · refine touch.step ?_ (State.lose_touch ..) rfl
        exact h44

theorem State.egressDiscard_touch : ∀ a0 a1 a2 a3, touch 0x3c3200001805ed810000062000800c0000006801007df086000f0 a0 (State.egressDiscard a0 a1 a2 a3) := by
  intro a0 a1 a2 a3
  unfold State.egressDiscard
  extract_lets x41 x42
  clear_value x41
  have h43 : touch 0x3c3200001805ed810000062000800c0000006801007df086000f0 a0 x42 := by
    unfold x42
    refine touch.step ?_ (touch.upd_waiting ..) rfl
    exact touch.refl _ _
  clear_value x42
  refine touch.foldl ?_ ?_
  · exact h43
  · intro u44 y45 h46
    refine touch.step ?_ (State.discardPacket_touch ..) rfl
    exact h46

theorem State.showHold_touch : ∀ a0 a1, touch 0x40000000000000000000000000000000000000000000000000 a0 (State.showHold a0 a1) := by
  intro a0 a1
  unfold State.showHold
  refine touch.step ?_ (touch.PORT_HOLD ..) rfl
  refine touch.step ?_ (touch.PORT_HOLD ..) rfl
  exact touch.refl _ _

theorem State.noteNull_touch : ∀ a0 a1, touch 0x10000000000000 a0 (State.noteNull a0 a1) := by
  intro a0 a1
  unfold State.noteNull
  refine touch.step ?_ (State.wakeRequest_touch ..) rfl
  refine touch.step ?_ (State.setLink_touch ..) rfl
  exact touch.refl _ _

theorem State.creditsBack_touch : ∀ a0 a1 a2, touch 0x10000000000000000000000010000100000000 a0 (State.creditsBack a0 a1 a2) := by
  intro a0 a1 a2
  unfold State.creditsBack
  extract_lets x41 x42
  clear_value x41
  have h43 : touch 0x10000000000000000000000010000100000000 a0 x42 := by
    unfold x42
    refine touch.step ?_ (State.returnAll_touch ..) rfl
    exact touch.refl _ _
  clear_value x42
  refine touch.ite ?_ ?_
  · refine touch.step ?_ (State.setLink_touch ..) rfl
    exact touch.refl _ _
  · refine touch.ite ?_ ?_
    · refine touch.step ?_ (State.noteNull_touch ..) rfl
      refine touch.step ?_ (State.setLink_touch ..) rfl
      exact h43
    · exact h43

theorem State.returnHeld_touch : ∀ a0 a1 a2, touch 0x10000000000000000000000010000100000000 a0 (State.returnHeld a0 a1 a2) := by
  intro a0 a1 a2
  unfold State.returnHeld
  refine touch.step ?_ (State.creditsBack_touch ..) rfl
  exact touch.refl _ _

theorem State.dequeue_touch : ∀ a0 a1 a2, touch 0x40000000000010000000000000000000000010000300000000 a0 (State.dequeue a0 a1 a2) := by
  intro a0 a1 a2
  unfold State.dequeue
  extract_lets x41 x42 x43 x44
  clear_value x41
  have h45 : touch 0x40000000000010000000000000000000000010000300000000 a0 x42 := by
    unfold x42
    refine touch.step ?_ (State.returnAll_touch ..) rfl
    exact touch.refl _ _
  have h46 : touch 0x40000000000010000000000000000000000010000300000000 a0 x43 := by
    unfold x43
    refine touch.step ?_ (State.setIngress_touch ..) rfl
    exact h45
  have h47 : touch 0x40000000000010000000000000000000000010000300000000 a0 x44 := by
    unfold x44
    refine touch.ite ?_ ?_
    · refine touch.step ?_ (State.returnHeld_touch ..) rfl
      exact h46
    · exact h46
  clear_value x42 x43 x44
  refine touch.ite ?_ ?_
  · exact h47
  · refine touch.step ?_ (State.showHold_touch ..) rfl
    refine touch.ite ?_ ?_
    · exact h47
    · refine touch.step ?_ (touch.PORT_HOLD ..) rfl
      exact h47

theorem State.endSought_touch : ∀ a0 a1, touch 0x800000000000000040000000000 a0 (State.endSought a0 a1) := by
  intro a0 a1
  unfold State.endSought
  extract_lets x41 x42
  clear_value x41
  have h43 : touch 0x800000000000000040000000000 a0 x42 := by
    unfold x42
    refine touch.step ?_ (touch.upd_lockWait ..) rfl
    exact touch.refl _ _
  clear_value x42
  refine touch.ite ?_ ?_
  · refine touch.step ?_ (State.freeLock_touch ..) rfl
    exact h43
  · exact h43

theorem State.answerQueued_touch : ∀ a0 a1 a2 a3 a4, touch 0x3c3400000005ed810000062000800400000068010074f086000e0 a0 (State.answerQueued a0 a1 a2 a3 a4) := by
  intro a0 a1 a2 a3 a4
  unfold State.answerQueued
  extract_lets x41 x42
  clear_value x41
  have h43 : touch 0x3c3400000005ed810000062000800400000068010074f086000e0 a0 x42 := by
    unfold x42
    refine touch.step ?_ (State.dequeue_touch ..) rfl
    exact touch.refl _ _
  clear_value x42
  split
  · rename_i z44 z45 z46
    refine touch.ite ?_ ?_
    · extract_lets x47 x48 x49 x50
      have h51 : touch 0x3c3400000005ed810000062000800400000068010074f086000e0 a0 x47 := by
        unfold x47
        refine touch.step ?_ (State.dropOutstanding_touch ..) rfl
        exact h43
      have h52 : touch 0x3c3400000005ed810000062000800400000068010074f086000e0 a0 x48 := by
        unfold x48
        refine touch.ite ?_ ?_
        · refine touch.step ?_ (State.raise_touch ..) rfl
          exact h51
        · exact h51
      have h53 : touch 0x3c3400000005ed810000062000800400000068010074f086000e0 a0 x49 := by
        unfold x49
        refine touch.foldl ?_ ?_
        · exact h52
        · intro u54 y55 h56
          refine touch.step ?_ (State.failWrite_touch ..) rfl
          exact h56
      have h57 : touch 0x3c3400000005ed810000062000800400000068010074f086000e0 a0 x50 := by
        unfold x50
        split
        · rename_i z58 z59 z60
          refine touch.ite ?_ ?_
          · refine touch.step ?_ (State.complete_touch ..) rfl
            exact h53
          · exact h53
        · rename_i z61 z62
          exact h53
      clear_value x47 x48 x49 x50
      refine touch.step ?_ (State.progressWindow_touch ..) rfl
      exact h57
    · refine touch.ite ?_ ?_
      · extract_lets x63 x64
        have h65 : touch 0x3c3400000005ed810000062000800400000068010074f086000e0 a0 x63 := by
          unfold x63
          refine touch.step ?_ (State.dropOutstanding_touch ..) rfl
          exact h43
        have h66 : touch 0x3c3400000005ed810000062000800400000068010074f086000e0 a0 x64 := by
          unfold x64
          refine touch.ite ?_ ?_
          · refine touch.step ?_ (State.raise_touch ..) rfl
            exact h65
          · exact h65
        clear_value x63 x64
        split
        · rename_i z67 z68 z69
          refine touch.step ?_ (State.complete_touch ..) rfl
          exact h66
        · rename_i z70 z71
          exact h65
      · refine touch.step ?_ (State.endWith_touch ..) rfl
        refine touch.step ?_ (State.nativeLosses_touch ..) rfl
        refine touch.ite ?_ ?_
        · refine touch.step ?_ (State.endSought_touch ..) rfl
          exact h43
        · refine touch.ite ?_ ?_
          · refine touch.step ?_ (State.unlockSent_touch ..) rfl
            exact h43
          · exact h43
  · rename_i z72 z73
    refine touch.foldl ?_ ?_
    · exact h43
    · intro u74 y75 h76
      refine touch.ite ?_ ?_
      · exact h76
      · refine touch.step ?_ (State.lose_touch ..) rfl
        exact h76

theorem State.lockFor_touch : ∀ a0 a1, touch 0x800010000000000000000000000 a0 (State.lockFor a0 a1) := by
  intro a0 a1
  unfold State.lockFor
  refine touch.ite ?_ ?_
  · exact touch.refl _ _
  · extract_lets x41 x42 x43
    have h44 : touch 0x800010000000000000000000000 a0 x41 := by
      unfold x41
      refine touch.step ?_ (touch.PKG_LOCK ..) rfl
      refine touch.step ?_ (touch.upd_lockClass ..) rfl
      exact touch.refl _ _
    have h45 : touch 0x800010000000000000000000000 a0 x42 := by
      unfold x42
      refine touch.step ?_ (touch.PKG_LOCK ..) rfl
      exact h44
    have h46 : touch 0x800010000000000000000000000 a0 x43 := by
      unfold x43
      refine touch.step ?_ (touch.PKG_LOCK ..) rfl
      exact h45
    clear_value x41 x42 x43
    refine touch.step ?_ (touch.PKG_LOCK ..) rfl
    exact h46

theorem State.takeLock_touch : ∀ a0 a1 a2, touch 0x800010000000000040000000000 a0 (State.takeLock a0 a1 a2) := by
  intro a0 a1 a2
  unfold State.takeLock
  refine touch.step ?_ (State.lockFor_touch ..) rfl
  refine touch.step ?_ (touch.upd_lockWait ..) rfl
  exact touch.refl _ _

theorem State.searchToll_touch : ∀ a0 a1, touch 0x3800000000046d8000000620000004000000000400000006000a0 a0 (State.searchToll a0 a1) := by
  intro a0 a1
  unfold State.searchToll
  refine touch.ite ?_ ?_
  · refine touch.step ?_ (State.raise_touch ..) rfl
    refine touch.step ?_ (touch.upd_ecc ..) rfl
    exact touch.refl _ _
  · exact touch.refl _ _

theorem State.violate_touch : ∀ a0 a1 a2 a3, touch 0x383000000005ed9c00000620000004000000000200000006000a0 a0 (State.violate a0 a1 a2 a3) := by
  intro a0 a1 a2 a3
  unfold State.violate
  extract_lets x41 x42 x43 x44 x45 x46 x47
  clear_value x41 x47
  have h48 : touch 0x383000000005ed9c00000620000004000000000200000006000a0 a0 x42 := by
    unfold x42
    refine touch.step ?_ (State.countDie_touch ..) rfl
    exact touch.refl _ _
  have h49 : touch 0x383000000005ed9c00000620000004000000000200000006000a0 a0 x43 := by
    unfold x43
    refine touch.step ?_ (touch.upd_vlast ..) rfl
    exact h48
  have h50 : touch 0x383000000005ed9c00000620000004000000000200000006000a0 a0 x44 := by
    unfold x44
    refine touch.step ?_ (touch.TOLL_VLAST ..) rfl
    exact h49
  have h51 : touch 0x383000000005ed9c00000620000004000000000200000006000a0 a0 x45 := by
    unfold x45
    refine touch.ite ?_ ?_
    · exact h50
    · refine touch.foldl ?_ ?_
      · refine touch.step ?_ (touch.TOLL_VIOL ..) rfl
        exact h50
      · intro u52 y53 h54
        refine touch.step ?_ (touch.TOLL_VFIRST ..) rfl
        exact h54
  have h55 : touch 0x383000000005ed9c00000620000004000000000200000006000a0 a0 x46 := by
    unfold x46
    refine touch.step ?_ (touch.TOLL_VIOL ..) rfl
    exact h51
  clear_value x42 x43 x44 x45 x46
  refine touch.step ?_ (State.raiseMask_touch ..) rfl
  exact h55

theorem State.checkPacket_touch : ∀ a0 a1 a2 a3 a4, touch 0x383000000005ed9c00000620000004000000000600000006000a0 a0 (State.checkPacket a0 a1 a2 a3 a4).1 := by
  intro a0 a1 a2 a3 a4
  unfold State.checkPacket
  refine touch.fstIte ?_ ?_
  · refine touch.fstMk ?_
    exact touch.refl _ _
  · extract_lets x41
    have h42 : touch 0x383000000005ed9c00000620000004000000000600000006000a0 a0 x41 := by
      unfold x41
      refine touch.step ?_ (State.searchToll_touch ..) rfl
      refine touch.step ?_ (State.countDie_touch ..) rfl
      exact touch.refl _ _
    clear_value x41
    split
    · rename_i z43 z44
      refine touch.fstMk ?_
      exact h42
    · rename_i z45 z46 z47 z48
      refine touch.fstMk ?_
      refine touch.step ?_ (State.violate_touch ..) rfl
      exact h42

theorem State.stampLive_touch : ∀ a0 a1, touch 0x8000000 a0 (State.stampLive a0 a1).1 := by
  intro a0 a1
  unfold State.stampLive
  extract_lets x41
  clear_value x41
  refine touch.fstMk ?_
  refine touch.step ?_ (touch.upd_live ..) rfl
  exact touch.refl _ _

theorem State.takeIn_touch : ∀ a0 a1 a2 a3, touch 0x3c3400001805ed9d0000062000800c10000068070074f086000e0 a0 (State.takeIn a0 a1 a2 a3) := by
  intro a0 a1 a2 a3
  unfold State.takeIn
  extract_lets x41 x42 x43 x44 x45 x46 x47
  clear_value x41 x42 x43 x44 x45 x46 x47
  split
  · rename_i z48 z49
    refine touch.step ?_ (State.dequeue_touch ..) rfl
    exact touch.refl _ _
  · rename_i z50 z51 z52 z53
    extract_lets x54 x55 x56
    clear_value x54 x55
    clear_value x56
    split
    · rename_i z57 z58 z59 z60
      have h61 : touch 0x3c3400001805ed9d0000062000800c10000068070074f086000e0 a0 z58 := by
        refine touch.ofEq z60 ?_
        refine touch.fstIte ?_ ?_
        · refine touch.step ?_ (State.checkPacket_touch ..) rfl
          exact touch.refl _ _
        · refine touch.fstMk ?_
          exact touch.refl _ _
      refine touch.ite ?_ ?_
      · refine touch.step ?_ (State.answerQueued_touch ..) rfl
        exact h61
      · split
        · rename_i z62 z63 z64 z65
          have h66 : touch 0x3c3400001805ed9d0000062000800c10000068070074f086000e0 a0 z63 := by
            refine touch.ofEq z65 ?_
            refine touch.fstIte ?_ ?_
            · split
              · rename_i z67 z68 z69 z70
                have h71 : touch 0x3c3400001805ed9d0000062000800c10000068070074f086000e0 a0 z68 := by
                  refine touch.ofEq z70 ?_
                  refine touch.step ?_ (State.stampLive_touch ..) rfl
                  exact h61
                refine touch.fstMk ?_
                exact h71
            · refine touch.fstMk ?_
              exact h61
          extract_lets x72 x73 x74 x75 x76 x77 x78 x79 x80 x81 x82 x83 x84 x85 x86 x87 x88
          clear_value x72 x73 x74 x75 x76 x77 x83 x85 x87 x88
          have h89 : touch 0x3c3400001805ed9d0000062000800c10000068070074f086000e0 a0 x78 := by
            unfold x78
            refine touch.ite ?_ ?_
            · exact h66
            · split
              · rename_i z90 z91 z92
                refine touch.step ?_ (State.issue_touch ..) rfl
                exact h66
              · rename_i z93 z94
                exact h66
          have h95 : touch 0x3c3400001805ed9d0000062000800c10000068070074f086000e0 a0 x79 := by
            unfold x79
            refine touch.ite ?_ ?_
            · refine touch.step ?_ (State.countCl_touch ..) rfl
              refine touch.step ?_ (State.issue_touch ..) rfl
              exact h89
            · exact h89
          have h96 : touch 0x3c3400001805ed9d0000062000800c10000068070074f086000e0 a0 x80 := by
            unfold x80
            refine touch.ite ?_ ?_
            · refine touch.step ?_ (State.deferSlots_touch ..) rfl
              exact h95
            · exact h95
          have h97 : touch 0x3c3400001805ed9d0000062000800c10000068070074f086000e0 a0 x81 := by
            unfold x81
            refine touch.step ?_ (State.countCl_touch ..) rfl
            refine touch.step ?_ (State.countCl_touch ..) rfl
            exact h96
          have h98 : touch 0x3c3400001805ed9d0000062000800c10000068070074f086000e0 a0 x82 := by
            unfold x82
            refine touch.ite ?_ ?_
            · refine touch.step ?_ (State.countDie_touch ..) rfl
              exact h97
            · exact h97
          have h99 : touch 0x3c3400001805ed9d0000062000800c10000068070074f086000e0 a0 x84 := by
            unfold x84
            refine touch.step ?_ (State.issueAll_touch ..) rfl
            exact h98
          have h100 : touch 0x3c3400001805ed9d0000062000800c10000068070074f086000e0 a0 x86 := by
            unfold x86
            split
            · rename_i z101 z102
              refine touch.ite ?_ ?_
              · exact h99
              · refine touch.step ?_ (State.issue_touch ..) rfl
                exact h99
            · rename_i z103 z104
              exact h99
          clear_value x78 x79 x80 x81 x82 x84 x86
          split
          · rename_i z105 z106 z107 z108
            have h109 : touch 0x3c3400001805ed9d0000062000800c10000068070074f086000e0 a0 z106 := by
              refine touch.ofEq z108 ?_
              refine touch.foldlFst ?_ ?_
              · refine touch.fstMk ?_
                exact h100
              · intro u110 y111 h112
                split
                · rename_i z113 z114 z115
                  split
                  · rename_i z116 z117 z118 z119
                    extract_lets x120 x121 x122 x123
                    clear_value x120 x121 x122
                    split
                    · rename_i z124 z125 z126 z127
                      have h128 : touch 0x3c3400001805ed9d0000062000800c10000068070074f086000e0 a0 z125 := by
                        refine touch.ofEq z127 ?_
                        refine touch.step ?_ (State.writeItem_touch ..) rfl
                        exact h112
                      extract_lets x129 x130
                      clear_value x130
                      have h131 : touch 0x3c3400001805ed9d0000062000800c10000068070074f086000e0 a0 x129 := by
                        unfold x129
                        refine touch.step ?_ (State.issueAll_touch ..) rfl
                        refine touch.step ?_ (State.issueAll_touch ..) rfl
                        exact h128
                      clear_value x129
                      refine touch.fstMk ?_
                      refine touch.step ?_ (State.bookedTo_touch ..) rfl
                      refine touch.step ?_ (touch.upd_waiting ..) rfl
                      exact h131
            extract_lets x132 x133 x134 x135 x136
            have h137 : touch 0x3c3400001805ed9d0000062000800c10000068070074f086000e0 a0 x132 := by
              unfold x132
              refine touch.ite ?_ ?_
              · exact h109
              · refine touch.step ?_ (State.noteStamp_touch ..) rfl
                exact h109
            have h138 : touch 0x3c3400001805ed9d0000062000800c10000068070074f086000e0 a0 x133 := by
              unfold x133
              split
              · rename_i z139 z140
                refine touch.step ?_ (State.setOutstanding_touch ..) rfl
                exact h137
              · rename_i z141
                exact h137
            have h142 : touch 0x3c3400001805ed9d0000062000800c10000068070074f086000e0 a0 x134 := by
              unfold x134
              refine touch.ite ?_ ?_
              · refine touch.step ?_ (State.showTracker_touch ..) rfl
                exact h138
              · exact h138
            have h143 : touch 0x3c3400001805ed9d0000062000800c10000068070074f086000e0 a0 x135 := by
              unfold x135
              refine touch.ite ?_ ?_
              · refine touch.step ?_ (State.takeLock_touch ..) rfl
                exact h142
              · exact h142
            have h144 : touch 0x3c3400001805ed9d0000062000800c10000068070074f086000e0 a0 x136 := by
              unfold x136
              refine touch.ite ?_ ?_
              · refine touch.step ?_ (State.unlockSent_touch ..) rfl
                exact h143
              · exact h143
            clear_value x132 x133 x134 x135 x136
            refine touch.step ?_ (State.dequeue_touch ..) rfl
            exact h144

theorem State.unlockNow_touch : ∀ a0 a1, touch 0x3c3400001805ed9d0000062000800c10000068070074f086000e0 a0 (State.unlockNow a0 a1) := by
  intro a0 a1
  unfold State.unlockNow
  split
  · rename_i z41 z42
    exact touch.refl _ _
  · rename_i z43 z44 z45
    split
    · rename_i z46 z47
      exact touch.refl _ _
    · rename_i z48 z49 z50 z51
      split
      · rename_i z52 z53 z54
        refine touch.step ?_ (State.answerQueued_touch ..) rfl
        exact touch.refl _ _
      · rename_i z55 z56
        refine touch.step ?_ (State.takeIn_touch ..) rfl
        exact touch.refl _ _

theorem State.sendUnlock_touch : ∀ a0 a1 a2 a3 a4, touch 0x10000000000000000000000000001b00000000 a0 (State.sendUnlock a0 a1 a2 a3 a4) := by
  intro a0 a1 a2 a3 a4
  unfold State.sendUnlock
  split
  · rename_i z41 z42 z43 z44
    have h45 : touch 0x10000000000000000000000000001b00000000 a0 z42 := by
      refine touch.ofEq z44 ?_
      refine touch.step ?_ (State.newId_touch ..) rfl
      exact touch.refl _ _
    extract_lets x46
    clear_value x46
    refine touch.step ?_ (State.enqueue_touch ..) rfl
    refine touch.step ?_ (touch.upd_outstanding ..) rfl
    exact h45

theorem State.unlockNear_touch : ∀ a0 a1, touch 0x3c3400001805ed9d0000062000800c10000068070075f086000e0 a0 (State.unlockNear a0 a1) := by
  intro a0 a1
  unfold State.unlockNear
  extract_lets x41 x42
  clear_value x41
  have h43 : touch 0x3c3400001805ed9d0000062000800c10000068070075f086000e0 a0 x42 := by
    unfold x42
    refine touch.step ?_ (State.sendUnlock_touch ..) rfl
    exact touch.refl _ _
  clear_value x42
  refine touch.ite ?_ ?_
  · refine touch.ite ?_ ?_
    · refine touch.step ?_ (State.unlockNow_touch ..) rfl
      exact h43
    · exact h43
  · exact touch.refl _ _

theorem State.discardNear_touch : ∀ a0 a1, touch 0x3c3200001805ed810000062000800c0000006801007df086000f0 a0 (State.discardNear a0 a1) := by
  intro a0 a1
  unfold State.discardNear
  extract_lets x41 x42
  clear_value x42
  clear_value x41
  refine touch.foldl ?_ ?_
  · refine touch.step ?_ (touch.upd_waiting ..) rfl
    exact touch.refl _ _
  · intro u43 y44 h45
    refine touch.step ?_ (State.completionHere_touch ..) rfl
    exact h45

theorem State.endAsk_touch : ∀ a0 a1, touch 0x1000000000010000000000000000000000000002100000000 a0 (State.endAsk a0 a1) := by
  intro a0 a1
  unfold State.endAsk
  extract_lets x41 x42
  have h43 : touch 0x1000000000010000000000000000000000000002100000000 a0 x41 := by
    unfold x41
    refine touch.step ?_ (touch.upd_device ..) rfl
    exact touch.refl _ _
  have h44 : touch 0x1000000000010000000000000000000000000002100000000 a0 x42 := by
    unfold x42
    refine touch.ite ?_ ?_
    · refine touch.step ?_ (State.returnAll_touch ..) rfl
      exact h43
    · exact h43
  clear_value x41 x42
  refine touch.step ?_ (State.showTags_touch ..) rfl
  exact h44

theorem State.failAsks_touch : ∀ a0 a1, touch 0x3c3210001805ed810000062000800c0000046801007ff086000f0 a0 (State.failAsks a0 a1) := by
  intro a0 a1
  unfold State.failAsks
  extract_lets x41 x42 x43 x44 x45 x46
  clear_value x41 x42 x43
  have h47 : touch 0x3c3210001805ed810000062000800c0000046801007ff086000f0 a0 x44 := by
    unfold x44
    refine touch.foldl ?_ ?_
    · exact touch.refl _ _
    · intro u48 y49 h50
      refine touch.step ?_ (State.endAsk_touch ..) rfl
      exact h50
  have h51 : touch 0x3c3210001805ed810000062000800c0000046801007ff086000f0 a0 x45 := by
    unfold x45
    refine touch.step ?_ (touch.upd_configJobs ..) rfl
    exact h47
  have h52 : touch 0x3c3210001805ed810000062000800c0000046801007ff086000f0 a0 x46 := by
    unfold x46
    refine touch.foldl ?_ ?_
    · exact h51
    · intro u53 y54 h55
      split
      · rename_i z56 z57 z58
        refine touch.ite ?_ ?_
        · exact h55
        · refine touch.step ?_ (State.answerTo_touch ..) rfl
          refine touch.step ?_ (State.raise_touch ..) rfl
          exact h55
      · rename_i z59 z60
        exact h55
  clear_value x44 x45 x46
  refine touch.foldl ?_ ?_
  · exact h52
  · intro u61 y62 h63
    extract_lets x64
    have h65 : touch 0x3c3210001805ed810000062000800c0000046801007ff086000f0 a0 x64 := by
      unfold x64
      refine touch.ite ?_ ?_
      · exact h63
      · refine touch.step ?_ (State.spareTag_touch ..) rfl
        exact h63
    clear_value x64
    refine touch.step ?_ (State.answerTo_touch ..) rfl
    refine touch.step ?_ (State.raise_touch ..) rfl
    exact h65

theorem State.loseFlits_touch : ∀ a0 a1 a2, touch 0x3c3200001805ed810000062000800c0000006801007df086000f0 a0 (State.loseFlits a0 a1 a2) := by
  intro a0 a1 a2
  unfold State.loseFlits
  extract_lets x41 x42 x43
  clear_value x41 x43
  have h44 : touch 0x3c3200001805ed810000062000800c0000006801007df086000f0 a0 x42 := by
    unfold x42
    refine touch.foldl ?_ ?_
    · exact touch.refl _ _
    · intro u45 y46 h47
      refine touch.step ?_ (State.endLive_touch ..) rfl
      refine touch.ite ?_ ?_
      · refine touch.step ?_ (State.reclaimAll_touch ..) rfl
        exact h47
      · refine touch.step ?_ (State.returnAll_touch ..) rfl
        exact h47
  clear_value x42
  refine touch.foldl ?_ ?_
  · exact h44
  · intro u48 y49 h50
    refine touch.ite ?_ ?_
    · refine touch.step ?_ (touch.PORT_SLUICE ..) rfl
      exact h50
    · refine touch.ite ?_ ?_
      · refine touch.step ?_ (State.lose_touch ..) rfl
        exact h50
      · refine touch.ite ?_ ?_
        · refine touch.step ?_ (State.answerTo_touch ..) rfl
          refine touch.step ?_ (State.raise_touch ..) rfl
          exact h50
        · exact h50

theorem State.slotNote_touch : ∀ a0 a1 a2, touch 0x8000000000000040 a0 (State.slotNote a0 a1 a2) := by
  intro a0 a1 a2
  unfold State.slotNote
  refine touch.ite ?_ ?_
  · exact touch.refl _ _
  · extract_lets x41 x42 x43 x44
    clear_value x41 x42 x43
    have h45 : touch 0x8000000000000040 a0 x44 := by
      unfold x44
      refine touch.step ?_ (State.setVport_touch ..) rfl
      exact touch.refl _ _
    clear_value x44
    refine touch.ite ?_ ?_
    · refine touch.step ?_ (State.emit_touch ..) rfl
      exact h45
    · exact h45

theorem State.linkChanged_touch : ∀ a0 a1, touch 0x8000000000000040 a0 (State.linkChanged a0 a1) := by
  intro a0 a1
  unfold State.linkChanged
  refine touch.foldl ?_ ?_
  · exact touch.refl _ _
  · intro u41 y42 h43
    refine touch.step ?_ (State.slotNote_touch ..) rfl
    exact h43

theorem State.pcieDown_touch : ∀ a0 a1 a2, touch 0x1000000000000000000000000000000008000000000000040 a0 (State.pcieDown a0 a1 a2) := by
  intro a0 a1 a2
  unfold State.pcieDown
  extract_lets x41 x42
  have h43 : touch 0x1000000000000000000000000000000008000000000000040 a0 x41 := by
    unfold x41
    refine touch.ite ?_ ?_
    · refine touch.step ?_ (State.linkChanged_touch ..) rfl
      exact touch.refl _ _
    · exact touch.refl _ _
  have h44 : touch 0x1000000000000000000000000000000008000000000000040 a0 x42 := by
    unfold x42
    refine touch.step ?_ (touch.PORT_PCIE ..) rfl
    refine touch.step ?_ (touch.PORT_PCIE ..) rfl
    exact h43
  clear_value x41 x42
  refine touch.step ?_ (touch.PORT_PCIE ..) rfl
  refine touch.step ?_ (touch.PORT_PCIE ..) rfl
  refine touch.step ?_ (touch.PORT_PCIE ..) rfl
  exact h44

theorem State.resetVirt_touch : ∀ a0 a1, touch 0x6106c000000000000000 a0 (State.resetVirt a0 a1) := by
  intro a0 a1
  unfold State.resetVirt
  refine touch.step ?_ (touch.upd_virt_virtPorts_aer_aerHeader_rings_doe_doeOrder ..) rfl
  exact touch.refl _ _

theorem State.recomputeBounds_touch : ∀ a0, touch 0x10000000000000000000000000000000000000000000000000 a0 (State.recomputeBounds a0) := by
  intro a0
  unfold State.recomputeBounds
  refine touch.foldl ?_ ?_
  · exact touch.refl _ _
  · intro u41 y42 h43
    refine touch.step ?_ (touch.PORT_BOUND ..) rfl
    refine touch.step ?_ (touch.PORT_BOUND ..) rfl
    refine touch.step ?_ (touch.PORT_BOUND ..) rfl
    exact h43

theorem State.republish_touch : ∀ a0 a1 a2, touch 0x3801000000046d8000000620004004000000001000000006000a0 a0 (State.republish a0 a1 a2) := by
  intro a0 a1 a2
  unfold State.republish
  extract_lets x41 x42 x43 x44
  have h45 : touch 0x3801000000046d8000000620004004000000001000000006000a0 a0 x41 := by
    unfold x41
    refine touch.step ?_ (State.recomputeBounds_touch ..) rfl
    exact touch.refl _ _
  have h46 : touch 0x3801000000046d8000000620004004000000001000000006000a0 a0 x42 := by
    unfold x42
    refine touch.step ?_ (touch.PKG_BOUND ..) rfl
    exact h45
  have h47 : touch 0x3801000000046d8000000620004004000000001000000006000a0 a0 x43 := by
    unfold x43
    refine touch.step ?_ (touch.PKG_BOUND ..) rfl
    exact h46
  have h48 : touch 0x3801000000046d8000000620004004000000001000000006000a0 a0 x44 := by
    unfold x44
    refine touch.step ?_ (touch.PKG_BOUND ..) rfl
    exact h47
  clear_value x41 x42 x43 x44
  refine touch.ite ?_ ?_
  · exact h45
  · refine touch.step ?_ (State.raise_touch ..) rfl
    refine touch.step ?_ (touch.upd_announceDue ..) rfl
    exact h48

theorem State.containmentEntry_touch : ∀ a0 a1 a2, touch 0x3800000000006d800000062000000000000000000000000200020 a0 (State.containmentEntry a0 a1 a2) := by
  intro a0 a1 a2
  unfold State.containmentEntry
  refine touch.foldl ?_ ?_
  · exact touch.refl _ _
  · intro u41 y42 h43
    refine touch.step ?_ (State.partitionEntry_touch ..) rfl
    exact h43

theorem State.releasePd_touch : ∀ a0 a1, touch 0x3801300000046d8000000620004004000000081000000006000a0 a0 (State.releasePd a0 a1) := by
  intro a0 a1
  unfold State.releasePd
  refine touch.ite ?_ ?_
  · exact touch.refl _ _
  · extract_lets x41 x42
    have h43 : touch 0x3801300000046d8000000620004004000000081000000006000a0 a0 x41 := by
      unfold x41
      refine touch.step ?_ (touch.PORT_PCIE ..) rfl
      refine touch.step ?_ (touch.PORT_DPC ..) rfl
      refine touch.step ?_ (touch.PORT_DPC ..) rfl
      exact touch.refl _ _
    have h44 : touch 0x3801300000046d8000000620004004000000081000000006000a0 a0 x42 := by
      unfold x42
      refine touch.foldl ?_ ?_
      · exact h43
      · intro u45 y46 h47
        extract_lets x48
        clear_value x48
        refine touch.step ?_ (State.setVport_touch ..) rfl
        exact h47
    clear_value x41 x42
    refine touch.step ?_ (State.republish_touch ..) rfl
    refine touch.step ?_ (State.containmentEntry_touch ..) rfl
    refine touch.step ?_ (State.raise_touch ..) rfl
    exact h44

theorem State.clearPending_touch : ∀ a0 a1, touch 0x3801300000046d8000000620004004000000081000000006000a0 a0 (State.clearPending a0 a1) := by
  intro a0 a1
  unfold State.clearPending
  refine touch.ite ?_ ?_
  · exact touch.refl _ _
  · extract_lets x41
    have h42 : touch 0x3801300000046d8000000620004004000000081000000006000a0 a0 x41 := by
      unfold x41
      refine touch.step ?_ (touch.PORT_DPC ..) rfl
      exact touch.refl _ _
    clear_value x41
    refine touch.ite ?_ ?_
    · refine touch.step ?_ (State.releasePd_touch ..) rfl
      exact h42
    · exact h42

theorem State.clearStatus_touch : ∀ a0 a1 a2, touch 0x3801300000046d8000000620004004000000081000000006000a0 a0 (State.clearStatus a0 a1 a2) := by
  intro a0 a1 a2
  unfold State.clearStatus
  extract_lets x41 x42
  clear_value x41
  have h43 : touch 0x3801300000046d8000000620004004000000081000000006000a0 a0 x42 := by
    unfold x42
    refine touch.step ?_ (State.setVport_touch ..) rfl
    exact touch.refl _ _
  clear_value x42
  refine touch.ite ?_ ?_
  · exact touch.refl _ _
  · split
    · rename_i z44 z45
      exact h43
    · rename_i z46 z47 z48
      extract_lets x49
      clear_value x49
      refine touch.ite ?_ ?_
      · exact h43
      · refine touch.step ?_ (State.clearPending_touch ..) rfl
        exact h43

theorem State.resetSwitch_touch : ∀ a0 a1, touch 0x3801300000046d80000006200040040006106c1000000006000a0 a0 (State.resetSwitch a0 a1) := by
  intro a0 a1
  unfold State.resetSwitch
  refine touch.step ?_ (State.resetVirt_touch ..) rfl
  refine touch.foldl ?_ ?_
  · exact touch.refl _ _
  · intro u41 y42 h43
    refine touch.step ?_ (State.clearStatus_touch ..) rfl
    exact h43

theorem State.writeLossHere_touch : ∀ a0 a1, touch 0x3c3000000005ed8000000620000004000000000000000006000a0 a0 (State.writeLossHere a0 a1) := by
  intro a0 a1
  unfold State.writeLossHere
  refine touch.step ?_ (State.enterLoss_touch ..) rfl
  exact touch.refl _ _

theorem State.returnLinkCredits_touch : ∀ a0 a1 a2, touch 0x10000000000000000000000010000100000000 a0 (State.returnLinkCredits a0 a1 a2) := by
  intro a0 a1 a2
  unfold State.returnLinkCredits
  refine touch.step ?_ (State.creditsBack_touch ..) rfl
  exact touch.refl _ _

theorem State.discardMalformed_touch : ∀ a0 a1 a2, touch 0x3800040000046d8100000620000004000000000100001006000a0 a0 (State.discardMalformed a0 a1 a2) := by
  intro a0 a1 a2
  unfold State.discardMalformed
  refine touch.step ?_ (State.raise_touch ..) rfl
  refine touch.step ?_ (touch.PORT_MALFORMED ..) rfl
  refine touch.step ?_ (State.returnLinkCredits_touch ..) rfl
  exact touch.refl _ _

theorem State.refuseNative_touch : ∀ a0 a1 a2 a3, touch 0x3800000000046d8100000620000004000000000100305086000a0 a0 (State.refuseNative a0 a1 a2 a3) := by
  intro a0 a1 a2 a3
  unfold State.refuseNative
  refine touch.ite ?_ ?_
  · refine touch.step ?_ (State.complete_touch ..) rfl
    exact touch.refl _ _
  · exact touch.refl _ _

theorem State.refuseLock_touch : ∀ a0 a1 a2, touch 0x383000000005ed9d00000620000004000000000700305086000a0 a0 (State.refuseLock a0 a1 a2) := by
  intro a0 a1 a2
  unfold State.refuseLock
  split
  · rename_i z41 z42 z43 z44
    have h45 : touch 0x383000000005ed9d00000620000004000000000700305086000a0 a0 z42 := by
      refine touch.ofEq z44 ?_
      refine touch.step ?_ (State.checkPacket_touch ..) rfl
      exact touch.refl _ _
    refine touch.step ?_ (State.refuseNative_touch ..) rfl
    exact h45

theorem State.cancelData_touch : ∀ a0 a1 a2, touch 0x300000100180010000000000000000000000000009b00000000 a0 (State.cancelData a0 a1 a2) := by
  intro a0 a1 a2
  unfold State.cancelData
  extract_lets x41 x42 x43 x44 x45 x46 x47 x48 x49 x50
  clear_value x41 x42 x43 x44 x45 x46 x47
  have h51 : touch 0x300000100180010000000000000000000000000009b00000000 a0 x48 := by
    unfold x48
    refine touch.step ?_ (touch.upd_streams ..) rfl
    exact touch.refl _ _
  have h52 : touch 0x300000100180010000000000000000000000000009b00000000 a0 x49 := by
    unfold x49
    refine touch.step ?_ (State.wasteSlots_touch ..) rfl
    refine touch.step ?_ (State.returnAll_touch ..) rfl
    exact h51
  have h53 : touch 0x300000100180010000000000000000000000000009b00000000 a0 x50 := by
    unfold x50
    refine touch.step ?_ (touch.upd_outstanding ..) rfl
    exact h52
  clear_value x48 x49 x50
  refine touch.foldl ?_ ?_
  · exact h53
  · intro u54 y55 h56
    refine touch.step ?_ (State.issueWaiting_touch ..) rfl
    exact h56

theorem State.cancelOverlap_touch : ∀ a0 a1 a2 a3, touch 0x300000100180010000000000000000000000000009b00000000 a0 (State.cancelOverlap a0 a1 a2 a3) := by
  intro a0 a1 a2 a3
  unfold State.cancelOverlap
  refine touch.foldl ?_ ?_
  · exact touch.refl _ _
  · intro u41 y42 h43
    refine touch.step ?_ (State.cancelData_touch ..) rfl
    exact h43

theorem State.cancelStreams_touch : ∀ a0 a1, touch 0x4300000100180010000000000000000000000000009b08000000 a0 (State.cancelStreams a0 a1) := by
  intro a0 a1
  unfold State.cancelStreams
  refine touch.foldl ?_ ?_
  · exact touch.refl _ _
  · intro u41 y42 h43
    extract_lets x44 x45
    have h46 : touch 0x4300000100180010000000000000000000000000009b08000000 a0 x44 := by
      unfold x44
      refine touch.step ?_ (State.cancelData_touch ..) rfl
      exact h43
    have h47 : touch 0x4300000100180010000000000000000000000000009b08000000 a0 x45 := by
      unfold x45
      refine touch.step ?_ (State.endLive_touch ..) rfl
      refine touch.step ?_ (touch.upd_streams ..) rfl
      exact h46
    clear_value x44 x45
    refine touch.ite ?_ ?_
    · exact h47
    · refine touch.step ?_ (touch.WIN_STATE ..) rfl
      exact h47

theorem State.prefetchOne_touch : ∀ a0 a1 a2 a3 a4 a5, touch 0x3c3400001805ed9d0000062000800c1000006807007df086000e0 a0 (State.prefetchOne a0 a1 a2 a3 a4 a5) := by
  intro a0 a1 a2 a3 a4 a5
  unfold State.prefetchOne
  extract_lets x41 x42 x43
  clear_value x41 x42 x43
  split
  · rename_i z44 z45 z46 z47
    have h48 : touch 0x3c3400001805ed9d0000062000800c1000006807007df086000e0 a0 z45 := by
      refine touch.ofEq z47 ?_
      refine touch.step ?_ (State.newId_touch ..) rfl
      exact touch.refl _ _
    extract_lets x49 x50 x51 x52 x53 x54
    clear_value x49 x50
    have h55 : touch 0x3c3400001805ed9d0000062000800c1000006807007df086000e0 a0 x51 := by
      unfold x51
      refine touch.step ?_ (touch.upd_outstanding ..) rfl
      exact h48
    have h56 : touch 0x3c3400001805ed9d0000062000800c1000006807007df086000e0 a0 x52 := by
      unfold x52
      refine touch.step ?_ (State.setIngress_touch ..) rfl
      exact h55
    have h57 : touch 0x3c3400001805ed9d0000062000800c1000006807007df086000e0 a0 x53 := by
      unfold x53
      refine touch.step ?_ (State.takeIn_touch ..) rfl
      exact h56
    have h58 : touch 0x3c3400001805ed9d0000062000800c1000006807007df086000e0 a0 x54 := by
      unfold x54
      refine touch.step ?_ (State.deferSlots_touch ..) rfl
      refine touch.step ?_ (State.countCl_touch ..) rfl
      refine touch.step ?_ (State.issueAll_touch ..) rfl
      exact h57
    clear_value x51 x52 x53 x54
    refine touch.ite ?_ ?_
    · exact touch.refl _ _
    · split
      · rename_i z59 z60
        refine touch.ite ?_ ?_
        · exact h57
        · refine touch.step ?_ (touch.upd_outstanding_streams ..) rfl
          exact h58
      · rename_i z61 z62
        exact touch.refl _ _

theorem State.runAhead_touch : ∀ a0 a1 a2 a3 a4 a5, touch 0x3c3400001805ed9d0000062000800c1000006807007df086000e0 a0 (State.runAhead a0 a1 a2 a3 a4 a5) := by
  intro a0 a1 a2 a3 a4 a5
  unfold State.runAhead
  refine touch.ite ?_ ?_
  · exact touch.refl _ _
  · extract_lets x41 x42 x43 x44 x45 x46 x47 x48
    clear_value x41 x42 x43 x48
    have h49 : touch 0x3c3400001805ed9d0000062000800c1000006807007df086000e0 a0 x44 := by
      unfold x44
      refine touch.ite ?_ ?_
      · exact touch.refl _ _
      · split
        · rename_i z50 z51 z52
          refine touch.step ?_ (State.cancelStreams_touch ..) rfl
          exact touch.refl _ _
        · rename_i z53 z54
          exact touch.refl _ _
    have h55 : touch 0x3c3400001805ed9d0000062000800c1000006807007df086000e0 a0 x45 := by
      unfold x45
      split
      · rename_i z56 z57
        exact touch.refl _ _
      · rename_i z58
        refine touch.step ?_ (touch.upd_streams ..) rfl
        exact h49
    have h59 : touch 0x3c3400001805ed9d0000062000800c1000006807007df086000e0 a0 x46 := by
      unfold x46
      refine touch.step ?_ (touch.WIN_STATE ..) rfl
      exact h55
    have h60 : touch 0x3c3400001805ed9d0000062000800c1000006807007df086000e0 a0 x47 := by
      unfold x47
      refine touch.step ?_ (touch.upd_streams ..) rfl
      exact h59
    clear_value x44 x45 x46 x47
    refine touch.foldl ?_ ?_
    · exact h60
    · intro u61 y62 h63
      refine touch.step ?_ (State.prefetchOne_touch ..) rfl
      exact h63

theorem State.receiveNative_touch : ∀ a0 a1 a2 a3, touch 0x3c3400001805ed9d0000062000800c1000006807187df086000e0 a0 (State.receiveNative a0 a1 a2 a3) := by
  intro a0 a1 a2 a3
  unfold State.receiveNative
  extract_lets x41 x42 x43 x44
  clear_value x41 x44
  have h45 : touch 0x3c3400001805ed9d0000062000800c1000006807187df086000e0 a0 x42 := by
    unfold x42
    refine touch.step ?_ (touch.WIN_TRACK ..) rfl
    exact touch.refl _ _
  have h46 : touch 0x3c3400001805ed9d0000062000800c1000006807187df086000e0 a0 x43 := by
    unfold x43
    refine touch.step ?_ (State.raise_touch ..) rfl
    exact h45
  clear_value x42 x43
  refine touch.ite ?_ ?_
  · refine touch.step ?_ (State.returnLinkCredits_touch ..) rfl
    refine touch.step ?_ (State.refuseNative_touch ..) rfl
    exact touch.refl _ _
  · split
    · rename_i z47 z48
      refine touch.step ?_ (State.returnLinkCredits_touch ..) rfl
      refine touch.step ?_ (State.refuseNative_touch ..) rfl
      exact h46
    · rename_i z49 z50 z51
      extract_lets x52 x53 x54 x55 x56
      clear_value x52 x53 x54 x55
      split
      · rename_i z57 z58 z59 z60
        have h61 : touch 0x3c3400001805ed9d0000062000800c1000006807187df086000e0 a0 z58 := by
          refine touch.ofEq z60 ?_
          refine touch.step ?_ (State.newId_touch ..) rfl
          exact touch.refl _ _
        extract_lets x62
        clear_value x62
        split
        · rename_i z63
          refine touch.step ?_ (State.returnLinkCredits_touch ..) rfl
          refine touch.step ?_ (State.refuseNative_touch ..) rfl
          exact h61
        · rename_i z64 z65
          extract_lets x66 x67 x68 x69 x70
          clear_value x67 x69
          have h71 : touch 0x3c3400001805ed9d0000062000800c1000006807187df086000e0 a0 x66 := by
            unfold x66
            refine touch.ite ?_ ?_
            · refine touch.step ?_ (State.cancelOverlap_touch ..) rfl
              exact h61
            · exact h61
          have h72 : touch 0x3c3400001805ed9d0000062000800c1000006807187df086000e0 a0 x68 := by
            unfold x68
            refine touch.ite ?_ ?_
            · refine touch.step ?_ (State.countCl_touch ..) rfl
              refine touch.step ?_ (State.useStream_touch ..) rfl
              exact h71
            · exact h71
          have h73 : touch 0x3c3400001805ed9d0000062000800c1000006807187df086000e0 a0 x70 := by
            unfold x70
            refine touch.ite ?_ ?_
            · refine touch.step ?_ (touch.upd_outstanding ..) rfl
              exact h72
            · exact h72
          clear_value x66 x68 x70
          split
          · rename_i z74 z75 z76 z77
            have h78 : touch 0x3c3400001805ed9d0000062000800c1000006807187df086000e0 a0 z75 := by
              refine touch.ofEq z77 ?_
              refine touch.fstIte ?_ ?_
              · refine touch.fstMk ?_
                exact h73
              · refine touch.step ?_ (State.postedTags_touch ..) rfl
                exact h73
            extract_lets x79
            have h80 : touch 0x3c3400001805ed9d0000062000800c1000006807187df086000e0 a0 x79 := by
              unfold x79
              refine touch.ite ?_ ?_
              · refine touch.step ?_ (State.progress_touch ..) rfl
                refine touch.step ?_ (State.returnLinkCredits_touch ..) rfl
                exact h78
              · refine touch.step ?_ (State.enqueue_touch ..) rfl
                exact h78
            clear_value x79
            refine touch.ite ?_ ?_
            · refine touch.step ?_ (State.runAhead_touch ..) rfl
              exact h80
            · exact h80

theorem State.transitIn_touch : ∀ a0 a1 a2 a3, touch 0x10000000000000000000000000001b00000000 a0 (State.transitIn a0 a1 a2 a3) := by
  intro a0 a1 a2 a3
  unfold State.transitIn
  split
  · rename_i z41 z42 z43 z44
    have h45 : touch 0x10000000000000000000000000001b00000000 a0 z42 := by
      refine touch.ofEq z44 ?_
      refine touch.step ?_ (State.newId_touch ..) rfl
      exact touch.refl _ _
    extract_lets x46 x47 x48
    clear_value x46
    have h49 : touch 0x10000000000000000000000000001b00000000 a0 x48 := by
      unfold x48
      refine touch.ite ?_ ?_
      · refine touch.step ?_ (touch.upd_outstanding ..) rfl
        exact h45
      · exact h45
    clear_value x47 x48
    refine touch.step ?_ (State.enqueue_touch ..) rfl
    exact h49

theorem State.arriveBf_touch : ∀ a0 a1 a2 a3, touch 0x3c3604001805ed9d0000062000800c1000006807187df086000f0 a0 (State.arriveBf a0 a1 a2 a3) := by
  intro a0 a1 a2 a3
  unfold State.arriveBf
  extract_lets x41 x42 x43
  clear_value x41 x42 x43
  refine touch.ite ?_ ?_
  · refine touch.step ?_ (State.discardMalformed_touch ..) rfl
    exact touch.refl _ _
  · refine touch.ite ?_ ?_
    · refine touch.ite ?_ ?_
      · split
        · rename_i z44 z45 z46
          extract_lets x47
          have h48 : touch 0x3c3604001805ed9d0000062000800c1000006807187df086000f0 a0 x47 := by
            unfold x47
            refine touch.step ?_ (State.dropOutstanding_touch ..) rfl
            exact touch.refl _ _
          clear_value x47
          refine touch.step ?_ (State.returnLinkCredits_touch ..) rfl
          refine touch.ite ?_ ?_
          · refine touch.step ?_ (State.lateAnswer_touch ..) rfl
            exact h48
          · refine touch.step ?_ (State.sendFrom_touch ..) rfl
            exact h48
        · rename_i z49 z50
          refine touch.step ?_ (State.returnLinkCredits_touch ..) rfl
          refine touch.step ?_ (State.sendFrom_touch ..) rfl
          exact touch.refl _ _
      · refine touch.step ?_ (State.transitIn_touch ..) rfl
        exact touch.refl _ _
    · refine touch.ite ?_ ?_
      · refine touch.step ?_ (State.returnLinkCredits_touch ..) rfl
        refine touch.step ?_ (State.carryNear_touch ..) rfl
        exact touch.refl _ _
      · refine touch.ite ?_ ?_
        · refine touch.ite ?_ ?_
          · refine touch.ite ?_ ?_
            · refine touch.step ?_ (State.returnLinkCredits_touch ..) rfl
              refine touch.step ?_ (State.complete_touch ..) rfl
              exact touch.refl _ _
            · refine touch.step ?_ (State.discardMalformed_touch ..) rfl
              exact touch.refl _ _
          · refine touch.ite ?_ ?_
            · refine touch.step ?_ (State.returnLinkCredits_touch ..) rfl
              refine touch.step ?_ (State.sendFrom_touch ..) rfl
              exact touch.refl _ _
            · refine touch.step ?_ (State.transitIn_touch ..) rfl
              exact touch.refl _ _
        · refine touch.ite ?_ ?_
          · split
            · rename_i z51 z52 z53 z54
              have h55 : touch 0x3c3604001805ed9d0000062000800c1000006807187df086000f0 a0 z52 := by
                refine touch.ofEq z54 ?_
                refine touch.step ?_ (State.checkPacket_touch ..) rfl
                exact touch.refl _ _
              refine touch.step ?_ (State.returnLinkCredits_touch ..) rfl
              refine touch.ite ?_ ?_
              · refine touch.step ?_ (State.writeLossHere_touch ..) rfl
                exact h55
              · exact h55
          · refine touch.ite ?_ ?_
            · refine touch.step ?_ (State.returnLinkCredits_touch ..) rfl
              refine touch.step ?_ (State.refuseLock_touch ..) rfl
              exact touch.refl _ _
            · refine touch.ite ?_ ?_
              · refine touch.step ?_ (State.receiveNative_touch ..) rfl
                exact touch.refl _ _
              · refine touch.ite ?_ ?_
                · refine touch.step ?_ (State.returnLinkCredits_touch ..) rfl
                  refine touch.step ?_ (State.refuseNative_touch ..) rfl
                  exact touch.refl _ _
                · refine touch.step ?_ (State.transitIn_touch ..) rfl
                  exact touch.refl _ _

theorem State.allArrive_touch : ∀ a0 a1, touch 0x3c3604001805ed9d0000062000800c1000006807187df086000f0 a0 (State.allArrive a0 a1) := by
  intro a0 a1
  unfold State.allArrive
  refine touch.foldl ?_ ?_
  · refine touch.step ?_ (State.setLink_touch ..) rfl
    exact touch.refl _ _
  · intro u41 y42 h43
    refine touch.step ?_ (State.arriveBf_touch ..) rfl
    exact h43

theorem State.setLaneSt_touch : ∀ a0 a1 a2, touch 0x4000000000000000000 a0 (State.setLaneSt a0 a1 a2) := by
  intro a0 a1 a2
  unfold State.setLaneSt
  refine touch.step ?_ (touch.upd_lanes ..) rfl
  exact touch.refl _ _

theorem State.stopScan_touch : ∀ a0 a1, touch 0x2000000000000000000000000004000000000000000000 a0 (State.stopScan a0 a1) := by
  intro a0 a1
  unfold State.stopScan
  extract_lets x41 x42 x43
  clear_value x43
  have h44 : touch 0x2000000000000000000000000004000000000000000000 a0 x41 := by
    unfold x41
    refine touch.step ?_ (touch.LN_EYE ..) rfl
    refine touch.step ?_ (touch.LN_EYE ..) rfl
    exact touch.refl _ _
  have h45 : touch 0x2000000000000000000000000004000000000000000000 a0 x42 := by
    unfold x42
    refine touch.step ?_ (touch.LN_EYE ..) rfl
    refine touch.step ?_ (touch.LN_EYE ..) rfl
    exact h44
  clear_value x41 x42
  refine touch.step ?_ (State.setLaneSt_touch ..) rfl
  exact h45

theorem State.updateDrift_touch : ∀ a0 a1, touch 0x1000000000000000000000000000000000000000000000 a0 (State.updateDrift a0 a1) := by
  intro a0 a1
  unfold State.updateDrift
  refine touch.step ?_ (touch.LN_QUAL ..) rfl
  exact touch.refl _ _

theorem State.updateAdapter_touch : ∀ a0 a1, touch 0x1800000000000000000000000004000000000000000000 a0 (State.updateAdapter a0 a1) := by
  intro a0 a1
  unfold State.updateAdapter
  extract_lets x41 x42 x43 x44
  clear_value x41 x42 x44
  have h45 : touch 0x1800000000000000000000000004000000000000000000 a0 x43 := by
    unfold x43
    refine touch.step ?_ (State.updateDrift_touch ..) rfl
    refine touch.step ?_ (touch.LN_STATE ..) rfl
    refine touch.step ?_ (touch.LN_STATE ..) rfl
    exact touch.refl _ _
  clear_value x43
  refine touch.ite ?_ ?_
  · refine touch.step ?_ (State.setLaneSt_touch ..) rfl
    exact h45
  · exact h45

theorem State.updateSamplers_touch : ∀ a0 a1, touch 0x3800000300046d8000000620000004000040000000000006000a0 a0 (State.updateSamplers a0 a1) := by
  intro a0 a1
  unfold State.updateSamplers
  extract_lets x41 x42 x43 x44
  clear_value x41 x42 x43
  have h45 : touch 0x3800000300046d8000000620000004000040000000000006000a0 a0 x44 := by
    unfold x44
    refine touch.ite ?_ ?_
    · exact touch.refl _ _
    · refine touch.step ?_ (State.raise_touch ..) rfl
      refine touch.foldl ?_ ?_
      · exact touch.refl _ _
      · intro u46 y47 h48
        refine touch.step ?_ (touch.LN_QUAL ..) rfl
        refine touch.step ?_ (State.stopScan_touch ..) rfl
        exact h48
  clear_value x44
  refine touch.foldl ?_ ?_
  · exact h45
  · intro u49 y50 h51
    extract_lets x52 x53
    clear_value x52
    have h54 : touch 0x3800000300046d8000000620000004000040000000000006000a0 a0 x53 := by
      unfold x53
      refine touch.ite ?_ ?_
      · refine touch.step ?_ (State.stopScan_touch ..) rfl
        exact h51
      · exact h51
    clear_value x53
    refine touch.step ?_ (touch.LN_QUAL ..) rfl
    exact h54

theorem State.setSleep_touch : ∀ a0 a1 a2 a3, touch 0x3800000380046d8000000620000004000040000000000006000a0 a0 (State.setSleep a0 a1 a2 a3) := by
  intro a0 a1 a2 a3
  unfold State.setSleep
  extract_lets x41
  have h42 : touch 0x3800000380046d8000000620000004000040000000000006000a0 a0 x41 := by
    unfold x41
    refine touch.step ?_ (touch.LN_STATE ..) rfl
    refine touch.step ?_ (touch.LN_STATE ..) rfl
    exact touch.refl _ _
  clear_value x41
  refine touch.step ?_ (State.updateAdapter_touch ..) rfl
  refine touch.step ?_ (State.updateSamplers_touch ..) rfl
  exact h42

theorem State.laneOff_touch : ∀ a0 a1, touch 0x3800000380046d8000000620000004000040000000000006000a0 a0 (State.laneOff a0 a1) := by
  intro a0 a1
  unfold State.laneOff
  extract_lets x41 x42 x43
  have h44 : touch 0x3800000380046d8000000620000004000040000000000006000a0 a0 x41 := by
    unfold x41
    refine touch.step ?_ (touch.LN_STATE ..) rfl
    refine touch.step ?_ (touch.LN_STATE ..) rfl
    refine touch.step ?_ (touch.LN_STATE ..) rfl
    exact touch.refl _ _
  have h45 : touch 0x3800000380046d8000000620000004000040000000000006000a0 a0 x42 := by
    unfold x42
    refine touch.step ?_ (touch.LN_STATE ..) rfl
    exact h44
  have h46 : touch 0x3800000380046d8000000620000004000040000000000006000a0 a0 x43 := by
    unfold x43
    refine touch.step ?_ (State.setLaneSt_touch ..) rfl
    refine touch.step ?_ (State.stopScan_touch ..) rfl
    exact h45
  clear_value x41 x42 x43
  refine touch.step ?_ (State.setSleep_touch ..) rfl
  exact h46

theorem State.quietPort_touch : ∀ a0 a1, touch 0x3800000380046d8000000620000004000040000000000006000a0 a0 (State.quietPort a0 a1) := by
  intro a0 a1
  unfold State.quietPort
  refine touch.foldl ?_ ?_
  · exact touch.refl _ _
  · intro u41 y42 h43
    refine touch.step ?_ (State.laneOff_touch ..) rfl
    exact h43

theorem State.surrogateRecord_touch : ∀ a0 a1 a2 a3 a4, touch 0x383000000001ed800000062000000000000000000000000200020 a0 (State.surrogateRecord a0 a1 a2 a3 a4) := by
  intro a0 a1 a2 a3 a4
  unfold State.surrogateRecord
  extract_lets x41 x42
  clear_value x41 x42
  refine touch.step ?_ (State.countDie_touch ..) rfl
  refine touch.step ?_ (State.offer_touch ..) rfl
  exact touch.refl _ _

theorem State.discardQueued_touch : ∀ a0 a1 a2, touch 0x3c3000000005ed8100000620008004000000000000449006000a0 a0 (State.discardQueued a0 a1 a2) := by
  intro a0 a1 a2
  unfold State.discardQueued
  extract_lets x41
  have h42 : touch 0x3c3000000005ed8100000620008004000000000000449006000a0 a0 x41 := by
    unfold x41
    refine touch.step ?_ (State.reclaimAll_touch ..) rfl
    exact touch.refl _ _
  clear_value x41
  split
  · rename_i z43 z44 z45
    extract_lets x46
    have h47 : touch 0x3c3000000005ed8100000620008004000000000000449006000a0 a0 x46 := by
      unfold x46
      refine touch.step ?_ (State.endSought_touch ..) rfl
      refine touch.step ?_ (State.dropOutstanding_touch ..) rfl
      exact h42
    clear_value x46
    refine touch.ite ?_ ?_
    · exact h47
    · refine touch.ite ?_ ?_
      · refine touch.foldl ?_ ?_
        · exact h47
        · intro u48 y49 h50
          refine touch.step ?_ (State.failWrite_touch ..) rfl
          exact h50
      · refine touch.step ?_ (State.surrogateRecord_touch ..) rfl
        refine touch.step ?_ (State.returnAll_touch ..) rfl
        exact h47
  · rename_i z51 z52
    refine touch.foldl ?_ ?_
    · exact h42
    · intro u53 y54 h55
      refine touch.ite ?_ ?_
      · exact h55
      · refine touch.step ?_ (State.lose_touch ..) rfl
        exact h55

theorem State.ingressDiscard_touch : ∀ a0 a1, touch 0x3c3400000005ed810000062000800400000000000044b006000a0 a0 (State.ingressDiscard a0 a1) := by
  intro a0 a1
  unfold State.ingressDiscard
  extract_lets x41
  have h42 : touch 0x3c3400000005ed810000062000800400000000000044b006000a0 a0 x41 := by
    unfold x41
    refine touch.foldl ?_ ?_
    · exact touch.refl _ _
    · intro u43 y44 h45
      extract_lets x46
      clear_value x46
      refine touch.foldl ?_ ?_
      · refine touch.step ?_ (State.setIngress_touch ..) rfl
        exact h45
      · intro u47 y48 h49
        refine touch.step ?_ (State.discardQueued_touch ..) rfl
        exact h49
  clear_value x41
  refine touch.step ?_ (touch.PORT_HOLD ..) rfl
  refine touch.step ?_ (touch.PORT_HOLD ..) rfl
  refine touch.step ?_ (touch.PORT_HOLD ..) rfl
  exact h42

theorem State.endByReset_touch : ∀ a0 a1, touch 0x10000000000000000000000000000908000000 a0 (State.endByReset a0 a1) := by
  intro a0 a1
  unfold State.endByReset
  extract_lets x41
  have h42 : touch 0x10000000000000000000000000000908000000 a0 x41 := by
    unfold x41
    refine touch.step ?_ (State.endLive_touch ..) rfl
    refine touch.step ?_ (State.reclaimAll_touch ..) rfl
    exact touch.refl _ _
  clear_value x41
  refine touch.ite ?_ ?_
  · refine touch.step ?_ (State.dropOutstanding_touch ..) rfl
    exact h42
  · refine touch.step ?_ (State.setOutstanding_touch ..) rfl
    exact h42

theorem State.resetPort_touch : ∀ a0 a1, touch 0x3c3774c39805ed9d0000062000c80c3006dfec171afff886000f0 a0 (State.resetPort a0 a1) := by
  intro a0 a1
  unfold State.resetPort
  extract_lets x41 x42 x43 x44 x45 x46 x47 x48 x49 x50 x51 x52 x53 x54 x55 x56
  clear_value x41 x46 x52
  have h57 : touch 0x3c3774c39805ed9d0000062000c80c3006dfec171afff886000f0 a0 x42 := by
    unfold x42
    refine touch.step ?_ (State.dropLock_touch ..) rfl
    exact touch.refl _ _
  have h58 : touch 0x3c3774c39805ed9d0000062000c80c3006dfec171afff886000f0 a0 x43 := by
    unfold x43
    refine touch.step ?_ (State.egressDiscard_touch ..) rfl
    exact h57
  have h59 : touch 0x3c3774c39805ed9d0000062000c80c3006dfec171afff886000f0 a0 x44 := by
    unfold x44
    refine touch.step ?_ (State.reclaimLink_touch ..) rfl
    refine touch.step ?_ (State.ingressDiscard_touch ..) rfl
    refine touch.step ?_ (State.allArrive_touch ..) rfl
    refine touch.step ?_ (State.loseFlits_touch ..) rfl
    exact h58
  have h60 : touch 0x3c3774c39805ed9d0000062000c80c3006dfec171afff886000f0 a0 x45 := by
    unfold x45
    refine touch.step ?_ (State.failAsks_touch ..) rfl
    refine touch.step ?_ (State.reclaimLedger_touch ..) rfl
    exact h59
  have h61 : touch 0x3c3774c39805ed9d0000062000c80c3006dfec171afff886000f0 a0 x47 := by
    unfold x47
    refine touch.foldl ?_ ?_
    · exact h60
    · intro u62 y63 h64
      refine touch.step ?_ (State.endByReset_touch ..) rfl
      exact h64
  have h65 : touch 0x3c3774c39805ed9d0000062000c80c3006dfec171afff886000f0 a0 x48 := by
    unfold x48
    refine touch.step ?_ (touch.upd_lockWait ..) rfl
    exact h61
  have h66 : touch 0x3c3774c39805ed9d0000062000c80c3006dfec171afff886000f0 a0 x49 := by
    unfold x49
    refine touch.step ?_ (State.discardNear_touch ..) rfl
    exact h65
  have h67 : touch 0x3c3774c39805ed9d0000062000c80c3006dfec171afff886000f0 a0 x50 := by
    unfold x50
    refine touch.foldl ?_ ?_
    · exact h66
    · intro u68 y69 h70
      refine touch.step ?_ (State.reclaimLedger_touch ..) rfl
      exact h70
  have h71 : touch 0x3c3774c39805ed9d0000062000c80c3006dfec171afff886000f0 a0 x51 := by
    unfold x51
    refine touch.step ?_ (State.deassertPins_touch ..) rfl
    exact h67
  have h72 : touch 0x3c3774c39805ed9d0000062000c80c3006dfec171afff886000f0 a0 x53 := by
    unfold x53
    refine touch.step ?_ (touch.upd_modes_bounds_intxCount_flr_pmeOff ..) rfl
    exact h71
  have h73 : touch 0x3c3774c39805ed9d0000062000c80c3006dfec171afff886000f0 a0 x54 := by
    unfold x54
    refine touch.ite ?_ ?_
    · refine touch.step ?_ (State.resetSwitch_touch ..) rfl
      exact h72
    · exact h72
  have h74 : touch 0x3c3774c39805ed9d0000062000c80c3006dfec171afff886000f0 a0 x55 := by
    unfold x55
    refine touch.step ?_ (State.quietPort_touch ..) rfl
    refine touch.step ?_ (State.pcieDown_touch ..) rfl
    exact h73
  have h75 : touch 0x3c3774c39805ed9d0000062000c80c3006dfec171afff886000f0 a0 x56 := by
    unfold x56
    refine touch.step ?_ (touch.PORT_BOND ..) rfl
    refine touch.step ?_ (touch.PORT_BOND ..) rfl
    exact h74
  clear_value x42 x43 x44 x45 x47 x48 x49 x50 x51 x53 x54 x55 x56
  refine touch.step ?_ (State.unlockNear_touch ..) rfl
  refine touch.step ?_ (State.takeParent_touch ..) rfl
  refine touch.step ?_ (touch.PORT_LINK ..) rfl
  refine touch.step ?_ (State.setLink_touch ..) rfl
  exact h75

theorem State.setEngine_touch : ∀ a0 a1 a2, touch 0x2000000000000 a0 (State.setEngine a0 a1 a2) := by
  intro a0 a1 a2
  unfold State.setEngine
  refine touch.step ?_ (touch.upd_engines ..) rfl
  exact touch.refl _ _

theorem State.resetEngine_touch : ∀ a0 a1, touch 0x3c3200001805ed810000062000800c0000006801207ff086000f0 a0 (State.resetEngine a0 a1) := by
  intro a0 a1
  unfold State.resetEngine
  extract_lets x41 x42 x43 x44 x45 x46 x47 x48 x49 x50 x51
  clear_value x41 x42 x44 x48 x51
  have h52 : touch 0x3c3200001805ed810000062000800c0000006801207ff086000f0 a0 x43 := by
    unfold x43
    refine touch.step ?_ (State.setEngine_touch ..) rfl
    exact touch.refl _ _
  have h53 : touch 0x3c3200001805ed810000062000800c0000006801207ff086000f0 a0 x45 := by
    unfold x45
    refine touch.step ?_ (touch.upd_waiting ..) rfl
    exact h52
  have h54 : touch 0x3c3200001805ed810000062000800c0000006801207ff086000f0 a0 x46 := by
    unfold x46
    refine touch.foldl ?_ ?_
    · exact h53
    · intro u55 y56 h57
      extract_lets x58
      have h59 : touch 0x3c3200001805ed810000062000800c0000006801207ff086000f0 a0 x58 := by
        unfold x58
        refine touch.step ?_ (State.endLive_touch ..) rfl
        refine touch.step ?_ (State.reclaimAll_touch ..) rfl
        exact h57
      clear_value x58
      refine touch.ite ?_ ?_
      · exact h59
      · refine touch.ite ?_ ?_
        · refine touch.step ?_ (State.answerTo_touch ..) rfl
          exact h59
        · refine touch.step ?_ (State.lose_touch ..) rfl
          exact h59
  have h60 : touch 0x3c3200001805ed810000062000800c0000006801207ff086000f0 a0 x47 := by
    unfold x47
    refine touch.foldl ?_ ?_
    · exact h54
    · intro u61 y62 h63
      split
      · rename_i z64 z65
        refine touch.ite ?_ ?_
        · refine touch.step ?_ (State.answerTo_touch ..) rfl
          exact h63
        · exact h63
      · rename_i z66 z67
        exact h63
  have h68 : touch 0x3c3200001805ed810000062000800c0000006801207ff086000f0 a0 x49 := by
    unfold x49
    refine touch.foldl ?_ ?_
    · exact h60
    · intro u69 y70 h71
      refine touch.step ?_ (State.setOutstanding_touch ..) rfl
      refine touch.step ?_ (State.endLive_touch ..) rfl
      refine touch.step ?_ (State.reclaimAll_touch ..) rfl
      exact h71
  have h72 : touch 0x3c3200001805ed810000062000800c0000006801207ff086000f0 a0 x50 := by
    unfold x50
    refine touch.step ?_ (State.discardNear_touch ..) rfl
    exact h68
  clear_value x43 x45 x46 x47 x49 x50
  refine touch.step ?_ (touch.upd_ingress_device ..) rfl
  exact h72

theorem State.dropStreams_touch : ∀ a0 a1, touch 0x4300000100180010000000000000000000000000009b08000000 a0 (State.dropStreams a0 a1) := by
  intro a0 a1
  unfold State.dropStreams
  extract_lets x41 x42 x43
  clear_value x41
  have h44 : touch 0x4300000100180010000000000000000000000000009b08000000 a0 x42 := by
    unfold x42
    refine touch.foldl ?_ ?_
    · exact touch.refl _ _
    · intro u45 y46 h47
      refine touch.step ?_ (State.reclaimAll_touch ..) rfl
      exact h47
  have h48 : touch 0x4300000100180010000000000000000000000000009b08000000 a0 x43 := by
    unfold x43
    refine touch.step ?_ (touch.upd_streams ..) rfl
    exact h44
  clear_value x42 x43
  refine touch.step ?_ (State.cancelStreams_touch ..) rfl
  exact h48

theorem State.leaveEntry_touch : ∀ a0 a1, touch 0x400000000 a0 (State.leaveEntry a0 a1) := by
  intro a0 a1
  unfold State.leaveEntry
  refine touch.step ?_ (touch.upd_waiting ..) rfl
  exact touch.refl _ _

theorem State.dropTracker_touch : ∀ a0 a1, touch 0x4000000080000010000000000000000000000000000900000000 a0 (State.dropTracker a0 a1) := by
  intro a0 a1
  unfold State.dropTracker
  extract_lets x41 x42 x43
  clear_value x41
  have h44 : touch 0x4000000080000010000000000000000000000000000900000000 a0 x42 := by
    unfold x42
    refine touch.foldl ?_ ?_
    · exact touch.refl _ _
    · intro u45 y46 h47
      extract_lets x48 x49
      clear_value x48
      have h50 : touch 0x4000000080000010000000000000000000000000000900000000 a0 x49 := by
        unfold x49
        refine touch.ite ?_ ?_
        · exact h47
        · refine touch.step ?_ (State.reclaimAll_touch ..) rfl
          exact h47
      clear_value x49
      refine touch.step ?_ (State.setOutstanding_touch ..) rfl
      exact h50
  have h51 : touch 0x4000000080000010000000000000000000000000000900000000 a0 x43 := by
    unfold x43
    refine touch.step ?_ (touch.WIN_TRACK ..) rfl
    refine touch.step ?_ (State.reclaimLedger_touch ..) rfl
    exact h44
  clear_value x42 x43
  refine touch.foldl ?_ ?_
  · exact h51
  · intro u52 y53 h54
    refine touch.step ?_ (touch.WIN_STATE ..) rfl
    exact h54

theorem State.dropFailures_touch : ∀ a0 a1, touch 0x4000000000000000000000000000000000000000004000000000 a0 (State.dropFailures a0 a1) := by
  intro a0 a1
  unfold State.dropFailures
  extract_lets x41
  clear_value x41
  refine touch.foldl ?_ ?_
  · refine touch.step ?_ (touch.upd_heldFailures ..) rfl
    exact touch.refl _ _
  · intro u42 y43 h44
    refine touch.step ?_ (touch.WIN_STATE ..) rfl
    exact h44

theorem State.resetCluster_touch : ∀ a0 a1, touch 0x3c3774c39805ed9d0100062011c80c3006dfec173afffc86000f0 a0 (State.resetCluster a0 a1) := by
  intro a0 a1
  unfold State.resetCluster
  refine touch.ite ?_ ?_
  · exact touch.refl _ _
  · extract_lets x41 x42 x43 x44 x45 x46 x47 x48
    have h49 : touch 0x3c3774c39805ed9d0100062011c80c3006dfec173afffc86000f0 a0 x41 := by
      unfold x41
      refine touch.step ?_ (State.setLive_touch ..) rfl
      refine touch.step ?_ (touch.PKG_FENCE_CL ..) rfl
      exact touch.refl _ _
    have h50 : touch 0x3c3774c39805ed9d0100062011c80c3006dfec173afffc86000f0 a0 x42 := by
      unfold x42
      refine touch.step ?_ (State.dropTracker_touch ..) rfl
      refine touch.step ?_ (State.leaveEntry_touch ..) rfl
      exact h49
    have h51 : touch 0x3c3774c39805ed9d0100062011c80c3006dfec173afffc86000f0 a0 x43 := by
      unfold x43
      refine touch.step ?_ (State.leaveEntry_touch ..) rfl
      refine touch.step ?_ (State.dropFailures_touch ..) rfl
      refine touch.foldl ?_ ?_
      · exact h50
      · intro u52 y53 h54
        refine touch.step ?_ (State.resetPort_touch ..) rfl
        exact h54
    have h55 : touch 0x3c3774c39805ed9d0100062011c80c3006dfec173afffc86000f0 a0 x44 := by
      unfold x44
      refine touch.foldl ?_ ?_
      · exact h51
      · intro u56 y57 h58
        refine touch.step ?_ (State.resetEngine_touch ..) rfl
        exact h58
    have h59 : touch 0x3c3774c39805ed9d0100062011c80c3006dfec173afffc86000f0 a0 x45 := by
      unfold x45
      refine touch.step ?_ (State.dropStreams_touch ..) rfl
      exact h55
    have h60 : touch 0x3c3774c39805ed9d0100062011c80c3006dfec173afffc86000f0 a0 x46 := by
      unfold x46
      refine touch.step ?_ (State.settleSlots_touch ..) rfl
      exact h59
    have h61 : touch 0x3c3774c39805ed9d0100062011c80c3006dfec173afffc86000f0 a0 x47 := by
      unfold x47
      refine touch.foldl ?_ ?_
      · exact h60
      · intro u62 y63 h64
        refine touch.step ?_ (State.laneOff_touch ..) rfl
        exact h64
    have h65 : touch 0x3c3774c39805ed9d0100062011c80c3006dfec173afffc86000f0 a0 x48 := by
      unfold x48
      refine touch.foldl ?_ ?_
      · exact h61
      · intro u66 y67 h68
        refine touch.step ?_ (State.resetCrossing_touch ..) rfl
        exact h68
    clear_value x41 x42 x43 x44 x45 x46 x47 x48
    refine touch.step ?_ (State.raiseMask_touch ..) rfl
    exact h65

theorem State.fenceRegion_touch : ∀ a0 a1, touch 0x3c3774c39805ed9d0100062093c80c3006dfec173afffc86100f0 a0 (State.fenceRegion a0 a1) := by
  intro a0 a1
  unfold State.fenceRegion
  refine touch.ite ?_ ?_
  · refine touch.ite ?_ ?_
    · refine touch.step ?_ (State.afterFence_touch ..) rfl
      refine touch.step ?_ (State.endReloadOf_touch ..) rfl
      exact touch.refl _ _
    · exact touch.refl _ _
  · extract_lets x41 x42
    have h43 : touch 0x3c3774c39805ed9d0100062093c80c3006dfec173afffc86100f0 a0 x41 := by
      unfold x41
      refine touch.foldl ?_ ?_
      · exact touch.refl _ _
      · intro u44 y45 h46
        refine touch.step ?_ (State.resetCluster_touch ..) rfl
        exact h46
    have h47 : touch 0x3c3774c39805ed9d0100062093c80c3006dfec173afffc86100f0 a0 x42 := by
      unfold x42
      refine touch.step ?_ (State.endReloadOf_touch ..) rfl
      refine touch.step ?_ (touch.PKG_FENCE_RG ..) rfl
      exact h43
    clear_value x41 x42
    refine touch.step ?_ (State.afterFence_touch ..) rfl
    refine touch.step ?_ (State.routesMoved_touch ..) rfl
    refine touch.step ?_ (State.republish_touch ..) rfl
    exact h47

theorem State.fenceDie_touch : ∀ a0 a1, touch 0x3c3774c39805ed9d0100062093c80c3006dfec173afffc86100f0 a0 (State.fenceDie a0 a1) := by
  intro a0 a1
  unfold State.fenceDie
  refine touch.foldl ?_ ?_
  · exact touch.refl _ _
  · intro u41 y42 h43
    refine touch.step ?_ (State.fenceRegion_touch ..) rfl
    exact h43

theorem State.fenceCutOff_touch : ∀ a0, touch 0x3c3774c39805ed9d0100062093c80c3006dfec173afffc86100f0 a0 (State.fenceCutOff a0) := by
  intro a0
  unfold State.fenceCutOff
  refine touch.foldl ?_ ?_
  · exact touch.refl _ _
  · intro u41 y42 h43
    refine touch.ite ?_ ?_
    · refine touch.step ?_ (State.fenceDie_touch ..) rfl
      exact h43
    · exact h43

theorem State.countDiscards_touch : ∀ a0 a1 a2, touch 0x200000000000000000000000000000000000 a0 (State.countDiscards a0 a1 a2) := by
  intro a0 a1 a2
  unfold State.countDiscards
  refine touch.step ?_ (touch.DIE_XDISCARD ..) rfl
  exact touch.refl _ _

theorem State.resetSide_touch : ∀ a0 a1 a2 a3, touch 0x400000300000010000000000000000000040000000 a0 (State.resetSide a0 a1 a2 a3) := by
  intro a0 a1 a2 a3
  unfold State.resetSide
  extract_lets x41 x42
  clear_value x41
  have h43 : touch 0x400000300000010000000000000000000040000000 a0 x42 := by
    unfold x42
    refine touch.step ?_ (State.countDiscards_touch ..) rfl
    exact touch.refl _ _
  clear_value x42
  refine touch.step ?_ (State.resetCrossing_touch ..) rfl
  refine touch.step ?_ (State.resetCrossing_touch ..) rfl
  exact h43

theorem State.discardWaiting_touch : ∀ a0 a1 a2, touch 0x3c3200001805ed810000062000800c0000006801007df086000f0 a0 (State.discardWaiting a0 a1 a2) := by
  intro a0 a1 a2
  unfold State.discardWaiting
  extract_lets x41 x42
  clear_value x41
  have h43 : touch 0x3c3200001805ed810000062000800c0000006801007df086000f0 a0 x42 := by
    unfold x42
    refine touch.step ?_ (State.endLive_touch ..) rfl
    refine touch.step ?_ (State.reclaimAll_touch ..) rfl
    exact touch.refl _ _
  clear_value x42
  refine touch.ite ?_ ?_
  · refine touch.step ?_ (State.discardPacket_touch ..) rfl
    exact touch.refl _ _
  · refine touch.ite ?_ ?_
    · refine touch.ite ?_ ?_
      · refine touch.step ?_ (touch.PORT_SLUICE ..) rfl
        exact h43
      · exact h43
    · refine touch.ite ?_ ?_
      · exact h43
      · refine touch.ite ?_ ?_
        · refine touch.step ?_ (State.answerTo_touch ..) rfl
          exact h43
        · refine touch.step ?_ (State.lose_touch ..) rfl
          exact h43

theorem State.d2dFail_touch : ∀ a0 a1, touch 0x3c3774c39805ed9d0300062093c80c3006dfec173afffc86100f0 a0 (State.d2dFail a0 a1) := by
  intro a0 a1
  unfold State.d2dFail
  split
  · rename_i z1 z2 z3 z4
    extract_lets x5 x6 x7 x8 x9 xr x10 x11
    have h45 : touch 0x3c3774c39805ed9d0300062093c80c3006dfec173afffc86100f0 a0 x5 := by
      unfold x5
      refine touch.foldl ?_ ?_
      · exact touch.refl _ _
      · intro u46 y47 h48
        refine touch.step ?_ (State.setLive_touch ..) rfl
        refine touch.step ?_ (State.raise_touch ..) rfl
        exact h48
    have h49 : touch 0x3c3774c39805ed9d0300062093c80c3006dfec173afffc86100f0 a0 x8 := by
      unfold x8
      refine touch.step ?_ (touch.upd_waiting ..) rfl
      exact h45
    have h50 : touch 0x3c3774c39805ed9d0300062093c80c3006dfec173afffc86100f0 a0 x9 := by
      unfold x9
      refine touch.foldl ?_ ?_
      · exact h49
      · intro u51 y52 h53
        refine touch.step ?_ (State.discardWaiting_touch ..) rfl
        exact h53
    have hr : touch 0x3c3774c39805ed9d0300062093c80c3006dfec173afffc86100f0 a0 xr := by
      unfold xr
      refine touch.foldl ?_ ?_
      · exact h50
      · intro u55 y56 h57
        exact h57.step (State.resetSide_touch ..) rfl
    have h54 : touch 0x3c3774c39805ed9d0300062093c80c3006dfec173afffc86100f0 a0 x10 := by
      unfold x10
      refine touch.step ?_ (State.reroute_touch ..) rfl
      refine touch.step ?_ (State.republish_touch ..) rfl
      exact hr
    clear_value x5 x7 x8 x9 xr x10
    refine touch.ite ?_ ?_
    · exact touch.refl _ _
    · refine touch.step ?_ (State.fenceCutOff_touch ..) rfl
      unfold x11
      refine touch.ite ?_ ?_
      · exact h54
      · refine touch.step ?_ (State.fenceDie_touch ..) rfl
        exact h54

theorem State.fenceGo_touch : ∀ a0, touch 0x4000000000000000000020000000 a0 (State.fenceGo a0) := by
  intro a0
  have hs : ∀ (s : State) d v, touch 0x4000000000000000000020000000 s (s.wr (snapField d).addr v) := by
    intro s d v
    unfold snapField
    repeat' split
    all_goals exact (touch.TOLL_FENCE ..).mono rfl
  unfold State.fenceGo
  extract_lets x1 x2
  have h41 : touch 0x4000000000000000000020000000 a0 x1 := by
    unfold x1
    refine touch.step ?_ (touch.TOLL_FENCE ..) rfl
    exact touch.refl _ _
  have h42 : touch 0x4000000000000000000020000000 a0 x2 := by
    unfold x2
    refine touch.ite ?_ ?_
    · exact h41
    · refine touch.step ?_ (touch.upd_fenceStart ..) rfl
      exact h41
  clear_value x1 x2
  refine touch.foldl ?_ ?_
  · refine touch.step ?_ (touch.TOLL_FENCE ..) rfl
    exact h42
  · intro u43 y44 h45
    exact h45.trans (hs ..)

theorem State.readCounter_touch : ∀ a0 a1 a2 a3, touch 0x200000400000000000000000000000000000000000000 a0 (State.readCounter a0 a1 a2 a3).1 := by
  intro a0 a1 a2 a3
  unfold State.readCounter
  extract_lets x1
  refine touch.fstIte ?_ (touch.refl _ _)
  cases a1
  · exact (touch.PMON_CL_HI ..).mono rfl
  · exact (touch.PMON_DIE_HI ..).mono rfl

theorem State.interruptCp_touch : ∀ a0 a1 a2, touch 0x40 a0 (State.interruptCp a0 a1 a2) := by
  intro a0 a1 a2
  unfold State.interruptCp
  refine touch.ite ?_ ?_
  · refine touch.step ?_ (State.emit_touch ..) rfl
    exact touch.refl _ _
  · exact touch.refl _ _

theorem State.setCport_touch : ∀ a0 a1 a2, touch 0x1000000 a0 (State.setCport a0 a1 a2) := by
  intro a0 a1 a2
  unfold State.setCport
  refine touch.step ?_ (touch.upd_ports ..) rfl
  exact touch.refl _ _

theorem State.notify_touch : ∀ a0 a1, touch 0x1000040 a0 (State.notify a0 a1) := by
  intro a0 a1
  unfold State.notify
  extract_lets x41 x42
  clear_value x41 x42
  refine touch.ite ?_ ?_
  · exact touch.refl _ _
  · refine touch.step ?_ (State.interruptCp_touch ..) rfl
    refine touch.step ?_ (State.setCport_touch ..) rfl
    exact touch.refl _ _

theorem State.popQueue_touch : ∀ a0 a1, touch 0x38000000000000000000002000000000000000000000000200020 a0 (State.popQueue a0 a1).1 := by
  intro a0 a1
  unfold State.popQueue
  split
  · rename_i z41 z42 z43 z44 z45
    extract_lets x46
    have h47 : touch 0x38000000000000000000002000000000000000000000000200020 a0 x46 := by
      unfold x46
      refine touch.step ?_ (State.showUsed_touch ..) rfl
      refine touch.step ?_ (State.setQueue_touch ..) rfl
      exact touch.refl _ _
    clear_value x46
    refine touch.fstMk ?_
    refine touch.ite ?_ ?_
    · refine touch.step ?_ (State.markPlaced_touch ..) rfl
      exact h47
    · exact h47

theorem State.popRead_touch : ∀ a0 a1, touch 0x38000000000012000000082000000000000000000000001200060 a0 (State.popRead a0 a1).1 := by
  intro a0 a1
  have hw : ∀ (s : State) k v, touch 0x38000000000012000000082000000000000000000000001200060 s (s.wr (a1.word k) v) := by
    intro s k v
    cases a1
    case partition => exact (touch.EVT_PQ ..).mono rfl
    case controlPort => exact (touch.PKG_CP_EVQ ..).mono rfl
    all_goals exact (touch.EVT_LATCH ..).mono rfl
  unfold State.popRead
  extract_lets x1
  clear_value x1
  refine touch.fstIte ?_ ?_
  · refine touch.fstMk ?_
    exact touch.refl _ _
  · split
    · rename_i z41 z42 z43 z44
      refine (fun h45 => ?_) (touch.ofEq (m := 0x38000000000012000000082000000000000000000000001200060) (s := a0) z44 ?_)
      rotate_left
      · refine touch.step ?_ (State.popQueue_touch ..) rfl
        exact touch.refl _ _
      split
      · rename_i z46
        refine touch.fstMk ?_
        exact h45
      · rename_i z47 z48
        extract_lets x49 x50 x51
        have h89 : touch 0x38000000000012000000082000000000000000000000001200060 a0 x50 := by
          unfold x50
          refine touch.foldl ?_ ?_
          · exact h45
          · intro u90 y91 h92
            exact h92.trans (hw ..)
        have h93 : touch 0x38000000000012000000082000000000000000000000001200060 a0 x51 := by
          unfold x51
          split
          · rename_i z94 z95
            refine touch.step ?_ (State.notify_touch ..) rfl
            exact h89
          · rename_i z96 z97
            exact h89
        clear_value x49 x50 x51
        refine touch.fstMk ?_
        exact h93

theorem State.latchTally_touch : ∀ a0 a1 a2 a3, touch 0x3e00000f800000000000000000000000000000000000 a0 (State.latchTally a0 a1 a2 a3) := by
  intro a0 a1 a2 a3
  have h : ∀ (s : State) k v, k < 5 → touch 0x3e00000f800000000000000000000000000000000000 s (s.wr ((if a1 then DIE_TALLY_A.addr a2 else CL_TALLY_A.addr a2) + 8 * k) v) := by
    intro s k v hk
    match k with
    | 0 => cases a1 <;> [exact (touch.CL_TALLY_A ..).mono rfl; exact (touch.DIE_TALLY_A ..).mono rfl]
    | 1 => cases a1 <;> [exact (touch.CL_TALLY_B ..).mono rfl; exact (touch.DIE_TALLY_B ..).mono rfl]
    | 2 => cases a1 <;> [exact (touch.CL_TALLY_C ..).mono rfl; exact (touch.DIE_TALLY_C ..).mono rfl]
    | 3 => cases a1 <;> [exact (touch.CL_TALLY_D ..).mono rfl; exact (touch.DIE_TALLY_D ..).mono rfl]
    | 4 => cases a1 <;> [exact (touch.CL_TALLY_E ..).mono rfl; exact (touch.DIE_TALLY_E ..).mono rfl]
  unfold State.latchTally
  extract_lets
  exact ((((h _ 0 _ (by decide)).trans (h _ 1 _ (by decide))).trans (h _ 2 _ (by decide))).trans (h _ 3 _ (by decide))).trans (h _ 4 _ (by decide))

theorem State.leaveReset_touch : ∀ a0 a1, touch 0x3800000000046d8001000620100004000000000000000406000a0 a0 (State.leaveReset a0 a1) := by
  intro a0 a1
  have h1 : ∀ (s : State) v, touch 0x3800000000046d8001000620100004000000000000000406000a0 s (s.wr (crossingStatus a1).1.addr v) := by
    intro s v
    unfold crossingStatus
    split
    · exact (touch.CL_XSTAT ..).mono rfl
    · split
      · exact (touch.DIE_XSTAT ..).mono rfl
      · exact (touch.PKG_XSTAT ..).mono rfl
  have h2 : ∀ (s : State) v, touch 0x3800000000046d8001000620100004000000000000000406000a0 s (s.wr (crossingStatus a1).2.1.addr v) := by
    intro s v
    unfold crossingStatus
    split
    · exact (touch.CL_XSTAT ..).mono rfl
    · split
      · exact (touch.DIE_XSTAT ..).mono rfl
      · exact (touch.PKG_XSTAT ..).mono rfl
  unfold State.leaveReset
  extract_lets x1 x2
  refine touch.ite (touch.refl _ _) ?_
  have h3 : touch 0x3800000000046d8001000620100004000000000000000406000a0 a0 x2 := (State.setCrossing_touch ..).mono rfl
  clear_value x2
  refine touch.ite ?_ ?_
  · exact ((h3.trans (h1 ..)).trans (h2 ..)).step (State.raise_touch ..) rfl
  · exact (h3.trans (h1 ..)).trans (h2 ..)

theorem State.noneLeft_touch : ∀ a0 a1, touch 0x4000000000000000000 a0 (State.noneLeft a0 a1) := by
  intro a0 a1
  unfold State.noneLeft
  refine touch.foldl ?_ ?_
  · exact touch.refl _ _
  · intro u41 y42 h43
    refine touch.step ?_ (State.setLaneSt_touch ..) rfl
    exact h43

theorem State.setTaps_touch : ∀ a0 a1 a2 a3 a4, touch 0x4000000000000000000000000000000000000000000000 a0 (State.setTaps a0 a1 a2 a3 a4) := by
  intro a0 a1 a2 a3 a4
  unfold State.setTaps
  refine touch.step ?_ (touch.LN_TXEQ ..) rfl
  refine touch.step ?_ (touch.LN_TXEQ ..) rfl
  refine touch.step ?_ (touch.LN_TXEQ ..) rfl
  refine touch.step ?_ (touch.LN_TXEQ ..) rfl
  exact touch.refl _ _

theorem State.initialTaps_touch : ∀ a0 a1, touch 0x4000000000000000000000000000000000000000000000 a0 (State.initialTaps a0 a1) := by
  intro a0 a1
  unfold State.initialTaps
  extract_lets x41
  clear_value x41
  refine touch.step ?_ (State.setTaps_touch ..) rfl
  exact touch.refl _ _

theorem State.enterLock_touch : ∀ a0 a1 a2, touch 0x3800000780046d8000000620000004000040000000000006000a0 a0 (State.enterLock a0 a1 a2) := by
  intro a0 a1 a2
  unfold State.enterLock
  extract_lets x41 x42 x43 x44 x45
  clear_value x44
  have h46 : touch 0x3800000780046d8000000620000004000040000000000006000a0 a0 x41 := by
    unfold x41
    refine touch.step ?_ (touch.LN_STATE ..) rfl
    refine touch.step ?_ (touch.LN_STATE ..) rfl
    exact touch.refl _ _
  have h47 : touch 0x3800000780046d8000000620000004000040000000000006000a0 a0 x42 := by
    unfold x42
    refine touch.ite ?_ ?_
    · refine touch.step ?_ (touch.LN_STATE ..) rfl
      exact h46
    · exact h46
  have h48 : touch 0x3800000780046d8000000620000004000040000000000006000a0 a0 x43 := by
    unfold x43
    refine touch.ite ?_ ?_
    · exact h47
    · refine touch.step ?_ (State.initialTaps_touch ..) rfl
      exact h47
  have h49 : touch 0x3800000780046d8000000620000004000040000000000006000a0 a0 x45 := by
    unfold x45
    refine touch.step ?_ (State.setLaneSt_touch ..) rfl
    exact h48
  clear_value x41 x42 x43 x45
  refine touch.step ?_ (State.setSleep_touch ..) rfl
  exact h49

theorem State.bfLinkDown_touch : ∀ a0 a1, touch 0x3c3704c79805ed9d0000062000c80c1000c068171a7df086000f0 a0 (State.bfLinkDown a0 a1) := by
  intro a0 a1
  unfold State.bfLinkDown
  extract_lets x41 x42 x43 x44 x45 x46 x47 x48 x49 x50 x51 x52 x53
  clear_value x42 x43 x46
  have h54 : touch 0x3c3704c79805ed9d0000062000c80c1000c068171a7df086000f0 a0 x41 := by
    unfold x41
    exact touch.refl _ _
  have h55 : touch 0x3c3704c79805ed9d0000062000c80c1000c068171a7df086000f0 a0 x44 := by
    unfold x44
    refine touch.step ?_ (State.ingressDiscard_touch ..) rfl
    refine touch.step ?_ (State.allArrive_touch ..) rfl
    refine touch.step ?_ (State.loseFlits_touch ..) rfl
    exact h54
  have h56 : touch 0x3c3704c79805ed9d0000062000c80c1000c068171a7df086000f0 a0 x45 := by
    unfold x45
    refine touch.step ?_ (State.reclaimLink_touch ..) rfl
    exact h55
  have h57 : touch 0x3c3704c79805ed9d0000062000c80c1000c068171a7df086000f0 a0 x47 := by
    unfold x47
    refine touch.step ?_ (State.setLink_touch ..) rfl
    exact h56
  have h58 : touch 0x3c3704c79805ed9d0000062000c80c1000c068171a7df086000f0 a0 x48 := by
    unfold x48
    refine touch.step ?_ (touch.PORT_LINK ..) rfl
    refine touch.step ?_ (touch.PORT_LINK ..) rfl
    exact h57
  have h59 : touch 0x3c3704c79805ed9d0000062000c80c1000c068171a7df086000f0 a0 x49 := by
    unfold x49
    refine touch.step ?_ (touch.upd_bounds ..) rfl
    exact h58
  have h60 : touch 0x3c3704c79805ed9d0000062000c80c1000c068171a7df086000f0 a0 x50 := by
    unfold x50
    refine touch.step ?_ (touch.PORT_BOND ..) rfl
    refine touch.step ?_ (touch.PORT_BOND ..) rfl
    exact h59
  have h61 : touch 0x3c3704c79805ed9d0000062000c80c1000c068171a7df086000f0 a0 x51 := by
    unfold x51
    refine touch.step ?_ (State.noneLeft_touch ..) rfl
    refine touch.foldl ?_ ?_
    · exact h60
    · intro u62 y63 h64
      refine touch.step ?_ (State.enterLock_touch ..) rfl
      exact h64
  have h65 : touch 0x3c3704c79805ed9d0000062000c80c1000c068171a7df086000f0 a0 x52 := by
    unfold x52
    refine touch.step ?_ (State.takeParent_touch ..) rfl
    exact h61
  have h66 : touch 0x3c3704c79805ed9d0000062000c80c1000c068171a7df086000f0 a0 x53 := by
    unfold x53
    refine touch.step ?_ (State.setLive_touch ..) rfl
    refine touch.step ?_ (State.raise_touch ..) rfl
    exact h65
  clear_value x41 x44 x45 x47 x48 x49 x50 x51 x52 x53
  refine touch.ite ?_ ?_
  · exact h54
  · refine touch.step ?_ (State.routesMoved_touch ..) rfl
    refine touch.step ?_ (State.republish_touch ..) rfl
    exact h66

theorem State.malformedDown_touch : ∀ a0 a1, touch 0x3c3704c79805ed9d0000062000c80c1000c068171a7df086000f0 a0 (State.malformedDown a0 a1) := by
  intro a0 a1
  unfold State.malformedDown
  refine touch.step ?_ (State.bfLinkDown_touch ..) rfl
  refine touch.step ?_ (State.raise_touch ..) rfl
  refine touch.step ?_ (touch.PORT_MALFORMED ..) rfl
  exact touch.refl _ _

theorem State.takeElements_touch : ∀ a0 a1 a2, touch 0x3c3704c79805ed9d0000062000c80c1000c068171a7df086000f0 a0 (State.takeElements a0 a1 a2) := by
  intro a0 a1 a2
  induction a2 generalizing a0 with
  | nil => exact touch.refl _ _
  | cons e rest ih =>
    unfold State.takeElements
    extract_lets x7 x8 x9 x10 x11
    have h46 : touch 0x3c3704c79805ed9d0000062000c80c1000c068171a7df086000f0 a0 x10 := (State.setLink_touch ..).mono rfl
    have h47 : touch 0x3c3704c79805ed9d0000062000c80c1000c068171a7df086000f0 a0 x11 := touch.ite (touch.ite (h46.step (State.issue_touch ..) rfl) h46) (touch.refl _ _)
    clear_value x7 x8 x9 x10 x11
    refine touch.ite ?_ ?_
    · exact touch.refl _ _
    · refine touch.ite ?_ ?_
      · exact touch.refl _ _
      · refine touch.ite ?_ ?_
        · refine touch.trans ?_ (ih _)
          refine touch.step ?_ (State.setLink_touch ..) rfl
          exact touch.refl _ _
        · refine touch.ite ?_ ?_
          · refine touch.step ?_ (State.malformedDown_touch ..) rfl
            exact touch.refl _ _
          · refine touch.ite ?_ ?_
            · refine touch.step ?_ (State.malformedDown_touch ..) rfl
              exact touch.refl _ _
            · refine touch.ite ?_ ?_
              · refine touch.trans ?_ (ih _)
                refine touch.step ?_ (State.setLink_touch ..) rfl
                exact h47
              · refine touch.trans ?_ (ih _)
                refine touch.step ?_ (State.setLink_touch ..) rfl
                exact h47

theorem State.setDoe_touch : ∀ a0 a1 a2, touch 0x20000000000000000000 a0 (State.setDoe a0 a1 a2) := by
  intro a0 a1 a2
  unfold State.setDoe
  refine touch.step ?_ (touch.upd_doe ..) rfl
  exact touch.refl _ _

theorem State.doeRespond_touch : ∀ a0 a1 a2, touch 0x20000000000000000040 a0 (State.doeRespond a0 a1 a2) := by
  intro a0 a1 a2
  unfold State.doeRespond
  refine touch.step ?_ (State.emit_touch ..) rfl
  refine touch.step ?_ (State.setDoe_touch ..) rfl
  exact touch.refl _ _

theorem State.doeTake_touch : ∀ a0 a1, touch 0x60000000000000000040 a0 (State.doeTake a0 a1) := by
  intro a0 a1
  induction a1 generalizing a0 with
  | nil => exact touch.refl _ _
  | cons i rest ih =>
    unfold State.doeTake
    refine touch.ite (ih _) ?_
    split
    · refine touch.trans ?_ (ih _)
      refine touch.step ?_ (touch.upd_doeOrder ..) rfl
      exact touch.refl _ _
    · split
      · exact touch.refl _ _
      · refine touch.trans ?_ (ih _)
        refine touch.step ?_ (State.setDoe_touch ..) rfl
        refine touch.step ?_ (touch.upd_doeOrder ..) rfl
        exact touch.refl _ _
      · refine touch.trans ?_ (ih _)
        refine touch.step ?_ (State.doeRespond_touch ..) rfl
        refine touch.step ?_ (touch.upd_doeOrder ..) rfl
        exact touch.refl _ _

theorem State.takeArrival_touch : ∀ a0 a1 a2 a3, touch 0x3c3604001805ed9d0000062000800c1000006807187df086000f0 a0 (State.takeArrival a0 a1 a2 a3) := by
  intro a0 a1 a2 a3
  induction a3 generalizing a2 with
  | nil => exact touch.refl _ _
  | cons k rest ih =>
    unfold State.takeArrival
    extract_lets l t here
    have h1 : touch 0x3c3604001805ed9d0000062000800c1000006807187df086000f0 a0 t := by
      unfold t
      refine touch.step ?_ (State.arriveBf_touch ..) rfl
      refine touch.step ?_ (State.setLink_touch ..) rfl
      exact touch.refl _ _
    clear_value l t here
    exact touch.ite (ih _) h1

theorem State.countSlotSet_touch : ∀ a0 a1 a2 a3, touch 0x300000000180000000000000000000000000000000000000000 a0 (State.countSlotSet a0 a1 a2 a3) := by
  intro a0 a1 a2 a3
  unfold State.countSlotSet
  refine touch.ite ?_ ?_
  · exact touch.refl _ _
  · extract_lets x41
    clear_value x41
    refine touch.step ?_ (State.addCounter_touch ..) rfl
    refine touch.step ?_ (State.addCounter_touch ..) rfl
    exact touch.refl _ _

theorem State.countTime_touch : ∀ a0 a1, touch 0x300000000180000000000000000800000000000000000000000 a1 (State.countTime a0 a1) := by
  intro a0 a1
  unfold State.countTime
  extract_lets x1 x2 x3 x4 x5
  have h3 : touch 0x300000000180000000000000000800000000000000000000000 a1 x3 := (State.countBy_touch ..).mono rfl
  have h5 : touch 0x300000000180000000000000000800000000000000000000000 a1 x5 := touch.foldl h3 fun _ _ h => h.step (State.countSlotSet_touch ..) rfl
  clear_value x3 x5
  exact touch.ite (touch.refl _ _) (h5.step (touch.upd_slotsUsed ..) rfl)

theorem State.identityWords_touch : ∀ a0, touch 0x800070000000000000000000000000 a0 (State.identityWords a0) := by
  intro a0
  unfold State.identityWords
  extract_lets x41 x42 x43 x44
  have h45 : touch 0x800070000000000000000000000000 a0 x41 := by
    unfold x41
    refine touch.step ?_ (touch.PKG_SERIAL ..) rfl
    refine touch.step ?_ (touch.PKG_ID ..) rfl
    refine touch.step ?_ (touch.PKG_ID ..) rfl
    refine touch.step ?_ (touch.PKG_ID ..) rfl
    exact touch.refl _ _
  have h46 : touch 0x800070000000000000000000000000 a0 x42 := by
    unfold x42
    refine touch.step ?_ (touch.PKG_LEAD ..) rfl
    exact h45
  have h47 : touch 0x800070000000000000000000000000 a0 x43 := by
    unfold x43
    refine touch.step ?_ (touch.SEAL_REMAIN ..) rfl
    refine touch.step ?_ (touch.SEAL_REMAIN ..) rfl
    exact h46
  have h48 : touch 0x800070000000000000000000000000 a0 x44 := by
    unfold x44
    refine touch.step ?_ (touch.SEAL_REMAIN ..) rfl
    refine touch.step ?_ (touch.SEAL_REMAIN ..) rfl
    exact h47
  clear_value x41 x42 x43 x44
  refine touch.step ?_ (touch.SEAL_REMAIN ..) rfl
  exact h48

theorem State.semFree_touch : ∀ a0 a1, touch 0x1000000000000000000000000000000 a0 (State.semFree a0 a1) := by
  intro a0 a1
  unfold State.semFree
  refine touch.step ?_ (touch.SEM ..) rfl
  refine touch.step ?_ (touch.SEM ..) rfl
  exact touch.refl _ _

theorem State.endNvsWrite_touch : ∀ a0, touch 0x100000000000000000000000040010 a0 (State.endNvsWrite a0) := by
  intro a0
  unfold State.endNvsWrite
  split
  · rename_i z41 z42 z43
    refine touch.ite ?_ ?_
    · refine touch.step ?_ (State.tookFree_touch ..) rfl
      refine touch.step ?_ (touch.PKG_NVS_CTL ..) rfl
      refine touch.step ?_ (touch.upd_nvsOp ..) rfl
      exact touch.refl _ _
    · exact touch.refl _ _
  · rename_i z44 z45
    exact touch.refl _ _

theorem State.setSlot_touch : ∀ a0 a1 a2, touch 0x1000 a0 (State.setSlot a0 a1 a2) := by
  intro a0 a1 a2
  unfold State.setSlot
  refine touch.step ?_ (touch.upd_dir ..) rfl
  exact touch.refl _ _

theorem State.endSlotWrite_touch : ∀ a0, touch 0x80000000000000000000000021000 a0 (State.endSlotWrite a0) := by
  intro a0
  unfold State.endSlotWrite
  split
  · rename_i z41 z42 z43
    refine touch.step ?_ (touch.PKG_SBS_STATUS ..) rfl
    refine touch.step ?_ (State.setSlot_touch ..) rfl
    refine touch.step ?_ (touch.upd_slotWrite ..) rfl
    exact touch.refl _ _
  · rename_i z44 z45
    exact touch.refl _ _

theorem State.discardStaged_touch : ∀ a0, touch 0x80000000000000000000000003000 a0 (State.discardStaged a0) := by
  intro a0
  unfold State.discardStaged
  extract_lets x41 x42
  have h43 : touch 0x80000000000000000000000003000 a0 x41 := by
    unfold x41
    split
    · rename_i z44 z45
      refine touch.step ?_ (State.setSlot_touch ..) rfl
      exact touch.refl _ _
    · rename_i z46 z47
      refine touch.step ?_ (State.setSlot_touch ..) rfl
      exact touch.refl _ _
    · rename_i z48 z49 z50
      exact touch.refl _ _
  have h51 : touch 0x80000000000000000000000003000 a0 x42 := by
    unfold x42
    refine touch.step ?_ (touch.upd_staged ..) rfl
    exact h43
  clear_value x41 x42
  refine touch.ite ?_ ?_
  · refine touch.step ?_ (touch.PKG_SBS_STATUS ..) rfl
    exact h51
  · exact h51

theorem State.endStore_touch : ∀ a0, touch 0x180000040000000000000000063010 a0 (State.endStore a0) := by
  intro a0
  unfold State.endStore
  extract_lets x41
  have h42 : touch 0x180000040000000000000000063010 a0 x41 := by
    unfold x41
    refine touch.step ?_ (State.endNvsWrite_touch ..) rfl
    refine touch.step ?_ (State.endSlotWrite_touch ..) rfl
    refine touch.step ?_ (State.discardStaged_touch ..) rfl
    exact touch.refl _ _
  clear_value x41
  refine touch.step ?_ (touch.upd_bankWrite ..) rfl
  exact h42

theorem State.semLost_touch : ∀ a0 a1, touch 0x1180000040000000000000000063010 a0 (State.semLost a0 a1) := by
  intro a0 a1
  unfold State.semLost
  extract_lets x41
  have h42 : touch 0x1180000040000000000000000063010 a0 x41 := by
    unfold x41
    refine touch.step ?_ (State.semFree_touch ..) rfl
    exact touch.refl _ _
  clear_value x41
  refine touch.ite ?_ ?_
  · refine touch.step ?_ (State.endStore_touch ..) rfl
    exact h42
  · exact h42

theorem State.freeStaging_touch : ∀ a0 a1, touch 0x6000000 a0 (State.freeStaging a0 a1) := by
  intro a0 a1
  unfold State.freeStaging
  refine touch.step ?_ (touch.upd_staging_stageHolder ..) rfl
  exact touch.refl _ _

theorem State.dropHolder_touch : ∀ a0 a1, touch 0x1180000040000000000000006063010 a0 (State.dropHolder a0 a1) := by
  intro a0 a1
  unfold State.dropHolder
  extract_lets x41
  have h42 : touch 0x1180000040000000000000006063010 a0 x41 := by
    unfold x41
    refine touch.foldl ?_ ?_
    · exact touch.refl _ _
    · intro u43 y44 h45
      refine touch.ite ?_ ?_
      · refine touch.step ?_ (State.semLost_touch ..) rfl
        exact h45
      · exact h45
  clear_value x41
  refine touch.foldl ?_ ?_
  · exact h42
  · intro u46 y47 h48
    refine touch.ite ?_ ?_
    · refine touch.step ?_ (State.freeStaging_touch ..) rfl
      exact h48
    · exact h48

theorem State.dropUnrouted_touch : ∀ a0, touch 0x1180000040000000000000006063010 a0 (State.dropUnrouted a0) := by
  intro a0
  unfold State.dropUnrouted
  refine touch.foldl ?_ ?_
  · exact touch.refl _ _
  · intro u41 y42 h43
    refine touch.step ?_ (State.dropHolder_touch ..) rfl
    exact h43

theorem endStep_touch : ∀ a0 a1, touch 0x300000000180000000001980070840000000000000006063013 a1 (endStep a0 a1) := by
  intro a0 a1
  unfold endStep
  have h : touch 0x300000000180000000001980070840000000000000006063013 a1 (State.countTime a0 a1.dropUnrouted) := ((State.dropUnrouted_touch ..).mono rfl).step (State.countTime_touch ..) rfl
  exact (h.trans ((touch.upd_pending_chip ..).mono rfl)).step (State.identityWords_touch ..) rfl

theorem State.doeServe_touch : ∀ a0, touch 0x60000000000000000040 a0 (State.doeServe a0) := by
  intro a0
  unfold State.doeServe
  refine touch.step ?_ (State.doeTake_touch ..) rfl
  exact touch.refl _ _

theorem State.spdmAnswer_touch : ∀ a0 a1 a2 a3, touch 0x60000000000000000040 a0 (State.spdmAnswer a0 a1 a2 a3) := by
  intro a0 a1 a2 a3
  unfold State.spdmAnswer
  extract_lets x41
  have h42 : touch 0x60000000000000000040 a0 x41 := by
    unfold x41
    refine touch.step ?_ (State.setDoe_touch ..) rfl
    exact touch.refl _ _
  clear_value x41
  refine touch.step ?_ (State.doeServe_touch ..) rfl
  refine touch.step ?_ (State.doeRespond_touch ..) rfl
  refine touch.step ?_ (touch.upd_doeOrder ..) rfl
  exact h42

theorem State.spdmServe_touch : ∀ a0 a1 a2 a3 a4 a5 (m : Nat), 0x60000000000000000040 ||| m = m → (∀ s x, touch m s (a5 s x)) →
    touch m a0 (State.spdmServe a0 a1 a2 a3 a4 a5) := by
  intro a0 a1 a2 a3 a4 a5 m hm ha
  unfold State.spdmServe
  extract_lets x1 x2
  clear_value x1 x2
  refine touch.ite ?_ ?_
  · exact touch.refl _ _
  · refine touch.ite ?_ ?_
    · refine touch.trans ?_ (((State.spdmAnswer_touch ..).mono (m := 0x60000000000000000040) rfl).mono hm)
      exact touch.refl _ _
    · refine touch.ite ?_ ?_
      · refine touch.trans ?_ (((State.spdmAnswer_touch ..).mono (m := 0x60000000000000000040) rfl).mono hm)
        exact touch.refl _ _
      · refine touch.ite ?_ ?_
        · refine touch.trans ?_ (((State.spdmAnswer_touch ..).mono (m := 0x60000000000000000040) rfl).mono hm)
          exact touch.refl _ _
        · exact ha ..

theorem State.writeWord_touch : ∀ a0 a1 a2 a3 a4, touch 0x10000000000000000000000040000000000000 a0 (State.writeWord a0 a1 a2 a3 a4) := by
  intro a0 a1 a2 a3 a4
  unfold State.writeWord
  extract_lets x41
  clear_value x41
  refine touch.ite ?_ ?_
  · refine touch.step ?_ (State.injectUsed_touch ..) rfl
    refine touch.step ?_ (touch.upd_ecc ..) rfl
    exact touch.refl _ _
  · refine touch.step ?_ (touch.upd_ecc ..) rfl
    exact touch.refl _ _

theorem State.putEngine_touch : ∀ a0 a1 a2 a3, touch 0x10000000000000000000000048000000000000 a0 (State.putEngine a0 a1 a2 a3) := by
  intro a0 a1 a2 a3
  unfold State.putEngine
  extract_lets x41
  have h42 : touch 0x10000000000000000000000048000000000000 a0 x41 := by
    unfold x41
    refine touch.step ?_ (touch.upd_dataMem ..) rfl
    exact touch.refl _ _
  clear_value x41
  refine touch.ite ?_ ?_
  · exact h42
  · refine touch.foldl ?_ ?_
    · exact h42
    · intro u43 y44 h45
      refine touch.step ?_ (State.writeWord_touch ..) rfl
      exact h45

theorem State.nextItem_touch : ∀ a0 a1, touch 0x1000000000000000000000004a000000000000 a0 (State.nextItem a0 a1) := by
  intro a0 a1
  unfold State.nextItem
  extract_lets x41
  clear_value x41
  split
  · rename_i z42 z43
    refine touch.step ?_ (State.setEngine_touch ..) rfl
    exact touch.refl _ _
  · rename_i z44 z45 z46 z47 z48 z49
    refine touch.step ?_ (State.setEngine_touch ..) rfl
    refine touch.step ?_ (State.putEngine_touch ..) rfl
    exact touch.refl _ _

theorem State.abandon_touch : ∀ a0 a1 a2, touch 0x3800000000046d81000006200000040000000004a0000006000a0 a0 (State.abandon a0 a1 a2) := by
  intro a0 a1 a2
  unfold State.abandon
  refine touch.step ?_ (State.nextItem_touch ..) rfl
  refine touch.step ?_ (State.raise_touch ..) rfl
  exact touch.refl _ _

theorem State.abandonNvs_touch : ∀ a0, touch 0x100000000000000000000000040010 a0 (State.abandonNvs a0) := by
  intro a0
  unfold State.abandonNvs
  split
  · rename_i z41 z42 z43
    refine touch.step ?_ (State.tookFree_touch ..) rfl
    refine touch.step ?_ (touch.PKG_NVS_CTL ..) rfl
    refine touch.step ?_ (touch.upd_nvsOp ..) rfl
    exact touch.refl _ _
  · rename_i z44 z45
    exact touch.refl _ _

theorem State.markBank_touch : ∀ a0 a1 a2, touch 0x1000 a0 (State.markBank a0 a1 a2) := by
  intro a0 a1 a2
  unfold State.markBank
  refine touch.step ?_ (touch.upd_dir ..) rfl
  exact touch.refl _ _

theorem State.abandonBank_touch : ∀ a0, touch 0x40000000000000000001000 a0 (State.abandonBank a0) := by
  intro a0
  unfold State.abandonBank
  split
  · rename_i z41 z42 z43
    refine touch.step ?_ (State.markBank_touch ..) rfl
    refine touch.step ?_ (touch.upd_bankWrite ..) rfl
    exact touch.refl _ _
  · rename_i z44 z45
    exact touch.refl _ _

theorem State.releaseCredits_touch : ∀ a0 a1, touch 0x10000000000000000000000010000100000000 a0 (State.releaseCredits a0 a1) := by
  intro a0 a1
  unfold State.releaseCredits
  refine touch.foldl ?_ ?_
  · exact touch.refl _ _
  · intro u41 y42 h43
    extract_lets x44
    clear_value x44
    refine touch.ite ?_ ?_
    · exact h43
    · refine touch.step ?_ (State.creditsBack_touch ..) rfl
      refine touch.step ?_ (State.setLink_touch ..) rfl
      exact h43

theorem State.onlyHeld_touch : ∀ a0, touch 0x200000000 a0 (State.onlyHeld a0) := by
  intro a0
  unfold State.onlyHeld
  refine touch.step ?_ (touch.upd_ingress ..) rfl
  exact touch.refl _ _

theorem State.backTo_touch : ∀ a0 a1, touch 0x3800000000046d8000000620000804000000000000000806000a0 a0 (State.backTo a0 a1) := by
  intro a0 a1
  unfold State.backTo
  refine touch.ite ?_ ?_
  · exact touch.refl _ _
  · refine touch.step ?_ (State.enterMode_touch ..) rfl
    exact touch.refl _ _

theorem State.abandonAll_touch : ∀ a0, touch 0x3c3774c39805ed9d0100062593c80c7006dfec173afffc86734f0 a0 (State.abandonAll a0) := by
  intro a0
  unfold State.abandonAll
  extract_lets x41 x42
  have h43 : touch 0x3c3774c39805ed9d0100062593c80c7006dfec173afffc86734f0 a0 x41 := by
    unfold x41
    refine touch.step ?_ (touch.upd_sealRequests ..) rfl
    exact touch.refl _ _
  have h44 : touch 0x3c3774c39805ed9d0100062593c80c7006dfec173afffc86734f0 a0 x42 := by
    unfold x42
    refine touch.step ?_ (State.abandonNvs_touch ..) rfl
    refine touch.step ?_ (State.abandonBank_touch ..) rfl
    refine touch.step ?_ (State.endSlotWrite_touch ..) rfl
    refine touch.step ?_ (State.discardStaged_touch ..) rfl
    refine touch.step ?_ (touch.SEAL_CTL ..) rfl
    exact h43
  clear_value x41 x42
  split
  · rename_i z45 z46
    exact h44
  · rename_i z47 z48 z49
    extract_lets x50 x51
    have h52 : touch 0x3c3774c39805ed9d0100062593c80c7006dfec173afffc86734f0 a0 x50 := by
      unfold x50
      refine touch.step ?_ (State.releaseCredits_touch ..) rfl
      refine touch.step ?_ (touch.upd_reload ..) rfl
      exact h44
    have h53 : touch 0x3c3774c39805ed9d0100062593c80c7006dfec173afffc86734f0 a0 x51 := by
      unfold x51
      refine touch.step ?_ (touch.PKG_SBS_STATUS ..) rfl
      exact h52
    clear_value x50 x51
    refine touch.ite ?_ ?_
    · refine touch.step ?_ (State.afterFence_touch ..) rfl
      refine touch.step ?_ (State.fenceRegion_touch ..) rfl
      exact h53
    · refine touch.step ?_ (State.backTo_touch ..) rfl
      exact h53

theorem State.accept_touch : ∀ a0 a1 a2 a3 a4 a5, touch 0x10000000000000000000000000000b00000000 a0 (State.accept a0 a1 a2 a3 a4 a5) := by
  intro a0 a1 a2 a3 a4 a5
  unfold State.accept
  extract_lets x41
  have h42 : touch 0x10000000000000000000000000000b00000000 a0 x41 := by
    unfold x41
    split
    · rename_i z43 z44
      refine touch.step ?_ (touch.upd_outstanding ..) rfl
      exact touch.refl _ _
    · rename_i z45
      exact touch.refl _ _
  clear_value x41
  refine touch.ite ?_ ?_
  · exact h42
  · refine touch.step ?_ (State.enqueue_touch ..) rfl
    exact h42

theorem State.doeAborted_touch : ∀ a0 a1, touch 0x60000000000000000040 a0 (State.doeAborted a0 a1) := by
  intro a0 a1
  unfold State.doeAborted
  extract_lets x41 x42
  clear_value x41
  have h43 : touch 0x60000000000000000040 a0 x42 := by
    unfold x42
    refine touch.step ?_ (State.setDoe_touch ..) rfl
    exact touch.refl _ _
  clear_value x42
  refine touch.step ?_ (State.doeServe_touch ..) rfl
  refine touch.step ?_ (touch.upd_doeOrder ..) rfl
  exact h43

theorem State.doeWritten_touch : ∀ a0 a1 a2, touch 0x60000000000000000040 a0 (State.doeWritten a0 a1 a2) := by
  intro a0 a1 a2
  unfold State.doeWritten
  extract_lets x41 x42 x43
  clear_value x41
  have h44 : touch 0x60000000000000000040 a0 x42 := by
    unfold x42
    refine touch.step ?_ (State.setDoe_touch ..) rfl
    exact touch.refl _ _
  have h45 : touch 0x60000000000000000040 a0 x43 := by
    unfold x43
    refine touch.step ?_ (State.setDoe_touch ..) rfl
    exact touch.refl _ _
  clear_value x42 x43
  refine touch.ite ?_ ?_
  · exact touch.refl _ _
  · refine touch.ite ?_ ?_
    · refine touch.step ?_ (State.doeServe_touch ..) rfl
      refine touch.step ?_ (touch.upd_doeOrder ..) rfl
      exact h44
    · refine touch.step ?_ (State.doeServe_touch ..) rfl
      refine touch.step ?_ (touch.upd_doeOrder ..) rfl
      exact h45

theorem State.writeDoe_touch : ∀ a0 a1 a2 a3, touch 0x60000000000000000040 a0 (State.writeDoe a0 a1 a2 a3) := by
  intro a0 a1 a2 a3
  unfold State.writeDoe
  extract_lets x41
  clear_value x41
  refine touch.ite ?_ ?_
  · refine touch.ite ?_ ?_
    · refine touch.step ?_ (State.doeAborted_touch ..) rfl
      exact touch.refl _ _
    · refine touch.ite ?_ ?_
      · refine touch.step ?_ (State.doeWritten_touch ..) rfl
        exact touch.refl _ _
      · exact touch.refl _ _
  · refine touch.ite ?_ ?_
    · refine touch.ite ?_ ?_
      · exact touch.refl _ _
      · refine touch.step ?_ (State.setDoe_touch ..) rfl
        exact touch.refl _ _
    · refine touch.ite ?_ ?_
      · refine touch.step ?_ (State.setDoe_touch ..) rfl
        exact touch.refl _ _
      · exact touch.refl _ _

theorem State.modeRefused_touch : ∀ a0, touch 0x80000000000000000000000000 a0 (State.modeRefused a0) := by
  intro a0
  unfold State.modeRefused
  refine touch.step ?_ (touch.PKG_MODE ..) rfl
  exact touch.refl _ _

theorem State.drain_touch : ∀ a0 a1, touch 0x3800000000046d8000000620000804000000000000000806000a0 a0 (State.drain a0 a1) := by
  intro a0 a1
  unfold State.drain
  refine touch.ite ?_ ?_
  · extract_lets x41 x42
    clear_value x41
    have h43 : touch 0x3800000000046d8000000620000804000000000000000806000a0 a0 x42 := by
      unfold x42
      refine touch.step ?_ (touch.upd_modes ..) rfl
      exact touch.refl _ _
    clear_value x42
    refine touch.step ?_ (State.enterMode_touch ..) rfl
    refine touch.step ?_ (touch.PKG_MODE ..) rfl
    exact h43
  · refine touch.step ?_ (State.modeRefused_touch ..) rfl
    exact touch.refl _ _

theorem State.refuseLong_touch : ∀ a0 a1 a2, touch 0x3c3400000005ed810000062000800400000068010074f086000e0 a0 (State.refuseLong a0 a1 a2) := by
  intro a0 a1 a2
  unfold State.refuseLong
  refine touch.ite ?_ ?_
  · refine touch.step ?_ (State.answerQueued_touch ..) rfl
    exact touch.refl _ _
  · extract_lets x41
    have h42 : touch 0x3c3400000005ed810000062000800400000068010074f086000e0 a0 x41 := by
      unfold x41
      refine touch.step ?_ (State.dequeue_touch ..) rfl
      exact touch.refl _ _
    clear_value x41
    refine touch.ite ?_ ?_
    · refine touch.step ?_ (State.logAer_touch ..) rfl
      exact h42
    · exact h42

theorem State.hold_touch : ∀ a0 a1 a2 a3, touch 0x383600000805ed8000000620000004000000000000002006000a0 a0 (State.hold a0 a1 a2 a3) := by
  intro a0 a1 a2 a3
  unfold State.hold
  extract_lets x41 x42 x43 x44 x45 x46
  clear_value x41
  have h47 : touch 0x383600000805ed8000000620000004000000000000002006000a0 a0 x42 := by
    unfold x42
    refine touch.step ?_ (State.setIngress_touch ..) rfl
    exact touch.refl _ _
  have h48 : touch 0x383600000805ed8000000620000004000000000000002006000a0 a0 x43 := by
    unfold x43
    refine touch.ite ?_ ?_
    · refine touch.step ?_ (touch.PORT_SLUICE ..) rfl
      exact h47
    · exact h47
  have h49 : touch 0x383600000805ed8000000620000004000000000000002006000a0 a0 x44 := by
    unfold x44
    refine touch.step ?_ (State.raise_touch ..) rfl
    exact h48
  have h50 : touch 0x383600000805ed8000000620000004000000000000002006000a0 a0 x45 := by
    unfold x45
    refine touch.ite ?_ ?_
    · refine touch.ite ?_ ?_
      · exact h49
      · refine touch.step ?_ (touch.WIN_TRACK ..) rfl
        exact h49
    · exact h48
  have h51 : touch 0x383600000805ed8000000620000004000000000000002006000a0 a0 x46 := by
    unfold x46
    refine touch.ite ?_ ?_
    · refine touch.step ?_ (State.countDie_touch ..) rfl
      exact h50
    · exact h50
  clear_value x42 x43 x44 x45 x46
  refine touch.ite ?_ ?_
  · exact touch.refl _ _
  · refine touch.ite ?_ ?_
    · exact h51
    · refine touch.step ?_ (State.showHold_touch ..) rfl
      exact h51

theorem State.readItem_touch : ∀ a0 a1 a2 a3, touch 0x3800000000046d8000000620000004000000000000000006000a0 a0 (State.readItem a0 a1 a2 a3) := by
  intro a0 a1 a2 a3
  unfold State.readItem
  refine touch.ite ?_ ?_
  · exact touch.refl _ _
  · refine touch.step ?_ (State.raiseMask_touch ..) rfl
    exact touch.refl _ _

theorem State.readQueued_touch : ∀ a0 a1 a2 a3, touch 0x3c3400001805ed9d0000062000800c10000068070074f086000e0 a0 (State.readQueued a0 a1 a2 a3) := by
  intro a0 a1 a2 a3
  unfold State.readQueued
  extract_lets x41 x42
  clear_value x41
  have h43 : touch 0x3c3400001805ed9d0000062000800c10000068070074f086000e0 a0 x42 := by
    unfold x42
    refine touch.step ?_ (State.readItem_touch ..) rfl
    exact touch.refl _ _
  clear_value x42
  refine touch.ite ?_ ?_
  · refine touch.step ?_ (State.takeIn_touch ..) rfl
    exact touch.refl _ _
  · refine touch.ite ?_ ?_
    · refine touch.step ?_ (State.answerQueued_touch ..) rfl
      exact h43
    · refine touch.ite ?_ ?_
      · refine touch.step ?_ (State.takeIn_touch ..) rfl
        exact h43
      · refine touch.step ?_ (State.takeIn_touch ..) rfl
        exact h43

theorem State.gate_touch : ∀ a0 a1 a2, touch 0x3c3600001805ed9d0000062000800c10000068070074f086000e0 a0 (State.gate a0 a1 a2) := by
  intro a0 a1 a2
  unfold State.gate
  split
  · rename_i z41 z42
    exact touch.refl _ _
  · rename_i z43 z44 z45 z46
    refine touch.ite ?_ ?_
    · exact touch.refl _ _
    · refine touch.ite ?_ ?_
      · refine touch.step ?_ (State.refuseLong_touch ..) rfl
        exact touch.refl _ _
      · split
        · rename_i z47 z48 z49
          extract_lets x50 x51
          clear_value x50
          have h52 : touch 0x3c3600001805ed9d0000062000800c10000068070074f086000e0 a0 x51 := by
            unfold x51
            split
            · rename_i z53 z54 z55 z56
              refine touch.step ?_ (State.noteRoute_touch ..) rfl
              exact touch.refl _ _
            · rename_i z57 z58
              exact touch.refl _ _
          clear_value x51
          refine touch.step ?_ (State.answerQueued_touch ..) rfl
          exact h52
        · rename_i z59 z60
          split
          · rename_i z61 z62 z63
            extract_lets x64 x65
            clear_value x64
            have h66 : touch 0x3c3600001805ed9d0000062000800c10000068070074f086000e0 a0 x65 := by
              unfold x65
              refine touch.step ?_ (State.reportFailures_touch ..) rfl
              exact touch.refl _ _
            clear_value x65
            refine touch.step ?_ (State.endWith_touch ..) rfl
            refine touch.step ?_ (State.dequeue_touch ..) rfl
            refine touch.ite ?_ ?_
            · refine touch.step ?_ (State.endSought_touch ..) rfl
              exact h66
            · exact h66
          · rename_i z67 z68
            exact touch.refl _ _
        · rename_i z69 z70 z71
          refine touch.ite ?_ ?_
          · refine touch.step ?_ (State.raise_touch ..) rfl
            exact touch.refl _ _
          · refine touch.step ?_ (State.hold_touch ..) rfl
            exact touch.refl _ _
        · rename_i z72 z73
          refine touch.step ?_ (State.readQueued_touch ..) rfl
          exact touch.refl _ _

theorem State.evaluateHeld_touch : ∀ a0, touch 0x3c3600001805ed9d0000062000800c10000068070074f086000e0 a0 (State.evaluateHeld a0) := by
  intro a0
  unfold State.evaluateHeld
  refine touch.foldl ?_ ?_
  · exact touch.refl _ _
  · intro u41 y42 h43
    refine touch.step ?_ (State.gate_touch ..) rfl
    exact h43

theorem State.resume_touch : ∀ a0 a1, touch 0x3c3600001805ed9d0000062000880c10000068070074f886000e0 a0 (State.resume a0 a1) := by
  intro a0 a1
  unfold State.resume
  refine touch.ite ?_ ?_
  · refine touch.step ?_ (State.evaluateHeld_touch ..) rfl
    refine touch.step ?_ (State.backTo_touch ..) rfl
    refine touch.step ?_ (touch.PKG_MODE ..) rfl
    exact touch.refl _ _
  · refine touch.step ?_ (State.modeRefused_touch ..) rfl
    exact touch.refl _ _

theorem State.extendMr_touch : ∀ a0 a1 a2, touch 0x100000 a0 (State.extendMr a0 a1 a2) := by
  intro a0 a1 a2
  unfold State.extendMr
  refine touch.step ?_ (touch.upd_mr ..) rfl
  exact touch.refl _ _

theorem State.maint_touch : ∀ a0 a1, touch 0x3800000000046d8000000620000804000000000000000807000a0 a0 (State.maint a0 a1) := by
  intro a0 a1
  unfold State.maint
  split
  · rename_i z41 z42
    refine touch.ite ?_ ?_
    · extract_lets x43 x44 x45
      clear_value x44
      have h46 : touch 0x3800000000046d8000000620000804000000000000000807000a0 a0 x43 := by
        unfold x43
        refine touch.step ?_ (State.extendMr_touch ..) rfl
        exact touch.refl _ _
      have h47 : touch 0x3800000000046d8000000620000804000000000000000807000a0 a0 x45 := by
        unfold x45
        refine touch.step ?_ (touch.upd_modes ..) rfl
        exact h46
      clear_value x43 x45
      refine touch.step ?_ (State.enterMode_touch ..) rfl
      refine touch.step ?_ (touch.PKG_CP_STATE ..) rfl
      exact h47
    · refine touch.step ?_ (State.modeRefused_touch ..) rfl
      exact touch.refl _ _
  · rename_i z48 z49
    refine touch.step ?_ (State.modeRefused_touch ..) rfl
    exact touch.refl _ _

theorem State.askReset_touch : ∀ a0 a1 a2, touch 0x80000000000000000080000000 a0 (State.askReset a0 a1 a2) := by
  intro a0 a1 a2
  unfold State.askReset
  refine touch.ite ?_ ?_
  · refine touch.step ?_ (State.modeRefused_touch ..) rfl
    exact touch.refl _ _
  · refine touch.ite ?_ ?_
    · exact touch.refl _ _
    · extract_lets x41 x42
      clear_value x41 x42
      refine touch.step ?_ (touch.upd_modes ..) rfl
      exact touch.refl _ _

theorem State.wrModeCtl_touch : ∀ a0 a1 a2, touch 0x3c3600001805ed9d0000062000880c10000068070074f887000e0 a0 (State.wrModeCtl a0 a1 a2) := by
  intro a0 a1 a2
  unfold State.wrModeCtl
  extract_lets x41
  clear_value x41
  refine touch.ite ?_ ?_
  · exact touch.refl _ _
  · refine touch.ite ?_ ?_
    · refine touch.step ?_ (State.drain_touch ..) rfl
      exact touch.refl _ _
    · refine touch.ite ?_ ?_
      · refine touch.step ?_ (State.resume_touch ..) rfl
        exact touch.refl _ _
      · refine touch.ite ?_ ?_
        · refine touch.step ?_ (State.maint_touch ..) rfl
          exact touch.refl _ _
        · refine touch.ite ?_ ?_
          · refine touch.step ?_ (State.askReset_touch ..) rfl
            exact touch.refl _ _
          · refine touch.step ?_ (State.modeRefused_touch ..) rfl
            exact touch.refl _ _

theorem State.writeMode_touch : ∀ a0 a1 a2, touch 0x3c3600001805ed9d0000062000880c10000068070074f887000e0 a0 (State.writeMode a0 a1 a2) := by
  intro a0 a1 a2
  unfold State.writeMode
  refine touch.ite ?_ ?_
  · exact touch.refl _ _
  · refine touch.step ?_ (State.wrModeCtl_touch ..) rfl
    exact touch.refl _ _

theorem State.releaseHalf_touch : ∀ a0 a1, touch 0x40000000 a0 (State.releaseHalf a0 a1) := by
  intro a0 a1
  unfold State.releaseHalf
  refine touch.step ?_ (State.setCrossing_touch ..) rfl
  exact touch.refl _ _

theorem State.startEngine_touch : ∀ a0 a1, touch 0x1000000000000000000000004a000000000000 a0 (State.startEngine a0 a1) := by
  intro a0 a1
  unfold State.startEngine
  refine touch.ite ?_ ?_
  · exact touch.refl _ _
  · refine touch.step ?_ (State.nextItem_touch ..) rfl
    refine touch.step ?_ (State.setEngine_touch ..) rfl
    exact touch.refl _ _

theorem State.releaseCluster_touch : ∀ a0 a1, touch 0x3800000000046d81000006200100040000000004a0000406000a0 a0 (State.releaseCluster a0 a1) := by
  intro a0 a1
  unfold State.releaseCluster
  refine touch.ite ?_ ?_
  · exact touch.refl _ _
  · extract_lets x41 x42 x43
    have h44 : touch 0x3800000000046d81000006200100040000000004a0000406000a0 a0 x41 := by
      unfold x41
      refine touch.step ?_ (State.setLive_touch ..) rfl
      refine touch.step ?_ (touch.PKG_FENCE_CL ..) rfl
      exact touch.refl _ _
    have h45 : touch 0x3800000000046d81000006200100040000000004a0000406000a0 a0 x42 := by
      unfold x42
      refine touch.foldl ?_ ?_
      · exact h44
      · intro u46 y47 h48
        refine touch.step ?_ (State.releaseHalf_touch ..) rfl
        exact h48
    have h49 : touch 0x3800000000046d81000006200100040000000004a0000406000a0 a0 x43 := by
      unfold x43
      refine touch.foldl ?_ ?_
      · exact h45
      · intro u50 y51 h52
        refine touch.step ?_ (State.startEngine_touch ..) rfl
        exact h52
    clear_value x41 x42 x43
    refine touch.step ?_ (State.raise_touch ..) rfl
    exact h49

theorem State.wrFenceCl_touch : ∀ a0 a1, touch 0x3800000000046d81000006200100040000000004a0000406000a0 a0 (State.wrFenceCl a0 a1) := by
  intro a0 a1
  unfold State.wrFenceCl
  refine touch.foldl ?_ ?_
  · exact touch.refl _ _
  · intro u41 y42 h43
    refine touch.foldl ?_ ?_
    · exact h43
    · intro u44 y45 h46
      refine touch.step ?_ (State.releaseCluster_touch ..) rfl
      exact h46

theorem State.fenceClusters_touch : ∀ a0 a1, touch 0x3c3774c39805ed9d0100062011c80c3006dfec173afffc86000f0 a0 (State.fenceClusters a0 a1) := by
  intro a0 a1
  unfold State.fenceClusters
  extract_lets x41
  have h42 : touch 0x3c3774c39805ed9d0100062011c80c3006dfec173afffc86000f0 a0 x41 := by
    unfold x41
    refine touch.foldl ?_ ?_
    · exact touch.refl _ _
    · intro u43 y44 h45
      refine touch.step ?_ (State.resetCluster_touch ..) rfl
      exact h45
  clear_value x41
  refine touch.step ?_ (State.routesMoved_touch ..) rfl
  refine touch.step ?_ (State.republish_touch ..) rfl
  exact h42

theorem State.wrScopeReset_touch : ∀ a0 a1 a2, touch 0x3c3774c39805ed9d0100062031c80c3006dfec173afffc86000f0 a0 (State.wrScopeReset a0 a1 a2) := by
  intro a0 a1 a2
  unfold State.wrScopeReset
  extract_lets x41 x42
  clear_value x41 x42
  refine touch.ite ?_ ?_
  · exact touch.refl _ _
  · split
    · rename_i z43 z44 z45 z46
      refine touch.step ?_ (touch.PKG_SCOPE_RESET ..) rfl
      refine touch.step ?_ (State.fenceClusters_touch ..) rfl
      exact touch.refl _ _
    · rename_i z47 z48 z49 z50
      refine touch.step ?_ (touch.PKG_SCOPE_RESET ..) rfl
      exact touch.refl _ _

theorem State.sbsRefused_touch : ∀ a0, touch 0x80000000000000000000000000000 a0 (State.sbsRefused a0) := by
  intro a0
  unfold State.sbsRefused
  refine touch.step ?_ (touch.PKG_SBS_STATUS ..) rfl
  exact touch.refl _ _

theorem State.sbsLoad_touch : ∀ a0, touch 0x8000000000000000000000000e000 a0 (State.sbsLoad a0) := by
  intro a0
  unfold State.sbsLoad
  refine touch.ite ?_ ?_
  · refine touch.step ?_ (State.sbsRefused_touch ..) rfl
    exact touch.refl _ _
  · refine touch.step ?_ (touch.PKG_SBS_STATUS ..) rfl
    refine touch.step ?_ (touch.upd_staged_loading_loadOrder ..) rfl
    exact touch.refl _ _

theorem State.imageRefused_touch : ∀ a0 a1, touch 0x3800000000046d8000000620800004000000000000000006000a0 a0 (State.imageRefused a0 a1) := by
  intro a0 a1
  unfold State.imageRefused
  refine touch.step ?_ (State.raise_touch ..) rfl
  refine touch.step ?_ (touch.PKG_SBS_STATUS ..) rfl
  refine touch.step ?_ (touch.PKG_SBS_STATUS ..) rfl
  refine touch.step ?_ (touch.PKG_SBS_STATUS ..) rfl
  exact touch.refl _ _

theorem State.sbsToSlot_touch : ∀ a0 a1, touch 0x3800000000046d8000000620800004000000000000000006230a0 a0 (State.sbsToSlot a0 a1) := by
  intro a0 a1
  unfold State.sbsToSlot
  extract_lets x41 x42 x43
  clear_value x41 x42
  have h44 : touch 0x3800000000046d8000000620800004000000000000000006230a0 a0 x43 := by
    unfold x43
    refine touch.step ?_ (State.setSlot_touch ..) rfl
    exact touch.refl _ _
  clear_value x43
  refine touch.ite ?_ ?_
  · refine touch.step ?_ (State.sbsRefused_touch ..) rfl
    exact touch.refl _ _
  · refine touch.ite ?_ ?_
    · refine touch.step ?_ (State.imageRefused_touch ..) rfl
      exact touch.refl _ _
    · refine touch.step ?_ (touch.PKG_SBS_STATUS ..) rfl
      refine touch.step ?_ (touch.upd_staged_slotWrite ..) rfl
      exact h44

theorem State.ungateRegion_touch : ∀ a0 a1, touch 0x200000040000000 a0 (State.ungateRegion a0 a1) := by
  intro a0 a1
  unfold State.ungateRegion
  refine touch.foldl ?_ ?_
  · exact touch.refl _ _
  · intro u41 y42 h43
    refine touch.ite ?_ ?_
    · refine touch.foldl ?_ ?_
      · refine touch.step ?_ (touch.upd_gated ..) rfl
        exact h43
      · intro u44 y45 h46
        refine touch.step ?_ (State.releaseHalf_touch ..) rfl
        exact h46
    · exact h43

theorem State.sbsReload_touch : ∀ a0 a1 a2, touch 0x3800000000046d8000000620800804000000002000000c06120a0 a0 (State.sbsReload a0 a1 a2) := by
  intro a0 a1 a2
  unfold State.sbsReload
  refine touch.ite ?_ ?_
  · refine touch.step ?_ (State.sbsRefused_touch ..) rfl
    refine touch.step ?_ (touch.PKG_MODE ..) rfl
    exact touch.refl _ _
  · extract_lets x41 x42 x43 x44 x45 x46 x47
    clear_value x41 x43 x44 x45
    have h48 : touch 0x3800000000046d8000000620800804000000002000000c06120a0 a0 x46 := by
      unfold x46
      refine touch.step ?_ (touch.upd_staged_reload_modes ..) rfl
      exact touch.refl _ _
    have h49 : touch 0x3800000000046d8000000620800804000000002000000c06120a0 a0 x47 := by
      unfold x47
      refine touch.ite ?_ ?_
      · refine touch.step ?_ (State.ungateRegion_touch ..) rfl
        exact h48
      · exact h48
    clear_value x42 x46 x47
    refine touch.ite ?_ ?_
    · refine touch.step ?_ (State.sbsRefused_touch ..) rfl
      exact touch.refl _ _
    · refine touch.step ?_ (State.enterMode_touch ..) rfl
      refine touch.step ?_ (touch.PKG_SBS_STATUS ..) rfl
      refine touch.step ?_ (touch.PKG_SBS_STATUS ..) rfl
      exact h49

theorem State.wrSbsCtl_touch : ∀ a0 a1 a2, touch 0x3800000000046d8000000620800804000000002000000c063f0a0 a0 (State.wrSbsCtl a0 a1 a2) := by
  intro a0 a1 a2
  unfold State.wrSbsCtl
  extract_lets x41 x42 x43
  clear_value x41 x43
  have h44 : touch 0x3800000000046d8000000620800804000000002000000c063f0a0 a0 x42 := by
    unfold x42
    refine touch.step ?_ (touch.upd_dir ..) rfl
    exact touch.refl _ _
  clear_value x42
  refine touch.ite ?_ ?_
  · exact h44
  · refine touch.ite ?_ ?_
    · refine touch.step ?_ (State.sbsRefused_touch ..) rfl
      exact h44
    · refine touch.ite ?_ ?_
      · refine touch.step ?_ (State.sbsLoad_touch ..) rfl
        exact h44
      · refine touch.ite ?_ ?_
        · refine touch.step ?_ (State.sbsToSlot_touch ..) rfl
          exact h44
        · refine touch.ite ?_ ?_
          · refine touch.step ?_ (State.sbsReload_touch ..) rfl
            exact h44
          · refine touch.step ?_ (State.discardStaged_touch ..) rfl
            exact h44

theorem State.wrNvsCtl_touch : ∀ a0 a1 a2, touch 0x180000040000000000000000040000 a0 (State.wrNvsCtl a0 a1 a2) := by
  intro a0 a1 a2
  unfold State.wrNvsCtl
  extract_lets x41 x42 x43
  clear_value x41 x42 x43
  refine touch.ite ?_ ?_
  · exact touch.refl _ _
  · split
    · rename_i z44 z45 z46 z47
      refine touch.ite ?_ ?_
      · refine touch.step ?_ (touch.PKG_NVS_CTL ..) rfl
        refine touch.ite ?_ ?_
        · refine touch.step ?_ (State.sbsRefused_touch ..) rfl
          exact touch.refl _ _
        · exact touch.refl _ _
      · refine touch.step ?_ (touch.PKG_NVS_CTL ..) rfl
        refine touch.step ?_ (touch.upd_nvsOp_bankWrite ..) rfl
        exact touch.refl _ _

theorem State.spareSlot_touch : ∀ a0, touch 0x10 a0 (State.spareSlot a0).1 := by
  intro a0
  unfold State.spareSlot
  extract_lets x41
  clear_value x41
  refine touch.fstIte ?_ ?_
  · refine touch.fstMk ?_
    exact touch.refl _ _
  · refine touch.fstIte ?_ ?_
    · refine touch.fstMk ?_
      exact touch.refl _ _
    · refine touch.fstIte ?_ ?_
      · refine touch.fstMk ?_
        exact touch.refl _ _
      · refine touch.fstIte ?_ ?_
        · refine touch.fstMk ?_
          exact touch.refl _ _
        · refine touch.fstMk ?_
          refine touch.step ?_ (State.tookFree_touch ..) rfl
          exact touch.refl _ _

theorem State.stageWrite_touch : ∀ a0 a1 a2, touch 0x3800000000046d8000000620800004000000000000000006038b0 a0 (State.stageWrite a0 a1 a2) := by
  intro a0 a1 a2
  unfold State.stageWrite
  refine touch.ite ?_ ?_
  · refine touch.step ?_ (State.sbsRefused_touch ..) rfl
    exact touch.refl _ _
  · refine touch.ite ?_ ?_
    · exact touch.refl _ _
    · extract_lets x41 x42 x43 x44 x45 x46 x47
      clear_value x41 x42 x43 x44 x45 x46
      refine touch.ite ?_ ?_
      · exact touch.refl _ _
      · split
        · rename_i z48 z49 z50 z51
          have h52 : touch 0x3800000000046d8000000620800004000000000000000006038b0 a0 z49 := by
            refine touch.ofEq z51 ?_
            refine touch.fstIte ?_ ?_
            · split
              · rename_i z53 z54 z55 z56
                have h57 : touch 0x3800000000046d8000000620800004000000000000000006038b0 a0 z54 := by
                  refine touch.ofEq z56 ?_
                  refine touch.step ?_ (State.spareSlot_touch ..) rfl
                  exact touch.refl _ _
                refine touch.fstMk ?_
                refine touch.step ?_ (State.setSlot_touch ..) rfl
                exact h57
              · rename_i z58 z59 z60
                have h61 : touch 0x3800000000046d8000000620800004000000000000000006038b0 a0 z59 := by
                  refine touch.ofEq z60 ?_
                  refine touch.step ?_ (State.spareSlot_touch ..) rfl
                  exact touch.refl _ _
                refine touch.fstMk ?_
                exact h61
            · refine touch.fstMk ?_
              exact touch.refl _ _
          refine touch.ite ?_ ?_
          · refine touch.step ?_ (touch.PKG_SBS_STATUS ..) rfl
            refine touch.step ?_ (touch.upd_nvs_staged ..) rfl
            exact h52
          · refine touch.step ?_ (State.imageRefused_touch ..) rfl
            extract_lets x62
            have h63 : touch 0x3800000000046d8000000620800004000000000000000006038b0 a0 x62 := by
              unfold x62
              refine touch.step ?_ (State.discardStaged_touch ..) rfl
              exact h52
            clear_value x62
            refine touch.step ?_ (touch.upd_staged ..) rfl
            exact h63

theorem State.commitSeal_touch : ∀ a0 a1 a2, touch 0x1900 a0 (State.commitSeal a0 a1 a2) := by
  intro a0 a1 a2
  unfold State.commitSeal
  extract_lets x41 x42 x43
  clear_value x41 x42 x43
  refine touch.step ?_ (touch.upd_fuses_nvs_dir ..) rfl
  exact touch.refl _ _

theorem State.wrSealCtl_touch : ∀ a0 a1 a2, touch 0x3800000000046d800000062400000400000000000000000601da0 a0 (State.wrSealCtl a0 a1 a2) := by
  intro a0 a1 a2
  unfold State.wrSealCtl
  extract_lets x41 x42 x43
  clear_value x41 x42
  have h44 : touch 0x3800000000046d800000062400000400000000000000000601da0 a0 x43 := by
    unfold x43
    refine touch.foldl ?_ ?_
    · exact touch.refl _ _
    · intro u45 y46 h47
      refine touch.step ?_ (State.commitSeal_touch ..) rfl
      exact h47
  clear_value x43
  refine touch.ite ?_ ?_
  · exact touch.refl _ _
  · refine touch.ite ?_ ?_
    · refine touch.step ?_ (touch.SEAL_CTL ..) rfl
      refine touch.step ?_ (touch.upd_sealRequests ..) rfl
      exact h44
    · refine touch.step ?_ (State.raise_touch ..) rfl
      exact touch.refl _ _

theorem State.endBankWrite_touch : ∀ a0, touch 0x40000000000000000001000 a0 (State.endBankWrite a0) := by
  intro a0
  unfold State.endBankWrite
  split
  · rename_i z41 z42 z43
    refine touch.ite ?_ ?_
    · refine touch.step ?_ (State.markBank_touch ..) rfl
      refine touch.step ?_ (touch.upd_bankWrite ..) rfl
      exact touch.refl _ _
    · refine touch.step ?_ (touch.upd_bankWrite ..) rfl
      exact touch.refl _ _
  · rename_i z44 z45
    exact touch.refl _ _

theorem State.semWrite_touch : ∀ a0 a1 a2, touch 0x1000000040000000000000000001000 a0 (State.semWrite a0 a1 a2) := by
  intro a0 a1 a2
  unfold State.semWrite
  refine touch.ite ?_ ?_
  · refine touch.ite ?_ ?_
    · refine touch.step ?_ (State.semFree_touch ..) rfl
      refine touch.step ?_ (State.endBankWrite_touch ..) rfl
      exact touch.refl _ _
    · refine touch.step ?_ (State.semFree_touch ..) rfl
      exact touch.refl _ _
  · refine touch.step ?_ (touch.SEM ..) rfl
    exact touch.refl _ _

theorem State.respondInband_touch : ∀ a0 a1 a2 a3, touch 0x80 a0 (State.respondInband a0 a1 a2 a3) := by
  intro a0 a1 a2 a3
  unfold State.respondInband
  extract_lets x41
  refine touch.step ?_ (State.originate_touch ..) rfl
  exact touch.refl _ _

theorem State.completeInband_touch : ∀ a0 a1 a2 a3, touch 0x18000000000000000000000001000040 a0 (State.completeInband a0 a1 a2 a3) := by
  intro a0 a1 a2 a3
  unfold State.completeInband
  extract_lets x41 x42 x43 x44 x45
  clear_value x41 x42
  have h46 : touch 0x18000000000000000000000001000040 a0 x43 := by
    unfold x43
    refine touch.step ?_ (State.setCport_touch ..) rfl
    exact touch.refl _ _
  have h47 : touch 0x18000000000000000000000001000040 a0 x44 := by
    unfold x44
    refine touch.step ?_ (touch.PKG_CP_IBA_STAT ..) rfl
    refine touch.step ?_ (touch.PKG_CP_IBA_STAT ..) rfl
    refine touch.step ?_ (touch.PKG_CP_IBA_STAT ..) rfl
    exact h46
  have h48 : touch 0x18000000000000000000000001000040 a0 x45 := by
    unfold x45
    refine touch.ite ?_ ?_
    · refine touch.step ?_ (touch.PKG_CP_IBA_DATA ..) rfl
      exact h47
    · exact h47
  clear_value x43 x44 x45
  refine touch.step ?_ (State.interruptCp_touch ..) rfl
  exact h48

theorem State.reply_touch : ∀ a0 a1 a2 a3 a4 a5, touch 0x41a0000000000000000000000010000c0 a0 (State.reply a0 a1 a2 a3 a4 a5) := by
  intro a0 a1 a2 a3 a4 a5
  unfold State.reply
  extract_lets x41 x42
  have h43 : touch 0x41a0000000000000000000000010000c0 a0 x41 := by
    unfold x41
    split
    · rename_i z44 z45
      refine touch.ite ?_ ?_
      · refine touch.step ?_ (touch.PKG_CP_STATE ..) rfl
        exact touch.refl _ _
      · exact touch.refl _ _
    · rename_i z46 z47
      exact touch.refl _ _
  have h48 : touch 0x41a0000000000000000000000010000c0 a0 x42 := by
    unfold x42
    refine touch.ite ?_ ?_
    · refine touch.step ?_ (touch.PKG_MGT_STAT ..) rfl
      exact h43
    · refine touch.ite ?_ ?_
      · refine touch.step ?_ (touch.PKG_MGT_STAT ..) rfl
        exact h43
      · exact h43
  clear_value x41 x42
  split
  · rename_i z49
    refine touch.step ?_ (State.emit_touch ..) rfl
    exact h43
  · rename_i z50 z51
    refine touch.step ?_ (State.respondInband_touch ..) rfl
    exact h48
  · rename_i z52 z53
    refine touch.step ?_ (State.completeInband_touch ..) rfl
    exact h43
  · rename_i z54 z55
    refine touch.step ?_ (State.setCport_touch ..) rfl
    exact h43

theorem State.checkAccess_touch : ∀ a0 a1 a2 a3, touch 0x383000000005ed9c00000620000004000000000600000006000a0 a0 (State.checkAccess a0 a1 a2 a3).1 := by
  intro a0 a1 a2 a3
  unfold State.checkAccess
  extract_lets x41 x42 x43
  clear_value x41 x42
  have h44 : touch 0x383000000005ed9c00000620000004000000000600000006000a0 a0 x43 := by
    unfold x43
    refine touch.step ?_ (State.searchToll_touch ..) rfl
    refine touch.step ?_ (State.countDie_touch ..) rfl
    exact touch.refl _ _
  clear_value x43
  split
  · rename_i z45 z46
    refine touch.fstMk ?_
    exact h44
  · rename_i z47 z48 z49 z50
    refine touch.fstMk ?_
    refine touch.step ?_ (State.violate_touch ..) rfl
    exact h44

theorem State.submit_touch : ∀ a0 a1 a2 a3 a4 a5, touch 0x383000000005ed9c000047a000000400000000060000001e000e0 a0 (State.submit a0 a1 a2 a3 a4 a5) := by
  intro a0 a1 a2 a3 a4 a5
  unfold State.submit
  split
  · rename_i z41 z42
    exact touch.refl _ _
  · rename_i z43 z44
    refine touch.step ?_ (State.reply_touch ..) rfl
    exact touch.refl _ _
  · rename_i z45 z46
    refine touch.step ?_ (State.reply_touch ..) rfl
    exact touch.refl _ _
  · rename_i z47 z48
    split
    · rename_i z49 z50 z51 z52
      have h53 : touch 0x383000000005ed9c000047a000000400000000060000001e000e0 a0 z50 := by
        refine touch.ofEq z52 ?_
        refine touch.step ?_ (State.checkAccess_touch ..) rfl
        exact touch.refl _ _
      refine touch.ite ?_ ?_
      · refine touch.step ?_ (touch.upd_tow ..) rfl
        exact h53
      · refine touch.step ?_ (State.reply_touch ..) rfl
        exact h53

theorem State.startInband_touch : ∀ a0 a1, touch 0x383000000005ed9c000047a000000400000000060001001e000f0 a0 (State.startInband a0 a1) := by
  intro a0 a1
  unfold State.startInband
  extract_lets x41 x42 x43 x44 x45 x46 x47 x48 x49
  clear_value x41 x42 x43 x44 x45 x47 x49
  have h50 : touch 0x383000000005ed9c000047a000000400000000060001001e000f0 a0 x46 := by
    unfold x46
    refine touch.step ?_ (touch.PKG_CP_IBA_STAT ..) rfl
    exact touch.refl _ _
  have h51 : touch 0x383000000005ed9c000047a000000400000000060001001e000f0 a0 x48 := by
    unfold x48
    refine touch.step ?_ (State.setCport_touch ..) rfl
    refine touch.step ?_ (touch.upd_nextId ..) rfl
    exact h50
  clear_value x46 x48
  refine touch.ite ?_ ?_
  · exact touch.refl _ _
  · refine touch.ite ?_ ?_
    · refine touch.step ?_ (State.submit_touch ..) rfl
      exact h51
    · split
      · rename_i z52 z53 z54 z55
        have h56 : touch 0x383000000005ed9c000047a000000400000000060001001e000f0 a0 z53 := by
          refine touch.ofEq z55 ?_
          refine touch.fstIte ?_ ?_
          · refine touch.fstMk ?_
            refine touch.step ?_ (State.tookFree_touch ..) rfl
            exact h51
          · refine touch.fstMk ?_
            exact h51
        refine touch.step ?_ (State.originate_touch ..) rfl
        exact h56

theorem State.wrMeasCtl_touch : ∀ a0 a1 a2, touch 0x1800000000000000000000000000100000 a0 (State.wrMeasCtl a0 a1 a2) := by
  intro a0 a1 a2
  unfold State.wrMeasCtl
  extract_lets x41 x42 x43
  clear_value x41 x43
  have h44 : touch 0x1800000000000000000000000000100000 a0 x42 := by
    unfold x42
    refine touch.foldl ?_ ?_
    · exact touch.refl _ _
    · intro u45 y46 h47
      refine touch.step ?_ (touch.PKG_MEAS_D ..) rfl
      exact h47
  clear_value x42
  refine touch.ite ?_ ?_
  · refine touch.step ?_ (touch.PKG_MEAS_CTL ..) rfl
    refine touch.step ?_ (State.extendMr_touch ..) rfl
    exact h44
  · exact h44

theorem State.wrWatchdog_touch : ∀ a0 a1 a2 a3, touch 0x20000000000000080000000000000000000 a0 (State.wrWatchdog a0 a1 a2 a3) := by
  intro a0 a1 a2 a3
  unfold State.wrWatchdog
  refine touch.ite ?_ ?_
  · exact touch.refl _ _
  · extract_lets x41
    have h42 : touch 0x20000000000000080000000000000000000 a0 x41 := by
      unfold x41
      refine touch.ite ?_ ?_
      · refine touch.step ?_ (touch.DIE_KEEPER_WDT ..) rfl
        exact touch.refl _ _
      · exact touch.refl _ _
    clear_value x41
    refine touch.ite ?_ ?_
    · refine touch.step ?_ (touch.upd_kickAt ..) rfl
      exact h42
    · exact h42

theorem State.adopt_touch : ∀ a0 a1 a2 a3 a4, touch 0x4000000000000000000000 a0 (State.adopt a0 a1 a2 a3 a4) := by
  intro a0 a1 a2 a3 a4
  unfold State.adopt
  refine touch.step ?_ (touch.upd_shadow ..) rfl
  exact touch.refl _ _

theorem State.setStaged_touch : ∀ a0 a1 a2 a3, touch 0x2000000 a0 (State.setStaged a0 a1 a2 a3) := by
  intro a0 a1 a2 a3
  unfold State.setStaged
  refine touch.step ?_ (touch.upd_staging ..) rfl
  exact touch.refl _ _

theorem State.tollStage_touch : ∀ a0 a1 a2 a3 a4 a5, touch 0x20000000000000000000000000000006000000 a0 (State.tollStage a0 a1 a2 a3 a4 a5).1 := by
  intro a0 a1 a2 a3 a4 a5
  unfold State.tollStage
  extract_lets x41 x42 x43 x44
  clear_value x41 x43 x44
  have h45 : touch 0x20000000000000000000000000000006000000 a0 x42 := by
    unfold x42
    split
    · rename_i z46 z47 z48
      refine touch.step ?_ (touch.upd_stageHolder ..) rfl
      exact touch.refl _ _
    · rename_i z49 z50
      exact touch.refl _ _
  clear_value x42
  refine touch.fstIte ?_ ?_
  · refine touch.fstMk ?_
    refine touch.step ?_ (touch.TOLL_CTL ..) rfl
    exact touch.refl _ _
  · refine touch.fstMk ?_
    refine touch.step ?_ (State.setStaged_touch ..) rfl
    exact h45

theorem State.emptyStaging_touch : ∀ a0 a1 a2, touch 0x6000000 a0 (State.emptyStaging a0 a1 a2) := by
  intro a0 a1 a2
  unfold State.emptyStaging
  split
  · rename_i z41 z42 z43
    refine touch.step ?_ (State.freeStaging_touch ..) rfl
    exact touch.refl _ _
  · rename_i z44 z45
    refine touch.step ?_ (State.setStaged_touch ..) rfl
    exact touch.refl _ _

theorem State.writeEntry_touch : ∀ a0 a1 a2 a3, touch 0x200010000000000000000000000040000000000000 a0 (State.writeEntry a0 a1 a2 a3) := by
  intro a0 a1 a2 a3
  unfold State.writeEntry
  refine touch.foldl ?_ ?_
  · exact touch.refl _ _
  · intro u41 y42 h43
    refine touch.step ?_ (touch.TOLL ..) rfl
    refine touch.step ?_ (State.writeWord_touch ..) rfl
    exact h43

theorem State.applyCommit_touch : ∀ a0 a1 a2 a3, touch 0x3c3000001007ed830000062000000400000000040009b086000a0 a0 (State.applyCommit a0 a1 a2 a3) := by
  intro a0 a1 a2 a3
  unfold State.applyCommit
  extract_lets x41 x42 x43 x44 x45
  clear_value x41
  have h46 : touch 0x3c3000001007ed830000062000000400000000040009b086000a0 a0 x42 := by
    unfold x42
    refine touch.step ?_ (State.countDie_touch ..) rfl
    refine touch.step ?_ (State.writeEntry_touch ..) rfl
    exact touch.refl _ _
  have h47 : touch 0x3c3000001007ed830000062000000400000000040009b086000a0 a0 x43 := by
    unfold x43
    refine touch.ite ?_ ?_
    · refine touch.step ?_ (touch.TOLL_CTL ..) rfl
      exact h46
    · exact h46
  have h48 : touch 0x3c3000001007ed830000062000000400000000040009b086000a0 a0 x44 := by
    unfold x44
    refine touch.step ?_ (touch.TOLL_CTL ..) rfl
    exact h47
  have h49 : touch 0x3c3000001007ed830000062000000400000000040009b086000a0 a0 x45 := by
    unfold x45
    refine touch.step ?_ (State.cancelStreams_touch ..) rfl
    exact h48
  clear_value x42 x43 x44 x45
  refine touch.step ?_ (State.raise_touch ..) rfl
  exact h49

theorem State.commitOrWait_touch : ∀ a0 a1 a2 a3, touch 0x3c3000001007ed830000062000000400000000040009b186000a0 a0 (State.commitOrWait a0 a1 a2 a3) := by
  intro a0 a1 a2 a3
  unfold State.commitOrWait
  refine touch.ite ?_ ?_
  · refine touch.step ?_ (touch.TOLL_CTL ..) rfl
    refine touch.step ?_ (touch.upd_commits ..) rfl
    exact touch.refl _ _
  · refine touch.step ?_ (State.applyCommit_touch ..) rfl
    exact touch.refl _ _

theorem State.tollCommit_touch : ∀ a0 a1 a2 a3 a4, touch 0x3c3000001007ed830000062000000400000000040009b1e6000a0 a0 (State.tollCommit a0 a1 a2 a3 a4) := by
  intro a0 a1 a2 a3 a4
  unfold State.tollCommit
  extract_lets x41 x42 x43 x44 x45 x46 x47 x48 x49
  clear_value x41 x42 x44 x45 x46 x47 x48
  have h50 : touch 0x3c3000001007ed830000062000000400000000040009b1e6000a0 a0 x49 := by
    unfold x49
    refine touch.ite ?_ ?_
    · exact touch.refl _ _
    · refine touch.step ?_ (State.emptyStaging_touch ..) rfl
      exact touch.refl _ _
  clear_value x43 x49
  refine touch.ite ?_ ?_
  · refine touch.step ?_ (touch.TOLL_CTL ..) rfl
    exact h50
  · refine touch.step ?_ (State.commitOrWait_touch ..) rfl
    exact h50

theorem State.forceEntry_touch : ∀ a0 a1 a2, touch 0x3c3000001007ed830000062000000400000000040009b1e6000a0 a0 (State.forceEntry a0 a1 a2) := by
  intro a0 a1 a2
  unfold State.forceEntry
  extract_lets x41 x42 x43
  clear_value x41 x42
  have h44 : touch 0x3c3000001007ed830000062000000400000000040009b1e6000a0 a0 x43 := by
    unfold x43
    refine touch.foldl ?_ ?_
    · exact touch.refl _ _
    · intro u45 y46 h47
      refine touch.step ?_ (State.tollStage_touch ..) rfl
      exact h47
  clear_value x43
  refine touch.step ?_ (State.tollCommit_touch ..) rfl
  exact h44

theorem State.containPd_touch : ∀ a0 a1 a2, touch 0x3c3770001805ed810000062000c00c200107e81100fff086000f0 a0 (State.containPd a0 a1 a2) := by
  intro a0 a1 a2
  unfold State.containPd
  extract_lets x41 x42 x43 x44 x45 x46 x47 x48 x49 x50 x51 x52
  have h53 : touch 0x3c3770001805ed810000062000c00c200107e81100fff086000f0 a0 x41 := by
    unfold x41
    refine touch.step ?_ (touch.PORT_DPC ..) rfl
    exact touch.refl _ _
  have h54 : touch 0x3c3770001805ed810000062000c00c200107e81100fff086000f0 a0 x42 := by
    unfold x42
    refine touch.step ?_ (touch.PORT_DPC ..) rfl
    refine touch.step ?_ (touch.PORT_DPC ..) rfl
    exact h53
  have h55 : touch 0x3c3770001805ed810000062000c00c200107e81100fff086000f0 a0 x43 := by
    unfold x43
    refine touch.step ?_ (touch.PORT_DPC ..) rfl
    exact h54
  have h56 : touch 0x3c3770001805ed810000062000c00c200107e81100fff086000f0 a0 x44 := by
    unfold x44
    refine touch.step ?_ (touch.upd_dpcSince ..) rfl
    exact h55
  have h57 : touch 0x3c3770001805ed810000062000c00c200107e81100fff086000f0 a0 x45 := by
    unfold x45
    refine touch.ite ?_ ?_
    · refine touch.step ?_ (State.reclaimLink_touch ..) rfl
      refine touch.step ?_ (State.ingressDiscard_touch ..) rfl
      exact h56
    · exact h56
  have h58 : touch 0x3c3770001805ed810000062000c00c200107e81100fff086000f0 a0 x46 := by
    unfold x46
    refine touch.step ?_ (State.pcieDown_touch ..) rfl
    exact h57
  have h59 : touch 0x3c3770001805ed810000062000c00c200107e81100fff086000f0 a0 x47 := by
    unfold x47
    refine touch.foldl ?_ ?_
    · exact h58
    · intro u60 y61 h62
      extract_lets x63 x64
      clear_value x63
      have h65 : touch 0x3c3770001805ed810000062000c00c200107e81100fff086000f0 a0 x64 := by
        unfold x64
        refine touch.step ?_ (State.setVport_touch ..) rfl
        exact h62
      clear_value x64
      refine touch.ite ?_ ?_
      · refine touch.step ?_ (State.emit_touch ..) rfl
        exact h65
      · exact h65
  have h66 : touch 0x3c3770001805ed810000062000c00c200107e81100fff086000f0 a0 x48 := by
    unfold x48
    refine touch.step ?_ (State.dropLock_touch ..) rfl
    exact h59
  have h67 : touch 0x3c3770001805ed810000062000c00c200107e81100fff086000f0 a0 x49 := by
    unfold x49
    refine touch.step ?_ (State.egressDiscard_touch ..) rfl
    refine touch.step ?_ (State.failAsks_touch ..) rfl
    exact h66
  have h68 : touch 0x3c3770001805ed810000062000c00c200107e81100fff086000f0 a0 x50 := by
    unfold x50
    refine touch.step ?_ (State.deassertPins_touch ..) rfl
    exact h67
  have h69 : touch 0x3c3770001805ed810000062000c00c200107e81100fff086000f0 a0 x51 := by
    unfold x51
    refine touch.step ?_ (touch.upd_flr ..) rfl
    exact h68
  have h70 : touch 0x3c3770001805ed810000062000c00c200107e81100fff086000f0 a0 x52 := by
    unfold x52
    refine touch.step ?_ (State.raise_touch ..) rfl
    exact h69
  clear_value x41 x42 x43 x44 x45 x46 x47 x48 x49 x50 x51 x52
  refine touch.ite ?_ ?_
  · exact h53
  · refine touch.step ?_ (State.republish_touch ..) rfl
    refine touch.step ?_ (State.containmentEntry_touch ..) rfl
    exact h70

theorem State.ingressContained_touch : ∀ a0 a1, touch 0x3c3400000005ed810000062000800400000068010074f086000e0 a0 (State.ingressContained a0 a1) := by
  intro a0 a1
  unfold State.ingressContained
  refine touch.foldl ?_ ?_
  · exact touch.refl _ _
  · intro u41 y42 h43
    refine touch.foldl ?_ ?_
    · exact h43
    · intro u44 y45 h46
      refine touch.step ?_ (State.answerQueued_touch ..) rfl
      exact h46

theorem State.containFabric_touch : ∀ a0 a1 a2, touch 0x3c3784c79805ed9d0000062000c80c1000c068171a7df086000f0 a0 (State.containFabric a0 a1 a2) := by
  intro a0 a1 a2
  unfold State.containFabric
  extract_lets x41 x42 x43
  have h44 : touch 0x3c3784c79805ed9d0000062000c80c1000c068171a7df086000f0 a0 x41 := by
    unfold x41
    refine touch.step ?_ (touch.PORT_CONTAIN ..) rfl
    exact touch.refl _ _
  have h45 : touch 0x3c3784c79805ed9d0000062000c80c1000c068171a7df086000f0 a0 x42 := by
    unfold x42
    refine touch.step ?_ (touch.PORT_CONTAIN ..) rfl
    refine touch.step ?_ (touch.PORT_CONTAIN ..) rfl
    exact h44
  have h46 : touch 0x3c3784c79805ed9d0000062000c80c1000c068171a7df086000f0 a0 x43 := by
    unfold x43
    refine touch.ite ?_ ?_
    · refine touch.step ?_ (State.egressDiscard_touch ..) rfl
      refine touch.step ?_ (State.quietPort_touch ..) rfl
      refine touch.step ?_ (State.bfLinkDown_touch ..) rfl
      exact h45
    · refine touch.step ?_ (State.egressDiscard_touch ..) rfl
      refine touch.step ?_ (State.ingressContained_touch ..) rfl
      exact h45
  clear_value x41 x42 x43
  refine touch.ite ?_ ?_
  · exact h44
  · refine touch.step ?_ (State.reroute_touch ..) rfl
    refine touch.step ?_ (State.republish_touch ..) rfl
    refine touch.step ?_ (State.containmentEntry_touch ..) rfl
    exact h46

theorem State.containPort_touch : ∀ a0 a1 a2 a3, touch 0x3c37f4c79805ed9d0000062000c80c3001c7e8171afff086000f0 a0 (State.containPort a0 a1 a2 a3) := by
  intro a0 a1 a2 a3
  unfold State.containPort
  refine touch.ite ?_ ?_
  · refine touch.step ?_ (State.containPd_touch ..) rfl
    exact touch.refl _ _
  · refine touch.ite ?_ ?_
    · refine touch.step ?_ (State.containFabric_touch ..) rfl
      exact touch.refl _ _
    · exact touch.refl _ _

theorem State.releaseFabric_touch : ∀ a0 a1, touch 0x3801800780046d8000000620004004000040001000000006000a0 a0 (State.releaseFabric a0 a1) := by
  intro a0 a1
  unfold State.releaseFabric
  refine touch.ite ?_ ?_
  · exact touch.refl _ _
  · extract_lets x41 x42
    have h43 : touch 0x3801800780046d8000000620004004000040001000000006000a0 a0 x41 := by
      unfold x41
      refine touch.step ?_ (touch.PORT_CONTAIN ..) rfl
      exact touch.refl _ _
    have h44 : touch 0x3801800780046d8000000620004004000040001000000006000a0 a0 x42 := by
      unfold x42
      refine touch.ite ?_ ?_
      · refine touch.foldl ?_ ?_
        · exact h43
        · intro u45 y46 h47
          refine touch.step ?_ (State.enterLock_touch ..) rfl
          exact h47
      · exact h43
    clear_value x41 x42
    refine touch.step ?_ (State.republish_touch ..) rfl
    refine touch.step ?_ (State.containmentEntry_touch ..) rfl
    exact h44

theorem State.windowEntry_touch : ∀ a0 a1 a2, touch 0x3800000000006d800000062000000000000000000000000200020 a0 (State.windowEntry a0 a1 a2) := by
  intro a0 a1 a2
  unfold State.windowEntry
  refine touch.step ?_ (State.partitionEntry_touch ..) rfl
  exact touch.refl _ _

theorem State.containWindow_touch : ∀ a0 a1, touch 0x3c3000005401ed810000062000000000000000000009b08200020 a0 (State.containWindow a0 a1) := by
  intro a0 a1
  unfold State.containWindow
  extract_lets x41 x42
  have h43 : touch 0x3c3000005401ed810000062000000000000000000009b08200020 a0 x41 := by
    unfold x41
    refine touch.step ?_ (touch.CL_WCON_CTL ..) rfl
    exact touch.refl _ _
  have h44 : touch 0x3c3000005401ed810000062000000000000000000009b08200020 a0 x42 := by
    unfold x42
    refine touch.step ?_ (touch.CL_WCON_MAP ..) rfl
    exact h43
  clear_value x41 x42
  refine touch.ite ?_ ?_
  · exact h43
  · refine touch.step ?_ (State.windowEntry_touch ..) rfl
    refine touch.step ?_ (State.cancelStreams_touch ..) rfl
    exact h44

theorem State.releaseWindow_touch : ∀ a0 a1, touch 0x3800000040006d800000062000000000000000000000000200020 a0 (State.releaseWindow a0 a1) := by
  intro a0 a1
  unfold State.releaseWindow
  refine touch.ite ?_ ?_
  · exact touch.refl _ _
  · refine touch.step ?_ (State.windowEntry_touch ..) rfl
    refine touch.step ?_ (touch.CL_WCON_MAP ..) rfl
    exact touch.refl _ _

theorem State.fenceCluster_touch : ∀ a0 a1, touch 0x3c3774c39805ed9d0100062011c80c3006dfec173afffc86000f0 a0 (State.fenceCluster a0 a1) := by
  intro a0 a1
  unfold State.fenceCluster
  refine touch.step ?_ (State.fenceClusters_touch ..) rfl
  exact touch.refl _ _

theorem State.forceContainment_touch : ∀ a0 a1 a2, touch 0x3c37f4c7dc05ed9d0100062011c80c3007dfec17bafffc86000f0 a0 (State.forceContainment a0 a1 a2) := by
  intro a0 a1 a2
  unfold State.forceContainment
  extract_lets x41 x42 x43 x44
  clear_value x42 x43 x44
  refine touch.ite ?_ ?_
  · refine touch.ite ?_ ?_
    · refine touch.step ?_ (State.containPort_touch ..) rfl
      exact touch.refl _ _
    · refine touch.ite ?_ ?_
      · refine touch.step ?_ (State.releasePd_touch ..) rfl
        exact touch.refl _ _
      · refine touch.step ?_ (State.releaseFabric_touch ..) rfl
        exact touch.refl _ _
  · refine touch.ite ?_ ?_
    · refine touch.ite ?_ ?_
      · refine touch.step ?_ (State.containWindow_touch ..) rfl
        exact touch.refl _ _
      · refine touch.step ?_ (State.releaseWindow_touch ..) rfl
        exact touch.refl _ _
    · refine touch.ite ?_ ?_
      · refine touch.step ?_ (State.fenceCluster_touch ..) rfl
        exact touch.refl _ _
      · refine touch.ite ?_ ?_
        · exact touch.refl _ _
        · refine touch.foldl ?_ ?_
          · exact touch.refl _ _
          · intro u45 y46 h47
            refine touch.step ?_ (State.releaseCluster_touch ..) rfl
            exact h47

theorem State.wrReconCtl_touch : ∀ a0 a1 a2, touch 0x3c37f4c7dc07ed9f0180062011c80c3407dfec17bafffde6000f0 a0 (State.wrReconCtl a0 a1 a2) := by
  intro a0 a1 a2
  unfold State.wrReconCtl
  extract_lets x41 x42 x43 x44 x45
  clear_value x41 x42 x43 x44 x45
  refine touch.ite ?_ ?_
  · exact touch.refl _ _
  · refine touch.ite ?_ ?_
    · refine touch.step ?_ (State.adopt_touch ..) rfl
      exact touch.refl _ _
    · refine touch.ite ?_ ?_
      · refine touch.step ?_ (State.forceEntry_touch ..) rfl
        refine touch.step ?_ (touch.DIE_RECON_CTL ..) rfl
        exact touch.refl _ _
      · refine touch.ite ?_ ?_
        · refine touch.step ?_ (State.forceContainment_touch ..) rfl
          refine touch.step ?_ (touch.DIE_RECON_CTL ..) rfl
          exact touch.refl _ _
        · refine touch.step ?_ (touch.DIE_RECON_CTL ..) rfl
          exact touch.refl _ _

theorem State.putItem_touch : ∀ a0 a1 a2 a3 a4 a5 a6 a7, touch 0x3800000000006d800000062000000000000000000000000200020 a0 (State.putItem a0 a1 a2 a3 a4 a5 a6 a7) := by
  intro a0 a1 a2 a3 a4 a5 a6 a7
  unfold State.putItem
  extract_lets x41
  clear_value x41
  refine touch.step ?_ (State.offer_touch ..) rfl
  exact touch.refl _ _

theorem State.semRead_touch : ∀ a0 a1 a2, touch 0x1000000000000000000000000000000 a0 (State.semRead a0 a1 a2).1 := by
  intro a0 a1 a2
  unfold State.semRead
  extract_lets x41
  have h42 : touch 0x1000000000000000000000000000000 a0 x41 := by
    unfold x41
    refine touch.ite ?_ ?_
    · exact touch.refl _ _
    · refine touch.step ?_ (touch.SEM ..) rfl
      refine touch.step ?_ (touch.SEM ..) rfl
      refine touch.step ?_ (touch.SEM ..) rfl
      exact touch.refl _ _
  clear_value x41
  refine touch.fstMk ?_
  exact h42

theorem State.memoryWord_touch : ∀ a0 a1 a2 a3 a4, touch 0x3800000000046d8000000620000004000000000000000006000a0 a0 (State.memoryWord a0 a1 a2 a3 a4).1 := by
  intro a0 a1 a2 a3 a4
  unfold State.memoryWord
  extract_lets x41
  clear_value x41
  refine touch.fstIte ?_ ?_
  · refine touch.fstMk ?_
    refine touch.step ?_ (State.raise_touch ..) rfl
    exact touch.refl _ _
  · refine touch.fstIte ?_ ?_
    · refine touch.fstMk ?_
      refine touch.step ?_ (State.raise_touch ..) rfl
      exact touch.refl _ _
    · refine touch.fstMk ?_
      exact touch.refl _ _

theorem State.readViolation_touch : ∀ a0 a1, touch 0x100000000000000000000000000000000000000 a0 (State.readViolation a0 a1).1 := by
  intro a0 a1
  unfold State.readViolation
  extract_lets x41 x42
  clear_value x41
  have h43 : touch 0x100000000000000000000000000000000000000 a0 x42 := by
    unfold x42
    refine touch.foldl ?_ ?_
    · exact touch.refl _ _
    · intro u44 y45 h46
      refine touch.step ?_ (touch.TOLL_VLAST ..) rfl
      exact h46
  clear_value x42
  refine touch.fstMk ?_
  exact h43

theorem State.readEffect_touch : ∀ a0 a1 a2, touch 0x3800000020047fd000000e30000004000000000000000016000e0 a0 (State.readEffect a0 a1 a2).1 := by
  intro a0 a1 a2
  unfold State.readEffect
  refine touch.fstIte ?_ ?_
  · refine touch.fstMk ?_
    exact touch.refl _ _
  · split
    · rename_i z41 z42 z43 z44 z45 z46 z47 z48
      refine touch.step ?_ (State.semRead_touch ..) rfl
      exact touch.refl _ _
    · rename_i z49 z50 z51 z52 z53 z54 z55 z56 z57
      refine touch.step ?_ (State.popRead_touch ..) rfl
      exact touch.refl _ _
    · rename_i z58 z59 z60 z61 z62 z63 z64 z65 z66 z67 z68
      refine touch.fstMk ?_
      exact touch.refl _ _
    · rename_i z69 z70 z71 z72 z73 z74 z75 z76 z77 z78 z79 z80
      refine touch.step ?_ (State.memoryWord_touch ..) rfl
      exact touch.refl _ _
    · rename_i z81 z82 z83 z84 z85 z86 z87 z88 z89 z90 z91 z92 z93
      extract_lets x94
      clear_value x94
      refine touch.step ?_ (State.memoryWord_touch ..) rfl
      exact touch.refl _ _
    · rename_i z95 z96 z97 z98 z99 z100 z101 z102 z103 z104 z105 z106 z107 z108 z109
      refine touch.step ?_ (State.readCounter_touch ..) rfl
      exact touch.refl _ _
    · rename_i z110 z111 z112 z113 z114 z115 z116 z117 z118 z119 z120 z121
      refine touch.fstIte ?_ ?_
      · refine touch.fstMk ?_
        exact touch.refl _ _
      · split
        · rename_i z122 z123 z124
          refine touch.step ?_ (State.readViolation_touch ..) rfl
          exact touch.refl _ _
        · rename_i z125 z126
          refine touch.fstMk ?_
          exact touch.refl _ _

theorem State.keeperRead_touch : ∀ a0 a1 a2, touch 0x383000002005ffdc00000e30000004000000000600000016000e0 a0 (State.keeperRead a0 a1 a2).1 := by
  intro a0 a1 a2
  unfold State.keeperRead
  split
  · rename_i z41 z42
    split
    · rename_i z43 z44 z45 z46
      have h47 : touch 0x383000002005ffdc00000e30000004000000000600000016000e0 a0 z44 := by
        refine touch.ofEq z46 ?_
        refine touch.step ?_ (State.checkAccess_touch ..) rfl
        exact touch.refl _ _
      refine touch.fstIte ?_ ?_
      · refine touch.step ?_ (State.readEffect_touch ..) rfl
        exact h47
      · refine touch.fstMk ?_
        exact h47
  · rename_i z48 z49
    refine touch.fstMk ?_
    exact touch.refl _ _

theorem State.gatherCounter_touch : ∀ a0 a1 a2 a3 a4, touch 0x383000002005ffdc00000e30000004020000000600000016000e0 a0 (State.gatherCounter a0 a1 a2 a3 a4) := by
  intro a0 a1 a2 a3 a4
  unfold State.gatherCounter
  extract_lets x41
  clear_value x41
  split
  · rename_i z42 z43 z44 z45
    have h46 : touch 0x383000002005ffdc00000e30000004020000000600000016000e0 a0 z43 := by
      refine touch.ofEq z45 ?_
      refine touch.step ?_ (State.keeperRead_touch ..) rfl
      exact touch.refl _ _
    extract_lets x47 x48
    clear_value x47
    have h49 : touch 0x383000002005ffdc00000e30000004020000000600000016000e0 a0 x48 := by
      unfold x48
      refine touch.step ?_ (touch.upd_batchSize ..) rfl
      exact h46
    clear_value x48
    refine touch.step ?_ (State.putItem_touch ..) rfl
    exact h49

theorem State.gather_touch : ∀ a0 a1, touch 0x383000002005fffc00000e30000004020000000600000016000e0 a0 (State.gather a0 a1) := by
  intro a0 a1
  unfold State.gather
  refine touch.ite ?_ ?_
  · exact touch.refl _ _
  · extract_lets x41 x42 x43 x44 x45 x46
    clear_value x44 x45
    have h47 : touch 0x383000002005fffc00000e30000004020000000600000016000e0 a0 x41 := by
      unfold x41
      refine touch.step ?_ (touch.PMON_GATHER ..) rfl
      exact touch.refl _ _
    have h48 : touch 0x383000002005fffc00000e30000004020000000600000016000e0 a0 x42 := by
      unfold x42
      refine touch.step ?_ (touch.upd_batchSize ..) rfl
      exact h47
    have h49 : touch 0x383000002005fffc00000e30000004020000000600000016000e0 a0 x43 := by
      unfold x43
      refine touch.step ?_ (State.putItem_touch ..) rfl
      exact h48
    have h50 : touch 0x383000002005fffc00000e30000004020000000600000016000e0 a0 x46 := by
      unfold x46
      refine touch.foldl ?_ ?_
      · exact h49
      · intro u51 y52 h53
        refine touch.foldl ?_ ?_
        · exact h53
        · intro u54 y55 h56
          refine touch.ite ?_ ?_
          · exact h56
          · refine touch.step ?_ (State.gatherCounter_touch ..) rfl
            exact h56
    clear_value x41 x42 x43 x46
    refine touch.ite ?_ ?_
    · refine touch.foldl ?_ ?_
      · exact h50
      · intro u57 y58 h59
        refine touch.ite ?_ ?_
        · exact h59
        · refine touch.step ?_ (State.gatherCounter_touch ..) rfl
          exact h59
    · exact h50

theorem State.wrToll_touch : ∀ a0 a1 a2 a3 a4 a5, touch 0x3c3000001007ed830000062000000408000000040009b1e6000a0 a0 (State.wrToll a0 a1 a2 a3 a4 a5).1 := by
  intro a0 a1 a2 a3 a4 a5
  unfold State.wrToll
  refine touch.fstIte ?_ ?_
  · refine touch.fstMk ?_
    refine touch.step ?_ (State.tollCommit_touch ..) rfl
    exact touch.refl _ _
  · split
    · rename_i z41 z42 z43 z44
      have h45 : touch 0x3c3000001007ed830000062000000408000000040009b1e6000a0 a0 z42 := by
        refine touch.ofEq z44 ?_
        refine touch.step ?_ (State.tollStage_touch ..) rfl
        exact touch.refl _ _
      refine touch.fstMk ?_
      split
      · rename_i z46 z47 z48
        refine touch.ite ?_ ?_
        · refine touch.step ?_ (touch.upd_stagedAt ..) rfl
          exact h45
        · exact h45
      · rename_i z49 z50
        exact h45

theorem State.wrWindowContain_touch : ∀ a0 a1 a2, touch 0x3c3000005401ed810000062000000000000000000009b08200020 a0 (State.wrWindowContain a0 a1 a2) := by
  intro a0 a1 a2
  unfold State.wrWindowContain
  extract_lets x41
  clear_value x41
  refine touch.ite ?_ ?_
  · refine touch.step ?_ (State.containWindow_touch ..) rfl
    exact touch.refl _ _
  · refine touch.ite ?_ ?_
    · refine touch.step ?_ (State.releaseWindow_touch ..) rfl
      exact touch.refl _ _
    · exact touch.refl _ _

theorem State.wrPmonCtl_touch : ∀ a0 a1 a2, touch 0x100000000000000000000000000000000000000000000000000 a0 (State.wrPmonCtl a0 a1 a2) := by
  intro a0 a1 a2
  unfold State.wrPmonCtl
  extract_lets x41 x42
  clear_value x41 x42
  refine touch.ite ?_ ?_
  · exact touch.refl _ _
  · refine touch.foldl ?_ ?_
    · exact touch.refl _ _
    · intro u43 y44 h45
      refine touch.ite ?_ ?_
      · exact h45
      · refine touch.ite ?_ ?_
        · refine touch.step ?_ (touch.PMON_CL_SEL ..) rfl
          exact h45
        · refine touch.ite ?_ ?_
          · refine touch.step ?_ (touch.PMON_CL_SEL ..) rfl
            exact h45
          · exact h45

theorem State.showEye_touch : ∀ a0 a1, touch 0x2000000000000000000000000000000000000000000000 a0 (State.showEye a0 a1) := by
  intro a0 a1
  unfold State.showEye
  extract_lets x41
  clear_value x41
  refine touch.ite ?_ ?_
  · refine touch.step ?_ (touch.LN_EYE ..) rfl
    refine touch.step ?_ (touch.LN_EYE ..) rfl
    exact touch.refl _ _
  · refine touch.step ?_ (touch.LN_EYE ..) rfl
    refine touch.step ?_ (touch.LN_EYE ..) rfl
    exact touch.refl _ _

theorem State.wrContain_touch : ∀ a0 a1 a2, touch 0x3c37f4c79805ed9d0000062000c80c3001c7e8171afff086000f0 a0 (State.wrContain a0 a1 a2) := by
  intro a0 a1 a2
  unfold State.wrContain
  refine touch.ite ?_ ?_
  · refine touch.step ?_ (State.containPort_touch ..) rfl
    exact touch.refl _ _
  · refine touch.ite ?_ ?_
    · refine touch.ite ?_ ?_
      · refine touch.step ?_ (State.releasePd_touch ..) rfl
        exact touch.refl _ _
      · refine touch.step ?_ (State.releaseFabric_touch ..) rfl
        exact touch.refl _ _
    · exact touch.refl _ _

theorem State.planLengthening_touch : ∀ a0 a1 a2 a3, touch 0x3801000000046d8000000620004004000000001001000806000a0 a0 (State.planLengthening a0 a1 a2 a3) := by
  intro a0 a1 a2 a3
  unfold State.planLengthening
  extract_lets x41 x42 x43
  clear_value x43
  have h44 : touch 0x3801000000046d8000000620004004000000001001000806000a0 a0 x41 := by
    unfold x41
    refine touch.step ?_ (State.republish_touch ..) rfl
    exact touch.refl _ _
  have h45 : touch 0x3801000000046d8000000620004004000000001001000806000a0 a0 x42 := by
    unfold x42
    refine touch.step ?_ (touch.PKG_BOUND ..) rfl
    exact h44
  clear_value x41 x42
  refine touch.ite ?_ ?_
  · refine touch.step ?_ (touch.upd_modes_planned ..) rfl
    exact h45
  · exact h44

theorem State.wrPortLock_touch : ∀ a0 a1 a2, touch 0x3801400000046d8000000620004004000000001001000806000a0 a0 (State.wrPortLock a0 a1 a2) := by
  intro a0 a1 a2
  unfold State.wrPortLock
  extract_lets x41 x42 x43 x44 x45 x46
  clear_value x41 x42 x43 x44 x46
  have h47 : touch 0x3801400000046d8000000620004004000000001001000806000a0 a0 x45 := by
    unfold x45
    refine touch.step ?_ (touch.PORT_LOCK ..) rfl
    refine touch.step ?_ (touch.PORT_LOCK ..) rfl
    exact touch.refl _ _
  clear_value x45
  refine touch.ite ?_ ?_
  · refine touch.step ?_ (State.planLengthening_touch ..) rfl
    exact h47
  · refine touch.ite ?_ ?_
    · refine touch.step ?_ (State.republish_touch ..) rfl
      exact h47
    · exact h47

theorem State.powerUpPort_touch : ∀ a0 a1, touch 0x3800000780046d8000000620000004000040000000000006000a0 a0 (State.powerUpPort a0 a1) := by
  intro a0 a1
  unfold State.powerUpPort
  refine touch.ite ?_ ?_
  · refine touch.foldl ?_ ?_
    · exact touch.refl _ _
    · intro u41 y42 h43
      refine touch.ite ?_ ?_
      · refine touch.step ?_ (State.enterLock_touch ..) rfl
        exact h43
      · refine touch.step ?_ (State.setSleep_touch ..) rfl
        exact h43
  · refine touch.foldl ?_ ?_
    · exact touch.refl _ _
    · intro u44 y45 h46
      refine touch.step ?_ (State.setSleep_touch ..) rfl
      refine touch.step ?_ (touch.LN_STATE ..) rfl
      exact h46

theorem State.wakePort_touch : ∀ a0 a1, touch 0x3808000780046d8000000620000004000040004000000006000a0 a0 (State.wakePort a0 a1) := by
  intro a0 a1
  unfold State.wakePort
  refine touch.ite ?_ ?_
  · exact touch.refl _ _
  · extract_lets x41 x42
    have h43 : touch 0x3808000780046d8000000620000004000040004000000006000a0 a0 x41 := by
      unfold x41
      refine touch.step ?_ (touch.upd_woken ..) rfl
      exact touch.refl _ _
    have h44 : touch 0x3808000780046d8000000620000004000040004000000006000a0 a0 x42 := by
      unfold x42
      refine touch.step ?_ (touch.PORT_WAKE ..) rfl
      refine touch.step ?_ (touch.PORT_WAKE ..) rfl
      exact h43
    clear_value x41 x42
    refine touch.ite ?_ ?_
    · refine touch.step ?_ (State.powerUpPort_touch ..) rfl
      exact h44
    · exact h44

theorem State.retrainPort_touch : ∀ a0 a1, touch 0x380100c780046d8100000620004004000040001100005006000a0 a0 (State.retrainPort a0 a1) := by
  intro a0 a1
  unfold State.retrainPort
  extract_lets x41 x42 x43 x44 x45 x46
  clear_value x41 x42 x45
  have h47 : touch 0x380100c780046d8100000620004004000040001100005006000a0 a0 x43 := by
    unfold x43
    refine touch.step ?_ (touch.PORT_BOND ..) rfl
    refine touch.step ?_ (touch.PORT_BOND ..) rfl
    exact touch.refl _ _
  have h48 : touch 0x380100c780046d8100000620004004000040001100005006000a0 a0 x44 := by
    unfold x44
    refine touch.step ?_ (State.noneLeft_touch ..) rfl
    refine touch.foldl ?_ ?_
    · exact h47
    · intro u49 y50 h51
      refine touch.step ?_ (State.enterLock_touch ..) rfl
      exact h51
  have h52 : touch 0x380100c780046d8100000620004004000040001100005006000a0 a0 x46 := by
    unfold x46
    refine touch.step ?_ (State.setLink_touch ..) rfl
    exact h48
  clear_value x43 x44 x46
  refine touch.ite ?_ ?_
  · exact h52
  · refine touch.step ?_ (State.routesMoved_touch ..) rfl
    refine touch.step ?_ (State.republish_touch ..) rfl
    refine touch.step ?_ (touch.PORT_LINK ..) rfl
    exact h52

theorem State.sendLanemap_touch : ∀ a0 a1 a2, touch 0x10000000000000 a0 (State.sendLanemap a0 a1 a2) := by
  intro a0 a1 a2
  unfold State.sendLanemap
  refine touch.step ?_ (State.wakeRequest_touch ..) rfl
  refine touch.step ?_ (State.setLink_touch ..) rfl
  exact touch.refl _ _

theorem State.bondStep_touch : ∀ a0 a1 a2, touch 0x380100c780046d8100000620004004000040001100005006000a0 a0 (State.bondStep a0 a1 a2) := by
  intro a0 a1 a2
  unfold State.bondStep
  extract_lets x41 x42
  clear_value x41 x42
  refine touch.ite ?_ ?_
  · refine touch.step ?_ (State.raise_touch ..) rfl
    refine touch.ite ?_ ?_
    · refine touch.step ?_ (State.retrainPort_touch ..) rfl
      exact touch.refl _ _
    · refine touch.step ?_ (State.noneLeft_touch ..) rfl
      refine touch.foldl ?_ ?_
      · exact touch.refl _ _
      · intro u43 y44 h45
        refine touch.step ?_ (State.enterLock_touch ..) rfl
        exact h45
  · refine touch.ite ?_ ?_
    · exact touch.refl _ _
    · refine touch.ite ?_ ?_
      · refine touch.ite ?_ ?_
        · exact touch.refl _ _
        · refine touch.step ?_ (State.sendLanemap_touch ..) rfl
          exact touch.refl _ _
      · refine touch.ite ?_ ?_
        · exact touch.refl _ _
        · refine touch.step ?_ (touch.LN_STATE ..) rfl
          exact touch.refl _ _

theorem State.laneUp_touch : ∀ a0 a1, touch 0x1800000000000000000000000000000000000000000000 a0 (State.laneUp a0 a1) := by
  intro a0 a1
  unfold State.laneUp
  refine touch.step ?_ (State.updateDrift_touch ..) rfl
  refine touch.step ?_ (touch.LN_QUAL ..) rfl
  refine touch.step ?_ (touch.LN_STATE ..) rfl
  refine touch.step ?_ (touch.LN_STATE ..) rfl
  exact touch.refl _ _

theorem State.startSession_touch : ∀ a0 a1, touch 0x880000000000000000000000000000000010000000000000 a0 (State.startSession a0 a1) := by
  intro a0 a1
  unfold State.startSession
  extract_lets x41 x42 x43
  clear_value x41
  have h44 : touch 0x880000000000000000000000000000000010000000000000 a0 x42 := by
    unfold x42
    refine touch.step ?_ (State.setLink_touch ..) rfl
    exact touch.refl _ _
  have h45 : touch 0x880000000000000000000000000000000010000000000000 a0 x43 := by
    unfold x43
    refine touch.step ?_ (touch.PORT_TALLY ..) rfl
    refine touch.step ?_ (touch.PORT_LINK ..) rfl
    exact h44
  clear_value x42 x43
  refine touch.step ?_ (touch.PORT_LINK ..) rfl
  exact h45

theorem State.portUp_touch : ∀ a0 a1 a2, touch 0x8c1800000000000000000000000004000010000000000000 a0 (State.portUp a0 a1 a2) := by
  intro a0 a1 a2
  unfold State.portUp
  extract_lets x41 x42 x43 x44 x45 x46 x47
  clear_value x41 x45 x46
  have h48 : touch 0x8c1800000000000000000000000004000010000000000000 a0 x42 := by
    unfold x42
    refine touch.step ?_ (State.noneLeft_touch ..) rfl
    refine touch.foldl ?_ ?_
    · exact touch.refl _ _
    · intro u49 y50 h51
      refine touch.step ?_ (State.laneUp_touch ..) rfl
      exact h51
  have h52 : touch 0x8c1800000000000000000000000004000010000000000000 a0 x43 := by
    unfold x43
    refine touch.step ?_ (touch.PORT_BOND ..) rfl
    refine touch.step ?_ (touch.PORT_BOND ..) rfl
    refine touch.step ?_ (touch.PORT_BOND ..) rfl
    exact h48
  have h53 : touch 0x8c1800000000000000000000000004000010000000000000 a0 x44 := by
    unfold x44
    refine touch.step ?_ (touch.PORT_BOND ..) rfl
    exact h52
  have h54 : touch 0x8c1800000000000000000000000004000010000000000000 a0 x47 := by
    unfold x47
    refine touch.step ?_ (State.setLink_touch ..) rfl
    exact h53
  clear_value x42 x43 x44 x47
  refine touch.ite ?_ ?_
  · exact h54
  · refine touch.step ?_ (State.startSession_touch ..) rfl
    exact h54

theorem State.advance_touch : ∀ a0 a1 a2 a3, touch 0x380108c780046d8100000620004004000040001100005006000a0 a0 (State.advance a0 a1 a2 a3) := by
  intro a0 a1 a2 a3
  unfold State.advance
  extract_lets x41 x42 x43 x44 x45 x46
  clear_value x42 x43 x44 x46
  have h47 : touch 0x380108c780046d8100000620004004000040001100005006000a0 a0 x41 := by
    unfold x41
    refine touch.step ?_ (State.updateAdapter_touch ..) rfl
    refine touch.step ?_ (touch.LN_QUAL ..) rfl
    exact touch.refl _ _
  have h48 : touch 0x380108c780046d8100000620004004000040001100005006000a0 a0 x45 := by
    unfold x45
    refine touch.step ?_ (State.setLaneSt_touch ..) rfl
    exact h47
  clear_value x41 x45
  refine touch.ite ?_ ?_
  · refine touch.ite ?_ ?_
    · refine touch.step ?_ (State.enterLock_touch ..) rfl
      exact h47
    · exact h47
  · refine touch.ite ?_ ?_
    · refine touch.ite ?_ ?_
      · refine touch.step ?_ (touch.LN_STATE ..) rfl
        exact h47
      · exact h47
    · refine touch.ite ?_ ?_
      · refine touch.ite ?_ ?_
        · refine touch.step ?_ (touch.LN_STATE ..) rfl
          exact h48
        · exact h48
      · refine touch.ite ?_ ?_
        · refine touch.step ?_ (State.bondStep_touch ..) rfl
          exact h47
        · refine touch.ite ?_ ?_
          · refine touch.ite ?_ ?_
            · refine touch.step ?_ (State.portUp_touch ..) rfl
              exact h47
            · exact h47
          · exact h47

theorem State.virtPut_touch : ∀ a0 a1 a2 a3 a4, touch 0x4000000000000000 a0 (State.virtPut a0 a1 a2 a3 a4) := by
  intro a0 a1 a2 a3 a4
  unfold State.virtPut
  refine touch.step ?_ (touch.upd_virt ..) rfl
  exact touch.refl _ _

theorem State.aerWrite_touch : ∀ a0 a1 a2 a3 a4 a5, touch 0x6c000000000000000 a0 (State.aerWrite a0 a1 a2 a3 a4 a5) := by
  intro a0 a1 a2 a3 a4 a5
  unfold State.aerWrite
  extract_lets x41 x42 x43 x44
  clear_value x41 x42 x43
  have h45 : touch 0x6c000000000000000 a0 x44 := by
    unfold x44
    refine touch.step ?_ (touch.upd_aer ..) rfl
    exact touch.refl _ _
  clear_value x44
  refine touch.ite ?_ ?_
  · refine touch.ite ?_ ?_
    · refine touch.step ?_ (State.setVport_touch ..) rfl
      refine touch.step ?_ (touch.upd_aerHeader ..) rfl
      exact h45
    · exact h45
  · refine touch.ite ?_ ?_
    · refine touch.step ?_ (State.setVport_touch ..) rfl
      exact touch.refl _ _
    · refine touch.ite ?_ ?_
      · refine touch.step ?_ (State.virtPut_touch ..) rfl
        exact touch.refl _ _
      · exact touch.refl _ _

theorem State.afterReload_touch : ∀ a0, touch 0x3800000000046d8000000620000804000000000000000806000a0 a0 (State.afterReload a0) := by
  intro a0
  unfold State.afterReload
  extract_lets x41
  clear_value x41
  refine touch.step ?_ (State.backTo_touch ..) rfl
  exact touch.refl _ _

theorem State.carryWords_touch : ∀ a0 a1 a2, touch 0x40000000 a0 (State.carryWords a0 a1 a2) := by
  intro a0 a1 a2
  unfold State.carryWords
  refine touch.step ?_ (State.setCrossing_touch ..) rfl
  exact touch.refl _ _

theorem State.crossLane_touch : ∀ a0 a1 a2 a3, touch 0x38000000000c6d8102000620000004000000000000000406000a0 a0 (State.crossLane a0 a1 a2 a3).1 := by
  intro a0 a1 a2 a3
  unfold State.crossLane
  split
  · rename_i z41 z42 z43 z44
    have h45 : touch 0x38000000000c6d8102000620000004000000000000000406000a0 a0 z42 := by
      refine touch.ofEq z44 ?_
      refine touch.step ?_ (State.writeItem_touch ..) rfl
      refine touch.step ?_ (State.carryWords_touch ..) rfl
      exact touch.refl _ _
    refine touch.fstIte ?_ ?_
    · refine touch.fstMk ?_
      exact h45
    · extract_lets x46 x47
      clear_value x46
      have h48 : touch 0x38000000000c6d8102000620000004000000000000000406000a0 a0 x47 := by
        unfold x47
        refine touch.step ?_ (touch.CL_XERR ..) rfl
        refine touch.step ?_ (State.raiseMask_touch ..) rfl
        exact h45
      clear_value x47
      refine touch.fstMk ?_
      refine touch.ite ?_ ?_
      · refine touch.step ?_ (State.countDiscards_touch ..) rfl
        exact h48
      · exact h48

theorem State.takeRxMask_touch : ∀ a0 a1 a2 a3, touch 0x3800004780046d8000000620000004000040000100000006000a0 a0 (State.takeRxMask a0 a1 a2 a3) := by
  intro a0 a1 a2 a3
  unfold State.takeRxMask
  refine touch.ite ?_ ?_
  · exact touch.refl _ _
  · extract_lets x41 x42 x43
    clear_value x41
    have h44 : touch 0x3800004780046d8000000620000004000040000100000006000a0 a0 x42 := by
      unfold x42
      refine touch.step ?_ (State.setLink_touch ..) rfl
      exact touch.refl _ _
    have h45 : touch 0x3800004780046d8000000620000004000040000100000006000a0 a0 x43 := by
      unfold x43
      refine touch.step ?_ (touch.PORT_BOND ..) rfl
      refine touch.step ?_ (touch.PORT_BOND ..) rfl
      exact h44
    clear_value x42 x43
    refine touch.foldl ?_ ?_
    · exact h45
    · intro u46 y47 h48
      extract_lets x49 x50 x51
      clear_value x49 x50
      have h52 : touch 0x3800004780046d8000000620000004000040000100000006000a0 a0 x51 := by
        unfold x51
        refine touch.step ?_ (touch.LN_STATE ..) rfl
        exact h48
      clear_value x51
      refine touch.ite ?_ ?_
      · refine touch.step ?_ (State.updateDrift_touch ..) rfl
        refine touch.step ?_ (touch.LN_QUAL ..) rfl
        refine touch.step ?_ (touch.LN_STATE ..) rfl
        exact h52
      · refine touch.ite ?_ ?_
        · refine touch.step ?_ (State.enterLock_touch ..) rfl
          exact h52
        · exact h52

theorem State.applyRxMask_touch : ∀ a0 a1, touch 0x3800004780046d8000000620000004000040000100000006000a0 a0 (State.applyRxMask a0 a1) := by
  intro a0 a1
  unfold State.applyRxMask
  extract_lets x41 x42 x43
  clear_value x41 x42
  have h44 : touch 0x3800004780046d8000000620000004000040000100000006000a0 a0 x43 := by
    unfold x43
    refine touch.step ?_ (State.setLink_touch ..) rfl
    exact touch.refl _ _
  clear_value x43
  refine touch.ite ?_ ?_
  · exact touch.refl _ _
  · refine touch.foldl ?_ ?_
    · exact h44
    · intro u45 y46 h47
      refine touch.step ?_ (State.takeRxMask_touch ..) rfl
      exact h47

theorem State.countFlitSlot_touch : ∀ a0 a1 a2 a3, touch 0x10000000000000 a0 (State.countFlitSlot a0 a1 a2 a3) := by
  intro a0 a1 a2 a3
  unfold State.countFlitSlot
  extract_lets x41
  clear_value x41
  split
  · rename_i z42 z43
    exact touch.refl _ _
  · rename_i z44 z45 z46 z47
    extract_lets x48
    clear_value x48
    refine touch.ite ?_ ?_
    · refine touch.step ?_ (State.setLink_touch ..) rfl
      exact touch.refl _ _
    · refine touch.step ?_ (State.setLink_touch ..) rfl
      exact touch.refl _ _

theorem State.formSlot_touch : ∀ a0 a1 a2, touch 0x4000010000000000040 a0 (State.formSlot a0 a1 a2) := by
  intro a0 a1 a2
  unfold State.formSlot
  extract_lets x41 x42 x43 x44 x45 x46 x47
  clear_value x41 x42 x43 x44 x45 x46
  have h48 : touch 0x4000010000000000040 a0 x47 := by
    unfold x47
    refine touch.foldl ?_ ?_
    · exact touch.refl _ _
    · intro u49 y50 h51
      refine touch.step ?_ (State.setLaneSt_touch ..) rfl
      exact h51
  clear_value x47
  refine touch.ite ?_ ?_
  · exact touch.refl _ _
  · refine touch.step ?_ (State.emit_touch ..) rfl
    refine touch.step ?_ (State.countFlitSlot_touch ..) rfl
    exact h48

theorem State.takeSlots_touch : ∀ a0 a1 a2 a3, touch 0x38000047800c6d8102000620000004000040000100000406000e0 a0 (State.takeSlots a0 a1 a2 a3) := by
  intro a0 a1 a2 a3
  unfold State.takeSlots
  split
  · rename_i z41 z42 z43 z44
    have h45 : touch 0x38000047800c6d8102000620000004000040000100000406000e0 a0 z42 := by
      refine touch.ofEq z44 ?_
      refine touch.step ?_ (State.crossLane_touch ..) rfl
      exact touch.refl _ _
    extract_lets x46 x47 x48 x49
    clear_value x46 x47 x48 x49
    split
    · rename_i z50 z51 z52 z53 z54 z55
      extract_lets x56 x57 x58
      clear_value x57
      have h59 : touch 0x38000047800c6d8102000620000004000040000100000406000e0 a0 x56 := by
        unfold x56
        refine touch.step ?_ (State.setLaneSt_touch ..) rfl
        exact h45
      have h60 : touch 0x38000047800c6d8102000620000004000040000100000406000e0 a0 x58 := by
        unfold x58
        refine touch.step ?_ (State.applyRxMask_touch ..) rfl
        refine touch.step ?_ (State.setLink_touch ..) rfl
        exact h59
      clear_value x56 x58
      refine touch.ite ?_ ?_
      · exact h59
      · refine touch.step ?_ (State.formSlot_touch ..) rfl
        refine touch.step ?_ (State.formSlot_touch ..) rfl
        exact h60
    · rename_i z61 z62 z63
      exact h45

theorem State.alignDelivered_touch : ∀ a0 a1, touch 0x38000047800c6d8102000620000004000040000100000406000e0 a0 (State.alignDelivered a0 a1) := by
  intro a0 a1
  unfold State.alignDelivered
  split
  · rename_i z41 z42 z43 z44 z45
    refine touch.step ?_ (State.takeSlots_touch ..) rfl
    exact touch.refl _ _
  · rename_i z46 z47
    exact touch.refl _ _

theorem State.readData_touch : ∀ a0 a1 a2 a3, touch 0x3800000000046d8000000620000004000000000000000006000a0 a0 (State.readData a0 a1 a2 a3).1 := by
  intro a0 a1 a2 a3
  unfold State.readData
  extract_lets x41
  clear_value x41
  refine touch.fstIte ?_ ?_
  · refine touch.fstMk ?_
    refine touch.step ?_ (State.raise_touch ..) rfl
    exact touch.refl _ _
  · refine touch.fstIte ?_ ?_
    · refine touch.fstMk ?_
      refine touch.step ?_ (State.raise_touch ..) rfl
      exact touch.refl _ _
    · refine touch.fstMk ?_
      exact touch.refl _ _

theorem State.putData_touch : ∀ a0 a1 a2 a3 a4, touch 0x10000000000000000000000048000000000000 a0 (State.putData a0 a1 a2 a3 a4) := by
  intro a0 a1 a2 a3 a4
  unfold State.putData
  refine touch.step ?_ (State.putEngine_touch ..) rfl
  exact touch.refl _ _

theorem State.illegal_touch : ∀ a0 a1, touch 0x3800000000046d81000006200000040000000004a0000006000a0 a0 (State.illegal a0 a1) := by
  intro a0 a1
  unfold State.illegal
  refine touch.step ?_ (State.abandon_touch ..) rfl
  exact touch.refl _ _

theorem State.announceOn_touch : ∀ a0 a1, touch 0x400000000 a0 (State.announceOn a0 a1) := by
  intro a0 a1
  unfold State.announceOn
  extract_lets x41 x42 x43
  clear_value x41 x42 x43
  refine touch.foldl ?_ ?_
  · exact touch.refl _ _
  · intro u44 y45 h46
    extract_lets x47
    clear_value x47
    refine touch.step ?_ (touch.upd_waiting ..) rfl
    exact h46

theorem State.answerBarge_touch : ∀ a0 a1 a2 a3 a4, touch 0x3c3200001805ed810000062000800c0000006801007df086000f0 a0 (State.answerBarge a0 a1 a2 a3 a4) := by
  intro a0 a1 a2 a3 a4
  unfold State.answerBarge
  refine touch.ite ?_ ?_
  · refine touch.step ?_ (State.sendNear_touch ..) rfl
    exact touch.refl _ _
  · split
    · rename_i z41 z42 z43
      refine touch.ite ?_ ?_
      · refine touch.ite ?_ ?_
        · refine touch.step ?_ (State.lateAnswer_touch ..) rfl
          refine touch.step ?_ (State.dropOutstanding_touch ..) rfl
          exact touch.refl _ _
        · exact touch.refl _ _
      · refine touch.ite ?_ ?_
        · refine touch.step ?_ (State.sendAnswer_touch ..) rfl
          refine touch.step ?_ (State.dropOutstanding_touch ..) rfl
          exact touch.refl _ _
        · refine touch.step ?_ (State.sendAnswer_touch ..) rfl
          exact touch.refl _ _
    · rename_i z44 z45
      refine touch.step ?_ (State.sendAnswer_touch ..) rfl
      exact touch.refl _ _

theorem State.answerTlp_touch : ∀ a0 a1 a2 a3, touch 0x3800000000046d8000000620000004000000680000000006000e0 a0 (State.answerTlp a0 a1 a2 a3) := by
  intro a0 a1 a2 a3
  unfold State.answerTlp
  extract_lets x41 x42
  have h43 : touch 0x3800000000046d8000000620000004000000680000000006000e0 a0 x41 := by
    unfold x41
    refine touch.step ?_ (State.sendTlp_touch ..) rfl
    exact touch.refl _ _
  have h44 : touch 0x3800000000046d8000000620000004000000680000000006000e0 a0 x42 := by
    unfold x42
    refine touch.step ?_ (State.logAer_touch ..) rfl
    exact h43
  clear_value x41 x42
  refine touch.ite ?_ ?_
  · refine touch.step ?_ (State.raise_touch ..) rfl
    exact h44
  · exact h44

theorem State.applyBounds_touch : ∀ a0 a1 a2, touch 0x3801000000046d8000000620004004000000001002000006000a0 a0 (State.applyBounds a0 a1 a2) := by
  intro a0 a1 a2
  unfold State.applyBounds
  extract_lets x41 x42 x43 x44 x45 x46
  clear_value x41 x42 x43 x44
  have h47 : touch 0x3801000000046d8000000620004004000000001002000006000a0 a0 x45 := by
    unfold x45
    refine touch.step ?_ (touch.upd_bounds ..) rfl
    exact touch.refl _ _
  have h48 : touch 0x3801000000046d8000000620004004000000001002000006000a0 a0 x46 := by
    unfold x46
    refine touch.ite ?_ ?_
    · refine touch.step ?_ (State.raise_touch ..) rfl
      exact h47
    · exact h47
  clear_value x45 x46
  refine touch.ite ?_ ?_
  · exact h48
  · refine touch.step ?_ (State.republish_touch ..) rfl
    exact h48

theorem State.putProgram_touch : ∀ a0 a1 a2, touch 0x10000000000000000000000044000000000000 a0 (State.putProgram a0 a1 a2) := by
  intro a0 a1 a2
  unfold State.putProgram
  extract_lets x41 x42 x43 x44
  clear_value x41 x42 x43
  have h45 : touch 0x10000000000000000000000044000000000000 a0 x44 := by
    unfold x44
    refine touch.step ?_ (touch.upd_program_ecc ..) rfl
    exact touch.refl _ _
  clear_value x44
  refine touch.ite ?_ ?_
  · exact h45
  · refine touch.step ?_ (touch.DIE_EVT_INJECT ..) rfl
    exact h45

theorem State.loadEngines_touch : ∀ a0 a1, touch 0x1000000000000000000000004e000000000000 a0 (State.loadEngines a0 a1) := by
  intro a0 a1
  unfold State.loadEngines
  refine touch.foldl ?_ ?_
  · exact touch.refl _ _
  · intro u41 y42 h43
    extract_lets x44 x45 x46 x47
    clear_value x44 x47
    have h48 : touch 0x1000000000000000000000004e000000000000 a0 x45 := by
      unfold x45
      refine touch.step ?_ (touch.upd_dataMem ..) rfl
      exact h43
    have h49 : touch 0x1000000000000000000000004e000000000000 a0 x46 := by
      unfold x46
      refine touch.step ?_ (State.putProgram_touch ..) rfl
      exact h48
    clear_value x45 x46
    refine touch.ite ?_ ?_
    · refine touch.step ?_ (State.setEngine_touch ..) rfl
      exact h49
    · exact h49

theorem State.loadLane_touch : ∀ a0 a1, touch 0x3800000000000000000000000000000000000000000000 a0 (State.loadLane a0 a1) := by
  intro a0 a1
  unfold State.loadLane
  extract_lets x41
  have h42 : touch 0x3800000000000000000000000000000000000000000000 a0 x41 := by
    unfold x41
    refine touch.step ?_ (touch.LN_QUAL ..) rfl
    refine touch.step ?_ (touch.LN_QUAL ..) rfl
    refine touch.step ?_ (touch.LN_STATE ..) rfl
    exact touch.refl _ _
  clear_value x41
  refine touch.step ?_ (touch.LN_EYE ..) rfl
  refine touch.step ?_ (touch.LN_QUAL ..) rfl
  exact h42

theorem State.showStandby_touch : ∀ a0 a1, touch 0x80000000000000000000000000000000000000000000000000 a0 (State.showStandby a0 a1) := by
  intro a0 a1
  unfold State.showStandby
  refine touch.ite ?_ ?_
  · refine touch.step ?_ (touch.PORT_WAKE ..) rfl
    refine touch.step ?_ (touch.PORT_WAKE ..) rfl
    exact touch.refl _ _
  · exact touch.refl _ _

theorem State.loadPort_touch : ∀ a0 a1, touch 0x5040000000000000000000000000000000000000000000000 a0 (State.loadPort a0 a1) := by
  intro a0 a1
  unfold State.loadPort
  refine touch.ite ?_ ?_
  · refine touch.step ?_ (touch.PORT_BOND ..) rfl
    exact touch.refl _ _
  · extract_lets x41
    have h42 : touch 0x5040000000000000000000000000000000000000000000000 a0 x41 := by
      unfold x41
      refine touch.step ?_ (touch.PORT_PCIE ..) rfl
      exact touch.refl _ _
    clear_value x41
    refine touch.ite ?_ ?_
    · refine touch.step ?_ (touch.PORT_LOCK ..) rfl
      refine touch.step ?_ (touch.PORT_LOCK ..) rfl
      exact h42
    · exact h42

theorem State.setTotal_touch : ∀ a0 a1 a2, touch 0x10000000000000000000000000000100000000 a0 (State.setTotal a0 a1 a2) := by
  intro a0 a1 a2
  unfold State.setTotal
  refine touch.step ?_ (State.setLedger_touch ..) rfl
  exact touch.refl _ _

theorem State.portTotals_touch : ∀ a0 a1, touch 0x10000000000000000000000000000100000000 a0 (State.portTotals a0 a1) := by
  intro a0 a1
  unfold State.portTotals
  extract_lets x41 x42 x43 x44
  have h45 : touch 0x10000000000000000000000000000100000000 a0 x41 := by
    unfold x41
    refine touch.step ?_ (State.setTotal_touch ..) rfl
    refine touch.step ?_ (State.setTotal_touch ..) rfl
    exact touch.refl _ _
  have h46 : touch 0x10000000000000000000000000000100000000 a0 x42 := by
    unfold x42
    refine touch.ite ?_ ?_
    · refine touch.foldl ?_ ?_
      · exact h45
      · intro u47 y48 h49
        refine touch.step ?_ (State.setTotal_touch ..) rfl
        exact h49
    · exact h45
  have h50 : touch 0x10000000000000000000000000000100000000 a0 x43 := by
    unfold x43
    refine touch.step ?_ (State.setTotal_touch ..) rfl
    exact h46
  have h51 : touch 0x10000000000000000000000000000100000000 a0 x44 := by
    unfold x44
    refine touch.foldl ?_ ?_
    · exact h50
    · intro u52 y53 h54
      refine touch.step ?_ (State.setTotal_touch ..) rfl
      exact h54
  clear_value x41 x42 x43 x44
  refine touch.step ?_ (State.setTotal_touch ..) rfl
  exact h51

theorem State.initLedgers_touch : ∀ a0, touch 0x10000000000000000000000000000100000000 a0 (State.initLedgers a0) := by
  intro a0
  unfold State.initLedgers
  extract_lets x41 x42 x43
  have h44 : touch 0x10000000000000000000000000000100000000 a0 x41 := by
    unfold x41
    refine touch.step ?_ (touch.upd_ledgers ..) rfl
    exact touch.refl _ _
  have h45 : touch 0x10000000000000000000000000000100000000 a0 x42 := by
    unfold x42
    refine touch.foldl ?_ ?_
    · exact h44
    · intro u46 y47 h48
      refine touch.step ?_ (State.portTotals_touch ..) rfl
      exact h48
  have h49 : touch 0x10000000000000000000000000000100000000 a0 x43 := by
    unfold x43
    refine touch.foldl ?_ ?_
    · exact h45
    · intro u50 y51 h52
      refine touch.ite ?_ ?_
      · refine touch.step ?_ (State.setTotal_touch ..) rfl
        exact h52
      · exact h52
  clear_value x41 x42 x43
  refine touch.foldl ?_ ?_
  · exact h49
  · intro u53 y54 h55
    extract_lets x56
    have h57 : touch 0x10000000000000000000000000000100000000 a0 x56 := by
      unfold x56
      refine touch.foldl ?_ ?_
      · exact h55
      · intro u58 y59 h60
        refine touch.step ?_ (State.setTotal_touch ..) rfl
        exact h60
    clear_value x56
    refine touch.foldl ?_ ?_
    · exact h57
    · intro u61 y62 h63
      refine touch.step ?_ (State.setTotal_touch ..) rfl
      refine touch.step ?_ (State.setTotal_touch ..) rfl
      exact h63

theorem State.markRestoring_touch : ∀ a0 a1, touch 0x80000000 a0 (State.markRestoring a0 a1) := by
  intro a0 a1
  unfold State.markRestoring
  refine touch.step ?_ (touch.upd_modes ..) rfl
  exact touch.refl _ _

theorem State.takeTxMask_touch : ∀ a0 a1 a2, touch 0x380100c780046d8100000620004004000040001100005006000a0 a0 (State.takeTxMask a0 a1 a2) := by
  intro a0 a1 a2
  unfold State.takeTxMask
  extract_lets x41 x42 x43
  clear_value x41
  have h44 : touch 0x380100c780046d8100000620004004000040001100005006000a0 a0 x42 := by
    unfold x42
    refine touch.step ?_ (touch.PORT_BOND ..) rfl
    refine touch.step ?_ (touch.PORT_BOND ..) rfl
    exact touch.refl _ _
  have h45 : touch 0x380100c780046d8100000620004004000040001100005006000a0 a0 x43 := by
    unfold x43
    refine touch.foldl ?_ ?_
    · exact h44
    · intro u46 y47 h48
      extract_lets x49 x50 x51
      clear_value x49 x50
      have h52 : touch 0x380100c780046d8100000620004004000040001100005006000a0 a0 x51 := by
        unfold x51
        refine touch.step ?_ (State.setLaneSt_touch ..) rfl
        refine touch.step ?_ (State.initialTaps_touch ..) rfl
        exact h48
      clear_value x51
      refine touch.ite ?_ ?_
      · refine touch.ite ?_ ?_
        · refine touch.step ?_ (State.setSleep_touch ..) rfl
          exact h52
        · exact h52
      · refine touch.ite ?_ ?_
        · refine touch.step ?_ (State.setSleep_touch ..) rfl
          refine touch.step ?_ (State.setLaneSt_touch ..) rfl
          exact h48
        · exact h48
  clear_value x42 x43
  refine touch.ite ?_ ?_
  · exact touch.refl _ _
  · refine touch.ite ?_ ?_
    · refine touch.step ?_ (State.retrainPort_touch ..) rfl
      exact touch.refl _ _
    · refine touch.step ?_ (State.republish_touch ..) rfl
      exact h45

theorem State.applyTxMask_touch : ∀ a0 a1 a2, touch 0x380100c780046d8100000620004004000040001100005006000a0 a0 (State.applyTxMask a0 a1 a2) := by
  intro a0 a1 a2
  unfold State.applyTxMask
  extract_lets x41 x42 x43
  clear_value x41 x42
  have h44 : touch 0x380100c780046d8100000620004004000040001100005006000a0 a0 x43 := by
    unfold x43
    refine touch.step ?_ (State.setLink_touch ..) rfl
    exact touch.refl _ _
  clear_value x43
  refine touch.ite ?_ ?_
  · exact touch.refl _ _
  · refine touch.foldl ?_ ?_
    · exact h44
    · intro u45 y46 h47
      refine touch.step ?_ (State.takeTxMask_touch ..) rfl
      exact h47

theorem State.letGo_touch : ∀ a0 a1, touch 0x10000000000000000000000000000108000000 a0 (State.letGo a0 a1) := by
  intro a0 a1
  unfold State.letGo
  refine touch.step ?_ (State.endLive_touch ..) rfl
  refine touch.step ?_ (State.returnAll_touch ..) rfl
  exact touch.refl _ _

theorem State.pushItem_touch : ∀ a0 a1 a2 a3, touch 0x1000000000000000000000004a000000000000 a0 (State.pushItem a0 a1 a2 a3) := by
  intro a0 a1 a2 a3
  unfold State.pushItem
  extract_lets x41 x42
  clear_value x41
  have h43 : touch 0x1000000000000000000000004a000000000000 a0 x42 := by
    unfold x42
    refine touch.step ?_ (State.setEngine_touch ..) rfl
    exact touch.refl _ _
  clear_value x42
  refine touch.ite ?_ ?_
  · exact touch.refl _ _
  · refine touch.ite ?_ ?_
    · refine touch.step ?_ (State.nextItem_touch ..) rfl
      exact h43
    · exact h43

theorem State.badCodeword_touch : ∀ a0 a1 a2 a3, touch 0x383000100005ed8000000620000004000040000000000006000e0 a0 (State.badCodeword a0 a1 a2 a3) := by
  intro a0 a1 a2 a3
  unfold State.badCodeword
  extract_lets x41 x42
  clear_value x42
  have h43 : touch 0x383000100005ed8000000620000004000040000000000006000e0 a0 x41 := by
    unfold x41
    refine touch.step ?_ (State.countCl_touch ..) rfl
    refine touch.step ?_ (touch.LN_FEC_UNC ..) rfl
    exact touch.refl _ _
  clear_value x41
  split
  · rename_i z44 z45 z46 z47
    extract_lets x48
    have h49 : touch 0x383000100005ed8000000620000004000040000000000006000e0 a0 x48 := by
      unfold x48
      refine touch.step ?_ (State.raise_touch ..) rfl
      refine touch.step ?_ (State.setLaneSt_touch ..) rfl
      exact h43
    clear_value x48
    refine touch.step ?_ (State.emit_touch ..) rfl
    exact h49

theorem State.moveWindow_touch : ∀ a0 a1 a2, touch 0x4f00000100180010000000000000000002000000009b08000000 a0 (State.moveWindow a0 a1 a2) := by
  intro a0 a1 a2
  unfold State.moveWindow
  extract_lets x41 x42 x43 x44 x45
  clear_value x41 x42 x43
  have h46 : touch 0x4f00000100180010000000000000000002000000009b08000000 a0 x44 := by
    unfold x44
    refine touch.step ?_ (touch.WIN_STATE ..) rfl
    refine touch.step ?_ (touch.WIN_LIMIT ..) rfl
    refine touch.step ?_ (touch.WIN_BASE ..) rfl
    exact touch.refl _ _
  have h47 : touch 0x4f00000100180010000000000000000002000000009b08000000 a0 x45 := by
    unfold x45
    refine touch.step ?_ (touch.upd_beyond64 ..) rfl
    exact h46
  clear_value x44 x45
  refine touch.step ?_ (State.cancelStreams_touch ..) rfl
  exact h47

theorem State.moveVfs_touch : ∀ a0 a1 a2 a3 a4 a5, touch 0x4f00000100180010000000000000000002000000009b08000000 a0 (State.moveVfs a0 a1 a2 a3 a4 a5) := by
  intro a0 a1 a2 a3 a4 a5
  unfold State.moveVfs
  split
  · rename_i z41 z42
    exact touch.refl _ _
  · rename_i z43 z44 z45
    refine touch.foldl ?_ ?_
    · exact touch.refl _ _
    · intro u46 y47 h48
      refine touch.foldl ?_ ?_
      · exact h48
      · intro u49 y50 h51
        refine touch.step ?_ (State.moveWindow_touch ..) rfl
        exact h51

theorem State.barWrite_touch : ∀ a0 a1 a2 a3 a4 a5 a6 a7 a8, touch 0x4f00000100180010000000000000000002004000009b08000000 a0 (State.barWrite a0 a1 a2 a3 a4 a5 a6 a7 a8) := by
  intro a0 a1 a2 a3 a4 a5 a6 a7 a8
  unfold State.barWrite
  refine touch.ite ?_ ?_
  · exact touch.refl _ _
  · extract_lets x41 x42 x43 x44 x45 x46 x47 x48 x49
    clear_value x41 x43 x44 x45 x46 x47 x48 x49
    have h50 : touch 0x4f00000100180010000000000000000002004000009b08000000 a0 x42 := by
      unfold x42
      refine touch.step ?_ (touch.upd_virt ..) rfl
      exact touch.refl _ _
    clear_value x42
    refine touch.ite ?_ ?_
    · refine touch.step ?_ (State.moveVfs_touch ..) rfl
      exact h50
    · refine touch.foldl ?_ ?_
      · exact h50
      · intro u51 y52 h53
        refine touch.step ?_ (State.moveWindow_touch ..) rfl
        exact h53

theorem State.bargeFromLink_touch : ∀ a0 a1 a2 a3 a4 a5, touch 0x3c3210001805ed810000062000800c0000006801007ff086000f0 a0 (State.bargeFromLink a0 a1 a2 a3 a4 a5) := by
  intro a0 a1 a2 a3 a4 a5
  unfold State.bargeFromLink
  extract_lets x41 x42 x43 x44 x45 x46
  clear_value x41 x42 x43 x44 x45
  have h47 : touch 0x3c3210001805ed810000062000800c0000006801007ff086000f0 a0 x46 := by
    unfold x46
    refine touch.ite ?_ ?_
    · refine touch.step ?_ (State.endAsk_touch ..) rfl
      exact touch.refl _ _
    · refine touch.step ?_ (touch.upd_device ..) rfl
      exact touch.refl _ _
  clear_value x46
  refine touch.step ?_ (State.answerBarge_touch ..) rfl
  exact h47

theorem State.nextRequest_touch : ∀ a0 a1, touch 0x4000000000000000010 a0 (State.nextRequest a0 a1) := by
  intro a0 a1
  unfold State.nextRequest
  refine touch.ite ?_ ?_
  · extract_lets x41
    clear_value x41
    refine touch.step ?_ (State.tookFree_touch ..) rfl
    refine touch.step ?_ (State.setLaneSt_touch ..) rfl
    exact touch.refl _ _
  · exact touch.refl _ _

theorem State.sendSlot_touch : ∀ a0 a1 a2, touch 0x38000000000c6d8102000620000004000040000000000406000e0 a0 (State.sendSlot a0 a1 a2) := by
  intro a0 a1 a2
  unfold State.sendSlot
  split
  · rename_i z41 z42 z43 z44
    have h45 : touch 0x38000000000c6d8102000620000004000040000000000406000e0 a0 z42 := by
      refine touch.ofEq z44 ?_
      refine touch.step ?_ (State.crossLane_touch ..) rfl
      exact touch.refl _ _
    extract_lets x46 x47
    clear_value x46 x47
    refine touch.ite ?_ ?_
    · refine touch.step ?_ (State.setLaneSt_touch ..) rfl
      exact h45
    · split
      · rename_i z48 z49 z50 z51
        extract_lets x52
        clear_value x52
        refine touch.step ?_ (State.emit_touch ..) rfl
        refine touch.step ?_ (State.setLaneSt_touch ..) rfl
        exact h45

theorem State.outsideSlot_touch : ∀ a0 a1 a2, touch 0x38000000000c6d8102000620000004000040000000000406000f0 a0 (State.outsideSlot a0 a1 a2) := by
  intro a0 a1 a2
  unfold State.outsideSlot
  extract_lets x41 x42 x43 x44
  clear_value x41 x43 x44
  have h45 : touch 0x38000000000c6d8102000620000004000040000000000406000f0 a0 x42 := by
    unfold x42
    refine touch.foldl ?_ ?_
    · exact touch.refl _ _
    · intro u46 y47 h48
      refine touch.step ?_ (State.nextRequest_touch ..) rfl
      exact h48
  clear_value x42
  refine touch.foldl ?_ ?_
  · exact h45
  · intro u49 y50 h51
    refine touch.step ?_ (State.sendSlot_touch ..) rfl
    exact h51

theorem State.timeBlocks_touch : ∀ a0 a1, touch 0x10000000000000 a0 (State.timeBlocks a0 a1).1 := by
  intro a0 a1
  unfold State.timeBlocks
  extract_lets x41 x42 x43 x44 x45 x46 x47 x48
  clear_value x41 x42 x43 x45 x46 x47 x48
  clear_value x44
  refine touch.fstMk ?_
  refine touch.step ?_ (State.setLink_touch ..) rfl
  exact touch.refl _ _

theorem State.formLanemap_touch : ∀ a0 a1 a2, touch 0x10000000000000 a0 (State.formLanemap a0 a1 a2).1 := by
  intro a0 a1 a2
  unfold State.formLanemap
  extract_lets x41 x42 x43
  clear_value x41 x42 x43
  split
  · rename_i z44 z45 z46 z47 z48
    refine touch.fstMk ?_
    refine touch.step ?_ (State.setLink_touch ..) rfl
    exact touch.refl _ _

theorem State.sentCrc_touch : ∀ a0 a1 a2, touch 0x10000000000000000000000000000000000000 a0 (State.sentCrc a0 a1 a2).1 := by
  intro a0 a1 a2
  unfold State.sentCrc
  refine touch.fstIte ?_ ?_
  · refine touch.fstMk ?_
    refine touch.step ?_ (State.injectUsed_touch ..) rfl
    exact touch.refl _ _
  · refine touch.fstMk ?_
    exact touch.refl _ _

theorem State.sendFlit_touch : ∀ a0 a1 a2 a3 a4 a5 a6, touch 0x10000000000000000000000010000000000040 a0 (State.sendFlit a0 a1 a2 a3 a4 a5 a6) := by
  intro a0 a1 a2 a3 a4 a5 a6
  unfold State.sendFlit
  extract_lets x41 x42
  clear_value x41 x42
  split
  · rename_i z43 z44 z45 z46
    have h47 : touch 0x10000000000000000000000010000000000040 a0 z44 := by
      refine touch.ofEq z46 ?_
      refine touch.step ?_ (State.sentCrc_touch ..) rfl
      exact touch.refl _ _
    refine touch.step ?_ (State.emit_touch ..) rfl
    refine touch.step ?_ (State.setLink_touch ..) rfl
    exact h47

theorem State.restore_touch : ∀ a0 a1 a2, touch 0x3801000000046d8000000620004004000000001000000806000a0 a0 (State.restore a0 a1 a2) := by
  intro a0 a1 a2
  unfold State.restore
  refine touch.ite ?_ ?_
  · extract_lets x41 x42
    clear_value x42
    have h43 : touch 0x3801000000046d8000000620004004000000001000000806000a0 a0 x41 := by
      unfold x41
      refine touch.step ?_ (State.republish_touch ..) rfl
      exact touch.refl _ _
    clear_value x41
    refine touch.ite ?_ ?_
    · refine touch.step ?_ (touch.upd_modes ..) rfl
      exact h43
    · exact h43
  · refine touch.step ?_ (State.republish_touch ..) rfl
    exact touch.refl _ _

theorem State.initDone_touch : ∀ a0 a1, touch 0x3801008000046d8100000620004004000000001100005806000a0 a0 (State.initDone a0 a1) := by
  intro a0 a1
  unfold State.initDone
  extract_lets x41 x42 x43
  clear_value x42 x43
  have h44 : touch 0x3801008000046d8100000620004004000000001100005806000a0 a0 x41 := by
    unfold x41
    exact touch.refl _ _
  clear_value x41
  split
  · rename_i z45 z46
    exact h44
  · rename_i z47 z48 z49
    refine touch.ite ?_ ?_
    · exact h44
    · extract_lets x50 x51 x52
      clear_value x52
      have h53 : touch 0x3801008000046d8100000620004004000000001100005806000a0 a0 x50 := by
        unfold x50
        refine touch.ite ?_ ?_
        · exact h44
        · refine touch.foldl ?_ ?_
          · exact h44
          · intro u54 y55 h56
            refine touch.step ?_ (State.setTotal_touch ..) rfl
            refine touch.step ?_ (State.setTotal_touch ..) rfl
            exact h56
      have h57 : touch 0x3801008000046d8100000620004004000000001100005806000a0 a0 x51 := by
        unfold x51
        refine touch.step ?_ (State.setLive_touch ..) rfl
        refine touch.step ?_ (touch.PORT_LINK ..) rfl
        exact h53
      clear_value x50 x51
      refine touch.step ?_ (State.routesMoved_touch ..) rfl
      refine touch.step ?_ (State.restore_touch ..) rfl
      refine touch.step ?_ (State.setLink_touch ..) rfl
      exact h57

theorem State.resend_touch : ∀ a0 a1 a2, touch 0x300200000180010000000000000800000000010000000000040 a0 (State.resend a0 a1 a2) := by
  intro a0 a1 a2
  unfold State.resend
  extract_lets x41 x42 x43 x44
  clear_value x41
  have h45 : touch 0x300200000180010000000000000800000000010000000000040 a0 x42 := by
    unfold x42
    refine touch.step ?_ (State.setLink_touch ..) rfl
    exact touch.refl _ _
  have h46 : touch 0x300200000180010000000000000800000000010000000000040 a0 x43 := by
    unfold x43
    refine touch.step ?_ (State.countPort_touch ..) rfl
    refine touch.step ?_ (touch.PORT_REPLAYED ..) rfl
    exact h45
  have h47 : touch 0x300200000180010000000000000800000000010000000000040 a0 x44 := by
    unfold x44
    refine touch.step ?_ (State.moveSlots_touch ..) rfl
    refine touch.step ?_ (State.countCl_touch ..) rfl
    exact h46
  clear_value x42 x43 x44
  refine touch.step ?_ (State.sendFlit_touch ..) rfl
  exact h47

theorem State.showHeld_touch : ∀ a0 a1, touch 0x80000000010000000000000000000000000000100000000 a0 (State.showHeld a0 a1) := by
  intro a0 a1
  unfold State.showHeld
  extract_lets x41 x42 x43 x44
  clear_value x41 x42 x43
  have h45 : touch 0x80000000010000000000000000000000000000100000000 a0 x44 := by
    unfold x44
    refine touch.ite ?_ ?_
    · refine touch.step ?_ (State.issue_touch ..) rfl
      exact touch.refl _ _
    · refine touch.ite ?_ ?_
      · refine touch.step ?_ (State.returnAll_touch ..) rfl
        exact touch.refl _ _
      · exact touch.refl _ _
  clear_value x44
  refine touch.step ?_ (touch.PORT_LINK ..) rfl
  exact h45

theorem State.sendSequenced_touch : ∀ a0 a1 a2 a3 a4 a5, touch 0x80000000010000000000000000000000010000100000040 a0 (State.sendSequenced a0 a1 a2 a3 a4 a5) := by
  intro a0 a1 a2 a3 a4 a5
  unfold State.sendSequenced
  extract_lets x41 x42
  clear_value x41 x42
  split
  · rename_i z43 z44 z45 z46
    have h47 : touch 0x80000000010000000000000000000000010000100000040 a0 z44 := by
      refine touch.ofEq z46 ?_
      refine touch.step ?_ (State.writeItem_touch ..) rfl
      exact touch.refl _ _
    extract_lets x48 x49 x50
    clear_value x48
    have h51 : touch 0x80000000010000000000000000000000010000100000040 a0 x49 := by
      unfold x49
      refine touch.step ?_ (State.setLink_touch ..) rfl
      exact h47
    have h52 : touch 0x80000000010000000000000000000000010000100000040 a0 x50 := by
      unfold x50
      refine touch.step ?_ (State.showHeld_touch ..) rfl
      refine touch.step ?_ (touch.PORT_LINK ..) rfl
      exact h51
    clear_value x49 x50
    refine touch.step ?_ (State.sendFlit_touch ..) rfl
    exact h52

theorem State.sendTally_touch : ∀ a0 a1, touch 0x80000000010000000000000000000000010000100000040 a0 (State.sendTally a0 a1) := by
  intro a0 a1
  unfold State.sendTally
  extract_lets x41 x42
  clear_value x42
  have h43 : touch 0x80000000010000000000000000000000010000100000040 a0 x41 := by
    unfold x41
    refine touch.step ?_ (State.sendSequenced_touch ..) rfl
    exact touch.refl _ _
  clear_value x41
  refine touch.step ?_ (State.setLink_touch ..) rfl
  exact h43

theorem State.sendPackets_touch : ∀ a0 a1, touch 0x383200800005ed8100000620004004000000000100001086000e0 a0 (State.sendPackets a0 a1) := by
  intro a0 a1
  unfold State.sendPackets
  extract_lets x41 x42 x43 x44 x45
  clear_value x41 x42 x43
  have h46 : touch 0x383200800005ed8100000620004004000000000100001086000e0 a0 x44 := by
    unfold x44
    refine touch.step ?_ (State.setLink_touch ..) rfl
    exact touch.refl _ _
  have h47 : touch 0x383200800005ed8100000620004004000000000100001086000e0 a0 x45 := by
    unfold x45
    refine touch.step ?_ (State.countPort_touch ..) rfl
    refine touch.step ?_ (State.sendSequenced_touch ..) rfl
    exact h46
  clear_value x44 x45
  refine touch.foldl ?_ ?_
  · exact h47
  · intro u48 y49 h50
    refine touch.step ?_ (State.letGo_touch ..) rfl
    refine touch.step ?_ (State.countMiss_touch ..) rfl
    exact h50

theorem State.sendOne_touch : ∀ a0 a1, touch 0x3c3706c79805ed9d0000062000c80c1000c068171a7df886000f0 a0 (State.sendOne a0 a1) := by
  intro a0 a1
  unfold State.sendOne
  extract_lets x41 x42 x43 x44
  clear_value x41 x42 x44
  have h45 : touch 0x3c3706c79805ed9d0000062000c80c1000c068171a7df886000f0 a0 x43 := by
    unfold x43
    refine touch.step ?_ (State.sendFlit_touch ..) rfl
    exact touch.refl _ _
  clear_value x43
  refine touch.ite ?_ ?_
  · refine touch.ite ?_ ?_
    · refine touch.step ?_ (State.initDone_touch ..) rfl
      refine touch.step ?_ (State.setLink_touch ..) rfl
      exact h45
    · exact h45
  · split
    · rename_i z46 z47 z48
      extract_lets x49
      have h50 : touch 0x3c3706c79805ed9d0000062000c80c1000c068171a7df886000f0 a0 x49 := by
        unfold x49
        refine touch.ite ?_ ?_
        · exact touch.refl _ _
        · refine touch.step ?_ (State.raiseMask_touch ..) rfl
          exact touch.refl _ _
      clear_value x49
      refine touch.ite ?_ ?_
      · refine touch.step ?_ (State.bfLinkDown_touch ..) rfl
        exact h50
      · refine touch.step ?_ (State.resend_touch ..) rfl
        exact h50
    · rename_i z51 z52
      refine touch.ite ?_ ?_
      · refine touch.step ?_ (State.sendTally_touch ..) rfl
        exact touch.refl _ _
      · refine touch.ite ?_ ?_
        · refine touch.step ?_ (State.sendPackets_touch ..) rfl
          exact touch.refl _ _
        · refine touch.step ?_ (State.sendFlit_touch ..) rfl
          exact touch.refl _ _

theorem State.stripe_touch : ∀ a0 a1 a2, touch 0x38000000000c6d8102000620000004000040000000000406000e0 a0 (State.stripe a0 a1 a2) := by
  intro a0 a1 a2
  unfold State.stripe
  extract_lets x41 x42 x43
  clear_value x41 x42 x43
  refine touch.foldl ?_ ?_
  · exact touch.refl _ _
  · intro u44 y45 h46
    refine touch.step ?_ (State.sendSlot_touch ..) rfl
    exact h46

theorem State.nextSlot_touch : ∀ a0 a1, touch 0x3c3706c7980ded9d0200062000c80c1000c068171a7dfc86000f0 a0 (State.nextSlot a0 a1) := by
  intro a0 a1
  unfold State.nextSlot
  extract_lets x41 x42 x43 x44 x45 x46 x47 x48
  clear_value x41 x42 x45 x46 x47
  have h49 : touch 0x3c3706c7980ded9d0200062000c80c1000c068171a7dfc86000f0 a0 x43 := by
    unfold x43
    refine touch.step ?_ (State.applyTxMask_touch ..) rfl
    refine touch.step ?_ (State.setLink_touch ..) rfl
    exact touch.refl _ _
  have h50 : touch 0x3c3706c7980ded9d0200062000c80c1000c068171a7dfc86000f0 a0 x44 := by
    unfold x44
    refine touch.step ?_ (State.outsideSlot_touch ..) rfl
    exact h49
  have h51 : touch 0x3c3706c7980ded9d0200062000c80c1000c068171a7dfc86000f0 a0 x48 := by
    unfold x48
    refine touch.foldl ?_ ?_
    · exact h50
    · intro u52 y53 h54
      refine touch.step ?_ (State.sendOne_touch ..) rfl
      exact h54
  clear_value x43 x44 x48
  split
  · rename_i z55
    exact h50
  · rename_i z56 z57 z58
    refine touch.ite ?_ ?_
    · exact h50
    · refine touch.ite ?_ ?_
      · split
        · rename_i z59 z60 z61 z62
          have h63 : touch 0x3c3706c7980ded9d0200062000c80c1000c068171a7dfc86000f0 a0 z60 := by
            refine touch.ofEq z62 ?_
            refine touch.step ?_ (State.timeBlocks_touch ..) rfl
            exact h50
          refine touch.foldl ?_ ?_
          · exact h63
          · intro u64 y65 h66
            refine touch.step ?_ (State.sendSlot_touch ..) rfl
            exact h66
      · refine touch.ite ?_ ?_
        · split
          · rename_i z67 z68 z69 z70
            have h71 : touch 0x3c3706c7980ded9d0200062000c80c1000c068171a7dfc86000f0 a0 z68 := by
              refine touch.ofEq z70 ?_
              refine touch.step ?_ (State.formLanemap_touch ..) rfl
              exact h50
            refine touch.foldl ?_ ?_
            · exact h71
            · intro u72 y73 h74
              refine touch.step ?_ (State.sendSlot_touch ..) rfl
              exact h74
        · refine touch.ite ?_ ?_
          · refine touch.step ?_ (State.stripe_touch ..) rfl
            exact h51
          · refine touch.foldl ?_ ?_
            · exact h50
            · intro u75 y76 h77
              refine touch.step ?_ (State.sendSlot_touch ..) rfl
              exact h77

theorem State.beginPair_touch : ∀ a0 a1, touch 0x3c3706c7980ded9d0200062000c80c1000c068171a7dfc86000f0 a0 (State.beginPair a0 a1) := by
  intro a0 a1
  unfold State.beginPair
  refine touch.ite ?_ ?_
  · refine touch.step ?_ (State.nextSlot_touch ..) rfl
    exact touch.refl _ _
  · exact touch.refl _ _

theorem State.persist_touch : ∀ a0 a1, touch 0x1800 a0 (State.persist a0 a1) := by
  intro a0 a1
  unfold State.persist
  refine touch.step ?_ (touch.upd_nvs_dir ..) rfl
  exact touch.refl _ _

theorem State.closeRecord_touch : ∀ a0 a1, touch 0x3800000000006d8000000620000000000000000000000006018a0 a0 (State.closeRecord a0 a1) := by
  intro a0 a1
  unfold State.closeRecord
  extract_lets x41 x42 x43 x44 x45
  clear_value x41 x42
  have h46 : touch 0x3800000000006d8000000620000000000000000000000006018a0 a0 x43 := by
    unfold x43
    refine touch.step ?_ (touch.upd_records ..) rfl
    exact touch.refl _ _
  have h47 : touch 0x3800000000006d8000000620000000000000000000000006018a0 a0 x44 := by
    unfold x44
    refine touch.step ?_ (State.offer_touch ..) rfl
    exact h46
  have h48 : touch 0x3800000000006d8000000620000000000000000000000006018a0 a0 x45 := by
    unfold x45
    refine touch.ite ?_ ?_
    · refine touch.step ?_ (State.persist_touch ..) rfl
      exact h47
    · exact h47
  clear_value x43 x44 x45
  refine touch.ite ?_ ?_
  · refine touch.step ?_ (State.sendEvents_touch ..) rfl
    exact h48
  · exact h48

theorem State.halt_touch : ∀ a0 a1, touch 0x3c3714c79805ed9d0000062000c80c1000c068171a7df886018f0 a0 (State.halt a0 a1) := by
  intro a0 a1
  unfold State.halt
  refine touch.ite ?_ ?_
  · exact touch.refl _ _
  · extract_lets x41 x42 x43
    have h44 : touch 0x3c3714c79805ed9d0000062000c80c1000c068171a7df886018f0 a0 x41 := by
      unfold x41
      refine touch.foldl ?_ ?_
      · exact touch.refl _ _
      · intro u45 y46 h47
        refine touch.step ?_ (State.closeRecord_touch ..) rfl
        exact h47
    have h48 : touch 0x3c3714c79805ed9d0000062000c80c1000c068171a7df886018f0 a0 x42 := by
      unfold x42
      refine touch.step ?_ (touch.PKG_MODE ..) rfl
      exact h44
    have h49 : touch 0x3c3714c79805ed9d0000062000c80c1000c068171a7df886018f0 a0 x43 := by
      unfold x43
      refine touch.step ?_ (State.emit_touch ..) rfl
      refine touch.step ?_ (State.enterMode_touch ..) rfl
      exact h48
    clear_value x41 x42 x43
    refine touch.foldl ?_ ?_
    · exact h49
    · intro u50 y51 h52
      extract_lets x53
      have h54 : touch 0x3c3714c79805ed9d0000062000c80c1000c068171a7df886018f0 a0 x53 := by
        unfold x53
        refine touch.ite ?_ ?_
        · refine touch.step ?_ (State.bfLinkDown_touch ..) rfl
          exact h52
        · refine touch.step ?_ (State.pcieDown_touch ..) rfl
          refine touch.step ?_ (State.ingressDiscard_touch ..) rfl
          exact h52
      clear_value x53
      refine touch.step ?_ (State.quietPort_touch ..) rfl
      exact h54

theorem State.bootHalt_touch : ∀ a0, touch 0x3c3714c79805ed9d0000062000c80c1000c068171a7df886018f0 a0 (State.bootHalt a0) := by
  intro a0
  unfold State.bootHalt
  refine touch.step ?_ (State.halt_touch ..) rfl
  refine touch.step ?_ (State.tookFree_touch ..) rfl
  exact touch.refl _ _

theorem State.nextSource_touch : ∀ a0, touch 0x8000000000000000000000000c000 a0 (State.nextSource a0) := by
  intro a0
  unfold State.nextSource
  split
  · rename_i z41 z42
    refine touch.step ?_ (touch.upd_loadOrder ..) rfl
    exact touch.refl _ _
  · rename_i z43 z44 z45
    refine touch.step ?_ (touch.PKG_SBS_STATUS ..) rfl
    refine touch.step ?_ (touch.upd_loadOrder ..) rfl
    exact touch.refl _ _
  · rename_i z46 z47 z48 z49 z50
    refine touch.step ?_ (touch.PKG_SBS_STATUS ..) rfl
    refine touch.step ?_ (touch.upd_loading_loadOrder ..) rfl
    exact touch.refl _ _

theorem State.chooseSource_touch : ∀ a0, touch 0x3800000000046d8000000620c000040000000000000000060c0a0 a0 (State.chooseSource a0) := by
  intro a0
  unfold State.chooseSource
  extract_lets x41 x42 x43 x44 x45 x46 x47
  clear_value x41 x46
  have h48 : touch 0x3800000000046d8000000620c000040000000000000000060c0a0 a0 x42 := by
    unfold x42
    refine touch.step ?_ (touch.PKG_SBS_CTL ..) rfl
    exact touch.refl _ _
  clear_value x42
  refine touch.ite ?_ ?_
  · unfold x45
    refine touch.step ?_ (State.nextSource_touch ..) rfl
    refine touch.step ?_ (touch.upd_loadOrder ..) rfl
    exact h48
  · refine touch.ite ?_ ?_
    · unfold x45
      refine touch.step ?_ (State.nextSource_touch ..) rfl
      refine touch.step ?_ (touch.upd_loadOrder ..) rfl
      exact h48
    · refine touch.ite ?_ ?_
      · unfold x45
        refine touch.step ?_ (State.nextSource_touch ..) rfl
        refine touch.step ?_ (touch.upd_loadOrder ..) rfl
        exact h48
      · unfold x45
        refine touch.step ?_ (State.nextSource_touch ..) rfl
        refine touch.step ?_ (touch.upd_loadOrder ..) rfl
        refine touch.step ?_ (State.imageRefused_touch ..) rfl
        exact h48

theorem State.recoverSeal_touch : ∀ a0, touch 0x900 a0 (State.recoverSeal a0) := by
  intro a0
  unfold State.recoverSeal
  refine touch.ite ?_ ?_
  · exact touch.refl _ _
  · extract_lets x41 x42 x43 x44
    clear_value x41 x42 x43 x44
    refine touch.ite ?_ ?_
    · exact touch.refl _ _
    · refine touch.ite ?_ ?_
      · refine touch.step ?_ (touch.upd_fuses_nvs ..) rfl
        exact touch.refl _ _
      · split
        · rename_i z45 z46 z47
          refine touch.step ?_ (touch.upd_nvs ..) rfl
          exact touch.refl _ _
        · rename_i z48 z49
          refine touch.step ?_ (touch.upd_fuses_nvs ..) rfl
          exact touch.refl _ _

theorem State.startKeeper_touch : ∀ a0 a1 a2, touch 0x80000000000000000000000 a0 (State.startKeeper a0 a1 a2) := by
  intro a0 a1 a2
  unfold State.startKeeper
  extract_lets x41
  refine touch.step ?_ (touch.upd_keeperRun ..) rfl
  exact touch.refl _ _

theorem State.startKeepers_touch : ∀ a0 a1, touch 0x80000000000000000000000 a0 (State.startKeepers a0 a1) := by
  intro a0 a1
  unfold State.startKeepers
  refine touch.foldl ?_ ?_
  · exact touch.refl _ _
  · intro u41 y42 h43
    refine touch.step ?_ (State.startKeeper_touch ..) rfl
    exact h43

theorem State.bootBank_touch : ∀ a0 a1 a2 a3, touch 0x3c3714c79805ed9d00000620c0e80c9000c068171a7df8870d9f0 a0 (State.bootBank a0 a1 a2 a3) := by
  intro a0 a1 a2 a3
  unfold State.bootBank
  extract_lets x41 x42 x43 x44 x45
  have h46 : touch 0x3c3714c79805ed9d00000620c0e80c9000c068171a7df8870d9f0 a0 x41 := by
    unfold x41
    refine touch.step ?_ (touch.PKG_FW ..) rfl
    refine touch.step ?_ (touch.PKG_FW ..) rfl
    refine touch.step ?_ (touch.PKG_FW ..) rfl
    refine touch.step ?_ (touch.PKG_FW ..) rfl
    exact touch.refl _ _
  have h47 : touch 0x3c3714c79805ed9d00000620c0e80c9000c068171a7df8870d9f0 a0 x42 := by
    unfold x42
    refine touch.step ?_ (touch.PKG_FW ..) rfl
    exact h46
  have h48 : touch 0x3c3714c79805ed9d00000620c0e80c9000c068171a7df8870d9f0 a0 x43 := by
    unfold x43
    refine touch.step ?_ (State.extendMr_touch ..) rfl
    exact h47
  have h49 : touch 0x3c3714c79805ed9d00000620c0e80c9000c068171a7df8870d9f0 a0 x44 := by
    unfold x44
    refine touch.foldl ?_ ?_
    · exact h48
    · intro u50 y51 h52
      refine touch.step ?_ (State.extendMr_touch ..) rfl
      exact h52
  have h53 : touch 0x3c3714c79805ed9d00000620c0e80c9000c068171a7df8870d9f0 a0 x45 := by
    unfold x45
    refine touch.step ?_ (State.extendMr_touch ..) rfl
    exact h49
  clear_value x41 x42 x43 x44 x45
  refine touch.ite ?_ ?_
  · refine touch.step ?_ (State.bootHalt_touch ..) rfl
    exact h48
  · refine touch.step ?_ (State.chooseSource_touch ..) rfl
    refine touch.step ?_ (State.enterMode_touch ..) rfl
    refine touch.step ?_ (State.recoverSeal_touch ..) rfl
    refine touch.step ?_ (State.startKeepers_touch ..) rfl
    exact h53

theorem State.sendConfig_touch : ∀ a0 a1 a2 a3 a4, touch 0x10000000000000000000000000001b00000000 a0 (State.sendConfig a0 a1 a2 a3 a4) := by
  intro a0 a1 a2 a3 a4
  unfold State.sendConfig
  extract_lets x41
  clear_value x41
  split
  · rename_i z42 z43 z44 z45
    have h46 : touch 0x10000000000000000000000000001b00000000 a0 z43 := by
      refine touch.ofEq z45 ?_
      refine touch.step ?_ (State.newId_touch ..) rfl
      exact touch.refl _ _
    refine touch.step ?_ (State.accept_touch ..) rfl
    exact h46

theorem State.boundConfig_touch : ∀ a0 a1 a2 a3, touch 0x3cf000001005ed81000006200000040000206c000009b086000e0 a0 (State.boundConfig a0 a1 a2 a3) := by
  intro a0 a1 a2 a3
  unfold State.boundConfig
  extract_lets x41 x42
  clear_value x41 x42
  split
  · rename_i z43
    refine touch.step ?_ (State.sendTlp_touch ..) rfl
    exact touch.refl _ _
  · rename_i z44 z45 z46
    refine touch.ite ?_ ?_
    · refine touch.step ?_ (State.answerTlp_touch ..) rfl
      exact touch.refl _ _
    · extract_lets x47
      clear_value x47
      split
      · rename_i z48 z49 z50
        split
        · rename_i z51 z52 z53
          refine touch.step ?_ (State.sendTlp_touch ..) rfl
          refine touch.step ?_ (State.barWrite_touch ..) rfl
          exact touch.refl _ _
        · rename_i z54 z55
          refine touch.step ?_ (State.sendTlp_touch ..) rfl
          exact touch.refl _ _
      · rename_i z56 z57
        refine touch.ite ?_ ?_
        · refine touch.step ?_ (State.sendConfig_touch ..) rfl
          exact touch.refl _ _
        · refine touch.step ?_ (State.sendTlp_touch ..) rfl
          exact touch.refl _ _

theorem State.breakLock_touch : ∀ a0 a1, touch 0x3c3250001805ed810000062000c00c000007680100fff086000f0 a0 (State.breakLock a0 a1) := by
  intro a0 a1
  unfold State.breakLock
  refine touch.step ?_ (State.raise_touch ..) rfl
  refine touch.step ?_ (touch.PORT_LOCK ..) rfl
  refine touch.step ?_ (State.releasePort_touch ..) rfl
  exact touch.refl _ _

theorem State.linkLost_touch : ∀ a0 a1 a2, touch 0x3c3410000005ed810000062000800400000008000044f006000e0 a0 (State.linkLost a0 a1 a2) := by
  intro a0 a1 a2
  unfold State.linkLost
  refine touch.step ?_ (State.pcieDown_touch ..) rfl
  refine touch.step ?_ (State.reclaimLink_touch ..) rfl
  refine touch.step ?_ (State.ingressDiscard_touch ..) rfl
  exact touch.refl _ _

theorem State.hotReset_touch : ∀ a0 a1 a2, touch 0x3c3750001805ed810000062000c00c200007e81100fff086000f0 a0 (State.hotReset a0 a1 a2) := by
  intro a0 a1 a2
  unfold State.hotReset
  refine touch.ite ?_ ?_
  · exact touch.refl _ _
  · extract_lets x41
    have h42 : touch 0x3c3750001805ed810000062000c00c200007e81100fff086000f0 a0 x41 := by
      unfold x41
      refine touch.step ?_ (State.deassertPins_touch ..) rfl
      refine touch.step ?_ (State.linkLost_touch ..) rfl
      refine touch.step ?_ (State.dropLock_touch ..) rfl
      exact touch.refl _ _
    clear_value x41
    refine touch.step ?_ (State.republish_touch ..) rfl
    refine touch.step ?_ (touch.upd_flr ..) rfl
    exact h42

theorem State.sendFlr_touch : ∀ a0 a1 a2 a3, touch 0x10000000000000000000000000001b00000000 a0 (State.sendFlr a0 a1 a2 a3) := by
  intro a0 a1 a2 a3
  unfold State.sendFlr
  refine touch.ite ?_ ?_
  · exact touch.refl _ _
  · extract_lets x41
    clear_value x41
    split
    · rename_i z42 z43 z44 z45
      have h46 : touch 0x10000000000000000000000000001b00000000 a0 z43 := by
        refine touch.ofEq z45 ?_
        refine touch.step ?_ (State.newId_touch ..) rfl
        exact touch.refl _ _
      refine touch.step ?_ (State.enqueue_touch ..) rfl
      refine touch.step ?_ (touch.upd_outstanding ..) rfl
      exact h46

theorem State.busReset_touch : ∀ a0 a1 a2, touch 0x3c3750001805ed810000062000c00c200007e81100fff086000f0 a0 (State.busReset a0 a1 a2) := by
  intro a0 a1 a2
  unfold State.busReset
  refine touch.foldl ?_ ?_
  · exact touch.refl _ _
  · intro u41 y42 h43
    refine touch.ite ?_ ?_
    · refine touch.ite ?_ ?_
      · refine touch.step ?_ (State.hotReset_touch ..) rfl
        exact h43
      · exact h43
    · refine touch.ite ?_ ?_
      · refine touch.ite ?_ ?_
        · refine touch.step ?_ (State.raise_touch ..) rfl
          exact h43
        · refine touch.step ?_ (State.sendFlr_touch ..) rfl
          exact h43
      · refine touch.foldl ?_ ?_
        · exact h43
        · intro u44 y45 h46
          refine touch.step ?_ (State.sendFlr_touch ..) rfl
          exact h46

theorem State.pcieWrite_touch : ∀ a0 a1 a2 a3 a4 a5, touch 0xc000000000000000 a0 (State.pcieWrite a0 a1 a2 a3 a4 a5) := by
  intro a0 a1 a2 a3 a4 a5
  unfold State.pcieWrite
  extract_lets x41 x42
  clear_value x41 x42
  refine touch.ite ?_ ?_
  · refine touch.step ?_ (State.setVport_touch ..) rfl
    refine touch.step ?_ (State.virtPut_touch ..) rfl
    exact touch.refl _ _
  · refine touch.ite ?_ ?_
    · refine touch.step ?_ (State.virtPut_touch ..) rfl
      exact touch.refl _ _
    · refine touch.ite ?_ ?_
      · refine touch.step ?_ (State.setVport_touch ..) rfl
        refine touch.step ?_ (State.virtPut_touch ..) rfl
        exact touch.refl _ _
      · refine touch.ite ?_ ?_
        · refine touch.step ?_ (State.setVport_touch ..) rfl
          refine touch.step ?_ (State.virtPut_touch ..) rfl
          exact touch.refl _ _
        · exact touch.refl _ _

theorem State.softTrigger_touch : ∀ a0 a1 a2, touch 0x3c3770001805ed810000062000c00c200107e81100fff086000f0 a0 (State.softTrigger a0 a1 a2) := by
  intro a0 a1 a2
  unfold State.softTrigger
  split
  · rename_i z41 z42
    exact touch.refl _ _
  · rename_i z43 z44 z45
    refine touch.ite ?_ ?_
    · refine touch.step ?_ (State.containPd_touch ..) rfl
      exact touch.refl _ _
    · extract_lets x46 x47
      clear_value x46
      have h48 : touch 0x3c3770001805ed810000062000c00c200107e81100fff086000f0 a0 x47 := by
        unfold x47
        refine touch.step ?_ (State.setVport_touch ..) rfl
        exact touch.refl _ _
      clear_value x47
      refine touch.ite ?_ ?_
      · refine touch.step ?_ (State.emit_touch ..) rfl
        exact h48
      · exact h48

theorem State.setRing_touch : ∀ a0 a1 a2, touch 0x1000000000000000000 a0 (State.setRing a0 a1 a2) := by
  intro a0 a1 a2
  unfold State.setRing
  refine touch.step ?_ (touch.upd_rings ..) rfl
  exact touch.refl _ _

theorem State.ringOff_touch : ∀ a0 a1, touch 0x1000000000000000000 a0 (State.ringOff a0 a1) := by
  intro a0 a1
  unfold State.ringOff
  refine touch.ite ?_ ?_
  · refine touch.step ?_ (State.setRing_touch ..) rfl
    exact touch.refl _ _
  · exact touch.refl _ _

theorem State.waitUntil_touch : ∀ a0 a1, touch 0x4 a0 (State.waitUntil a0 a1) := by
  intro a0 a1
  unfold State.waitUntil
  refine touch.ite ?_ ?_
  · refine touch.step ?_ (touch.upd_cycles ..) rfl
    exact touch.refl _ _
  · exact touch.refl _ _

theorem State.raiseRing_touch : ∀ a0 a1, touch 0x1000000000000000044 a0 (State.raiseRing a0 a1) := by
  intro a0 a1
  unfold State.raiseRing
  refine touch.ite ?_ ?_
  · exact touch.refl _ _
  · extract_lets x41 x42
    clear_value x42
    have h43 : touch 0x1000000000000000044 a0 x41 := by
      unfold x41
      split
      · rename_i z44 z45 z46
        refine touch.step ?_ (State.waitUntil_touch ..) rfl
        exact touch.refl _ _
      · rename_i z47 z48
        exact touch.refl _ _
    clear_value x41
    refine touch.step ?_ (State.emit_touch ..) rfl
    refine touch.step ?_ (State.setRing_touch ..) rfl
    exact h43

theorem State.ringHead_touch : ∀ a0 a1 a2, touch 0x1000000000000000044 a0 (State.ringHead a0 a1 a2) := by
  intro a0 a1 a2
  unfold State.ringHead
  extract_lets x41 x42 x43
  clear_value x41 x43
  have h44 : touch 0x1000000000000000044 a0 x42 := by
    unfold x42
    refine touch.step ?_ (State.setRing_touch ..) rfl
    exact touch.refl _ _
  clear_value x42
  refine touch.ite ?_ ?_
  · refine touch.step ?_ (State.raiseRing_touch ..) rfl
    exact h44
  · exact h44

theorem State.ringWrite_touch : ∀ a0 a1 a2 a3, touch 0x1000000000000000044 a0 (State.ringWrite a0 a1 a2 a3) := by
  intro a0 a1 a2 a3
  unfold State.ringWrite
  extract_lets x41 x42 x43
  clear_value x41 x43
  have h44 : touch 0x1000000000000000044 a0 x42 := by
    unfold x42
    refine touch.step ?_ (State.ringOff_touch ..) rfl
    exact touch.refl _ _
  clear_value x42
  refine touch.ite ?_ ?_
  · refine touch.ite ?_ ?_
    · exact touch.refl _ _
    · refine touch.step ?_ (State.setRing_touch ..) rfl
      exact touch.refl _ _
  · refine touch.ite ?_ ?_
    · refine touch.ite ?_ ?_
      · exact touch.refl _ _
      · refine touch.step ?_ (State.setRing_touch ..) rfl
        exact touch.refl _ _
    · refine touch.ite ?_ ?_
      · refine touch.ite ?_ ?_
        · refine touch.ite ?_ ?_
          · exact touch.refl _ _
          · refine touch.step ?_ (State.setRing_touch ..) rfl
            exact touch.refl _ _
        · refine touch.ite ?_ ?_
          · exact h44
          · refine touch.step ?_ (State.setRing_touch ..) rfl
            exact h44
      · refine touch.ite ?_ ?_
        · refine touch.step ?_ (State.ringHead_touch ..) rfl
          exact touch.refl _ _
        · exact touch.refl _ _

theorem State.capWrite_touch : ∀ a0 a1 a2 a3 a4 a5, touch 0x3c3770001805ed810000062000c00c200717ec1100fff086000f4 a0 (State.capWrite a0 a1 a2 a3 a4 a5) := by
  intro a0 a1 a2 a3 a4 a5
  unfold State.capWrite
  extract_lets x41 x42 x43 x44 x45 x46
  clear_value x42 x43 x44
  have h47 : touch 0x3c3770001805ed810000062000c00c200717ec1100fff086000f4 a0 x45 := by
    unfold x45
    refine touch.step ?_ (State.virtPut_touch ..) rfl
    exact touch.refl _ _
  have h48 : touch 0x3c3770001805ed810000062000c00c200717ec1100fff086000f4 a0 x46 := by
    unfold x46
    refine touch.step ?_ (State.setVport_touch ..) rfl
    refine touch.step ?_ (State.virtPut_touch ..) rfl
    exact touch.refl _ _
  clear_value x41 x45 x46
  refine touch.ite ?_ ?_
  · refine touch.step ?_ (State.pcieWrite_touch ..) rfl
    exact touch.refl _ _
  · refine touch.ite ?_ ?_
    · refine touch.ite ?_ ?_
      · refine touch.ite ?_ ?_
        · refine touch.step ?_ (touch.PORT_PCIE ..) rfl
          exact h47
        · exact h47
      · exact touch.refl _ _
    · refine touch.ite ?_ ?_
      · refine touch.step ?_ (State.setVport_touch ..) rfl
        refine touch.step ?_ (State.virtPut_touch ..) rfl
        exact touch.refl _ _
      · refine touch.ite ?_ ?_
        · refine touch.step ?_ (State.aerWrite_touch ..) rfl
          exact touch.refl _ _
        · refine touch.ite ?_ ?_
          · refine touch.step ?_ (State.virtPut_touch ..) rfl
            exact touch.refl _ _
          · refine touch.ite ?_ ?_
            · refine touch.ite ?_ ?_
              · refine touch.step ?_ (State.softTrigger_touch ..) rfl
                exact h48
              · exact h48
            · refine touch.ite ?_ ?_
              · refine touch.ite ?_ ?_
                · refine touch.step ?_ (State.clearStatus_touch ..) rfl
                  exact touch.refl _ _
                · exact touch.refl _ _
              · refine touch.ite ?_ ?_
                · refine touch.step ?_ (State.writeDoe_touch ..) rfl
                  exact touch.refl _ _
                · refine touch.ite ?_ ?_
                  · refine touch.step ?_ (State.ringWrite_touch ..) rfl
                    exact touch.refl _ _
                  · exact touch.refl _ _

theorem State.holdBack_touch : ∀ a0 a1 a2, touch 0x3c3250001805ed810000062000c00c000007680100fff086000f0 a0 (State.holdBack a0 a1 a2) := by
  intro a0 a1 a2
  unfold State.holdBack
  extract_lets x41 x42
  clear_value x41 x42
  refine touch.ite ?_ ?_
  · refine touch.step ?_ (State.setPortLock_touch ..) rfl
    refine touch.step ?_ (State.issueAll_touch ..) rfl
    exact touch.refl _ _
  · refine touch.step ?_ (State.issueHeld_touch ..) rfl
    refine touch.step ?_ (State.breakLock_touch ..) rfl
    exact touch.refl _ _

theorem State.checkClaim_touch : ∀ a0 a1, touch 0x3800000000046d8000000620000804000000000000000806000a0 a0 (State.checkClaim a0 a1) := by
  intro a0 a1
  unfold State.checkClaim
  refine touch.ite ?_ ?_
  · exact touch.refl _ _
  · extract_lets x41 x42 x43 x44 x45 x46
    clear_value x41 x42 x43 x46
    have h47 : touch 0x3800000000046d8000000620000804000000000000000806000a0 a0 x44 := by
      unfold x44
      refine touch.ite ?_ ?_
      · refine touch.step ?_ (State.raise_touch ..) rfl
        exact touch.refl _ _
      · exact touch.refl _ _
    have h48 : touch 0x3800000000046d8000000620000804000000000000000806000a0 a0 x45 := by
      unfold x45
      refine touch.ite ?_ ?_
      · refine touch.step ?_ (State.raise_touch ..) rfl
        exact h47
      · exact h47
    clear_value x44 x45
    refine touch.ite ?_ ?_
    · refine touch.step ?_ (touch.PKG_MODE ..) rfl
      refine touch.step ?_ (touch.upd_modes ..) rfl
      exact h48
    · exact h48

theorem State.clearLock_touch : ∀ a0 a1, touch 0x3800000000000000000000000004000000000000000000 a0 (State.clearLock a0 a1) := by
  intro a0 a1
  unfold State.clearLock
  extract_lets x41 x42
  clear_value x42
  have h43 : touch 0x3800000000000000000000000004000000000000000000 a0 x41 := by
    unfold x41
    refine touch.step ?_ (State.stopScan_touch ..) rfl
    refine touch.step ?_ (touch.LN_STATE ..) rfl
    exact touch.refl _ _
  clear_value x41
  refine touch.step ?_ (State.updateAdapter_touch ..) rfl
  refine touch.step ?_ (State.setLaneSt_touch ..) rfl
  exact h43

theorem State.goodCodeword_touch : ∀ a0 a1 a2 a3, touch 0x3800002980046d8000000620000004000040000000000006000e0 a0 (State.goodCodeword a0 a1 a2 a3) := by
  intro a0 a1 a2 a3
  unfold State.goodCodeword
  extract_lets x41 x42
  clear_value x41
  have h43 : touch 0x3800002980046d8000000620000004000040000000000006000e0 a0 x42 := by
    unfold x42
    refine touch.step ?_ (touch.LN_FEC_CORR ..) rfl
    exact touch.refl _ _
  clear_value x42
  split
  · rename_i z44 z45 z46 z47
    extract_lets x48 x49 x50 x51
    clear_value x48 x49
    have h52 : touch 0x3800002980046d8000000620000004000040000000000006000e0 a0 x50 := by
      unfold x50
      refine touch.step ?_ (State.setLaneSt_touch ..) rfl
      exact h43
    have h53 : touch 0x3800002980046d8000000620000004000040000000000006000e0 a0 x51 := by
      unfold x51
      refine touch.ite ?_ ?_
      · exact h52
      · refine touch.step ?_ (State.raise_touch ..) rfl
        refine touch.step ?_ (touch.LN_BLK_ERR ..) rfl
        exact h52
    clear_value x50 x51
    refine touch.step ?_ (State.emit_touch ..) rfl
    refine touch.step ?_ (State.updateAdapter_touch ..) rfl
    exact h53

theorem State.dropLane_touch : ∀ a0 a1 a2, touch 0x380100c780046d8100000620004004000040001100005006000a0 a0 (State.dropLane a0 a1 a2) := by
  intro a0 a1 a2
  unfold State.dropLane
  extract_lets x41 x42
  clear_value x41
  have h43 : touch 0x380100c780046d8100000620004004000040001100005006000a0 a0 x42 := by
    unfold x42
    refine touch.step ?_ (touch.LN_STATE ..) rfl
    exact touch.refl _ _
  clear_value x42
  refine touch.ite ?_ ?_
  · refine touch.step ?_ (State.retrainPort_touch ..) rfl
    exact h43
  · refine touch.step ?_ (State.sendLanemap_touch ..) rfl
    exact h43

theorem State.lockLost_touch : ∀ a0 a1, touch 0x380100c780046d8100000620004004000040001100005006000a0 a0 (State.lockLost a0 a1) := by
  intro a0 a1
  unfold State.lockLost
  split
  · rename_i z41 z42 z43
    extract_lets x44 x45 x46
    clear_value x44 x45
    have h47 : touch 0x380100c780046d8100000620004004000040001100005006000a0 a0 x46 := by
      unfold x46
      refine touch.step ?_ (State.raiseMask_touch ..) rfl
      exact touch.refl _ _
    clear_value x46
    refine touch.ite ?_ ?_
    · refine touch.step ?_ (State.dropLane_touch ..) rfl
      refine touch.step ?_ (State.enterLock_touch ..) rfl
      exact h47
    · exact h47
  · rename_i z48 z49
    refine touch.step ?_ (State.raise_touch ..) rfl
    exact touch.refl _ _

theorem State.loseLock_touch : ∀ a0 a1, touch 0x380100c780046d8100000620004004000040001100005006000a0 a0 (State.loseLock a0 a1) := by
  intro a0 a1
  unfold State.loseLock
  refine touch.ite ?_ ?_
  · refine touch.step ?_ (State.lockLost_touch ..) rfl
    refine touch.step ?_ (State.clearLock_touch ..) rfl
    exact touch.refl _ _
  · exact touch.refl _ _

theorem State.lockedCodeword_touch : ∀ a0 a1 a2, touch 0x383100ff800ded8102000620004004000040001100005406000e0 a0 (State.lockedCodeword a0 a1 a2) := by
  intro a0 a1 a2
  unfold State.lockedCodeword
  split
  · rename_i z41 z42 z43 z44
    refine touch.step ?_ (State.alignDelivered_touch ..) rfl
    refine touch.step ?_ (State.goodCodeword_touch ..) rfl
    exact touch.refl _ _
  · rename_i z45 z46
    extract_lets x47 x48
    clear_value x47
    have h49 : touch 0x383100ff800ded8102000620004004000040001100005406000e0 a0 x48 := by
      unfold x48
      refine touch.step ?_ (State.takeSlots_touch ..) rfl
      refine touch.step ?_ (State.badCodeword_touch ..) rfl
      exact touch.refl _ _
    clear_value x48
    refine touch.ite ?_ ?_
    · refine touch.step ?_ (State.loseLock_touch ..) rfl
      exact h49
    · exact h49

theorem State.gainLock_touch : ∀ a0 a1 a2, touch 0x1800000000000000000000000004000000000000000000 a0 (State.gainLock a0 a1 a2) := by
  intro a0 a1 a2
  unfold State.gainLock
  extract_lets x41 x42
  clear_value x42
  have h43 : touch 0x1800000000000000000000000004000000000000000000 a0 x41 := by
    unfold x41
    refine touch.step ?_ (touch.LN_STATE ..) rfl
    refine touch.step ?_ (touch.LN_STATE ..) rfl
    exact touch.refl _ _
  clear_value x41
  refine touch.step ?_ (State.updateAdapter_touch ..) rfl
  refine touch.step ?_ (State.setLaneSt_touch ..) rfl
  exact h43

theorem State.seekLock_touch : ∀ a0 a1 a2, touch 0x1800000000000000000000000004000000000000000000 a0 (State.seekLock a0 a1 a2) := by
  intro a0 a1 a2
  unfold State.seekLock
  extract_lets x41 x42 x43 x44
  clear_value x41 x42 x43
  have h45 : touch 0x1800000000000000000000000004000000000000000000 a0 x44 := by
    unfold x44
    refine touch.step ?_ (State.setLaneSt_touch ..) rfl
    exact touch.refl _ _
  clear_value x44
  refine touch.ite ?_ ?_
  · refine touch.step ?_ (State.setLaneSt_touch ..) rfl
    exact touch.refl _ _
  · refine touch.ite ?_ ?_
    · refine touch.step ?_ (State.gainLock_touch ..) rfl
      exact h45
    · exact h45

theorem State.codeword_touch : ∀ a0 a1 a2, touch 0x383100ff800ded8102000620004004000040001100005406000e0 a0 (State.codeword a0 a1 a2) := by
  intro a0 a1 a2
  unfold State.codeword
  refine touch.ite ?_ ?_
  · exact touch.refl _ _
  · refine touch.ite ?_ ?_
    · refine touch.step ?_ (State.lockedCodeword_touch ..) rfl
      exact touch.refl _ _
    · refine touch.step ?_ (State.seekLock_touch ..) rfl
      exact touch.refl _ _

theorem State.slotOf_touch : ∀ a0 a1, touch 0x8000000000000040 a0 (State.slotOf a0 a1) := by
  intro a0 a1
  unfold State.slotOf
  split
  · rename_i z41 z42 z43
    refine touch.step ?_ (State.slotNote_touch ..) rfl
    exact touch.refl _ _
  · rename_i z44 z45
    exact touch.refl _ _

theorem State.mismatch_touch : ∀ a0 a1, touch 0x3800000000046d8000000620000004000000000000000006000a0 a0 (State.mismatch a0 a1) := by
  intro a0 a1
  unfold State.mismatch
  split
  · rename_i z41 z42 z43
    refine touch.step ?_ (State.raise_touch ..) rfl
    exact touch.refl _ _
  · rename_i z44 z45
    exact touch.refl _ _

theorem State.hideBinding_touch : ∀ a0 a1 a2, touch 0x3800000000046d8000000620000004000000090000000006000e0 a0 (State.hideBinding a0 a1 a2) := by
  intro a0 a1 a2
  unfold State.hideBinding
  extract_lets x41
  have h42 : touch 0x3800000000046d8000000620000004000000090000000006000e0 a0 x41 := by
    unfold x41
    refine touch.ite ?_ ?_
    · exact touch.refl _ _
    · refine touch.step ?_ (State.slotOf_touch ..) rfl
      refine touch.step ?_ (touch.upd_hidden ..) rfl
      exact touch.refl _ _
  clear_value x41
  refine touch.step ?_ (State.mismatch_touch ..) rfl
  exact h42

theorem State.settlePins_touch : ∀ a0, touch 0x10000000000000020000080000001300000000 a0 (State.settlePins a0) := by
  intro a0
  unfold State.settlePins
  refine touch.foldl ?_ ?_
  · exact touch.refl _ _
  · intro u41 y42 h43
    refine touch.step ?_ (State.settlePin_touch ..) rfl
    exact h43

theorem State.compareBinds_touch : ∀ a0 a1 a2, touch 0x3800000000046d81000006200000042000008b0000013806000e0 a0 (State.compareBinds a0 a1 a2) := by
  intro a0 a1 a2
  unfold State.compareBinds
  extract_lets x41 x42 x43 x44 x45 x46 x47
  clear_value x42 x44 x45 x47
  have h48 : touch 0x3800000000046d81000006200000042000008b0000013806000e0 a0 x41 := by
    unfold x41
    refine touch.step ?_ (touch.upd_bindPu ..) rfl
    exact touch.refl _ _
  have h49 : touch 0x3800000000046d81000006200000042000008b0000013806000e0 a0 x43 := by
    unfold x43
    refine touch.step ?_ (touch.upd_modes ..) rfl
    exact h48
  have h50 : touch 0x3800000000046d81000006200000042000008b0000013806000e0 a0 x46 := by
    unfold x46
    refine touch.foldl ?_ ?_
    · exact h49
    · intro u51 y52 h53
      refine touch.ite ?_ ?_
      · extract_lets x54
        have h55 : touch 0x3800000000046d81000006200000042000008b0000013806000e0 a0 x54 := by
          unfold x54
          refine touch.step ?_ (touch.upd_hidden ..) rfl
          exact h53
        clear_value x54
        refine touch.ite ?_ ?_
        · refine touch.step ?_ (State.slotOf_touch ..) rfl
          exact h55
        · exact h55
      · refine touch.step ?_ (State.hideBinding_touch ..) rfl
        exact h53
  clear_value x41 x43 x46
  refine touch.step ?_ (State.settlePins_touch ..) rfl
  refine touch.foldl ?_ ?_
  · exact h50
  · intro u56 y57 h58
    refine touch.ite ?_ ?_
    · exact h58
    · refine touch.step ?_ (State.mismatch_touch ..) rfl
      exact h58

theorem State.compareDevice_touch : ∀ a0 a1, touch 0x3800000000046d8100000620000004200000810000013006000a0 a0 (State.compareDevice a0 a1) := by
  intro a0 a1
  unfold State.compareDevice
  extract_lets x41 x42
  clear_value x42
  have h43 : touch 0x3800000000046d8100000620000004200000810000013006000a0 a0 x41 := by
    unfold x41
    refine touch.step ?_ (touch.upd_hidden ..) rfl
    exact touch.refl _ _
  clear_value x41
  refine touch.step ?_ (State.settlePins_touch ..) rfl
  refine touch.foldl ?_ ?_
  · exact h43
  · intro u44 y45 h46
    extract_lets x47
    clear_value x47
    refine touch.ite ?_ ?_
    · exact h46
    · refine touch.step ?_ (State.raise_touch ..) rfl
      refine touch.step ?_ (touch.upd_hidden ..) rfl
      exact h46

theorem State.lockRead_touch : ∀ a0 a1 a2 a3 a4 a5, touch 0x3c3250001805ed810000062000c00c000007680100fff086000f0 a0 (State.lockRead a0 a1 a2 a3 a4 a5) := by
  intro a0 a1 a2 a3 a4 a5
  unfold State.lockRead
  extract_lets x41 x42 x43 x44 x45 x46
  clear_value x41 x43
  have h47 : touch 0x3c3250001805ed810000062000c00c000007680100fff086000f0 a0 x42 := by
    unfold x42
    refine touch.step ?_ (touch.PORT_LOCK ..) rfl
    exact touch.refl _ _
  have h48 : touch 0x3c3250001805ed810000062000c00c000007680100fff086000f0 a0 x44 := by
    unfold x44
    refine touch.step ?_ (State.setPortLock_touch ..) rfl
    exact h47
  have h49 : touch 0x3c3250001805ed810000062000c00c000007680100fff086000f0 a0 x45 := by
    unfold x45
    refine touch.ite ?_ ?_
    · refine touch.step ?_ (State.freeLock_touch ..) rfl
      exact h48
    · refine touch.step ?_ (touch.PKG_LOCK ..) rfl
      exact h48
  have h50 : touch 0x3c3250001805ed810000062000c00c000007680100fff086000f0 a0 x46 := by
    unfold x46
    refine touch.ite ?_ ?_
    · refine touch.step ?_ (State.nextConfig_touch ..) rfl
      refine touch.foldl ?_ ?_
      · exact h49
      · intro u51 y52 h53
        refine touch.step ?_ (State.issueHeld_touch ..) rfl
        exact h53
    · refine touch.ite ?_ ?_
      · refine touch.step ?_ (State.setPortLock_touch ..) rfl
        exact touch.refl _ _
      · exact touch.refl _ _
  clear_value x42 x44 x45 x46
  refine touch.step ?_ (State.answerTo_touch ..) rfl
  exact h50

theorem State.endConfig_touch : ∀ a0 a1 a2 a3 a4 a5, touch 0x3c3210001805ed810000062000800c0000067801007ff086000f0 a0 (State.endConfig a0 a1 a2 a3 a4 a5) := by
  intro a0 a1 a2 a3 a4 a5
  unfold State.endConfig
  extract_lets x41 x42
  have h43 : touch 0x3c3210001805ed810000062000800c0000067801007ff086000f0 a0 x41 := by
    unfold x41
    refine touch.step ?_ (touch.upd_configJobs ..) rfl
    exact touch.refl _ _
  have h44 : touch 0x3c3210001805ed810000062000800c0000067801007ff086000f0 a0 x42 := by
    unfold x42
    refine touch.ite ?_ ?_
    · refine touch.step ?_ (touch.upd_deviceMps ..) rfl
      exact h43
    · exact h43
  clear_value x41 x42
  refine touch.step ?_ (State.nextConfig_touch ..) rfl
  refine touch.ite ?_ ?_
  · exact h44
  · refine touch.step ?_ (State.answerTo_touch ..) rfl
    exact h44

theorem State.finishAsk_touch : ∀ a0 a1 a2 a3 a4 a5, touch 0x3c3210001805ed810000062000800c0000067801007ff086000f0 a0 (State.finishAsk a0 a1 a2 a3 a4 a5) := by
  intro a0 a1 a2 a3 a4 a5
  unfold State.finishAsk
  refine touch.ite ?_ ?_
  · split
    · rename_i z41 z42 z43
      refine touch.step ?_ (State.endConfig_touch ..) rfl
      exact touch.refl _ _
    · rename_i z44 z45
      exact touch.refl _ _
  · refine touch.step ?_ (State.answerTo_touch ..) rfl
    exact touch.refl _ _

theorem State.finishFromLink_touch : ∀ a0 a1 a2 a3 a4 a5, touch 0x3c3250001805ed810000062000c00c000007780100fff086000f0 a0 (State.finishFromLink a0 a1 a2 a3 a4 a5) := by
  intro a0 a1 a2 a3 a4 a5
  unfold State.finishFromLink
  refine touch.ite ?_ ?_
  · refine touch.step ?_ (State.lockRead_touch ..) rfl
    exact touch.refl _ _
  · refine touch.step ?_ (State.finishAsk_touch ..) rfl
    exact touch.refl _ _

theorem State.engineAnswered_touch : ∀ a0 a1 a2 a3 a4 a5, touch 0x3800100000046d81000006200000040000006804a0021006000e0 a0 (State.engineAnswered a0 a1 a2 a3 a4 a5) := by
  intro a0 a1 a2 a3 a4 a5
  unfold State.engineAnswered
  extract_lets x41 x42
  clear_value x41 x42
  refine touch.ite ?_ ?_
  · refine touch.step ?_ (touch.upd_device ..) rfl
    exact touch.refl _ _
  · refine touch.ite ?_ ?_
    · refine touch.step ?_ (State.logAer_touch ..) rfl
      refine touch.step ?_ (State.endAsk_touch ..) rfl
      exact touch.refl _ _
    · refine touch.ite ?_ ?_
      · refine touch.step ?_ (State.pushItem_touch ..) rfl
        refine touch.step ?_ (State.endAsk_touch ..) rfl
        exact touch.refl _ _
      · exact touch.refl _ _

theorem State.completionFromLink_touch : ∀ a0 a1 a2, touch 0x3c3250001805ed810000062000c00c0000077805a0fff086000f0 a0 (State.completionFromLink a0 a1 a2 (fun s k st b x => State.finishFromLink s a1 k st b x)) := by
  intro a0 a1 a2
  unfold State.completionFromLink
  split
  · rename_i z41 z42 z43
    split
    · rename_i z44 z45
      refine touch.step ?_ (State.logAer_touch ..) rfl
      exact touch.refl _ _
    · rename_i z46 z47 z48
      refine touch.ite ?_ ?_
      · refine touch.step ?_ (State.logAer_touch ..) rfl
        refine touch.step ?_ (State.endAsk_touch ..) rfl
        exact touch.refl _ _
      · refine touch.ite ?_ ?_
        · refine touch.step ?_ (State.endAsk_touch ..) rfl
          exact touch.refl _ _
        · split
          · rename_i z49 z50 z51 z52 z53
            refine touch.step ?_ (State.engineAnswered_touch ..) rfl
            exact touch.refl _ _
          · rename_i z54 z55 z56 z57
            refine touch.step ?_ (State.nextConfig_touch ..) rfl
            refine touch.step ?_ (State.endAsk_touch ..) rfl
            exact touch.refl _ _
          · rename_i z58 z59 z60 z61
            refine touch.ite ?_ ?_
            · extract_lets x62
              have h63 : touch 0x3c3250001805ed810000062000c00c0000077805a0fff086000f0 a0 x62 := by
                unfold x62
                refine touch.step ?_ (State.showTags_touch ..) rfl
                refine touch.step ?_ (touch.upd_device ..) rfl
                exact touch.refl _ _
              clear_value x62
              refine touch.step ?_ (touch.upd_configJobs ..) rfl
              exact h63
            · extract_lets x64 x65 x66 x67 x68 x69 x70
              clear_value x66 x67 x69 x70
              have h71 : touch 0x3c3250001805ed810000062000c00c0000077805a0fff086000f0 a0 x64 := by
                unfold x64
                refine touch.ite ?_ ?_
                · refine touch.step ?_ (State.logAer_touch ..) rfl
                  exact touch.refl _ _
                · exact touch.refl _ _
              have h72 : touch 0x3c3250001805ed810000062000c00c0000077805a0fff086000f0 a0 x65 := by
                unfold x65
                refine touch.ite ?_ ?_
                · refine touch.step ?_ (State.logAer_touch ..) rfl
                  refine touch.step ?_ (State.raise_touch ..) rfl
                  exact h71
                · exact h71
              have h73 : touch 0x3c3250001805ed810000062000c00c0000077805a0fff086000f0 a0 x68 := by
                unfold x68
                refine touch.step ?_ (State.endAsk_touch ..) rfl
                exact h72
              clear_value x64 x65 x68
              refine touch.ite ?_ ?_
              · refine touch.step ?_ (State.bargeFromLink_touch ..) rfl
                exact h72
              · refine touch.ite ?_ ?_
                · refine touch.step ?_ (touch.upd_device ..) rfl
                  exact h72
                · refine touch.step ?_ (State.finishFromLink_touch ..) rfl
                  exact h73
  · rename_i z74 z75
    exact touch.refl _ _

theorem State.oweItem_touch : ∀ a0 a1, touch 0x1800000000 a0 (State.oweItem a0 a1) := by
  intro a0 a1
  unfold State.oweItem
  split
  · rename_i z41 z42 z43 z44 z45
    split
    · rename_i z46 z47 z48 z49
      have h50 : touch 0x1800000000 a0 z47 := by
        refine touch.ofEq z49 ?_
        refine touch.step ?_ (State.newId_touch ..) rfl
        exact touch.refl _ _
      refine touch.step ?_ (touch.upd_outstanding ..) rfl
      exact h50
  · rename_i z51 z52
    exact touch.refl _ _

theorem State.handTlp_touch : ∀ a0 a1 a2 a3 a4, touch 0x1000000000000000000000004a001800000000 a0 (State.handTlp a0 a1 a2 a3 a4) := by
  intro a0 a1 a2 a3 a4
  unfold State.handTlp
  refine touch.ite ?_ ?_
  · exact touch.refl _ _
  · extract_lets x41
    clear_value x41
    refine touch.step ?_ (State.pushItem_touch ..) rfl
    refine touch.step ?_ (State.oweItem_touch ..) rfl
    exact touch.refl _ _

theorem State.moveBridge_touch : ∀ a0 a1 a2 a3, touch 0x4f00000100180010000000000000000002000000009b08000000 a0 (State.moveBridge a0 a1 a2 a3) := by
  intro a0 a1 a2 a3
  unfold State.moveBridge
  refine touch.ite ?_ ?_
  · refine touch.foldl ?_ ?_
    · exact touch.refl _ _
    · intro u41 y42 h43
      refine touch.step ?_ (State.moveWindow_touch ..) rfl
      exact h43
  · refine touch.ite ?_ ?_
    · refine touch.foldl ?_ ?_
      · exact touch.refl _ _
      · intro u44 y45 h46
        refine touch.step ?_ (State.moveWindow_touch ..) rfl
        exact h46
    · exact touch.refl _ _

theorem State.emulatedWrite_touch : ∀ a0 a1 a2 a3 a4 a5, touch 0x3cf770001805ed810000062000c00c200737ec1100fff086000f4 a0 (State.emulatedWrite a0 a1 a2 a3 a4 a5) := by
  intro a0 a1 a2 a3 a4 a5
  unfold State.emulatedWrite
  extract_lets x41 x42 x43
  clear_value x41 x42
  have h44 : touch 0x3cf770001805ed810000062000c00c200737ec1100fff086000f4 a0 x43 := by
    unfold x43
    refine touch.step ?_ (State.virtPut_touch ..) rfl
    exact touch.refl _ _
  clear_value x43
  refine touch.ite ?_ ?_
  · refine touch.step ?_ (State.virtPut_touch ..) rfl
    exact touch.refl _ _
  · refine touch.ite ?_ ?_
    · refine touch.step ?_ (State.virtPut_touch ..) rfl
      exact touch.refl _ _
    · refine touch.ite ?_ ?_
      · refine touch.ite ?_ ?_
        · exact h44
        · refine touch.ite ?_ ?_
          · refine touch.foldl ?_ ?_
            · exact h44
            · intro u45 y46 h47
              refine touch.step ?_ (State.busReset_touch ..) rfl
              exact h47
          · refine touch.step ?_ (State.busReset_touch ..) rfl
            exact h44
      · refine touch.ite ?_ ?_
        · refine touch.ite ?_ ?_
          · exact touch.refl _ _
          · refine touch.ite ?_ ?_
            · refine touch.step ?_ (State.virtPut_touch ..) rfl
              exact touch.refl _ _
            · refine touch.step ?_ (State.moveBridge_touch ..) rfl
              refine touch.step ?_ (State.virtPut_touch ..) rfl
              exact touch.refl _ _
        · refine touch.ite ?_ ?_
          · exact touch.refl _ _
          · refine touch.step ?_ (State.capWrite_touch ..) rfl
            exact touch.refl _ _

theorem State.emulate_touch : ∀ a0 a1 a2 a3, touch 0x3cf770001805ed810000062000c00c200737ec1100fff086000f4 a0 (State.emulate a0 a1 a2 a3) := by
  intro a0 a1 a2 a3
  unfold State.emulate
  extract_lets x41
  clear_value x41
  split
  · rename_i z42 z43 z44
    refine touch.step ?_ (State.sendTlp_touch ..) rfl
    refine touch.step ?_ (State.emulatedWrite_touch ..) rfl
    exact touch.refl _ _
  · rename_i z45 z46
    refine touch.step ?_ (State.sendTlp_touch ..) rfl
    exact touch.refl _ _

theorem State.configRequest_touch : ∀ a0 a1 a2, touch 0x3cf770001805ed810000062000c00c200737ec15a0fff086000f4 a0 (State.configRequest a0 a1 a2) := by
  intro a0 a1 a2
  unfold State.configRequest
  refine touch.ite ?_ ?_
  · refine touch.step ?_ (State.handTlp_touch ..) rfl
    exact touch.refl _ _
  · extract_lets x41 x42 x43
    clear_value x41 x42 x43
    split
    · rename_i z44
      exact touch.refl _ _
    · rename_i z45
      refine touch.ite ?_ ?_
      · refine touch.step ?_ (State.emulate_touch ..) rfl
        exact touch.refl _ _
      · refine touch.step ?_ (State.sendTlp_touch ..) rfl
        exact touch.refl _ _
    · rename_i z46
      refine touch.ite ?_ ?_
      · refine touch.ite ?_ ?_
        · refine touch.step ?_ (State.emulate_touch ..) rfl
          exact touch.refl _ _
        · refine touch.step ?_ (State.sendTlp_touch ..) rfl
          exact touch.refl _ _
      · split
        · rename_i z47 z48 z49
          refine touch.step ?_ (State.boundConfig_touch ..) rfl
          exact touch.refl _ _
        · rename_i z50 z51
          refine touch.step ?_ (State.sendTlp_touch ..) rfl
          exact touch.refl _ _

theorem State.sendNotice_touch : ∀ a0 a1, touch 0x80 a0 (State.sendNotice a0 a1) := by
  intro a0 a1
  unfold State.sendNotice
  refine touch.ite ?_ ?_
  · exact touch.refl _ _
  · refine touch.foldl ?_ ?_
    · exact touch.refl _ _
    · intro u41 y42 h43
      refine touch.step ?_ (State.originate_touch ..) rfl
      exact h43

theorem State.cpDown_touch : ∀ a0 a1, touch 0x3180000040000000000000007063090 a0 (State.cpDown a0 a1) := by
  intro a0 a1
  unfold State.cpDown
  refine touch.ite ?_ ?_
  · exact touch.refl _ _
  · extract_lets x41 x42 x43
    clear_value x42
    have h44 : touch 0x3180000040000000000000007063090 a0 x41 := by
      unfold x41
      refine touch.step ?_ (touch.PKG_CP_STATE ..) rfl
      refine touch.step ?_ (touch.PKG_CP_STATE ..) rfl
      exact touch.refl _ _
    have h45 : touch 0x3180000040000000000000007063090 a0 x43 := by
      unfold x43
      refine touch.step ?_ (State.setCport_touch ..) rfl
      exact h44
    clear_value x41 x43
    refine touch.step ?_ (State.sendNotice_touch ..) rfl
    refine touch.step ?_ (State.dropHolder_touch ..) rfl
    exact h45

theorem State.crossCluster_touch : ∀ a0 a1 a2, touch 0x38000000000c6d8100000620000004000000000000000406000a0 a0 (State.crossCluster a0 a1 a2).1 := by
  intro a0 a1 a2
  unfold State.crossCluster
  extract_lets x41 x42
  clear_value x41 x42
  split
  · rename_i z43 z44 z45 z46
    have h47 : touch 0x38000000000c6d8100000620000004000000000000000406000a0 a0 z44 := by
      refine touch.ofEq z46 ?_
      refine touch.step ?_ (State.writeItem_touch ..) rfl
      refine touch.step ?_ (State.carryWords_touch ..) rfl
      exact touch.refl _ _
    extract_lets x48 x49
    have h50 : touch 0x38000000000c6d8100000620000004000000000000000406000a0 a0 x48 := by
      unfold x48
      refine touch.ite ?_ ?_
      · exact h47
      · refine touch.step ?_ (State.raiseMask_touch ..) rfl
        exact h47
    have h51 : touch 0x38000000000c6d8100000620000004000000000000000406000a0 a0 x49 := by
      unfold x49
      refine touch.ite ?_ ?_
      · refine touch.step ?_ (touch.CL_XERR ..) rfl
        exact h50
      · exact h50
    clear_value x48 x49
    refine touch.fstMk ?_
    refine touch.ite ?_ ?_
    · refine touch.step ?_ (touch.CL_XERR ..) rfl
      exact h51
    · exact h51

theorem State.cross_touch : ∀ a0 a1 a2, touch 0x38000000000c6d8100000620000004000000000000000406000a0 a0 (State.cross a0 a1 a2).1 := by
  intro a0 a1 a2
  unfold State.cross
  refine touch.foldlFst ?_ ?_
  · refine touch.fstMk ?_
    exact touch.refl _ _
  · intro u41 y42 h43
    refine touch.fstIte ?_ ?_
    · split
      · rename_i z44 z45 z46 z47
        have h48 : touch 0x38000000000c6d8100000620000004000000000000000406000a0 a0 z45 := by
          refine touch.ofEq z47 ?_
          refine touch.step ?_ (State.crossCluster_touch ..) rfl
          exact h43
        refine touch.fstMk ?_
        exact h48
    · refine touch.fstMk ?_
      refine touch.step ?_ (State.carryWords_touch ..) rfl
      exact h43

theorem State.disagree_touch : ∀ a0 a1 a2, touch 0x3800000000046d8000400620000004000000000000000006000a0 a0 (State.disagree a0 a1 a2) := by
  intro a0 a1 a2
  unfold State.disagree
  refine touch.step ?_ (touch.DIE_RECON ..) rfl
  refine touch.step ?_ (touch.DIE_RECON ..) rfl
  refine touch.step ?_ (touch.DIE_RECON ..) rfl
  refine touch.step ?_ (State.raise_touch ..) rfl
  exact touch.refl _ _

theorem State.dispatch_touch : ∀ a0 a1, touch 0x3c3000000005ed9c00000620000004000000000700304086000a0 a0 (State.dispatch a0 a1) := by
  intro a0 a1
  unfold State.dispatch
  extract_lets x41 x42 x43
  clear_value x41 x43
  have h44 : touch 0x3c3000000005ed9c00000620000004000000000700304086000a0 a0 x42 := by
    unfold x42
    refine touch.step ?_ (State.noteRoute_touch ..) rfl
    exact touch.refl _ _
  clear_value x42
  split
  · rename_i z45 z46 z47 z48
    split
    · rename_i z49 z50 z51 z52
      have h53 : touch 0x3c3000000005ed9c00000620000004000000000700304086000a0 a0 z50 := by
        refine touch.ofEq z52 ?_
        refine touch.fstIte ?_ ?_
        · refine touch.step ?_ (State.checkPacket_touch ..) rfl
          exact h44
        · refine touch.fstMk ?_
          exact h44
      refine touch.ite ?_ ?_
      · refine touch.step ?_ (State.lose_touch ..) rfl
        exact h53
      · split
        · rename_i z54 z55 z56 z57
          have h58 : touch 0x3c3000000005ed9c00000620000004000000000700304086000a0 a0 z55 := by
            refine touch.ofEq z57 ?_
            refine touch.fstIte ?_ ?_
            · split
              · rename_i z59 z60 z61 z62
                have h63 : touch 0x3c3000000005ed9c00000620000004000000000700304086000a0 a0 z60 := by
                  refine touch.ofEq z62 ?_
                  refine touch.step ?_ (State.stampLive_touch ..) rfl
                  exact h53
                refine touch.fstMk ?_
                exact h63
            · refine touch.fstMk ?_
              exact h53
          extract_lets x64 x65 x66
          clear_value x64 x66
          have h67 : touch 0x3c3000000005ed9c00000620000004000000000700304086000a0 a0 x65 := by
            unfold x65
            refine touch.ite ?_ ?_
            · exact h58
            · refine touch.step ?_ (State.noteAnswer_touch ..) rfl
              exact h58
          clear_value x65
          refine touch.step ?_ (State.bookedTo_touch ..) rfl
          refine touch.step ?_ (touch.upd_waiting ..) rfl
          exact h67
  · rename_i z68 z69
    refine touch.ite ?_ ?_
    · refine touch.step ?_ (State.raise_touch ..) rfl
      exact h44
    · exact h44

theorem State.dispatchSlots_touch : ∀ a0 a1 a2, touch 0x300000000180000000000000000800000000000000000000000 a0 (State.dispatchSlots a0 a1 a2) := by
  intro a0 a1 a2
  unfold State.dispatchSlots
  refine touch.ite ?_ ?_
  · extract_lets x41
    clear_value x41
    refine touch.ite ?_ ?_
    · exact touch.refl _ _
    · refine touch.step ?_ (State.moveSlots_touch ..) rfl
      exact touch.refl _ _
  · refine touch.ite ?_ ?_
    · refine touch.ite ?_ ?_
      · exact touch.refl _ _
      · refine touch.step ?_ (State.moveSlots_touch ..) rfl
        exact touch.refl _ _
    · exact touch.refl _ _

theorem State.doeLost_touch : ∀ a0, touch 0x60000000000000000000 a0 (State.doeLost a0) := by
  intro a0
  unfold State.doeLost
  refine touch.step ?_ (touch.upd_doe_doeOrder ..) rfl
  exact touch.refl _ _

theorem State.elect_touch : ∀ a0, touch 0x3c3714c79805ed9d0000062000cc0c1000c068171a7df886018f0 a0 (State.elect a0) := by
  intro a0
  unfold State.elect
  split
  · rename_i z41 z42
    refine touch.step ?_ (State.halt_touch ..) rfl
    refine touch.step ?_ (touch.PKG_LEAD ..) rfl
    exact touch.refl _ _
  · rename_i z43 z44 z45
    extract_lets x46
    clear_value x46
    refine touch.step ?_ (touch.PKG_LEAD ..) rfl
    refine touch.step ?_ (touch.PKG_LEAD ..) rfl
    refine touch.step ?_ (touch.PKG_LEAD ..) rfl
    exact touch.refl _ _

theorem State.ownConfig_touch : ∀ a0 a1 a2 a3 a4, touch 0x3800100000046d8100000620000004000006000000021006000e0 a0 (State.ownConfig a0 a1 a2 a3 a4) := by
  intro a0 a1 a2 a3 a4
  unfold State.ownConfig
  refine touch.ite ?_ ?_
  · extract_lets x41 x42
    clear_value x41
    have h43 : touch 0x3800100000046d8100000620000004000006000000021006000e0 a0 x42 := by
      unfold x42
      refine touch.step ?_ (State.ask_touch ..) rfl
      refine touch.step ?_ (State.issue_touch ..) rfl
      exact touch.refl _ _
    clear_value x42
    refine touch.step ?_ (State.sendTlp_touch ..) rfl
    exact h43
  · extract_lets x44
    clear_value x44
    refine touch.step ?_ (State.nextConfig_touch ..) rfl
    refine touch.step ?_ (touch.upd_configJobs ..) rfl
    exact touch.refl _ _

theorem State.enableVfs_touch : ∀ a0 a1, touch 0x3800100000046d8100000620000004000006000000021006000e0 a0 (State.enableVfs a0 a1) := by
  intro a0 a1
  unfold State.enableVfs
  refine touch.foldl ?_ ?_
  · exact touch.refl _ _
  · intro u41 y42 h43
    refine touch.ite ?_ ?_
    · split
      · rename_i z44 z45 z46
        refine touch.step ?_ (State.ownConfig_touch ..) rfl
        refine touch.step ?_ (State.ownConfig_touch ..) rfl
        exact h43
      · rename_i z47 z48
        exact h43
    · exact h43

theorem State.restartEngine_touch : ∀ a0 a1, touch 0x1000000000000000000000004a000000000000 a0 (State.restartEngine a0 a1) := by
  intro a0 a1
  unfold State.restartEngine
  extract_lets x41
  clear_value x41
  refine touch.step ?_ (State.nextItem_touch ..) rfl
  refine touch.step ?_ (State.setEngine_touch ..) rfl
  exact touch.refl _ _

theorem State.endReload_touch : ∀ a0 a1, touch 0x3801000000046d81000006208348040000000015a0005c06100a0 a0 (State.endReload a0 a1) := by
  intro a0 a1
  unfold State.endReload
  extract_lets x41 x42 x43 x44 x45 x46
  clear_value x41
  have h47 : touch 0x3801000000046d81000006208348040000000015a0005c06100a0 a0 x42 := by
    unfold x42
    refine touch.step ?_ (State.releaseCredits_touch ..) rfl
    refine touch.step ?_ (touch.upd_reload ..) rfl
    exact touch.refl _ _
  have h48 : touch 0x3801000000046d81000006208348040000000015a0005c06100a0 a0 x43 := by
    unfold x43
    refine touch.step ?_ (touch.PKG_FENCE_RG ..) rfl
    exact h47
  have h49 : touch 0x3801000000046d81000006208348040000000015a0005c06100a0 a0 x44 := by
    unfold x44
    refine touch.ite ?_ ?_
    · refine touch.foldl ?_ ?_
      · exact h48
      · intro u50 y51 h52
        refine touch.step ?_ (State.restartEngine_touch ..) rfl
        exact h52
    · refine touch.foldl ?_ ?_
      · exact h48
      · intro u53 y54 h55
        refine touch.step ?_ (State.releaseCluster_touch ..) rfl
        exact h55
  have h56 : touch 0x3801000000046d81000006208348040000000015a0005c06100a0 a0 x45 := by
    unfold x45
    refine touch.step ?_ (State.routesMoved_touch ..) rfl
    refine touch.step ?_ (State.republish_touch ..) rfl
    exact h49
  have h57 : touch 0x3801000000046d81000006208348040000000015a0005c06100a0 a0 x46 := by
    unfold x46
    refine touch.step ?_ (touch.PKG_SBS_STATUS ..) rfl
    refine touch.step ?_ (touch.PKG_SBS_STATUS ..) rfl
    refine touch.step ?_ (touch.PKG_SBS_STATUS ..) rfl
    exact h56
  clear_value x42 x43 x44 x45 x46
  refine touch.step ?_ (State.afterReload_touch ..) rfl
  refine touch.step ?_ (State.raise_touch ..) rfl
  refine touch.step ?_ (touch.PKG_SBS_STATUS ..) rfl
  exact h57

theorem State.sendBinds_touch : ∀ a0 a1, touch 0x80000080 a0 (State.sendBinds a0 a1) := by
  intro a0 a1
  unfold State.sendBinds
  extract_lets x41 x42 x43 x44
  clear_value x41 x42 x44
  have h45 : touch 0x80000080 a0 x43 := by
    unfold x43
    refine touch.foldl ?_ ?_
    · exact touch.refl _ _
    · intro u46 y47 h48
      extract_lets x49
      clear_value x49
      refine touch.step ?_ (State.originate_touch ..) rfl
      exact h48
  clear_value x43
  refine touch.ite ?_ ?_
  · exact h45
  · refine touch.step ?_ (touch.upd_modes ..) rfl
    exact h45

theorem State.refreshJoin_touch : ∀ a0, touch 0x80000000000000000000000000 a0 (State.refreshJoin a0) := by
  intro a0
  unfold State.refreshJoin
  refine touch.ite ?_ ?_
  · exact touch.refl _ _
  · extract_lets x41 x42 x43
    have h44 : touch 0x80000000000000000000000000 a0 x41 := by
      unfold x41
      refine touch.step ?_ (State.showTime_touch ..) rfl
      exact touch.refl _ _
    have h45 : touch 0x80000000000000000000000000 a0 x42 := by
      unfold x42
      refine touch.ite ?_ ?_
      · refine touch.step ?_ (touch.PKG_MODE ..) rfl
        exact h44
      · exact h44
    have h46 : touch 0x80000000000000000000000000 a0 x43 := by
      unfold x43
      refine touch.ite ?_ ?_
      · refine touch.step ?_ (touch.PKG_MODE ..) rfl
        exact h45
      · exact h45
    clear_value x41 x42 x43
    refine touch.ite ?_ ?_
    · refine touch.step ?_ (touch.PKG_MODE ..) rfl
      exact h46
    · exact h46

theorem State.hideUnmatched_touch : ∀ a0, touch 0x3800000000046d8100000620000004200000890000013006000e0 a0 (State.hideUnmatched a0) := by
  intro a0
  unfold State.hideUnmatched
  extract_lets x41
  clear_value x41
  refine touch.step ?_ (State.settlePins_touch ..) rfl
  refine touch.foldl ?_ ?_
  · exact touch.refl _ _
  · intro u42 y43 h44
    refine touch.step ?_ (State.hideBinding_touch ..) rfl
    exact h44

theorem State.enterJoin_touch : ∀ a0, touch 0x3800000000046d8100000620000804200000890000013806000e0 a0 (State.enterJoin a0) := by
  intro a0
  unfold State.enterJoin
  extract_lets x41 x42
  have h43 : touch 0x3800000000046d8100000620000804200000890000013806000e0 a0 x41 := by
    unfold x41
    refine touch.step ?_ (touch.PKG_MODE ..) rfl
    refine touch.step ?_ (State.enterMode_touch ..) rfl
    exact touch.refl _ _
  have h44 : touch 0x3800000000046d8100000620000804200000890000013806000e0 a0 x42 := by
    unfold x42
    refine touch.foldl ?_ ?_
    · exact h43
    · intro u45 y46 h47
      refine touch.step ?_ (State.sendBinds_touch ..) rfl
      exact h47
  clear_value x41 x42
  refine touch.step ?_ (State.refreshJoin_touch ..) rfl
  refine touch.ite ?_ ?_
  · refine touch.step ?_ (State.hideUnmatched_touch ..) rfl
    exact h44
  · exact h44

theorem State.logCorrAt_touch : ∀ a0 a1 a2, touch 0x8000000000000040 a0 (State.logCorrAt a0 a1 a2) := by
  intro a0 a1 a2
  unfold State.logCorrAt
  split
  · rename_i z41 z42
    exact touch.refl _ _
  · rename_i z43 z44 z45 z46
    extract_lets x47 x48
    clear_value x47
    have h49 : touch 0x8000000000000040 a0 x48 := by
      unfold x48
      refine touch.step ?_ (State.setVport_touch ..) rfl
      exact touch.refl _ _
    clear_value x48
    refine touch.ite ?_ ?_
    · exact h49
    · refine touch.step ?_ (State.reportError_touch ..) rfl
      exact h49

theorem State.logCorrectable_touch : ∀ a0 a1 a2, touch 0x3800000000046d8000000620000004000000080000000006000e0 a0 (State.logCorrectable a0 a1 a2) := by
  intro a0 a1 a2
  unfold State.logCorrectable
  refine touch.step ?_ (State.raise_touch ..) rfl
  refine touch.foldl ?_ ?_
  · exact touch.refl _ _
  · intro u41 y42 h43
    refine touch.step ?_ (State.logCorrAt_touch ..) rfl
    exact h43

theorem State.portHeard_touch : ∀ a0 a1, touch 0x1001800000000000000000000000004000000000000000000 a0 (State.portHeard a0 a1) := by
  intro a0 a1
  unfold State.portHeard
  extract_lets x41
  have h42 : touch 0x1001800000000000000000000000004000000000000000000 a0 x41 := by
    unfold x41
    refine touch.ite ?_ ?_
    · refine touch.step ?_ (touch.PORT_PCIE ..) rfl
      exact touch.refl _ _
    · exact touch.refl _ _
  clear_value x41
  refine touch.foldl ?_ ?_
  · exact h42
  · intro u43 y44 h45
    refine touch.ite ?_ ?_
    · refine touch.step ?_ (State.updateAdapter_touch ..) rfl
      refine touch.step ?_ (State.setLaneSt_touch ..) rfl
      exact h45
    · exact h45

theorem State.equalisePcie_touch : ∀ a0 a1, touch 0x4000000000000000000000000000000000000000000010 a0 (State.equalisePcie a0 a1) := by
  intro a0 a1
  unfold State.equalisePcie
  refine touch.foldl ?_ ?_
  · exact touch.refl _ _
  · intro u41 y42 h43
    extract_lets x44 x45 x46
    clear_value x44 x46
    have h47 : touch 0x4000000000000000000000000000000000000000000010 a0 x45 := by
      unfold x45
      refine touch.step ?_ (State.tookFree_touch ..) rfl
      exact h43
    clear_value x45
    refine touch.step ?_ (State.setTaps_touch ..) rfl
    refine touch.step ?_ (State.tookFree_touch ..) rfl
    exact h47

theorem State.enterRecovery_touch : ∀ a0 a1, touch 0x3800100580046d8000000620000004000040080000000006000f0 a0 (State.enterRecovery a0 a1) := by
  intro a0 a1
  unfold State.enterRecovery
  refine touch.ite ?_ ?_
  · exact touch.refl _ _
  · refine touch.step ?_ (State.raise_touch ..) rfl
    refine touch.step ?_ (State.logCorrectable_touch ..) rfl
    refine touch.step ?_ (State.portHeard_touch ..) rfl
    refine touch.step ?_ (State.equalisePcie_touch ..) rfl
    refine touch.step ?_ (touch.PORT_PCIE ..) rfl
    refine touch.step ?_ (touch.PORT_PCIE ..) rfl
    exact touch.refl _ _

theorem State.errorFromDevice_touch : ∀ a0 a1 a2 a3, touch 0x3800000000046d8100000620000004000000000000013006000a0 a0 (State.errorFromDevice a0 a1 a2 a3) := by
  intro a0 a1 a2 a3
  unfold State.errorFromDevice
  extract_lets x41
  have h42 : touch 0x3800000000046d8100000620000004000000000000013006000a0 a0 x41 := by
    unfold x41
    split
    · rename_i z43 z44
      refine touch.step ?_ (State.raise_touch ..) rfl
      exact touch.refl _ _
    · rename_i z45 z46 z47
      split
      · rename_i z48 z49 z50
        refine touch.step ?_ (State.formPosted_touch ..) rfl
        exact touch.refl _ _
      · rename_i z51 z52
        exact touch.refl _ _
  clear_value x41
  refine touch.step ?_ (State.raiseMask_touch ..) rfl
  exact h42

theorem State.evaluateAgain_touch : ∀ a0, touch 0x3c3600001805ed9d0000062000800c10000068070074f086000e0 a0 (State.evaluateAgain a0) := by
  intro a0
  unfold State.evaluateAgain
  refine touch.foldl ?_ ?_
  · exact touch.refl _ _
  · intro u41 y42 h43
    refine touch.step ?_ (State.gate_touch ..) rfl
    exact h43

theorem State.failBlock_touch : ∀ a0 a1, touch 0x40000000000000000000000 a0 (State.failBlock a0 a1) := by
  intro a0 a1
  unfold State.failBlock
  refine touch.ite ?_ ?_
  · refine touch.step ?_ (touch.upd_bankWrite ..) rfl
    exact touch.refl _ _
  · exact touch.refl _ _

theorem State.fenceComplete_touch : ∀ a0, touch 0x3800000000046d8000000620040004000000000000000006000a0 a0 (State.fenceComplete a0) := by
  intro a0
  unfold State.fenceComplete
  refine touch.ite ?_ ?_
  · extract_lets x41 x42
    have h43 : touch 0x3800000000046d8000000620040004000000000000000006000a0 a0 x41 := by
      unfold x41
      refine touch.step ?_ (touch.TOLL_FENCE ..) rfl
      exact touch.refl _ _
    have h44 : touch 0x3800000000046d8000000620040004000000000000000006000a0 a0 x42 := by
      unfold x42
      refine touch.step ?_ (touch.TOLL_FENCE ..) rfl
      exact h43
    clear_value x41 x42
    refine touch.foldl ?_ ?_
    · exact h44
    · intro u45 y46 h47
      refine touch.step ?_ (State.raise_touch ..) rfl
      exact h47
  · exact touch.refl _ _

theorem State.fetchBlock_touch : ∀ a0 a1, touch 0x200000000000000000000000000010 a0 (State.fetchBlock a0 a1) := by
  intro a0 a1
  unfold State.fetchBlock
  refine touch.foldl ?_ ?_
  · exact touch.refl _ _
  · intro u41 y42 h43
    refine touch.ite ?_ ?_
    · refine touch.step ?_ (State.tookFree_touch ..) rfl
      refine touch.step ?_ (touch.PKG_NVS_DATA ..) rfl
      exact h43
    · refine touch.step ?_ (touch.PKG_NVS_DATA ..) rfl
      exact h43

theorem State.withImage_touch : ∀ a0 a1 a2, touch 0x80000 a0 (State.withImage a0 a1 a2) := by
  intro a0 a1 a2
  unfold State.withImage
  refine touch.step ?_ (touch.upd_cfg ..) rfl
  exact touch.refl _ _

theorem State.sortSeals_touch : ∀ a0 a1 a2, touch 0x3800000000046d8000000624000004000000000000000006004b0 a0 (State.sortSeals a0 a1 a2) := by
  intro a0 a1 a2
  unfold State.sortSeals
  extract_lets x41 x42 x43 x44 x45 x46 x47 x48
  clear_value x41 x42 x43 x46 x47
  have h49 : touch 0x3800000000046d8000000624000004000000000000000006004b0 a0 x45 := by
    unfold x45
    refine touch.foldl ?_ ?_
    · refine touch.step ?_ (touch.SEAL_CTL ..) rfl
      exact touch.refl _ _
    · intro u50 y51 h52
      refine touch.step ?_ (State.raise_touch ..) rfl
      exact h52
  have h53 : touch 0x3800000000046d8000000624000004000000000000000006004b0 a0 x48 := by
    unfold x48
    refine touch.step ?_ (touch.SEAL_CTL ..) rfl
    refine touch.step ?_ (touch.SEAL_CTL ..) rfl
    refine touch.step ?_ (State.tookFree_touch ..) rfl
    exact h49
  clear_value x44 x45 x48
  refine touch.ite ?_ ?_
  · exact h49
  · refine touch.step ?_ (touch.upd_sealRequests ..) rfl
    exact h53

theorem State.fullValidated_touch : ∀ a0 a1, touch 0x3800000000046d80000006248000040000000000000000070c4b0 a0 (State.fullValidated a0 a1) := by
  intro a0 a1
  unfold State.fullValidated
  split
  · rename_i z41 z42 z43
    extract_lets x44
    have h45 : touch 0x3800000000046d80000006248000040000000000000000070c4b0 a0 x44 := by
      unfold x44
      refine touch.step ?_ (State.imageRefused_touch ..) rfl
      refine touch.step ?_ (touch.upd_loading ..) rfl
      exact touch.refl _ _
    clear_value x44
    refine touch.ite ?_ ?_
    · exact h45
    · refine touch.step ?_ (State.nextSource_touch ..) rfl
      exact h45
  · rename_i z46 z47
    extract_lets x48 x49 x50 x51
    clear_value x48
    have h52 : touch 0x3800000000046d80000006248000040000000000000000070c4b0 a0 x49 := by
      unfold x49
      refine touch.step ?_ (State.extendMr_touch ..) rfl
      exact touch.refl _ _
    have h53 : touch 0x3800000000046d80000006248000040000000000000000070c4b0 a0 x50 := by
      unfold x50
      refine touch.foldl ?_ ?_
      · exact h52
      · intro u54 y55 h56
        refine touch.step ?_ (State.extendMr_touch ..) rfl
        exact h56
    have h57 : touch 0x3800000000046d80000006248000040000000000000000070c4b0 a0 x51 := by
      unfold x51
      refine touch.step ?_ (State.sortSeals_touch ..) rfl
      exact h53
    clear_value x49 x50 x51
    refine touch.step ?_ (touch.PKG_SBS_STATUS ..) rfl
    refine touch.step ?_ (touch.upd_loading ..) rfl
    exact h57

theorem State.i3cAnswer_touch : ∀ a0 a1 a2, touch 0x40 a0 (State.i3cAnswer a0 a1 a2) := by
  intro a0 a1 a2
  unfold State.i3cAnswer
  refine touch.ite ?_ ?_
  · refine touch.step ?_ (State.emit_touch ..) rfl
    exact touch.refl _ _
  · exact touch.refl _ _

theorem State.i3cBad_touch : ∀ a0 a1, touch 0x2000000000000000000000000000000 a0 (State.i3cBad a0 a1) := by
  intro a0 a1
  unfold State.i3cBad
  refine touch.step ?_ (touch.PKG_CP_STATE ..) rfl
  exact touch.refl _ _

theorem State.intxFromDevice_touch : ∀ a0 a1 a2 a3 a4, touch 0x3800000000046d8100000620000004200000800000013006000a0 a0 (State.intxFromDevice a0 a1 a2 a3 a4) := by
  intro a0 a1 a2 a3 a4
  unfold State.intxFromDevice
  extract_lets x41
  clear_value x41
  split
  · rename_i z42 z43
    refine touch.step ?_ (State.raise_touch ..) rfl
    exact touch.refl _ _
  · rename_i z44 z45 z46
    refine touch.ite ?_ ?_
    · exact touch.refl _ _
    · refine touch.step ?_ (State.settlePin_touch ..) rfl
      refine touch.step ?_ (touch.upd_intxLevel ..) rfl
      exact touch.refl _ _

theorem State.itemTooLong_touch : ∀ a0 a1 a2, touch 0x3c3200001805ed810000062000800c0000006801007df086000f0 a0 (State.itemTooLong a0 a1 a2) := by
  intro a0 a1 a2
  unfold State.itemTooLong
  split
  · rename_i z41 z42 z43
    refine touch.step ?_ (State.answerTo_touch ..) rfl
    exact touch.refl _ _
  · rename_i z44 z45 z46 z47 z48 z49
    refine touch.step ?_ (State.logAer_touch ..) rfl
    refine touch.step ?_ (State.sendTlp_touch ..) rfl
    exact touch.refl _ _
  · rename_i z50 z51
    refine touch.ite ?_ ?_
    · refine touch.step ?_ (State.logAer_touch ..) rfl
      exact touch.refl _ _
    · exact touch.refl _ _

theorem State.restartQueue_touch : ∀ a0 a1, touch 0x2000000000000000000000000200000 a0 (State.restartQueue a0 a1) := by
  intro a0 a1
  unfold State.restartQueue
  refine touch.step ?_ (State.showUsed_touch ..) rfl
  refine touch.step ?_ (State.setQueue_touch ..) rfl
  exact touch.refl _ _

theorem State.rejoinPorts_touch : ∀ a0, touch 0x400000100002010000000000000000000040200000 a0 (State.rejoinPorts a0) := by
  intro a0
  unfold State.rejoinPorts
  extract_lets x41
  have h42 : touch 0x400000100002010000000000000000000040200000 a0 x41 := by
    unfold x41
    refine touch.foldl ?_ ?_
    · exact touch.refl _ _
    · intro u43 y44 h45
      refine touch.step ?_ (State.releaseHalf_touch ..) rfl
      refine touch.step ?_ (State.resetCrossing_touch ..) rfl
      exact h45
  clear_value x41
  refine touch.step ?_ (State.restartQueue_touch ..) rfl
  refine touch.step ?_ (State.restartQueue_touch ..) rfl
  exact h42

theorem State.leadLost_touch : ∀ a0, touch 0x3c3774c79805ed9d0100062593cc0c7006dfec173afffc8773cf0 a0 (State.leadLost a0) := by
  intro a0
  unfold State.leadLost
  refine touch.ite ?_ ?_
  · exact touch.refl _ _
  · extract_lets x41 x42 x43 x44 x45 x46
    clear_value x41
    have h47 : touch 0x3c3774c79805ed9d0100062593cc0c7006dfec173afffc8773cf0 a0 x42 := by
      unfold x42
      refine touch.step ?_ (touch.PKG_LEAD ..) rfl
      refine touch.step ?_ (touch.PKG_LEAD ..) rfl
      exact touch.refl _ _
    have h48 : touch 0x3c3774c79805ed9d0100062593cc0c7006dfec173afffc8773cf0 a0 x43 := by
      unfold x43
      refine touch.step ?_ (State.abandonAll_touch ..) rfl
      exact h47
    have h49 : touch 0x3c3774c79805ed9d0100062593cc0c7006dfec173afffc8773cf0 a0 x44 := by
      unfold x44
      refine touch.foldl ?_ ?_
      · exact h48
      · intro u50 y51 h52
        refine touch.step ?_ (State.fenceRegion_touch ..) rfl
        exact h52
    have h53 : touch 0x3c3774c79805ed9d0100062593cc0c7006dfec173afffc8773cf0 a0 x45 := by
      unfold x45
      refine touch.step ?_ (State.fenceCutOff_touch ..) rfl
      refine touch.step ?_ (State.elect_touch ..) rfl
      exact h49
    have h54 : touch 0x3c3774c79805ed9d0100062593cc0c7006dfec173afffc8773cf0 a0 x46 := by
      unfold x46
      refine touch.step ?_ (State.raise_touch ..) rfl
      exact h53
    clear_value x42 x43 x44 x45 x46
    refine touch.ite ?_ ?_
    · refine touch.step ?_ (touch.upd_mr ..) rfl
      exact h54
    · exact h54

theorem State.leadChange_touch : ∀ a0, touch 0x3c3774c79805ed9d0100062593cc0c7006dfec173afffc8773cf0 a0 (State.leadChange a0) := by
  intro a0
  unfold State.leadChange
  refine touch.ite ?_ ?_
  · exact touch.refl _ _
  · refine touch.step ?_ (State.rejoinPorts_touch ..) rfl
    refine touch.step ?_ (State.doeLost_touch ..) rfl
    refine touch.step ?_ (State.leadLost_touch ..) rfl
    exact touch.refl _ _

theorem State.learnFlight_touch : ∀ a0 a1 a2, touch 0x3801008000046d8000000620004004000000001101000806000a0 a0 (State.learnFlight a0 a1 a2) := by
  intro a0 a1 a2
  unfold State.learnFlight
  extract_lets x41 x42 x43
  clear_value x41 x42
  have h44 : touch 0x3801008000046d8000000620004004000000001101000806000a0 a0 x43 := by
    unfold x43
    refine touch.step ?_ (State.setLink_touch ..) rfl
    exact touch.refl _ _
  clear_value x43
  split
  · rename_i z45 z46 z47 z48
    extract_lets x49 x50 x51
    have h52 : touch 0x3801008000046d8000000620004004000000001101000806000a0 a0 x49 := by
      unfold x49
      refine touch.ite ?_ ?_
      · refine touch.step ?_ (State.raise_touch ..) rfl
        refine touch.step ?_ (touch.PORT_LINK ..) rfl
        exact h44
      · refine touch.step ?_ (touch.PORT_LINK ..) rfl
        exact h44
    have h53 : touch 0x3801008000046d8000000620004004000000001101000806000a0 a0 x50 := by
      unfold x50
      refine touch.step ?_ (State.setLive_touch ..) rfl
      exact h52
    have h54 : touch 0x3801008000046d8000000620004004000000001101000806000a0 a0 x51 := by
      unfold x51
      refine touch.ite ?_ ?_
      · refine touch.step ?_ (State.republish_touch ..) rfl
        exact h53
      · refine touch.ite ?_ ?_
        · refine touch.step ?_ (State.restore_touch ..) rfl
          exact h53
        · refine touch.step ?_ (State.planLengthening_touch ..) rfl
          exact h53
    clear_value x49 x50 x51
    refine touch.ite ?_ ?_
    · refine touch.step ?_ (State.raise_touch ..) rfl
      exact h54
    · exact h54

theorem State.toFlits_touch : ∀ a0 a1 a2, touch 0x10000000000040 a0 (State.toFlits a0 a1 a2) := by
  intro a0 a1 a2
  unfold State.toFlits
  extract_lets x41 x42 x43 x44
  clear_value x41 x42 x43 x44
  refine touch.step ?_ (State.emit_touch ..) rfl
  refine touch.step ?_ (State.setLink_touch ..) rfl
  exact touch.refl _ _

theorem State.lockArrives_touch : ∀ a0 a1 a2, touch 0x3c3250001805ed810000062000800c000007680100fff086000f0 a0 (State.lockArrives a0 a1 a2) := by
  intro a0 a1 a2
  unfold State.lockArrives
  refine touch.ite ?_ ?_
  · refine touch.step ?_ (State.answerTo_touch ..) rfl
    refine touch.step ?_ (State.spareTag_touch ..) rfl
    exact touch.refl _ _
  · extract_lets x41 x42 x43 x44 x45
    clear_value x41
    have h46 : touch 0x3c3250001805ed810000062000800c000007680100fff086000f0 a0 x43 := by
      unfold x43
      refine touch.step ?_ (touch.PKG_LOCK ..) rfl
      refine touch.step ?_ (touch.PKG_LOCK ..) rfl
      refine touch.step ?_ (touch.PKG_LOCK ..) rfl
      exact touch.refl _ _
    have h47 : touch 0x3c3250001805ed810000062000800c000007680100fff086000f0 a0 x44 := by
      unfold x44
      refine touch.step ?_ (touch.PORT_LOCK ..) rfl
      refine touch.step ?_ (touch.PKG_LOCK ..) rfl
      exact h46
    have h48 : touch 0x3c3250001805ed810000062000800c000007680100fff086000f0 a0 x45 := by
      unfold x45
      refine touch.step ?_ (State.setPortLock_touch ..) rfl
      exact h47
    clear_value x45
    clear_value x44
    clear_value x43
    refine touch.ite ?_ ?_
    · refine touch.step ?_ (State.issueOn_touch ..) rfl
      exact h48
    · refine touch.ite ?_ ?_
      · refine touch.step ?_ (State.issueOn_touch ..) rfl
        exact touch.refl _ _
      · refine touch.step ?_ (State.answerTo_touch ..) rfl
        refine touch.step ?_ (State.spareTag_touch ..) rfl
        exact touch.refl _ _

theorem State.unlockArrives_touch : ∀ a0 a1 a2, touch 0x3c3250001805ed810000062000c00c000007680100fff086000f0 a0 (State.unlockArrives a0 a1 a2) := by
  intro a0 a1 a2
  unfold State.unlockArrives
  extract_lets x41 x42
  clear_value x41
  have h43 : touch 0x3c3250001805ed810000062000c00c000007680100fff086000f0 a0 x42 := by
    unfold x42
    refine touch.ite ?_ ?_
    · refine touch.step ?_ (State.releasePort_touch ..) rfl
      exact touch.refl _ _
    · exact touch.refl _ _
  clear_value x42
  refine touch.step ?_ (State.answerTo_touch ..) rfl
  refine touch.step ?_ (State.spareTag_touch ..) rfl
  exact h43

theorem State.takeCredits_touch : ∀ a0 a1 a2, touch 0x10000000000000000000000000000100000000 a0 (State.takeCredits a0 a1 a2) := by
  intro a0 a1 a2
  unfold State.takeCredits
  refine touch.foldl ?_ ?_
  · exact touch.refl _ _
  · intro u41 y42 h43
    refine touch.step ?_ (State.setTotal_touch ..) rfl
    refine touch.step ?_ (State.setTotal_touch ..) rfl
    exact h43

theorem State.setL0p_touch : ∀ a0 a1 a2, touch 0x200000000000000000000000 a0 (State.setL0p a0 a1 a2) := by
  intro a0 a1 a2
  unfold State.setL0p
  refine touch.step ?_ (touch.upd_l0pPartners ..) rfl
  exact touch.refl _ _

theorem State.showLink_touch : ∀ a0 a1 a2 a3 a4, touch 0x1000000000000000000000000000000000000000000000000 a0 (State.showLink a0 a1 a2 a3 a4) := by
  intro a0 a1 a2 a3 a4
  unfold State.showLink
  extract_lets x41
  have h42 : touch 0x1000000000000000000000000000000000000000000000000 a0 x41 := by
    unfold x41
    refine touch.step ?_ (touch.PORT_PCIE ..) rfl
    refine touch.step ?_ (touch.PORT_PCIE ..) rfl
    refine touch.step ?_ (touch.PORT_PCIE ..) rfl
    exact touch.refl _ _
  clear_value x41
  refine touch.step ?_ (touch.PORT_PCIE ..) rfl
  refine touch.step ?_ (touch.PORT_PCIE ..) rfl
  refine touch.step ?_ (touch.PORT_PCIE ..) rfl
  exact h42

theorem State.linkUp_touch : ∀ a0 a1 a2 a3 a4 a5 a6, touch 0x8001005800000010000000000000200004000000000100000010 a0 (State.linkUp a0 a1 a2 a3 a4 a5 a6) := by
  intro a0 a1 a2 a3 a4 a5 a6
  unfold State.linkUp
  refine touch.step ?_ (State.setLive_touch ..) rfl
  refine touch.step ?_ (State.takeCredits_touch ..) rfl
  refine touch.step ?_ (State.portHeard_touch ..) rfl
  refine touch.step ?_ (State.equalisePcie_touch ..) rfl
  refine touch.step ?_ (State.setL0p_touch ..) rfl
  refine touch.step ?_ (State.showLink_touch ..) rfl
  exact touch.refl _ _

theorem State.lockAgain_touch : ∀ a0 a1, touch 0x41200000000 a0 (State.lockAgain a0 a1) := by
  intro a0 a1
  unfold State.lockAgain
  split
  · rename_i z41 z42
    refine touch.step ?_ (State.endLocked_touch ..) rfl
    exact touch.refl _ _
  · rename_i z43 z44 z45
    extract_lets x46
    clear_value x46
    split
    · rename_i z47 z48 z49 z50
      split
      · rename_i z51 z52 z53 z54
        have h55 : touch 0x41200000000 a0 z52 := by
          refine touch.ofEq z54 ?_
          refine touch.step ?_ (State.newId_touch ..) rfl
          exact touch.refl _ _
        extract_lets x56 x57
        clear_value x56
        have h58 : touch 0x41200000000 a0 x57 := by
          unfold x57
          refine touch.step ?_ (State.setIngress_touch ..) rfl
          exact h55
        clear_value x57
        refine touch.step ?_ (touch.upd_lockWait ..) rfl
        exact h58
    · rename_i z59 z60
      exact touch.refl _ _

theorem State.lockExpired_touch : ∀ a0 a1, touch 0x383400001005ed810000062000800400000068010071f086000e0 a0 (State.lockExpired a0 a1) := by
  intro a0 a1
  unfold State.lockExpired
  split
  · rename_i z41 z42
    refine touch.step ?_ (State.endLocked_touch ..) rfl
    exact touch.refl _ _
  · rename_i z43 z44 z45
    extract_lets x46 x47 x48 x49 x50
    have h51 : touch 0x383400001005ed810000062000800400000068010071f086000e0 a0 x46 := by
      unfold x46
      refine touch.step ?_ (State.surrogateRecord_touch ..) rfl
      exact touch.refl _ _
    have h52 : touch 0x383400001005ed810000062000800400000068010071f086000e0 a0 x47 := by
      unfold x47
      refine touch.step ?_ (State.logAer_touch ..) rfl
      refine touch.step ?_ (State.deliver_touch ..) rfl
      exact h51
    have h53 : touch 0x383400001005ed810000062000800400000068010071f086000e0 a0 x48 := by
      unfold x48
      split
      · rename_i z54 z55 z56
        refine touch.step ?_ (State.dequeue_touch ..) rfl
        exact h52
      · rename_i z57 z58
        exact h52
    have h59 : touch 0x383400001005ed810000062000800400000068010071f086000e0 a0 x49 := by
      unfold x49
      refine touch.step ?_ (State.endLive_touch ..) rfl
      refine touch.ite ?_ ?_
      · refine touch.step ?_ (State.setOutstanding_touch ..) rfl
        exact h53
      · refine touch.step ?_ (State.dropOutstanding_touch ..) rfl
        exact h53
    have h60 : touch 0x383400001005ed810000062000800400000068010071f086000e0 a0 x50 := by
      unfold x50
      refine touch.step ?_ (State.endLocked_touch ..) rfl
      refine touch.ite ?_ ?_
      · refine touch.step ?_ (State.settleSlots_touch ..) rfl
        exact h59
      · exact h59
    clear_value x46 x47 x48 x49 x50
    refine touch.step ?_ (touch.PKG_LOCK ..) rfl
    refine touch.step ?_ (State.sendUnlock_touch ..) rfl
    exact h60

theorem State.msixFromDevice_touch : ∀ a0 a1 a2 a3 a4, touch 0x3800000000046d810000062000000400000068000001b006000e0 a0 (State.msixFromDevice a0 a1 a2 a3 a4) := by
  intro a0 a1 a2 a3 a4
  unfold State.msixFromDevice
  refine touch.ite ?_ ?_
  · refine touch.step ?_ (State.logAer_touch ..) rfl
    exact touch.refl _ _
  · extract_lets x41 x42
    clear_value x41 x42
    split
    · rename_i z43 z44 z45 z46
      have h47 : touch 0x3800000000046d810000062000000400000068000001b006000e0 a0 z44 := by
        refine touch.ofEq z46 ?_
        refine touch.step ?_ (State.newId_touch ..) rfl
        exact touch.refl _ _
      refine touch.step ?_ (State.accept_touch ..) rfl
      exact h47

theorem State.newContour_touch : ∀ a0 a1 a2, touch 0x2000000000000000000000000004000000000000000000 a0 (State.newContour a0 a1 a2) := by
  intro a0 a1 a2
  unfold State.newContour
  refine touch.step ?_ (touch.LN_EYE ..) rfl
  refine touch.step ?_ (State.stopScan_touch ..) rfl
  exact touch.refl _ _

theorem State.nextArrival_touch : ∀ a0 a1, touch 0x3c3604001805ed9d0000062000800c1000006807187df086000f0 a0 (State.nextArrival a0 a1) := by
  intro a0 a1
  unfold State.nextArrival
  refine touch.step ?_ (State.takeArrival_touch ..) rfl
  exact touch.refl _ _

theorem State.unsupported_touch : ∀ a0 a1 a2, touch 0x3800000000046d8000000620000004000000680000000006000e0 a0 (State.unsupported a0 a1 a2) := by
  intro a0 a1 a2
  unfold State.unsupported
  refine touch.ite ?_ ?_
  · refine touch.step ?_ (State.answerTlp_touch ..) rfl
    exact touch.refl _ _
  · refine touch.step ?_ (State.logAer_touch ..) rfl
    exact touch.refl _ _

theorem State.noMatch_touch : ∀ a0 a1 a2, touch 0x3800000008046d8000000620000004000000680000000006000e0 a0 (State.noMatch a0 a1 a2) := by
  intro a0 a1 a2
  unfold State.noMatch
  extract_lets x41 x42
  have h43 : touch 0x3800000008046d8000000620000004000000680000000006000e0 a0 x41 := by
    unfold x41
    refine touch.step ?_ (touch.WIN_TRACK ..) rfl
    exact touch.refl _ _
  have h44 : touch 0x3800000008046d8000000620000004000000680000000006000e0 a0 x42 := by
    unfold x42
    refine touch.step ?_ (State.raise_touch ..) rfl
    exact h43
  clear_value x41 x42
  refine touch.step ?_ (State.unsupported_touch ..) rfl
  exact h44

theorem State.owedOver_touch : ∀ a0 a1 a2, touch 0x3800000000046d8000000620000004000000000020000006000a0 a0 (State.owedOver a0 a1 a2) := by
  intro a0 a1 a2
  unfold State.owedOver
  extract_lets x41
  clear_value x41
  refine touch.step ?_ (State.raise_touch ..) rfl
  refine touch.step ?_ (State.setEngine_touch ..) rfl
  exact touch.refl _ _

theorem State.owedFar_touch : ∀ a0, touch 0x3800000000046d8000000620000004000000000020000006000a0 a0 (State.owedFar a0) := by
  intro a0
  unfold State.owedFar
  extract_lets x41
  clear_value x41
  refine touch.foldl ?_ ?_
  · exact touch.refl _ _
  · intro u42 y43 h44
    refine touch.step ?_ (State.owedOver_touch ..) rfl
    exact h44

theorem State.passOn_touch : ∀ a0 a1 a2 a3, touch 0x3c320000180ded810200062000800c0000006801007df486000f0 a0 (State.passOn a0 a1 a2 a3) := by
  intro a0 a1 a2 a3
  unfold State.passOn
  split
  · rename_i z41 z42 z43 z44
    have h45 : touch 0x3c320000180ded810200062000800c0000006801007df486000f0 a0 z42 := by
      refine touch.ofEq z44 ?_
      refine touch.step ?_ (State.cross_touch ..) rfl
      exact touch.refl _ _
    extract_lets x46 x47
    clear_value x47
    have h48 : touch 0x3c320000180ded810200062000800c0000006801007df486000f0 a0 x46 := by
      unfold x46
      refine touch.step ?_ (State.dispatchSlots_touch ..) rfl
      exact h45
    clear_value x46
    refine touch.ite ?_ ?_
    · refine touch.step ?_ (State.discardWaiting_touch ..) rfl
      refine touch.step ?_ (State.countDiscards_touch ..) rfl
      exact h48
    · refine touch.ite ?_ ?_
      · refine touch.step ?_ (State.completionHere_touch ..) rfl
        exact h48
      · refine touch.step ?_ (touch.upd_waiting ..) rfl
        exact h48

theorem State.pcieFlit_touch : ∀ a0 a1, touch 0x38000000000000000000000000000000000000000000010 a0 (State.pcieFlit a0 a1) := by
  intro a0 a1
  unfold State.pcieFlit
  extract_lets x41 x42 x43 x44 x45 x46 x47 x48
  clear_value x41 x43 x45
  have h49 : touch 0x38000000000000000000000000000000000000000000010 a0 x42 := by
    unfold x42
    refine touch.step ?_ (State.tookFree_touch ..) rfl
    exact touch.refl _ _
  have h50 : touch 0x38000000000000000000000000000000000000000000010 a0 x44 := by
    unfold x44
    refine touch.step ?_ (State.tookFree_touch ..) rfl
    exact h49
  have h51 : touch 0x38000000000000000000000000000000000000000000010 a0 x46 := by
    unfold x46
    refine touch.step ?_ (State.tookFree_touch ..) rfl
    exact h50
  have h52 : touch 0x38000000000000000000000000000000000000000000010 a0 x47 := by
    unfold x47
    refine touch.step ?_ (touch.LN_FEC_CORR ..) rfl
    exact h51
  have h53 : touch 0x38000000000000000000000000000000000000000000010 a0 x48 := by
    unfold x48
    refine touch.step ?_ (touch.LN_FEC_UNC ..) rfl
    exact h52
  clear_value x42 x44 x46 x47 x48
  refine touch.step ?_ (touch.LN_BLK_ERR ..) rfl
  exact h53

theorem State.unwait_touch : ∀ a0 a1, touch 0x400000000 a0 (State.unwait a0 a1) := by
  intro a0 a1
  unfold State.unwait
  refine touch.step ?_ (touch.upd_waiting ..) rfl
  exact touch.refl _ _

theorem State.putBlock_touch : ∀ a0 a1 a2, touch 0x40000000000000000001800 a0 (State.putBlock a0 a1 a2) := by
  intro a0 a1 a2
  unfold State.putBlock
  extract_lets x41 x42 x43
  clear_value x41 x43
  have h44 : touch 0x40000000000000000001800 a0 x42 := by
    unfold x42
    refine touch.step ?_ (touch.upd_nvs ..) rfl
    exact touch.refl _ _
  clear_value x42
  split
  · rename_i z45 z46
    exact h44
  · rename_i z47 z48 z49
    refine touch.step ?_ (touch.upd_dir_bankWrite ..) rfl
    exact h44

theorem State.react_touch : ∀ a0 a1, touch 0x3c37f4c7dc05ed9d0100062093c80c3007dfec173afffc86118f0 a0 (State.react a0 a1) := by
  intro a0 a1
  unfold State.react
  split
  · rename_i z41 z42
    refine touch.step ?_ (State.containPort_touch ..) rfl
    exact touch.refl _ _
  · rename_i z43 z44
    refine touch.step ?_ (State.containWindow_touch ..) rfl
    exact touch.refl _ _
  · rename_i z45 z46
    refine touch.step ?_ (State.fenceCluster_touch ..) rfl
    exact touch.refl _ _
  · rename_i z47 z48
    refine touch.step ?_ (State.fenceRegion_touch ..) rfl
    exact touch.refl _ _
  · rename_i z49 z50
    refine touch.ite ?_ ?_
    · exact touch.refl _ _
    · refine touch.step ?_ (State.halt_touch ..) rfl
      exact touch.refl _ _
  · rename_i z51 z52 z53
    extract_lets x54
    clear_value x54
    refine touch.ite ?_ ?_
    · exact touch.refl _ _
    · refine touch.step ?_ (State.fire_touch ..) rfl
      exact touch.refl _ _

theorem State.reactAll_touch : ∀ a0, touch 0x3c37f4c7dc05ed9d0100062093c80c3007dfec173afffc86118f0 a0 (State.reactAll a0) := by
  intro a0
  unfold State.reactAll
  refine touch.foldl ?_ ?_
  · refine touch.step ?_ (touch.upd_actions ..) rfl
    exact touch.refl _ _
  · intro u41 y42 h43
    refine touch.step ?_ (State.react_touch ..) rfl
    exact h43

theorem State.readTally_touch : ∀ a0, touch 0x3800000000046d8000000620000004000000000000001006018a0 a0 (State.readTally a0) := by
  intro a0
  unfold State.readTally
  extract_lets x41 x42
  clear_value x41
  have h43 : touch 0x3800000000046d8000000620000004000000000000001006018a0 a0 x42 := by
    unfold x42
    refine touch.step ?_ (touch.upd_ledgers ..) rfl
    exact touch.refl _ _
  clear_value x42
  refine touch.ite ?_ ?_
  · exact touch.refl _ _
  · refine touch.foldl ?_ ?_
    · exact h43
    · intro u44 y45 h46
      refine touch.ite ?_ ?_
      · refine touch.ite ?_ ?_
        · refine touch.step ?_ (State.persist_touch ..) rfl
          exact h46
        · exact h46
      · refine touch.ite ?_ ?_
        · refine touch.step ?_ (State.raise_touch ..) rfl
          exact h46
        · exact h46

theorem State.readyL23_touch : ∀ a0 a1, touch 0x1000000000000000000000000000000000000000000000000 a0 (State.readyL23 a0 a1) := by
  intro a0 a1
  unfold State.readyL23
  refine touch.ite ?_ ?_
  · refine touch.step ?_ (touch.PORT_PCIE ..) rfl
    exact touch.refl _ _
  · exact touch.refl _ _

theorem State.requestReplay_touch : ∀ a0 a1 a2, touch 0x80000000000000000000000000000000010000000000000 a0 (State.requestReplay a0 a1 a2) := by
  intro a0 a1 a2
  unfold State.requestReplay
  refine touch.ite ?_ ?_
  · exact touch.refl _ _
  · extract_lets x41 x42
    clear_value x41
    have h43 : touch 0x80000000000000000000000000000000010000000000000 a0 x42 := by
      unfold x42
      refine touch.step ?_ (State.noteNull_touch ..) rfl
      refine touch.step ?_ (State.setLink_touch ..) rfl
      exact touch.refl _ _
    clear_value x42
    refine touch.step ?_ (touch.PORT_LINK ..) rfl
    refine touch.step ?_ (touch.PORT_LINK ..) rfl
    exact h43

theorem State.rewind_touch : ∀ a0 a1, touch 0x380100c780046d8100000620004004000040001100005006000a0 a0 (State.rewind a0 a1) := by
  intro a0 a1
  unfold State.rewind
  extract_lets x41 x42 x43
  clear_value x41 x43
  have h44 : touch 0x380100c780046d8100000620004004000040001100005006000a0 a0 x42 := by
    unfold x42
    refine touch.step ?_ (touch.PORT_LINK ..) rfl
    refine touch.step ?_ (State.setLink_touch ..) rfl
    exact touch.refl _ _
  clear_value x42
  refine touch.ite ?_ ?_
  · refine touch.step ?_ (State.retrainPort_touch ..) rfl
    refine touch.step ?_ (State.setLink_touch ..) rfl
    exact h44
  · exact h44

theorem State.release_touch : ∀ a0 a1 a2, touch 0x80000000010000000000000000000000010000100000000 a0 (State.release a0 a1 a2) := by
  intro a0 a1 a2
  unfold State.release
  refine touch.ite ?_ ?_
  · exact touch.refl _ _
  · extract_lets x41
    clear_value x41
    refine touch.step ?_ (State.showHeld_touch ..) rfl
    refine touch.step ?_ (State.setLink_touch ..) rfl
    exact touch.refl _ _

theorem State.takeInit_touch : ∀ a0 a1 a2, touch 0x3c3704c79805ed9d0000062000c80c1000c068171a7df886000f0 a0 (State.takeInit a0 a1 a2) := by
  intro a0 a1 a2
  unfold State.takeInit
  extract_lets x41 x42 x43 x44 x45 x46 x47
  clear_value x41 x42 x43 x44 x46 x47
  have h48 : touch 0x3c3704c79805ed9d0000062000c80c1000c068171a7df886000f0 a0 x45 := by
    unfold x45
    refine touch.step ?_ (State.setLink_touch ..) rfl
    exact touch.refl _ _
  clear_value x45
  refine touch.ite ?_ ?_
  · refine touch.step ?_ (State.raise_touch ..) rfl
    refine touch.ite ?_ ?_
    · refine touch.step ?_ (touch.PORT_LINK ..) rfl
      exact h48
    · exact h48
  · refine touch.ite ?_ ?_
    · refine touch.ite ?_ ?_
      · refine touch.step ?_ (State.bfLinkDown_touch ..) rfl
        exact h48
      · refine touch.step ?_ (State.initDone_touch ..) rfl
        refine touch.step ?_ (State.rewind_touch ..) rfl
        refine touch.step ?_ (State.release_touch ..) rfl
        refine touch.step ?_ (State.setLink_touch ..) rfl
        exact h48
    · refine touch.ite ?_ ?_
      · exact h48
      · refine touch.step ?_ (State.initDone_touch ..) rfl
        exact h48

theorem State.takeAck_touch : ∀ a0 a1 a2 a3 a4, touch 0x3c3704c79805ed9d0000062000c80c1000c068171a7df086000f0 a0 (State.takeAck a0 a1 a2 a3 a4) := by
  intro a0 a1 a2 a3 a4
  unfold State.takeAck
  extract_lets x41 x42 x43
  clear_value x41 x43
  have h44 : touch 0x3c3704c79805ed9d0000062000c80c1000c068171a7df086000f0 a0 x42 := by
    unfold x42
    refine touch.step ?_ (State.release_touch ..) rfl
    exact touch.refl _ _
  clear_value x42
  refine touch.ite ?_ ?_
  · refine touch.step ?_ (State.bfLinkDown_touch ..) rfl
    refine touch.step ?_ (touch.CL_XSTAT ..) rfl
    exact touch.refl _ _
  · refine touch.ite ?_ ?_
    · refine touch.step ?_ (State.rewind_touch ..) rfl
      refine touch.step ?_ (State.setLink_touch ..) rfl
      exact h44
    · exact h44

theorem State.takeCredit_touch : ∀ a0 a1 a2 a3, touch 0x10000000000000000000000010000100000000 a0 (State.takeCredit a0 a1 a2 a3) := by
  intro a0 a1 a2 a3
  unfold State.takeCredit
  refine touch.ite ?_ ?_
  · exact touch.refl _ _
  · extract_lets x41 x42 x43 x44 x45
    clear_value x41 x42 x43 x44
    have h46 : touch 0x10000000000000000000000010000100000000 a0 x45 := by
      unfold x45
      refine touch.step ?_ (State.setLink_touch ..) rfl
      exact touch.refl _ _
    clear_value x45
    refine touch.step ?_ (State.returnAll_touch ..) rfl
    exact h46

theorem State.takeTally_touch : ∀ a0 a1 a2 a3, touch 0x3c370cc79805ed9d0000062000c80c1000c068171a7df086000f0 a0 (State.takeTally a0 a1 a2 a3) := by
  intro a0 a1 a2 a3
  unfold State.takeTally
  extract_lets x41 x42 x43 x44
  clear_value x41 x44
  have h45 : touch 0x3c370cc79805ed9d0000062000c80c1000c068171a7df086000f0 a0 x42 := by
    unfold x42
    refine touch.step ?_ (State.setLink_touch ..) rfl
    refine touch.step ?_ (touch.PORT_TALLY ..) rfl
    exact touch.refl _ _
  have h46 : touch 0x3c370cc79805ed9d0000062000c80c1000c068171a7df086000f0 a0 x43 := by
    unfold x43
    refine touch.foldl ?_ ?_
    · exact h45
    · intro u47 y48 h49
      extract_lets x50 x51
      clear_value x50 x51
      refine touch.step ?_ (State.returnAll_touch ..) rfl
      refine touch.step ?_ (State.setLink_touch ..) rfl
      exact h49
  clear_value x42 x43
  split
  · rename_i z52 z53 z54
    extract_lets x55 x56
    have h57 : touch 0x3c370cc79805ed9d0000062000c80c1000c068171a7df086000f0 a0 x55 := by
      unfold x55
      refine touch.step ?_ (touch.PORT_TALLY ..) rfl
      refine touch.step ?_ (touch.PORT_TALLY ..) rfl
      exact h45
    have h58 : touch 0x3c370cc79805ed9d0000062000c80c1000c068171a7df086000f0 a0 x56 := by
      unfold x56
      refine touch.step ?_ (touch.PORT_TALLY ..) rfl
      exact h57
    clear_value x55 x56
    refine touch.step ?_ (State.bfLinkDown_touch ..) rfl
    refine touch.step ?_ (State.raise_touch ..) rfl
    exact h58
  · rename_i z59 z60
    refine touch.step ?_ (State.setLink_touch ..) rfl
    exact h46

theorem State.receiveFlit_touch : ∀ a0 a1 a2 a3, touch 0x3c370dc79805ed9d0000062000c80c1000c068171a7df886000f0 a0 (State.receiveFlit a0 a1 a2 a3) := by
  intro a0 a1 a2 a3
  unfold State.receiveFlit
  extract_lets x41 x42 x43 x44 x45 x46 x47 x48 x49 x50 x51 x52
  clear_value x41 x43 x44 x45 x49 x50
  have h53 : touch 0x3c370dc79805ed9d0000062000c80c1000c068171a7df886000f0 a0 x42 := by
    unfold x42
    refine touch.step ?_ (State.raise_touch ..) rfl
    refine touch.step ?_ (State.countPort_touch ..) rfl
    refine touch.step ?_ (touch.PORT_CRC_ERR ..) rfl
    exact touch.refl _ _
  have h54 : touch 0x3c370dc79805ed9d0000062000c80c1000c068171a7df886000f0 a0 x46 := by
    unfold x46
    refine touch.ite ?_ ?_
    · refine touch.step ?_ (State.takeInit_touch ..) rfl
      exact touch.refl _ _
    · exact touch.refl _ _
  have h55 : touch 0x3c370dc79805ed9d0000062000c80c1000c068171a7df886000f0 a0 x47 := by
    unfold x47
    refine touch.ite ?_ ?_
    · refine touch.step ?_ (State.takeAck_touch ..) rfl
      exact h54
    · exact h54
  have h56 : touch 0x3c370dc79805ed9d0000062000c80c1000c068171a7df886000f0 a0 x48 := by
    unfold x48
    refine touch.step ?_ (State.takeCredit_touch ..) rfl
    refine touch.step ?_ (State.takeCredit_touch ..) rfl
    exact h55
  have h57 : touch 0x3c370dc79805ed9d0000062000c80c1000c068171a7df886000f0 a0 x51 := by
    unfold x51
    refine touch.step ?_ (touch.PORT_LINK ..) rfl
    refine touch.step ?_ (touch.PORT_LINK ..) rfl
    exact h56
  have h58 : touch 0x3c370dc79805ed9d0000062000c80c1000c068171a7df886000f0 a0 x52 := by
    unfold x52
    refine touch.step ?_ (State.noteNull_touch ..) rfl
    exact h57
  clear_value x42 x46 x47 x48 x51 x52
  refine touch.ite ?_ ?_
  · exact touch.refl _ _
  · refine touch.ite ?_ ?_
    · refine touch.step ?_ (State.requestReplay_touch ..) rfl
      exact h53
    · refine touch.ite ?_ ?_
      · exact h54
      · refine touch.ite ?_ ?_
        · exact h55
        · refine touch.ite ?_ ?_
          · exact h56
          · refine touch.ite ?_ ?_
            · refine touch.ite ?_ ?_
              · refine touch.step ?_ (State.takeElements_touch ..) rfl
                exact h58
              · refine touch.step ?_ (State.takeTally_touch ..) rfl
                exact h58
            · refine touch.ite ?_ ?_
              · exact h56
              · refine touch.step ?_ (State.requestReplay_touch ..) rfl
                exact h56

theorem State.receiveLocked_touch : ∀ a0 a1 a2, touch 0x3800000008046d81000006200000040000006804a041b006000e0 a0 (State.receiveLocked a0 a1 a2) := by
  intro a0 a1 a2
  unfold State.receiveLocked
  refine touch.ite ?_ ?_
  · refine touch.step ?_ (State.handTlp_touch ..) rfl
    exact touch.refl _ _
  · split
    · rename_i z41 z42
      refine touch.step ?_ (State.unsupported_touch ..) rfl
      exact touch.refl _ _
    · rename_i z43 z44 z45
      split
      · rename_i z46 z47
        refine touch.step ?_ (State.noMatch_touch ..) rfl
        exact touch.refl _ _
      · rename_i z48 z49 z50
        extract_lets x51 x52 x53
        clear_value x51 x52 x53
        split
        · rename_i z54 z55 z56
          refine touch.ite ?_ ?_
          · refine touch.step ?_ (State.unsupported_touch ..) rfl
            exact touch.refl _ _
          · split
            · rename_i z57 z58 z59
              refine touch.step ?_ (State.answerTlp_touch ..) rfl
              exact touch.refl _ _
            · rename_i z60 z61
              split
              · rename_i z62 z63 z64 z65
                have h66 : touch 0x3800000008046d81000006200000040000006804a041b006000e0 a0 z63 := by
                  refine touch.ofEq z65 ?_
                  refine touch.step ?_ (State.newId_touch ..) rfl
                  exact touch.refl _ _
                extract_lets x67
                have h68 : touch 0x3800000008046d81000006200000040000006804a041b006000e0 a0 x67 := by
                  unfold x67
                  refine touch.step ?_ (touch.upd_lockWait ..) rfl
                  exact h66
                clear_value x67
                refine touch.step ?_ (State.accept_touch ..) rfl
                exact h68
        · rename_i z69 z70
          refine touch.step ?_ (State.unsupported_touch ..) rfl
          exact touch.refl _ _

theorem State.translate_touch : ∀ a0 a1 a2 a3 a4, touch 0x3c3400001805ed9d0000062000800c1000006807187df086000e0 a0 (State.translate a0 a1 a2 a3 a4) := by
  intro a0 a1 a2 a3 a4
  unfold State.translate
  extract_lets x41 x42 x43 x44 x45
  clear_value x41 x42 x43 x44 x45
  split
  · rename_i z46 z47 z48 z49
    have h50 : touch 0x3c3400001805ed9d0000062000800c1000006807187df086000e0 a0 z47 := by
      refine touch.ofEq z49 ?_
      refine touch.step ?_ (State.newId_touch ..) rfl
      exact touch.refl _ _
    extract_lets x51 x52 x53 x54 x55 x56 x57 x58 x59 x60 x61 x62 x63 x64 x65
    clear_value x52 x53 x55 x56 x57 x59 x60 x61 x64 x65
    have h66 : touch 0x3c3400001805ed9d0000062000800c1000006807187df086000e0 a0 x54 := by
      unfold x54
      refine touch.step ?_ (State.cancelOverlap_touch ..) rfl
      exact h50
    have h67 : touch 0x3c3400001805ed9d0000062000800c1000006807187df086000e0 a0 x58 := by
      unfold x58
      refine touch.step ?_ (State.countCl_touch ..) rfl
      refine touch.step ?_ (State.useStream_touch ..) rfl
      exact h50
    have h68 : touch 0x3c3400001805ed9d0000062000800c1000006807187df086000e0 a0 x62 := by
      unfold x62
      refine touch.step ?_ (State.accept_touch ..) rfl
      exact h67
    have h69 : touch 0x3c3400001805ed9d0000062000800c1000006807187df086000e0 a0 x63 := by
      unfold x63
      refine touch.ite ?_ ?_
      · refine touch.step ?_ (State.progress_touch ..) rfl
        exact h68
      · exact h68
    clear_value x51 x54 x58 x62 x63
    split
    · rename_i z70 z71
      refine touch.ite ?_ ?_
      · refine touch.step ?_ (State.accept_touch ..) rfl
        exact h66
      · split
        · rename_i z72 z73 z74 z75
          have h76 : touch 0x3c3400001805ed9d0000062000800c1000006807187df086000e0 a0 z73 := by
            refine touch.ofEq z75 ?_
            refine touch.step ?_ (State.postedTags_touch ..) rfl
            exact h66
          refine touch.step ?_ (State.accept_touch ..) rfl
          exact h76
    · rename_i z77 z78
      refine touch.step ?_ (State.runAhead_touch ..) rfl
      exact h69
    · rename_i z79 z80 z81
      split
      · rename_i z82 z83
        refine touch.step ?_ (State.unsupported_touch ..) rfl
        exact h50
      · rename_i z84 z85 z86
        extract_lets x87
        clear_value x87
        refine touch.ite ?_ ?_
        · refine touch.step ?_ (State.unsupported_touch ..) rfl
          exact h50
        · refine touch.step ?_ (State.accept_touch ..) rfl
          exact h50

theorem State.receiveRequest_touch : ∀ a0 a1 a2, touch 0x3c3410001805ed9d0000062000800c1000006807187df086000e0 a0 (State.receiveRequest a0 a1 a2) := by
  intro a0 a1 a2
  unfold State.receiveRequest
  extract_lets x41 x42
  have h43 : touch 0x3c3410001805ed9d0000062000800c1000006807187df086000e0 a0 x41 := by
    unfold x41
    refine touch.ite ?_ ?_
    · refine touch.step ?_ (State.logAer_touch ..) rfl
      refine touch.step ?_ (State.raise_touch ..) rfl
      exact touch.refl _ _
    · exact touch.refl _ _
  have h44 : touch 0x3c3410001805ed9d0000062000800c1000006807187df086000e0 a0 x42 := by
    unfold x42
    refine touch.ite ?_ ?_
    · refine touch.step ?_ (State.logAer_touch ..) rfl
      refine touch.step ?_ (State.raise_touch ..) rfl
      exact h43
    · exact h43
  clear_value x41 x42
  split
  · rename_i z45 z46
    refine touch.step ?_ (State.unsupported_touch ..) rfl
    exact h43
  · rename_i z47 z48
    refine touch.step ?_ (State.unsupported_touch ..) rfl
    exact h43
  · rename_i z49 z50
    refine touch.step ?_ (State.unsupported_touch ..) rfl
    exact h43
  · rename_i z51 z52
    refine touch.step ?_ (State.unsupported_touch ..) rfl
    exact h43
  · rename_i z53 z54 z55
    refine touch.ite ?_ ?_
    · refine touch.step ?_ (State.readyL23_touch ..) rfl
      exact h43
    · refine touch.step ?_ (State.logAer_touch ..) rfl
      exact h43
  · rename_i z56 z57
    refine touch.step ?_ (State.logAer_touch ..) rfl
    exact h43
  · rename_i z58 z59
    refine touch.step ?_ (State.logAer_touch ..) rfl
    exact h43
  · rename_i z60 z61 z62
    exact h43
  · rename_i z63 z64 z65
    exact h43
  · rename_i z66 z67 z68
    exact h43
  · rename_i z69 z70
    refine touch.ite ?_ ?_
    · refine touch.step ?_ (State.unsupported_touch ..) rfl
      exact h43
    · exact h43
  · rename_i z71 z72
    refine touch.ite ?_ ?_
    · refine touch.step ?_ (State.unsupported_touch ..) rfl
      exact h44
    · split
      · rename_i z73 z74
        refine touch.step ?_ (State.unsupported_touch ..) rfl
        exact h44
      · rename_i z75 z76 z77
        split
        · rename_i z78 z79
          refine touch.step ?_ (State.noMatch_touch ..) rfl
          exact h43
        · rename_i z80 z81 z82
          split
          · rename_i z83 z84 z85
            refine touch.ite ?_ ?_
            · refine touch.step ?_ (State.answerTlp_touch ..) rfl
              exact h43
            · refine touch.ite ?_ ?_
              · refine touch.step ?_ (State.logAer_touch ..) rfl
                exact h43
              · split
                · rename_i z86 z87 z88 z89
                  have h90 : touch 0x3c3410001805ed9d0000062000800c1000006807187df086000e0 a0 z87 := by
                    refine touch.ofEq z89 ?_
                    refine touch.step ?_ (State.postedTags_touch ..) rfl
                    exact h43
                  refine touch.foldl ?_ ?_
                  · exact h90
                  · intro u91 y92 h93
                    refine touch.step ?_ (State.lose_touch ..) rfl
                    exact h93
          · rename_i z94 z95
            refine touch.ite ?_ ?_
            · refine touch.step ?_ (State.translate_touch ..) rfl
              exact h43
            · refine touch.ite ?_ ?_
              · split
                · rename_i z96 z97 z98 z99
                  have h100 : touch 0x3c3410001805ed9d0000062000800c1000006807187df086000e0 a0 z97 := by
                    refine touch.ofEq z99 ?_
                    refine touch.step ?_ (State.newId_touch ..) rfl
                    exact h43
                  extract_lets x101 x102 x103
                  clear_value x101 x102
                  have h104 : touch 0x3c3410001805ed9d0000062000800c1000006807187df086000e0 a0 x103 := by
                    unfold x103
                    refine touch.step ?_ (State.cancelOverlap_touch ..) rfl
                    exact h100
                  clear_value x103
                  refine touch.ite ?_ ?_
                  · refine touch.step ?_ (State.accept_touch ..) rfl
                    exact h100
                  · split
                    · rename_i z105 z106 z107 z108
                      have h109 : touch 0x3c3410001805ed9d0000062000800c1000006807187df086000e0 a0 z106 := by
                        refine touch.ofEq z108 ?_
                        refine touch.step ?_ (State.postedTags_touch ..) rfl
                        exact h104
                      refine touch.step ?_ (State.accept_touch ..) rfl
                      exact h109
              · refine touch.ite ?_ ?_
                · refine touch.step ?_ (State.msixFromDevice_touch ..) rfl
                  exact h43
                · refine touch.step ?_ (State.unsupported_touch ..) rfl
                  exact h43
  · rename_i z110 z111
    refine touch.ite ?_ ?_
    · refine touch.step ?_ (State.unsupported_touch ..) rfl
      exact h44
    · split
      · rename_i z112 z113
        refine touch.step ?_ (State.unsupported_touch ..) rfl
        exact h44
      · rename_i z114 z115 z116
        split
        · rename_i z117 z118
          refine touch.step ?_ (State.noMatch_touch ..) rfl
          exact h43
        · rename_i z119 z120 z121
          split
          · rename_i z122 z123 z124
            refine touch.ite ?_ ?_
            · refine touch.step ?_ (State.answerTlp_touch ..) rfl
              exact h43
            · refine touch.ite ?_ ?_
              · refine touch.step ?_ (State.logAer_touch ..) rfl
                exact h43
              · split
                · rename_i z125 z126 z127 z128
                  have h129 : touch 0x3c3410001805ed9d0000062000800c1000006807187df086000e0 a0 z126 := by
                    refine touch.ofEq z128 ?_
                    refine touch.step ?_ (State.postedTags_touch ..) rfl
                    exact h43
                  refine touch.foldl ?_ ?_
                  · exact h129
                  · intro u130 y131 h132
                    refine touch.step ?_ (State.lose_touch ..) rfl
                    exact h132
          · rename_i z133 z134
            refine touch.ite ?_ ?_
            · refine touch.step ?_ (State.translate_touch ..) rfl
              exact h43
            · refine touch.ite ?_ ?_
              · split
                · rename_i z135 z136 z137 z138
                  have h139 : touch 0x3c3410001805ed9d0000062000800c1000006807187df086000e0 a0 z136 := by
                    refine touch.ofEq z138 ?_
                    refine touch.step ?_ (State.newId_touch ..) rfl
                    exact h43
                  extract_lets x140 x141 x142
                  clear_value x140 x141
                  have h143 : touch 0x3c3410001805ed9d0000062000800c1000006807187df086000e0 a0 x142 := by
                    unfold x142
                    refine touch.step ?_ (State.cancelOverlap_touch ..) rfl
                    exact h139
                  clear_value x142
                  refine touch.ite ?_ ?_
                  · refine touch.step ?_ (State.accept_touch ..) rfl
                    exact h139
                  · split
                    · rename_i z144 z145 z146 z147
                      have h148 : touch 0x3c3410001805ed9d0000062000800c1000006807187df086000e0 a0 z145 := by
                        refine touch.ofEq z147 ?_
                        refine touch.step ?_ (State.postedTags_touch ..) rfl
                        exact h143
                      refine touch.step ?_ (State.accept_touch ..) rfl
                      exact h148
              · refine touch.ite ?_ ?_
                · refine touch.step ?_ (State.msixFromDevice_touch ..) rfl
                  exact h43
                · refine touch.step ?_ (State.unsupported_touch ..) rfl
                  exact h43
  · rename_i z149 z150
    refine touch.ite ?_ ?_
    · refine touch.step ?_ (State.unsupported_touch ..) rfl
      exact h44
    · split
      · rename_i z151 z152
        refine touch.step ?_ (State.unsupported_touch ..) rfl
        exact h44
      · rename_i z153 z154 z155
        split
        · rename_i z156 z157
          refine touch.step ?_ (State.noMatch_touch ..) rfl
          exact h43
        · rename_i z158 z159 z160
          split
          · rename_i z161 z162 z163
            refine touch.ite ?_ ?_
            · refine touch.step ?_ (State.answerTlp_touch ..) rfl
              exact h43
            · refine touch.ite ?_ ?_
              · refine touch.step ?_ (State.logAer_touch ..) rfl
                exact h43
              · split
                · rename_i z164 z165 z166 z167
                  have h168 : touch 0x3c3410001805ed9d0000062000800c1000006807187df086000e0 a0 z165 := by
                    refine touch.ofEq z167 ?_
                    refine touch.step ?_ (State.postedTags_touch ..) rfl
                    exact h43
                  refine touch.foldl ?_ ?_
                  · exact h168
                  · intro u169 y170 h171
                    refine touch.step ?_ (State.lose_touch ..) rfl
                    exact h171
          · rename_i z172 z173
            refine touch.ite ?_ ?_
            · refine touch.step ?_ (State.translate_touch ..) rfl
              exact h43
            · refine touch.ite ?_ ?_
              · split
                · rename_i z174 z175 z176 z177
                  have h178 : touch 0x3c3410001805ed9d0000062000800c1000006807187df086000e0 a0 z175 := by
                    refine touch.ofEq z177 ?_
                    refine touch.step ?_ (State.newId_touch ..) rfl
                    exact h43
                  extract_lets x179 x180 x181
                  clear_value x179 x180
                  have h182 : touch 0x3c3410001805ed9d0000062000800c1000006807187df086000e0 a0 x181 := by
                    unfold x181
                    refine touch.step ?_ (State.cancelOverlap_touch ..) rfl
                    exact h178
                  clear_value x181
                  refine touch.ite ?_ ?_
                  · refine touch.step ?_ (State.accept_touch ..) rfl
                    exact h178
                  · split
                    · rename_i z183 z184 z185 z186
                      have h187 : touch 0x3c3410001805ed9d0000062000800c1000006807187df086000e0 a0 z184 := by
                        refine touch.ofEq z186 ?_
                        refine touch.step ?_ (State.postedTags_touch ..) rfl
                        exact h182
                      refine touch.step ?_ (State.accept_touch ..) rfl
                      exact h187
              · refine touch.ite ?_ ?_
                · refine touch.step ?_ (State.msixFromDevice_touch ..) rfl
                  exact h43
                · refine touch.step ?_ (State.unsupported_touch ..) rfl
                  exact h43
  · rename_i z188 z189
    refine touch.ite ?_ ?_
    · refine touch.step ?_ (State.unsupported_touch ..) rfl
      exact h44
    · split
      · rename_i z190 z191
        refine touch.step ?_ (State.unsupported_touch ..) rfl
        exact h44
      · rename_i z192 z193 z194
        split
        · rename_i z195 z196
          refine touch.step ?_ (State.noMatch_touch ..) rfl
          exact h43
        · rename_i z197 z198 z199
          split
          · rename_i z200 z201 z202
            refine touch.ite ?_ ?_
            · refine touch.step ?_ (State.answerTlp_touch ..) rfl
              exact h43
            · refine touch.ite ?_ ?_
              · refine touch.step ?_ (State.logAer_touch ..) rfl
                exact h43
              · split
                · rename_i z203 z204 z205 z206
                  have h207 : touch 0x3c3410001805ed9d0000062000800c1000006807187df086000e0 a0 z204 := by
                    refine touch.ofEq z206 ?_
                    refine touch.step ?_ (State.postedTags_touch ..) rfl
                    exact h43
                  refine touch.foldl ?_ ?_
                  · exact h207
                  · intro u208 y209 h210
                    refine touch.step ?_ (State.lose_touch ..) rfl
                    exact h210
          · rename_i z211 z212
            refine touch.ite ?_ ?_
            · refine touch.step ?_ (State.translate_touch ..) rfl
              exact h43
            · refine touch.ite ?_ ?_
              · split
                · rename_i z213 z214 z215 z216
                  have h217 : touch 0x3c3410001805ed9d0000062000800c1000006807187df086000e0 a0 z214 := by
                    refine touch.ofEq z216 ?_
                    refine touch.step ?_ (State.newId_touch ..) rfl
                    exact h43
                  extract_lets x218 x219 x220
                  clear_value x218 x219
                  have h221 : touch 0x3c3410001805ed9d0000062000800c1000006807187df086000e0 a0 x220 := by
                    unfold x220
                    refine touch.step ?_ (State.cancelOverlap_touch ..) rfl
                    exact h217
                  clear_value x220
                  refine touch.ite ?_ ?_
                  · refine touch.step ?_ (State.accept_touch ..) rfl
                    exact h217
                  · split
                    · rename_i z222 z223 z224 z225
                      have h226 : touch 0x3c3410001805ed9d0000062000800c1000006807187df086000e0 a0 z223 := by
                        refine touch.ofEq z225 ?_
                        refine touch.step ?_ (State.postedTags_touch ..) rfl
                        exact h221
                      refine touch.step ?_ (State.accept_touch ..) rfl
                      exact h226
              · refine touch.ite ?_ ?_
                · refine touch.step ?_ (State.msixFromDevice_touch ..) rfl
                  exact h43
                · refine touch.step ?_ (State.unsupported_touch ..) rfl
                  exact h43
  · rename_i z227 z228
    refine touch.ite ?_ ?_
    · refine touch.step ?_ (State.unsupported_touch ..) rfl
      exact h44
    · split
      · rename_i z229 z230
        refine touch.step ?_ (State.unsupported_touch ..) rfl
        exact h44
      · rename_i z231 z232 z233
        split
        · rename_i z234 z235
          refine touch.step ?_ (State.noMatch_touch ..) rfl
          exact h43
        · rename_i z236 z237 z238
          split
          · rename_i z239 z240 z241
            refine touch.ite ?_ ?_
            · refine touch.step ?_ (State.answerTlp_touch ..) rfl
              exact h43
            · refine touch.ite ?_ ?_
              · refine touch.step ?_ (State.logAer_touch ..) rfl
                exact h43
              · split
                · rename_i z242 z243 z244 z245
                  have h246 : touch 0x3c3410001805ed9d0000062000800c1000006807187df086000e0 a0 z243 := by
                    refine touch.ofEq z245 ?_
                    refine touch.step ?_ (State.postedTags_touch ..) rfl
                    exact h43
                  refine touch.foldl ?_ ?_
                  · exact h246
                  · intro u247 y248 h249
                    refine touch.step ?_ (State.lose_touch ..) rfl
                    exact h249
          · rename_i z250 z251
            refine touch.ite ?_ ?_
            · refine touch.step ?_ (State.translate_touch ..) rfl
              exact h43
            · refine touch.ite ?_ ?_
              · split
                · rename_i z252 z253 z254 z255
                  have h256 : touch 0x3c3410001805ed9d0000062000800c1000006807187df086000e0 a0 z253 := by
                    refine touch.ofEq z255 ?_
                    refine touch.step ?_ (State.newId_touch ..) rfl
                    exact h43
                  extract_lets x257 x258 x259
                  clear_value x257 x258
                  have h260 : touch 0x3c3410001805ed9d0000062000800c1000006807187df086000e0 a0 x259 := by
                    unfold x259
                    refine touch.step ?_ (State.cancelOverlap_touch ..) rfl
                    exact h256
                  clear_value x259
                  refine touch.ite ?_ ?_
                  · refine touch.step ?_ (State.accept_touch ..) rfl
                    exact h256
                  · split
                    · rename_i z261 z262 z263 z264
                      have h265 : touch 0x3c3410001805ed9d0000062000800c1000006807187df086000e0 a0 z262 := by
                        refine touch.ofEq z264 ?_
                        refine touch.step ?_ (State.postedTags_touch ..) rfl
                        exact h260
                      refine touch.step ?_ (State.accept_touch ..) rfl
                      exact h265
              · refine touch.ite ?_ ?_
                · refine touch.step ?_ (State.msixFromDevice_touch ..) rfl
                  exact h43
                · refine touch.step ?_ (State.unsupported_touch ..) rfl
                  exact h43

theorem State.recovered_touch : ∀ a0 a1 a2 a3, touch 0x3801100000046d8000000620004004000000001000000006000a0 a0 (State.recovered a0 a1 a2 a3) := by
  intro a0 a1 a2 a3
  unfold State.recovered
  extract_lets x41
  have h42 : touch 0x3801100000046d8000000620004004000000001000000006000a0 a0 x41 := by
    unfold x41
    refine touch.step ?_ (touch.PORT_PCIE ..) rfl
    exact touch.refl _ _
  clear_value x41
  refine touch.step ?_ (State.republish_touch ..) rfl
  refine touch.step ?_ (touch.PORT_PCIE ..) rfl
  refine touch.step ?_ (touch.PORT_PCIE ..) rfl
  refine touch.step ?_ (touch.PORT_PCIE ..) rfl
  exact h42

theorem State.regionValidated_touch : ∀ a0 a1, touch 0x3800000000046d8000000620800804000000000000000806100a0 a0 (State.regionValidated a0 a1) := by
  intro a0 a1
  unfold State.regionValidated
  split
  · rename_i z41 z42 z43
    refine touch.step ?_ (State.afterReload_touch ..) rfl
    extract_lets x44
    have h45 : touch 0x3800000000046d8000000620800804000000000000000806100a0 a0 x44 := by
      unfold x44
      refine touch.step ?_ (State.imageRefused_touch ..) rfl
      exact touch.refl _ _
    clear_value x44
    refine touch.step ?_ (touch.upd_reload ..) rfl
    exact h45
  · rename_i z46 z47
    extract_lets x48
    clear_value x48
    refine touch.step ?_ (touch.upd_reload ..) rfl
    exact touch.refl _ _

theorem State.releaseCommit_touch : ∀ a0 a1, touch 0x3c3000001007ed830000062000000400000000040009b186000a0 a0 (State.releaseCommit a0 a1) := by
  intro a0 a1
  unfold State.releaseCommit
  split
  · rename_i z41 z42
    exact touch.refl _ _
  · rename_i z43 z44 z45
    refine touch.ite ?_ ?_
    · exact touch.refl _ _
    · extract_lets x46 x47
      have h48 : touch 0x3c3000001007ed830000062000000400000000040009b186000a0 a0 x46 := by
        unfold x46
        refine touch.step ?_ (touch.upd_commits ..) rfl
        exact touch.refl _ _
      have h49 : touch 0x3c3000001007ed830000062000000400000000040009b186000a0 a0 x47 := by
        unfold x47
        refine touch.ite ?_ ?_
        · refine touch.step ?_ (touch.TOLL_CTL ..) rfl
          exact h48
        · refine touch.step ?_ (State.applyCommit_touch ..) rfl
          exact h48
      clear_value x46 x47
      refine touch.ite ?_ ?_
      · exact h49
      · refine touch.step ?_ (touch.TOLL_CTL ..) rfl
        exact h49

theorem State.resizePool_touch : ∀ a0 a1, touch 0x1000000000010000000000000000000000000000100000000 a0 (State.resizePool a0 a1) := by
  intro a0 a1
  unfold State.resizePool
  refine touch.ite ?_ ?_
  · refine touch.step ?_ (State.setTotal_touch ..) rfl
    refine touch.step ?_ (touch.PORT_PCIE ..) rfl
    exact touch.refl _ _
  · exact touch.refl _ _

theorem State.restartKeeper_touch : ∀ a0 a1, touch 0x80000000000000000000000 a0 (State.restartKeeper a0 a1) := by
  intro a0 a1
  unfold State.restartKeeper
  split
  · rename_i z41 z42 z43
    refine touch.step ?_ (State.startKeeper_touch ..) rfl
    exact touch.refl _ _
  · rename_i z44 z45
    exact touch.refl _ _

theorem State.routeAll_touch : ∀ a0, touch 0x3c3000000005ed9c00000620000004000000000700304086000a0 a0 (State.routeAll a0) := by
  intro a0
  unfold State.routeAll
  refine touch.foldl ?_ ?_
  · refine touch.step ?_ (touch.upd_outbox ..) rfl
    exact touch.refl _ _
  · intro u41 y42 h43
    refine touch.step ?_ (State.dispatch_touch ..) rfl
    exact h43

theorem State.sendOwner_touch : ∀ a0 a1 a2 a3 a4, touch 0x3c3250001805ed810000062000c00c000007680100fff086000f0 a0 (State.sendOwner a0 a1 a2 a3 a4) := by
  intro a0 a1 a2 a3 a4
  unfold State.sendOwner
  extract_lets x41
  clear_value x41
  refine touch.ite ?_ ?_
  · refine touch.step ?_ (State.holdBack_touch ..) rfl
    exact touch.refl _ _
  · refine touch.step ?_ (State.sendTlp_touch ..) rfl
    exact touch.refl _ _

theorem State.settle_touch : ∀ a0, touch 0x3c37f4c7dc05ed9d0100062093c80c3007dfec173afffc86118f0 a0 (State.settle a0) := by
  intro a0
  unfold State.settle
  refine touch.foldl ?_ ?_
  · exact touch.refl _ _
  · intro u41 y42 h43
    refine touch.ite ?_ ?_
    · exact h43
    · refine touch.step ?_ (State.routeAll_touch ..) rfl
      refine touch.step ?_ (State.reactAll_touch ..) rfl
      exact h43

theorem State.showPort_touch : ∀ a0 a1 a2, touch 0x2000000000000000000000000000000 a0 (State.showPort a0 a1 a2) := by
  intro a0 a1 a2
  unfold State.showPort
  extract_lets x41
  have h42 : touch 0x2000000000000000000000000000000 a0 x41 := by
    unfold x41
    refine touch.step ?_ (touch.PKG_CP_STATE ..) rfl
    exact touch.refl _ _
  clear_value x41
  refine touch.step ?_ (touch.PKG_CP_STATE ..) rfl
  exact h42

theorem State.showPorts_touch : ∀ a0, touch 0x2000000000000000000000000000000 a0 (State.showPorts a0) := by
  intro a0
  unfold State.showPorts
  extract_lets x41
  clear_value x41
  refine touch.step ?_ (State.showPort_touch ..) rfl
  refine touch.step ?_ (State.showPort_touch ..) rfl
  exact touch.refl _ _

theorem State.showPower_touch : ∀ a0 a1 a2, touch 0x8000000000000400000000000000000000 a0 (State.showPower a0 a1 a2) := by
  intro a0 a1 a2
  unfold State.showPower
  extract_lets x41 x42 x43 x44
  clear_value x41 x42
  have h45 : touch 0x8000000000000400000000000000000000 a0 x43 := by
    unfold x43
    refine touch.step ?_ (touch.upd_powerSamples ..) rfl
    exact touch.refl _ _
  have h46 : touch 0x8000000000000400000000000000000000 a0 x44 := by
    unfold x44
    refine touch.step ?_ (touch.DIE_PWR ..) rfl
    refine touch.step ?_ (touch.DIE_PWR ..) rfl
    exact h45
  clear_value x43 x44
  refine touch.step ?_ (touch.DIE_PWR ..) rfl
  exact h46

theorem State.showTemps_touch : ∀ a0 a1 a2, touch 0x10000000000000000000000000000000000 a0 (State.showTemps a0 a1 a2) := by
  intro a0 a1 a2
  unfold State.showTemps
  extract_lets x41 x42
  clear_value x41
  have h43 : touch 0x10000000000000000000000000000000000 a0 x42 := by
    unfold x42
    refine touch.step ?_ (touch.DIE_THERM ..) rfl
    refine touch.step ?_ (touch.DIE_THERM ..) rfl
    exact touch.refl _ _
  clear_value x42
  refine touch.step ?_ (touch.DIE_THERM ..) rfl
  exact h43

theorem State.sleepSlot_touch : ∀ a0 a1 a2, touch 0x380100c7800c6d8102000620004004000040001100005406000f0 a0 (State.sleepSlot a0 a1 a2) := by
  intro a0 a1 a2
  unfold State.sleepSlot
  extract_lets x41 x42 x43
  clear_value x41 x42
  have h44 : touch 0x380100c7800c6d8102000620004004000040001100005406000f0 a0 x43 := by
    unfold x43
    refine touch.step ?_ (State.outsideSlot_touch ..) rfl
    refine touch.step ?_ (State.applyTxMask_touch ..) rfl
    refine touch.step ?_ (State.setLink_touch ..) rfl
    exact touch.refl _ _
  clear_value x43
  refine touch.foldl ?_ ?_
  · exact h44
  · intro u45 y46 h47
    refine touch.step ?_ (State.sendSlot_touch ..) rfl
    exact h47

theorem State.slew_touch : ∀ a0, touch 0x8000010000000000008 a0 (State.slew a0) := by
  intro a0
  unfold State.slew
  split
  · rename_i z41 z42
    exact touch.refl _ _
  · rename_i z43 z44 z45
    extract_lets x46 x47 x48 x49 x50 x51
    clear_value x47 x48 x49 x51
    have h52 : touch 0x8000010000000000008 a0 x50 := by
      unfold x50
      refine touch.step ?_ (State.setLink_touch ..) rfl
      exact touch.refl _ _
    clear_value x46 x50
    refine touch.ite ?_ ?_
    · exact touch.refl _ _
    · refine touch.ite ?_ ?_
      · refine touch.step ?_ (touch.upd_time ..) rfl
        exact touch.refl _ _
      · refine touch.step ?_ (touch.upd_adjust_time ..) rfl
        exact h52

theorem State.startDrain_touch : ∀ a0 a1, touch 0x3c3350001805ed810000062000c00c000007681100fff086100f0 a0 (State.startDrain a0 a1) := by
  intro a0 a1
  unfold State.startDrain
  extract_lets x41 x42 x43 x44
  clear_value x42
  have h45 : touch 0x3c3350001805ed810000062000c00c000007681100fff086100f0 a0 x41 := by
    unfold x41
    refine touch.step ?_ (touch.upd_reload ..) rfl
    exact touch.refl _ _
  have h46 : touch 0x3c3350001805ed810000062000c00c000007681100fff086100f0 a0 x43 := by
    unfold x43
    refine touch.step ?_ (State.routesMoved_touch ..) rfl
    refine touch.step ?_ (State.republish_touch ..) rfl
    exact h45
  have h47 : touch 0x3c3350001805ed810000062000c00c000007681100fff086100f0 a0 x44 := by
    unfold x44
    refine touch.foldl ?_ ?_
    · exact h46
    · intro u48 y49 h50
      refine touch.step ?_ (State.dropLock_touch ..) rfl
      exact h50
  clear_value x41 x43 x44
  refine touch.foldl ?_ ?_
  · exact h47
  · intro u51 y52 h53
    refine touch.step ?_ (State.egressDiscard_touch ..) rfl
    exact h53

theorem State.steer_touch : ∀ a0 a1, touch 0x8000010000000000008 a0 (State.steer a0 a1) := by
  intro a0 a1
  unfold State.steer
  refine touch.ite ?_ ?_
  · extract_lets x41 x42 x43 x44
    clear_value x41 x43
    have h45 : touch 0x8000010000000000008 a0 x42 := by
      unfold x42
      refine touch.step ?_ (touch.upd_adjust ..) rfl
      exact touch.refl _ _
    have h46 : touch 0x8000010000000000008 a0 x44 := by
      unfold x44
      refine touch.step ?_ (touch.upd_time ..) rfl
      exact h45
    clear_value x42 x44
    split
    · rename_i z47 z48 z49
      refine touch.step ?_ (State.setLink_touch ..) rfl
      exact h46
    · rename_i z50 z51
      exact h46
  · refine touch.ite ?_ ?_
    · refine touch.step ?_ (touch.upd_time ..) rfl
      exact touch.refl _ _
    · refine touch.step ?_ (touch.upd_time ..) rfl
      exact touch.refl _ _

theorem State.surrogateAnswer_touch : ∀ a0 a1 a2, touch 0x3c3200000805ed810000062000000400000068012034d086000e0 a0 (State.surrogateAnswer a0 a1 a2) := by
  intro a0 a1 a2
  unfold State.surrogateAnswer
  extract_lets x41 x42 x43 x44 x45 x46 x47 x48 x49 x50 x51 x52 x53
  clear_value x41 x45 x50
  have h54 : touch 0x3c3200000805ed810000062000000400000068012034d086000e0 a0 x42 := by
    unfold x42
    refine touch.step ?_ (State.surrogateRecord_touch ..) rfl
    exact touch.refl _ _
  have h55 : touch 0x3c3200000805ed810000062000000400000068012034d086000e0 a0 x43 := by
    unfold x43
    refine touch.ite ?_ ?_
    · refine touch.step ?_ (State.raise_touch ..) rfl
      refine touch.step ?_ (State.countPort_touch ..) rfl
      refine touch.step ?_ (touch.PORT_SLUICE ..) rfl
      exact h54
    · exact touch.refl _ _
  have h56 : touch 0x3c3200000805ed810000062000000400000068012034d086000e0 a0 x44 := by
    unfold x44
    split
    · rename_i z57 z58 z59
      refine touch.step ?_ (State.owedOver_touch ..) rfl
      exact h55
    · rename_i z60 z61
      exact h55
  have h62 : touch 0x3c3200000805ed810000062000000400000068012034d086000e0 a0 x46 := by
    unfold x46
    refine touch.ite ?_ ?_
    · refine touch.step ?_ (State.setOutstanding_touch ..) rfl
      refine touch.step ?_ (State.returnAll_touch ..) rfl
      exact h56
    · refine touch.step ?_ (State.dropOutstanding_touch ..) rfl
      exact h56
  have h63 : touch 0x3c3200000805ed810000062000000400000068012034d086000e0 a0 x47 := by
    unfold x47
    refine touch.step ?_ (State.endLive_touch ..) rfl
    exact h62
  have h64 : touch 0x3c3200000805ed810000062000000400000068012034d086000e0 a0 x48 := by
    unfold x48
    refine touch.foldl ?_ ?_
    · exact h63
    · intro u65 y66 h67
      refine touch.step ?_ (State.failWrite_touch ..) rfl
      exact h67
  have h68 : touch 0x3c3200000805ed810000062000000400000068012034d086000e0 a0 x49 := by
    unfold x49
    split
    · rename_i z69 z70 z71
      refine touch.ite ?_ ?_
      · refine touch.step ?_ (State.complete_touch ..) rfl
        exact h64
      · exact h64
    · rename_i z72 z73
      exact h64
  have h74 : touch 0x3c3200000805ed810000062000000400000068012034d086000e0 a0 x51 := by
    unfold x51
    refine touch.ite ?_ ?_
    · refine touch.step ?_ (State.dropOutstanding_touch ..) rfl
      exact h56
    · refine touch.ite ?_ ?_
      · refine touch.step ?_ (State.dropOutstanding_touch ..) rfl
        refine touch.step ?_ (State.returnAll_touch ..) rfl
        exact h56
      · refine touch.step ?_ (State.setOutstanding_touch ..) rfl
        exact h56
  have h75 : touch 0x3c3200000805ed810000062000000400000068012034d086000e0 a0 x52 := by
    unfold x52
    refine touch.step ?_ (State.endLive_touch ..) rfl
    exact h74
  have h76 : touch 0x3c3200000805ed810000062000000400000068012034d086000e0 a0 x53 := by
    unfold x53
    refine touch.step ?_ (State.nativeLosses_touch ..) rfl
    exact h75
  clear_value x42 x43 x44 x46 x47 x48 x49 x51 x52 x53
  refine touch.ite ?_ ?_
  · refine touch.step ?_ (State.progressWindow_touch ..) rfl
    refine touch.step ?_ (State.showTracker_touch ..) rfl
    exact h68
  · split
    · rename_i z77 z78 z79
      refine touch.step ?_ (State.logAer_touch ..) rfl
      refine touch.step ?_ (State.deliver_touch ..) rfl
      exact h75
    · rename_i z80 z81
      split
      · rename_i z82 z83 z84
        extract_lets x85
        clear_value x85
        refine touch.ite ?_ ?_
        · refine touch.step ?_ (State.sendAnswer_touch ..) rfl
          exact h76
        · refine touch.step ?_ (State.sendOn_touch ..) rfl
          exact h76
      · rename_i z86 z87
        exact h75

theorem State.takeAddress_touch : ∀ a0 a1 a2, touch 0x2000000000000000000000001000000 a0 (State.takeAddress a0 a1 a2) := by
  intro a0 a1 a2
  unfold State.takeAddress
  refine touch.step ?_ (touch.PKG_CP_STATE ..) rfl
  refine touch.step ?_ (State.setCport_touch ..) rfl
  exact touch.refl _ _

theorem State.takeRequest_touch : ∀ a0 a1 a2, touch 0x4000000000000000000000000004000000000000000000 a0 (State.takeRequest a0 a1 a2) := by
  intro a0 a1 a2
  unfold State.takeRequest
  extract_lets x41 x42 x43 x44 x45 x46
  clear_value x41 x42 x43 x44 x45 x46
  refine touch.ite ?_ ?_
  · exact touch.refl _ _
  · refine touch.ite ?_ ?_
    · refine touch.step ?_ (State.setLaneSt_touch ..) rfl
      exact touch.refl _ _
    · refine touch.ite ?_ ?_
      · refine touch.step ?_ (State.setLaneSt_touch ..) rfl
        refine touch.step ?_ (State.setTaps_touch ..) rfl
        exact touch.refl _ _
      · refine touch.ite ?_ ?_
        · refine touch.step ?_ (State.setLaneSt_touch ..) rfl
          refine touch.step ?_ (State.setTaps_touch ..) rfl
          exact touch.refl _ _
        · refine touch.step ?_ (State.setLaneSt_touch ..) rfl
          exact touch.refl _ _

theorem State.takeTrain_touch : ∀ a0 a1 a2 a3, touch 0x4000000000000000000000000004000000000000000000 a0 (State.takeTrain a0 a1 a2 a3) := by
  intro a0 a1 a2 a3
  unfold State.takeTrain
  extract_lets x41 x42 x43 x44 x45 x46 x47 x48 x49
  clear_value x41 x43 x44 x45 x46 x47 x49
  have h50 : touch 0x4000000000000000000000000004000000000000000000 a0 x42 := by
    unfold x42
    refine touch.step ?_ (State.takeRequest_touch ..) rfl
    exact touch.refl _ _
  have h51 : touch 0x4000000000000000000000000004000000000000000000 a0 x48 := by
    unfold x48
    refine touch.step ?_ (State.setLaneSt_touch ..) rfl
    exact h50
  clear_value x42 x48
  refine touch.step ?_ (State.setLaneSt_touch ..) rfl
  exact h51

theorem State.throttleBegin_touch : ∀ a0 a1, touch 0x3801000000046d8000080620004004000000001001000806000a0 a0 (State.throttleBegin a0 a1) := by
  intro a0 a1
  unfold State.throttleBegin
  extract_lets x41 x42 x43 x44
  clear_value x42 x44
  have h45 : touch 0x3801000000046d8000080620004004000000001001000806000a0 a0 x41 := by
    unfold x41
    refine touch.step ?_ (State.setLive_touch ..) rfl
    refine touch.step ?_ (State.raise_touch ..) rfl
    refine touch.step ?_ (touch.DIE_PWR ..) rfl
    refine touch.step ?_ (touch.DIE_PWR ..) rfl
    exact touch.refl _ _
  have h46 : touch 0x3801000000046d8000080620004004000000001001000806000a0 a0 x43 := by
    unfold x43
    refine touch.ite ?_ ?_
    · exact h45
    · refine touch.step ?_ (State.planLengthening_touch ..) rfl
      exact h45
  clear_value x41 x43
  refine touch.ite ?_ ?_
  · exact h46
  · refine touch.step ?_ (State.republish_touch ..) rfl
    refine touch.step ?_ (touch.upd_planned ..) rfl
    exact h46

theorem State.throttleEnd_touch : ∀ a0 a1, touch 0x3801100000046d8000080620004004000000001101000806000a0 a0 (State.throttleEnd a0 a1) := by
  intro a0 a1
  unfold State.throttleEnd
  extract_lets x41 x42 x43 x44 x45 x46 x47 x48 x49
  clear_value x42 x46 x49
  have h50 : touch 0x3801100000046d8000080620004004000000001101000806000a0 a0 x41 := by
    unfold x41
    refine touch.step ?_ (State.setLive_touch ..) rfl
    refine touch.step ?_ (touch.DIE_PWR ..) rfl
    exact touch.refl _ _
  have h51 : touch 0x3801100000046d8000080620004004000000001101000806000a0 a0 x43 := by
    unfold x43
    refine touch.foldl ?_ ?_
    · exact h50
    · intro u52 y53 h54
      refine touch.step ?_ (State.wakeRequest_touch ..) rfl
      exact h54
  have h55 : touch 0x3801100000046d8000080620004004000000001101000806000a0 a0 x44 := by
    unfold x44
    refine touch.step ?_ (touch.upd_planned ..) rfl
    exact h51
  have h56 : touch 0x3801100000046d8000080620004004000000001101000806000a0 a0 x45 := by
    unfold x45
    refine touch.step ?_ (touch.PKG_BOUND ..) rfl
    exact h55
  have h57 : touch 0x3801100000046d8000080620004004000000001101000806000a0 a0 x47 := by
    unfold x47
    refine touch.ite ?_ ?_
    · exact h55
    · refine touch.step ?_ (touch.upd_modes ..) rfl
      exact h56
  have h58 : touch 0x3801100000046d8000080620004004000000001101000806000a0 a0 x48 := by
    unfold x48
    refine touch.ite ?_ ?_
    · exact h57
    · refine touch.step ?_ (State.republish_touch ..) rfl
      exact h57
  clear_value x41 x43 x44 x45 x47 x48
  refine touch.ite ?_ ?_
  · exact h58
  · refine touch.step ?_ (State.republish_touch ..) rfl
    refine touch.foldl ?_ ?_
    · exact h58
    · intro u59 y60 h61
      refine touch.step ?_ (touch.PORT_PCIE ..) rfl
      exact h61

theorem State.throttle_touch : ∀ a0 a1, touch 0x3801100000046d8000080620004004008000001101000806000a0 a0 (State.throttle a0 a1) := by
  intro a0 a1
  unfold State.throttle
  extract_lets x41 x42 x43 x44 x45 x46 x47
  clear_value x41 x42 x43 x44 x45
  have h48 : touch 0x3801100000046d8000080620004004008000001101000806000a0 a0 x47 := by
    unfold x47
    unfold x46
    refine touch.step ?_ (touch.upd_coolSince ..) rfl
    exact touch.refl _ _
  clear_value x47
  refine touch.ite ?_ ?_
  · refine touch.ite ?_ ?_
    · exact h48
    · refine touch.step ?_ (State.throttleBegin_touch ..) rfl
      exact h48
  · refine touch.ite ?_ ?_
    · exact touch.refl _ _
    · refine touch.ite ?_ ?_
      · split
        · rename_i z49
          unfold x46
          refine touch.step ?_ (touch.upd_coolSince ..) rfl
          exact touch.refl _ _
        · rename_i z50 z51
          refine touch.ite ?_ ?_
          · refine touch.step ?_ (State.throttleEnd_touch ..) rfl
            unfold x46
            refine touch.step ?_ (touch.upd_coolSince ..) rfl
            exact touch.refl _ _
          · exact touch.refl _ _
      · unfold x46
        refine touch.step ?_ (touch.upd_coolSince ..) rfl
        exact touch.refl _ _

theorem State.toNeighbour_touch : ∀ a0 a1 a2, touch 0x400000000 a0 (State.toNeighbour a0 a1 a2) := by
  intro a0 a1 a2
  unfold State.toNeighbour
  extract_lets x41
  clear_value x41
  refine touch.step ?_ (touch.upd_waiting ..) rfl
  exact touch.refl _ _

theorem State.txWake_touch : ∀ a0 a1, touch 0x3c3f06c7980ded9d0200062000c80c1000c068171a7dfc86000f4 a0 (State.txWake a0 a1) := by
  intro a0 a1
  unfold State.txWake
  split
  · rename_i z41 z42 z43 z44 z45
    extract_lets x46 x47 x48 x49 x50 x51
    clear_value x50
    have h52 : touch 0x3c3f06c7980ded9d0200062000c80c1000c068171a7dfc86000f4 a0 x46 := by
      unfold x46
      refine touch.step ?_ (State.waitUntil_touch ..) rfl
      exact touch.refl _ _
    have h53 : touch 0x3c3f06c7980ded9d0200062000c80c1000c068171a7dfc86000f4 a0 x47 := by
      unfold x47
      refine touch.ite ?_ ?_
      · refine touch.step ?_ (State.nextSlot_touch ..) rfl
        exact h52
      · exact h52
    have h54 : touch 0x3c3f06c7980ded9d0200062000c80c1000c068171a7dfc86000f4 a0 x48 := by
      unfold x48
      refine touch.foldl ?_ ?_
      · exact h53
      · intro u55 y56 h57
        refine touch.step ?_ (State.setSleep_touch ..) rfl
        exact h57
    have h58 : touch 0x3c3f06c7980ded9d0200062000c80c1000c068171a7dfc86000f4 a0 x49 := by
      unfold x49
      refine touch.step ?_ (touch.PORT_WAKE ..) rfl
      exact h54
    have h59 : touch 0x3c3f06c7980ded9d0200062000c80c1000c068171a7dfc86000f4 a0 x51 := by
      unfold x51
      refine touch.step ?_ (State.setLink_touch ..) rfl
      exact h58
    clear_value x46 x47 x48 x49 x51
    refine touch.foldl ?_ ?_
    · exact h59
    · intro u60 y61 h62
      refine touch.step ?_ (State.sleepSlot_touch ..) rfl
      exact h62
  · rename_i z63 z64 z65
    exact touch.refl _ _

theorem State.vendorMessage_touch : ∀ a0 a1 a2, touch 0x3800000000046d8100000620000004000000680000013006000e0 a0 (State.vendorMessage a0 a1 a2) := by
  intro a0 a1 a2
  unfold State.vendorMessage
  refine touch.ite ?_ ?_
  · split
    · rename_i z41 z42
      refine touch.step ?_ (State.raise_touch ..) rfl
      exact touch.refl _ _
    · rename_i z43 z44 z45
      split
      · rename_i z46 z47 z48
        refine touch.step ?_ (State.formPosted_touch ..) rfl
        exact touch.refl _ _
      · rename_i z49 z50
        exact touch.refl _ _
  · refine touch.ite ?_ ?_
    · extract_lets x51 x52
      clear_value x51 x52
      split
      · rename_i z53 z54 z55
        refine touch.step ?_ (State.formPosted_touch ..) rfl
        exact touch.refl _ _
      · rename_i z56
        refine touch.step ?_ (State.logAer_touch ..) rfl
        exact touch.refl _ _
    · refine touch.ite ?_ ?_
      · exact touch.refl _ _
      · refine touch.step ?_ (State.logAer_touch ..) rfl
        exact touch.refl _ _

theorem State.withFetchWord_touch : ∀ a0 a1 a2, touch 0x1 a0 (State.withFetchWord a0 a1 a2) := by
  intro a0 a1 a2
  unfold State.withFetchWord
  split
  · rename_i z41 z42 z43
    refine touch.step ?_ (touch.upd_pending ..) rfl
    exact touch.refl _ _
  · rename_i z44 z45
    exact touch.refl _ _

theorem beginStep_touch : ∀ a0, touch 0x3c37f4c7dc05ed9d0100062093c80c3007dfec173afffc86118f0 a0 (beginStep a0) := by
  intro a0
  unfold beginStep
  refine touch.step ?_ (State.evaluateAgain_touch ..) rfl
  refine touch.step ?_ (State.settle_touch ..) rfl
  refine touch.step ?_ (State.readTally_touch ..) rfl
  refine touch.step ?_ (touch.upd_out ..) rfl
  exact touch.refl _ _

theorem tick_touch : ∀ a0, touch 0x3c37f4c7dc05ed9d0100063993cf0c7007dfec173afffce6738ff a0 (tick a0) := by
  intro a0
  unfold tick
  extract_lets x41
  have h42 : touch 0x3c37f4c7dc05ed9d0100063993cf0c7007dfec173afffce6738ff a0 x41 := by
    unfold x41
    refine touch.step ?_ (beginStep_touch ..) rfl
    exact touch.refl _ _
  clear_value x41
  refine touch.step ?_ (endStep_touch ..) rfl
  refine touch.step ?_ (State.slew_touch ..) rfl
  refine touch.step ?_ (touch.upd_cycles ..) rfl
  exact h42

end Sys2Proof.Machine
end

