-- ==== Sys2Proof/Laws/Frames.lean ====
section
/-! SUPPORT. From what an operation touches to the frames that the statements speak of. -/

namespace Sys2Proof.Machine

/-- Two states with equal parts are equal. -/
theorem State.eq_of {s t : State} (h0 : t.pending = s.pending) (h1 : t.chip = s.chip) (h2 : t.regs = s.regs) (h3 : t.cycles = s.cycles) (h4 : t.adjust = s.adjust) (h5 : t.freeCount = s.freeCount) (h6 : t.actions = s.actions) (h7 : t.out = s.out) (h8 : t.outbox = s.outbox) (h9 : t.fuses = s.fuses) (h10 : t.sealed = s.sealed) (h11 : t.sealRequests = s.sealRequests) (h12 : t.nvs = s.nvs) (h13 : t.dir = s.dir) (h14 : t.staged = s.staged) (h15 : t.loading = s.loading) (h16 : t.loadOrder = s.loadOrder) (h17 : t.reload = s.reload) (h18 : t.slotWrite = s.slotWrite) (h19 : t.nvsOp = s.nvsOp) (h20 : t.cfg = s.cfg) (h21 : t.mr = s.mr) (h22 : t.queues = s.queues) (h23 : t.records = s.records) (h24 : t.tow = s.tow) (h25 : t.ports = s.ports) (h26 : t.staging = s.staging) (h27 : t.stageHolder = s.stageHolder) (h28 : t.live = s.live) (h29 : t.commits = s.commits) (h30 : t.fenceStart = s.fenceStart) (h31 : t.crossings = s.crossings) (h32 : t.modes = s.modes) (h33 : t.ledgers = s.ledgers) (h34 : t.ingress = s.ingress) (h35 : t.waiting = s.waiting) (h36 : t.outstanding = s.outstanding) (h37 : t.nextId = s.nextId) (h38 : t.device = s.device) (h39 : t.heldFailures = s.heldFailures) (h40 : t.streams = s.streams) (h41 : t.flowLast = s.flowLast) (h42 : t.writeLast = s.writeLast) (h43 : t.lockWait = s.lockWait) (h44 : t.lockClass = s.lockClass) (h45 : t.portLocks = s.portLocks) (h46 : t.planned = s.planned) (h47 : t.bounds = s.bounds) (h48 : t.boundsSets = s.boundsSets) (h49 : t.postedCount = s.postedCount) (h50 : t.requesters = s.requesters) (h51 : t.engines = s.engines) (h52 : t.program = s.program) (h53 : t.dataMem = s.dataMem) (h54 : t.links = s.links) (h55 : t.vlast = s.vlast) (h56 : t.ecc = s.ecc) (h57 : t.l1Exit = s.l1Exit) (h58 : t.announceDue = s.announceDue) (h59 : t.gated = s.gated) (h60 : t.woken = s.woken) (h61 : t.devices = s.devices) (h62 : t.hidden = s.hidden) (h63 : t.bindPu = s.bindPu) (h64 : t.virt = s.virt) (h65 : t.virtPorts = s.virtPorts) (h66 : t.deviceMps = s.deviceMps) (h67 : t.aer = s.aer) (h68 : t.aerHeader = s.aerHeader) (h69 : t.intxLevel = s.intxLevel) (h70 : t.intxSent = s.intxSent) (h71 : t.intxCount = s.intxCount) (h72 : t.flr = s.flr) (h73 : t.configJobs = s.configJobs) (h74 : t.pmeOff = s.pmeOff) (h75 : t.rings = s.rings) (h76 : t.beyond64 = s.beyond64) (h77 : t.lanes = s.lanes) (h78 : t.time = s.time) (h79 : t.dpcSince = s.dpcSince) (h80 : t.doe = s.doe) (h81 : t.doeOrder = s.doeOrder) (h82 : t.kickAt = s.kickAt) (h83 : t.hosts = s.hosts) (h84 : t.bindSets = s.bindSets) (h85 : t.powerSamples = s.powerSamples) (h86 : t.coolSince = s.coolSince) (h87 : t.batchNo = s.batchNo) (h88 : t.batchSize = s.batchSize) (h89 : t.shadow = s.shadow) (h90 : t.stagedAt = s.stagedAt) (h91 : t.bankWrite = s.bankWrite) (h92 : t.keeperRun = s.keeperRun) (h93 : t.secSizes = s.secSizes) (h94 : t.l0pPartners = s.l0pPartners) (h95 : t.pulses = s.pulses) (h96 : t.slotsUsed = s.slotsUsed) : t = s := by
  cases s
  cases t
  exact (State.mk.injEq ..).mpr ⟨h0, h1, h2, h3, h4, h5, h6, h7, h8, h9, h10, h11, h12, h13, h14, h15, h16, h17, h18, h19, h20, h21, h22, h23, h24, h25, h26, h27, h28, h29, h30, h31, h32, h33, h34, h35, h36, h37, h38, h39, h40, h41, h42, h43, h44, h45, h46, h47, h48, h49, h50, h51, h52, h53, h54, h55, h56, h57, h58, h59, h60, h61, h62, h63, h64, h65, h66, h67, h68, h69, h70, h71, h72, h73, h74, h75, h76, h77, h78, h79, h80, h81, h82, h83, h84, h85, h86, h87, h88, h89, h90, h91, h92, h93, h94, h95, h96⟩

/-- The registers that the frame names. -/
theorem touched_endSame {a : Nat} (h : touched 0x300000000180000000001980070840000000000000006063013 a) : shared a := by
  unfold touched at h
  rcases h with ⟨b, rfl⟩ | ⟨b, rfl⟩ | ⟨b, rfl⟩ | ⟨b, rfl⟩ | ⟨b, rfl⟩ | ⟨b, rfl⟩ | ⟨b, rfl⟩ | ⟨b, rfl⟩ | ⟨b, rfl⟩ | ⟨b, rfl⟩ | ⟨b, rfl⟩ | ⟨b, rfl⟩ | ⟨b, rfl⟩ | ⟨b, rfl⟩ | ⟨b, rfl⟩ | ⟨b, rfl⟩ | ⟨b, rfl⟩ | ⟨b, i0, rfl⟩ | ⟨b, rfl⟩ | ⟨b, rfl⟩ | ⟨b, i0, rfl⟩ | ⟨b, i0, rfl⟩ | ⟨b, i0, rfl⟩ | ⟨b, i0, rfl⟩ | ⟨b, i0, rfl⟩ | ⟨b, i0, rfl⟩ | ⟨b, i0, rfl⟩ | ⟨b, i0, i1, rfl⟩ | ⟨b, rfl⟩ | ⟨b, rfl⟩ | ⟨b, rfl⟩ | ⟨b, rfl⟩ | ⟨b, i0, rfl⟩ | ⟨b, i0, rfl⟩ | ⟨b, i0, rfl⟩ | ⟨b, i0, rfl⟩ | ⟨b, i0, rfl⟩ | ⟨b, i0, rfl⟩ | ⟨b, i0, rfl⟩ | ⟨b, i0, rfl⟩ | ⟨b, i0, rfl⟩ | ⟨b, i0, rfl⟩ | ⟨b, i0, rfl⟩ | ⟨b, i0, rfl⟩ | ⟨b, i0, rfl⟩ | ⟨b, i0, rfl⟩ | ⟨b, i0, rfl⟩ | ⟨b, i0, rfl⟩ | ⟨b, i0, rfl⟩ | ⟨b, i0, rfl⟩ | ⟨b, i0, rfl⟩ | ⟨b, i0, i1, rfl⟩ | ⟨b, i0, i1, rfl⟩ | ⟨b, i0, rfl⟩ | ⟨b, i0, rfl⟩ | ⟨b, i0, rfl⟩ | ⟨b, i0, rfl⟩ | ⟨b, i0, i1, rfl⟩ | ⟨b, i0, i1, rfl⟩ | ⟨b, i0, i1, rfl⟩ | ⟨b, i0, i1, i2, rfl⟩ | ⟨b, i0, i1, rfl⟩ | ⟨b, i0, i1, rfl⟩ | ⟨b, i0, i1, rfl⟩ | ⟨b, i0, i1, rfl⟩ | ⟨b, i0, i1, i2, rfl⟩ | ⟨b, i0, rfl⟩ | ⟨b, i0, i1, rfl⟩ | ⟨b, i0, rfl⟩ | ⟨b, i0, rfl⟩ | ⟨b, i0, rfl⟩ | ⟨b, i0, rfl⟩ | ⟨b, i0, rfl⟩ | ⟨b, i0, rfl⟩ | ⟨b, i0, rfl⟩ | ⟨b, i0, rfl⟩ | ⟨b, i0, rfl⟩ | ⟨b, i0, rfl⟩ | ⟨b, i0, i1, rfl⟩ | ⟨b, i0, rfl⟩ | ⟨b, i0, rfl⟩ | ⟨b, i0, rfl⟩ | ⟨b, i0, rfl⟩ | ⟨b, i0, rfl⟩ | ⟨b, i0, rfl⟩ | ⟨b, i0, rfl⟩ | ⟨b, i0, rfl⟩ | ⟨b, i0, rfl⟩ | ⟨b, i0, rfl⟩ | ⟨b, i0, rfl⟩ | ⟨b, i0, rfl⟩ | ⟨b, i0, rfl⟩ | ⟨b, i0, rfl⟩ | ⟨b, i0, rfl⟩ | ⟨b, i0, rfl⟩ | ⟨b, i0, rfl⟩ | ⟨b, i0, rfl⟩ | ⟨b, i0, rfl⟩ | ⟨b, i0, rfl⟩ | ⟨b, i0, rfl⟩ | ⟨b, i0, i1, rfl⟩ | ⟨b, i0, i1, rfl⟩ | ⟨b, i0, rfl⟩ | ⟨b, i0, rfl⟩ | ⟨b, i0, rfl⟩ | ⟨b, i0, rfl⟩ | ⟨b, i0, rfl⟩ | ⟨b, i0, rfl⟩ | ⟨b, i0, rfl⟩ | ⟨b, i0, rfl⟩
  · exact .inl rfl
  · exact .inr (.inl rfl)
  · exact .inr (.inr (.inl rfl))
  · exact absurd b (by decide)
  · exact absurd b (by decide)
  · exact absurd b (by decide)
  · exact absurd b (by decide)
  · exact absurd b (by decide)
  · exact absurd b (by decide)
  · exact absurd b (by decide)
  · exact absurd b (by decide)
  · exact absurd b (by decide)
  · exact absurd b (by decide)
  · exact absurd b (by decide)
  · exact absurd b (by decide)
  · exact .inr (.inr (.inr (.inr (.inl rfl))))
  · exact .inr (.inr (.inr (.inr (.inr (.inl rfl)))))
  · exact absurd b (by decide)
  · exact absurd b (by decide)
  · exact .inr (.inr (.inr (.inl rfl)))
  · exact .inr (.inr (.inr (.inr (.inr (.inr (.inl ⟨i0, rfl⟩))))))
  · exact absurd b (by decide)
  · exact absurd b (by decide)
  · exact absurd b (by decide)
  · exact absurd b (by decide)
  · exact absurd b (by decide)
  · exact absurd b (by decide)
  · exact absurd b (by decide)
  · exact absurd b (by decide)
  · exact absurd b (by decide)
  · exact absurd b (by decide)
  · exact absurd b (by decide)
  · exact absurd b (by decide)
  · exact absurd b (by decide)
  · exact absurd b (by decide)
  · exact absurd b (by decide)
  · exact absurd b (by decide)
  · exact absurd b (by decide)
  · exact absurd b (by decide)
  · exact absurd b (by decide)
  · exact absurd b (by decide)
  · exact absurd b (by decide)
  · exact absurd b (by decide)
  · exact absurd b (by decide)
  · exact absurd b (by decide)
  · exact absurd b (by decide)
  · exact absurd b (by decide)
  · exact absurd b (by decide)
  · exact absurd b (by decide)
  · exact absurd b (by decide)
  · exact absurd b (by decide)
  · exact absurd b (by decide)
  · exact absurd b (by decide)
  · exact absurd b (by decide)
  · exact absurd b (by decide)
  · exact absurd b (by decide)
  · exact absurd b (by decide)
  · exact absurd b (by decide)
  · exact absurd b (by decide)
  · exact absurd b (by decide)
  · exact absurd b (by decide)
  · exact absurd b (by decide)
  · exact absurd b (by decide)
  · exact .inr (.inr (.inr (.inr (.inr (.inr (.inr (.inl ⟨i0, i1, .inl rfl⟩)))))))
  · exact .inr (.inr (.inr (.inr (.inr (.inr (.inr (.inl ⟨i0, i1, .inr (rfl)⟩)))))))
  · exact absurd b (by decide)
  · exact absurd b (by decide)
  · exact absurd b (by decide)
  · exact absurd b (by decide)
  · exact absurd b (by decide)
  · exact absurd b (by decide)
  · exact absurd b (by decide)
  · exact absurd b (by decide)
  · exact absurd b (by decide)
  · exact absurd b (by decide)
  · exact absurd b (by decide)
  · exact absurd b (by decide)
  · exact absurd b (by decide)
  · exact absurd b (by decide)
  · exact absurd b (by decide)
  · exact absurd b (by decide)
  · exact absurd b (by decide)
  · exact absurd b (by decide)
  · exact absurd b (by decide)
  · exact absurd b (by decide)
  · exact absurd b (by decide)
  · exact absurd b (by decide)
  · exact absurd b (by decide)
  · exact absurd b (by decide)
  · exact absurd b (by decide)
  · exact absurd b (by decide)
  · exact absurd b (by decide)
  · exact absurd b (by decide)
  · exact absurd b (by decide)
  · exact absurd b (by decide)
  · exact absurd b (by decide)
  · exact absurd b (by decide)
  · exact absurd b (by decide)
  · exact absurd b (by decide)
  · exact absurd b (by decide)
  · exact .inr (.inr (.inr (.inr (.inr (.inr (.inr (.inr (⟨i0, i1, .inl rfl⟩))))))))
  · exact .inr (.inr (.inr (.inr (.inr (.inr (.inr (.inr (⟨i0, i1, .inr (rfl)⟩))))))))
  · exact absurd b (by decide)
  · exact absurd b (by decide)
  · exact absurd b (by decide)
  · exact absurd b (by decide)
  · exact absurd b (by decide)
  · exact absurd b (by decide)
  · exact absurd b (by decide)
  · exact absurd b (by decide)

theorem touch.endSame {m : Nat} {s t : State} (h : touch m s t) (e : m ||| 0x300000000180000000001980070840000000000000006063013 = 0x300000000180000000001980070840000000000000006063013) : endSame s t := by
  replace h := h.mono e
  exact ⟨State.eq_of rfl rfl rfl (h.cycles rfl) (h.adjust rfl) rfl (h.actions rfl) (h.out rfl) (h.outbox rfl) (h.fuses rfl) (h.sealed rfl) (h.sealRequests rfl) (h.nvs rfl) rfl rfl (h.loading rfl) (h.loadOrder rfl) (h.reload rfl) rfl rfl (h.cfg rfl) (h.mr rfl) (h.queues rfl) (h.records rfl) (h.tow rfl) (h.ports rfl) rfl rfl (h.live rfl) (h.commits rfl) (h.fenceStart rfl) (h.crossings rfl) (h.modes rfl) (h.ledgers rfl) (h.ingress rfl) (h.waiting rfl) (h.outstanding rfl) (h.nextId rfl) (h.device rfl) (h.heldFailures rfl) (h.streams rfl) (h.flowLast rfl) (h.writeLast rfl) (h.lockWait rfl) (h.lockClass rfl) (h.portLocks rfl) (h.planned rfl) (h.bounds rfl) (h.boundsSets rfl) (h.postedCount rfl) (h.requesters rfl) (h.engines rfl) (h.program rfl) (h.dataMem rfl) (h.links rfl) (h.vlast rfl) (h.ecc rfl) (h.l1Exit rfl) (h.announceDue rfl) (h.gated rfl) (h.woken rfl) (h.devices rfl) (h.hidden rfl) (h.bindPu rfl) (h.virt rfl) (h.virtPorts rfl) (h.deviceMps rfl) (h.aer rfl) (h.aerHeader rfl) (h.intxLevel rfl) (h.intxSent rfl) (h.intxCount rfl) (h.flr rfl) (h.configJobs rfl) (h.pmeOff rfl) (h.rings rfl) (h.beyond64 rfl) (h.lanes rfl) (h.time rfl) (h.dpcSince rfl) (h.doe rfl) (h.doeOrder rfl) (h.kickAt rfl) (h.hosts rfl) (h.bindSets rfl) (h.powerSamples rfl) (h.coolSince rfl) (h.batchNo rfl) (h.batchSize rfl) (h.shadow rfl) (h.stagedAt rfl) rfl (h.keeperRun rfl) (h.secSizes rfl) (h.l0pPartners rfl) (h.pulses rfl) rfl, fun a ha => h.rd a fun x => ha (touched_endSame x)⟩

/-- The registers that the frame names. -/
theorem touched_eventSame {a : Nat} (h : touched 0x3800000000046d8000000620000004000000000000000006000a0 a) : eventReg a := by
  unfold touched at h
  rcases h with ⟨b, rfl⟩ | ⟨b, rfl⟩ | ⟨b, rfl⟩ | ⟨b, rfl⟩ | ⟨b, rfl⟩ | ⟨b, rfl⟩ | ⟨b, rfl⟩ | ⟨b, rfl⟩ | ⟨b, rfl⟩ | ⟨b, rfl⟩ | ⟨b, rfl⟩ | ⟨b, rfl⟩ | ⟨b, rfl⟩ | ⟨b, rfl⟩ | ⟨b, rfl⟩ | ⟨b, rfl⟩ | ⟨b, rfl⟩ | ⟨b, i0, rfl⟩ | ⟨b, rfl⟩ | ⟨b, rfl⟩ | ⟨b, i0, rfl⟩ | ⟨b, i0, rfl⟩ | ⟨b, i0, rfl⟩ | ⟨b, i0, rfl⟩ | ⟨b, i0, rfl⟩ | ⟨b, i0, rfl⟩ | ⟨b, i0, rfl⟩ | ⟨b, i0, i1, rfl⟩ | ⟨b, rfl⟩ | ⟨b, rfl⟩ | ⟨b, rfl⟩ | ⟨b, rfl⟩ | ⟨b, i0, rfl⟩ | ⟨b, i0, rfl⟩ | ⟨b, i0, rfl⟩ | ⟨b, i0, rfl⟩ | ⟨b, i0, rfl⟩ | ⟨b, i0, rfl⟩ | ⟨b, i0, rfl⟩ | ⟨b, i0, rfl⟩ | ⟨b, i0, rfl⟩ | ⟨b, i0, rfl⟩ | ⟨b, i0, rfl⟩ | ⟨b, i0, rfl⟩ | ⟨b, i0, rfl⟩ | ⟨b, i0, rfl⟩ | ⟨b, i0, rfl⟩ | ⟨b, i0, rfl⟩ | ⟨b, i0, rfl⟩ | ⟨b, i0, rfl⟩ | ⟨b, i0, rfl⟩ | ⟨b, i0, i1, rfl⟩ | ⟨b, i0, i1, rfl⟩ | ⟨b, i0, rfl⟩ | ⟨b, i0, rfl⟩ | ⟨b, i0, rfl⟩ | ⟨b, i0, rfl⟩ | ⟨b, i0, i1, rfl⟩ | ⟨b, i0, i1, rfl⟩ | ⟨b, i0, i1, rfl⟩ | ⟨b, i0, i1, i2, rfl⟩ | ⟨b, i0, i1, rfl⟩ | ⟨b, i0, i1, rfl⟩ | ⟨b, i0, i1, rfl⟩ | ⟨b, i0, i1, rfl⟩ | ⟨b, i0, i1, i2, rfl⟩ | ⟨b, i0, rfl⟩ | ⟨b, i0, i1, rfl⟩ | ⟨b, i0, rfl⟩ | ⟨b, i0, rfl⟩ | ⟨b, i0, rfl⟩ | ⟨b, i0, rfl⟩ | ⟨b, i0, rfl⟩ | ⟨b, i0, rfl⟩ | ⟨b, i0, rfl⟩ | ⟨b, i0, rfl⟩ | ⟨b, i0, rfl⟩ | ⟨b, i0, rfl⟩ | ⟨b, i0, i1, rfl⟩ | ⟨b, i0, rfl⟩ | ⟨b, i0, rfl⟩ | ⟨b, i0, rfl⟩ | ⟨b, i0, rfl⟩ | ⟨b, i0, rfl⟩ | ⟨b, i0, rfl⟩ | ⟨b, i0, rfl⟩ | ⟨b, i0, rfl⟩ | ⟨b, i0, rfl⟩ | ⟨b, i0, rfl⟩ | ⟨b, i0, rfl⟩ | ⟨b, i0, rfl⟩ | ⟨b, i0, rfl⟩ | ⟨b, i0, rfl⟩ | ⟨b, i0, rfl⟩ | ⟨b, i0, rfl⟩ | ⟨b, i0, rfl⟩ | ⟨b, i0, rfl⟩ | ⟨b, i0, rfl⟩ | ⟨b, i0, rfl⟩ | ⟨b, i0, rfl⟩ | ⟨b, i0, i1, rfl⟩ | ⟨b, i0, i1, rfl⟩ | ⟨b, i0, rfl⟩ | ⟨b, i0, rfl⟩ | ⟨b, i0, rfl⟩ | ⟨b, i0, rfl⟩ | ⟨b, i0, rfl⟩ | ⟨b, i0, rfl⟩ | ⟨b, i0, rfl⟩ | ⟨b, i0, rfl⟩
  · exact absurd b (by decide)
  · exact absurd b (by decide)
  · exact absurd b (by decide)
  · exact absurd b (by decide)
  · exact absurd b (by decide)
  · exact absurd b (by decide)
  · exact absurd b (by decide)
  · exact absurd b (by decide)
  · exact absurd b (by decide)
  · exact absurd b (by decide)
  · exact absurd b (by decide)
  · exact absurd b (by decide)
  · exact absurd b (by decide)
  · exact absurd b (by decide)
  · exact absurd b (by decide)
  · exact absurd b (by decide)
  · exact absurd b (by decide)
  · exact absurd b (by decide)
  · exact absurd b (by decide)
  · exact absurd b (by decide)
  · exact absurd b (by decide)
  · exact .inr (.inr (.inl ⟨i0, .inl rfl⟩))
  · exact absurd b (by decide)
  · exact absurd b (by decide)
  · exact absurd b (by decide)
  · exact .inr (.inr (.inl ⟨i0, .inr (.inl rfl)⟩))
  · exact .inr (.inr (.inl ⟨i0, .inr (.inr (rfl))⟩))
  · exact absurd b (by decide)
  · exact absurd b (by decide)
  · exact absurd b (by decide)
  · exact absurd b (by decide)
  · exact absurd b (by decide)
  · exact absurd b (by decide)
  · exact absurd b (by decide)
  · exact absurd b (by decide)
  · exact absurd b (by decide)
  · exact absurd b (by decide)
  · exact absurd b (by decide)
  · exact absurd b (by decide)
  · exact absurd b (by decide)
  · exact absurd b (by decide)
  · exact absurd b (by decide)
  · exact absurd b (by decide)
  · exact absurd b (by decide)
  · exact absurd b (by decide)
  · exact absurd b (by decide)
  · exact absurd b (by decide)
  · exact absurd b (by decide)
  · exact absurd b (by decide)
  · exact absurd b (by decide)
  · exact absurd b (by decide)
  · exact absurd b (by decide)
  · exact absurd b (by decide)
  · exact absurd b (by decide)
  · exact absurd b (by decide)
  · exact .inr (.inr (.inr (.inl ⟨i0, .inl rfl⟩)))
  · exact .inr (.inr (.inr (.inl ⟨i0, .inr (rfl)⟩)))
  · exact absurd b (by decide)
  · exact .inr (.inr (.inr (.inr (⟨i0, i1, .inl rfl⟩))))
  · exact .inr (.inr (.inr (.inr (⟨i0, i1, .inr (.inl rfl)⟩))))
  · exact absurd b (by decide)
  · exact .inr (.inr (.inr (.inr (⟨i0, i1, .inr (.inr (.inl rfl))⟩))))
  · exact .inr (.inr (.inr (.inr (⟨i0, i1, .inr (.inr (.inr (rfl)))⟩))))
  · exact absurd b (by decide)
  · exact absurd b (by decide)
  · exact absurd b (by decide)
  · exact .inr (.inl ⟨i0, rfl⟩)
  · exact absurd b (by decide)
  · exact absurd b (by decide)
  · exact absurd b (by decide)
  · exact absurd b (by decide)
  · exact absurd b (by decide)
  · exact absurd b (by decide)
  · exact absurd b (by decide)
  · exact absurd b (by decide)
  · exact absurd b (by decide)
  · exact absurd b (by decide)
  · exact absurd b (by decide)
  · exact absurd b (by decide)
  · exact absurd b (by decide)
  · exact absurd b (by decide)
  · exact absurd b (by decide)
  · exact absurd b (by decide)
  · exact absurd b (by decide)
  · exact absurd b (by decide)
  · exact absurd b (by decide)
  · exact absurd b (by decide)
  · exact absurd b (by decide)
  · exact absurd b (by decide)
  · exact absurd b (by decide)
  · exact absurd b (by decide)
  · exact absurd b (by decide)
  · exact absurd b (by decide)
  · exact absurd b (by decide)
  · exact absurd b (by decide)
  · exact absurd b (by decide)
  · exact absurd b (by decide)
  · exact absurd b (by decide)
  · exact absurd b (by decide)
  · exact absurd b (by decide)
  · exact absurd b (by decide)
  · exact absurd b (by decide)
  · exact absurd b (by decide)
  · exact absurd b (by decide)
  · exact absurd b (by decide)
  · exact absurd b (by decide)
  · exact absurd b (by decide)
  · exact .inl ⟨i0, .inl rfl⟩
  · exact .inl ⟨i0, .inr (.inl rfl)⟩
  · exact .inl ⟨i0, .inr (.inr (rfl))⟩

theorem touch.eventSame {m : Nat} {s t : State} (h : touch m s t) (e : m ||| 0x3800000000046d8000000620000004000000000000000006000a0 = 0x3800000000046d8000000620000004000000000000000006000a0) : eventSame s t := by
  replace h := h.mono e
  exact ⟨State.eq_of (h.pending rfl) (h.chip rfl) rfl (h.cycles rfl) (h.adjust rfl) (h.freeCount rfl) rfl (h.out rfl) rfl (h.fuses rfl) (h.sealed rfl) (h.sealRequests rfl) (h.nvs rfl) (h.dir rfl) (h.staged rfl) (h.loading rfl) (h.loadOrder rfl) (h.reload rfl) (h.slotWrite rfl) (h.nvsOp rfl) (h.cfg rfl) (h.mr rfl) rfl rfl (h.tow rfl) (h.ports rfl) (h.staging rfl) (h.stageHolder rfl) (h.live rfl) (h.commits rfl) (h.fenceStart rfl) (h.crossings rfl) (h.modes rfl) (h.ledgers rfl) (h.ingress rfl) (h.waiting rfl) (h.outstanding rfl) (h.nextId rfl) (h.device rfl) (h.heldFailures rfl) (h.streams rfl) (h.flowLast rfl) (h.writeLast rfl) (h.lockWait rfl) (h.lockClass rfl) (h.portLocks rfl) (h.planned rfl) (h.bounds rfl) (h.boundsSets rfl) (h.postedCount rfl) (h.requesters rfl) (h.engines rfl) (h.program rfl) (h.dataMem rfl) (h.links rfl) (h.vlast rfl) (h.ecc rfl) (h.l1Exit rfl) (h.announceDue rfl) (h.gated rfl) (h.woken rfl) (h.devices rfl) (h.hidden rfl) (h.bindPu rfl) (h.virt rfl) (h.virtPorts rfl) (h.deviceMps rfl) (h.aer rfl) (h.aerHeader rfl) (h.intxLevel rfl) (h.intxSent rfl) (h.intxCount rfl) (h.flr rfl) (h.configJobs rfl) (h.pmeOff rfl) (h.rings rfl) (h.beyond64 rfl) (h.lanes rfl) (h.time rfl) (h.dpcSince rfl) (h.doe rfl) (h.doeOrder rfl) (h.kickAt rfl) (h.hosts rfl) (h.bindSets rfl) (h.powerSamples rfl) (h.coolSince rfl) (h.batchNo rfl) (h.batchSize rfl) (h.shadow rfl) (h.stagedAt rfl) (h.bankWrite rfl) (h.keeperRun rfl) (h.secSizes rfl) (h.l0pPartners rfl) rfl (h.slotsUsed rfl), fun a ha => h.rd a fun x => ha (touched_eventSame x)⟩

/-- The registers that the frame names. -/
theorem touched_workSame {a : Nat} (h : touched 0x3c3f5fff9805ed9d0000063980c70c30004fe8171ffff486000f0 a) : workReg a := by
  unfold touched at h
  rcases h with ⟨b, rfl⟩ | ⟨b, rfl⟩ | ⟨b, rfl⟩ | ⟨b, rfl⟩ | ⟨b, rfl⟩ | ⟨b, rfl⟩ | ⟨b, rfl⟩ | ⟨b, rfl⟩ | ⟨b, rfl⟩ | ⟨b, rfl⟩ | ⟨b, rfl⟩ | ⟨b, rfl⟩ | ⟨b, rfl⟩ | ⟨b, rfl⟩ | ⟨b, rfl⟩ | ⟨b, rfl⟩ | ⟨b, rfl⟩ | ⟨b, i0, rfl⟩ | ⟨b, rfl⟩ | ⟨b, rfl⟩ | ⟨b, i0, rfl⟩ | ⟨b, i0, rfl⟩ | ⟨b, i0, rfl⟩ | ⟨b, i0, rfl⟩ | ⟨b, i0, rfl⟩ | ⟨b, i0, rfl⟩ | ⟨b, i0, rfl⟩ | ⟨b, i0, i1, rfl⟩ | ⟨b, rfl⟩ | ⟨b, rfl⟩ | ⟨b, rfl⟩ | ⟨b, rfl⟩ | ⟨b, i0, rfl⟩ | ⟨b, i0, rfl⟩ | ⟨b, i0, rfl⟩ | ⟨b, i0, rfl⟩ | ⟨b, i0, rfl⟩ | ⟨b, i0, rfl⟩ | ⟨b, i0, rfl⟩ | ⟨b, i0, rfl⟩ | ⟨b, i0, rfl⟩ | ⟨b, i0, rfl⟩ | ⟨b, i0, rfl⟩ | ⟨b, i0, rfl⟩ | ⟨b, i0, rfl⟩ | ⟨b, i0, rfl⟩ | ⟨b, i0, rfl⟩ | ⟨b, i0, rfl⟩ | ⟨b, i0, rfl⟩ | ⟨b, i0, rfl⟩ | ⟨b, i0, rfl⟩ | ⟨b, i0, i1, rfl⟩ | ⟨b, i0, i1, rfl⟩ | ⟨b, i0, rfl⟩ | ⟨b, i0, rfl⟩ | ⟨b, i0, rfl⟩ | ⟨b, i0, rfl⟩ | ⟨b, i0, i1, rfl⟩ | ⟨b, i0, i1, rfl⟩ | ⟨b, i0, i1, rfl⟩ | ⟨b, i0, i1, i2, rfl⟩ | ⟨b, i0, i1, rfl⟩ | ⟨b, i0, i1, rfl⟩ | ⟨b, i0, i1, rfl⟩ | ⟨b, i0, i1, rfl⟩ | ⟨b, i0, i1, i2, rfl⟩ | ⟨b, i0, rfl⟩ | ⟨b, i0, i1, rfl⟩ | ⟨b, i0, rfl⟩ | ⟨b, i0, rfl⟩ | ⟨b, i0, rfl⟩ | ⟨b, i0, rfl⟩ | ⟨b, i0, rfl⟩ | ⟨b, i0, rfl⟩ | ⟨b, i0, rfl⟩ | ⟨b, i0, rfl⟩ | ⟨b, i0, rfl⟩ | ⟨b, i0, rfl⟩ | ⟨b, i0, i1, rfl⟩ | ⟨b, i0, rfl⟩ | ⟨b, i0, rfl⟩ | ⟨b, i0, rfl⟩ | ⟨b, i0, rfl⟩ | ⟨b, i0, rfl⟩ | ⟨b, i0, rfl⟩ | ⟨b, i0, rfl⟩ | ⟨b, i0, rfl⟩ | ⟨b, i0, rfl⟩ | ⟨b, i0, rfl⟩ | ⟨b, i0, rfl⟩ | ⟨b, i0, rfl⟩ | ⟨b, i0, rfl⟩ | ⟨b, i0, rfl⟩ | ⟨b, i0, rfl⟩ | ⟨b, i0, rfl⟩ | ⟨b, i0, rfl⟩ | ⟨b, i0, rfl⟩ | ⟨b, i0, rfl⟩ | ⟨b, i0, rfl⟩ | ⟨b, i0, rfl⟩ | ⟨b, i0, i1, rfl⟩ | ⟨b, i0, i1, rfl⟩ | ⟨b, i0, rfl⟩ | ⟨b, i0, rfl⟩ | ⟨b, i0, rfl⟩ | ⟨b, i0, rfl⟩ | ⟨b, i0, rfl⟩ | ⟨b, i0, rfl⟩ | ⟨b, i0, rfl⟩ | ⟨b, i0, rfl⟩
  · exact .inr (.inl (.inl rfl))
  · exact .inr (.inl (.inr (.inl rfl)))
  · exact .inr (.inl (.inr (.inr (.inl rfl))))
  · exact absurd b (by decide)
  · exact absurd b (by decide)
  · exact absurd b (by decide)
  · exact .inr (.inr (.inl rfl))
  · exact .inr (.inr (.inr (.inl rfl)))
  · exact absurd b (by decide)
  · exact absurd b (by decide)
  · exact absurd b (by decide)
  · exact absurd b (by decide)
  · exact absurd b (by decide)
  · exact absurd b (by decide)
  · exact absurd b (by decide)
  · exact .inr (.inl (.inr (.inr (.inr (.inr (.inl rfl))))))
  · exact .inr (.inl (.inr (.inr (.inr (.inr (.inr (.inl rfl)))))))
  · exact absurd b (by decide)
  · exact absurd b (by decide)
  · exact .inr (.inl (.inr (.inr (.inr (.inl rfl)))))
  · exact .inr (.inl (.inr (.inr (.inr (.inr (.inr (.inr (.inl ⟨i0, rfl⟩))))))))
  · exact .inl (.inr (.inr (.inl ⟨i0, .inl rfl⟩)))
  · exact absurd b (by decide)
  · exact absurd b (by decide)
  · exact absurd b (by decide)
  · exact .inl (.inr (.inr (.inl ⟨i0, .inr (.inl rfl)⟩)))
  · exact .inl (.inr (.inr (.inl ⟨i0, .inr (.inr (rfl))⟩)))
  · exact absurd b (by decide)
  · exact absurd b (by decide)
  · exact absurd b (by decide)
  · exact absurd b (by decide)
  · exact absurd b (by decide)
  · exact absurd b (by decide)
  · exact absurd b (by decide)
  · exact absurd b (by decide)
  · exact absurd b (by decide)
  · exact absurd b (by decide)
  · exact absurd b (by decide)
  · exact absurd b (by decide)
  · exact absurd b (by decide)
  · exact absurd b (by decide)
  · exact absurd b (by decide)
  · exact absurd b (by decide)
  · exact absurd b (by decide)
  · exact absurd b (by decide)
  · exact absurd b (by decide)
  · exact absurd b (by decide)
  · exact absurd b (by decide)
  · exact .inr (.inr (.inr (.inr (.inl ⟨i0, .inl rfl⟩))))
  · exact absurd b (by decide)
  · exact .inr (.inr (.inr (.inr (.inl ⟨i0, .inr (rfl)⟩))))
  · exact .inr (.inr (.inr (.inr (.inr (.inl ⟨i0, i1, .inl rfl⟩)))))
  · exact .inr (.inr (.inr (.inr (.inr (.inl ⟨i0, i1, .inr (rfl)⟩)))))
  · exact absurd b (by decide)
  · exact absurd b (by decide)
  · exact .inl (.inr (.inr (.inr (.inl ⟨i0, .inl rfl⟩))))
  · exact .inl (.inr (.inr (.inr (.inl ⟨i0, .inr (rfl)⟩))))
  · exact absurd b (by decide)
  · exact .inl (.inr (.inr (.inr (.inr (⟨i0, i1, .inl rfl⟩)))))
  · exact .inl (.inr (.inr (.inr (.inr (⟨i0, i1, .inr (.inl rfl)⟩)))))
  · exact absurd b (by decide)
  · exact .inl (.inr (.inr (.inr (.inr (⟨i0, i1, .inr (.inr (.inl rfl))⟩)))))
  · exact .inl (.inr (.inr (.inr (.inr (⟨i0, i1, .inr (.inr (.inr (rfl)))⟩)))))
  · exact .inr (.inl (.inr (.inr (.inr (.inr (.inr (.inr (.inr (.inl ⟨i0, i1, .inl rfl⟩)))))))))
  · exact .inr (.inl (.inr (.inr (.inr (.inr (.inr (.inr (.inr (.inl ⟨i0, i1, .inr (rfl)⟩)))))))))
  · exact absurd b (by decide)
  · exact .inl (.inr (.inl ⟨i0, rfl⟩))
  · exact absurd b (by decide)
  · exact absurd b (by decide)
  · exact absurd b (by decide)
  · exact absurd b (by decide)
  · exact absurd b (by decide)
  · exact absurd b (by decide)
  · exact absurd b (by decide)
  · exact absurd b (by decide)
  · exact .inr (.inr (.inr (.inr (.inr (.inr (.inl ⟨i0, .inl rfl⟩))))))
  · exact .inr (.inr (.inr (.inr (.inr (.inr (.inl ⟨i0, .inr (rfl)⟩))))))
  · exact absurd b (by decide)
  · exact absurd b (by decide)
  · exact .inr (.inr (.inr (.inr (.inr (.inr (.inr (.inr (.inl ⟨i0, .inl rfl⟩))))))))
  · exact .inr (.inr (.inr (.inr (.inr (.inr (.inr (.inr (.inl ⟨i0, .inr (.inl rfl)⟩))))))))
  · exact .inr (.inr (.inr (.inr (.inr (.inr (.inr (.inr (.inl ⟨i0, .inr (.inr (.inl rfl))⟩))))))))
  · exact .inr (.inr (.inr (.inr (.inr (.inr (.inr (.inr (.inl ⟨i0, .inr (.inr (.inr (.inl rfl)))⟩))))))))
  · exact .inr (.inr (.inr (.inr (.inr (.inr (.inr (.inr (.inl ⟨i0, .inr (.inr (.inr (.inr (.inl rfl))))⟩))))))))
  · exact .inr (.inr (.inr (.inr (.inr (.inr (.inr (.inr (.inl ⟨i0, .inr (.inr (.inr (.inr (.inr (.inl rfl)))))⟩))))))))
  · exact .inr (.inr (.inr (.inr (.inr (.inr (.inr (.inr (.inl ⟨i0, .inr (.inr (.inr (.inr (.inr (.inr (rfl))))))⟩))))))))
  · exact .inr (.inr (.inr (.inr (.inr (.inr (.inr (.inr (.inr (⟨i0, .inl rfl⟩)))))))))
  · exact .inr (.inr (.inr (.inr (.inr (.inr (.inr (.inr (.inr (⟨i0, .inr (.inl rfl)⟩)))))))))
  · exact .inr (.inr (.inr (.inr (.inr (.inr (.inr (.inr (.inr (⟨i0, .inr (.inr (.inl rfl))⟩)))))))))
  · exact .inr (.inr (.inr (.inr (.inr (.inr (.inr (.inr (.inr (⟨i0, .inr (.inr (.inr (.inl rfl)))⟩)))))))))
  · exact .inr (.inr (.inr (.inr (.inr (.inr (.inr (.inr (.inr (⟨i0, .inr (.inr (.inr (.inr (.inl rfl))))⟩)))))))))
  · exact .inr (.inr (.inr (.inr (.inr (.inr (.inr (.inr (.inr (⟨i0, .inr (.inr (.inr (.inr (.inr (.inl rfl)))))⟩)))))))))
  · exact .inr (.inr (.inr (.inr (.inr (.inr (.inr (.inr (.inr (⟨i0, .inr (.inr (.inr (.inr (.inr (.inr (.inl rfl))))))⟩)))))))))
  · exact absurd b (by decide)
  · exact .inr (.inr (.inr (.inr (.inr (.inr (.inr (.inr (.inr (⟨i0, .inr (.inr (.inr (.inr (.inr (.inr (.inr (.inl rfl)))))))⟩)))))))))
  · exact absurd b (by decide)
  · exact .inr (.inr (.inr (.inr (.inr (.inr (.inr (.inr (.inr (⟨i0, .inr (.inr (.inr (.inr (.inr (.inr (.inr (.inr (.inl rfl))))))))⟩)))))))))
  · exact .inr (.inr (.inr (.inr (.inr (.inr (.inr (.inr (.inr (⟨i0, .inr (.inr (.inr (.inr (.inr (.inr (.inr (.inr (.inr (.inl rfl)))))))))⟩)))))))))
  · exact .inr (.inr (.inr (.inr (.inr (.inr (.inr (.inr (.inr (⟨i0, .inr (.inr (.inr (.inr (.inr (.inr (.inr (.inr (.inr (.inr (.inl rfl))))))))))⟩)))))))))
  · exact .inr (.inr (.inr (.inr (.inr (.inr (.inr (.inr (.inr (⟨i0, .inr (.inr (.inr (.inr (.inr (.inr (.inr (.inr (.inr (.inr (.inr (rfl)))))))))))⟩)))))))))
  · exact .inr (.inl (.inr (.inr (.inr (.inr (.inr (.inr (.inr (.inr (⟨i0, i1, .inl rfl⟩))))))))))
  · exact .inr (.inl (.inr (.inr (.inr (.inr (.inr (.inr (.inr (.inr (⟨i0, i1, .inr (rfl)⟩))))))))))
  · exact absurd b (by decide)
  · exact absurd b (by decide)
  · exact absurd b (by decide)
  · exact absurd b (by decide)
  · exact .inr (.inr (.inr (.inr (.inr (.inr (.inr (.inl ⟨i0, rfl⟩)))))))
  · exact .inl (.inl ⟨i0, .inl rfl⟩)
  · exact .inl (.inl ⟨i0, .inr (.inl rfl)⟩)
  · exact .inl (.inl ⟨i0, .inr (.inr (rfl))⟩)

theorem touch.workSame {m : Nat} {s t : State} (h : touch m s t) (e : m ||| 0x3c3f5fff9805ed9d0000063980c70c30004fe8171ffff486000f0 = 0x3c3f5fff9805ed9d0000063980c70c30004fe8171ffff486000f0) : workSame s t := by
  replace h := h.mono e
  exact ⟨State.eq_of (h.pending rfl) (h.chip rfl) rfl (h.cycles rfl) (h.adjust rfl) rfl rfl rfl rfl (h.fuses rfl) (h.sealed rfl) (h.sealRequests rfl) (h.nvs rfl) (h.dir rfl) (h.staged rfl) (h.loading rfl) (h.loadOrder rfl) (h.reload rfl) (h.slotWrite rfl) (h.nvsOp rfl) (h.cfg rfl) (h.mr rfl) rfl rfl (h.tow rfl) (h.ports rfl) (h.staging rfl) (h.stageHolder rfl) rfl (h.commits rfl) (h.fenceStart rfl) rfl (h.modes rfl) rfl rfl rfl rfl rfl rfl rfl rfl rfl rfl rfl rfl rfl rfl rfl rfl rfl rfl (h.engines rfl) (h.program rfl) (h.dataMem rfl) rfl rfl rfl (h.l1Exit rfl) rfl (h.gated rfl) (h.woken rfl) (h.devices rfl) (h.hidden rfl) (h.bindPu rfl) (h.virt rfl) rfl (h.deviceMps rfl) rfl rfl rfl rfl rfl rfl rfl rfl (h.rings rfl) (h.beyond64 rfl) rfl (h.time rfl) (h.dpcSince rfl) (h.doe rfl) (h.doeOrder rfl) (h.kickAt rfl) (h.hosts rfl) (h.bindSets rfl) (h.powerSamples rfl) (h.coolSince rfl) (h.batchNo rfl) (h.batchSize rfl) (h.shadow rfl) (h.stagedAt rfl) (h.bankWrite rfl) (h.keeperRun rfl) (h.secSizes rfl) (h.l0pPartners rfl) rfl rfl, fun a ha => h.rd a fun x => ha (touched_workSame x)⟩

/-- The registers that the frame names. -/
theorem touched_linkSame {a : Nat} (h : touched 0x3c3f5fff9805ed9d0000063980cf0c3000cfe8171ffff486000f0 a) : linkReg a := by
  unfold touched at h
  rcases h with ⟨b, rfl⟩ | ⟨b, rfl⟩ | ⟨b, rfl⟩ | ⟨b, rfl⟩ | ⟨b, rfl⟩ | ⟨b, rfl⟩ | ⟨b, rfl⟩ | ⟨b, rfl⟩ | ⟨b, rfl⟩ | ⟨b, rfl⟩ | ⟨b, rfl⟩ | ⟨b, rfl⟩ | ⟨b, rfl⟩ | ⟨b, rfl⟩ | ⟨b, rfl⟩ | ⟨b, rfl⟩ | ⟨b, rfl⟩ | ⟨b, i0, rfl⟩ | ⟨b, rfl⟩ | ⟨b, rfl⟩ | ⟨b, i0, rfl⟩ | ⟨b, i0, rfl⟩ | ⟨b, i0, rfl⟩ | ⟨b, i0, rfl⟩ | ⟨b, i0, rfl⟩ | ⟨b, i0, rfl⟩ | ⟨b, i0, rfl⟩ | ⟨b, i0, i1, rfl⟩ | ⟨b, rfl⟩ | ⟨b, rfl⟩ | ⟨b, rfl⟩ | ⟨b, rfl⟩ | ⟨b, i0, rfl⟩ | ⟨b, i0, rfl⟩ | ⟨b, i0, rfl⟩ | ⟨b, i0, rfl⟩ | ⟨b, i0, rfl⟩ | ⟨b, i0, rfl⟩ | ⟨b, i0, rfl⟩ | ⟨b, i0, rfl⟩ | ⟨b, i0, rfl⟩ | ⟨b, i0, rfl⟩ | ⟨b, i0, rfl⟩ | ⟨b, i0, rfl⟩ | ⟨b, i0, rfl⟩ | ⟨b, i0, rfl⟩ | ⟨b, i0, rfl⟩ | ⟨b, i0, rfl⟩ | ⟨b, i0, rfl⟩ | ⟨b, i0, rfl⟩ | ⟨b, i0, rfl⟩ | ⟨b, i0, i1, rfl⟩ | ⟨b, i0, i1, rfl⟩ | ⟨b, i0, rfl⟩ | ⟨b, i0, rfl⟩ | ⟨b, i0, rfl⟩ | ⟨b, i0, rfl⟩ | ⟨b, i0, i1, rfl⟩ | ⟨b, i0, i1, rfl⟩ | ⟨b, i0, i1, rfl⟩ | ⟨b, i0, i1, i2, rfl⟩ | ⟨b, i0, i1, rfl⟩ | ⟨b, i0, i1, rfl⟩ | ⟨b, i0, i1, rfl⟩ | ⟨b, i0, i1, rfl⟩ | ⟨b, i0, i1, i2, rfl⟩ | ⟨b, i0, rfl⟩ | ⟨b, i0, i1, rfl⟩ | ⟨b, i0, rfl⟩ | ⟨b, i0, rfl⟩ | ⟨b, i0, rfl⟩ | ⟨b, i0, rfl⟩ | ⟨b, i0, rfl⟩ | ⟨b, i0, rfl⟩ | ⟨b, i0, rfl⟩ | ⟨b, i0, rfl⟩ | ⟨b, i0, rfl⟩ | ⟨b, i0, rfl⟩ | ⟨b, i0, i1, rfl⟩ | ⟨b, i0, rfl⟩ | ⟨b, i0, rfl⟩ | ⟨b, i0, rfl⟩ | ⟨b, i0, rfl⟩ | ⟨b, i0, rfl⟩ | ⟨b, i0, rfl⟩ | ⟨b, i0, rfl⟩ | ⟨b, i0, rfl⟩ | ⟨b, i0, rfl⟩ | ⟨b, i0, rfl⟩ | ⟨b, i0, rfl⟩ | ⟨b, i0, rfl⟩ | ⟨b, i0, rfl⟩ | ⟨b, i0, rfl⟩ | ⟨b, i0, rfl⟩ | ⟨b, i0, rfl⟩ | ⟨b, i0, rfl⟩ | ⟨b, i0, rfl⟩ | ⟨b, i0, rfl⟩ | ⟨b, i0, rfl⟩ | ⟨b, i0, rfl⟩ | ⟨b, i0, i1, rfl⟩ | ⟨b, i0, i1, rfl⟩ | ⟨b, i0, rfl⟩ | ⟨b, i0, rfl⟩ | ⟨b, i0, rfl⟩ | ⟨b, i0, rfl⟩ | ⟨b, i0, rfl⟩ | ⟨b, i0, rfl⟩ | ⟨b, i0, rfl⟩ | ⟨b, i0, rfl⟩
  · exact .inl (.inr (.inl (.inl rfl)))
  · exact .inl (.inr (.inl (.inr (.inl rfl))))
  · exact .inl (.inr (.inl (.inr (.inr (.inl rfl)))))
  · exact .inr (rfl)
  · exact absurd b (by decide)
  · exact absurd b (by decide)
  · exact .inl (.inr (.inr (.inl rfl)))
  · exact .inl (.inr (.inr (.inr (.inl rfl))))
  · exact absurd b (by decide)
  · exact absurd b (by decide)
  · exact absurd b (by decide)
  · exact absurd b (by decide)
  · exact absurd b (by decide)
  · exact absurd b (by decide)
  · exact absurd b (by decide)
  · exact .inl (.inr (.inl (.inr (.inr (.inr (.inr (.inl rfl)))))))
  · exact .inl (.inr (.inl (.inr (.inr (.inr (.inr (.inr (.inl rfl))))))))
  · exact absurd b (by decide)
  · exact absurd b (by decide)
  · exact .inl (.inr (.inl (.inr (.inr (.inr (.inl rfl))))))
  · exact .inl (.inr (.inl (.inr (.inr (.inr (.inr (.inr (.inr (.inl ⟨i0, rfl⟩)))))))))
  · exact .inl (.inl (.inr (.inr (.inl ⟨i0, .inl rfl⟩))))
  · exact absurd b (by decide)
  · exact absurd b (by decide)
  · exact absurd b (by decide)
  · exact .inl (.inl (.inr (.inr (.inl ⟨i0, .inr (.inl rfl)⟩))))
  · exact .inl (.inl (.inr (.inr (.inl ⟨i0, .inr (.inr (rfl))⟩))))
  · exact absurd b (by decide)
  · exact absurd b (by decide)
  · exact absurd b (by decide)
  · exact absurd b (by decide)
  · exact absurd b (by decide)
  · exact absurd b (by decide)
  · exact absurd b (by decide)
  · exact absurd b (by decide)
  · exact absurd b (by decide)
  · exact absurd b (by decide)
  · exact absurd b (by decide)
  · exact absurd b (by decide)
  · exact absurd b (by decide)
  · exact absurd b (by decide)
  · exact absurd b (by decide)
  · exact absurd b (by decide)
  · exact absurd b (by decide)
  · exact absurd b (by decide)
  · exact absurd b (by decide)
  · exact absurd b (by decide)
  · exact absurd b (by decide)
  · exact .inl (.inr (.inr (.inr (.inr (.inl ⟨i0, .inl rfl⟩)))))
  · exact absurd b (by decide)
  · exact .inl (.inr (.inr (.inr (.inr (.inl ⟨i0, .inr (rfl)⟩)))))
  · exact .inl (.inr (.inr (.inr (.inr (.inr (.inl ⟨i0, i1, .inl rfl⟩))))))
  · exact .inl (.inr (.inr (.inr (.inr (.inr (.inl ⟨i0, i1, .inr (rfl)⟩))))))
  · exact absurd b (by decide)
  · exact absurd b (by decide)
  · exact .inl (.inl (.inr (.inr (.inr (.inl ⟨i0, .inl rfl⟩)))))
  · exact .inl (.inl (.inr (.inr (.inr (.inl ⟨i0, .inr (rfl)⟩)))))
  · exact absurd b (by decide)
  · exact .inl (.inl (.inr (.inr (.inr (.inr (⟨i0, i1, .inl rfl⟩))))))
  · exact .inl (.inl (.inr (.inr (.inr (.inr (⟨i0, i1, .inr (.inl rfl)⟩))))))
  · exact absurd b (by decide)
  · exact .inl (.inl (.inr (.inr (.inr (.inr (⟨i0, i1, .inr (.inr (.inl rfl))⟩))))))
  · exact .inl (.inl (.inr (.inr (.inr (.inr (⟨i0, i1, .inr (.inr (.inr (rfl)))⟩))))))
  · exact .inl (.inr (.inl (.inr (.inr (.inr (.inr (.inr (.inr (.inr (.inl ⟨i0, i1, .inl rfl⟩))))))))))
  · exact .inl (.inr (.inl (.inr (.inr (.inr (.inr (.inr (.inr (.inr (.inl ⟨i0, i1, .inr (rfl)⟩))))))))))
  · exact absurd b (by decide)
  · exact .inl (.inl (.inr (.inl ⟨i0, rfl⟩)))
  · exact absurd b (by decide)
  · exact absurd b (by decide)
  · exact absurd b (by decide)
  · exact absurd b (by decide)
  · exact absurd b (by decide)
  · exact absurd b (by decide)
  · exact absurd b (by decide)
  · exact absurd b (by decide)
  · exact .inl (.inr (.inr (.inr (.inr (.inr (.inr (.inl ⟨i0, .inl rfl⟩)))))))
  · exact .inl (.inr (.inr (.inr (.inr (.inr (.inr (.inl ⟨i0, .inr (rfl)⟩)))))))
  · exact absurd b (by decide)
  · exact absurd b (by decide)
  · exact .inl (.inr (.inr (.inr (.inr (.inr (.inr (.inr (.inr (.inl ⟨i0, .inl rfl⟩)))))))))
  · exact .inl (.inr (.inr (.inr (.inr (.inr (.inr (.inr (.inr (.inl ⟨i0, .inr (.inl rfl)⟩)))))))))
  · exact .inl (.inr (.inr (.inr (.inr (.inr (.inr (.inr (.inr (.inl ⟨i0, .inr (.inr (.inl rfl))⟩)))))))))
  · exact .inl (.inr (.inr (.inr (.inr (.inr (.inr (.inr (.inr (.inl ⟨i0, .inr (.inr (.inr (.inl rfl)))⟩)))))))))
  · exact .inl (.inr (.inr (.inr (.inr (.inr (.inr (.inr (.inr (.inl ⟨i0, .inr (.inr (.inr (.inr (.inl rfl))))⟩)))))))))
  · exact .inl (.inr (.inr (.inr (.inr (.inr (.inr (.inr (.inr (.inl ⟨i0, .inr (.inr (.inr (.inr (.inr (.inl rfl)))))⟩)))))))))
  · exact .inl (.inr (.inr (.inr (.inr (.inr (.inr (.inr (.inr (.inl ⟨i0, .inr (.inr (.inr (.inr (.inr (.inr (rfl))))))⟩)))))))))
  · exact .inl (.inr (.inr (.inr (.inr (.inr (.inr (.inr (.inr (.inr (⟨i0, .inl rfl⟩))))))))))
  · exact .inl (.inr (.inr (.inr (.inr (.inr (.inr (.inr (.inr (.inr (⟨i0, .inr (.inl rfl)⟩))))))))))
  · exact .inl (.inr (.inr (.inr (.inr (.inr (.inr (.inr (.inr (.inr (⟨i0, .inr (.inr (.inl rfl))⟩))))))))))
  · exact .inl (.inr (.inr (.inr (.inr (.inr (.inr (.inr (.inr (.inr (⟨i0, .inr (.inr (.inr (.inl rfl)))⟩))))))))))
  · exact .inl (.inr (.inr (.inr (.inr (.inr (.inr (.inr (.inr (.inr (⟨i0, .inr (.inr (.inr (.inr (.inl rfl))))⟩))))))))))
  · exact .inl (.inr (.inr (.inr (.inr (.inr (.inr (.inr (.inr (.inr (⟨i0, .inr (.inr (.inr (.inr (.inr (.inl rfl)))))⟩))))))))))
  · exact .inl (.inr (.inr (.inr (.inr (.inr (.inr (.inr (.inr (.inr (⟨i0, .inr (.inr (.inr (.inr (.inr (.inr (.inl rfl))))))⟩))))))))))
  · exact absurd b (by decide)
  · exact .inl (.inr (.inr (.inr (.inr (.inr (.inr (.inr (.inr (.inr (⟨i0, .inr (.inr (.inr (.inr (.inr (.inr (.inr (.inl rfl)))))))⟩))))))))))
  · exact absurd b (by decide)
  · exact .inl (.inr (.inr (.inr (.inr (.inr (.inr (.inr (.inr (.inr (⟨i0, .inr (.inr (.inr (.inr (.inr (.inr (.inr (.inr (.inl rfl))))))))⟩))))))))))
  · exact .inl (.inr (.inr (.inr (.inr (.inr (.inr (.inr (.inr (.inr (⟨i0, .inr (.inr (.inr (.inr (.inr (.inr (.inr (.inr (.inr (.inl rfl)))))))))⟩))))))))))
  · exact .inl (.inr (.inr (.inr (.inr (.inr (.inr (.inr (.inr (.inr (⟨i0, .inr (.inr (.inr (.inr (.inr (.inr (.inr (.inr (.inr (.inr (.inl rfl))))))))))⟩))))))))))
  · exact .inl (.inr (.inr (.inr (.inr (.inr (.inr (.inr (.inr (.inr (⟨i0, .inr (.inr (.inr (.inr (.inr (.inr (.inr (.inr (.inr (.inr (.inr (rfl)))))))))))⟩))))))))))
  · exact .inl (.inr (.inl (.inr (.inr (.inr (.inr (.inr (.inr (.inr (.inr (⟨i0, i1, .inl rfl⟩)))))))))))
  · exact .inl (.inr (.inl (.inr (.inr (.inr (.inr (.inr (.inr (.inr (.inr (⟨i0, i1, .inr (rfl)⟩)))))))))))
  · exact absurd b (by decide)
  · exact absurd b (by decide)
  · exact absurd b (by decide)
  · exact absurd b (by decide)
  · exact .inl (.inr (.inr (.inr (.inr (.inr (.inr (.inr (.inl ⟨i0, rfl⟩))))))))
  · exact .inl (.inl (.inl ⟨i0, .inl rfl⟩))
  · exact .inl (.inl (.inl ⟨i0, .inr (.inl rfl)⟩))
  · exact .inl (.inl (.inl ⟨i0, .inr (.inr (rfl))⟩))

theorem touch.linkSame {m : Nat} {s t : State} (h : touch m s t) (e : m ||| 0x3c3f5fff9805ed9d0000063980cf0c3000cfe8171ffff486000f0 = 0x3c3f5fff9805ed9d0000063980cf0c3000cfe8171ffff486000f0) : linkSame s t := by
  replace h := h.mono e
  exact ⟨State.eq_of (h.pending rfl) (h.chip rfl) rfl (h.cycles rfl) (h.adjust rfl) rfl rfl rfl rfl (h.fuses rfl) (h.sealed rfl) (h.sealRequests rfl) (h.nvs rfl) (h.dir rfl) (h.staged rfl) (h.loading rfl) (h.loadOrder rfl) (h.reload rfl) (h.slotWrite rfl) (h.nvsOp rfl) (h.cfg rfl) (h.mr rfl) rfl rfl (h.tow rfl) (h.ports rfl) (h.staging rfl) (h.stageHolder rfl) rfl (h.commits rfl) (h.fenceStart rfl) rfl (h.modes rfl) rfl rfl rfl rfl rfl rfl rfl rfl rfl rfl rfl rfl rfl rfl rfl rfl rfl rfl (h.engines rfl) (h.program rfl) (h.dataMem rfl) rfl rfl rfl (h.l1Exit rfl) rfl (h.gated rfl) (h.woken rfl) (h.devices rfl) (h.hidden rfl) (h.bindPu rfl) (h.virt rfl) rfl (h.deviceMps rfl) rfl rfl rfl rfl rfl rfl rfl rfl (h.rings rfl) (h.beyond64 rfl) rfl rfl (h.dpcSince rfl) (h.doe rfl) (h.doeOrder rfl) (h.kickAt rfl) (h.hosts rfl) (h.bindSets rfl) (h.powerSamples rfl) (h.coolSince rfl) (h.batchNo rfl) (h.batchSize rfl) (h.shadow rfl) (h.stagedAt rfl) (h.bankWrite rfl) (h.keeperRun rfl) (h.secSizes rfl) (h.l0pPartners rfl) rfl rfl, fun a ha => h.rd a fun x => ha (touched_linkSame x)⟩

/-- The registers that the frame names. -/
theorem touched_fenceSame {a : Nat} (h : touched 0x3c3f7fff9805ed9d0300063d93cf0c3006dfec17bffffc8710cf0 a) : fenceReg a := by
  unfold touched at h
  rcases h with ⟨b, rfl⟩ | ⟨b, rfl⟩ | ⟨b, rfl⟩ | ⟨b, rfl⟩ | ⟨b, rfl⟩ | ⟨b, rfl⟩ | ⟨b, rfl⟩ | ⟨b, rfl⟩ | ⟨b, rfl⟩ | ⟨b, rfl⟩ | ⟨b, rfl⟩ | ⟨b, rfl⟩ | ⟨b, rfl⟩ | ⟨b, rfl⟩ | ⟨b, rfl⟩ | ⟨b, rfl⟩ | ⟨b, rfl⟩ | ⟨b, i0, rfl⟩ | ⟨b, rfl⟩ | ⟨b, rfl⟩ | ⟨b, i0, rfl⟩ | ⟨b, i0, rfl⟩ | ⟨b, i0, rfl⟩ | ⟨b, i0, rfl⟩ | ⟨b, i0, rfl⟩ | ⟨b, i0, rfl⟩ | ⟨b, i0, rfl⟩ | ⟨b, i0, i1, rfl⟩ | ⟨b, rfl⟩ | ⟨b, rfl⟩ | ⟨b, rfl⟩ | ⟨b, rfl⟩ | ⟨b, i0, rfl⟩ | ⟨b, i0, rfl⟩ | ⟨b, i0, rfl⟩ | ⟨b, i0, rfl⟩ | ⟨b, i0, rfl⟩ | ⟨b, i0, rfl⟩ | ⟨b, i0, rfl⟩ | ⟨b, i0, rfl⟩ | ⟨b, i0, rfl⟩ | ⟨b, i0, rfl⟩ | ⟨b, i0, rfl⟩ | ⟨b, i0, rfl⟩ | ⟨b, i0, rfl⟩ | ⟨b, i0, rfl⟩ | ⟨b, i0, rfl⟩ | ⟨b, i0, rfl⟩ | ⟨b, i0, rfl⟩ | ⟨b, i0, rfl⟩ | ⟨b, i0, rfl⟩ | ⟨b, i0, i1, rfl⟩ | ⟨b, i0, i1, rfl⟩ | ⟨b, i0, rfl⟩ | ⟨b, i0, rfl⟩ | ⟨b, i0, rfl⟩ | ⟨b, i0, rfl⟩ | ⟨b, i0, i1, rfl⟩ | ⟨b, i0, i1, rfl⟩ | ⟨b, i0, i1, rfl⟩ | ⟨b, i0, i1, i2, rfl⟩ | ⟨b, i0, i1, rfl⟩ | ⟨b, i0, i1, rfl⟩ | ⟨b, i0, i1, rfl⟩ | ⟨b, i0, i1, rfl⟩ | ⟨b, i0, i1, i2, rfl⟩ | ⟨b, i0, rfl⟩ | ⟨b, i0, i1, rfl⟩ | ⟨b, i0, rfl⟩ | ⟨b, i0, rfl⟩ | ⟨b, i0, rfl⟩ | ⟨b, i0, rfl⟩ | ⟨b, i0, rfl⟩ | ⟨b, i0, rfl⟩ | ⟨b, i0, rfl⟩ | ⟨b, i0, rfl⟩ | ⟨b, i0, rfl⟩ | ⟨b, i0, rfl⟩ | ⟨b, i0, i1, rfl⟩ | ⟨b, i0, rfl⟩ | ⟨b, i0, rfl⟩ | ⟨b, i0, rfl⟩ | ⟨b, i0, rfl⟩ | ⟨b, i0, rfl⟩ | ⟨b, i0, rfl⟩ | ⟨b, i0, rfl⟩ | ⟨b, i0, rfl⟩ | ⟨b, i0, rfl⟩ | ⟨b, i0, rfl⟩ | ⟨b, i0, rfl⟩ | ⟨b, i0, rfl⟩ | ⟨b, i0, rfl⟩ | ⟨b, i0, rfl⟩ | ⟨b, i0, rfl⟩ | ⟨b, i0, rfl⟩ | ⟨b, i0, rfl⟩ | ⟨b, i0, rfl⟩ | ⟨b, i0, rfl⟩ | ⟨b, i0, rfl⟩ | ⟨b, i0, rfl⟩ | ⟨b, i0, i1, rfl⟩ | ⟨b, i0, i1, rfl⟩ | ⟨b, i0, rfl⟩ | ⟨b, i0, rfl⟩ | ⟨b, i0, rfl⟩ | ⟨b, i0, rfl⟩ | ⟨b, i0, rfl⟩ | ⟨b, i0, rfl⟩ | ⟨b, i0, rfl⟩ | ⟨b, i0, rfl⟩
  · exact .inl (.inr (.inl (.inl rfl)))
  · exact .inl (.inr (.inl (.inr (.inl rfl))))
  · exact .inl (.inr (.inl (.inr (.inr (.inl rfl)))))
  · exact .inr (.inr (.inr (.inr (.inl rfl))))
  · exact absurd b (by decide)
  · exact absurd b (by decide)
  · exact .inl (.inr (.inr (.inl rfl)))
  · exact .inl (.inr (.inr (.inr (.inl rfl))))
  · exact .inr (.inl rfl)
  · exact .inr (.inr (.inl rfl))
  · exact absurd b (by decide)
  · exact absurd b (by decide)
  · exact .inr (.inr (.inr (.inl rfl)))
  · exact absurd b (by decide)
  · exact absurd b (by decide)
  · exact .inl (.inr (.inl (.inr (.inr (.inr (.inr (.inl rfl)))))))
  · exact .inl (.inr (.inl (.inr (.inr (.inr (.inr (.inr (.inl rfl))))))))
  · exact absurd b (by decide)
  · exact .inr (.inr (.inr (.inr (.inr (.inl rfl)))))
  · exact .inl (.inr (.inl (.inr (.inr (.inr (.inl rfl))))))
  · exact .inl (.inr (.inl (.inr (.inr (.inr (.inr (.inr (.inr (.inl ⟨i0, rfl⟩)))))))))
  · exact .inl (.inl (.inr (.inr (.inl ⟨i0, .inl rfl⟩))))
  · exact absurd b (by decide)
  · exact absurd b (by decide)
  · exact absurd b (by decide)
  · exact .inl (.inl (.inr (.inr (.inl ⟨i0, .inr (.inl rfl)⟩))))
  · exact .inl (.inl (.inr (.inr (.inl ⟨i0, .inr (.inr (rfl))⟩))))
  · exact absurd b (by decide)
  · exact absurd b (by decide)
  · exact absurd b (by decide)
  · exact absurd b (by decide)
  · exact absurd b (by decide)
  · exact absurd b (by decide)
  · exact absurd b (by decide)
  · exact absurd b (by decide)
  · exact absurd b (by decide)
  · exact absurd b (by decide)
  · exact absurd b (by decide)
  · exact absurd b (by decide)
  · exact absurd b (by decide)
  · exact .inr (.inr (.inr (.inr (.inr (.inr (.inl ⟨i0, .inl rfl⟩))))))
  · exact .inr (.inr (.inr (.inr (.inr (.inr (.inl ⟨i0, .inr (rfl)⟩))))))
  · exact absurd b (by decide)
  · exact absurd b (by decide)
  · exact absurd b (by decide)
  · exact absurd b (by decide)
  · exact absurd b (by decide)
  · exact absurd b (by decide)
  · exact .inl (.inr (.inr (.inr (.inr (.inl ⟨i0, .inl rfl⟩)))))
  · exact absurd b (by decide)
  · exact .inl (.inr (.inr (.inr (.inr (.inl ⟨i0, .inr (rfl)⟩)))))
  · exact .inl (.inr (.inr (.inr (.inr (.inr (.inl ⟨i0, i1, .inl rfl⟩))))))
  · exact .inl (.inr (.inr (.inr (.inr (.inr (.inl ⟨i0, i1, .inr (rfl)⟩))))))
  · exact absurd b (by decide)
  · exact absurd b (by decide)
  · exact .inl (.inl (.inr (.inr (.inr (.inl ⟨i0, .inl rfl⟩)))))
  · exact .inl (.inl (.inr (.inr (.inr (.inl ⟨i0, .inr (rfl)⟩)))))
  · exact absurd b (by decide)
  · exact .inl (.inl (.inr (.inr (.inr (.inr (⟨i0, i1, .inl rfl⟩))))))
  · exact .inl (.inl (.inr (.inr (.inr (.inr (⟨i0, i1, .inr (.inl rfl)⟩))))))
  · exact absurd b (by decide)
  · exact .inl (.inl (.inr (.inr (.inr (.inr (⟨i0, i1, .inr (.inr (.inl rfl))⟩))))))
  · exact .inl (.inl (.inr (.inr (.inr (.inr (⟨i0, i1, .inr (.inr (.inr (rfl)))⟩))))))
  · exact .inl (.inr (.inl (.inr (.inr (.inr (.inr (.inr (.inr (.inr (.inl ⟨i0, i1, .inl rfl⟩))))))))))
  · exact .inl (.inr (.inl (.inr (.inr (.inr (.inr (.inr (.inr (.inr (.inl ⟨i0, i1, .inr (rfl)⟩))))))))))
  · exact absurd b (by decide)
  · exact .inl (.inl (.inr (.inl ⟨i0, rfl⟩)))
  · exact absurd b (by decide)
  · exact absurd b (by decide)
  · exact absurd b (by decide)
  · exact absurd b (by decide)
  · exact absurd b (by decide)
  · exact absurd b (by decide)
  · exact absurd b (by decide)
  · exact absurd b (by decide)
  · exact .inl (.inr (.inr (.inr (.inr (.inr (.inr (.inl ⟨i0, .inl rfl⟩)))))))
  · exact .inl (.inr (.inr (.inr (.inr (.inr (.inr (.inl ⟨i0, .inr (rfl)⟩)))))))
  · exact absurd b (by decide)
  · exact absurd b (by decide)
  · exact .inl (.inr (.inr (.inr (.inr (.inr (.inr (.inr (.inr (.inl ⟨i0, .inl rfl⟩)))))))))
  · exact .inl (.inr (.inr (.inr (.inr (.inr (.inr (.inr (.inr (.inl ⟨i0, .inr (.inl rfl)⟩)))))))))
  · exact .inl (.inr (.inr (.inr (.inr (.inr (.inr (.inr (.inr (.inl ⟨i0, .inr (.inr (.inl rfl))⟩)))))))))
  · exact .inl (.inr (.inr (.inr (.inr (.inr (.inr (.inr (.inr (.inl ⟨i0, .inr (.inr (.inr (.inl rfl)))⟩)))))))))
  · exact .inl (.inr (.inr (.inr (.inr (.inr (.inr (.inr (.inr (.inl ⟨i0, .inr (.inr (.inr (.inr (.inl rfl))))⟩)))))))))
  · exact .inl (.inr (.inr (.inr (.inr (.inr (.inr (.inr (.inr (.inl ⟨i0, .inr (.inr (.inr (.inr (.inr (.inl rfl)))))⟩)))))))))
  · exact .inl (.inr (.inr (.inr (.inr (.inr (.inr (.inr (.inr (.inl ⟨i0, .inr (.inr (.inr (.inr (.inr (.inr (rfl))))))⟩)))))))))
  · exact .inl (.inr (.inr (.inr (.inr (.inr (.inr (.inr (.inr (.inr (⟨i0, .inl rfl⟩))))))))))
  · exact .inl (.inr (.inr (.inr (.inr (.inr (.inr (.inr (.inr (.inr (⟨i0, .inr (.inl rfl)⟩))))))))))
  · exact .inl (.inr (.inr (.inr (.inr (.inr (.inr (.inr (.inr (.inr (⟨i0, .inr (.inr (.inl rfl))⟩))))))))))
  · exact .inl (.inr (.inr (.inr (.inr (.inr (.inr (.inr (.inr (.inr (⟨i0, .inr (.inr (.inr (.inl rfl)))⟩))))))))))
  · exact .inl (.inr (.inr (.inr (.inr (.inr (.inr (.inr (.inr (.inr (⟨i0, .inr (.inr (.inr (.inr (.inl rfl))))⟩))))))))))
  · exact .inl (.inr (.inr (.inr (.inr (.inr (.inr (.inr (.inr (.inr (⟨i0, .inr (.inr (.inr (.inr (.inr (.inl rfl)))))⟩))))))))))
  · exact .inl (.inr (.inr (.inr (.inr (.inr (.inr (.inr (.inr (.inr (⟨i0, .inr (.inr (.inr (.inr (.inr (.inr (.inl rfl))))))⟩))))))))))
  · exact .inr (.inr (.inr (.inr (.inr (.inr (.inr (⟨i0, rfl⟩)))))))
  · exact .inl (.inr (.inr (.inr (.inr (.inr (.inr (.inr (.inr (.inr (⟨i0, .inr (.inr (.inr (.inr (.inr (.inr (.inr (.inl rfl)))))))⟩))))))))))
  · exact absurd b (by decide)
  · exact .inl (.inr (.inr (.inr (.inr (.inr (.inr (.inr (.inr (.inr (⟨i0, .inr (.inr (.inr (.inr (.inr (.inr (.inr (.inr (.inl rfl))))))))⟩))))))))))
  · exact .inl (.inr (.inr (.inr (.inr (.inr (.inr (.inr (.inr (.inr (⟨i0, .inr (.inr (.inr (.inr (.inr (.inr (.inr (.inr (.inr (.inl rfl)))))))))⟩))))))))))
  · exact .inl (.inr (.inr (.inr (.inr (.inr (.inr (.inr (.inr (.inr (⟨i0, .inr (.inr (.inr (.inr (.inr (.inr (.inr (.inr (.inr (.inr (.inl rfl))))))))))⟩))))))))))
  · exact .inl (.inr (.inr (.inr (.inr (.inr (.inr (.inr (.inr (.inr (⟨i0, .inr (.inr (.inr (.inr (.inr (.inr (.inr (.inr (.inr (.inr (.inr (rfl)))))))))))⟩))))))))))
  · exact .inl (.inr (.inl (.inr (.inr (.inr (.inr (.inr (.inr (.inr (.inr (⟨i0, i1, .inl rfl⟩)))))))))))
  · exact .inl (.inr (.inl (.inr (.inr (.inr (.inr (.inr (.inr (.inr (.inr (⟨i0, i1, .inr (rfl)⟩)))))))))))
  · exact absurd b (by decide)
  · exact absurd b (by decide)
  · exact absurd b (by decide)
  · exact absurd b (by decide)
  · exact .inl (.inr (.inr (.inr (.inr (.inr (.inr (.inr (.inl ⟨i0, rfl⟩))))))))
  · exact .inl (.inl (.inl ⟨i0, .inl rfl⟩))
  · exact .inl (.inl (.inl ⟨i0, .inr (.inl rfl)⟩))
  · exact .inl (.inl (.inl ⟨i0, .inr (.inr (rfl))⟩))

theorem touch.fenceSame {m : Nat} {s t : State} (h : touch m s t) (e : m ||| 0x3c3f7fff9805ed9d0300063d93cf0c3006dfec17bffffc8710cf0 = 0x3c3f7fff9805ed9d0300063d93cf0c3006dfec17bffffc8710cf0) : fenceSame s t := by
  replace h := h.mono e
  exact ⟨State.eq_of (h.pending rfl) (h.chip rfl) rfl (h.cycles rfl) (h.adjust rfl) rfl rfl rfl rfl (h.fuses rfl) (h.sealed rfl) rfl rfl (h.dir rfl) (h.staged rfl) (h.loading rfl) (h.loadOrder rfl) rfl (h.slotWrite rfl) (h.nvsOp rfl) (h.cfg rfl) rfl rfl rfl (h.tow rfl) (h.ports rfl) (h.staging rfl) (h.stageHolder rfl) rfl (h.commits rfl) (h.fenceStart rfl) rfl rfl rfl rfl rfl rfl rfl rfl rfl rfl rfl rfl rfl rfl rfl rfl rfl rfl rfl rfl rfl (h.program rfl) rfl rfl rfl rfl (h.l1Exit rfl) rfl (h.gated rfl) (h.woken rfl) (h.devices rfl) (h.hidden rfl) (h.bindPu rfl) rfl rfl (h.deviceMps rfl) rfl rfl rfl rfl rfl rfl rfl rfl rfl (h.beyond64 rfl) rfl rfl (h.dpcSince rfl) rfl rfl (h.kickAt rfl) (h.hosts rfl) (h.bindSets rfl) (h.powerSamples rfl) (h.coolSince rfl) (h.batchNo rfl) (h.batchSize rfl) (h.shadow rfl) (h.stagedAt rfl) (h.bankWrite rfl) (h.keeperRun rfl) (h.secSizes rfl) (h.l0pPartners rfl) rfl rfl, fun a ha => h.rd a fun x => ha (touched_fenceSame x)⟩

end Sys2Proof.Machine
end

