-- ==== Sys2Proof/Laws/Steps.lean ====
section
/-! SUPPORT. What stands at the begin and the end of every command: a quiet state only loses its list of outputs, and the end of a command leaves all but
the shared registers, the store procedures and the staging of in-band masters alone. -/

namespace Sys2Proof.Machine

/-! ### The begin of a command -/

theorem settle_quiet {s : State} (ha : s.actions = []) (ho : s.outbox = []) : s.settle = s := by
  have hc : (s.actions.isEmpty && s.outbox.isEmpty) = true := by simp [ha, ho]
  unfold State.settle
  generalize List.range 8 = l
  induction l with
  | nil => rfl
  | cons x l ih => rw [List.foldl_cons, if_pos hc]; exact ih

theorem readTally_clean {s : State} (h : ∀ x ∈ s.ledgers, x.2.hurt = 0) : s.readTally = s := by
  have he : s.ledgers.filter (fun x => x.2.hurt ≠ 0) = [] := List.filter_eq_nil_iff.mpr fun x hx => by simp [h x hx]
  unfold State.readTally
  rw [if_pos (List.isEmpty_iff.mpr he)]

/-- On a quiet state a command begins with an empty list of outputs, and nothing else happens. -/
theorem beginStep_quiet {s : State} (h : s.quiet) : beginStep s = { s with out := [] } := by
  have ht : State.readTally { s with out := [] } = { s with out := [] } := readTally_clean h.2.2.1
  have hs : State.settle { s with out := [] } = { s with out := [] } := settle_quiet h.1 h.2.1
  rw [beginStep, ht, hs, h.2.2.2]

/-! ### The end of a command -/

/-- The end of a command leaves all but the shared registers, the store procedures and the staging of in-band masters alone. -/
theorem endSame_endStep (b s : State) : endSame s (endStep b s) := (endStep_touch b s).endSame rfl

@[simp] theorem endStep_rd (b s : State) {a : Nat} (h : ¬ shared a) : (endStep b s).rd a = s.rd a := (endSame_endStep b s).2 a h

@[simp] theorem endStep_get (b s : State) {f : FieldRef} (h : ¬ shared f.addr) : (endStep b s).get f = s.get f := by
  simp [State.get, endStep_rd b s h]
@[simp] theorem endStep_cycles (b s : State) : (endStep b s).cycles = s.cycles := by rw [(endSame_endStep b s).1]
@[simp] theorem endStep_adjust (b s : State) : (endStep b s).adjust = s.adjust := by rw [(endSame_endStep b s).1]
@[simp] theorem endStep_actions (b s : State) : (endStep b s).actions = s.actions := by rw [(endSame_endStep b s).1]
@[simp] theorem endStep_out (b s : State) : (endStep b s).out = s.out := by rw [(endSame_endStep b s).1]
@[simp] theorem endStep_outbox (b s : State) : (endStep b s).outbox = s.outbox := by rw [(endSame_endStep b s).1]
@[simp] theorem endStep_fuses (b s : State) : (endStep b s).fuses = s.fuses := by rw [(endSame_endStep b s).1]
@[simp] theorem endStep_sealed (b s : State) : (endStep b s).sealed = s.sealed := by rw [(endSame_endStep b s).1]
@[simp] theorem endStep_sealRequests (b s : State) : (endStep b s).sealRequests = s.sealRequests := by rw [(endSame_endStep b s).1]
@[simp] theorem endStep_nvs (b s : State) : (endStep b s).nvs = s.nvs := by rw [(endSame_endStep b s).1]
@[simp] theorem endStep_loading (b s : State) : (endStep b s).loading = s.loading := by rw [(endSame_endStep b s).1]
@[simp] theorem endStep_loadOrder (b s : State) : (endStep b s).loadOrder = s.loadOrder := by rw [(endSame_endStep b s).1]
@[simp] theorem endStep_reload (b s : State) : (endStep b s).reload = s.reload := by rw [(endSame_endStep b s).1]
@[simp] theorem endStep_cfg (b s : State) : (endStep b s).cfg = s.cfg := by rw [(endSame_endStep b s).1]
@[simp] theorem endStep_mr (b s : State) : (endStep b s).mr = s.mr := by rw [(endSame_endStep b s).1]
@[simp] theorem endStep_queues (b s : State) : (endStep b s).queues = s.queues := by rw [(endSame_endStep b s).1]
@[simp] theorem endStep_records (b s : State) : (endStep b s).records = s.records := by rw [(endSame_endStep b s).1]
@[simp] theorem endStep_tow (b s : State) : (endStep b s).tow = s.tow := by rw [(endSame_endStep b s).1]
@[simp] theorem endStep_ports (b s : State) : (endStep b s).ports = s.ports := by rw [(endSame_endStep b s).1]
@[simp] theorem endStep_live (b s : State) : (endStep b s).live = s.live := by rw [(endSame_endStep b s).1]
@[simp] theorem endStep_commits (b s : State) : (endStep b s).commits = s.commits := by rw [(endSame_endStep b s).1]
@[simp] theorem endStep_fenceStart (b s : State) : (endStep b s).fenceStart = s.fenceStart := by rw [(endSame_endStep b s).1]
@[simp] theorem endStep_crossings (b s : State) : (endStep b s).crossings = s.crossings := by rw [(endSame_endStep b s).1]
@[simp] theorem endStep_modes (b s : State) : (endStep b s).modes = s.modes := by rw [(endSame_endStep b s).1]
@[simp] theorem endStep_ledgers (b s : State) : (endStep b s).ledgers = s.ledgers := by rw [(endSame_endStep b s).1]
@[simp] theorem endStep_ingress (b s : State) : (endStep b s).ingress = s.ingress := by rw [(endSame_endStep b s).1]
@[simp] theorem endStep_waiting (b s : State) : (endStep b s).waiting = s.waiting := by rw [(endSame_endStep b s).1]
@[simp] theorem endStep_outstanding (b s : State) : (endStep b s).outstanding = s.outstanding := by rw [(endSame_endStep b s).1]
@[simp] theorem endStep_nextId (b s : State) : (endStep b s).nextId = s.nextId := by rw [(endSame_endStep b s).1]
@[simp] theorem endStep_device (b s : State) : (endStep b s).device = s.device := by rw [(endSame_endStep b s).1]
@[simp] theorem endStep_heldFailures (b s : State) : (endStep b s).heldFailures = s.heldFailures := by rw [(endSame_endStep b s).1]
@[simp] theorem endStep_streams (b s : State) : (endStep b s).streams = s.streams := by rw [(endSame_endStep b s).1]
@[simp] theorem endStep_flowLast (b s : State) : (endStep b s).flowLast = s.flowLast := by rw [(endSame_endStep b s).1]
@[simp] theorem endStep_writeLast (b s : State) : (endStep b s).writeLast = s.writeLast := by rw [(endSame_endStep b s).1]
@[simp] theorem endStep_lockWait (b s : State) : (endStep b s).lockWait = s.lockWait := by rw [(endSame_endStep b s).1]
@[simp] theorem endStep_portLocks (b s : State) : (endStep b s).portLocks = s.portLocks := by rw [(endSame_endStep b s).1]
@[simp] theorem endStep_planned (b s : State) : (endStep b s).planned = s.planned := by rw [(endSame_endStep b s).1]
@[simp] theorem endStep_bounds (b s : State) : (endStep b s).bounds = s.bounds := by rw [(endSame_endStep b s).1]
@[simp] theorem endStep_boundsSets (b s : State) : (endStep b s).boundsSets = s.boundsSets := by rw [(endSame_endStep b s).1]
@[simp] theorem endStep_postedCount (b s : State) : (endStep b s).postedCount = s.postedCount := by rw [(endSame_endStep b s).1]
@[simp] theorem endStep_requesters (b s : State) : (endStep b s).requesters = s.requesters := by rw [(endSame_endStep b s).1]
@[simp] theorem endStep_engines (b s : State) : (endStep b s).engines = s.engines := by rw [(endSame_endStep b s).1]
@[simp] theorem endStep_program (b s : State) : (endStep b s).program = s.program := by rw [(endSame_endStep b s).1]
@[simp] theorem endStep_dataMem (b s : State) : (endStep b s).dataMem = s.dataMem := by rw [(endSame_endStep b s).1]
@[simp] theorem endStep_links (b s : State) : (endStep b s).links = s.links := by rw [(endSame_endStep b s).1]
@[simp] theorem endStep_vlast (b s : State) : (endStep b s).vlast = s.vlast := by rw [(endSame_endStep b s).1]
@[simp] theorem endStep_ecc (b s : State) : (endStep b s).ecc = s.ecc := by rw [(endSame_endStep b s).1]
@[simp] theorem endStep_l1Exit (b s : State) : (endStep b s).l1Exit = s.l1Exit := by rw [(endSame_endStep b s).1]
@[simp] theorem endStep_announceDue (b s : State) : (endStep b s).announceDue = s.announceDue := by rw [(endSame_endStep b s).1]
@[simp] theorem endStep_gated (b s : State) : (endStep b s).gated = s.gated := by rw [(endSame_endStep b s).1]
@[simp] theorem endStep_woken (b s : State) : (endStep b s).woken = s.woken := by rw [(endSame_endStep b s).1]
@[simp] theorem endStep_devices (b s : State) : (endStep b s).devices = s.devices := by rw [(endSame_endStep b s).1]
@[simp] theorem endStep_hidden (b s : State) : (endStep b s).hidden = s.hidden := by rw [(endSame_endStep b s).1]
@[simp] theorem endStep_bindPu (b s : State) : (endStep b s).bindPu = s.bindPu := by rw [(endSame_endStep b s).1]
@[simp] theorem endStep_virt (b s : State) : (endStep b s).virt = s.virt := by rw [(endSame_endStep b s).1]
@[simp] theorem endStep_virtPorts (b s : State) : (endStep b s).virtPorts = s.virtPorts := by rw [(endSame_endStep b s).1]
@[simp] theorem endStep_deviceMps (b s : State) : (endStep b s).deviceMps = s.deviceMps := by rw [(endSame_endStep b s).1]
@[simp] theorem endStep_aer (b s : State) : (endStep b s).aer = s.aer := by rw [(endSame_endStep b s).1]
@[simp] theorem endStep_aerHeader (b s : State) : (endStep b s).aerHeader = s.aerHeader := by rw [(endSame_endStep b s).1]
@[simp] theorem endStep_intxLevel (b s : State) : (endStep b s).intxLevel = s.intxLevel := by rw [(endSame_endStep b s).1]
@[simp] theorem endStep_intxCount (b s : State) : (endStep b s).intxCount = s.intxCount := by rw [(endSame_endStep b s).1]
@[simp] theorem endStep_flr (b s : State) : (endStep b s).flr = s.flr := by rw [(endSame_endStep b s).1]
@[simp] theorem endStep_configJobs (b s : State) : (endStep b s).configJobs = s.configJobs := by rw [(endSame_endStep b s).1]
@[simp] theorem endStep_pmeOff (b s : State) : (endStep b s).pmeOff = s.pmeOff := by rw [(endSame_endStep b s).1]
@[simp] theorem endStep_rings (b s : State) : (endStep b s).rings = s.rings := by rw [(endSame_endStep b s).1]
@[simp] theorem endStep_beyond64 (b s : State) : (endStep b s).beyond64 = s.beyond64 := by rw [(endSame_endStep b s).1]
@[simp] theorem endStep_lanes (b s : State) : (endStep b s).lanes = s.lanes := by rw [(endSame_endStep b s).1]
@[simp] theorem endStep_time (b s : State) : (endStep b s).time = s.time := by rw [(endSame_endStep b s).1]
@[simp] theorem endStep_dpcSince (b s : State) : (endStep b s).dpcSince = s.dpcSince := by rw [(endSame_endStep b s).1]
@[simp] theorem endStep_doe (b s : State) : (endStep b s).doe = s.doe := by rw [(endSame_endStep b s).1]
@[simp] theorem endStep_doeOrder (b s : State) : (endStep b s).doeOrder = s.doeOrder := by rw [(endSame_endStep b s).1]
@[simp] theorem endStep_kickAt (b s : State) : (endStep b s).kickAt = s.kickAt := by rw [(endSame_endStep b s).1]
@[simp] theorem endStep_hosts (b s : State) : (endStep b s).hosts = s.hosts := by rw [(endSame_endStep b s).1]
@[simp] theorem endStep_bindSets (b s : State) : (endStep b s).bindSets = s.bindSets := by rw [(endSame_endStep b s).1]
@[simp] theorem endStep_powerSamples (b s : State) : (endStep b s).powerSamples = s.powerSamples := by rw [(endSame_endStep b s).1]
@[simp] theorem endStep_coolSince (b s : State) : (endStep b s).coolSince = s.coolSince := by rw [(endSame_endStep b s).1]
@[simp] theorem endStep_batchNo (b s : State) : (endStep b s).batchNo = s.batchNo := by rw [(endSame_endStep b s).1]
@[simp] theorem endStep_batchSize (b s : State) : (endStep b s).batchSize = s.batchSize := by rw [(endSame_endStep b s).1]
@[simp] theorem endStep_shadow (b s : State) : (endStep b s).shadow = s.shadow := by rw [(endSame_endStep b s).1]
@[simp] theorem endStep_stagedAt (b s : State) : (endStep b s).stagedAt = s.stagedAt := by rw [(endSame_endStep b s).1]
@[simp] theorem endStep_lockClass (b s : State) : (endStep b s).lockClass = s.lockClass := by rw [(endSame_endStep b s).1]
@[simp] theorem endStep_intxSent (b s : State) : (endStep b s).intxSent = s.intxSent := by rw [(endSame_endStep b s).1]
@[simp] theorem endStep_keeperRun (b s : State) : (endStep b s).keeperRun = s.keeperRun := by rw [(endSame_endStep b s).1]
@[simp] theorem endStep_secSizes (b s : State) : (endStep b s).secSizes = s.secSizes := by rw [(endSame_endStep b s).1]
@[simp] theorem endStep_l0pPartners (b s : State) : (endStep b s).l0pPartners = s.l0pPartners := by rw [(endSame_endStep b s).1]
@[simp] theorem endStep_pulses (b s : State) : (endStep b s).pulses = s.pulses := by rw [(endSame_endStep b s).1]

theorem identityWords_pending (s : State) : s.identityWords.pending = s.pending := by simp [State.identityWords]
theorem identityWords_chip (s : State) : s.identityWords.chip = s.chip := by simp [State.identityWords]

/-- The command leaves the queue as the step left it to be, and the part stays the part. -/
@[simp] theorem endStep_pending (b s : State) : (endStep b s).pending = b.pending := identityWords_pending _
@[simp] theorem endStep_chip (b s : State) : (endStep b s).chip = b.chip := identityWords_chip _

/-- A command whose effect is u completes so. -/
theorem completes_of {c : Instr} {s u : State} (h : exec c s = finish s u) : completes c s u :=
  ⟨_, h, endSame_endStep s u, endStep_pending s u⟩

theorem completesWithEvents_of {c : Instr} {s u v : State} {P : State → Prop} (h : exec c s = finish s v) (he : eventSame u v)
    (hp : ∀ t, endSame v t → P t) : completesWithEvents c s u P :=
  ⟨_, v, h, he, endSame_endStep s v, endStep_pending s v, hp _ (endSame_endStep s v)⟩

end Sys2Proof.Machine
end

