-- ==== Sys2Proof/Laws/Events.lean ====
section
/-! SUPPORT. What raising causes can do (R449 to R463), once for every command that raises one. -/

namespace Sys2Proof.Machine

theorem eventSame.refl (s : State) : eventSame s s := ⟨rfl, fun _ _ => rfl⟩

theorem eventSame.trans {s t u : State} (h1 : eventSame s t) (h2 : eventSame t u) : eventSame s u := by
  refine ⟨?_, fun a ha => (h2.2 a ha).trans (h1.2 a ha)⟩
  obtain ⟨h1, -⟩ := h1
  obtain ⟨h2, -⟩ := h2
  rw [h1] at h2
  exact h2

/-- Raising a cause changes what event registers, queues, records, reactions and formed packets hold. -/
theorem eventSame_raiseMask (s : State) (e m : Nat) (c : Cause) : eventSame s (s.raiseMask e m c) := (State.raiseMask_touch s e m c).eventSame rfl

theorem eventSame_raise (s : State) (e k : Nat) (c : Cause) : eventSame s (s.raise e k c) := (State.raise_touch s e k c).eventSame rfl

/-- Offering to a lossy queue changes queues, totals, and what a weir mark raises. -/
theorem eventSame_offer (s : State) (k : QueueId) (w : List Nat) : eventSame s (s.offer k w) := (State.offer_touch s k w).eventSame rfl

/-! ### A cause that is set stays set -/

/-- What an operation touches never clears a cause. -/
theorem touch.hasCause {m : Nat} {s t : State} (h : touch m s t) {e k : Nat} (he : e < 4608) (hc : s.hasCause e k) : t.hasCause e k := h.cause e he k hc

theorem set_cause_get (s : State) (e v : Nat) : (s.set (EVT_SRC_A.CAUSE e) v).get (EVT_SRC_A.CAUSE e) = v % 2 ^ 16 :=
  State.get_set_same s _ _ (show 48 + 16 ≤ 64 by decide)

theorem hasCause_set_ne {s : State} {e k : Nat} {f : FieldRef} (v : Nat) (h : f.addr ≠ eventBase e) (hc : s.hasCause e k) : (s.set f v).hasCause e k := by
  unfold State.hasCause
  rw [State.get_set_ne (g := EVT_SRC_A.CAUSE e) s v (Ne.symm h)]
  exact hc

theorem hasCause_tail {s : State} {e e' k n f l : Nat} (hc : s.hasCause e k) (b : Bool) :
    ((if b = true then (s.bumpBy (EVT_SRC_A.COUNT e') n).set (EVT_SRC_B.FIRST e') f else s.bumpBy (EVT_SRC_A.COUNT e') n).set (EVT_SRC_C.LAST e') l).hasCause e k := by
  have hm := eventBase_mod e
  have hm' := eventBase_mod e'
  have h1 : (s.bumpBy (EVT_SRC_A.COUNT e') n).hasCause e k := by
    unfold State.hasCause State.bumpBy
    rw [State.get_set_other (g := EVT_SRC_A.CAUSE e) s _ (Or.inr (show 0 + 32 ≤ 48 by decide))]
    exact hc
  have h2 : (if b = true then (s.bumpBy (EVT_SRC_A.COUNT e') n).set (EVT_SRC_B.FIRST e') f else s.bumpBy (EVT_SRC_A.COUNT e') n).hasCause e k := by
    split
    · exact hasCause_set_ne _ (by simp only [EVT_SRC_B.FIRST, EVT_SRC_B.addr]; omega) h1
    · exact h1
  exact hasCause_set_ne _ (by simp only [EVT_SRC_C.LAST, EVT_SRC_C.addr]; omega) h2

theorem setCauses_eq (s : State) (e m g : Nat) : s.setCauses e m g =
    (if decide (s.get (EVT_SRC_A.CAUSE e) = 0) = true then
      ((s.set (EVT_SRC_A.CAUSE e) (s.get (EVT_SRC_A.CAUSE e) ||| m)).bumpBy (EVT_SRC_A.COUNT e)
        ((List.range 16).filter fun i => m.testBit i && !g.testBit i).length).set (EVT_SRC_B.FIRST e) s.now
     else (s.set (EVT_SRC_A.CAUSE e) (s.get (EVT_SRC_A.CAUSE e) ||| m)).bumpBy (EVT_SRC_A.COUNT e)
        ((List.range 16).filter fun i => m.testBit i && !g.testBit i).length).set (EVT_SRC_C.LAST e) s.now := by
  unfold State.setCauses
  dsimp only
  by_cases h : s.get (EVT_SRC_A.CAUSE e) = 0 <;> simp only [h, decide_true, decide_false, if_true, if_false, Bool.false_eq_true] <;> rfl

/-- The causes of a set are set. -/
theorem hasCause_setCauses {s : State} {e k m g : Nat} (hk : k < 16) (hm : m.testBit k = true) : (s.setCauses e m g).hasCause e k := by
  rw [setCauses_eq]
  refine hasCause_tail ?_ _
  unfold State.hasCause
  rw [set_cause_get, Nat.testBit_mod_two_pow, Nat.testBit_or]
  simp [hk, hm]

theorem hasCause_receiveCauses {s : State} {e k m g : Nat} (c : Cause) (he : e < 4608) (hk : k < 16) (hm : m.testBit k = true) :
    (s.receiveCauses e m g c).hasCause e k := by
  unfold State.receiveCauses
  dsimp only
  split
  · exact hasCause_setCauses hk hm
  · exact (State.fire_touch ..).hasCause he (hasCause_setCauses hk hm)

/-- A cause that is raised is set. -/
theorem hasCause_raiseMask {s : State} {e k m : Nat} (c : Cause) (he : e < 4608) (hk : k < 16) (hm : m.testBit k = true) : (s.raiseMask e m c).hasCause e k := by
  have h0 : m ≠ 0 := by rintro rfl; simp at hm
  unfold State.raiseMask
  rw [if_neg h0]
  dsimp only
  split
  · exact hasCause_receiveCauses c he hk hm
  · exact (State.receiveCauses_touch ..).hasCause he ((touch.CL_XSTAT ..).hasCause he (hasCause_receiveCauses c he hk hm))

theorem hasCause_raise {s : State} {e k : Nat} (c : Cause) (he : e < 4608) (hk : k < 16) : (s.raise e k c).hasCause e k :=
  hasCause_raiseMask c he hk (by simp)

end Sys2Proof.Machine
end

