-- ==== Sys2Proof/Laws/Memory.lean ====
section
/-! SUPPORT. The byte memories (the store, the running structure, data memories): a read after a write, and the canonical form that every
write keeps. -/

namespace Sys2Proof.Machine

/-- A byte of a memory into which bytes were written: the byte written there, or what it was. -/
theorem byteAt_putBytes (t : Tab Byte) (a : Nat) (b : List Byte) (k : Nat) :
    byteAt (putBytes t a b) k = if a ≤ k ∧ k < a + b.length then b.getD (k - a) 0 else byteAt t k := by
  induction b generalizing t a with
  | nil => simp [putBytes]
  | cons x b ih =>
    simp only [putBytes, ih, List.length_cons]
    by_cases h : k = a
    · subst h
      simp [byteAt]
    · simp only [byteAt, tabGet_tabPut_ne _ _ _ h]
      by_cases h' : a + 1 ≤ k ∧ k < a + 1 + b.length
      · rw [if_pos h', if_pos ⟨by omega, by omega⟩, show k - a = k - (a + 1) + 1 by omega, List.getD_cons_succ]
      · rw [if_neg h', if_neg (by omega)]

/-- Writing bytes keeps the canonical form. -/
theorem putBytes_wf {t : Tab Byte} (a : Nat) (b : List Byte) (h : Memory.wf t = true) : Memory.wf (putBytes t a b) = true := by
  induction b generalizing t a with
  | nil => exact h
  | cons x b ih => exact ih (a + 1) (tabWf_tabPut a x h)

/-- The memories of the machine after reset have the canonical form. -/
theorem reset_memories_wf : Memory.wf State.reset.nvs = true ∧ Memory.wf State.reset.cfg = true ∧ Memory.wf State.reset.dataMem = true := by decide

end Sys2Proof.Machine
end

