-- ==== Sys2Proof/Laws/Queues.lean ====
section
/-! SUPPORT. The dual-clock queues of the crossings (R529, R530) and the words that an injection meets (R446, R478, R533): a word that goes through a
queue comes out as it went in, and leaves the queue empty. -/

namespace Sys2Proof.Machine

/-- Nothing is in the queue, as both sides see it. -/
def Crossing.drained (y : Crossing) (depth : Nat) : Prop := y.rptr = y.wptr ∧ y.wsync = y.wptr ∧ y.rsync = y.wptr ∧ y.wptr < 2 * depth

/-- The crossing is not in reset, and both its clocks run. -/
def Crossing.unblocked (y : Crossing) : Prop := y.crossReset = false ∧ y.nearStopped = false ∧ y.farStopped = false

/-- A queue that holds nothing shows level 0 on both sides. -/
theorem Crossing.drained_levels {y : Crossing} {depth : Nat} (h : y.drained depth) : y.produced depth = 0 ∧ y.consumed depth = 0 := by
  obtain ⟨hr, hw, hs, hlt⟩ := h
  simp [Crossing.produced, Crossing.consumed, hr, hw, hs]

/-- A queue that holds nothing and is open is not full and is empty. -/
theorem Crossing.drained_flags {y : Crossing} {depth : Nat} (h : y.drained depth) (o : y.unblocked) (d : 0 < depth) :
    y.full depth = false ∧ y.empty depth = true := by
  obtain ⟨hp, hc⟩ := Crossing.drained_levels h
  obtain ⟨o₁, o₂, o₃⟩ := o
  constructor
  · simp [Crossing.full, o₁, o₂, o₃, hp]; omega
  · simp [Crossing.empty, o₁, o₂, o₃, hc]

/-- The write pointer after a word, less the pointer before it, is 1 (R530). -/
theorem pointer_step {w depth : Nat} (h : w < 2 * depth) : ((w + 1) % (2 * depth) + 2 * depth - w) % (2 * depth) = 1 % (2 * depth) := by
  rcases Nat.lt_or_ge (w + 1) (2 * depth) with h' | h'
  · rw [Nat.mod_eq_of_lt h', show w + 1 + 2 * depth - w = 1 + 2 * depth by omega, Nat.add_mod_right]
  · have e : w + 1 = 2 * depth := by omega
    rw [e, Nat.mod_self, show 0 + 2 * depth - w = 1 by omega]

/-- A word that goes through an open queue that holds nothing comes out as it went in, and leaves the queue holding nothing. -/
theorem Crossing.through {y : Crossing} {depth : Nat} (w : Word) (h : y.drained depth) (o : y.unblocked) (d : 0 < depth) :
    let z := ((y.push depth w).sync).pop depth
    z.2 = (w, true) ∧ (z.1.sync).drained depth ∧ (z.1.sync).unblocked := by
  obtain ⟨hf, -⟩ := Crossing.drained_flags h o d
  obtain ⟨hr, hw, hs, hlt⟩ := h
  obtain ⟨o₁, o₂, o₃⟩ := o
  have one : ((y.wptr + 1) % (2 * depth) + 2 * depth - y.wptr) % (2 * depth) = 1 := by
    rw [pointer_step hlt, Nat.mod_eq_of_lt (by omega)]
  simp [Crossing.push, hf, Crossing.sync, Crossing.pop, Crossing.empty, Crossing.consumed, o₁, o₂, o₃, hr, one, tabGet_tabPut_same,
    Crossing.drained, Crossing.unblocked, Nat.mod_lt _ (show 0 < 2 * depth by omega)]

/-- Words that go through an open queue that holds nothing leave it holding nothing. -/
theorem Crossing.carry_drained {depth : Nat} (d : 0 < depth) : ∀ (ws : List Word) {y : Crossing}, y.drained depth → y.unblocked →
    (y.carry depth ws).drained depth ∧ (y.carry depth ws).unblocked
  | [], _, h, o => ⟨h, o⟩
  | w :: ws, _, h, o => by
    obtain ⟨-, h', o'⟩ := Crossing.through w h o d
    exact Crossing.carry_drained d ws h' o'

/-! ### Injected words (R478) -/

@[simp] theorem hurtOf_mode_zero (left head load : Nat) : hurtOf 0 left head load = 0 := by simp [hurtOf]
@[simp] theorem hurtOf_none_left (mode head load : Nat) : hurtOf mode 0 head load = 0 := by simp [hurtOf]

/-- An item that no armed injection meets is written as it is, and changes nothing. -/
theorem State.writeItem_unarmed {s : State} {d checker inst : Nat} (head load : Nat) (h : s.injectMode d checker inst = 0) :
    s.writeItem d checker inst head load = (s, 0) := by
  simp [State.writeItem, h]

/-- An injection that meets an item in its header makes the header uncorrectable in mode 0b10, and in mode 0b01 leaves a word to be corrected. -/
theorem hurtOf_header {left head load : Nat} (l : left ≠ 0) (h : head ≠ 0) : (hurtOf 2 left head load).testBit 1 = true ∧ hurtOf 1 left head load = 1 := by
  unfold hurtOf
  constructor
  · rcases Nat.lt_or_ge head left with g | g <;> by_cases k : load = 0 <;> simp [l, h, g, k, Nat.not_le.mpr, Nat.testBit]
  · simp [l, h]

end Sys2Proof.Machine
end

