-- ==== Sys2Proof/Tests/Slice0.lean ====
section
/-! SUPPORT. Tests: terms that WellFormed refuses, values that the spec states, and for every statement concrete states and operands that meet its
hypotheses together (theorems witness_…, one for a statement or for each group of its clauses). -/

namespace Sys2Proof.Tests
open Sys2Proof.Machine

-- one theorem after another: each kernel evaluation has the memory to itself
set_option Elab.async false

/-! ### States -/

/-- A field of the running structure. -/
def putSec (s : State) (key o n v : Nat) : State := { s with cfg := putBytes s.cfg (key + o) (leBytes n v) }

/-- M6, four healthy dies, the link of CP0 up. -/
def run6 : State := ((State.reset.set PKG_MODE.MODE 6).set PKG_LEAD.DIE_HEALTHY 15).setFlag (PKG_CP_STATE.LINK_UP 0) true

/-- A port with personality, width code and first lane. -/
def port (s : State) (p pers width lane : Nat) : State :=
  let k := portSec (p / 4)
  let o := 256 * (p % 4)
  putSec (putSec (putSec (putSec s k o 1 1) k (o + 1) 1 pers) k (o + 2) 1 width) k (o + 3) 1 lane

/-- BF port 0, PU port 4 and PD port 8, each of eight lanes. -/
def three : State := port (port (port run6 0 1 3 0) 4 2 3 0) 8 3 3 0

/-- Partition 5 at PU port 4 with all of PD port 8. -/
def parts (s : State) : State :=
  let s := putSec (putSec s partSec 0 4 1) partSec 4 4 1
  let s := putSec (putSec s partSec 16 2 5) partSec 18 2 4
  putSec (putSec (putSec s partSec 32 2 5) partSec 35 1 1) partSec 36 2 8

/-- A window. -/
def win (s : State) (n base limit remote attr : Nat) : State :=
  (((s.wr (WIN_BASE.addr n) (BitVec.ofNat 64 base)).wr (WIN_LIMIT.addr n) (BitVec.ofNat 64 limit)).wr (WIN_REMOTE.addr n) (BitVec.ofNat 64 remote)).wr (WIN_ATTR.addr n) (BitVec.ofNat 64 attr)

/-- A PCI Express link in L0. -/
def linkUp (s : State) (p : Nat) : State := ((s.set (PORT_PCIE.DL_ACTIVE p) 1).set (PORT_PCIE.LINK_STATE p) 3).set (PORT_PCIE.WIDTH p) 8

/-- The three ports in service, the partition, a device behind port 8, and window 1,024 to it. -/
def full : State :=
  let s := linkUp (linkUp (parts three) 4) 8
  let s := { s with devices := tabPut (fun _ => {}) s.devices 8 { functions := [{ pf := 0 }] } }
  let s := s.virtPut 4 1 1 6
  win (s.set (PORT_LINK.LL_STATE 0) 2) 1024 0x10000 0x1FFFF 0x50000 (2 ^ 63 + 8 * 2 ^ 43 + 5 * 2 ^ 33)

/-- PD port 8 runs at rate code 5 and full width, and its bounds are still to be published. -/
def rated : State := ((putSec full (laneSec 2) 1 1 5).set (PORT_PCIE.RATE 8) 5).set (PORT_PCIE.ACTIVE_WIDTH 8) 16

/-- Entry 0 of the Toll Table of die d permits every access of a target to everyone: 0xFFFE is the control space, 0xFFFF every fabric ID. -/
def permitAll (s : State) (d target : Nat) : State :=
  ((s.wr (TOLL.addr d 0 1) (2 ^ 52)).wr (TOLL.addr d 0 2) (BitVec.ofNat 64 target)).wr (TOLL.addr d 0 3) (BitVec.ofNat 64 (2 ^ 48 + 0x7F * 2 ^ 32 + 0xFFFF * 2 ^ 16))

/-- Control port 0, which is privileged. -/
def cp0 : Master := .cp 0

/-! ### Terms that WellFormed refuses -/

/-- No instruction of a list is well formed. -/
def refused (l : List Instr) : Bool := l.all fun i => !i.wellFormed

theorem test_illformed_1 : refused [
    .resetBRelease { cpSa := 4 }, .resetBRelease { refSel := 256 }, .supplyOutOfRange 26, .dieSelfTestDone 16 0 0, .dieSelfTestDone 0 16 0, .dieSelfTestDone 0 0 256,
    .keeperWatchdogExpiry 8 false, .watchdogKick 8, .sbsStageWrite (.cp 2) 0 0, .sbsStageWrite .lead 4096 0, .sbsStageWrite .lead 4 0, .loadStagedImage (.cp 2),
    .writeStagedToSlot (.cp 2) 1, .writeStagedToSlot .lead 0, .writeStagedToSlot .lead 3, .startPartialReload (.cp 2) 0 0, .startPartialReload .lead 16 0,
    .startPartialReload .lead 0 3, .discardStagedImage (.cp 2), .bootSelWrite (.cp 2) 0, .bootSelWrite .lead 4, .sealCommit (.cp 2) 0, .sealCommit .lead 65536,
    .fecCodewordReceive 512 (List.replicate 544 0), .fecCodewordReceive 0 [], .blockLockAcquired 512 false, .blockLockLost 512, .slotSend 256, .trainBlockReceive 512 0,
    .trainStateAdvance 512 0, .trainStateAdvance 0 256, .trainingTimeout 512, .equaliseTimeout 256, .adapterCheckpoint 512 0 0, .adapterCheckpoint 0 0 256,
    .adapterIdleFreeze 512, .driftWatchdogFire 512 0, .driftWatchdogFire 0 256, .eyeContourComplete 512 [], .eyeTargetWrite (.cp 2) 0 6] = true := by decide +kernel

theorem test_illformed_2 : refused [
    .eyeTargetWrite .lead 512 6, .eyeTargetWrite .lead 0 5, .eyeTargetWrite .lead 0 10, .dozeIdleExpiry 256, .txDozeEntry 256, .dozeBlockReceive 512, .txWakeActive 256,
    .rxEnergyDetect 512, .wakePreambleEnd 256, .lanePowerUp 256, .lanemapReceive 256 0, .lanemapRepeat 256, .maskSwitch 256, .pcieLaneLoss 256 0, .pcieLaneLoss 0 17,
    .initFlitReceive 256 (List.replicate 40 0), .initFlitReceive 0 [], .flitReceive 256 (List.replicate 40 0) false, .flitReceive 0 [] false, .nakRetryTimeout 256,
    .replayTimerExpiry 256, .linkReturnTimeout 256, .tallySend 256, .tallyReceive 256 (List.replicate 40 0), .tallyReceive 0 [], .tallyLate 256, .tallyMissing 256,
    .bfPacketArrival 256, .writeLossEventReceive 256 {}, .writeLossEventReceive 0 { ptype := 16 }, .announceReceive 256 0, .syncReceive 256 0, .dreqReceive 256 0,
    .drespReceive 256 0, .pdLinkUp 256 {}, .tagPoolResize 256, .pdLinkDown 256, .puLinkUp 256 0 0 .off [], .puLinkUp 0 0 8 .off [], .puLinkDown 256] = true := by decide +kernel

theorem test_illformed_3 : refused [
    .puHotReset 256, .pmeTurnOff 256, .pmeToAck 256, .configRequest 256 {}, .configRequest 0 { firstBe := 16 }, .secondaryBusReset 256 0, .secondaryBusReset 0 32,
    .flrWrite 256 0 0, .flrWrite 0 32 0, .flrWrite 0 0 256, .flrComplete 256 0, .flrComplete 0 65536, .vdspDpcTrigger 256 0, .vdspDpcTrigger 0 32, .dpcStatusClear 256 0,
    .dpcStatusClear 0 32, .dpcTriggerWrite (.cp 2) 0, .dpcTriggerWrite .lead 256, .dpcReleaseWrite (.cp 2) 0, .dpcReleaseWrite .lead 256, .dpcTimedRelease 256,
    .errorMessageReceive 256 0 0, .errorMessageReceive 0 3 0, .errorMessageReceive 0 0 256, .errMsgEventReceive 256 {}, .errMsgEventReceive 0 { ptype := 16 },
    .doeObjectWrite 258 [], .doeAbort 258, .getVersion 258 [], .getCapabilities 258 [], .negotiateAlgorithms 258 [], .getDigests 258 [], .getCertificate 258 [],
    .challenge 258 [], .getMeasurements 258 [], .requestReceive 256 {}, .requestReceive 0 { firstBe := 16 }, .prefetchExpiry 64 0, .prefetchExpiry 0 64,
    .burekCompletionReceive 256 {}] = true := by decide +kernel

theorem test_illformed_4 : refused [
    .burekCompletionReceive 0 { ptype := 16 }, .lockGrantReceive { ptype := 16 }, .lockBusyReceive { ptype := 16 }, .escalatedClear (.cp 2) 0, .escalatedClear .lead 65536,
    .msixEventReceive 256 {}, .msixEventReceive 0 { ptype := 16 }, .intxMessageReceive 256 0 false 0, .intxMessageReceive 0 4 false 0, .intxMessageReceive 0 0 false 256,
    .intxEventReceive 256 {}, .intxEventReceive 0 { ptype := 16 }, .vendorMessageReceive 256 {}, .vendorMessageReceive 0 { firstBe := 16 }, .deviceCompletionReceive 256 {},
    .deviceCompletionReceive 0 { firstBe := 16 }, .pdTlpAcknowledged 256 0, .pdTlpAcknowledged 0 16384, .mrdlkReceive 256 {}, .mrdlkReceive 0 { firstBe := 16 },
    .lockPacketReceive 256 {}, .lockPacketReceive 0 { ptype := 16 }, .unlockMessageReceive 256, .unlockPacketReceive 256 {}, .unlockPacketReceive 0 { ptype := 16 },
    .lockHoldExpiry 256, .configPacketReceive 256 {}, .configPacketReceive 0 { ptype := 16 }, .configRetryTimer 256, .configRetryTimeout 256, .portLockWrite (.cp 2) 0 0,
    .portLockWrite .lead 256 0, .requestAdmit 1536 0, .requestAdmit 0 16, .transitLateAdmit 256 0, .transitLateAdmit 0 16, .surrogateExpiry 1536 0,
    .tagQuarantineExpiry 256 0, .tagQuarantineExpiry 0 16384, .pdCompletionTimeout 256 0] = true := by decide +kernel

theorem test_illformed_5 : refused [
    .pdCompletionTimeout 0 16384, .farSurrogateExpiry 256 0, .farSurrogateExpiry 0 16384, .boundsReceive 256 {}, .boundsReceive 0 { ptype := 16 }, .cbookLowerApply 256,
    .ledgerBreach 68 0 0 false, .ledgerBreach 0 256 0 false, .d2dTallyExchange 6 0 0, .d2dInterfaceFail 6, .d2dInterfaceReturn 6, .tallySelectWrite (.cp 2) false 0 0,
    .tallySelectWrite .lead false 64 0, .tallySelectWrite .lead false 0 256, .faultRecordClose 513, .faultRecordClose 64, .popWindowRead ⟨.cp 2, .whole⟩ (.fault 0),
    .popWindowRead ⟨.lead, .whole⟩ (.fault 4), .portContainTrigger (.cp 2) 0, .portContainTrigger .lead 256, .portContainRelease (.cp 2) 0, .portContainRelease .lead 256,
    .windowContainTrigger (.cp 2) 0, .windowContainTrigger .lead 65536, .windowContainRelease (.cp 2) 0, .windowContainRelease .lead 65536, .clusterFenceRelease (.cp 2) 0,
    .clusterReset (.cp 2) 0, .clusterReset .lead 64, .regionReset (.cp 2) 0, .regionReset .lead 16, .eventRingWrite 256, .eventRingHeadWrite 256 0,
    .eventRingHeadWrite 0 65536, .eventRingDisable 256, .injectGo (.cp 2) 0 0, .injectGo .lead 5 0, .injectAbort (.cp 2) 0 0, .injectAbort .lead 5 0,
    .tollStageWrite (.cp 2) 0 0 0 0, .popWindowRead ⟨.lead, .other⟩ (.fault 0)] = true := by decide +kernel

theorem test_illformed_6 : refused [
    .tollStageWrite .lead 4 0 0 0, .tollStageWrite .lead 0 16384 0 0, .tollStageWrite .lead 0 0 3 0, .tollCommit (.cp 2) 0 0 0, .tollCommit .lead 4 0 0,
    .tollCommit .lead 0 16384 0, .tollCommitRelease 4, .tollStagingTimeout 4, .fenceGo (.cp 2), .violationRecordRead ⟨.cp 2, .whole⟩ 0, .violationRecordRead ⟨.lead, .whole⟩ 4,
    .crossingRelease 2052, .clockReturn 2052 false, .i3cWriteAccess 2 [], .i3cReadSetup 2 [], .i3cReadResult 2 false, .i3cRstact 2 false, .i3cRstdaa 2, .i3cEntdaa 2 0,
    .i3cEntdaa 0 128, .i3cSetdasa 2 0 0, .i3cSetdasa 0 128 0, .i3cSetdasa 0 0 128, .i3cGetpid 2, .i3cGetbcr 2, .i3cGetdcr 2, .i3cGetstatus 2, .cpEventNotify 2,
    .cpLinkDown 2, .cpPerstAssert 2, .semaphoreRead ⟨.cp 2, .whole⟩ 0, .semaphoreRead ⟨.lead, .whole⟩ 64, .semaphoreWrite (.cp 2) 0 0, .semaphoreWrite .lead 64 0, .towpathTimeout 64,
    .ibaCsRead 2 0 0 0, .ibaCsRead 0 64 0 0, .ibaCsRead 0 0 3 0, .ibaCsRead 0 0 0 (2 ^ 30), .ibaCsRead 0 0 0 4, .semaphoreRead ⟨.lead, .other⟩ 0,
    .violationRecordRead ⟨.lead, .other⟩ 0] = true := by decide +kernel

theorem test_illformed_7 : refused [
    .ibaCsWrite 2 0 0 0, .ibaCsWrite 0 64 0 0, .ibaCsWrite 0 0 3 0, .ibaCsWrite 0 0 0 (2 ^ 30), .ibaCsWrite 0 0 0 4, .ibaResponseReceive { ptype := 16 }, .ibaTimeout 2,
    .csReadReceive 256 {}, .csReadReceive 0 { ptype := 16 }, .csWriteReceive 256 {}, .csWriteReceive 0 { ptype := 16 }, .noticeReceive { ptype := 16 }, .reconcilePass 4 [],
    .reconAdopt (.cp 2) 0 0 0 false, .reconAdopt .lead 4 0 0 false, .reconAdopt .lead 0 16 0 false, .reconAdopt .lead 0 0 (2 ^ 24) false, .reconForce (.cp 2) 0 0 0,
    .reconForce .lead 4 0 0, .reconForce .lead 0 16 0, .reconForce .lead 0 0 (2 ^ 24), .claimReceive 256 {}, .claimReceive 0 { ptype := 16 }, .bindReceive 256 {},
    .bindReceive 0 { ptype := 16 }, .modeDrain (.cp 2), .modeResume (.cp 2), .modeMaint (.cp 2), .modeReset (.cp 2) 0, .modeReset .lead 256, .measurementExtend (.cp 2),
    .measurementSelect (.cp 2) 0, .measurementSelect .lead 8, .powerSample 4 0 [], .powerSample 0 65536 [], .portWake (.cp 2) 0, .portWake .lead 256, .gatherGo (.cp 2) 0 0,
    .gatherGo .lead 4 0, .gatherComplete 4] = true := by decide +kernel

theorem test_illformed_8 : refused [
    .countersAllOn (.cp 2) 0, .countersAllOn .lead 64, .countersAllOff (.cp 2) 0, .countersAllOff .lead 64, .chainedCounterRead ⟨.cp 2, .whole⟩ false 0 0,
    .chainedCounterRead ⟨.lead, .whole⟩ false 64 0, .chainedCounterRead ⟨.lead, .whole⟩ false 0 32, .nvsBlockRead (.cp 2) 0, .nvsBlockRead .lead (2 ^ 21), .nvsBlockWrite (.cp 2) 0,
    .nvsBlockWrite .lead (2 ^ 21), .registerWrite ⟨.cp 2, .whole⟩ 0 0, .registerWrite ⟨.lead, .whole⟩ (2 ^ 30) 0, .registerWrite ⟨.lead, .whole⟩ 4 0, .engineItemArrival 512 { kind := 0 },
    .engineItemArrival 0 { kind := 16 }, .engineTimerExpiry 512, .handlerWatchdog 512, .illegalInstruction 512, .programWordUncorrectable 512, .wait 512, .li 512 0 0,
    .li 0 16 0, .lix 512 0 0, .lix 0 16 0, .add 512 0 0 0, .add 0 16 0 0, .add 0 0 16 0, .add 0 0 0 16, .sub 512 0 0 0, .sub 0 16 0 0, .sub 0 0 16 0, .sub 0 0 0 16,
    .and 512 0 0 0, .and 0 16 0 0, .and 0 0 16 0, .and 0 0 0 16, .or 512 0 0 0, .or 0 16 0 0, .or 0 0 16 0,
    .chainedCounterRead ⟨.lead, .other⟩ false 0 0, .registerWrite ⟨.lead, .other⟩ 0 0] = true := by decide +kernel

theorem test_illformed_9 : refused [
    .or 0 0 0 16, .xor 512 0 0 0, .xor 0 16 0 0, .xor 0 0 16 0, .xor 0 0 0 16, .shl 512 0 0 0, .shl 0 16 0 0, .shl 0 0 16 0, .shl 0 0 0 16, .shr 512 0 0 0, .shr 0 16 0 0,
    .shr 0 0 16 0, .shr 0 0 0 16, .addi 512 0 0 0, .addi 0 16 0 0, .addi 0 0 16 0, .andi 512 0 0 0, .andi 0 16 0 0, .andi 0 0 16 0, .shli 512 0 0 0, .shli 0 16 0 0,
    .shli 0 0 16 0, .shri 512 0 0 0, .shri 0 16 0 0, .shri 0 0 16 0, .swap 512 0 0 0, .swap 0 16 0 0, .swap 0 0 16 0, .ld8 512 0 0 0, .ld8 0 16 0 0, .ld8 0 0 16 0,
    .ld16 512 0 0 0, .ld16 0 16 0 0, .ld16 0 0 16 0, .ld32 512 0 0 0, .ld32 0 16 0 0, .ld32 0 0 16 0, .ld64 512 0 0 0, .ld64 0 16 0 0, .ld64 0 0 16 0] = true := by decide +kernel

theorem test_illformed_10 : refused [
    .st8 512 0 0 0, .st8 0 16 0 0, .st8 0 0 16 0, .st16 512 0 0 0, .st16 0 16 0 0, .st16 0 0 16 0, .st32 512 0 0 0, .st32 0 16 0 0, .st32 0 0 16 0, .st64 512 0 0 0,
    .st64 0 16 0 0, .st64 0 0 16 0, .beq 512 0 0 0, .beq 0 16 0 0, .beq 0 0 16 0, .bne 512 0 0 0, .bne 0 16 0 0, .bne 0 0 16 0, .bltu 512 0 0 0, .bltu 0 16 0 0,
    .bltu 0 0 16 0, .bgeu 512 0 0 0, .bgeu 0 16 0 0, .bgeu 0 0 16 0, .jmp 512 0, .call 512 0, .jr 512 0, .jr 0 16, .send 512 0, .send 0 16, .issue 512 0, .issue 0 16,
    .reply 512 0 0, .reply 0 16 0, .reply 0 0 16, .time 512 0, .time 0 16, .timer 512 0, .timer 0 16, .amoFetchadd 512 0 0 0] = true := by decide +kernel

theorem test_illformed_11 : refused [
    .amoFetchadd 0 16 0 0, .amoFetchadd 0 0 16 0, .amoFetchadd 0 0 0 16, .amoSwap 512 0 0 0, .amoSwap 0 16 0 0, .amoSwap 0 0 16 0, .amoSwap 0 0 0 16, .amoCas 512 0 0 0,
    .amoCas 0 16 0 0, .amoCas 0 0 16 0, .amoCas 0 0 0 16, .raise 512, .referenceClockLoss 16, .referenceClockReturn 16, .regionFenceDrainEnd 16,
    .flowControlUpdate 256 0 0 0, .flowControlUpdate 0 3 0 0, .pcieRecovery 256 0 0, .pcieRecovery 0 0 8, .aspmL1Entry 256, .aspmL1Exit 256, .cpLinkUp 2,
    .basinPartitionFull 4 0, .basinPartitionFull 0 16, .timeBaseOutOfStep false 4] = true := by decide +kernel

/-- Masters, items and packets whose fields do not fit. -/
theorem test_illformed_parts : ([Master.cp 2, .keeper 8, .inband 65536 false].all fun m => !m.wellFormed) = true ∧
    ([PopWindow.fault 4, .bittern 4, .surrogate 4, .keepers 4, .telemetry 4, .partition 256, .controlPort 2].all fun w => !w.wellFormed) = true ∧
    ([{ kind := 16 }, { kind := 0, port := 65536 }, { kind := 0, requester := 65536 }, { kind := 0, ctx := 65536 }, { kind := 0, header := List.replicate 33 0 },
      { kind := 0, payload := List.replicate 257 0 }].all fun i : EngineItem => !i.wellFormed) = true ∧
    ([{ ptype := 16 }, { vc := 4 }, { cls := 3 }, { dest := 65536 }, { src := 65536 }, { tag := 16384 }, { reqFn := 256 }, { len := 8192 }, { status := 8 }, { window := 65536 }, { sub := 256 },
      { fbe := 256 }, { lbe := 256 }, { addr := 2 ^ 64 }, { partition := 1024 }, { hops := 16 }, { deadline := 2 ^ 48 }, { payload := List.replicate 4097 0 }].all
        fun k : Packet => !k.wellFormed) = true ∧
    ([{ addr := 2 ^ 64 }, { len := 4097 }, { firstBe := 16 }, { lastBe := 16 }, { reqId := 65536 }, { tag := 16384 }, { tc := 8 }, { target := 65536 }, { data := List.replicate 4097 0 }].all
        fun t : Tlp => !t.wellFormed) = true := by
  (repeat' apply And.intro) <;> decide +kernel

/-- The same commands with operands in range are well formed. -/
theorem test_wellformed : ([.modeDrain (.cp 1), .watchdogKick 7, .eyeTargetWrite .lead 511 9, .sbsStageWrite (.keeper 7) 4088 0, .faultRecordClose 512, .requestAdmit 1535 15,
    .ibaCsRead 1 63 2 1073741816, .li 511 15 0, .packetPlace 99999, .fecCodewordReceive 511 (List.replicate 544 0), .timeBaseOutOfStep true 63] : List Instr).all (·.wellFormed) = true := by
  decide +kernel

/-! ### Hypotheses of the statements of chapters 10 and 11 -/

theorem witness_PortContainment : full.writable cp0 (PORT_CONTAIN.addr 0) ∧ full.get (PORT_CONTAIN.CONTAINED 0) = 0 ∧ full.isBf 0 = true ∧
    (full.set (PORT_CONTAIN.CONTAINED 0) 1).writable cp0 (PORT_CONTAIN.addr 0) ∧ (full.set (PORT_CONTAIN.CONTAINED 0) 1).get (PORT_CONTAIN.CONTAINED 0) = 1 ∧
    (full.set (PORT_CONTAIN.CONTAINED 0) 1).portDark 0 = false := by
  unfold State.writable State.quiet; (repeat' apply And.intro) <;> decide +kernel

/-- PD port 8 contained, with a release after 1 ms. -/
def contained8 : State := putSec (full.set (PORT_DPC.CONTAINED 8) 1) (portSec 2) 68 2 1

theorem witness_DpcContainment : full.quiet ∧ full.isPd 8 = true ∧ full.writable cp0 (PORT_DPC.addr 8) ∧ full.get (PORT_DPC.CONTAINED 8) = 0 ∧
    contained8.quiet ∧ contained8.isPd 8 = true ∧ contained8.writable cp0 (PORT_DPC.addr 8) ∧ contained8.get (PORT_DPC.CONTAINED 8) = 1 ∧
    contained8.portRec 8 68 2 ≠ 0 := by
  unfold State.writable State.quiet; (repeat' apply And.intro) <;> decide +kernel

/-- Window 1,024 contained and escalated. -/
def windowHeld : State := (full.setBit (CL_WCON_MAP.CONTAINED 1 0) 0 true).set (WIN_STATE.ESCALATED 1024) 1

theorem witness_WindowContainment : full.writable cp0 (CL_WCON_CTL.addr 1) ∧ full.windowContained 1024 = false ∧ full.writable cp0 (WIN_STATE.addr 1024) ∧
    full.get (WIN_STATE.ESCALATED 1024) = 0 ∧ windowHeld.writable cp0 (CL_WCON_CTL.addr 1) ∧ windowHeld.windowContained 1024 = true ∧
    windowHeld.writable cp0 (WIN_STATE.addr 1024) ∧ windowHeld.get (WIN_STATE.ESCALATED 1024) = 1 := by
  unfold State.writable State.quiet; (repeat' apply And.intro) <;> decide +kernel

theorem witness_ScopeResets : full.writable cp0 PKG_SCOPE_RESET.addr ∧ full.privileged cp0 = true ∧ cp0 ≠ .lead ∧ 4 ≤ full.mode ∧ full.mode ≤ 10 ∧ 63 < full.numClusters ∧
    full.clusterHeld 63 = false ∧ 15 < full.numRegions ∧ full.regionFenced 15 = false ∧ full.reload = none ∧ full.writable cp0 PKG_FENCE_CL.addr ∧
    (full.set PKG_MODE.MODE 3).writable cp0 PKG_SCOPE_RESET.addr ∧ ¬ 4 ≤ (full.set PKG_MODE.MODE 3).mode := by
  unfold State.writable State.quiet; (repeat' apply And.intro) <;> decide +kernel

/-- An injection word: N 2, checker 0x01, instance 3, MODE 1, GO. -/
def injectWord : Word := 0x0002010003000041

theorem witness_InjectionAndRecords_inject : full.writable cp0 (injectAddr 0) ∧ full.writable cp0 (injectAddr 4) ∧ injectWord.getLsbD 1 = false ∧
    getBits (full.rd (injectAddr 0)) 8 16 = 0 ∧ getBits injectWord 6 2 ≠ 0 ∧ full.checkerKnown (some 0) (getBits injectWord 40 8) (getBits injectWord 24 16) = true ∧
    getBits (injectWord + 0x40) 6 2 = 2 ∧ full.mode ≠ 10 ∧ (injectWord + 2).getLsbD 1 = true ∧ getBits (injectWord - 0x40) 6 2 = 0 := by
  unfold State.writable State.quiet; (repeat' apply And.intro) <;> decide +kernel

/-- An open record of scope 5 whose reaction fences. -/
def openRec : OpenRecord :=
  { scope := 5, source := 325, cause := 1, react := 16, route := 0, mergeCount := 0, mergeMap := 2, opened := 48, detail := List.replicate 16 0, epoch := 0, injected := false, owners := [], dests := [], word0 := 0 }

theorem witness_InjectionAndRecords_record : let s := { full with records := [openRec] }
    s.quiet ∧ s.openRecord 5 = some openRec ∧ s.openRecord 6 = none ∧ openRec.detail.length = 16 ∧ openRec.opened < 2 ^ 64 ∧
    (s.queue (QueueId.fault (s.sourceDie openRec.source))).items.length < 1024 := by
  unfold State.quiet; (repeat' apply And.intro) <;> decide +kernel

/-- The ring of PU port 4 enabled, an event in its partition's queue and one in that of CP0. -/
def ringed : State :=
  let s := { full with queues := [] }
  let s := (s.setQueue (.partition 4) { items := [.entry [1, 2, 3, 4]] }).setQueue (.controlPort 0) { items := [.entry [1, 2, 3, 4]] }
  { s with rings := [(4, { base := 0x1000, enable := true })] }

theorem witness_QueuesForSoftware : full.readable cp0 ((PopWindow.fault 3).word 0) ∧ 3 < full.numDies ∧ (full.queue (PopWindow.fault 3).queue).items = [] ∧
    full.readable cp0 ((PopWindow.partition 4).word 0) ∧ 4 < full.numPorts ∧ full.isPu 4 = true ∧
    ringed.readable cp0 ((PopWindow.controlPort 0).word 0) ∧ (ringed.queue (PopWindow.controlPort 0).queue).items ≠ [] ∧
    ringed.quiet ∧ (ringed.queue (.partition 4)).items ≠ [] ∧ (ringed.ring 4).enable = true ∧ ringed.get (PORT_PCIE.LINK_STATE 4) = 3 ∧
    ringed.get (PORT_CONTAIN.CONTAINED 4) = 0 ∧ ringed.gateOpen 4 = true ∧ ((ringed.ring 4).tail + 1) % 64 ≠ (ringed.ring 4).head % 64 ∧
    (full.ring 4).enable = false ∧ (ringed.cport 0).notified = none ∧ (full.queue (.controlPort 0)).items = [] := by
  unfold State.readable State.quiet; (repeat' apply And.intro) <;> decide +kernel

/-- In-band master 0x0409 holds the shared staging buffer of die 0. -/
def staging0 : State := { permitAll full 0 0xFFFE with stageHolder := [(0, 0x40A)] }

theorem witness_StagedWords : full.writable cp0 (TOLL.addr 3 16383 2) ∧ (permitAll full 0 0xFFFE).writable (.inband 0x409 true) (TOLL.addr 0 0 0) ∧ full.stageHeldBy 0 = 0 ∧
    staging0.writable (.inband 0x409 true) (TOLL.addr 0 0 0) ∧ staging0.stageHeldBy 0 = 0x409 + 1 ∧
    staging0.writable (.inband 0x408 true) (TOLL.addr 0 0 0) ∧ staging0.stageHeldBy 0 ≠ 0x408 + 1 ∧ staging0.stageHeldBy 0 ≠ 0 ∧ staging0.quiet := by
  unfold State.writable State.quiet; (repeat' apply And.intro) <;> decide +kernel

/-- Entry 7 of die 0 waits for an access of the next epoch. -/
def tollWait : State := { full with commits := [{ die := 0, entry := 7, words := [0, 0, 0, 0] }], live := [(1, 1)] }

theorem witness_TollCommits : full.writable cp0 (TOLL.addr 3 16383 3) ∧ full.liveAt 3 ((full.epoch 3 + 1) % 256) = 0 ∧ full.commits = [] ∧
    (full.tollWord 3 16383 3).getLsbD 49 = false ∧ (0 : Word).getLsbD 48 = false ∧ ¬ full.mode < 4 ∧
    tollWait.writable cp0 (TOLL.addr 0 7 3) ∧ tollWait.liveAt 0 ((tollWait.epoch 0 + 1) % 256) ≠ 0 ∧
    (full.set PKG_MODE.MODE 3).writable cp0 (TOLL.addr 0 7 3) ∧ (full.set PKG_MODE.MODE 3).mode < 4 ∧
    staging0.writable (.inband 0x409 true) (TOLL.addr 0 0 3) ∧ tollWait.quiet ∧ 0 < tollWait.numDies ∧
    ({ tollWait with live := [] } : State).liveAt 0 ((tollWait.epoch 0 + 1) % 256) = 0 ∧ (tollWait.tollWord 0 7 3).getLsbD 49 = false ∧ tollWait.mode ≠ 11 ∧
    (State.tollWord ((({ tollWait with live := [] } : State)).wr (TOLL.addr 0 7 3) (BitVec.ofNat 64 (3 * 2 ^ 48))) 0 7 3).getLsbD 49 = true := by
  unfold State.writable State.quiet; (repeat' apply And.intro) <;> decide +kernel

/-- A fence runs that began in epoch 1 of die 0. -/
def fenced : State := { (full.set TOLL_FENCE.BUSY 1).set TOLL_FENCE.SNAP_D0 1 with live := [(0, 1)] }

theorem witness_RuleEpochFence : full.writable cp0 TOLL_FENCE.addr ∧ fenced.quiet ∧ fenced.get TOLL_FENCE.BUSY = 1 ∧ 0 ∈ fenced.healthyDies ∧ fenced.liveAt 0 0 ≠ 0 ∧
    (full.set TOLL_FENCE.BUSY 1).live = [] ∧ 3 < full.numDies ∧ full.readable cp0 (TOLL_VLAST.addr 3 0) := by
  unfold State.writable State.readable State.quiet; (repeat' apply And.intro) <;> decide +kernel


/-! ### Chapter 13 and the control space -/

/-- Semaphore 63 held by CP0 and semaphore 1 by CP1. -/
def semHeld : State := (((full.set (SEM.HELD 63) 1).set (SEM.HOLDER 63) 781).set (SEM.HELD 1) 1).set (SEM.HOLDER 1) 782

theorem witness_SemaphoreRules : semHeld.quiet ∧ semHeld.routed ∧ semHeld.canHold cp0 ∧ semHeld.reaches cp0 false (SEM.addr 0) = true ∧ semHeld.get (SEM.HELD 0) = 0 ∧
    semHeld.get (SEM.YOURS 0) = 0 ∧ semHeld.reaches cp0 true (SEM.addr 63) = true ∧ semHeld.get (SEM.HELD 63) = 1 ∧ semHeld.get (SEM.HOLDER 63) = semHeld.masterId cp0 ∧
    semHeld.reaches cp0 true (SEM.addr 1) = true ∧ semHeld.get (SEM.HOLDER 1) ≠ semHeld.masterId cp0 := by
  unfold State.quiet State.routed State.canHold; (repeat' apply And.intro) <;> decide +kernel

theorem witness_RegisterWrites : full.quiet ∧ (fieldsAt (WIN_ATTR.addr 65535)).isSome = true ∧ full.reaches cp0 true (WIN_ATTR.addr 65535) = true ∧ full.hasReg (WIN_ATTR.addr 65535) = true ∧
    (fieldsAt (EVT_SRC_A.addr 4607)).isSome = true ∧ full.reaches cp0 true (EVT_SRC_A.addr 4551) = true ∧ full.hasReg (EVT_SRC_A.addr 4551) = true ∧
    full.gateway (.inband 0x40D false) true (WIN_BASE.addr 0) = .go ∧ full.tollCheck 0 (full.subject (.inband 0x40D false)) .write 0xFFFE (WIN_BASE.addr 0) = .refuse 1 0xFFFF ∧
    full.tow = [] ∧ full.dieOfAddr (WIN_BASE.addr 0) = 0 := by
  unfold State.quiet; (repeat' apply And.intro) <;> decide +kernel

/-- CP0 under the I3C strap, with an address and a setup of WIN_BASE of window 0. -/
def i3c : State :=
  { full with modes := { full.modes with bootStraps := { full.modes.bootStraps with cp0I3c := true } }
              ports := [(0, { address := 9, setup := some { offset := some (WIN_BASE.addr 0) } })] }

theorem witness_ControlPortLinks : full.quiet ∧ full.routed ∧ full.mode ≠ 0 ∧ full.rank < 64 ∧ full.isI3c 0 = false ∧ i3c.quiet ∧ i3c.routed ∧ i3c.isI3c 0 = true ∧
    full.get (PKG_CP_STATE.LINK_UP 0) = 1 ∧ i3c.get (PKG_CP_STATE.LINK_UP 0) = 1 ∧ 4 ≤ full.mode := by
  unfold State.quiet State.routed; (repeat' apply And.intro) <;> decide +kernel

theorem witness_I3cBus : i3c.quiet ∧ i3c.mode ≠ 0 ∧ i3c.isI3c 0 = true ∧ i3c.get (PKG_CP_STATE.LINK_UP 0) = 1 ∧ (i3c.cport 0).setup = some { offset := some (WIN_BASE.addr 0) } ∧
    i3c.reaches cp0 false (WIN_BASE.addr 0) = true ∧ i3c.hasReg (WIN_BASE.addr 0) = true ∧ (i3c.cport 0).address ≠ 0 ∧
    (let s := { i3c with ports := [] }
     (s.cport 0).setup = none ∧ (s.cport 0).address = 0 ∧ s.isI3c 0 = true ∧ s.get (PKG_CP_STATE.LINK_UP 0) = 1) := by
  unfold State.quiet; (repeat' apply And.intro) <;> decide +kernel

/-- CP0 has a CS_READ to rank 1 outstanding. -/
def asked : State := { full with ports := [(0, { inband := some { op := 1, rank := 1, tag := 5, sent := 0 } })] }

theorem witness_InbandAccesses : full.quiet ∧ full.reaches cp0 true (PKG_CP_IBA_CTL.addr 0) = true ∧ full.get (PKG_CP_IBA_STAT.BUSY 0) = 0 ∧ full.rank ≠ 63 ∧ full.rank < 64 ∧
    asked.quiet ∧ (asked.cport 0).inband.isSome = true ∧ (full.cport 0).inband = none ∧ (0x81 : Nat).testBit 7 = true ∧ 0x81 % 64 = 1 := by
  unfold State.quiet; (repeat' apply And.intro) <;> decide +kernel

/-- CS_READ and CS_WRITE of WIN_BASE of window 0 by CP0 of rank 1, which lies behind BF port 0. -/
def csPacket (op offset : Nat) : Packet := { ptype := 0xA, vc := 3, dest := 780, src := 1805, tag := 3, sub := op, addr := offset, payload := beBytes 8 7, noWin := true }

theorem witness_InbandServer : let s := permitAll full 0 0xFFFE
    s.quiet ∧ s.routed ∧ 2 ≤ s.mode ∧ s.isBf 0 = true ∧ (csPacket 1 0).sub.testBit 7 = false ∧ (csPacket 1 0).dest = s.fabricId 780 ∧ 1805 % 1024 = 781 ∧
    s.bitOf PKG_MGT_ACCEPT.VALUE 1 = true ∧ s.routeBf s.leadDie 1805 = some 0 ∧ s.hasReg (WIN_BASE.addr 0) = true ∧
    s.reaches (.inband 1805 false) false (WIN_BASE.addr 0) = true ∧ s.reaches (.inband 1805 false) true (WIN_BASE.addr 0) = true ∧
    WIN_BASE.addr 0 < 2 ^ 30 ∧ WIN_BASE.addr 0 % 8 = 0 ∧ (fieldsAt (WIN_BASE.addr 0)).isSome = true ∧ 1805 % 65536 / 1024 ≠ s.rank ∧
    (s.set PKG_MGT_ACCEPT.VALUE 0).bitOf PKG_MGT_ACCEPT.VALUE 1 = false := by
  unfold State.quiet State.routed; (repeat' apply And.intro) <;> decide +kernel

theorem witness_TowpathAndCrossings :
    (let s := { full with tow := [{ master := cp0, write := true, addr := WIN_BASE.addr 0, value := 0, since := 0, reply := .plain }] }
     s.quiet ∧ s.blockAt (WIN_BASE.addr 0) = .cluster 0 (WIN_BASE.addr 0 - clusterBase 0)) ∧
    (let s := { full with crossings := [(1024, { crossReset := true, farReset := true }), (2063, { nearStopped := true, nearPending := true })] }
     s.quiet ∧ s.tow = [] ∧ (s.crossing 1024).crossReset = true ∧ (s.crossing 1024).nearReset = false ∧ (s.crossing 2063).nearStopped = true ∧
     (s.crossing 2063).nearPending = true) := by
  unfold State.quiet; (repeat' apply And.intro) <;> decide +kernel

/-- The shadow of die 0 holds window 5 as contained. -/
def shadowItem : ShadowItem := { item := 4, index := 0x400005, value := [1] }

theorem witness_Reconciliation : full.quiet ∧ full.shadow = [] ∧ full.healthy 0 = true ∧ 0 < full.numDies ∧ 5 ≤ full.mode ∧ full.mode ≤ 9 ∧ shadowItem.index < 2 ^ 24 ∧
    shadowItem.value ≠ full.dataPath 0 4 0x400005 ∧ full.deferred 0 shadowItem = false ∧
    ({ full with shadow := [(0, [shadowItem])] } : State).reaches cp0 true (DIE_RECON_CTL.addr 0) = true := by
  unfold State.quiet; (repeat' apply And.intro) <;> decide +kernel


/-! ### Chapters 01, 02 and 14: package resets, boot and images -/

theorem witness_PackageResets : full.quiet ∧ full.mode ≠ 0 ∧ State.reset.quiet ∧ (full.set PKG_MODE.MODE 0).quiet ∧ (full.set PKG_MODE.MODE 0).mode = 0 ∧
    (full.set PKG_MODE.MODE 1).mode = 1 ∧ 1 < full.mode ∧ full.modes.resetSource = 0 ∧
    (let s := { full with modes := { full.modes with resetSource := 4 } }; s.quiet ∧ s.modes.resetSource ≠ 0) := by
  unfold State.quiet; (repeat' apply And.intro) <;> decide +kernel

/-- The lead is die 0, by keeper 0. -/
def led : State := ((full.set PKG_LEAD.LEAD_VALID 1).set PKG_LEAD.LEAD_KEEPER 0)

theorem witness_DieLoss : led.quiet ∧ 3 < led.numDies ∧ 2 ≤ led.mode ∧ led.get PKG_LEAD.LEAD_VALID = 1 ∧ 0 = led.leadDie ∧ 3 ≠ led.leadDie ∧ (4 ≤ 19 ∧ 19 < 20 ∧ (19 - 4) / 4 = 3) ∧
    7 / 2 = 3 ∧ ¬ (led.get PKG_LEAD.LEAD_VALID = 1 ∧ led.get PKG_LEAD.LEAD_KEEPER = 7) ∧ led.get PKG_LEAD.LEAD_KEEPER = 0 ∧ (1 ∈ led.healthyDies ∧ 1 ≠ 0) ∧
    (full.set PKG_MODE.MODE 1).quiet ∧ (full.set PKG_MODE.MODE 1).mode < 2 ∧
    ∀ j ∈ (led.set PKG_LEAD.DIE_HEALTHY 1).healthyDies, j = 0 := by
  unfold State.quiet; (repeat' apply And.intro) <;> decide +kernel

/-- M2, where F0 holds one stage of no bytes, with SVN 3, and F1 is blank. -/
def m2 : State :=
  let s := State.reset.set PKG_MODE.MODE 2
  { s with
    dir := { s.dir with fwWritten := [bankBase false / 64, bankBase false / 64 + 1, bankBase true / 64] }
    nvs := putBytes s.nvs (bankBase false) (leBytes 4 0x46574231 ++ [3, 1, 0, 0] ++ leBytes 24 7 ++ leBytes 8 64 ++ sha384 []) }

theorem witness_BootAndElection : State.reset.quiet ∧ State.reset.mode = 1 ∧ State.reset.modes.resetHeld = false ∧ State.reset.modes.clockLost = false ∧
    (3 < State.reset.numDies ∧ (8 : Nat).testBit 3 = true ∧ (0x80 : Nat).testBit 7 = true) ∧ m2.quiet ∧ m2.mode = 2 ∧ (m2.bank false true).passes = true ∧
    (m2.bank true true).passes = false ∧ (m2.bank false false).passes = false ∧ (m2.bank false true).laterMatch = true ∧
    (let s := { m2 with nvs := putBytes m2.nvs (bankBase false + 5) [2] }; s.mode = 2 ∧ (s.bank false true).passes = true ∧ (s.bank true true).passes = false ∧
      (s.bank false true).laterMatch = false) := by
  unfold State.quiet; (repeat' apply And.intro) <;> decide +kernel

/-- Locked to a parent through BF port 0, which has a Dreq and a Sync pair. -/
def timed : State :=
  { full with time := { full.time with parent := some 0, locked := false, steadySince := some 5, stepped := false }
              links := tabPut (fun _ => {}) full.links 0 { full.link 0 with sync := some (100, 140), dreqs := [(15, 150)] } }

theorem witness_TimeBases : full.quiet ∧ full.numRegions = 16 ∧ (0 / 4 = 0 ∧ (full.lanePort 0).isSome = true) ∧ full.lanePort 24 = none ∧
    (full.get PKG_MODE.JOIN).testBit 4 = false ∧ ((full.set PKG_MODE.JOIN 0x30).quiet ∧ ((full.set PKG_MODE.JOIN 0x30).get PKG_MODE.JOIN).testBit 4 = true) ∧
    0 < full.numClusters ∧ 3 < full.numDies ∧ (timed.isBf 0 = true ∧ timed.portDark 0 = false) ∧ timed.quiet ∧ ¬ (timed.isBf 255 = true ∧ timed.portDark 255 = false) ∧
    (timed.link 0).dreqs = [(15, 150)] ∧ (timed.link 0).sync = some (100, 140) ∧ 15 = getBits (BitVec.ofNat 64 (15 * 2 ^ 48 + 190)) 48 4 ∧
    timed.time.parent = some 0 ∧ timed.time.steadySince = some 5 ∧ full.time.parent = none ∧
    (timed.set PKG_MODE.MODE 5).mode = 5 ∧ (timed.set PKG_MODE.MODE 5).quiet ∧ (full.link 0).dreqs = [] := by
  unfold State.quiet; (repeat' apply And.intro) <;> decide +kernel

/-! ### The store, the staged image and the slots -/

/-- CP0 holds SEM00. -/
def sem0 (s : State) : State := (s.set (SEM.HELD 0) 1).set (SEM.HOLDER 0) 781

/-- The start of an image whose header gives a length, and its first 16 bytes. -/
def start (n : Nat) : List Byte := leBytes 4 0x53425331 ++ leBytes 2 1 ++ [2, 1, 0, 0, 0xFF, 0xFF] ++ leBytes 4 n

/-- An image of one byte more than its header is staged, in the reserve of the lead's basin. -/
def stagedAt (s : State) (n : Nat) (home : StageHome) : State :=
  { putSec (sem0 s) (basinSec 0) 0 1 1 with staged := { active := true, port := 0, home := home, bytes := start n } }

theorem witness_StagingAndSlots : (sem0 full).quiet ∧ (sem0 full).routed ∧ (0xFF8 < 0x1000 ∧ 0xFF8 % 8 = 0) ∧ (sem0 full).reaches cp0 true 0x3FF8 = true ∧
    full.holdsSem cp0 0 = false ∧ (sem0 full).holdsSem cp0 0 = true ∧ full.reaches cp0 true 0x3000 = true ∧
    (let s := stagedAt full 17 .reserve; s.quiet ∧ s.staged.overflow = false ∧ ¬ (16 ≤ s.staged.bytes.length ∧ imgLength s.staged.bytes ≤ s.staged.bytes.length) ∧ max (start 17).length 17 ≤ 4194304) ∧
    (let s := stagedAt full 4194305 .reserve; imgLength s.staged.bytes = 4194305 ∧ s.sec (basinSec s.leadDie) 0 1 = 1 ∧ s.staged.home = .reserve ∧ 4194305 ≤ slotSize) ∧
    (let s := stagedAt full (slotSize + 1) .slotA; imgLength s.staged.bytes = slotSize + 1 ∧ ¬ s.staged.home = .reserve) ∧
    (let s := stagedAt full 16 .reserve; 16 ≤ s.staged.bytes.length ∧ imgLength s.staged.bytes ≤ s.staged.bytes.length ∧ s.slotWrite = none ∧
      ¬ s.get PKG_SBS_STATUS.SOURCE = 2 ∧ s.writable cp0 PKG_SBS_CTL.addr ∧ s.holdsSem cp0 0 = true) ∧
    (let s := (stagedAt full 16 .basins).set PKG_MODE.MODE 3; s.quiet ∧ s.mode = 3 ∧ s.loading = none ∧ s.writable cp0 PKG_SBS_CTL.addr ∧ s.holdsSem cp0 0 = true) ∧
    (let s := { full with slotWrite := some { slotB := true, image := start 16, written := false } }; s.quiet ∧ s.slotWrite.isSome = true) := by
  unfold State.quiet State.routed State.writable; (repeat' apply And.intro) <;> decide +kernel

/-- A load under way, in M3, of a slot's image that fails check 1, and one that has been validated. -/
def loads (source : ImageSource) (validated : Bool) : State :=
  { full.set PKG_MODE.MODE 3 with loading := some { source := source, bytes := start 16, port := 0, validated := validated }, loadOrder := [.slotB, .streamed] }

theorem witness_FullImages : (loads .slotA false).quiet ∧ (loads .slotA false).reload = none ∧ (loads .slotA false).mode = 3 ∧
    (loads .slotA false).validate (start 16) none false = some (2, 0xFFFF) ∧ (loads .streamed true).mode = 3 ∧ (loads .streamed true).quiet ∧ (loads .slotA false).slotWrite = none ∧
    full.quiet ∧ full.loading = none ∧ full.reload = none := by
  unfold State.quiet; (repeat' apply And.intro) <;> decide +kernel

/-- Region 15 is reloaded, in M8. -/
def reloads (stage : ReloadStage) : State :=
  { full.set PKG_MODE.MODE 8 with reload := some { region := 15, image := start 16, fromSlot := false, stage := stage, hitless := false }
                                  modes := { full.modes with beforeReload := 7 } }

theorem witness_PartialReloads : (sem0 full).quiet ∧ (sem0 full).routed ∧ (sem0 full).writable cp0 PKG_SBS_CTL.addr ∧ (sem0 full).holdsSem cp0 0 = true ∧ full.holdsSem cp0 0 = false ∧
    (sem0 full).mode = 6 ∧ ((stagedAt full 16 .reserve).staged.active = true ∧ (stagedAt full 16 .reserve).staged.home ≠ .slotA ∧ (stagedAt full 16 .reserve).staged.home ≠ .slotB) ∧
    (sem0 full).dir.slotB ≠ .valid ∧ ({ sem0 full with dir := { full.dir with slotB := .valid } } : State).dir.slotB = .valid ∧
    (sem0 (full.set PKG_MODE.MODE 5)).writable cp0 PKG_SBS_CTL.addr ∧ full.reload = none ∧
    ((reloads .validating).quiet ∧ (reloads .validating).routed ∧ (reloads .validating).mode = 8 ∧ (reloads .validating).validate (start 16) (some 15) false = some (2, 0xFFFF)) ∧
    ((reloads .validated).quiet ∧ (reloads .validated).get TOLL_FENCE.BUSY = 0) ∧ (reloads .draining).quiet ∧ (reloads .draining).outstanding = [] ∧ (reloads .draining).waiting = [] ∧
    15 < (reloads .draining).numRegions ∧ (reloads .applying).quiet := by
  unfold State.quiet State.routed State.writable; (repeat' apply And.intro) <;> decide +kernel

/-- CP0 is privileged and holds SEM01; a change of the floor to 2 is staged under token 9. -/
def sealed : State :=
  { (((full.set (SEM.HELD 1) 1).set (SEM.HOLDER 1) 781).set SEAL_CTL.TOKEN 9).set SEAL_CTL.PENDING 4 with
    sealRequests := [{ setting := 3, new := 2, image := List.replicate 16 0 }], sealed := { full.sealed with priv := 1 } }

theorem witness_SealsAndMeasurements : sealed.quiet ∧ sealed.routed ∧ sealed.writable cp0 SEAL_CTL.addr ∧ sealed.sealed.priv.testBit 0 = true ∧ sealed.holdsSem cp0 1 = true ∧
    9 = sealed.get SEAL_CTL.TOKEN ∧ (3 ≤ sealed.mode ∧ sealed.mode ≤ 7) ∧ sealed.sealRequests ≠ [] ∧ 8 ≠ sealed.get SEAL_CTL.TOKEN ∧
    sealed.writable cp0 PKG_MEAS_CTL.addr ∧ sealed.sealed.priv.testBit 1 = false := by
  unfold State.quiet State.routed State.writable; (repeat' apply And.intro) <;> decide +kernel

/-- A read or write of a store block is under way. -/
def storing (write : Bool) (block : Nat) : State := { sem0 full with nvsOp := some { write := write, block := block, data := List.replicate 64 1 } }

theorem witness_StoreProcedure : (sem0 full).quiet ∧ (sem0 full).routed ∧ (sem0 full).writable cp0 PKG_NVS_CTL.addr ∧ (sem0 full).holdsSem cp0 0 = true ∧ full.holdsSem cp0 0 = false ∧
    (sem0 full).get PKG_NVS_CTL.STATUS ≠ 1 ∧ ((sem0 full).set PKG_NVS_CTL.STATUS 1).writable cp0 PKG_NVS_CTL.addr ∧ 2 ^ 21 - 1 < 2 ^ 21 ∧
    (0x20000 ≤ 64 * 2048 ∧ 64 * 2048 < 0x800000) ∧ (0x800000 ≤ 64 * 0x20000 ∧ 64 * 0x20000 < 0x1000000) ∧ (sem0 full).get PKG_FW.BANK = 0 ∧ ¬ (sem0 full).get PKG_FW.BANK = 1 ∧
    ¬ (0x20000 ≤ 64 * 2047) ∧ ¬ 64 * 0x40000 < 0x1000000 ∧ full.nvsOp = none ∧ (storing true 2048).quiet ∧ (storing true 2048).routed ∧ (storing false 1024).quiet := by
  unfold State.quiet State.routed State.writable; (repeat' apply And.intro) <;> decide +kernel

/-- CP0 is privileged. -/
def privileged (s : State) : State := { s with sealed := { s.sealed with priv := 1 } }

theorem witness_ModeCommands : (privileged full).writable cp0 PKG_MODE_CTL.addr ∧ (privileged full).mode ≠ 11 ∧ (privileged full).sealed.priv.testBit 0 = true ∧ (privileged full).mode = 6 ∧
    full.writable (.cp 0) PKG_MODE_CTL.addr ∧ (full.set PKG_MODE.MODE 11).writable cp0 PKG_MODE_CTL.addr ∧
    (let s := (privileged full).set PKG_MODE.MODE 9; s.writable cp0 PKG_MODE_CTL.addr ∧ s.mode = 9) ∧ ((privileged full).set PKG_MODE.MODE 3).writable cp0 PKG_MODE_CTL.addr ∧
    0xC3 < 256 ∧ (privileged full).modes.resetSource = 0 ∧ ({ full with sealed := { full.sealed with priv := 0 } } : State).sealed.priv.testBit 0 = false ∧
    (full.set PKG_MODE.MODE 9).quiet ∧ (full.set PKG_MODE.MODE 9).mode = 9 ∧ (full.set PKG_MODE.MODE 9).outstanding = [] ∧ (full.set PKG_MODE.MODE 9).waiting = [] := by
  unfold State.quiet State.writable; (repeat' apply And.intro) <;> decide +kernel

/-- M5 with every condition of JOIN, or none of them, met. -/
def joining (j : Nat) : State := (full.set PKG_MODE.MODE 5).set PKG_MODE.JOIN j

theorem witness_JoiningTheDomain : (full.set PKG_MODE.MODE 4).quiet ∧ (full.set PKG_MODE.MODE 4).mode = 4 ∧
    (∀ p < (full.set PKG_MODE.MODE 4).numPorts, (full.set PKG_MODE.MODE 4).isPort p = true → (full.set PKG_MODE.MODE 4).asleep p = true ∨
      if (full.set PKG_MODE.MODE 4).isBf p = true then (full.set PKG_MODE.MODE 4).get (PORT_LINK.LL_STATE p) = 2 else (full.set PKG_MODE.MODE 4).get (PORT_PCIE.LINK_STATE p) = 3) ∧
    (joining 63).quiet ∧ (joining 63).mode = 5 ∧ (joining 63).get PKG_MODE.JOIN = 63 ∧ (joining 0).quiet ∧ (joining 0).mode = 5 ∧ full.mode ≠ 5 ∧ full.mode ≠ 4 ∧
    (joining 63).modes.joinLost = false := by
  unfold State.quiet; (repeat' apply And.intro) <;> decide +kernel

/-- A CLAIM of serial number 2 for rank 5 that hosts partition 5. -/
def claimPkt : Packet := { ptype := 0xA, vc := 3, dest := 780, src := 5 * 1024 + 780, sub := 0x10, len := 144, hops := 13
                           payload := [2, 7 * 2 ^ 32 + 2 ^ 31 + 5, 32].flatMap (beBytes 8) ++ List.replicate 120 0 }

/-- A record that partition 5 at rank 2 offers to host. -/
def bindPkt (part count : Nat) : Packet := { ptype := 0xA, vc := 3, dest := 780, src := 2 * 1024 + 780, sub := 0x11, len := 32, addr := 65536 * part + count, payload := List.replicate 32 1 }

theorem witness_ClaimsAndBinds : full.quiet ∧ full.mode = 6 ∧ full.modes.claimAt = none ∧ full.bfUp 0 = true ∧ claimPkt.ptype = 0xA ∧ claimPkt.sub = 0x10 ∧ claimPkt.len = 144 ∧
    (claimOf claimPkt.payload).serial ≠ full.chip.serial.toNat ∧ full.modes.claims = [] ∧ full.modes.claimNo = 0 ∧ (claimOf (beBytes 8 full.chip.serial.toNat ++ beBytes 8 (2 ^ 32) ++ List.replicate 128 0)).no = 1 ∧
    (claimOf claimPkt.payload).partitions = [5] ∧ (claimOf claimPkt.payload).no = 7 ∧
    (0 < 2 ∧ 32 % 32 = 0 ∧ 32 ≠ 0 ∧ 32 ≤ 256) ∧ (bindPkt 0 1).src / 1024 ≠ full.rank ∧ full.bindSets = [] ∧
    (claimOf (beBytes 8 full.chip.serial.toNat ++ List.replicate 136 0)).serial = full.chip.serial.toNat ∧
    (∀ n ∈ full.partRecs.map (·.partition), n < 1024) ∧ (joining 0).bfUp 0 = true := by
  unfold State.quiet; (repeat' apply And.intro) <;> decide +kernel

/-! ### Power, gating and counters -/

/-- Die 3 has throttled since its temperature was high, and has been cool for 10 s. -/
def cooling : State :=
  { ((full.set (DIE_PWR.THROTTLING 3) 1).set (DIE_THERM.T_THROTTLE 3) 105).set (DIE_THERM.T_TRIP 3) 125 with coolSince := [(3, some 0)], adjust := 160000000 }

theorem witness_PowerSamples : full.quiet ∧ 2 ≤ full.mode ∧ full.healthy 3 = true ∧ 3 < full.numDies ∧ cooling.quiet ∧ cooling.get (DIE_PWR.THROTTLING 3) = 1 ∧ 102 + 3 ≤ cooling.get (DIE_THERM.T_THROTTLE 3) ∧
    cooling.get (DIE_THERM.T_TRIP 3) ≤ 125 ∧ 0 + 160000000 ≤ cooling.now ∧ (full.set PKG_MODE.MODE 1).quiet ∧ (full.set PKG_MODE.MODE 1).get (DIE_THERM.T_TRIP 3) ≤ 125 ∧ full.sec powerSec 0 2 = 0 := by
  unfold State.quiet; (repeat' apply And.intro) <;> decide +kernel

theorem witness_WakingAndGating : 255 < 256 ∧ 15 < 16 ∧
    (let s := full.set (PORT_WAKE.STANDBY 0) 1; s.get (PORT_WAKE.STANDBY 0) = 1 ∧ 4 ≤ s.mode ∧ s.mode ≤ 10 ∧ s.writable cp0 (PORT_WAKE.addr 0)) ∧
    full.writable cp0 (PORT_WAKE.addr 8) ∧ full.get (PORT_WAKE.STANDBY 8) = 0 ∧
    (let s := full.set PKG_FENCE_RG.REGIONS 0x8000; s.quiet ∧ s.regionFenced 15 = true ∧ s.waiting = [] ∧ s.reload = none) ∧ full.quiet ∧ full.regionFenced 15 = false := by
  unfold State.quiet State.writable; (repeat' apply And.intro) <;> decide +kernel

theorem witness_CountersAndSelections : full.writable cp0 (PMON_CL_CTL.addr 63) ∧ (63 < 64 ∧ 31 < 32) ∧ full.readable cp0 (ctrAddr false 63 31) ∧ full.readable cp0 (ctrAddr true 3 63) ∧
    3 < full.numDies ∧ full.writable cp0 (PMON_GATHER.addr 3) ∧ full.get (PMON_GATHER.BUSY 3) = 0 ∧ (full.set (PMON_GATHER.BUSY 3) 1).get (PMON_GATHER.BUSY 3) = 1 ∧
    (full.set (PMON_GATHER.BUSY 3) 1).quiet ∧ (full.set (PMON_GATHER.BUSY 3) 1).writable cp0 (PMON_GATHER.addr 3) ∧ full.quiet ∧
    full.writable cp0 (CL_TALLY_SEL.addr 63) ∧ full.writable cp0 (DIE_TALLY_SEL.addr 3) ∧ full.writable cp0 (LN_EYE.addr 511) ∧ full.writable cp0 (PORT_LOCK.addr 8) := by
  unfold State.quiet State.writable State.readable; (repeat' apply And.intro) <;> decide +kernel

/-! ### Chapters 03 and 04: lanes and links -/

/-- Lane 0 has or has not block lock. -/
def locked (n : Nat) : State := (full.set (LN_STATE.BLOCK_LOCK 0) n).set (LN_STATE.RX_SLEEP 0) 0

/-- Lane 0 in a state of its training, Active with the drift watchdog, and the port in a link state. -/
def training (lane link : Nat) : State := (full.set (LN_STATE.TRAIN_STATE 0) lane).set (PORT_LINK.LL_STATE 0) link

theorem laned_full : ∀ p < 256, full.laned p := by unfold State.laned; decide +kernel

/-- A word of zeros is a codeword of the code, which is linear. -/
theorem rsDecode_zero (n : Nat) : rsDecode (List.replicate n 0) = some (List.replicate n 0, 0) := by
  have fold : ∀ (x n : Nat), (List.replicate n 0).foldl (fun v c => gfMul v x ^^^ c) 0 = 0 := by
    have mul : ∀ n b, gfMulFrom n 0 b = 0 := by
      intro n
      induction n with
      | zero => intro b; rfl
      | succ n h => intro b; simp [gfMulFrom, gfDouble, h]
    intro x n
    induction n with
    | zero => rfl
    | succ n h => rw [List.replicate_succ, List.foldl_cons, show gfMul 0 x ^^^ 0 = 0 by simp [gfMul, mul], h]
  have h : rsSyndromes (List.replicate n 0) = List.replicate 16 0 := by simp only [rsSyndromes, gfEval, fold]; decide
  unfold rsDecode; rw [h]; rfl

theorem witness_LaneSignals : (locked 1).quiet ∧ (∀ p < 256, (locked 1).laned p) ∧ 0 < 512 ∧ ((locked 1).lanePort 0 = some 0 ∧ (locked 1).isBf 0 = true) ∧ (List.replicate 544 0#10).length = 544 ∧
    (locked 1).get (LN_STATE.RX_SLEEP 0) = 0 ∧ (locked 1).get (LN_STATE.BLOCK_LOCK 0) = 1 ∧ (locked 1).get (LN_STATE.POL_INV 0) = 0 ∧
    (locked 0).get (LN_STATE.BLOCK_LOCK 0) = 0 ∧ (locked 0).quiet ∧ (full.set (LN_STATE.RX_SLEEP 0) 1).get (LN_STATE.RX_SLEEP 0) = 1 ∧
    ((locked 1).lanePort 100 = none) ∧ ((locked 1).set (LN_QUAL.SAMPLER_OWNED 0) 1).get (LN_QUAL.SAMPLER_OWNED 0) = 1 ∧ (locked 1).lanePort 8 = some 4 ∧
    (locked 1).isBf 4 = false ∧ (locked 1).get (PORT_PCIE.LINK_STATE 4) = 3 := by
  unfold State.quiet State.laned; (repeat' apply And.intro) <;> decide +kernel

/-- A TRAIN block for lane 0 of port 0: state Align, the record's width, a preset request. -/
def trainElement : Nat := 0x33 * 2 ^ 56 + 4 * 2 ^ 52 + 3 * 2 ^ 45 + 1 * 2 ^ 30 + 2 * 2 ^ 27 + 9

theorem witness_LaneTraining : full.quiet ∧ (∀ p < 256, full.laned p) ∧ (full.set (PORT_LINK.LL_STATE 0) 0).mayTrain 0 = true ∧ full.mayTrain 255 = false ∧
    (full.lanePort 0 = some 0 ∧ full.isBf 0 = true ∧ full.portDark 0 = false ∧ 0 < full.portWidth 0) ∧ full.widthCode 0 = 3 ∧ (full.link 0).dozing = 0 ∧
    (training 1 1).quiet ∧ (∀ p < 256, (training 2 1).laned p) ∧ (training 2 1).get (LN_STATE.TRAIN_STATE 0) = 2 ∧ (training 3 1).get (LN_STATE.TRAIN_STATE 0) = 3 ∧
    (training 4 1).get (LN_STATE.TRAIN_STATE 0) = 4 ∧ 0 ∈ (training 2 1).portLanes 0 ∧ ¬ (1 ≤ full.get (LN_STATE.TRAIN_STATE 0) ∧ full.get (LN_STATE.TRAIN_STATE 0) ≤ 4) ∧
    getBits (BitVec.ofNat 64 trainElement) 56 8 = 0x33 ∧ getBits (BitVec.ofNat 64 trainElement) 30 2 = 1 ∧ getBits (BitVec.ofNat 64 trainElement) 52 4 = 4 ∧ (full.laneSt 0).applied = none := by
  unfold State.quiet State.laned; (repeat' apply And.intro) <;> decide +kernel

/-- The link session of port 0. -/
def linked (x : LinkSession) : State := { full with links := [(0, x)] }

theorem witness_LaneMasksAndDoze : (linked { dozing := 1 }).quiet ∧ (∀ p < 256, (linked { dozing := 1 }).laned p) ∧ ((linked { dozing := 1 }).link 0).dozing = 1 ∧
    ((linked { dozing := 2 }).link 0).dozing = 2 ∧ ((linked { mapPending := some (0xFF, 9) }).link 0).mapPending = some (0xFF, 9) ∧
    ((linked { switch := [(0xF, 9, 1)] }).link 0).switch = (0xF, 9, 1) :: [] ∧ full.isBf 4 = false ∧ full.get (PORT_PCIE.DL_ACTIVE 4) = 1 ∧ (full.set (PORT_PCIE.ACTIVE_WIDTH 4) 8).get (PORT_PCIE.ACTIVE_WIDTH 4) = 8 ∧
    ((locked 1).get (LN_STATE.RX_SLEEP 0) = 0 ∧ (locked 1).get (LN_STATE.BLOCK_LOCK 0) = 1) ∧ (full.set (LN_STATE.RX_SLEEP 511) 1).get (LN_STATE.RX_SLEEP 511) = 1 := by
  unfold State.quiet State.laned; (repeat' apply And.intro) <;> decide +kernel

/-- The first 39 elements of a flit of a header and elements. -/
def flitWords (h : Nat) (e : List Nat) : List Word := (BitVec.ofNat 64 (h / 2 ^ 64) :: BitVec.ofNat 64 h :: e.map (BitVec.ofNat 64)) ++ List.replicate (37 - e.length) 0

/-- A flit of a header and elements, with its CRC. -/
def flitOf (h : Nat) (e : List Nat) : List Word := flitWords h e ++ [flitCrc (flitWords h e)]

theorem flitOf_crc (h : Nat) (e : List Nat) (n : (flitWords h e).length = 39) : (flitOf h e).getD 39 0 = flitCrc ((flitOf h e).take 39) := by
  simp [flitOf, ← n]

/-- The partner of port 0 at a sequence number. -/
def session : LinkSession := { initGood := true, partner := some { sender := 1805 }, held := [{ seq := 5, elements := [], pkts := [], tally := false, spent := [] }] }

/-- INIT of a partner of this domain. -/
def initFlit : List Word := flitOf (2 * 2 ^ 124) [1805 * 2 ^ 48 + 2 ^ 7]

theorem witness_BurekLink : (linked session).quiet ∧ (∀ p < 256, (linked session).laned p) ∧ ((linked session).isBf 0 = true ∧ (linked session).get (PORT_LINK.LL_STATE 0) = 2) ∧
    initFlit.length = 40 ∧ (flitWords (2 * 2 ^ 124) [1805 * 2 ^ 48 + 2 ^ 7]).length = 39 ∧ flitType initFlit = 2 ∧ (initOf ((initFlit.drop 2).take 37)).domain = full.sealed.domain ∧
    badLimit (initOf ((initFlit.drop 2).take 37)).limits = false ∧ (initOf ((initFlit.drop 2).take 37)).peerSeen = true ∧
    (flitOf (3 * 2 ^ 124) []).length = 40 ∧ flitType (flitOf (3 * 2 ^ 124) []) = 3 ∧ (flitWords (3 * 2 ^ 124) []).length = 39 ∧
    ((linked session).link 0).initGood = true ∧ ((linked session).link 0).partner ≠ none ∧ ((linked session).link 0).held ≠ [] ∧ (linked session).get (PORT_LINK.RX_EXPECT 0) = 0 ∧
    flitType (flitOf (1 * 2 ^ 124) [10 * 2 ^ 60]) = 1 ∧ flitType (flitOf (2 ^ 95) []) = 0 ∧
    (∀ i < 12, (((linked session).takeCredit 0 0 0).takeCredit 0 0 0).tallyCheck 0 0 (((flitOf (3 * 2 ^ 124) []).drop 2).take 37) i = none) ∧
    ((linked session).set (PORT_LINK.NAK_PENDING 0) 1).get (PORT_LINK.NAK_PENDING 0) = 1 ∧ ((linked session).set (PORT_LINK.LL_STATE 0) 3).get (PORT_LINK.LL_STATE 0) = 3 ∧
    ((linked session).link 0).held.length < ((linked session).allotment 0) := by
  unfold State.quiet State.laned; (repeat' apply And.intro) <;> decide +kernel

/-! ### Chapters 05 and 06: requests of devices and hosts -/

/-- Window 1024 with other attributes. -/
def attr (v : Nat) : State := full.wr (WIN_ATTR.addr 1024) (BitVec.ofNat 64 (2 ^ 63 + 8 * 2 ^ 43 + 5 * 2 ^ 33 + v))

/-- A memory request of 4 bytes at the first address of window 1024. -/
def tlp (kind : TlpKind) (n : Nat) : Tlp := { kind := kind, addr := 0x10000, len := 4, lastBe := 0, reqId := 0, tag := 1, data := leBytes n 7 }

/-- Partition 5, of port 4, decodes window 1024 for the requests above. -/
def decodes (s : State) : Prop :=
  s.quiet ∧ s.isPu 4 = true ∧ s.get (PORT_PCIE.DL_ACTIVE 4) = 1 ∧ s.portDark 4 = false ∧ s.requestPartition 4 (tlp .memRead 0) = some 5 ∧
    (s.decodeWindow 1 .pu 5 0x10000).map (·.n) = some 1024

/-- Window 2048, which decodes the requests of PD port 8, of a KIND. -/
def pdWin (kind : Nat) : State := win full 2048 0x10000 0x1F000 0x50000 (2 ^ 63 + kind * 2 ^ 60 + 4 * 2 ^ 43 + 5 * 2 ^ 33)

theorem witness_RequestsAtPciePorts : decodes full ∧ decodes (attr (2 ^ 30)) ∧ full.decodeWindow 1 .pu 5 0xFFFF = none ∧
    (full.isPd 8 = true ∧ full.get (PORT_PCIE.DL_ACTIVE 8) = 1 ∧ full.isPu 8 = false ∧ full.portDark 8 = false) ∧
    (∀ k < 3, (pdWin k).quiet ∧ (pdWin k).requestPartition 8 { tlp .memWrite 4 with reqId := 256 } = some 5 ∧ (pdWin k).decodeWindow 2 .pd 5 0x10000 = some ((pdWin k).window 2048) ∧
      ((pdWin k).window 2048).kind = k) ∧
    (let w := full.window 1024; full.virtStop 4 5 w 0 = none ∧ w.kind = 0 ∧ full.stream w.n 0 = none ∧ (atomicOperands w (atomicSize 0 4) (leBytes 4 7)).isSome = true ∧
      piecesOf (full.template 4 (tlp .memWrite 4) w 5 2) w w.remote (tlp .memWrite 4).enabledOffsets (leBytes 4 7) true ≠ []) ∧
    (tlp .memReadLock 0).kind = .memReadLock ∧ full.puPartition 4 = some 5 ∧ (full.window 1024).lockOk = false ∧ ((attr (2 ^ 19)).window 1024).lockOk = true ∧ decodes (attr (2 ^ 19)) ∧
    (∀ y ∈ full.streams, y.cluster = 4 / 4 → y.inFlight = []) ∧ (let s := full.set (PORT_PCIE.LINK_STATE 8) 5; s.quiet ∧ s.get (PORT_PCIE.LINK_STATE 8) = 5 ∧ s.get (PORT_PCIE.DL_ACTIVE 8) = 1) := by
  unfold decodes State.quiet; (repeat' apply And.intro) <;> decide +kernel

/-- PU port 4 and PD port 8, whose device is bound to the partition of port 4 by a whole-port binding behind vDSP 0. -/
theorem full_ports : full.quiet ∧ (full.isPu 4 = true ∧ full.get (PORT_PCIE.DL_ACTIVE 4) = 1 ∧ full.portDark 4 = false) ∧
    (full.isPd 8 = true ∧ full.get (PORT_PCIE.DL_ACTIVE 8) = 1 ∧ full.portDark 8 = false) ∧ (full.isBf 0 = true ∧ full.portDark 0 = false ∧ full.bfUp 0 = true) ∧ full.rank < 64 := by
  unfold State.quiet; (repeat' apply And.intro) <;> decide +kernel

/-- Nothing is bound. -/
def unboundPort : State := putSec full partSec 4 4 0

/-- A function of PD port 8 has asserted a pin, which the PU port was told of. -/
def asserted : State := { full with intxLevel := [(1024 * 8 + 3, 1)], intxSent := [(1024 * 8 + 3, full.fabricId 4, 5)] }

/-- The device bound to the partition of port 4 is behind another package's port. -/
def farDevice : State := putSec full partSec 36 2 (1024 * 5 + 8)

/-- An Event for PU port 4 from PD port 8. -/
def event (sub : Nat) : Packet := { ptype := 8, sub := sub, src := full.fabricId 8, dest := full.fabricId 4, addr := 4, noWin := true, partition := 5 }

theorem witness_InterruptsAndMessages : tabGet (fun _ => 0) full.intxLevel (1024 * 8 + 3) = 0 ∧ (full.anyBindingOf (full.fabricId 8) 0).isSome = true ∧
    (full.puOf 5).isSome = true ∧ full.bindingOf (full.fabricId 8) 0 (some 5) ≠ none ∧ unboundPort.quiet ∧ unboundPort.anyBindingOf (unboundPort.fabricId 8) 0 = none ∧
    (unboundPort.isPd 8 = true ∧ unboundPort.get (PORT_PCIE.DL_ACTIVE 8) = 1 ∧ unboundPort.portDark 8 = false) ∧ unboundPort.bindingOf (event 2).src 0 (unboundPort.puPartition 4) = none ∧
    full.bindingOf (event 2).src (event 2).reqFn (full.puPartition 4) ≠ none ∧ (event 2).ptype = 8 ∧
    (full.windowsOf 1).find? (fun n => full.windowValid n && (full.window n).kind = 3 && (full.window n).partition = 5) = none ∧
    (let s := attr (3 * 2 ^ 60); (s.windowsOf 1).find? (fun n => s.windowValid n && (s.window n).kind = 3 && (s.window n).partition = 5) = some 1024 ∧ s.quiet) ∧
    (2 ≤ 2 ∧ full.portRec 8 67 1 % 2 = 0) ∧ ¬ full.isPu 0 = true ∧ 4 ∉ full.pmeOff ∧
    (let s := { full with pmeOff := [4] }; s.quiet ∧ 4 ∈ s.pmeOff ∧ s.pcieUp 4 = true ∧ s.inFlight 5 = false ∧ s.puPartition 4 = some 5) ∧
    asserted.quiet ∧ tabGet (fun _ => 0) asserted.intxLevel (1024 * 8 + 3) ≠ 0 ∧ (asserted.intxSent.find? fun y => y.1 = 1024 * 8 + 3) = some (1024 * 8 + 3, full.fabricId 4, 5) ∧
    farDevice.quiet ∧ ((farDevice.vdsps 4).flatMap fun v => (farDevice.behind 4 v).filter fun b => b.kind = 1 && b.target / 1024 ≠ farDevice.rank) ≠ [] := by
  unfold State.quiet; (repeat' apply And.intro) <;> decide +kernel

/-- Packets have arrived at BF port 0, which has room for every class. -/
def arrived (ks : List Packet) : State :=
  let s := linked { session with arrived := ks.map fun k => (k, 7) }
  (List.range 12).foldl (fun s k => putSec s (portSec 0) (16 + 2 * k) 2 200) s

/-- A read for a destination of rank r and port n. -/
def readFor (r n : Nat) : Packet := { ptype := 1, vc := 1, cls := 1, dest := 1024 * r + n, src := 5 * 1024 + 4, tag := 3, len := 4, addr := 0x10000, partition := 5, fbe := 15, noWin := true }

/-- A write is outstanding at PU port 4, and its completion comes back. -/
def awaits (answered : Bool) : State :=
  { full with outstanding := [{ id := 1, port := 4, ptype := 3, admitted := true, asWrite := true, answered := answered, tlp := some (tlp .memWrite 4), pieces := [{ tag := 9, addr := 0, len := 4 }] }] }

/-- Its completion. -/
def cpl : Packet := { ptype := 7, vc := 2, cls := 1, dest := full.fabricId 4, src := 5 * 1024 + 8, tag := 9 }

/-- A packet waits for BF port 0 to send it. -/
def placing (path : List Nat) (point : Nat) : State :=
  { full with waiting := [{ point := point, path := path, pkt := cpl, credit := [{ ledger := portLedger 0 10, units := 1 }] }] }

/-- The next words of crossing 10 of cluster 0 meet an injection. -/
def crossed (mode remain : Nat) : State :=
  ((((placing [1000] 100).set (DIE_EVT_INJECT.CHECKER 0) 0x0B).set (DIE_EVT_INJECT.INSTANCE 0) 10).set (DIE_EVT_INJECT.MODE 0) mode).set (DIE_EVT_INJECT.REMAIN 0) remain

theorem witness_PacketsArriveAndMove : (∀ k ∈ [readFor 5 4, readFor full.rank 4, readFor full.rank 0, readFor full.rank 784, readFor full.rank 780], let s := arrived [k]; s.quiet ∧ s.malformed 0 k = false ∧
      s.isBf 0 = true ∧ s.portDark 0 = false ∧ (s.link 0).arrived = [(k, 7)] ∧ k.isCompletion = false) ∧
    (arrived [{ readFor 5 4 with hops := 15 }]).malformed 0 { readFor 5 4 with hops := 15 } = true ∧ full.endpointExists 784 = false ∧ full.endpointExists 780 = true ∧
    (full.isBf 4 = false ∧ full.isPort 4 = true) ∧ (full.isPort 16 = false) ∧ full.decodeWindow 0 .bf 5 0x10000 = none ∧
    (awaits false).quiet ∧ ((awaits false).findPiece cpl.dest cpl.tag).isSome = true ∧ (awaits true).quiet ∧ cpl.isCompletion = true ∧ cpl.dest / 1024 = full.rank ∧
    ((answerPiece cpl [{ tag := 9, addr := 0, len := 4 }]).all fun x => x.status.isSome) = true ∧ full.findPiece cpl.dest cpl.tag = none ∧
    (placing [] 1000).quiet ∧ (choose (eligibleAt 1000 [] (placing [] 1000).waiting)).isSome = true ∧ (placing [] 1000).shutAt 1000 = false ∧
    ((placing [] 1000).waiting.all fun w => !(placing [] 1000).refuses 0 w) = true ∧ (choose (eligibleAt 100 [] (placing [1000] 100).waiting)).isSome = true ∧ (placing [1000] 100).shutAt 100 = false ∧
    (let s := { full with device := [{ port := 8, tag := 1, pkt := some { readFor full.rank 8 with len := 8 } }] }; s.quiet ∧ (s.device.find? fun d => d.port = 8 && d.tag = 1 && !d.waitAck).isSome = true) ∧
    (let s := { full with device := [{ port := 8, tag := 1, waitAck := true, pkt := some cpl }] }; s.quiet) ∧
    (let s := { full with streams := [{ cluster := 1, port := 4, requester := 0, window := 1024, next := 0, ahead := 0, blocks := [(0, [], 5), (256, [], 7)], inFlight := [] }] }; s.quiet ∧ s.streams ≠ []) ∧
    (crossed 1 1).quiet ∧ ((crossed 1 1).cross 100 cpl).2 = 1 ∧ (crossed 2 1).quiet ∧ ((crossed 2 1).cross 100 cpl).2.testBit 1 = true ∧ ((placing [1000] 100).cross 100 cpl).2 = 0 ∧
    (let s := { placing [] 1000 with waiting := (placing [] 1000).waiting.map fun (w : Waiting) => { w with hurt := 2 } }; s.quiet ∧ ∀ w ∈ s.waiting, w.hurt.testBit 1 = true) ∧
    (let s := placing [1000] 200; s.quiet ∧ ∀ w ∈ s.waiting, (((s.unwait w).returnAll (inFlightOf w)).ledger (dieLedger 0 67)).room w.pkt.credits = true) ∧
    lastBarge 4 0 { cpl with ptype := 0xB, sub := 4 } = true ∧ lastBarge 8 0 { cpl with ptype := 0xB, sub := 0, payload := [1] } = false := by
  unfold State.quiet; (repeat' apply And.intro) <;> decide +kernel

/-- PD port 8 may be locked, and the package lock has a STATE, an OWNER and a TARGET. -/
def lock (st owner locked : Nat) : State :=
  let s := ((((full.set PKG_LOCK.STATE st).set PKG_LOCK.OWNER owner).set PKG_LOCK.OWNER_PART 5).set PKG_LOCK.TARGET (full.fabricId 8)).set (PORT_LOCK.LOCKABLE 8) 1
  { s.set (PORT_LOCK.LOCKED 8) locked with portLocks := [(8, { owner := owner, partition := 5, since := 0, limit := 4 })] }

/-- A Lock packet to PD port 8. -/
def lockPkt (src ty : Nat) : Packet := { ptype := ty, vc := 1, cls := 1, dest := full.fabricId 8, src := src, tag := 3, len := 4, addr := 0x10000, partition := 5, fbe := 15, noWin := true }

/-- A locked read of PU port 4 is outstanding. -/
def lockWaits (backoff : Bool) : State :=
  { lock 1 (full.fabricId 4) 0 with
    outstanding := [{ id := 1, port := 4, ptype := 5, admitted := true, tlp := some (tlp .memReadLock 0), window := 1024, partition := 5, dest := 5 * 1024 + 8, tgt := 0x50000, pieces := [{ tag := 9, addr := 0x50000, len := 4 }] }]
    lockWait := [{ id := 1, port := 4, tlp := tlp .memReadLock 0, backoff := backoff }] }

theorem witness_LockedSequences : (lock 0 0 0).quiet ∧ (lock 0 0 0).rank < 64 ∧ (lock 0 0 0).lockable 8 = true ∧ (lock 0 0 0).get PKG_LOCK.STATE = 0 ∧ full.lockable 8 = false ∧
    ((lock 0 0 0).isPd 8 = true ∧ (lock 0 0 0).get (PORT_PCIE.DL_ACTIVE 8) = 1 ∧ (lock 0 0 0).portDark 8 = false) ∧ ((lockPkt 5124 5).src / 1024 ≠ full.rank ∧ (lockPkt 5124 5).src < 65536) ∧
    (lock 3 5124 1).get PKG_LOCK.STATE = 3 ∧ (lock 3 5124 1).get PKG_LOCK.OWNER = 5124 ∧ (lock 3 5124 1).quiet ∧ (lock 3 5124 1).get (PORT_LOCK.LOCKED 8) = 1 ∧
    ((lock 3 5124 1).portLock 8).owner = (lockPkt 5124 6).src ∧ ((lock 3 5124 1).portLock 8).partition = 5 ∧ (lock 2 (full.fabricId 4) 0).get PKG_LOCK.STATE = 2 ∧
    (lock 2 (full.fabricId 4) 0).get PKG_LOCK.OWNER = (lock 2 (full.fabricId 4) 0).fabricId 4 ∧ (lock 2 (full.fabricId 4) 0).quiet ∧ (lock 2 (full.fabricId 4) 0).isPu 4 = true ∧
    (lockWaits false).quiet ∧ ((lockWaits false).findPiece (full.fabricId 4) 9).isSome = true ∧ (lockWaits true).quiet ∧ ((lockWaits true).lockWait.find? fun x => x.backoff).isSome = true ∧
    piecesOf ((lockWaits true).template 4 (tlp .memReadLock 0) ((lockWaits true).window 1024) 5 5) ((lockWaits true).window 1024) 0x50000 (tlp .memReadLock 0).enabledOffsets [] false ≠ [] ∧
    full.configJobs = [] ∧ full.intercept 8 { ptype := 9, dest := full.fabricId 8, src := 5124, addr := 0x1000010, len := 4, fbe := 15 } = none ∧
    (let s := { full with configJobs := [{ port := 8, pkt := lockPkt 5124 9, received := 0, retrying := true, issued := true }] }; s.quiet ∧ (s.configOut 8).isSome = true) := by
  unfold State.quiet; (repeat' apply And.intro) <;> decide +kernel

/-- The link of a port is down, and its lanes may run at rate code 5. -/
def linkDown (p : Nat) : State := putSec (((full.set (PORT_PCIE.DL_ACTIVE p) 0).set (PORT_PCIE.LINK_STATE p) 0)) (laneSec (p / 4)) 1 1 5

theorem witness_PcieLinks : (∀ p ∈ [4, 8], (linkDown p).quiet ∧ (linkDown p).mayTrain p = true ∧ 8 ≤ (linkDown p).portWidth p ∧ 5 ≤ (linkDown p).laneRec ((linkDown p).firstLane p) 1 1 ∧
      (linkDown p).get (PORT_PCIE.DL_ACTIVE p) ≠ 1 ∧ (linkDown p).portRec p 65 1 = 0 ∧ (putSec (linkDown p) (portSec (p / 4)) (256 * (p % 4) + 65) 1 1).portRec p 65 1 = 1) ∧
    (full.set (PORT_PCIE.LINK_STATE 4) 4).get (PORT_PCIE.LINK_STATE 4) = 4 ∧ ((full.ledger (portLedger 8 27)).out = 0 ∧ full.get (PORT_PCIE.TAGS_OUT 8) = 0) ∧ full.get (PORT_DPC.CONTAINED 8) = 0 ∧
    (putSec full (portSec 1) 66 1 2).portRec 4 66 1 / 2 % 2 = 1 ∧ full.get (PORT_PCIE.LINK_STATE 4) = 3 ∧ (full.set (PORT_PCIE.LINK_STATE 4) 5).get (PORT_PCIE.LINK_STATE 4) = 5 ∧
    full.inFlight 5 = false := by
  unfold State.quiet; (repeat' apply And.intro) <;> decide +kernel

/-- The host's read and write of a register of a bus, device and function. -/
def cfgTlp (write type1 : Bool) (target addr : Nat) : Tlp :=
  { kind := if write then .cfgWrite type1 else .cfgRead type1, target := target, addr := addr, len := 4, lastBe := 0, data := leBytes 4 0x10100 }

/-- The host has numbered bus 1 below the switch and bus 2 below vDSP 0. -/
def numbered : State := (full.virtPut 4 0 6 0x020100).virtPut 4 (vdspFn 0) 6 0x020201

theorem witness_VirtualSwitches : full.isPu 4 = true ∧ full.isPu 8 = false ∧ numbered.quiet ∧ (cfgTlp false false 0 0).target % 256 = 0 ∧ numbered.secondaryBus 4 0 = 1 ∧ 0 ∈ numbered.vdsps 4 ∧
    (cfgTlp true true 256 4).target / 256 = numbered.secondaryBus 4 0 ∧ (numbered.vdsps 4).find? (fun v => numbered.secondaryBus 4 (vdspFn v) = 2) = some 0 ∧
    ((numbered.behind 4 0).findSome? fun b => ((b.functions (numbered.deviceOf b.target)).find? fun f => numbered.hostFn b f = 0).map fun f => (b, f)).isSome = true ∧
    (∀ v ∈ numbered.vdsps 4, numbered.secondaryBus 4 (vdspFn v) ≠ 9) ∧ numbered.behind 4 0 ≠ [] ∧ (∀ b ∈ numbered.behind 4 0, b.target ≠ numbered.fabricId 4 ∧ b.target % 1024 < 256 ∧ b.kind = 1 ∧ b.target / 1024 = numbered.rank) ∧
    numbered.behind 4 1 = [] ∧ (let s := numbered.setVport 4 (vdspFn 0) { numbered.vport 4 (vdspFn 0) with dpcStatus := true }; s.quiet ∧ (s.vport 4 (vdspFn 0)).dpcStatus = true) ∧
    (let s := numbered.setVport 4 (vdspFn 0) { numbered.vport 4 (vdspFn 0) with view := true }; s.quiet ∧ (s.vport 4 (vdspFn 0)).view = true) ∧ numbered.follows 4 = true ∧
    (let s := full.set (PORT_DPC.CLEAR_PENDING 8) 1; s.quiet ∧ s.remotePending 8 = 1 ∧ s.isPu 8 = false) ∧
    (let s := { full with flr := [(8, 0)] }; s.quiet ∧ (8, 0) ∈ s.flr ∧ ∀ j ∈ s.configJobs, j.port ≠ 8) ∧ (8, 0) ∉ full.flr := by
  unfold State.quiet; (repeat' apply And.intro) <;> decide +kernel

/-! ### DOE and SPDM -/

/-- The instance of CP0 has come to a phase at version 1.2, and an object waits. -/
def doe (phase : Nat) (request : List Byte) : State :=
  { full with doe := [(0, { phase := phase, version := 0x12, object := some request })], doeOrder := [0] }

theorem witness_DoeAndSpdm : full.quiet ∧ (full.doeOf 0).error = false ∧ 3 ≤ full.mode ∧ full.isPu 4 = true ∧ 6 - 2 = 4 ∧ full.isPu 0 = false ∧ (full.set PKG_MODE.MODE 2).mode < 3 ∧
    (doe 3 [0x12, 0x83, 0, 0]).quiet ∧ ((doe 3 [0x12, 0x83, 0, 0]).doeOf 0).phase = 3 ∧ (∀ j, (doe 3 []).doeOrder.head? = some j → j = 0) ∧
    ({ full with doe := [(0, { error := true })] } : State).quiet ∧ (16384 < 16388 ∧ 16384 ≤ 16384) ∧
    (imgNat [1, 0, 1, 0, 3, 0, 0, 0, 0x12, 0xE0, 0, 0] 9 1 = 0xE0 ∧ imgNat [1, 0, 1, 0, 3, 0, 0, 0, 0x12, 0xE0, 0, 0] 2 1 = 1 ∧ imgNat [1, 0, 1, 0, 3, 0, 0, 0, 0x12, 0xE0, 0, 0] 0 2 = 1) := by
  unfold State.quiet; refine ⟨?_, ?_, ?_, ?_, ?_, ?_, ?_, ?_, ?_, ?_, ?_, ?_, ?_, ?_⟩
  case refine_10 => intro j h; exact (Option.some.inj h).symm
  all_goals decide +kernel

/-! ### The sluice and the bounds -/

/-- A write of port 4 to port 8, and one in transit. -/
def write48 : Queued :=
  { id := 7, pkts := [{ ptype := 2, vc := 0, cls := 1, dest := 8, src := 4, len := 8, addr := 0x100, fbe := 255, lbe := 0, partition := 5, noWin := true, payload := beBytes 8 1 }], requester := 0, order := 7 }

/-- A device behind port 8 at rate code 5 in 4 lanes, basins in place, bounds computed, and the queued write at the head of its ingress buffer. -/
def sluice (x : Queued) : State :=
  let s := ((full.set (PORT_PCIE.RATE 8) 5).set (PORT_PCIE.ACTIVE_WIDTH 8) 4)
  let s := (List.range 15).foldl (fun (s : State) i => putSec s (basinSec 0) (16 + 8 * i) 4 64) s
  (putSec s (laneSec 2) 1 1 5).recomputeBounds.setIngress 64 [x]

/-- A request for engine 8 with more bytes than an engine takes. -/
def long : Queued := { write48 with pkts := write48.pkts.map fun k => { k with dest := 264, payload := List.replicate 257 0, len := 257 } }

theorem witness_Admission_held : (sluice long).quiet ∧ (sluice long).tooLong 1 long = true ∧ (full.setIngress 64 [write48]).quiet ∧ (full.setIngress 64 [write48]).evaluate 64 write48 false = .answer 6 ∧
    ((sluice write48).setLedger (portLedger 8 2) { total := 1, out := 1, issued := 1 }).quiet ∧
    ((sluice write48).setLedger (portLedger 8 2) { total := 1, out := 1, issued := 1 }).evaluate 64 write48 false = .hold 5 ∧ full.quiet ∧ full.ingressQ (16 * 1535 + 15) = [] := by
  unfold State.quiet; (with_reducible repeat' apply And.intro) <;> decide +kernel

theorem witness_Admission_toll :
    (∀ k ∈ write48.pkts, (permitAll (sluice write48) 0 0xFFFF).tollCheck 0 ((permitAll (sluice write48) 0 0xFFFF).ingressSubject 4 k 0) k.kind k.dest k.checkedAddr = .permit) ∧
    (permitAll (sluice write48) 0 0xFFFF).quiet ∧ (permitAll (sluice write48) 0 0xFFFF).evaluate 64 write48 false = .go ∧
    (∀ k ∈ write48.pkts, (sluice write48).tollCheck 0 ((sluice write48).ingressSubject 4 k 0) k.kind k.dest k.checkedAddr ≠ .permit) := by
  unfold State.quiet; (with_reducible repeat' apply And.intro) <;> decide +kernel

theorem witness_Admission : (sluice write48).tooLong 1 write48 = false ∧ write48.hurt = 0 ∧
    (sluice { write48 with hurt := 2 }).evaluate 64 { write48 with hurt := 2 } false = .go ∧ ({ write48 with hurt := 2 } : Queued).hurt.testBit 1 = true ∧ (sluice write48).quiet ∧
    (sluice write48).ingressQ 64 = [write48] ∧ (sluice write48).evaluate 64 write48 false = .go ∧ (sluice write48).mode = 6 ∧
    (sluice write48).regionFenced 0 = false ∧ (sluice write48).clusterHeld 1 = false ∧ (sluice write48).reloading 0 = false ∧ (sluice { write48 with transit := true }).quiet ∧
    full.isPu 4 = true ∧ full.get (PORT_PCIE.DL_ACTIVE 4) = 1 ∧ full.portDark 4 = false ∧ full.ingress = [] := by
  unfold State.quiet; (with_reducible repeat' apply And.intro) <;> decide +kernel

/-- A request of port 4 that waits for its answer, and its forms. -/
def waitsFor (admitted answered prefetch : Bool) : State :=
  { full with outstanding := [{ id := 1, port := 4, ptype := 1, admitted := admitted, answered := answered, prefetch := prefetch, tlp := some (tlp .memRead 0), pieces := [{ tag := 9, addr := 0, len := 4 }] }] }

/-- A device behind port 8 owes an answer to a packet of a rank. -/
def owes (rank : Nat) : State := { full with device := [{ port := 8, tag := 1, pkt := some (readFor 0 8 |> fun k => { k with src := 1024 * rank + 4 }) }] }

/-- A prefetch for which a piece of a read waits, and an engine's handler that ended and left a request of port 4 unanswered. -/
def awaited : State :=
  { full with outstanding := [{ id := 1, port := 4, ptype := 1, admitted := true, prefetch := true, window := 1024, ctx := 0, addr := 256, pieces := [{ tag := 9, addr := 256, len := 256 }] },
      { id := 2, port := 4, ptype := 1, window := 1024, tlp := some (tlp .memRead 0), pieces := [{ tag := 0, addr := 256, len := 4, waits := true }] }]
              engines := [(8, { owed := [(.pcie 4 1 0 false, 7)] })] }

theorem witness_SurrogateAnswers_waiting : awaited.quiet ∧ (awaited.waitingOn 1024 0 256).length = 1 ∧
    (∀ o ∈ awaited.outstanding, o.prefetch = false → awaited.owedBy o = some 8) ∧ (waitsFor true false true).waitingOn 0 0 0 = [] := by
  unfold State.quiet; (repeat' apply And.intro) <;> decide +kernel

theorem witness_SurrogateAnswers : (waitsFor true false false).quiet ∧ ((waitsFor true false false).outstanding.find? fun o => o.id = 1 && o.port = 4 && !o.transit && !o.answered).isSome = true ∧
    (waitsFor true false false).lockWait.find? (fun x => x.id = 1) = none ∧ (waitsFor true false true).quiet ∧ ((lockWaits false).lockWait.find? fun x => x.id = 1).isSome = true ∧ (lockWaits false).quiet ∧
    (waitsFor true true false).quiet ∧ ((waitsFor true true false).outstanding.find? fun o => o.port = 4 && o.answered && o.pieces.any fun x => x.tag = 9 && x.status.isNone).isSome = true ∧
    (owes full.rank).quiet ∧ (owes 5).quiet ∧ ((owes full.rank).device.find? fun d => d.port = 8 && d.tag = 1 && !d.waitAck && !d.answered).isSome = true ∧ full.rank ≠ 5 ∧
    (∀ d ∈ (owes 5).device, ∀ k, d.pkt = some k → k.src / 1024 = 5) := by
  unfold State.quiet; refine ⟨?_, ?_, ?_, ?_, ?_, ?_, ?_, ?_, ?_, ?_, ?_, ?_, ?_⟩
  case refine_13 => intro d h k e; simp only [owes, List.mem_singleton] at h; subst h; cases e; decide
  all_goals decide +kernel

/-- A whole announcement of one record. -/
def boundsPkt (part count : Nat) : Packet :=
  { ptype := 0xA, vc := 3, dest := 780, src := 1804, sub := 3, len := 8, addr := 5 * 2 ^ 32 + part * 2 ^ 16 + count, noWin := true, payload := beBytes 8 (1032 * 2 ^ 48 + 2 ^ 40 + 1000) }

theorem witness_Bounds : ({ full with announceDue := true } : State).quiet ∧ full.announceDue = false ∧ full.bfUp 0 = true ∧ (boundsPkt 0 1).ptype = 0xA ∧ (boundsPkt 0 1).sub % 128 = 3 ∧
    (boundsPkt 0 1).addr / 2 ^ 16 % 65536 = 0 ∧ (boundsPkt 1 2).addr % 65536 = 2 ∧ full.boundsSets = [] ∧
    (let s := { full with planned := [.narrow 4 2] }; s.quiet ∧ ∀ j < 512, s.booked 4 j false ≤ (j + 1) * s.bucketBytes 4) ∧
    (let s := { full.set PKG_BOUND.SETTLING 1 with modes := { full.modes with settleAt := 9 } }; s.quiet ∧ s.get PKG_BOUND.SETTLING ≠ 0 ∧ s.modes.settleAt ≠ 0) := by
  unfold State.quiet; (repeat' apply And.intro) <;> decide +kernel

/-! ### Ledgers and interfaces -/

/-- Ledger 255 of cluster 63 lost count of an item. -/
def breached : State := full.setLedger (256 * 63 + 255) { full.ledger (256 * 63 + 255) with issued := 3, out := 1, returned := 1 }

/-- Two of the three interfaces of D0 have failed. -/
def severed : State :=
  [(0, 3), (1, 3), (0, 4), (2, 3)].foldl (fun s x => s.setLive (srcDie x.1 x.2) 0 true) full

theorem witness_LedgersAndInterfaces_cut : severed.quiet ∧ severed.d2dUp (d2dEnds 2).1 (d2dEnds 2).2 = true ∧ severed.healthy 0 = true ∧ severed.healthy 2 = true ∧
    severed.d2dUp 0 2 = false ∧ ¬ ∃ r ∈ severed.healthyDies, r ≠ 0 ∧ r ≠ 2 ∧ (severed.d2dUp 0 r = true ∧ ¬ (0 = 0 ∧ r = 3) ∧ ¬ (0 = 3 ∧ r = 0)) ∧
      (severed.d2dUp r 2 = true ∧ ¬ (r = 0 ∧ 2 = 3) ∧ ¬ (r = 3 ∧ 2 = 0)) := by
  unfold State.quiet; (repeat' apply And.intro) <;> decide +kernel

/-- Without its last interface D0 is cut off from every other die; of each pair the die without the lead is fenced, which D0 holds (R48). -/
theorem test_d2d_cut_off : (let s := (severed.setLive (srcDie 0 5) 0 true).setLive (srcDie 3 3) 0 true
    ((List.range 6).filter s.cutOff, (List.range 6).map s.cutLoser)) = ([0, 1, 2], [1, 2, 3, 2, 3, 3]) := by
  decide +kernel

theorem witness_LedgersAndInterfaces : breached.quiet ∧ (breached.ledger (256 * 63 + 255)).issued ≠ (breached.ledger (256 * 63 + 255)).out + (breached.ledger (256 * 63 + 255)).returned ∧ 67 < 68 ∧
    (breached.set PKG_MODE.MODE 10).quiet ∧ (breached.set PKG_MODE.MODE 1).quiet ∧ (2 ≤ breached.mode ∧ breached.mode ≠ 11) ∧ breached.routed ∧ breached.records = [] ∧
    (full.chip.fb512 = true ∧ 5 < 6 ∧ full.d2dUp (d2dEnds 5).1 (d2dEnds 5).2 = true) ∧
    (let s := full.set (EVT_SRC_A.LIVE (srcDie 0 3)) 1; s.quiet ∧ s.d2dUp (d2dEnds 0).1 (d2dEnds 0).2 = false) ∧
    (∃ r ∈ full.healthyDies, r ≠ 0 ∧ r ≠ 1 ∧ full.d2dUp 0 r = true ∧ full.d2dUp r 1 = true) ∧
    (∀ y < 6, ∃ r ∈ full.healthyDies, r ≠ (d2dEnds y).1 ∧ r ≠ (d2dEnds y).2 ∧ full.d2dUp (d2dEnds y).1 r = true ∧ full.d2dUp r (d2dEnds y).2 = true) ∧
    (let s := (putSec full (basinSec 3) (16 + 8 * 14) 4 1).setLedger (dieLedger 3 14) { total := 1, out := 1, issued := 1 }; s.quiet ∧ s.basinPresent 3 14 = true ∧
      (s.ledger (dieLedger 3 14)).total ≠ 0 ∧ (s.ledger (dieLedger 3 14)).total ≤ (s.ledger (dieLedger 3 14)).out) := by
  unfold State.quiet State.routed; (repeat' apply And.intro) <;> decide +kernel

/-! ### Chapter 01: the transaction engines -/

/-- Every instruction of Table 01-11 as its word, written out from OP, D, A, B and the immediate. -/
def engineWords : List (Nat × EngineOp) := [
    (0x00000000, .wait), (0x0682345A, .li 10 0x2345A), (0x0A82345A, .lix 10 0x2345A), (0x0E94C000, .add 10 5 3), (0x1294C000, .sub 10 5 3),
    (0x1694C000, .and 10 5 3), (0x1A94C000, .or 10 5 3), (0x1E94C000, .xor 10 5 3), (0x2294C000, .shl 10 5 3), (0x2694C000, .shr 10 5 3),
    (0x2A942A5B, .addi 10 5 0x2A5B), (0x2E942A5B, .andi 10 5 0x2A5B), (0x32942A5B, .shli 10 5 0x2A5B), (0x36942A5B, .shri 10 5 0x2A5B),
    (0x3A942A5B, .swap 10 5 0x2A5B), (0x42942A5B, .ld8 10 5 0x2A5B), (0x46942A5B, .ld16 10 5 0x2A5B), (0x4A942A5B, .ld32 10 5 0x2A5B),
    (0x4E942A5B, .ld64 10 5 0x2A5B), (0x52942A5B, .st8 10 5 0x2A5B), (0x56942A5B, .st16 10 5 0x2A5B), (0x5A942A5B, .st32 10 5 0x2A5B),
    (0x5E942A5B, .st64 10 5 0x2A5B), (0x6014EA5B, .beq 5 3 0x2A5B), (0x6414EA5B, .bne 5 3 0x2A5B), (0x6814EA5B, .bltu 5 3 0x2A5B),
    (0x6C14EA5B, .bgeu 5 3 0x2A5B), (0x7002345A, .jmp 0x2345A), (0x7402345A, .call 0x2345A), (0x78140000, .jr 5), (0x80140000, .send 5),
    (0x84140000, .issue 5), (0x8814C000, .reply 5 3), (0x8E800000, .time 10), (0x90140000, .timer 5), (0x9694C000, .amoFetchadd 10 5 3),
    (0x9694C001, .amoSwap 10 5 3), (0x9694C002, .amoCas 10 5 3), (0x98000000, .raise)]

theorem test_engine_words : (engineWords.all fun x => engineDecode x.1 = some x.2) = true := by decide +kernel

/-- Words with a reserved OP, and words with a bit of an unused field. -/
theorem test_engine_words_illegal : ([0x3C000000, 0x7C000000, 0x9C000000, 0x00000001, 0x0C000001, 0x04040000, 0x28004000, 0x60400000, 0x78000001, 0x94000003, 0x98000001].all fun w =>
    engineDecode w = none) = true := by decide +kernel

/-- Engine 511 runs, with registers, queue and reply; it stands before WAIT. -/
def engine (e : Engine) : State := { full with engines := [(511, { e with run := .running })] }

/-- Engine te stands before a word. -/
def before (s : State) (te word : Nat) : State := { s with program := [(4096 * te + (s.engine te).pc.toNat, BitVec.ofNat 32 word)] }

theorem witness_EngineArithmetic : (engine {}).quiet ∧ 511 < 512 ∧ (engine {}).engineRuns 511 = true ∧ (63#14).toNat < 64 ∧ (1 ≤ (3#14).toNat ∧ (3#14).toNat ≤ 3) ∧
    (let s := before (engine {}) 511 0x0C48C000; s.quiet ∧ s.engineRuns 511 = true ∧ s.fetched 511 = some (.add 1 2 3) ∧ s.fetched 511 ≠ some (.sub 1 2 3)) ∧
    (let s := before (engine {}) 511 0x38480003; s.quiet ∧ s.engineRuns 511 = true ∧ s.fetched 511 = some (.swap 1 2 3)) := by
  unfold State.quiet; (repeat' apply And.intro) <;> decide +kernel

/-- The last 8 bytes of data memory. -/
def atEnd : State := engine { g := [(1, 32760#64)] }

theorem witness_EngineLoads : atEnd.quiet ∧ atEnd.engineRuns 511 = true ∧ (((atEnd.engine 511).reg 1 + (0#14).signExtend 64).toNat + 8 ≤ 32768) ∧ 32760 % 8 = 0 ∧
    atEnd.wordState (dataAddr 511 (32760 / 8 * 8)) = 0 ∧ (let s := { atEnd with ecc := [(dataAddr 511 32760, 2)] }; s.quiet ∧ s.engineRuns 511 = true ∧ s.wordState (dataAddr 511 32760) = 2) ∧
    (let s := before atEnd 511 0x4C440000; s.quiet ∧ s.engineRuns 511 = true ∧ s.fetched 511 = some (.ld64 1 1 0)) := by
  unfold State.quiet; (repeat' apply And.intro) <;> decide +kernel

/-- An injection is armed on the data memory of engine 511. -/
def armed : State :=
  (((atEnd.set (DIE_EVT_INJECT.CHECKER 3) 5).set (DIE_EVT_INJECT.INSTANCE 3) 127).set (DIE_EVT_INJECT.MODE 3) 1).set (DIE_EVT_INJECT.REMAIN 3) 1

theorem witness_EngineStores : atEnd.injectMode (511 / 128) 5 (511 % 128) = 0 ∧ atEnd.quiet ∧ atEnd.engineRuns 511 = true ∧ armed.quiet ∧ armed.engineRuns 511 = true ∧
    armed.injectMode (511 / 128) 5 (511 % 128) = 1 ∧ (let s := before armed 511 0x5C440000; s.quiet ∧ s.engineRuns 511 = true ∧ s.fetched 511 = some (.st64 1 1 0)) := by
  unfold State.quiet; (repeat' apply And.intro) <;> decide +kernel

theorem witness_EngineBranches : (engine { pc := 4095 }).quiet ∧ (engine { pc := 4095 }).engineRuns 511 = true ∧ (4095#18).toNat < 4096 ∧
    (let s := before (engine { pc := 4095 }) 511 0x70000FFF; s.quiet ∧ s.engineRuns 511 = true ∧ s.fetched 511 = some (.jmp 4095)) := by
  unfold State.quiet; (repeat' apply And.intro) <;> decide +kernel

theorem witness_EngineAtomics : atEnd.quiet ∧ atEnd.engineRuns 511 = true ∧ atEnd.injectMode (511 / 128) 5 (511 % 128) = 0 ∧ ((atEnd.engine 511).reg 1).toNat + 8 ≤ 32768 ∧
    ((atEnd.engine 511).reg 1).toNat % 8 = 0 ∧ atEnd.wordState (dataAddr 511 32760) = 0 ∧
    (let s := before atEnd 511 0x94848002; s.quiet ∧ s.engineRuns 511 = true ∧ s.fetched 511 = some (.amoCas 2 1 2)) := by
  unfold State.quiet; (repeat' apply And.intro) <;> decide +kernel

/-- An item of kind 5. -/
def item5 : EngineItem := { kind := 5, port := 8, ctx := 3, payload := [1, 2] }

theorem witness_EngineItems : full.quiet ∧ 511 < 8 * full.numClusters ∧ item5.kind < 7 ∧ item5.payload.length ≤ 256 ∧ item5.header.length ≤ 32 ∧ (full.engine 511).run = .waiting ∧ (full.engine 511).queue = [] ∧
    full.ecc = [] ∧ full.injectMode (511 / 128) 5 (511 % 128) = 0 ∧ (engine {}).quiet ∧ ((engine {}).engine 511).run = .running ∧ (engine {}).engineRuns 511 = true ∧
    ((engine { queue := [(item5, .none, 4)] }).engine 511).queue = [(item5, .none, 4)] ∧ (engine { queue := [(item5, .none, 4)] }).engineRuns 511 = true ∧
    32 ≤ ((engine { queue := List.replicate 32 (item5, .none, 4) }).engine 511).queue.length ∧
    (let s := { full with engines := [(511, { run := .halted })] }; s.quiet ∧ (s.engine 511).run = .halted) ∧ ((engine { timer := some 9 }).engine 511).timer = some 9 ∧
    (let s := { full with engines := [(511, { timer := some 9 })] }; s.quiet ∧ (s.engine 511).timer = some 9 ∧ (s.engine 511).run = .waiting ∧ (s.engine 511).queue = []) ∧
    (engine {}).fetched 511 = some .wait ∧ (let s := before (engine {}) 511 0x90040000; s.quiet ∧ s.engineRuns 511 = true ∧ s.fetched 511 = some (.timer 1) ∧ s.fetched 511 ≠ some .wait) ∧
    ({ item5 with kind := 3 } : EngineItem).replyTo = .pcie 8 0 0 true ∧ ((engine { reply := .pcie 8 0 0 true }).engine 511).reply ≠ .none := by
  unfold State.quiet; (repeat' apply And.intro) <;> decide +kernel

theorem witness_EngineFaults : (engine {}).quiet ∧ ((engine {}).engine 511).run = .running ∧ ((engine {}).engine 511).queue = [] ∧ (engine {}).engineRuns 511 = true ∧
    (engine { queue := [(item5, .none, 4)] }).ecc = [] ∧ 32768 ≤ (((engine { g := [(1, 32768#64)] }).engine 511).reg 1).toNat ∧ 32768 < 32761 + 8 ∧ 32761 % 8 ≠ 0 ∧ 4096 ≤ (4096#18).toNat ∧
    64 ≤ (64#14).toNat ∧ 3 < (4#14).toNat ∧ 511 % 2 = 1 ∧ (engine {}).isPd (4 * (510 / 8) + 510 % 8 / 2) = false ∧ 1048576 ≤ ((engine { retired := 1048576 }).engine 511).retired ∧ ((engine {}).engine 511).retired < 1048576 ∧
    (let s := before (engine {}) 511 0x98000001; s.quiet ∧ s.engineRuns 511 = true ∧ s.fetched 511 = none) ∧
    (let s := before (engine {}) 511 0x98000000; s.quiet ∧ s.engineRuns 511 = true ∧ s.fetched 511 = some .raise ∧ s.fetched 511 ≠ none) ∧
    (let s := before (engine {}) 511 0x70001000; s.quiet ∧ s.engineRuns 511 = true ∧ s.fetched 511 = some (.jmp 4096)) := by
  unfold State.quiet; (repeat' apply And.intro) <;> decide +kernel

/-- Engine 16 of PD port 8 runs, with an outbox. -/
def sends (word0 : Nat) (reply : ReplyTo) : State :=
  { full with engines := [(16, { run := .running, reply := reply })], dataMem := putBytes [] (32768 * 16 + 0x7E00) (leBytes 8 word0) }

theorem witness_EnginePackets : (sends (256 * 2 ^ 8) .none).quiet ∧ (sends 0 .none).engineRuns 16 = true ∧
    (let s := sends 0 .none; (headerOf 0 0 0 0).src ≠ s.fabricId (256 + 16) → ∃ p < 256, s.localPort (headerOf 0 0 0 0).src = some p) ∧
    16 % 2 = 0 ∧ full.isPd (4 * (16 / 8) + 16 % 8 / 2) = true ∧ full.pcieUp 8 = true ∧ (full.ledger (portLedger 8 27)).room 1 = true ∧ 2 ^ 60 / 2 ^ 60 % 16 = 1 ∧
    ((sends 0 (.pcie 8 1 0 true)).engine 16).reply = .pcie 8 1 0 true ∧ ((sends 0 (.burek (readFor 5 8))).engine 16).reply = .burek (readFor 5 8) ∧
    (readFor 5 8).src / 1024 ≠ full.rank ∧ full.transitOf (readFor 5 8) = none ∧ (full.pathFrom (16 / 8) (full.egress (16 / 8 / 16) (readFor 5 8).src)).isSome = true ∧
    (let s := before (sends 0 .none) 16 0x80040000; s.quiet ∧ s.engineRuns 16 = true ∧ s.fetched 16 = some (.send 1)) ∧
    (let s := before (sends (2 ^ 60) .none) 16 0x84040000; s.quiet ∧ s.engineRuns 16 = true ∧ s.fetched 16 = some (.issue 1)) ∧
    (let s := (sends (2 ^ 60) .none).set (PORT_PCIE.RATE 8) 5
     let s := before (putSec (s.set (PORT_PCIE.ACTIVE_WIDTH 8) 4) (laneSec 2) 1 1 5).recomputeBounds 16 0x84040000
     s.quiet ∧ s.engineRuns 16 = true ∧ s.fetched 16 = some (.issue 1) ∧ s.pcieUp 8 = true ∧ (s.issueTlp 16 (s.linkTag 8)).isSome = true ∧
       ((s.issueTlp 16 (s.linkTag 8)).all fun x => s.issueFits 8 x true) = true) ∧
    (let s := before (sends 0 (.pcie 8 1 0 true)) 16 0x88048000; s.quiet ∧ s.engineRuns 16 = true ∧ s.fetched 16 = some (.reply 1 2) ∧ s.owedItem 8 1 0 = none) ∧
    (let s := { before (sends 0 (.pcie 8 1 0 true)) 16 0x88048000 with
       outstanding := [{ id := 1, port := 8, ptype := 0, noWin := true, tlp := some { kind := .cfgRead false, reqId := 0, tag := 1, target := 0 } }] }
     s.quiet ∧ s.engineRuns 16 = true ∧ s.fetched 16 = some (.reply 1 2) ∧ (s.owedItem 8 1 0).isSome = true) := by
  unfold State.quiet; (repeat' apply And.intro) <;> decide +kernel

/-! ### Further clauses of the statements above -/

/-- Without an entry of the Toll Table the accesses of CP0 of rank 1 are refused; it holds semaphore 5. -/
theorem witness_InbandServer_denied :
    let s := (full.set (SEM.HELD 5) 1).set (SEM.HOLDER 5) 1805
    let a := WIN_BASE.addr 0
    s.quiet ∧ s.routed ∧ 2 ≤ s.mode ∧ s.bitOf PKG_MGT_ACCEPT.VALUE 1 = true ∧ s.routeBf s.leadDie 1805 = some 0 ∧ s.hasReg a = true ∧
      s.gateway (.inband 1805 false) false a = .go ∧ s.gateway (.inband 1805 false) true a = .go ∧
      s.tollCheck (s.dieOfAddr a) (s.subject (.inband 1805 false)) .read 0xFFFE a = .refuse 1 0xFFFF ∧
      s.tollCheck (s.dieOfAddr a) (s.subject (.inband 1805 false)) .write 0xFFFE a = .refuse 1 0xFFFF ∧ 1805 / 1024 ≠ s.rank ∧ full.fabricId 781 / 1024 = full.rank := by
  unfold State.quiet State.routed; (with_reducible repeat' apply And.intro) <;> decide +kernel

theorem witness_PartialReloads_usable : (let s := stagedAt full 16 .reserve; s.quiet ∧ s.routed ∧ s.writable cp0 PKG_SBS_CTL.addr ∧ s.holdsSem cp0 0 = true ∧ s.mode = 6 ∧
      s.sec (basinSec (3 / 4)) 0 1 = 1 ∧ s.staged.active = true ∧ s.staged.home = .reserve) ∧
    (let s := { stagedAt full 16 .reserve with dir := { full.dir with slotB := .valid } }; s.quiet ∧ s.writable cp0 PKG_SBS_CTL.addr ∧ s.dir.slotB = .valid) ∧
    (sem0 full).sec (basinSec (15 / 4)) 0 1 ≠ 1 ∧ (reloads .draining).undelivered = [] := by
  unfold State.writable State.routed State.quiet; (with_reducible repeat' apply And.intro) <;> decide +kernel

theorem witness_JoiningTheDomain_conditions :
    (let s := { joining 63 with time := { full.time with stepped := true, locked := true } }; s.quiet ∧ s.mode = 5 ∧ s.joinFollows (s.get PKG_MODE.JOIN) = 63) ∧ (joining 0).joinFollows 32 ≠ 63 ∧ ((joining 0).bfPorts.filter fun p => (joining 0).bfUp p && !(joining 0).boundsSeen p) = [0] ∧
    (let s := putSec (joining 63) (portSec 0) 0 1 0; s.quiet ∧ s.mode = 5 ∧ s.bfPorts = []) ∧ (full.set PKG_MODE.MODE 9).undelivered = [] := by
  unfold State.quiet; (with_reducible repeat' apply And.intro) <;> decide +kernel

/-- The bounds of the ports are published; BF port 0 knows its round trip, and may sleep while its die throttles. -/
def flown : State := (putSec (State.set { rated with links := [(0, { flight := some 100 })] } (PORT_BOND.TX_MASK 0) 0xFF) powerSec 64 1 2).recomputeBounds

/-- Whatever the open capacity of the stream is, the sample of a die with no items waiting meets one of the two clauses. -/
theorem witness_PowerSamples_stream : ((full.queue (.power 3)).items.length < Config.powerStream ∨ Config.powerStream ≤ (full.queue (.power 3)).items.length) ∧ flown.quiet ∧ flown.policy 0 = 2 ∧
    0 ∈ flown.bfPorts ∧ (flown.set (DIE_PWR.THROTTLING 0) 1).lengthens = true ∧ (full.set (DIE_PWR.THROTTLING 0) 1).lengthens = false := by
  refine ⟨by omega, ?_⟩
  unfold State.quiet; (with_reducible repeat' apply And.intro) <;> decide +kernel

theorem witness_CountersAndSelections_lengthens : flown.writable cp0 (PORT_LOCK.addr 8) ∧ flown.get (PORT_LOCK.LOCKABLE 8) = 0 ∧ (flown.set (PORT_LOCK.LOCKABLE 8) 1).lengthens = true ∧
    full.lengthens = false := by
  unfold State.writable State.quiet; (with_reducible repeat' apply And.intro) <;> decide +kernel

/-- An injection is aimed at crossing 8 of cluster 0, through which lane 0 sends. -/
def aimed : State := ((full.set (DIE_EVT_INJECT.CHECKER 0) 0x0B).set (DIE_EVT_INJECT.INSTANCE 0) 8).set (DIE_EVT_INJECT.MODE 0) 1

/-- Lane 7 of port 0 trains outside the mask, and stands in a codeword. -/
def halfSent (n : Nat) : State :=
  { (((linked { dozing := n, wakeAt := some 5 }).set (PORT_BOND.TX_MASK 0) 0x7F).set (LN_STATE.TRAIN_STATE 7) 2).set (LN_STATE.TX_SLEEP 7) 0 with lanes := [(7, { half := [1] })] }

theorem witness_Lanes_crossings : full.sendsClear 0 ∧ full.crossClear 0 0 ∧ ¬ full.lanePort 0 = none ∧ (let s := (aimed.set (DIE_EVT_INJECT.REMAIN 0) 1); s.quiet ∧ ¬ s.crossClear 0 8) ∧
    (halfSent 2).quiet ∧ (∀ p < 256, (halfSent 2).laned p) ∧ 7 ∈ (halfSent 2).portLanes 0 ∧ (halfSent 2).get (LN_STATE.TRAIN_STATE 7) = 2 ∧ (halfSent 2).get (LN_STATE.TX_SLEEP 7) = 0 ∧
    ((halfSent 2).laneSt 7).half ≠ [] ∧ ((halfSent 2).link 0).wakeAt = some 5 ∧ ((halfSent 2).link 0).switch = [] ∧
    (let s := { halfSent 2 with lanes := [] }; s.quiet ∧ ∀ k ∈ s.portLanes 0, (s.laneSt k).half = []) ∧ (linked { switch := [(0xF, 9, 1)] }).sendsClear 0 := by
  unfold State.quiet State.sendsClear State.crossClear State.laned; (with_reducible repeat' apply And.intro) <;> decide +kernel

/-- The program of engine te has a word of the integrator's own for a kind. -/
def ownProgram (s : State) (te kind : Nat) : State := { s with program := [(4096 * te + kind, 0x98000000#32)] }

/-- The handler engine of a port serves each kind in full; with a program of its own, or halted, it does not. -/
theorem witness_handlers : full.serves 4 3 = true ∧ full.serves 4 4 = true ∧ full.serves 8 1 = true ∧
    (∀ kind ∈ [3, 4], let s := ownProgram full 8 kind; s.quiet ∧ s.serves 4 kind = false ∧ (s.engine (handlerOf 4)).run = .waiting ∧ (s.engine (handlerOf 4)).queue = []) ∧
    (let s := { full with engines := [(8, { run := .halted })] }; s.quiet ∧ s.serves 4 3 = false ∧ s.serves 4 4 = false) ∧
    (let s := { ownProgram full 8 4 with engines := [(8, { run := .running, queue := List.replicate 32 (item5, .none, 4) })] }; s.quiet ∧ s.serves 4 4 = false ∧
      32 ≤ (s.engine (handlerOf 4)).queue.length) ∧
    (let s := ownProgram (lock 0 0 0) 16 1; s.quiet ∧ s.serves 8 1 = false ∧ (s.ledger (portLedger 8 27)).room 1 = true) := by
  unfold State.quiet; (with_reducible repeat' apply And.intro) <;> decide +kernel

/-- No tag of the pool of PD port 8 is free. -/
def tagless : State := (lock 0 0 0).setLedger (portLedger 8 27) { total := 1, out := 1, issued := 1 }

theorem witness_LockedSequences_tags : ((lock 0 0 0).ledger (portLedger 8 27)).room 1 = true ∧ tagless.quiet ∧ (tagless.ledger (portLedger 8 27)).room 1 = false ∧
    (∀ ty ∈ [5, 6, 9], (permitAll (lock 3 5124 1) 0 0xFFFF).tollCheck 0 { id := (lockPkt 5124 ty).src, partition := some 5 } (lockPkt 5124 ty).kind (lockPkt 5124 ty).dest (lockPkt 5124 ty).checkedAddr = .permit ∧
      (lock 3 5124 1).tollCheck 0 { id := (lockPkt 5124 ty).src, partition := some 5 } (lockPkt 5124 ty).kind (lockPkt 5124 ty).dest (lockPkt 5124 ty).checkedAddr ≠ .permit) ∧
    (permitAll (lock 3 5124 1) 0 0xFFFF).quiet ∧ ¬ ((lock 3 5124 1).portLock 8).owner = full.fabricId 4 ∧
    (let s := { lock 3 5124 1 with configJobs := [{ port := 8, pkt := lockPkt 777 9, received := 0, retrying := true, issued := true }] }; s.quiet ∧ s.lockedOut 8 (lockPkt 777 9) = true) ∧
    (let s := putSec (lock 3 5124 1) (basinSec 0) (16 + 8 * 14) 4 64; s.quiet ∧ s.basinPresent 0 14 = true ∧ (s.ledger (dieLedger 0 14)).room (lockPkt 777 9).credits = true) := by
  unfold State.quiet; (with_reducible repeat' apply And.intro) <;> decide +kernel

theorem witness_InterruptsAndMessages_locked : full.sourceValid 8 { tlp .memRead 0 with reqId := 256 } = true ∧ full.sourceValid 8 { tlp .memRead 0 with reqId := 0x0210 } = false ∧
    (let s := putSec (lock 3 5124 1) (basinSec 0) (16 + 8 * 14) 4 64
     s.quiet ∧ s.basinPresent (portDie 8) 14 = true ∧ s.roomSum [⟨dieLedger (portDie 8) 14, { ptype := 8 : Packet }.credits⟩] = true ∧ s.pcieUp 8 = true ∧
      ((s.vdsps 4).flatMap fun v => (s.behind 4 v).filter fun b => b.kind = 1 && b.target / 1024 = s.rank && s.pcieUp (b.target % 1024)).map (·.target) = [s.fabricId 8] ∧
      s.isPd 8 = true ∧ s.get (PORT_LOCK.LOCKED 8) = 1 ∧ (s.portLock 8).owner ≠ s.fabricId 4) ∧ full.get (PORT_LOCK.LOCKED 8) = 0 := by
  unfold State.quiet; (with_reducible repeat' apply And.intro) <;> decide +kernel

/-- A read of another package for a third, whose reservation a reset took back. -/
def transit (answered : Bool) : State :=
  { arrived [{ cpl with dest := 5 * 1024 + 4, src := 6 * 1024 + 8, tag := 3 }] with
    outstanding := [{ id := 1, port := 0, ptype := 1, transit := true, answered := answered, native := some (readFor 6 8) }] }

theorem witness_PacketsArriveAndMove_more : (∀ a ∈ [false, true], (transit a).quiet ∧ (transit a).malformed 0 { cpl with dest := 5 * 1024 + 4, src := 6 * 1024 + 8, tag := 3 } = false ∧
      (transit a).ingressQ 4 = [] ∧ ∀ o ∈ (transit a).outstanding, o.transit = true ∧ o.native = some (readFor 6 8) ∧ (readFor 6 8).src = 5 * 1024 + 4 ∧ (readFor 6 8).tag = 3 ∧ o.answered = a) ∧
    (let s := { arrived [cpl] with outstanding := (awaits false).outstanding }; s.quiet ∧ (s.link 0).arrived = [(cpl, 7)] ∧ s.malformed 0 cpl = false ∧ (s.findPiece cpl.dest cpl.tag).isSome = true) ∧
    (placing [] 1000).placeable 1000 = (placing [] 1000).waiting ∧ (placing [] 1000).waiting.length = 1 ∧ (∀ w ∈ (placing [] 1000).waiting, w.credit ≠ []) ∧
    (placing [] 1000).bfUp 0 = true ∧ (placing [] 101).quiet ∧ (choose ((placing [] 101).placeable 101)).isSome = true ∧
    (let s := (placing [] 1000).set (PORT_LINK.LL_STATE 0) 1; s.quiet ∧ s.bfUp 0 = false ∧ s.portDark 0 = false ∧ s.placeable 1000 = s.waiting) ∧
    (let s := { full with waiting := [{ point := 1004, pkt := cpl, tlps := [cplFor (tlp .memRead 0) .ca 0 []], credit := [{ ledger := portLedger 4 6, units := 1 }] }] }
     s.quiet ∧ s.placeable 1004 = s.waiting ∧ (∀ w ∈ s.waiting, w.tlps ≠ [] ∧ w.credit ≠ [] ∧ s.refuses 4 w = false)) ∧
    (let s := { full.set (PORT_PCIE.LINK_STATE 4) 4 with waiting := [{ point := 1004, pkt := cpl, tlps := [cplFor (tlp .memRead 0) .ca 0 []] }] }
     s.quiet ∧ s.placeable 1004 = s.waiting ∧ s.get (PORT_PCIE.LINK_STATE 4) ≠ 3 ∧ ∀ w ∈ s.waiting, s.refuses 4 w = false) ∧
    (let s := { full with waiting := [{ point := 201, path := [1000], pkt := cpl }], ledgers := [(dieLedger 0 68, { total := 1, out := 1, issued := 1 })] }
     s.quiet ∧ s.placeable 201 = s.waiting ∧ ∀ w ∈ s.waiting, (((s.unwait w).returnAll (inFlightOf w)).ledger (dieLedger 0 68)).room w.pkt.credits = false) ∧
    (∀ x ∈ [({ port := 8, tag := 1, pkt := some (readFor 5 8), timedOut := true, answered := true } : DeviceRequest), { port := 8, tag := 1, pkt := some (readFor 5 8), answered := true }],
      (let s := { full with device := [x] }; s.quiet ∧ (s.device.find? fun d => d.port = 8 && d.tag = 1 && !d.waitAck) = some x)) := by
  unfold State.quiet; (with_reducible repeat' apply And.intro) <;> decide +kernel

theorem witness_PcieLinks_restoring : let s := { linkDown 4 with modes := { full.modes with restoring := [4] } }; s.quiet ∧ 4 ∈ s.modes.restoring ∧ s.mayTrain 4 = true ∧ 4 ∉ full.modes.restoring := by
  unfold State.quiet; (with_reducible repeat' apply And.intro) <;> decide +kernel

/-- What an engine owes to a requester of another package, for longer than its bound. -/
def owing : State := { full with engines := [(8, { owed := [(.burek (readFor 0 8 |> fun k => { k with src := 5 * 1024 + 4 }), 0)] })], cycles := 10 ^ 12 }

theorem witness_Admission_owed : owing.quiet ∧ (∀ y ∈ (owing.engine 8).owed, y.2 + owing.surrogateBound ≤ (owing.waitUntil (owing.now + 80 * ticksPerNs)).now ∧
      ∃ k, y.1 = .burek k ∧ k.src / 1024 ≠ owing.rank) ∧ tabWf (fun _ => {}) awaited.engines = true := by
  unfold State.quiet; refine ⟨by (with_reducible repeat' apply And.intro) <;> decide +kernel, ?_, by decide +kernel⟩
  intro y h
  refine ⟨?_, ?_⟩
  · revert y; decide +kernel
  · simp only [show (owing.engine 8).owed = [(.burek (readFor 0 8 |> fun k => { k with src := 5 * 1024 + 4 }), 0)] from by decide +kernel, List.mem_singleton] at h
    exact ⟨_, by rw [h], by decide +kernel⟩

/-- The Unlock of the holder of the package lock stands at its port. -/
def unlocking : State :=
  let s := sluice { write48 with pkts := [{ lockPkt (full.fabricId 4) 6 with dest := full.fabricId 8, len := 0, addr := 0, fbe := 0 }] }
  (((s.set PKG_LOCK.STATE 2).set PKG_LOCK.OWNER (full.fabricId 4)).set PKG_LOCK.OWNER_PART 5).set PKG_LOCK.TARGET (full.fabricId 8)

theorem witness_Admission_unlock : unlocking.quiet ∧ (∀ x ∈ unlocking.ingressQ 64, unlocking.evaluate 64 x false = .go ∧ unlocking.tooLong 1 x = false ∧ x.transit = false ∧
    ∀ k ∈ x.pkts, k.ptype = 6 ∧ k.isCompletion = false ∧ unlocking.get PKG_LOCK.TARGET = k.dest ∧
      (permitAll unlocking 0 0xFFFF).tollCheck 0 ((permitAll unlocking 0 0xFFFF).ingressSubject 4 k 0) k.kind k.dest k.checkedAddr = .permit) ∧ unlocking.get PKG_LOCK.OWNER = unlocking.fabricId 4 := by
  unfold State.quiet; (with_reducible repeat' apply And.intro) <;> decide +kernel

theorem witness_SurrogateAnswers_device : (let s := { full with device := [{ port := 8, tag := 1, pkt := some (readFor 5 8), answered := true }] }
      s.quiet ∧ (s.device.find? fun d => d.port = 8 && d.tag = 1 && !d.waitAck && d.answered && !d.timedOut).isSome = true) ∧
    (let k := { readFor 5 8 with dest := full.fabricId 8 }
     let s := { full with device := [{ port := 8, tag := 1, pkt := some k }], outstanding := [{ id := 1, port := 0, ptype := 1, transit := true, native := some k }] }
     s.quiet ∧ (s.transitOf k).isSome = true ∧ k.src / 1024 ≠ s.rank) := by
  unfold State.quiet; (with_reducible repeat' apply And.intro) <;> decide +kernel

theorem witness_LedgersAndInterfaces_tally : (full.ledger (dieLedger 0 (67 + d2dIndex 0 1))).returned = 0 ∧ (full.ledger (dieLedger 1 (67 + d2dIndex 1 0))).returned = 0 ∧
    (let s := full.setLedger (dieLedger 0 (67 + d2dIndex 0 1)) { issued := 3, returned := 3, reclaimed := 1 }
     s.quiet ∧ (s.ledger (dieLedger 0 (67 + d2dIndex 0 1))).returned - (s.ledger (dieLedger 0 (67 + d2dIndex 0 1))).reclaimed = 2 ∧ s.d2dUp 0 1 = true) := by
  unfold State.quiet; (with_reducible repeat' apply And.intro) <;> decide +kernel

/-- Items of more than 256 bytes, for a host and for a requester of another package. -/
theorem witness_EngineItems_long : (full.quiet ∧ ({ kind := 3, port := 8, payload := List.replicate 257 0 } : EngineItem).replyTo = .pcie 8 0 0 true) ∧
    (full.pathFrom (511 / 8) (full.egress (511 / 128) (5 * 1024 + 4))).isSome = true ∧ full.clusterHeld (511 / 8) = false ∧ full.transitOf (readFor 0 767) = none ∧
    ({ kind := 5, payload := List.replicate 257 0 } : EngineItem).replyTo = .none := by
  unfold State.quiet; (with_reducible repeat' apply And.intro) <;> decide +kernel

theorem witness_EngineFaults_lost : (let s := { engine {} with ecc := [(programAddr 511 0, 2)] }; s.quiet ∧ (s.engine 511).run = .running ∧ s.wordLost 511 = true) ∧ (engine {}).wordLost 511 = false := by
  unfold State.quiet; (with_reducible repeat' apply And.intro) <;> decide +kernel

theorem witness_EnginePackets_locked : (let s := (sends (2 ^ 60) .none).set (PORT_LOCK.LOCKED 8) 1
     let s := before s 16 0x84040000
     s.quiet ∧ s.engineRuns 16 = true ∧ s.fetched 16 = some (.issue 1) ∧ s.get (PORT_LOCK.LOCKED 8) = 1) ∧ (sends (2 ^ 60) .none).get (PORT_LOCK.LOCKED 8) = 0 := by
  unfold State.quiet; (with_reducible repeat' apply And.intro) <;> decide +kernel

/-! ### The whole machine -/

theorem witness_FrontCommandRuns : ({ full with pending := [.resetBAssert, .timePulse] } : State).pending.length = 2 := rfl

theorem witness_EmptyQueueTicks : State.reset.quiet ∧ State.reset.pending = [] ∧ State.reset.time.parent = none := by
  unfold State.quiet; (repeat' apply And.intro) <;> decide +kernel

theorem witness_StepInvariant : State.reset.Inv ∧ ∃ t, step { State.reset with pending := [.resetBAssert] } = .next t := by
  refine ⟨?_, _, rfl⟩
  unfold State.Inv State.identified; decide +kernel

theorem witness_FaultHaltStays : (full.set PKG_MODE.MODE 11).mode = 11 ∧ ∃ t, step { full.set PKG_MODE.MODE 11 with pending := [.resetBAssert] } = .next t :=
  ⟨by decide +kernel, _, rfl⟩

/-! ### Values that the spec states -/

theorem test_reset_idles : (match step State.reset with | .next t => t.cycles == 1 | _ => false) = true := by decide

/-- Worked for lane LN297 (chapter 01): its cluster block, and the numbers of its ports. -/
theorem test_lane_297 : 297 / 8 = 37 ∧ clusterBase 37 = 0x22500000 ∧ ((List.range 4).map (4 * 37 + ·)) = [148, 149, 150, 151] := by decide

/-- Table 01-2: its placements are legal; a fifth port on lane 4 beside four x1 ports that take lanes 0 to 3 has no slot, and an x4 port on lane 2 breaks R27. -/
theorem test_placements : (port State.reset 0 1 3 0).placed 0 = true ∧ (port (port State.reset 0 1 2 0) 1 1 2 4).placed 0 = true ∧
    (port (port (port (port State.reset 0 1 2 0) 1 1 1 4) 2 1 0 6) 3 1 0 7).placed 0 = true ∧ (port State.reset 0 1 2 2).placed 0 = false ∧
    (port (port State.reset 0 1 2 0) 1 1 1 2).placed 0 = false := by
  (repeat' apply And.intro) <;> decide +kernel

/-- Write A of the worked flits (chapter 04), as its header elements give it. -/
def writeA : Packet :=
  { ptype := 2, vc := 0, cls := 2, dest := 0x442A, src := 0x0C05, tag := 0x123, len := 256, window := 0x406, fbe := 0xFF, lbe := 0xFF, addr := 0x4000001000, partition := 5, deadline := 0x5D1E8A00 }

theorem test_worked_header : headerOf 0x22442A0C05048C00 0x0800040600FFFF00 0x0000004000001000 0x014000005D1E8A00 = writeA ∧
    writeA.elements = [0x22442A0C05048C00, 0x0800040600FFFF00, 0x0000004000001000, 0x014000005D1E8A00] := by decide +kernel

/-- Table 04-4. -/
theorem test_credit_costs : ({ ptype := 1, len := 128 } : Packet).credits = 1 ∧ ({ ptype := 2, len := 64 } : Packet).credits = 3 ∧ ({ ptype := 2, len := 6, addr := 3 } : Packet).credits = 2 ∧
    writeA.credits = 9 ∧ ({ ptype := 0xB, len := 32 + 4096 } : Packet).credits = 130 := by decide +kernel

/-- Flit n of the worked flits: its first element up to CR0, which reports CPL Standard. -/
theorem test_worked_flit : let s := (linked { session with crIndex := 7, returned := [0, 0, 0x15, 0, 0, 0, 0, 0x2A0, 0, 0, 0, 0] }).set (PORT_LINK.RX_EXPECT 0) 0xF1
    ((s.flitHeader 0 1 0x102 0 (s.ackNow 0)).headD 0).toNat / 64 = 0x104080F08024A808 / 64 := by decide +kernel

/-- The window of the worked examples of chapter 06, which reverses elements of 4 bytes. -/
def reversing : Window := { n := 1032, base := 0x3800000000, limit := 0x3800FFF000, remote := 0x80000000, attr := 0x8280500A82000000 }

theorem test_worked_window : reversing.kind = 0 ∧ reversing.target = 0x500A ∧ reversing.partition = 5 ∧ reversing.cls = 1 ∧ reversing.acknowledged = false ∧ reversing.element = 4 := by decide +kernel

/-- Table 06-7. -/
theorem test_six_byte_write :
    let t : Tlp := { kind := .memWrite, addr := 0x3800041000, len := 12, firstBe := 8, lastBe := 1, data := [0, 0, 0, 0xAA, 0xBB, 0xCC, 0xDD, 0xEE, 0xFF, 0, 0, 0] }
    t.firstByte = 0x3800041003 ∧ (piecesOf {} reversing (0x80041003 - 3) t.enabledOffsets t.data true).map (fun k => (k.addr, k.len, k.fbe, k.lbe, k.payload)) =
      [(0x80041000, 1, 0x01, 0, [0xAA]), (0x80041004, 4, 0xF0, 0, [0xEE, 0xDD, 0xCC, 0xBB]), (0x8004100B, 1, 0x08, 0, [0xFF])] := by decide +kernel

/-- The first element of the 4 KiB write of chapter 06. -/
theorem test_first_element :
    (piecesOf {} reversing 0x80040000 (List.range 8) [0x44, 0x33, 0x22, 0x11, 0x88, 0x77, 0x66, 0x55] true).map (fun k => (k.addr, k.payload)) =
      [(0x80040000, [0x11, 0x22, 0x33, 0x44, 0x55, 0x66, 0x77, 0x88])] := by decide +kernel

/-- Table 08-4: bytes of an 80 ns bucket. -/
theorem test_bucket_bytes : pcieCapacity 7 16 true / 16640 = 18880 ∧ pcieCapacity 6 8 true / 16640 = 4720 ∧ pcieCapacity 5 16 false / 16640 = 5041 := by decide +kernel

/-- The sources of PD port 40 (worked example of chapter 10), and the offset of WIN_STATE of window 1,031 and the command that reads it (chapter 17). -/
theorem test_worked_addresses : srcLink 40 = 648 ∧ srcTxn 40 = 652 ∧ srcPcie 40 = 656 ∧ WIN_STATE.addr 1031 = 0x121101E0 ∧
    getBits 0x0D400000121101E1#64 58 6 = 3 ∧ getBits 0x0D400000121101E1#64 56 2 = 1 ∧ getBits 0x0D400000121101E1#64 54 2 = 1 ∧ 8 * getBits 0x0D400000121101E1#64 3 27 = 0x121101E0 := by
  decide +kernel

end Sys2Proof.Tests
end

