-- ==== Sys2Proof/Proofs/TollRegisters.lean ====
section
/-! Where the Toll's registers stand: no register that the work in progress or a counter updates is TOLL_CTL or a word of an entry. -/

namespace Sys2Proof.Machine

/-! ### Offsets within a die's block -/

/-- The offset a is in no die's block where TOLL_CTL or the Toll Table stands (Tables 17-1 and 17-7). -/
def offToll (a : Nat) : Prop :=
  a < 0x10000000 ∨ a % 0x08000000 ≠ 0x80 ∧ (a % 0x08000000 < 0x1000000 ∨ 0x1081000 ≤ a % 0x08000000)

theorem offToll_package {a : Nat} (h : a < 0x10000000) : offToll a := .inl h

theorem offToll_die {d o : Nat} (h : 0x88 ≤ o ∧ o < 0x1000000) : offToll (dieBase d + o) := by
  unfold offToll dieBase
  omega

theorem offToll_cluster {c o : Nat} (h : o < 0x100000) : offToll (clusterBase c + o) := by
  unfold offToll clusterBase dieBase
  omega

theorem offToll_lane {l o : Nat} (h : o < 0x100) : offToll (laneBase l + o) := by
  unfold offToll laneBase clusterBase dieBase
  omega

theorem offToll_port {p o : Nat} (h : o < 0x200) : offToll (portBase p + o) := by
  unfold offToll portBase clusterBase dieBase
  omega

theorem offToll_controlPort {n o : Nat} (h : o < 0x800) : offToll (cpBase n + o) :=
  offToll_package (by unfold cpBase; split <;> omega)

theorem offToll_event {e o : Nat} (h : o < 32) : offToll (eventBase e + o) := by
  unfold eventBase
  split
  · rw [Nat.add_assoc, Nat.add_assoc]
    exact offToll_cluster (by omega)
  · split
    · rw [Nat.add_assoc, Nat.add_assoc]
      exact offToll_die (by omega)
    · exact offToll_package (by omega)

/-- The first register of a block. -/
theorem offToll_clusterBase (c : Nat) : offToll (clusterBase c) := by simpa using offToll_cluster (c := c) (o := 0) (by decide)
theorem offToll_laneBase (l : Nat) : offToll (laneBase l) := by simpa using offToll_lane (l := l) (o := 0) (by decide)
theorem offToll_portBase (p : Nat) : offToll (portBase p) := by simpa using offToll_port (p := p) (o := 0) (by decide)
theorem offToll_cpBase (n : Nat) : offToll (cpBase n) := by simpa using offToll_controlPort (n := n) (o := 0) (by decide)
theorem offToll_eventBase (e : Nat) : offToll (eventBase e) := by simpa using offToll_event (e := e) (o := 0) (by decide)

theorem not_offToll_entry (d i k : Nat) : ¬ offToll (TOLL.addr d i k) := by
  unfold offToll TOLL.addr dieBase
  omega

theorem not_offToll_ctl (d : Nat) : ¬ offToll (TOLL_CTL.addr d) := by
  unfold offToll TOLL_CTL.addr dieBase
  omega

/-- An entry is named by its die, its number and the number of its word. -/
theorem entryAddr_inj {d i j k l : Nat} (hi : i < 16384) (hj : j < 16384) (hk : k < 4) (hl : l < 4) :
    TOLL.addr d i k = TOLL.addr d j l ↔ i = j ∧ k = l := by
  unfold TOLL.addr
  omega

theorem ctlAddr_ne_entry (d e i k : Nat) : TOLL_CTL.addr d ≠ TOLL.addr e i k := by
  unfold TOLL_CTL.addr TOLL.addr dieBase
  omega

/-! ### The registers of the frames -/

theorem offToll_of_eventReg {a : Nat} (h : eventReg a) : offToll a := by
  rcases h with ⟨e, h | h | h⟩ | ⟨c, h⟩ | ⟨n, h | h | h⟩ | ⟨d, h | h⟩ | ⟨d, q, h | h | h | h⟩ <;> rw [h]
  · exact offToll_eventBase e
  · unfold EVT_SRC_B.addr; exact offToll_event (by decide)
  · unfold EVT_SRC_C.addr; exact offToll_event (by decide)
  · exact offToll_clusterBase c
  · exact offToll_cpBase n
  · unfold PKG_CP_EVOFFERED.addr; exact offToll_controlPort (by decide)
  · unfold PKG_CP_EVDROPPED.addr; exact offToll_controlPort (by decide)
  · unfold PMON_TQ_OFFERED.addr; exact offToll_die (by decide)
  · unfold PMON_TQ_DROPPED.addr; exact offToll_die (by decide)
  all_goals
    simp only [EVT_XQ_OFFERED.addr, EVT_XQ_DROPPED.addr, EVT_PQ_OFFERED.addr, EVT_PQ_DROPPED.addr, Nat.add_assoc]
    exact offToll_die (by omega)

theorem offToll_counter (die : Bool) (i n : Nat) : offToll (selAddr die i n) ∧ offToll (ctrAddr die i n) := by
  unfold selAddr ctrAddr PMON_DIE_SEL.addr PMON_CL_SEL.addr PMON_DIE_CTR.addr PMON_CL_CTR.addr
  simp only [Nat.add_assoc]
  cases die
  · exact ⟨offToll_cluster (by omega), offToll_cluster (by omega)⟩
  · exact ⟨offToll_die (by omega), offToll_die (by omega)⟩

theorem offToll_of_shared {a : Nat} (h : shared a) : offToll a := by
  rcases h with rfl | rfl | rfl | rfl | rfl | rfl | ⟨n, h⟩ | ⟨d, n, h | h⟩ | ⟨c, n, h | h⟩
  iterate 6 exact offToll_package (by decide)
  · exact offToll_package (by rw [h, SEM.addr]; omega)
  all_goals rw [h]
  · exact (offToll_counter true d n).1
  · exact (offToll_counter true d n).2
  · exact (offToll_counter false c n).1
  · exact (offToll_counter false c n).2

theorem offToll_injection (d : Nat) : offToll (DIE_EVT_INJECT.addr d) := by
  unfold DIE_EVT_INJECT.addr offToll dieBase
  omega

theorem offToll_of_workReg {a : Nat} (h : workReg a) : offToll a := by
  rcases h with h | h | rfl | rfl | ⟨d, h | h⟩ | ⟨d, k, h | h⟩ | ⟨c, h | h⟩ | ⟨w, h⟩ |
    ⟨l, h | h | h | h | h | h | h⟩ | ⟨p, h | h | h | h | h | h | h | h | h | h | h | h⟩
  · exact offToll_of_eventReg h
  · exact offToll_of_shared h
  · exact offToll_package (by decide)
  · exact offToll_package (by decide)
  all_goals rw [h]
  · exact offToll_injection d
  · unfold TOLL_VIOL.addr; exact offToll_die (by decide)
  · rw [TOLL_VFIRST.addr, Nat.add_assoc]; exact offToll_die (by omega)
  · rw [TOLL_VLAST.addr, Nat.add_assoc]; exact offToll_die (by omega)
  · unfold WIN_TRACK.addr; exact offToll_cluster (by decide)
  · unfold PMON_CL_CTL.addr; exact offToll_cluster (by decide)
  · simp only [WIN_STATE.addr, windowBase, Nat.add_assoc]
    exact offToll_cluster (by omega)
  · exact offToll_laneBase l
  iterate 6
    · simp only [LN_QUAL.addr, LN_EYE.addr, LN_TXEQ.addr, LN_FEC_CORR.addr, LN_FEC_UNC.addr, LN_BLK_ERR.addr]
      exact offToll_lane (by decide)
  · exact offToll_portBase p
  all_goals
    simp only [PORT_LINK.addr, PORT_CRC_ERR.addr, PORT_REPLAYED.addr, PORT_MALFORMED.addr, PORT_TALLY.addr, PORT_PCIE.addr, PORT_LOCK.addr, PORT_BOUND.addr,
      PORT_SLUICE.addr, PORT_HOLD.addr, PORT_WAKE.addr]
    exact offToll_port (by decide)

theorem not_workReg_entry (d i k : Nat) : ¬ workReg (TOLL.addr d i k) := fun h => not_offToll_entry d i k (offToll_of_workReg h)
theorem not_workReg_ctl (d : Nat) : ¬ workReg (TOLL_CTL.addr d) := fun h => not_offToll_ctl d (offToll_of_workReg h)
theorem not_shared_entry (d i k : Nat) : ¬ shared (TOLL.addr d i k) := fun h => not_offToll_entry d i k (offToll_of_shared h)
theorem not_shared_ctl (d : Nat) : ¬ shared (TOLL_CTL.addr d) := fun h => not_offToll_ctl d (offToll_of_shared h)

/-- Registers of the package block between those that the end of a command may update. -/
theorem not_shared_package {a : Nat} (h : 0x18 ≤ a ∧ a < 0x2008 ∨ 0x5208 ≤ a ∧ a < 0x10000000) : ¬ shared a := by
  rintro (rfl | rfl | rfl | rfl | rfl | rfl | ⟨n, hs⟩ | ⟨d, n, hs | hs⟩ | ⟨c, n, hs | hs⟩)
  iterate 6 exact absurd h (by decide)
  all_goals
    revert hs
    simp only [SEM.addr, PMON_DIE_SEL.addr, PMON_DIE_CTR.addr, PMON_CL_SEL.addr, PMON_CL_CTR.addr, clusterBase, dieBase]
    omega

end Sys2Proof.Machine
end

