-- ==== Sys2Proof/Proofs/EffectFrames.lean ====
section
/-! The frames of a step as one relation, which the writes of a register keep: what the work in progress and the end of a command may change together. -/

namespace Sys2Proof.Machine

/-! ### The end of a command -/

theorem endSame.trans {s t u : State} (h : endSame s t) (k : endSame t u) : endSame s u := by
  obtain ⟨h, hr⟩ := h
  obtain ⟨k, kr⟩ := k
  refine ⟨?_, fun a ha => (kr a ha).trans (hr a ha)⟩
  rw [h] at k
  exact k

theorem endSame.wr {s t : State} (h : endSame s t) (a : Nat) (w : Word) : endSame (s.wr a w) (t.wr a w) := by
  obtain ⟨h, hr⟩ := h
  refine ⟨congrArg (fun u : State => { u with regs := (t.wr a w).regs }) h, fun b hb => ?_⟩
  rw [State.rd_wr, State.rd_wr, hr b hb]

theorem endSame.set {s t : State} (h : endSame s t) {f : FieldRef} (hf : ¬ shared f.addr) (n : Nat) : endSame (s.set f n) (t.set f n) := by
  unfold State.set
  rw [h.2 f.addr hf]
  exact h.wr _ _

theorem endSame.bump {s t : State} (h : endSame s t) {f : FieldRef} (hf : ¬ shared f.addr) : endSame (s.bump f) (t.bump f) := by
  unfold State.bump State.bumpBy State.get
  rw [h.2 f.addr hf]
  exact h.set hf _

theorem endSame.commits {s t : State} (h : endSame s t) (l : List TollCommit) : endSame { s with commits := l } { t with commits := l } :=
  ⟨congrArg (fun u : State => { u with commits := l }) h.1, h.2⟩

theorem endSame.emit {s t : State} (h : endSame s t) (o : Output) : endSame (s.emit o) (t.emit o) := by
  obtain ⟨h, hr⟩ := h
  have ho : t.out = s.out := by rw [h]
  refine ⟨?_, hr⟩
  unfold State.emit
  rw [ho]
  exact congrArg (fun u : State => { u with out := s.out ++ [o] }) h

/-! ### The work in progress and the end of a command together -/

/-- What the work in progress and the end of a command may change, in one relation. -/
def effectSame (s t : State) : Prop :=
  t = { s with
    regs := t.regs, freeCount := t.freeCount, actions := t.actions, out := t.out, outbox := t.outbox, queues := t.queues, records := t.records, live := t.live
    ledgers := t.ledgers, ingress := t.ingress, waiting := t.waiting, outstanding := t.outstanding, nextId := t.nextId, device := t.device
    heldFailures := t.heldFailures, streams := t.streams, flowLast := t.flowLast, writeLast := t.writeLast, lockWait := t.lockWait, lockClass := t.lockClass, portLocks := t.portLocks
    planned := t.planned, bounds := t.bounds, boundsSets := t.boundsSets, postedCount := t.postedCount, requesters := t.requesters, links := t.links, vlast := t.vlast
    announceDue := t.announceDue, virtPorts := t.virtPorts, aer := t.aer, aerHeader := t.aerHeader, intxLevel := t.intxLevel, intxSent := t.intxSent, intxCount := t.intxCount
    flr := t.flr, configJobs := t.configJobs, pmeOff := t.pmeOff, lanes := t.lanes, crossings := t.crossings, pulses := t.pulses, slotsUsed := t.slotsUsed, ecc := t.ecc
    dir := t.dir, staged := t.staged, slotWrite := t.slotWrite, nvsOp := t.nvsOp, stageHolder := t.stageHolder, staging := t.staging, bankWrite := t.bankWrite
    pending := t.pending, chip := t.chip } ∧
  ∀ a, ¬ workReg a → t.rd a = s.rd a

theorem workSame.effect {s t : State} (h : workSame s t) : effectSame s t := by
  obtain ⟨h, hr⟩ := h
  refine ⟨?_, hr⟩
  rw [h]

theorem endSame.effect {s t : State} (h : endSame s t) : effectSame s t := by
  obtain ⟨h, hr⟩ := h
  refine ⟨?_, fun a ha => hr a fun hs => ha (.inr (.inl hs))⟩
  rw [h]

theorem effectSame.trans {s t u : State} (h : effectSame s t) (k : effectSame t u) : effectSame s u := by
  obtain ⟨h, hr⟩ := h
  obtain ⟨k, kr⟩ := k
  refine ⟨?_, fun a ha => (kr a ha).trans (hr a ha)⟩
  rw [h] at k
  exact k

/-- The two parts come apart again: the work in progress first, then the end of the command. -/
theorem effectSame.split {s t : State} (h : effectSame s t) : ∃ v, workSame s v ∧ endSame v t := by
  obtain ⟨h, hr⟩ := h
  refine ⟨{ t with dir := s.dir, staged := s.staged, slotWrite := s.slotWrite, nvsOp := s.nvsOp, stageHolder := s.stageHolder, staging := s.staging
                   bankWrite := s.bankWrite, pending := s.pending, chip := s.chip }, ⟨?_, hr⟩, rfl, fun _ _ => rfl⟩
  exact congrArg (fun u : State => { u with
    dir := s.dir, staged := s.staged, slotWrite := s.slotWrite, nvsOp := s.nvsOp, stageHolder := s.stageHolder, staging := s.staging
    bankWrite := s.bankWrite, pending := s.pending, chip := s.chip }) h

theorem effectSame.wr {s t : State} (h : effectSame s t) (a : Nat) (w : Word) : effectSame (s.wr a w) (t.wr a w) := by
  obtain ⟨h, hr⟩ := h
  refine ⟨congrArg (fun u : State => { u with regs := (t.wr a w).regs }) h, fun b hb => ?_⟩
  rw [State.rd_wr, State.rd_wr, hr b hb]

theorem effectSame.set {s t : State} (h : effectSame s t) {f : FieldRef} (hf : ¬ workReg f.addr) (n : Nat) : effectSame (s.set f n) (t.set f n) := by
  unfold State.set
  rw [h.2 f.addr hf]
  exact h.wr _ _

theorem effectSame.bump {s t : State} (h : effectSame s t) {f : FieldRef} (hf : ¬ workReg f.addr) : effectSame (s.bump f) (t.bump f) := by
  unfold State.bump State.bumpBy State.get
  rw [h.2 f.addr hf]
  exact h.set hf _

theorem effectSame.emit (s : State) (o : Output) : effectSame s (s.emit o) := ⟨rfl, fun _ _ => rfl⟩

/-- A command whose effect stays within the two parts completes so. -/
theorem completesIn_of_effect {c : Instr} {s u v : State} {P : State → Prop} (h : exec c s = finish s v) (he : effectSame u v)
    (hp : P (endStep s v)) : completesIn workSame c s u P := by
  obtain ⟨w, hw, hwe⟩ := (he.trans (endSame_endStep s v).effect).split
  exact ⟨_, w, h, hw, hwe, endStep_pending s v, hp⟩

theorem completesWith_of {c : Instr} {s u v : State} {P : State → Prop} (h : exec c s = finish s v) (he : endSame u v)
    (hp : P (endStep s v)) : completesWith c s u P :=
  ⟨_, h, he.trans (endSame_endStep s v), endStep_pending s v, hp⟩

end Sys2Proof.Machine
end

