-- ==== Sys2Proof/Proofs/CommitEffect.lean ====
section
/-! A commit that takes effect (R500, R502, R504): the entry, the epoch and the count of locked entries, the check bits of the entry's words, and the cause. -/

namespace Sys2Proof.Machine

/-! ### The words of an entry -/

@[simp] theorem tollEntry_valid (w0 w1 w2 w3 : Word) : (tollEntry w0 w1 w2 w3).valid = w3.getLsbD 48 := by
  simp only [TollEntry.valid, tollEntry, getBits, BitVec.testBit_toNat, BitVec.getLsbD_extractLsb']
  simp

@[simp] theorem tollEntry_locked (w0 w1 w2 w3 : Word) : (tollEntry w0 w1 w2 w3).locked = w3.getLsbD 49 := by
  simp only [TollEntry.locked, tollEntry, getBits, BitVec.testBit_toNat, BitVec.getLsbD_extractLsb']
  simp

theorem State.toll_locked (s : State) (d i : Nat) : (s.toll d i).locked = (s.tollWord d i 3).getLsbD 49 := tollEntry_locked ..

/-- The words of an entry are written, whatever an injection does to their check bits. -/
def State.putEntry (s : State) (d i : Nat) (ws : List Nat) : State :=
  (List.range 4).foldl (fun (u : State) k => u.wr (TOLL.addr d i k) (BitVec.ofNat 64 (ws.getD k 0))) s

/-- The registers of die d after entry i has taken the words ws in the epoch e: the entry, LOCKED_COUNT where this locks it, and the epoch (R500, R502, R504). -/
def State.takesEntry (s : State) (d e i : Nat) (ws : List Nat) : State :=
  let t := s.putEntry d i ws
  let t := if (BitVec.ofNat 64 (ws.getD 3 0)).getLsbD 49 && !(s.tollWord d i 3).getLsbD 49 then t.bump (TOLL_CTL.LOCKED_COUNT d) else t
  t.set (TOLL_CTL.EPOCH d) ((e + 1) % 256)

theorem State.putEntry_rd_ne (s : State) {d i a : Nat} (ws : List Nat) (h : ∀ k, a ≠ TOLL.addr d i k) : (s.putEntry d i ws).rd a = s.rd a := by
  simp [State.putEntry, List.range_succ, State.rd_wr_ne _ _ (h _)]

theorem State.putEntry_tollWord (s : State) {d i j k : Nat} (ws : List Nat) (hi : i < 16384) (hj : j < 16384) (hk : k < 4) :
    (s.putEntry d i ws).tollWord d j k = if j = i then BitVec.ofNat 64 (ws.getD k 0) else s.tollWord d j k := by
  simp only [State.tollWord, State.putEntry, List.range_succ, List.range_zero, List.nil_append, List.cons_append, List.foldl_cons, List.foldl_nil, State.rd_wr]
  simp only [entryAddr_inj hj hi hk, show (0 : Nat) < 4 by decide, show (1 : Nat) < 4 by decide, show (2 : Nat) < 4 by decide, show (3 : Nat) < 4 by decide]
  by_cases h : j = i
  · interval_cases k <;> simp [h]
  · simp [h]

theorem State.takesEntry_rd_ne (s : State) {d e i a : Nat} (ws : List Nat) (h : a ≠ TOLL_CTL.addr d) :
    (s.takesEntry d e i ws).rd a = (s.putEntry d i ws).rd a := by
  unfold State.takesEntry
  rw [State.rd_set_ne _ _ h]
  split
  · exact State.rd_set_ne _ _ h
  · rfl

theorem State.takesEntry_tollWord (s : State) {d e i j k : Nat} (ws : List Nat) (hi : i < 16384) (hj : j < 16384) (hk : k < 4) :
    (s.takesEntry d e i ws).tollWord d j k = if j = i then BitVec.ofNat 64 (ws.getD k 0) else s.tollWord d j k := by
  rw [← State.putEntry_tollWord s ws hi hj hk]
  exact State.takesEntry_rd_ne s ws (ctlAddr_ne_entry d d j k).symm

theorem State.takesEntry_epoch (s : State) (d e i : Nat) (ws : List Nat) : (s.takesEntry d e i ws).epoch d = (e + 1) % 256 := by
  unfold State.takesEntry State.epoch
  rw [State.get_set_same _ (TOLL_CTL.EPOCH d) _ (show 56 + 8 ≤ 64 by decide)]
  exact Nat.mod_mod _ 256

/-! ### Check bits -/

/-- One word of an entry is written, as an injection of checker 0x0A affects it (R478). -/
def State.writeEntryWord (d i : Nat) (ws : List Nat) (s : State) (k : Nat) : State :=
  (s.writeWord d 0x0A 0 (TOLL.addr d i k)).wr (TOLL.addr d i k) (BitVec.ofNat 64 (ws.getD k 0))

theorem State.writeEntry_eq (s : State) (d i : Nat) (ws : List Nat) : s.writeEntry d i ws = (List.range 4).foldl (State.writeEntryWord d i ws) s := rfl

@[simp] theorem State.wr_wordState (s : State) (a b : Nat) (w : Word) : (s.wr a w).wordState b = s.wordState b := rfl

theorem State.writeWord_wordState (s : State) (d checker inst : Nat) {a b : Nat} (h : b ≠ a) :
    (s.writeWord d checker inst a).wordState b = s.wordState b := by
  have put : ∀ n : Nat, tabGet (fun _ => 0) (tabPut (fun _ => 0) s.ecc a n) b = tabGet (fun _ => 0) s.ecc b := fun n => tabGet_tabPut_ne _ _ _ h
  unfold State.writeWord
  dsimp only
  split
  · exact put _
  · exact put 0

/-- A word that no armed injection meets has good check bits, and no register changes. -/
theorem State.writeWord_unarmed {s : State} {d checker inst : Nat} (a : Nat) (h : s.injectMode d checker inst = 0) :
    s.writeWord d checker inst a = { s with ecc := tabPut (fun _ => 0) s.ecc a 0 } := by
  simp [State.writeWord, h]

theorem State.injectMode_of_rd {s t : State} {d : Nat} (h : t.rd (DIE_EVT_INJECT.addr d) = s.rd (DIE_EVT_INJECT.addr d)) (checker inst : Nat) :
    t.injectMode d checker inst = s.injectMode d checker inst := by
  simp only [State.injectMode, State.get, DIE_EVT_INJECT.REMAIN, DIE_EVT_INJECT.CHECKER, DIE_EVT_INJECT.INSTANCE, DIE_EVT_INJECT.MODE, h]
  rfl

theorem State.injectMode_wr_entry (s : State) (e i k d checker inst : Nat) (w : Word) :
    (s.wr (TOLL.addr e i k) w).injectMode d checker inst = s.injectMode d checker inst := by
  have hne : DIE_EVT_INJECT.addr d ≠ TOLL.addr e i k := fun h => not_offToll_entry e i k (h ▸ offToll_injection d)
  exact State.injectMode_of_rd (State.rd_wr_ne _ _ hne) checker inst

/-- Writing an entry leaves the check bits of every other word alone. -/
theorem State.writeEntry_wordState_other (s : State) {d i b : Nat} (ws : List Nat) (h : ∀ k < 4, b ≠ TOLL.addr d i k) :
    (s.writeEntry d i ws).wordState b = s.wordState b := by
  have step : ∀ l : List Nat, (∀ k ∈ l, k < 4) → ∀ u : State, (l.foldl (State.writeEntryWord d i ws) u).wordState b = u.wordState b := by
    intro l
    induction l with
    | nil => exact fun _ _ => rfl
    | cons k l ih =>
      intro hl u
      rw [List.foldl_cons, ih (fun j hj => hl j (List.mem_cons_of_mem k hj)), State.writeEntryWord, State.wr_wordState,
        State.writeWord_wordState _ _ _ _ (h k (hl k List.mem_cons_self))]
  rw [State.writeEntry_eq]
  exact step (List.range 4) (fun k hk => List.mem_range.1 hk) s

/-- Where no injection is armed for the table, the words of an entry that is written have good check bits. -/
theorem State.writeEntry_wordState_unarmed {s : State} {d : Nat} (i : Nat) (ws : List Nat) (h : s.injectMode d 0x0A 0 = 0) {k : Nat} (hk : k < 4) :
    (s.writeEntry d i ws).wordState (TOLL.addr d i k) = 0 := by
  have step : ∀ (l : List Nat) (u : State), u.injectMode d 0x0A 0 = 0 → k ∈ l ∨ u.wordState (TOLL.addr d i k) = 0 →
      (l.foldl (State.writeEntryWord d i ws) u).wordState (TOLL.addr d i k) = 0 := by
    intro l
    induction l with
    | nil => exact fun _ _ hm => hm.resolve_left List.not_mem_nil
    | cons j l ih =>
      intro u hu hm
      rw [List.foldl_cons]
      refine ih _ ?_ ?_
      · rw [State.writeEntryWord, State.injectMode_wr_entry, State.writeWord_unarmed _ hu]
        exact hu
      · rw [State.writeEntryWord, State.wr_wordState, State.writeWord_unarmed _ hu]
        by_cases ha : TOLL.addr d i k = TOLL.addr d i j
        · simp [State.wordState, ha]
        · rcases hm with hm | hm
          · exact .inl ((List.mem_cons.1 hm).resolve_left fun e => ha (by rw [e]))
          · exact .inr ((tabGet_tabPut_ne _ _ 0 ha).trans hm)
  rw [State.writeEntry_eq]
  exact step (List.range 4) s h (.inl (List.mem_range.2 hk))

/-! ### What a commit does as it takes effect -/

theorem State.writeEntry_effect (s : State) (d i : Nat) (ws : List Nat) : effectSame (s.putEntry d i ws) (s.writeEntry d i ws) := by
  have step : ∀ (l : List Nat) {u v : State}, effectSame u v → effectSame (l.foldl (fun (u : State) k => u.wr (TOLL.addr d i k) (BitVec.ofNat 64 (ws.getD k 0))) u)
      (l.foldl (State.writeEntryWord d i ws) v) := by
    intro l
    induction l with
    | nil => exact fun h => h
    | cons k l ih =>
      intro u v h
      have hw : effectSame v (v.writeWord d 0x0A 0 (TOLL.addr d i k)) := ((State.writeWord_touch ..).workSame rfl).effect
      exact ih ((h.trans hw).wr _ _)
  rw [State.writeEntry_eq]
  exact step (List.range 4) ((touch.refl 0 s).workSame rfl).effect

/-- The commit changes the entry, the epoch and LOCKED_COUNT; the rest of what it does is work in progress. -/
theorem State.applyCommit_effect (s : State) {d i : Nat} (ws : List Nat) (hi : i < 16384) :
    effectSame (s.takesEntry d (s.epoch d) i ws) (s.applyCommit d i ws) := by
  unfold State.applyCommit State.takesEntry
  extract_lets t0 t1 was w0 w1 w2 w3
  have hcount : effectSame (s.writeEntry d i ws) w0 := by
    unfold w0
    exact ((State.countDie_touch ..).workSame rfl).effect
  have h0 : effectSame t0 w0 := (s.writeEntry_effect d i ws).trans hcount
  have hlock : (w0.toll d i).locked = (BitVec.ofNat 64 (ws.getD 3 0)).getLsbD 49 := by
    rw [State.toll_locked, State.tollWord, h0.2 _ (not_workReg_entry d i 3)]
    exact congrArg (fun w : Word => w.getLsbD 49) ((s.putEntry_tollWord ws hi hi (by decide)).trans (if_pos rfl))
  have hwas : was = (s.tollWord d i 3).getLsbD 49 := s.toll_locked d i
  have h1 : effectSame t1 w1 := by
    unfold w1 t1
    rw [hlock, hwas]
    split
    · exact h0.bump (not_workReg_ctl d)
    · exact h0
  have hepoch : w1.epoch d = s.epoch d := by
    have e0 : w0.epoch d = s.epoch d := by
      unfold State.epoch State.get
      rw [show (TOLL_CTL.EPOCH d).addr = TOLL_CTL.addr d from rfl, h0.2 _ (not_workReg_ctl d), s.putEntry_rd_ne ws fun k => ctlAddr_ne_entry d d i k]
    rw [← e0]
    unfold w1
    split
    · exact State.get_set_other _ (g := TOLL_CTL.EPOCH d) _ (.inr (show 16 + 15 ≤ 56 by decide))
    · rfl
  have h2 : effectSame (t1.set (TOLL_CTL.EPOCH d) ((s.epoch d + 1) % 256)) w2 := by
    unfold w2
    rw [hepoch]
    exact h1.set (not_workReg_ctl d) _
  have h3 : effectSame w2 w3 := by
    unfold w3
    exact ((State.cancelStreams_touch ..).workSame rfl).effect
  exact (h2.trans h3).trans ((State.raise_touch ..).workSame rfl).effect

theorem State.countDie_ecc (s : State) (d code amount : Nat) (test : Nat → Bool) : (s.countDie d code amount test).ecc = s.ecc :=
  (State.countDie_touch s d code amount test).ecc rfl
theorem State.cancelStreams_ecc (s : State) (p : Stream → Bool) : (s.cancelStreams p).ecc = s.ecc := (State.cancelStreams_touch s p).ecc rfl
theorem State.raise_ecc (s : State) (e k : Nat) (c : Cause) : (s.raise e k c).ecc = s.ecc := (State.raise_touch s e k c).ecc rfl

theorem State.ecc_of_bumpIf {c : Prop} [Decidable c] (s : State) (f : FieldRef) : (if c then s.bump f else s).ecc = s.ecc := by
  split
  · exact State.bump_ecc s f
  · rfl

/-- Of the check bits a commit changes those of the words it writes. -/
theorem State.applyCommit_ecc (s : State) (d i : Nat) (ws : List Nat) : (s.applyCommit d i ws).ecc = (s.writeEntry d i ws).ecc := by
  unfold State.applyCommit
  dsimp only
  rw [State.raise_ecc, State.cancelStreams_ecc, State.set_ecc, State.ecc_of_bumpIf, State.countDie_ecc]
theorem State.applyCommit_commits (s : State) (d i : Nat) (ws : List Nat) : (s.applyCommit d i ws).commits = s.commits :=
  (State.applyCommit_touch s d i ws).commits rfl

theorem State.applyCommit_cause (s : State) {d : Nat} (i : Nat) (ws : List Nat) (hd : d < 4) : (s.applyCommit d i ws).hasCause (srcDie d 11) 0 := by
  unfold State.applyCommit
  extract_lets was w0 w1 w2 w3
  exact hasCause_raise {} (by unfold srcDie; omega) (by decide)

end Sys2Proof.Machine
end

