-- ==== Sys2Proof/Proofs/ReachedWrite.lean ====
section
/-! A write that reaches its block at once (R566, R567, R657 to R660): it is counted, takes effect and is answered. -/

namespace Sys2Proof.Machine

/-! ### Sparse tables under a filter -/

theorem filterMap_tabErase {α β : Type} {f : Nat × α → Option β} {k : Nat} (h : ∀ v, f (k, v) = none) (t : Tab α) :
    (tabErase t k).filterMap f = t.filterMap f := by
  induction t with
  | nil => rfl
  | cons x t ih =>
    obtain ⟨j, v⟩ := x
    simp only [tabErase]
    split
    · subst_vars
      rw [ih, List.filterMap_cons_none (h v)]
    · simp only [List.filterMap_cons, ih]

theorem filterMap_tabInsert {α β : Type} {f : Nat × α → Option β} {k : Nat} (h : ∀ v, f (k, v) = none) (t : Tab α) (v : α) :
    (tabInsert t k v).filterMap f = t.filterMap f := by
  induction t with
  | nil => exact List.filterMap_cons_none (h v)
  | cons x t ih =>
    obtain ⟨j, w⟩ := x
    simp only [tabInsert]
    split
    · exact List.filterMap_cons_none (h v)
    · simp only [List.filterMap_cons, ih]

/-- A write of a key that a filter drops does not show behind the filter. -/
theorem filterMap_tabPut {α β : Type} [DecidableEq α] {f : Nat × α → Option β} {k : Nat} (h : ∀ v, f (k, v) = none) (dflt : Nat → α) (t : Tab α) (v : α) :
    (tabPut dflt t k v).filterMap f = t.filterMap f := by
  unfold tabPut
  split
  · exact filterMap_tabErase h t
  · exact (filterMap_tabInsert h _ v).trans (filterMap_tabErase h t)

/-! ### What counting an event changes -/

/-- t differs from s in registers alone, and the Toll Tables list the same valid entries. -/
def countSame (s t : State) : Prop := t = { s with regs := t.regs } ∧ ∀ d, t.tollValid d = s.tollValid d

theorem countSame.refl (s : State) : countSame s s := ⟨rfl, fun _ => rfl⟩

theorem countSame.trans {s t u : State} (h : countSame s t) (k : countSame t u) : countSame s u := by
  obtain ⟨h, hv⟩ := h
  obtain ⟨k, kv⟩ := k
  refine ⟨?_, fun d => (kv d).trans (hv d)⟩
  rw [h] at k
  exact k

theorem countSame_wr (s : State) {a : Nat} (w : Word) (h : offToll a) : countSame s (s.wr a w) := by
  refine ⟨rfl, fun d => filterMap_tabPut (fun v => if_neg ?_) _ _ _⟩
  unfold offToll at h
  unfold TOLL.addr dieBase
  omega

theorem State.addCounter_countSame (s : State) (die : Bool) (i n amount : Nat) : countSame s (s.addCounter die i n amount) := by
  have sel := fun j => (offToll_counter die i j).1
  have ctr := fun j => (offToll_counter die i j).2
  unfold State.addCounter
  dsimp only
  split
  · split
    · exact countSame.refl s
    · exact (countSame_wr s _ (ctr n)).trans (countSame_wr _ _ (ctr (n + 1)))
  · split
    · exact countSame_wr s _ (ctr n)
    · exact (countSame_wr s _ (ctr n)).trans (countSame_wr _ _ (sel n))

theorem State.countBy_countSame (s : State) (f : Bool → Nat → Nat → Nat → Nat) : countSame s (s.countBy f) := by
  unfold State.countBy
  refine List.foldlRecOn _ _ (countSame.refl s) fun u hu x _ => ?_
  dsimp only
  split
  · exact hu.trans (u.addCounter_countSame ..)
  · exact hu

theorem State.countDie_countSame (s : State) (d code amount : Nat) (test : Nat → Bool) : countSame s (s.countDie d code amount test) :=
  s.countBy_countSame _

theorem State.countDie_endSame (s : State) (d code amount : Nat) (test : Nat → Bool) : endSame s (s.countDie d code amount test) :=
  (State.countDie_touch ..).endSame rfl

/-! ### The check of an access -/

theorem State.subject_counted {s t : State} (m : Master) (h : countSame s t) (hp : t.rd PKG_MGT_PRIV.addr = s.rd PKG_MGT_PRIV.addr) :
    t.subject m = s.subject m := by
  have hpriv : ∀ m, t.privileged m = s.privileged m := by
    intro m
    rw [h.1] at hp ⊢
    cases m
    case inband id priv =>
      simp only [State.privileged, State.bitOf, State.get, PKG_MGT_PRIV.VALUE, hp]
    all_goals rfl
  have hid : t.masterId m = s.masterId m := by rw [h.1]; rfl
  have hlevel : t.level m = s.level m := by cases m <;> simp only [State.level, hpriv]
  simp only [State.subject, hpriv, hid, hlevel]

theorem State.tollCheck_counted {s t : State} (d : Nat) (u : Subject) (k : Kind) (target addr : Nat) (h : countSame s t)
    (hw : ∀ i j, t.tollWord d i j = s.tollWord d i j) : t.tollCheck d u k target addr = s.tollCheck d u k target addr := by
  have htoll : ∀ i, t.toll d i = s.toll d i := fun i => by simp only [State.toll, hw]
  have hhurt : t.tollUnreadable d = s.tollUnreadable d := by rw [h.1]; rfl
  simp only [State.tollCheck, htoll, hhurt, h.2 d]

/-- An access that its die permits is counted, and changes nothing else where no word of the table is in error. -/
theorem State.checkAccess_permitted {s : State} {m : Master} {write : Bool} {a : Nat}
    (hp : s.tollCheck (s.dieOfAddr a) (s.subject m) (if write then .write else .read) 0xFFFE a = .permit)
    (he : s.ecc.any (tollHurt (s.dieOfAddr a)) = false) :
    s.checkAccess m write a = (s.countDie (s.dieOfAddr a) 0x07 1 fun _ => true, true) := by
  have hc := s.countDie_countSame (s.dieOfAddr a) 0x07 1 fun _ => true
  have hr := (s.countDie_endSame (s.dieOfAddr a) 0x07 1 fun _ => true).2
  unfold State.checkAccess
  dsimp only
  generalize s.countDie (s.dieOfAddr a) 0x07 1 (fun _ => true) = t at hc hr ⊢
  have hecc : t.ecc = s.ecc := by rw [hc.1]
  have hsearch : t.searchToll (s.dieOfAddr a) = t := by
    unfold State.searchToll
    rw [hecc, he]
    rfl
  rw [hsearch, State.subject_counted m hc (hr _ (not_shared_package (by decide))), State.tollCheck_counted _ _ _ _ _ hc fun i j => hr _ (not_shared_entry _ _ _), hp]

/-! ### From the submission of a write to its answer -/

theorem State.heldAt_counted {s t : State} (a : Nat) (h : countSame s t) (hf : t.rd PKG_FENCE_CL.addr = s.rd PKG_FENCE_CL.addr) : t.heldAt a = s.heldAt a := by
  have hblock : t.blockAt a = s.blockAt a := by rw [h.1]; rfl
  have hcross : ∀ x, t.crossing x = s.crossing x := fun x => by rw [h.1]; rfl
  have hheld : ∀ c, t.clusterHeld c = s.clusterHeld c := fun c => by
    unfold State.clusterHeld State.bitOf State.get
    rw [show PKG_FENCE_CL.CLUSTERS.addr = PKG_FENCE_CL.addr from rfl, hf]
  simp only [State.heldAt, hblock, hcross, hheld]

@[simp] theorem State.reply_tow (s : State) (m : Master) (status value : Nat) : (s.reply m .plain true status value).tow = s.tow := by
  unfold State.reply
  cases m
  case cp n =>
    dsimp only
    split <;> rfl
  all_goals rfl

/-- The towpath delivers a command that nothing holds, and stops where its effect starts no further access. -/
theorem State.runTow_single {s : State} {c : TowCommand} (ht : s.tow = []) (hh : s.heldAt c.addr = false) (hp : (s.performTow c).tow = []) :
    State.runTow { s with tow := [c] } = s.performTow c := by
  have hs : ({ s with tow := [] } : State) = s := by rw [← ht]
  have hd : State.deliverTow { s with tow := [c] } = s.performTow c := by
    have hb : s.towBehind c.master c.addr = false := by simp [State.towBehind, ht]
    unfold State.deliverTow
    rw [List.foldl_cons, List.foldl_nil]
    show (if (({ s with tow := [] } : State).heldAt c.addr || ({ s with tow := [] } : State).towBehind c.master c.addr) = true then _
      else ({ s with tow := [] } : State).performTow c) = _
    rw [hs, hh, hb]
    rfl
  have rests : ∀ u : State, u.tow = [] → (if u.tow.isEmpty then u else u.deliverTow) = u := fun u hu => by rw [hu]; rfl
  unfold State.runTow
  rw [show List.range 3 = [0, 1, 2] from rfl, List.foldl_cons, List.foldl_cons, List.foldl_cons, List.foldl_nil]
  rw [show (if ({ s with tow := [c] } : State).tow.isEmpty = true then { s with tow := [c] } else State.deliverTow { s with tow := [c] }) =
    s.performTow c from hd, rests _ hp, rests _ hp]

/-- A write that reaches its block at once is counted, takes effect and is answered, where its effect starts no further access. -/
theorem State.controlWrite_reaches {s : State} {m : Master} {a v : Nat} (hr : s.reaches m true a = true) (ha : a % 8 = 0) (hlt : a < 2 ^ 30)
    {t u : State} {x : Nat} (ht : s.countDie (s.dieOfAddr a) 0x07 1 (fun _ => true) = t) (hx : t.writeEffect m a (BitVec.ofNat 64 v) = (u, x))
    (hu : u.tow = []) : s.controlWrite m a v = u.reply m .plain true x 0 := by
  simp only [State.reaches, Bool.and_eq_true, decide_eq_true_eq, Bool.not_eq_true', List.isEmpty_iff] at hr
  obtain ⟨⟨⟨⟨⟨hgo, hp⟩, he⟩, -⟩, hheld⟩, htow⟩ := hr
  have hc : countSame s t := ht ▸ s.countDie_countSame ..
  have hend : endSame s t := ht ▸ s.countDie_endSame ..
  have hts : t.tow = [] := by rw [hc.1]; exact htow
  have hth : t.heldAt a = false := (State.heldAt_counted a hc (hend.2 _ (not_shared_package (by decide)))).trans hheld
  have hcheck : s.checkAccess m true a = (t, true) := ht ▸ State.checkAccess_permitted hp he
  have hcond : ¬ (a % 8 ≠ 0 || decide (2 ^ 30 ≤ a)) = true := by simp [ha]; omega
  have hperf : t.performTow { master := m, addr := a, write := true, value := v, since := t.now, reply := .plain } = u.reply m .plain true x 0 := by
    simp only [State.performTow, hx, if_true]
  unfold State.controlWrite State.access
  rw [if_neg hcond]
  unfold State.submit
  rw [hgo]
  dsimp only
  rw [hcheck]
  dsimp only
  rw [if_pos rfl, hts, List.nil_append, ← hperf]
  refine State.runTow_single hts hth ?_
  rw [hperf, State.reply_tow, hu]

end Sys2Proof.Machine
end

