-- ==== Sys2Proof/Proofs/EntryWrite.lean ====
section
/-! Where a write of a word of an entry goes (Table 17-7): the block of its die, and there the Toll Table. -/

namespace Sys2Proof.Machine

theorem State.blockAt_entry {s : State} {d i k : Nat} (hd : d < 4) (hi : i < 16384) (hk : k < 4) :
    s.blockAt (TOLL.addr d i k) = if d < s.numDies then .die d (0x1000000 + 32 * i + 8 * k) else .reserved := by
  have ha : TOLL.addr d i k = 0x10000000 + d * 0x08000000 + (0x1000000 + 32 * i + 8 * k) := by
    unfold TOLL.addr dieBase
    omega
  have hb : blockOf (TOLL.addr d i k) = .die d (0x1000000 + 32 * i + 8 * k) := by
    have hdie : (TOLL.addr d i k - 0x10000000) / 0x08000000 = d := by omega
    have hoff : (TOLL.addr d i k - 0x10000000) % 0x08000000 = 0x1000000 + 32 * i + 8 * k := by omega
    unfold blockOf
    rw [hdie, hoff, if_neg (by omega), if_neg (by omega), if_pos (by omega), if_pos (by omega)]
  rw [State.blockAt, hb]

theorem State.hasReg_entry {s : State} {d i k : Nat} (hd : d < 4) (hi : i < 16384) (hk : k < 4) (h : s.hasReg (TOLL.addr d i k) = true) : d < s.numDies := by
  by_contra hn
  rw [State.hasReg, State.blockAt_entry hd hi hk, if_neg hn] at h
  exact Bool.noConfusion h

/-- A write of a die's register that is no register of DOE reaches the die's block. -/
theorem State.writeEffect_die {s : State} {m : Master} {a d o : Nat} (v : Word) (hb : s.blockAt a = .die d o) (hdoe : doeAt a = none) (h : s.hasReg a = true) :
    s.writeEffect m a v = s.writeDie m d o v := by
  have hgate : s.gatedAt a = false := by rw [State.gatedAt, hb]
  have hdata : s.dataWordAt a = none := by rw [State.dataWordAt, hb]
  unfold State.writeEffect
  rw [if_neg (by simp [hgate]), hdoe, hdata, hb]
  exact if_pos h

/-- A write of a die's block at an offset of the Toll Table. -/
theorem State.writeDie_toll (s : State) (m : Master) (d : Nat) {o : Nat} (v : Word) (hge : 0x1000000 ≤ o) (hlt : o < 0x1080000) :
    s.writeDie m d o v = s.wrToll m d ((o - 0x1000000) / 32) (o % 32 / 8) v := by
  have off : ∀ n < 0x1000000, ¬ o = n := by omega
  have selection : ¬ (decide (0x4000 ≤ o) && decide (o < 0x4200)) = true := by simp; omega
  have table : (decide (0x1000000 ≤ o) && decide (o < 0x1080000)) = true := by simp; omega
  unfold State.writeDie
  simp only [off 0x18 (by decide), off 0x20 (by decide), off 0x30 (by decide), off 0x48 (by decide), off 0x78 (by decide), off 0xD0 (by decide), decide_false,
    Bool.or_self, Bool.false_eq_true, if_false, if_neg selection, if_pos table]

theorem doeAt_entry (d i k : Nat) : doeAt (TOLL.addr d i k) = none := by
  have far : ∀ n, (decide (cpBase n + 0x100 ≤ TOLL.addr d i k) && decide (TOLL.addr d i k < cpBase n + 0x130) && decide (TOLL.addr d i k % 8 = 0)) = false := fun n => by
    have h : ¬ TOLL.addr d i k < cpBase n + 0x130 := by
      unfold TOLL.addr dieBase cpBase
      split <;> omega
    rw [decide_eq_false h, Bool.and_false, Bool.false_and]
  unfold doeAt
  dsimp only
  rw [far 0, far 1]
  rfl

/-- A write of a word of an entry reaches the Toll Table of its die. -/
theorem State.writeEffect_entry {s : State} {m : Master} {d i k : Nat} (v : Word) (hd : d < 4) (hi : i < 16384) (hk : k < 4)
    (h : s.hasReg (TOLL.addr d i k) = true) : s.writeEffect m (TOLL.addr d i k) v = s.wrToll m d i k v := by
  have hb := State.blockAt_entry (s := s) hd hi hk
  rw [if_pos (State.hasReg_entry hd hi hk h)] at hb
  rw [State.writeEffect_die v hb (doeAt_entry d i k) h, State.writeDie_toll _ _ _ _ (by omega) (by omega),
    show (0x1000000 + 32 * i + 8 * k - 0x1000000) / 32 = i by omega, show (0x1000000 + 32 * i + 8 * k) % 32 / 8 = k by omega]

end Sys2Proof.Machine
end

