-- ==== Sys2Proof/Proofs/TollCommit.lean ====
section
/-! A commit by a write of word 3 of an entry (R499 to R502, R509): what it asks for, whether it is refused, waits or takes effect, and the staging buffer that it empties. -/

namespace Sys2Proof.Machine

/-! ### What a commit asks for -/

/-- Word k of entry i of a commit: what is staged for the entry, or what the entry holds (R500). -/
def State.wordAsked (s : State) (d i : Nat) (staged : Option (Nat × Nat)) (k : Nat) : Nat :=
  match staged with
  | some (j, n) => if j = i then n else (s.tollWord d i k).toNat
  | none => (s.tollWord d i k).toNat

/-- The four words that a master's write of v to word 3 of entry i asks for (R500). -/
def State.wordsAsked (s : State) (m : Master) (d i : Nat) (v : Word) : List Nat :=
  [s.wordAsked d i (s.staged' d m).word0 0, s.wordAsked d i (s.staged' d m).word1 1, s.wordAsked d i (s.staged' d m).word2 2, v.toNat]

/-- The entry that those words spell (Table 11-1). -/
def State.entryAsked (s : State) (m : Master) (d i : Nat) (v : Word) : TollEntry :=
  tollEntry (BitVec.ofNat 64 (s.wordAsked d i (s.staged' d m).word0 0)) (BitVec.ofNat 64 (s.wordAsked d i (s.staged' d m).word1 1))
    (BitVec.ofNat 64 (s.wordAsked d i (s.staged' d m).word2 2)) v

/-- The words that the entry takes: zero in all four where VALID is 0 (R500). -/
def State.wordsTaken (s : State) (m : Master) (d i : Nat) (v : Word) : List Nat := if v.getLsbD 48 then s.wordsAsked m d i v else [0, 0, 0, 0]

/-- A commit before M11 is refused: the entry in force is locked, the asked one breaks Table 11-1, or the mode is before M4 (R501, R502). -/
def State.commitRefused (s : State) (m : Master) (d i : Nat) (v : Word) : Prop :=
  (s.tollWord d i 3).getLsbD 49 = true ∨ (v.getLsbD 48 = true ∧ (s.entryAsked m d i v).inRange = false) ∨ s.mode < 4

/-- A commit of die d waits: the next epoch value has live accesses, or an earlier commit waits (R509). -/
def State.commitWaits (s : State) (d : Nat) : Prop := s.liveAt d ((s.epoch d + 1) % 256) ≠ 0 ∨ ∃ c ∈ s.commits, c.die = d

/-- An in-band master of a write holds the shared staging buffer of die d (R499). -/
def State.mayStage (s : State) (d : Nat) (m : Master) : Prop := ∀ id priv, m = .inband id priv → s.stageHeldBy d = id + 1

/-! ### The commit -/

/-- A commit by a master that may stage is refused and counted, or takes effect or waits, with the staging buffer emptied. -/
theorem State.tollCommit_eq {s : State} {m : Master} {d i : Nat} (v : Word) (hm : s.mayStage d m) (h11 : s.mode ≠ 11) :
    (s.commitRefused m d i v → s.tollCommit m d i v.toNat = (s.emptyStaging m d).bump (TOLL_CTL.REFUSED d)) ∧
    (¬ s.commitRefused m d i v → s.tollCommit m d i v.toNat = (s.emptyStaging m d).commitOrWait d i (s.wordsTaken m d i v)) := by
  suffices h : ∀ t, s.tollCommit m d i v.toNat = t → (s.commitRefused m d i v → t = (s.emptyStaging m d).bump (TOLL_CTL.REFUSED d)) ∧
      (¬ s.commitRefused m d i v → t = (s.emptyStaging m d).commitOrWait d i (s.wordsTaken m d i v)) from h _ rfl
  intro t ht
  unfold State.tollCommit at ht
  extract_lets x mine word ws e taken foreign refused s' at ht
  have hmine : mine = true := by
    unfold mine
    cases m
    case inband id priv => exact decide_eq_true (hm id priv rfl)
    all_goals rfl
  have hforeign : foreign = false := by
    unfold foreign
    cases m
    case inband id priv => simp [hm id priv rfl]
    all_goals rfl
  have hword : ∀ o k, word o k = s.wordAsked d i o k := fun o k => by
    cases o <;> simp [word, State.wordAsked, hmine]
  have hws : ws = s.wordsAsked m d i v := by simp only [ws, hword, State.wordsAsked, x]
  have he : e = s.entryAsked m d i v := by simp [e, hws, State.wordsAsked, State.entryAsked]
  have htaken : taken = s.wordsTaken m d i v := by simp only [taken, he, hws, State.entryAsked, tollEntry_valid, State.wordsTaken]
  have hrefused : refused = true ↔ s.commitRefused m d i v := by
    simp [refused, he, State.commitRefused, State.toll_locked, State.entryAsked, h11, or_assoc]
  have hs' : s' = s.emptyStaging m d := by simp [s', hforeign]
  rw [← ht, hs', htaken]
  exact ⟨fun h => if_pos (hrefused.2 h), fun h => if_neg (mt hrefused.1 h)⟩

/-- A commit that need not wait takes effect. -/
theorem State.commitOrWait_applies {s : State} {d : Nat} (i : Nat) (ws : List Nat) (h : ¬ s.commitWaits d) : s.commitOrWait d i ws = s.applyCommit d i ws := by
  unfold State.commitOrWait
  rw [if_neg]
  simpa [State.commitWaits] using h

/-- A commit that must wait joins the end of the waiting ones (R509). -/
theorem State.commitOrWait_waits {s : State} {d : Nat} (i : Nat) (ws : List Nat) (h : s.commitWaits d) :
    s.commitOrWait d i ws = State.set { s with commits := s.commits ++ [{ die := d, entry := i, words := ws }] } (TOLL_CTL.COMMIT_WAIT d) 1 := by
  unfold State.commitOrWait
  rw [if_pos]
  · rfl
  · simpa [State.commitWaits] using h

/-! ### The staging buffers -/

theorem State.emptyStaging_staged (s : State) (m : Master) (d : Nat) : (s.emptyStaging m d).staged' d m = {} := by
  cases m <;> simp [State.emptyStaging, State.freeStaging, State.setStaged, State.staged', stagingKey]

theorem State.emptyStaging_endSame (s : State) (m : Master) (d : Nat) : endSame s (s.emptyStaging m d) := (State.emptyStaging_touch s m d).endSame rfl

theorem State.freeStaging_staged {s : State} {d : Nat} {m : Master} (e : Nat) (h : s.staged' d m = {}) : (s.freeStaging e).staged' d m = {} := by
  unfold State.staged' State.freeStaging
  rw [tabGet_tabPut]
  split
  · rfl
  · exact h

theorem State.staged_of_staging {s t : State} {d : Nat} {m : Master} (h : t.staging = s.staging) : t.staged' d m = s.staged' d m := by
  rw [State.staged', h, State.staged']

/-- An empty staging buffer stays empty where a holder without a route loses what it holds. -/
theorem State.dropUnrouted_staged {s : State} {d : Nat} {m : Master} (h : s.staged' d m = {}) : s.dropUnrouted.staged' d m = {} := by
  unfold State.dropUnrouted
  refine List.foldlRecOn (motive := fun u : State => u.staged' d m = {}) _ _ h fun u hu id _ => ?_
  unfold State.dropHolder
  refine List.foldlRecOn (motive := fun u : State => u.staged' d m = {}) _ _
    (List.foldlRecOn (motive := fun u : State => u.staged' d m = {}) _ _ hu fun u hu i _ => ?_) fun u hu e _ => ?_
  · split
    · exact (State.staged_of_staging ((State.semLost_touch u i).staging rfl)).trans hu
    · exact hu
  · split
    · exact State.freeStaging_staged e hu
    · exact hu

theorem endStep_staged {s : State} {d : Nat} {m : Master} (b : State) (h : s.staged' d m = {}) : (endStep b s).staged' d m = {} := by
  unfold endStep
  rw [State.staged_of_staging ((State.identityWords_touch _).staging rfl)]
  exact (State.staged_of_staging ((State.countTime_touch b s.dropUnrouted).staging rfl)).trans (State.dropUnrouted_staged h)

end Sys2Proof.Machine
end

