-- ==== Sys2Proof/Proofs/TollWrite.lean ====
section
/-! The write of word 3 as a command: the state in which its commit is decided, and the state in which it ends. -/

namespace Sys2Proof.Machine

/-! ### What a commit asks is not changed by the count of its access -/

theorem endSame.tollWord {s t : State} (h : endSame s t) (d i k : Nat) : t.tollWord d i k = s.tollWord d i k := h.2 _ (not_shared_entry d i k)

theorem endSame.epoch {s t : State} (h : endSame s t) (d : Nat) : t.epoch d = s.epoch d := by
  unfold State.epoch State.get
  rw [h.2 (TOLL_CTL.EPOCH d).addr (not_shared_ctl d)]

theorem endSame.mode {s t : State} (h : endSame s t) : t.mode = s.mode := by
  unfold State.mode State.get
  rw [h.2 PKG_MODE.MODE.addr (not_shared_package (by decide))]

theorem endSame.commitWaits {s t : State} (h : endSame s t) (d : Nat) : t.commitWaits d ↔ s.commitWaits d := by
  unfold State.commitWaits
  rw [h.epoch, show t.commits = s.commits by rw [h.1], show ∀ e, t.liveAt d e = s.liveAt d e by rw [h.1]; exact fun _ => rfl]

theorem endSame.wordAsked {s t : State} (h : endSame s t) (d i : Nat) : t.wordAsked d i = s.wordAsked d i := by
  funext o k
  unfold State.wordAsked
  rw [h.tollWord]

theorem endSame.commitRefused {s t : State} {m : Master} {d : Nat} (h : endSame s t) (hs : t.staged' d m = s.staged' d m) (i : Nat) (v : Word) :
    t.commitRefused m d i v ↔ s.commitRefused m d i v := by
  simp only [State.commitRefused, State.entryAsked, h.tollWord, h.wordAsked, h.mode, hs]

theorem endSame.wordsTaken {s t : State} {m : Master} {d : Nat} (h : endSame s t) (hs : t.staged' d m = s.staged' d m) (i : Nat) (v : Word) :
    t.wordsTaken m d i v = s.wordsTaken m d i v := by
  simp only [State.wordsTaken, State.wordsAsked, h.wordAsked, hs]

theorem countSame.staged {s t : State} (h : countSame s t) (d : Nat) (m : Master) : t.staged' d m = s.staged' d m := by rw [h.1]; rfl

theorem countSame.mayStage {s t : State} (h : countSame s t) {d : Nat} {m : Master} (hm : s.mayStage d m) : t.mayStage d m := by
  rw [h.1]
  exact hm

/-! ### The command -/

/-- No write takes effect in M11 but that of PKG_MODE_CTL (R593). -/
theorem State.mode_of_writable {s : State} {m : Master} {a : Nat} (ha : a ≠ PKG_MODE_CTL.addr) (h : s.writable m a) : s.mode ≠ 11 := by
  intro h11
  obtain ⟨-, hr, -⟩ := h
  simp only [State.reaches, Bool.and_eq_true, decide_eq_true_eq] at hr
  obtain ⟨⟨⟨⟨⟨hgo, -⟩, -⟩, -⟩, -⟩, -⟩ := hr
  revert hgo
  unfold State.gateway
  simp only [h11, ha, decide_false, decide_true, Bool.not_false, Bool.and_true, if_true]
  repeat' split
  all_goals simp_all

theorem countSame.hasReg {s t : State} (h : countSame s t) (a : Nat) : t.hasReg a = s.hasReg a := by
  rw [h.1]
  rfl

theorem State.reaches_out (s : State) (l : List Output) (m : Master) (write : Bool) (a : Nat) :
    State.reaches { s with out := l } m write a = s.reaches m write a := rfl

theorem State.hasReg_out (s : State) (l : List Output) (a : Nat) : State.hasReg { s with out := l } a = s.hasReg a := rfl

/-- A write that was done is answered so. -/
theorem State.reply_done (s : State) (m : Master) : s.reply m .plain true 0 0 = s.emit (.controlAnswer m 0 0) := by
  cases m <;> rfl

/-- A write of word 3 that takes effect is counted, commits and is answered. -/
theorem State.controlWrite_tollCommit {s : State} {m : Master} {d i : Nat} (v : Word) (hd : d < 4) (hi : i < 16384)
    (hr : s.reaches m true (TOLL.addr d i 3) = true) (hreg : s.hasReg (TOLL.addr d i 3) = true) :
    ∃ c, countSame s c ∧ endSame s c ∧ s.controlWrite m (TOLL.addr d i 3) v.toNat = (c.tollCommit m d i v.toNat).emit (.controlAnswer m 0 0) := by
  obtain ⟨c, hcount⟩ : ∃ c, s.countDie (s.dieOfAddr (TOLL.addr d i 3)) 0x07 1 (fun _ => true) = c := ⟨_, rfl⟩
  have hc : countSame s c := hcount ▸ s.countDie_countSame ..
  have hcreg : c.hasReg (TOLL.addr d i 3) = true := (hc.hasReg _).trans hreg
  have hx : c.writeEffect m (TOLL.addr d i 3) (BitVec.ofNat 64 v.toNat) = (c.tollCommit m d i v.toNat, 0) := by
    rw [BitVec.ofNat_toNat, BitVec.setWidth_eq, State.writeEffect_entry v hd hi (by decide) hcreg, State.wrToll, if_pos rfl]
  have htow : (c.tollCommit m d i v.toNat).tow = [] := by
    rw [(State.tollCommit_touch ..).tow rfl, hc.1]
    simp only [State.reaches, Bool.and_eq_true, List.isEmpty_iff] at hr
    exact hr.2
  refine ⟨c, hc, hcount ▸ s.countDie_endSame .., ?_⟩
  have haligned : TOLL.addr d i 3 % 8 = 0 := by
    unfold TOLL.addr dieBase
    omega
  have hlt : TOLL.addr d i 3 < 2 ^ 30 := by
    unfold TOLL.addr dieBase
    omega
  exact (State.controlWrite_reaches hr haligned hlt hcount hx htow).trans (State.reply_done _ m)

theorem exec_tollCommit {s : State} {m : Master} {d i : Nat} (v : Word) (hd : d < 4) (hi : i < 16384) (hw : s.writable m (TOLL.addr d i 3)) :
    ∃ c, countSame { s with out := [] } c ∧ endSame { s with out := [] } c ∧
      exec (.tollCommit m d i v) s = finish s ((c.tollCommit m d i v.toNat).emit (.controlAnswer m 0 0)) := by
  obtain ⟨hq, hr, hreg⟩ := hw
  obtain ⟨c, hc, he, hwrite⟩ := State.controlWrite_tollCommit (s := { s with out := [] }) v hd hi
    ((s.reaches_out [] ..).trans hr) ((s.hasReg_out [] _).trans hreg)
  refine ⟨c, hc, he, ?_⟩
  rw [← hwrite, ← beginStep_quiet hq]
  rfl

end Sys2Proof.Machine
end

