-- ==== Sys2Proof/Proofs/CommitCompletes.lean ====
section
/-! A commit as it completes: what its command leaves in force, whether the commit takes effect at the write or when it is released. -/

namespace Sys2Proof.Machine

/-! ### What a commit leaves in force -/

theorem effectSame.tollWord {s t : State} (h : effectSame s t) (d i k : Nat) : t.tollWord d i k = s.tollWord d i k := h.2 _ (not_workReg_entry d i k)

theorem effectSame.epoch {s t : State} (h : effectSame s t) (d : Nat) : t.epoch d = s.epoch d := by
  unfold State.epoch State.get
  rw [h.2 (TOLL_CTL.EPOCH d).addr (not_workReg_ctl d)]

theorem effectSame.putEntry {s t : State} (h : effectSame s t) (d i : Nat) (ws : List Nat) : effectSame (s.putEntry d i ws) (t.putEntry d i ws) := by
  unfold State.putEntry
  induction List.range 4 generalizing s t with
  | nil => exact h
  | cons k l ih => exact ih (h.wr _ _)

theorem effectSame.takesEntry {s t : State} (h : effectSame s t) (d e i : Nat) (ws : List Nat) :
    effectSame (s.takesEntry d e i ws) (t.takesEntry d e i ws) := by
  unfold State.takesEntry
  dsimp only
  rw [h.tollWord]
  refine effectSame.set ?_ (not_workReg_ctl d) _
  split
  · exact (h.putEntry d i ws).bump (not_workReg_ctl d)
  · exact h.putEntry d i ws

/-- A commit that takes effect in t, whose registers and check bits are those of s, does to s what its words ask. -/
theorem endSame.applyCommit {s t : State} (h : endSame s t) {d i : Nat} (ws : List Nat) (hi : i < 16384) :
    effectSame (s.takesEntry d (s.epoch d) i ws) (t.applyCommit d i ws) := by
  rw [← h.epoch d]
  exact (h.effect.takesEntry d (t.epoch d) i ws).trans (t.applyCommit_effect ws hi)

/-! ### The check bits and the cause -/

theorem not_shared_injection (d : Nat) : ¬ shared (DIE_EVT_INJECT.addr d) := by
  rintro (h | h | h | h | h | h | ⟨n, h⟩ | ⟨e, n, h | h⟩ | ⟨c, n, h | h⟩)
  all_goals
    revert h
    simp only [PKG_ID.addr, PKG_SERIAL.addr, PKG_LEAD.addr, SEAL_REMAIN.addr, PKG_SBS_STATUS.addr, PKG_NVS_CTL.addr, SEM.addr, DIE_EVT_INJECT.addr,
      PMON_DIE_SEL.addr, PMON_DIE_CTR.addr, PMON_CL_SEL.addr, PMON_CL_CTR.addr, clusterBase, dieBase]
    omega

theorem endSame.injectMode {s t : State} (h : endSame s t) (d checker inst : Nat) : t.injectMode d checker inst = s.injectMode d checker inst :=
  State.injectMode_of_rd (h.2 _ (not_shared_injection d)) checker inst

theorem hasCause_set_ctl {s : State} {e k d : Nat} {f : FieldRef} (n : Nat) (hf : f.addr = TOLL_CTL.addr d) (h : s.hasCause e k) : (s.set f n).hasCause e k :=
  hasCause_set_ne n (fun he => not_offToll_ctl d (hf ▸ he ▸ offToll_eventBase e)) h

/-- Command c completes on s with u as the state that a commit of entry i of die d leaves: of the check bits only those of the entry's words change, to good
ones where no injection is armed for the table, cause 0 of the die's source 11 is set, and P holds. -/
def completesCommit (c : Instr) (s u : State) (d i : Nat) (P : State → Prop) : Prop :=
  completesIn workSame c s u fun t =>
    (∀ a, (∀ k < 4, a ≠ TOLL.addr d i k) → t.wordState a = s.wordState a) ∧
    (s.injectMode d 0x0A 0 = 0 → ∀ k < 4, t.wordState (TOLL.addr d i k) = 0) ∧ t.hasCause (4096 + 112 * d + 11) 0 ∧ P t

/-- A command that ends as a commit left it, which began in w with the check bits and the injection of s. -/
theorem completesCommit_of {c : Instr} {s u v w : State} {d i : Nat} {ws : List Nat} {P : State → Prop} (h : exec c s = finish s v) (he : effectSame u v)
    (hecc : v.ecc = (w.applyCommit d i ws).ecc) (hcause : v.hasCause (srcDie d 11) 0) (hw : w.ecc = s.ecc)
    (hinj : w.injectMode d 0x0A 0 = s.injectMode d 0x0A 0) (hp : P (endStep s v)) (hd : d < 4) : completesCommit c s u d i P := by
  have hword : ∀ a, (endStep s v).wordState a = (w.writeEntry d i ws).wordState a := fun a => by
    rw [State.wordState, endStep_ecc, hecc, State.applyCommit_ecc, State.wordState]
  refine completesIn_of_effect h he ⟨fun a ha => ?_, fun h0 k hk => ?_, ?_, hp⟩
  · rw [hword, State.writeEntry_wordState_other w ws ha, State.wordState, hw, State.wordState]
  · rw [hword, State.writeEntry_wordState_unarmed i ws (hinj.trans h0) hk]
  · exact (endStep_touch s v).hasCause (by omega) hcause

end Sys2Proof.Machine
end

