-- ==== Sys2Proof/Proofs/CommitCases.lean ====
section
/-! The write of word 3 that is refused, waits or takes effect (R499 to R502, R509). -/

namespace Sys2Proof.Machine

/-! ### The outputs of a command beside what it commits -/

theorem State.commitRefused_out (s : State) (l : List Output) (m : Master) (d i : Nat) (v : Word) :
    State.commitRefused { s with out := l } m d i v ↔ s.commitRefused m d i v := Iff.rfl

theorem State.wordsTaken_out (s : State) (l : List Output) (m : Master) (d i : Nat) (v : Word) :
    State.wordsTaken { s with out := l } m d i v = s.wordsTaken m d i v := rfl

theorem State.commitWaits_out (s : State) (l : List Output) (d : Nat) : State.commitWaits { s with out := l } d ↔ s.commitWaits d := Iff.rfl

theorem State.injectMode_out (s : State) (l : List Output) (d checker inst : Nat) :
    State.injectMode { s with out := l } d checker inst = s.injectMode d checker inst := rfl

theorem State.bump_emit (s : State) (f : FieldRef) (o : Output) : (State.bump { s with out := [] } f).emit o = { s.bump f with out := [o] } := rfl

theorem State.set_emit (s : State) (l : List TollCommit) (f : FieldRef) (n : Nat) (o : Output) :
    (State.set { s with out := [], commits := l } f n).emit o = State.set { s with out := [o], commits := l } f n := rfl

theorem State.staged'_emit (s : State) (o : Output) (d : Nat) (m : Master) : (s.emit o).staged' d m = s.staged' d m := rfl
theorem State.staged'_bump (s : State) (f : FieldRef) (d : Nat) (m : Master) : (s.bump f).staged' d m = s.staged' d m := rfl

theorem State.staged'_waits (s : State) (l : List TollCommit) (f : FieldRef) (n d : Nat) (m : Master) :
    (State.set { s with commits := l } f n).staged' d m = s.staged' d m := rfl

/-! ### The three ends of the write -/

/-- A write of word 3 by a master that may stage ends as its refusal, its wait or its commit does, from a state that is s but for outputs, the shared
registers and an empty staging buffer. -/
theorem exec_tollCommit_cases {s : State} {m : Master} {d i : Nat} (v : Word) (hd : d < 4) (hi : i < 16384) (hw : s.writable m (TOLL.addr d i 3))
    (hm : s.mayStage d m) : ∃ c, endSame { s with out := [] } c ∧ c.staged' d m = {} ∧
      (s.commitRefused m d i v → exec (.tollCommit m d i v) s = finish s ((c.bump (TOLL_CTL.REFUSED d)).emit (.controlAnswer m 0 0))) ∧
      (¬ s.commitRefused m d i v →
        exec (.tollCommit m d i v) s = finish s ((c.commitOrWait d i (s.wordsTaken m d i v)).emit (.controlAnswer m 0 0))) := by
  obtain ⟨c, hc, he, hexec⟩ := exec_tollCommit v hd hi hw
  have h11 : s.mode ≠ 11 := State.mode_of_writable (by unfold TOLL.addr dieBase PKG_MODE_CTL.addr; omega) hw
  obtain ⟨hrefused, htaken⟩ := State.tollCommit_eq (i := i) v (hc.mayStage hm) (he.mode.trans_ne h11)
  have href := (he.commitRefused (hc.staged d m) i v).trans (s.commitRefused_out [] m d i v)
  refine ⟨c.emptyStaging m d, he.trans (c.emptyStaging_endSame m d), c.emptyStaging_staged m d, fun h => ?_, fun h => ?_⟩
  · rw [hexec, hrefused (href.2 h)]
  · rw [hexec, htaken (mt href.1 h), he.wordsTaken (hc.staged d m), State.wordsTaken_out]

/-- A refused commit advances REFUSED. -/
theorem tollCommit_refused {s : State} {m : Master} {d i : Nat} {v : Word} (hd : d < 4) (hi : i < 16384) (hw : s.writable m (TOLL.addr d i 3))
    (hm : s.mayStage d m) (h : s.commitRefused m d i v) :
    completesWith (.tollCommit m d i v) s { s.bump (TOLL_CTL.REFUSED d) with out := [.controlAnswer m 0 0] } fun t => t.staged' d m = {} := by
  obtain ⟨c, hc, hempty, hrefused, -⟩ := exec_tollCommit_cases v hd hi hw hm
  rw [← State.bump_emit]
  exact completesWith_of (hrefused h) ((hc.bump (not_shared_ctl d)).emit _)
    (endStep_staged s (((State.staged'_emit ..).trans (State.staged'_bump ..)).trans hempty))

/-- A commit that waits joins the end of the waiting commits. -/
theorem tollCommit_waits {s : State} {m : Master} {d i : Nat} {v : Word} (hd : d < 4) (hi : i < 16384) (hw : s.writable m (TOLL.addr d i 3))
    (hm : s.mayStage d m) (h : ¬ s.commitRefused m d i v) (hwait : s.commitWaits d) :
    completesWith (.tollCommit m d i v) s
      (State.set { s with out := [.controlAnswer m 0 0], commits := s.commits ++ [{ die := d, entry := i, words := s.wordsTaken m d i v }] } (TOLL_CTL.COMMIT_WAIT d) 1)
      fun t => t.staged' d m = {} := by
  obtain ⟨c, hc, hempty, -, htaken⟩ := exec_tollCommit_cases v hd hi hw hm
  have hexec := htaken h
  have hcommits : c.commits = s.commits := by rw [hc.1]
  rw [State.commitOrWait_waits i _ (((hc.commitWaits d).trans (s.commitWaits_out [] d)).2 hwait), hcommits] at hexec
  rw [← State.set_emit]
  exact completesWith_of hexec (((hc.commits _).set (not_shared_ctl d) 1).emit _)
    (endStep_staged s (((State.staged'_emit ..).trans (State.staged'_waits ..)).trans hempty))

/-- A commit that need not wait puts the entry in force. -/
theorem tollCommit_applies {s : State} {m : Master} {d i : Nat} {v : Word} (hd : d < 4) (hi : i < 16384) (hw : s.writable m (TOLL.addr d i 3))
    (hm : s.mayStage d m) (h : ¬ s.commitRefused m d i v) (hwait : ¬ s.commitWaits d) :
    completesCommit (.tollCommit m d i v) s (s.takesEntry d (s.epoch d) i (s.wordsTaken m d i v)) d i fun t =>
      .controlAnswer m 0 0 ∈ t.out ∧ t.staged' d m = {} ∧ t.epoch d = (s.epoch d + 1) % 256 ∧ ∀ j < 16384, ∀ k < 4,
        t.tollWord d j k = if j = i then BitVec.ofNat 64 ((s.wordsTaken m d i v).getD k 0) else s.tollWord d j k := by
  obtain ⟨c, hc, hempty, -, htaken⟩ := exec_tollCommit_cases v hd hi hw hm
  have hexec := htaken h
  rw [State.commitOrWait_applies i _ (mt ((hc.commitWaits d).trans (s.commitWaits_out [] d)).1 hwait)] at hexec
  generalize s.wordsTaken m d i v = ws at hexec ⊢
  have hout : effectSame s { s with out := [] } := ⟨rfl, fun _ _ => rfl⟩
  have hu : effectSame (s.takesEntry d (s.epoch d) i ws) ((c.applyCommit d i ws).emit (.controlAnswer m 0 0)) :=
    ((hout.takesEntry d (s.epoch d) i ws).trans (hc.applyCommit ws hi)).trans (effectSame.emit _ _)
  have hend := hu.trans (endSame_endStep s _).effect
  have hkept : ((c.applyCommit d i ws).emit (.controlAnswer m 0 0)).staged' d m = {} :=
    (State.staged_of_staging ((State.applyCommit_touch c d i ws).staging rfl)).trans hempty
  have hecc : c.ecc = s.ecc := by rw [hc.1]
  have hinj := (hc.injectMode d 0x0A 0).trans (s.injectMode_out [] d 0x0A 0)
  refine completesCommit_of hexec hu rfl (c.applyCommit_cause i ws hd) hecc hinj ⟨?_, endStep_staged s hkept, ?_, fun j hj k hk => ?_⟩ hd
  · rw [endStep_out]
    exact List.mem_append_right _ List.mem_cons_self
  · exact (hend.epoch d).trans (s.takesEntry_epoch d (s.epoch d) i ws)
  · exact (hend.tollWord d j k).trans (s.takesEntry_tollWord ws hi hj hk)

end Sys2Proof.Machine
end

