-- ==== Sys2Proof/Proofs/CommitRelease.lean ====
section
/-! The release of a waiting commit (R501, R502, R509). -/

namespace Sys2Proof.Machine

/-- COMMIT_WAIT of die d falls where no commit of the die is left in the list. -/
def State.waitLowered (s : State) (d : Nat) (l : List TollCommit) : State := if ∃ y ∈ l, y.die = d then s else s.set (TOLL_CTL.COMMIT_WAIT d) 0

theorem State.waitLowered_ecc (s : State) (d : Nat) (l : List TollCommit) : (s.waitLowered d l).ecc = s.ecc := by
  unfold State.waitLowered
  split
  · rfl
  · exact State.set_ecc s _ 0

theorem State.waitLowered_tollWord (s : State) (d : Nat) (l : List TollCommit) (i k : Nat) : (s.waitLowered d l).tollWord d i k = s.tollWord d i k := by
  unfold State.waitLowered
  split
  · rfl
  · exact State.rd_set_ne s 0 (ctlAddr_ne_entry d d i k).symm

theorem State.waitLowered_epoch (s : State) (d : Nat) (l : List TollCommit) : (s.waitLowered d l).epoch d = s.epoch d := by
  unfold State.waitLowered
  split
  · rfl
  · exact State.get_set_other s (g := TOLL_CTL.EPOCH d) 0 (.inr (show 0 + 1 ≤ 56 by decide))

theorem State.waitLowered_cause {s : State} {d e k : Nat} (l : List TollCommit) (h : s.hasCause e k) : (s.waitLowered d l).hasCause e k := by
  unfold State.waitLowered
  split
  · exact h
  · exact hasCause_set_ctl (d := d) 0 rfl h

theorem effectSame.waitLowered {s t : State} (h : effectSame s t) (d : Nat) (l : List TollCommit) : effectSame (s.waitLowered d l) (t.waitLowered d l) := by
  unfold State.waitLowered
  split
  · exact h
  · exact h.set (not_workReg_ctl d) 0

/-! ### The first waiting commit of a die -/

/-- The list is taken apart at the first commit of die d. -/
structure firstWaiting (s : State) (d : Nat) (pre : List TollCommit) (c : TollCommit) (rest : List TollCommit) : Prop where
  commits : s.commits = pre ++ c :: rest
  die : c.die = d
  before : ∀ y ∈ pre, y.die ≠ d

theorem firstWaiting.find {s : State} {d : Nat} {pre rest : List TollCommit} {c : TollCommit} (h : firstWaiting s d pre c rest) :
    s.commits.find? (fun c => c.die = d) = some c := by
  rw [h.commits, List.find?_append, List.find?_eq_none.2 (by simpa using h.before)]
  simp [h.die]

theorem firstWaiting.erase {s : State} {d : Nat} {pre rest : List TollCommit} {c : TollCommit} (h : firstWaiting s d pre c rest) :
    s.commits.eraseP (fun c => c.die = d) = pre ++ rest := by
  rw [h.commits, List.eraseP_append_right _ (by simpa using h.before), List.eraseP_cons_of_pos (by simpa using h.die)]

theorem firstWaiting.any {s : State} {d : Nat} {pre rest : List TollCommit} {c : TollCommit} (h : firstWaiting s d pre c rest) :
    (pre ++ rest).any (fun c => c.die = d) = true ↔ ∃ y ∈ rest, y.die = d := by
  have hpre : ¬ ∃ y ∈ pre, y.die = d := fun ⟨y, hy, hd⟩ => h.before y hy hd
  simp only [List.any_append, Bool.or_eq_true, List.any_eq_true, decide_eq_true_eq, hpre, false_or]

/-- While the next epoch value has live accesses, nothing is released. -/
theorem State.releaseCommit_held {s : State} {d : Nat} (h : s.liveAt d ((s.epoch d + 1) % 256) ≠ 0) : s.releaseCommit d = s := by
  unfold State.releaseCommit
  split
  · rfl
  · exact if_pos h

/-- Entry i is locked, or the mode is M11: a commit that has waited is refused (R501, R502). -/
def State.commitLate (s : State) (d i : Nat) : Prop := (s.tollWord d i 3).getLsbD 49 = true ∨ s.mode = 11

/-- The first waiting commit is refused where it comes too late, and takes effect otherwise (R509). -/
theorem State.releaseCommit_free {s : State} {d : Nat} {pre rest : List TollCommit} {c : TollCommit} (h : firstWaiting s d pre c rest)
    (hl : s.liveAt d ((s.epoch d + 1) % 256) = 0) :
    (s.commitLate d c.entry → s.releaseCommit d = (State.bump { s with commits := pre ++ rest } (TOLL_CTL.REFUSED d)).waitLowered d rest) ∧
    (¬ s.commitLate d c.entry → s.releaseCommit d = (State.applyCommit { s with commits := pre ++ rest } d c.entry c.words).waitLowered d rest) := by
  have lowered : ∀ u : State, u.commits = pre ++ rest →
      (if (u.commits.any fun x => x.die = d) = true then u else u.setFlag (TOLL_CTL.COMMIT_WAIT d) false) = u.waitLowered d rest := by
    intro u hu
    rw [hu, State.waitLowered]
    exact if_congr h.any rfl rfl
  have hlocked : State.toll { s with commits := pre ++ rest } d c.entry = s.toll d c.entry := rfl
  have hmode : State.mode { s with commits := pre ++ rest } = s.mode := rfl
  have heq : s.releaseCommit d = State.waitLowered (if (s.tollWord d c.entry 3).getLsbD 49 = true ∨ s.mode = 11
      then State.bump { s with commits := pre ++ rest } (TOLL_CTL.REFUSED d)
      else State.applyCommit { s with commits := pre ++ rest } d c.entry c.words) d rest := by
    unfold State.releaseCommit
    rw [h.find]
    dsimp only
    rw [if_neg (not_not_intro hl), h.erase, hlocked, hmode, State.toll_locked]
    simp only [Bool.or_eq_true, decide_eq_true_eq]
    refine lowered _ ?_
    split
    · exact State.bump_commits _ _
    · exact State.applyCommit_commits _ d c.entry c.words
  unfold State.commitLate
  exact ⟨fun hlate => by rw [heq, if_pos hlate], fun hlate => by rw [heq, if_neg hlate]⟩

/-! ### The command -/

theorem exec_tollCommitRelease {s : State} (h : s.quiet) (d : Nat) : exec (.tollCommitRelease d) s = finish s (State.releaseCommit { s with out := [] } d) := by
  rw [← beginStep_quiet h]
  rfl

theorem State.commitLate_out (s : State) (l : List Output) (d i : Nat) : State.commitLate { s with out := l } d i ↔ s.commitLate d i := Iff.rfl

theorem State.bump_released (s : State) (l : List TollCommit) (f : FieldRef) :
    State.bump { s with out := [], commits := l } f = { s.bump f with out := [], commits := l } := rfl

theorem tollCommitRelease_held {s : State} {d : Nat} (hq : s.quiet) (hl : s.liveAt d ((s.epoch d + 1) % 256) ≠ 0) :
    completes (.tollCommitRelease d) s { s with out := [] } := by
  have h := exec_tollCommitRelease hq d
  rw [State.releaseCommit_held (s := { s with out := [] }) hl] at h
  exact completes_of h

/-- A commit whose turn comes too late is refused and counted. -/
theorem tollCommitRelease_late {s : State} {d : Nat} {pre rest : List TollCommit} {c : TollCommit} (hq : s.quiet) (h : firstWaiting s d pre c rest)
    (hl : s.liveAt d ((s.epoch d + 1) % 256) = 0) (hlate : s.commitLate d c.entry) :
    completes (.tollCommitRelease d) s (State.waitLowered { s.bump (TOLL_CTL.REFUSED d) with out := [], commits := pre ++ rest } d rest) := by
  have hb : firstWaiting { s with out := [] } d pre c rest := ⟨h.commits, h.die, h.before⟩
  have hexec := exec_tollCommitRelease hq d
  rw [(State.releaseCommit_free hb hl).1 ((s.commitLate_out [] ..).2 hlate)] at hexec
  rw [← State.bump_released]
  exact completes_of hexec

/-- A commit whose turn comes puts its entry in force. -/
theorem tollCommitRelease_applies {s : State} {d : Nat} {pre rest : List TollCommit} {c : TollCommit} (hd : d < 4) (hi : c.entry < 16384) (hq : s.quiet)
    (h : firstWaiting s d pre c rest) (hl : s.liveAt d ((s.epoch d + 1) % 256) = 0)
    (hlate : ¬ s.commitLate d c.entry) :
    completesCommit (.tollCommitRelease d) s (State.waitLowered (State.takesEntry { s with commits := pre ++ rest } d (s.epoch d) c.entry c.words) d rest) d c.entry
      fun t => t.epoch d = (s.epoch d + 1) % 256 ∧ ∀ k < 4, t.tollWord d c.entry k = BitVec.ofNat 64 (c.words.getD k 0) := by
  have hb : firstWaiting { s with out := [] } d pre c rest := ⟨h.commits, h.die, h.before⟩
  have hexec := exec_tollCommitRelease hq d
  rw [(State.releaseCommit_free hb hl).2 (mt (s.commitLate_out [] ..).1 hlate)] at hexec
  obtain ⟨u, hu⟩ : ∃ u : State, { s with commits := pre ++ rest } = u := ⟨_, rfl⟩
  obtain ⟨w, hw⟩ : ∃ w : State, { s with out := [], commits := pre ++ rest } = w := ⟨_, rfl⟩
  have huw : effectSame u w := by
    rw [← hu, ← hw]
    exact ⟨rfl, fun _ _ => rfl⟩
  have hepoch : s.epoch d = w.epoch d := by
    rw [← hw]
    rfl
  have hecc : w.ecc = s.ecc := by rw [← hw]
  have hinj : w.injectMode d 0x0A 0 = s.injectMode d 0x0A 0 := by
    rw [← hw]
    rfl
  rw [hw] at hexec
  rw [hu, hepoch]
  have he : effectSame (u.takesEntry d (w.epoch d) c.entry c.words) (w.applyCommit d c.entry c.words) :=
    (huw.takesEntry d (w.epoch d) c.entry c.words).trans (w.applyCommit_effect c.words hi)
  have hend := (he.waitLowered d rest).trans (endSame_endStep s _).effect
  refine completesCommit_of hexec (he.waitLowered d rest) (State.waitLowered_ecc ..) (State.waitLowered_cause rest (w.applyCommit_cause c.entry c.words hd)) hecc hinj
    ⟨?_, fun k hk => ?_⟩ hd
  · exact ((hend.epoch d).trans (State.waitLowered_epoch ..)).trans (u.takesEntry_epoch d (w.epoch d) c.entry c.words)
  · exact ((hend.tollWord d c.entry k).trans (State.waitLowered_tollWord ..)).trans ((u.takesEntry_tollWord c.words hi hi hk).trans (if_pos rfl))

end Sys2Proof.Machine
end

