-- ==== Sys2Proof/Proofs/TollCommits.lean ====
section
/-! Committing an entry of the Toll Table: the statement. -/

namespace Sys2Proof.Machine

/-- Settles O13: a write of word 3 is counted and decided as R500 to R502 and R509 say (the entry is formed at the write, log entry 86), and the release of a
waiting commit puts it in force by the same effect, which stays within the frames of the work in progress and of the end of a command. -/
theorem tollCommits : Obligations.TollCommits := by
  unfold Obligations.TollCommits
  intro s m d i v hd hi x word asked e words ok empty waits refused takes commits
  have hword : ∀ o k, word o k = s.wordAsked d i o k := fun o k => by cases o <;> rfl
  have hasked : asked = s.wordsAsked m d i v := by simp only [asked, hword, State.wordsAsked, x]
  have hwords : words = s.wordsTaken m d i v := by simp only [words, hasked, State.wordsTaken]
  have he : e = s.entryAsked m d i v := by simp only [e, hword, State.entryAsked, x]
  have hrefused : refused ↔ s.commitRefused m d i v := by
    unfold refused
    rw [he]
    rfl
  refine ⟨fun hw hm => ⟨fun hr hn => ?_, fun hr hn => ?_, fun hr => ?_⟩,
    fun hq _ pre c rest hcommits hdie hpre hc => ⟨?_, fun hl hlate => ?_, fun hl hlate => ?_⟩⟩
  · rw [hwords]
    exact tollCommit_applies hd hi hw hm (mt hrefused.2 hr) hn
  · rw [hwords]
    exact tollCommit_waits hd hi hw hm (mt hrefused.2 hr) hn
  · exact tollCommit_refused hd hi hw hm (hrefused.1 hr)
  · exact tollCommitRelease_held hq
  · exact tollCommitRelease_late hq ⟨hcommits, hdie, hpre⟩ hl hlate
  · exact tollCommitRelease_applies hd hc hq ⟨hcommits, hdie, hpre⟩ hl hlate

end Sys2Proof.Machine
end

