-- ==== Sys2Proof/Proofs/SemaphoreRegisters.lean ====
section
/-! Where the semaphores stand (Tables 17-2 and 13-8), and that reads and writes of their registers reach them. -/

namespace Sys2Proof.Machine

theorem SEM.addr_eq {n : Nat} (h : n < 64) : SEM.addr n = 0x5000 + 8 * n := by
  unfold SEM.addr
  omega

theorem resetWord_sem : ∀ n < 64, resetWord (SEM.addr n) = 0 := by decide

theorem semAt_sem : ∀ n < 64, semAt (SEM.addr n) = some n := by decide
theorem doeAt_sem : ∀ n < 64, doeAt (SEM.addr n) = none := by decide

theorem State.blockAt_sem (s : State) {n : Nat} (h : n < 64) : s.blockAt (SEM.addr n) = .package (SEM.addr n) := by
  have hb : blockOf (SEM.addr n) = .package (SEM.addr n) := if_pos (by rw [SEM.addr_eq h]; omega)
  rw [State.blockAt, hb]

theorem State.gatedAt_sem (s : State) {n : Nat} (h : n < 64) : s.gatedAt (SEM.addr n) = false := by
  rw [State.gatedAt, s.blockAt_sem h]

theorem State.hasReg_sem (s : State) {n : Nat} (hn : n < 64) : s.hasReg (SEM.addr n) = true := by
  have h : ∀ n < 64, (findRow packageRegs (SEM.addr n)).isSome = true := by decide
  rw [State.hasReg, s.blockAt_sem hn]
  exact h n hn

/-- A read of a semaphore reaches it. -/
theorem State.readEffect_sem (s : State) (m : Master) {n : Nat} (h : n < 64) : s.readEffect m (SEM.addr n) = s.semRead m n := by
  unfold State.readEffect
  rw [s.gatedAt_sem h, if_neg Bool.false_ne_true, semAt_sem n h]

/-- A write of the package block at an offset of the semaphores. -/
theorem State.writePackage_sem (s : State) (m : Master) {n : Nat} (v : Word) (h : n < 64) : s.writePackage m (SEM.addr n) v = s.semWrite m n := by
  rw [SEM.addr_eq h]
  have off : ∀ a, a < 0x5000 → ¬ 0x5000 + 8 * n = a := by omega
  have store : ¬ (decide (0x2040 ≤ 0x5000 + 8 * n) && decide (0x5000 + 8 * n < 0x2080)) = true := by simp; omega
  have stage : ¬ (decide (0x3000 ≤ 0x5000 + 8 * n) && decide (0x5000 + 8 * n < 0x4000)) = true := by simp; omega
  have sems : (decide (0x5000 ≤ 0x5000 + 8 * n) && decide (0x5000 + 8 * n < 0x5200)) = true := by simp; omega
  unfold State.writePackage
  rw [if_neg (off _ (by decide)), if_neg (off _ (by decide)), if_neg (off _ (by decide)), if_neg (off _ (by decide)), if_neg (off _ (by decide)),
    if_neg (off _ (by decide)), if_neg (off _ (by decide)), if_neg store, if_neg stage, if_neg (off _ (by decide)), if_pos sems,
    show (0x5000 + 8 * n - 0x5000) / 8 = n by omega]

/-- A write of a semaphore reaches it. -/
theorem State.writeEffect_sem (s : State) (m : Master) {n : Nat} (v : Word) (h : n < 64) : s.writeEffect m (SEM.addr n) v = (s.semWrite m n, csOk) := by
  have hdata : s.dataWordAt (SEM.addr n) = none := by rw [State.dataWordAt, s.blockAt_sem h]
  unfold State.writeEffect
  rw [s.gatedAt_sem h, if_neg Bool.false_ne_true, doeAt_sem n h, hdata, s.blockAt_sem h]
  dsimp only
  rw [s.hasReg_sem h, Bool.or_true, if_pos rfl, s.writePackage_sem m v h]

end Sys2Proof.Machine
end

