-- ==== Sys2Proof/Proofs/SemaphoreFields.lean ====
section
/-! What the operations of a semaphore do to the fields of its register (R560, R561, Table 13-8). -/

namespace Sys2Proof.Machine

/-! ### The fields of one register -/

theorem State.get_lt (s : State) (f : FieldRef) : s.get f < 2 ^ f.width := BitVec.isLt _

theorem State.wr_wr (s : State) (a : Nat) (v w : Word) : (s.wr a v).wr a w = s.wr a w := by simp only [State.wr, tabPut_tabPut]

theorem State.set_eq_wr (s : State) (f : FieldRef) (v : Nat) : s.set f v = s.wr f.addr ((s.set f v).rd f.addr) := by
  rw [State.set, State.rd_wr_same]

theorem State.bump_eq_wr (s : State) (f : FieldRef) : s.bump f = s.wr f.addr ((s.bump f).rd f.addr) := s.set_eq_wr f _

/-- A further field of a register that was rewritten. -/
theorem State.set_eq_wr_of {s u : State} {f : FieldRef} (h : u = s.wr f.addr (u.rd f.addr)) (v : Nat) : u.set f v = s.wr f.addr ((u.set f v).rd f.addr) := by
  rw [State.set, State.rd_wr_same]
  conv_lhs => rw [h, State.wr_wr]
  rw [← h]

theorem State.get_bump_same (s : State) (f : FieldRef) (h : f.lo + f.width ≤ 64) : (s.bump f).get f = min (s.get f + 1) (2 ^ f.width - 1) := by
  have hp : 0 < 2 ^ f.width := Nat.two_pow_pos _
  rw [State.bump, State.bumpBy, State.get_set_same _ _ _ h, satAdd, Nat.mod_eq_of_lt (by omega)]

theorem State.get_bump_other (s : State) {f g : FieldRef} (h : g.lo + g.width ≤ f.lo ∨ f.lo + f.width ≤ g.lo) : (s.bump f).get g = s.get g :=
  State.get_set_other s _ h

/-! ### What the operations of a semaphore do to its fields (Table 13-8) -/

theorem State.held_iff (s : State) (n : Nat) : (s.rd (SEM.addr n)).getLsbD 63 = true ↔ s.get (SEM.HELD n) = 1 := by
  unfold State.get getBits SEM.HELD
  simp only [BitVec.extractLsb'_toNat, BitVec.getLsbD, Nat.testBit_eq_decide_div_mod_eq, decide_eq_true_eq, Nat.shiftRight_eq_div_pow]

theorem State.held_cases (s : State) (n : Nat) : s.get (SEM.HELD n) = 0 ∨ s.get (SEM.HELD n) = 1 := by
  have h := s.get_lt (SEM.HELD n)
  simp only [SEM.HELD] at h ⊢
  omega

theorem State.holdsSem_iff (s : State) (m : Master) (n : Nat) : s.holdsSem m n = true ↔ s.get (SEM.HELD n) = 1 ∧ s.get (SEM.HOLDER n) = s.masterId m := by
  rcases s.held_cases n with h | h <;> simp [State.holdsSem, State.flag, h]

/-- What a master reads of a semaphore that is held: HELD, YOURS to the holder alone, and HOLDER. -/
theorem State.semWord_fields {s : State} {m : Master} {n : Nat} (hh : s.get (SEM.HELD n) = 1) (hy : s.get (SEM.YOURS n) = 0) :
    s.semWord m n / 2 ^ 63 = 1 ∧ s.semWord m n / 2 ^ 62 % 2 = (if (s.holdsSem m n && m.acquires) = true then 1 else 0) ∧
      s.semWord m n % 2 ^ 16 = s.get (SEM.HOLDER n) := by
  have hlt : (s.rd (SEM.addr n)).toNat < 2 ^ 64 := BitVec.isLt _
  simp only [State.get, SEM.HELD, SEM.YOURS, SEM.HOLDER, getBits, BitVec.extractLsb'_toNat, Nat.shiftRight_eq_div_pow] at hh hy ⊢
  unfold State.semWord
  split <;> omega

/-- A free semaphore with master m as its holder, and with the acquisition counted. -/
def State.semTaken (s : State) (m : Master) (n : Nat) : State :=
  ((s.setFlag (SEM.HELD n) true).set (SEM.HOLDER n) (s.masterId m)).bump (SEM.ACQUIRES n)

theorem State.semRead_free {s : State} {m : Master} {n : Nat} (hm : m.acquires = true) (h : s.get (SEM.HELD n) = 0) :
    s.semRead m n = (s.semTaken m n, (s.semTaken m n).semWord m n) := by
  have hf : s.flag (SEM.HELD n) = false := by simp [State.flag, h]
  unfold State.semRead
  rw [hf, hm]
  rfl

theorem State.semRead_held {s : State} {n : Nat} (m : Master) (h : s.get (SEM.HELD n) = 1) : s.semRead m n = (s, s.semWord m n) := by
  have hf : s.flag (SEM.HELD n) = true := by simp [State.flag, h]
  unfold State.semRead
  rw [hf]
  rfl

theorem State.semTaken_rewrites (s : State) (m : Master) (n : Nat) : s.semTaken m n = s.wr (SEM.addr n) ((s.semTaken m n).rd (SEM.addr n)) :=
  State.set_eq_wr_of (f := SEM.ACQUIRES n) (State.set_eq_wr_of (f := SEM.HOLDER n) (s.set_eq_wr (SEM.HELD n) 1) _) _

theorem State.semTaken_fields {s : State} {m : Master} (n : Nat) (hid : s.masterId m < 65536) :
    (s.semTaken m n).get (SEM.HELD n) = 1 ∧ (s.semTaken m n).get (SEM.HOLDER n) = s.masterId m ∧
      (s.semTaken m n).get (SEM.ACQUIRES n) = min (s.get (SEM.ACQUIRES n) + 1) 0xFFFF ∧
      (s.semTaken m n).get (SEM.FOREIGN_WRITES n) = s.get (SEM.FOREIGN_WRITES n) ∧ (s.semTaken m n).get (SEM.YOURS n) = s.get (SEM.YOURS n) := by
  have hcount : min (s.get (SEM.ACQUIRES n) + 1) 0xFFFF % 2 ^ 16 = min (s.get (SEM.ACQUIRES n) + 1) 0xFFFF := Nat.mod_eq_of_lt (by omega)
  unfold State.semTaken State.setFlag State.bump State.bumpBy State.set State.get satAdd
  unfold State.get at hcount
  simp (disch := decide) only [SEM.HELD, SEM.YOURS, SEM.ACQUIRES, SEM.FOREIGN_WRITES, SEM.HOLDER, State.rd_wr_same, getBits_setBits_same, getBits_setBits_other] at hcount ⊢
  exact ⟨rfl, Nat.mod_eq_of_lt hid, hcount, trivial, trivial⟩

theorem State.semFree_fields (s : State) (n : Nat) :
    (s.semFree n).get (SEM.HELD n) = 0 ∧ (s.semFree n).get (SEM.HOLDER n) = 0 ∧ (s.semFree n).get (SEM.ACQUIRES n) = s.get (SEM.ACQUIRES n) ∧
      (s.semFree n).get (SEM.FOREIGN_WRITES n) = s.get (SEM.FOREIGN_WRITES n) := by
  unfold State.semFree State.setFlag State.set State.get
  simp (disch := decide) only [SEM.HELD, SEM.ACQUIRES, SEM.FOREIGN_WRITES, SEM.HOLDER, State.rd_wr_same, getBits_setBits_same, getBits_setBits_other]
  exact ⟨rfl, rfl, trivial, trivial⟩

theorem State.semFree_rewrites (s : State) (n : Nat) : s.semFree n = s.wr (SEM.addr n) ((s.semFree n).rd (SEM.addr n)) :=
  State.set_eq_wr_of (f := SEM.HOLDER n) (s.set_eq_wr (SEM.HELD n) 0) 0

theorem State.semWrite_foreign {s : State} {m : Master} {n : Nat} (h : s.holdsSem m n = false) : s.semWrite m n = s.bump (SEM.FOREIGN_WRITES n) := by
  rw [State.semWrite, h]
  rfl

theorem State.bump_foreign_fields (s : State) (n : Nat) :
    (s.bump (SEM.FOREIGN_WRITES n)).get (SEM.HELD n) = s.get (SEM.HELD n) ∧ (s.bump (SEM.FOREIGN_WRITES n)).get (SEM.HOLDER n) = s.get (SEM.HOLDER n) ∧
      (s.bump (SEM.FOREIGN_WRITES n)).get (SEM.ACQUIRES n) = s.get (SEM.ACQUIRES n) ∧
      (s.bump (SEM.FOREIGN_WRITES n)).get (SEM.FOREIGN_WRITES n) = min (s.get (SEM.FOREIGN_WRITES n) + 1) 0xFF := by
  refine ⟨State.get_bump_other s ?_, State.get_bump_other s ?_, State.get_bump_other s ?_, State.get_bump_same s _ ?_⟩
  all_goals simp [SEM.HELD, SEM.ACQUIRES, SEM.FOREIGN_WRITES, SEM.HOLDER]

/-- What the end of a store procedure by its holder leaves alone (R84, log entry 56). -/
theorem State.endBankWrite_eq (s : State) : s.endBankWrite = { s with dir := s.endBankWrite.dir, bankWrite := none } := by
  cases h : s.bankWrite with
  | none =>
    have hs : s.endBankWrite = s := by rw [State.endBankWrite, h]
    rw [hs, ← h]
  | some w =>
    simp only [State.endBankWrite, h]
    split <;> rfl

/-- The state in which the holder's write frees semaphore n: for SEM00 the store procedure has ended. -/
def State.semReleasing (s : State) (n : Nat) : State := if n = 0 then s.endBankWrite else s

theorem State.semWrite_release {s : State} {m : Master} {n : Nat} (hm : m.acquires = true) (h : s.holdsSem m n = true) :
    s.semWrite m n = (s.semReleasing n).semFree n := by
  unfold State.semWrite State.semReleasing
  rw [h, hm]
  by_cases hn : n = 0
  · rw [if_pos hn, hn]
    rfl
  · rw [if_neg hn, if_neg hn]
    rfl

theorem State.semReleasing_rd (s : State) (n a : Nat) : (s.semReleasing n).rd a = s.rd a := by
  unfold State.semReleasing
  split
  · rw [State.endBankWrite_eq]
    rfl
  · rfl

end Sys2Proof.Machine
end

