-- ==== Sys2Proof/Proofs/SemaphoreHolders.lean ====
section
/-! Which in-band masters hold something, and what their routes rest on (R360, R562). -/

namespace Sys2Proof.Machine

/-! ### The in-band holders of a state -/

/-- The master that a listed register shows as the holder of a semaphore. -/
def semHolder (x : Nat × Word) : Option Nat :=
  if decide (0x5000 ≤ x.1) && decide (x.1 < 0x5200) && x.2.getLsbD 63 then some (getBits x.2 0 16) else none

theorem semHolder_of_other {a : Nat} (w : Word) (h : a < 0x5000 ∨ 0x5200 ≤ a) : semHolder (a, w) = none := if_neg (by simp; omega)

theorem State.mem_inbandHolders (s : State) (id : Nat) :
    id ∈ s.inbandHolders ↔ ((∃ x ∈ s.regs, semHolder x = some id) ∨ ∃ x ∈ s.stageHolder, x.2 - 1 = id) ∧ id / 1024 ≠ s.rank := by
  unfold State.inbandHolders
  simp only [List.mem_filter, List.mem_append, List.mem_filterMap, List.mem_map, decide_eq_true_eq]
  rfl

theorem mem_of_mem_tabErase {α : Type} {x : Nat × α} {k : Nat} {t : Tab α} (h : x ∈ tabErase t k) : x ∈ t := by
  induction t with
  | nil => exact h
  | cons y t ih =>
    simp only [tabErase] at h
    split at h
    · exact .tail _ (ih h)
    · exact (List.mem_cons.1 h).elim (fun e => e ▸ .head _) fun h => .tail _ (ih h)

theorem mem_tabInsert {α : Type} {x : Nat × α} {k : Nat} {v : α} {t : Tab α} (h : x ∈ tabInsert t k v) : x = (k, v) ∨ x ∈ t := by
  induction t with
  | nil => exact .inl (List.mem_singleton.1 h)
  | cons y t ih =>
    simp only [tabInsert] at h
    split at h
    · exact List.mem_cons.1 h
    · exact (List.mem_cons.1 h).elim (fun e => .inr (e ▸ .head _)) fun h => (ih h).imp id (.tail _)

/-- What a table lists after a write is the written entry or was listed before. -/
theorem mem_tabPut {α : Type} [DecidableEq α] {dflt : Nat → α} {x : Nat × α} {k : Nat} {v : α} {t : Tab α} (h : x ∈ tabPut dflt t k v) :
    x = (k, v) ∨ x ∈ t := by
  unfold tabPut at h
  split at h
  · exact .inr (mem_of_mem_tabErase h)
  · exact (mem_tabInsert h).imp id mem_of_mem_tabErase

/-- What does not read as its default is listed. -/
theorem mem_of_tabGet {α : Type} {dflt : Nat → α} {t : Tab α} {k : Nat} (h : tabGet dflt t k ≠ dflt k) : (k, tabGet dflt t k) ∈ t := by
  induction t with
  | nil => exact absurd rfl h
  | cons y t ih =>
    obtain ⟨j, w⟩ := y
    simp only [tabGet] at h ⊢
    split at h
    · subst_vars
      rw [if_pos rfl]
      exact .head _
    · rw [if_neg ‹_›]
      exact .tail _ (ih h)

/-- The in-band holder of a semaphore has a route on a state whose in-band holders all have one. -/
theorem State.routed.holder {s : State} {n : Nat} (h : s.routed) (hn : n < 64) (hh : s.get (SEM.HELD n) = 1) (hr : s.get (SEM.HOLDER n) / 1024 ≠ s.rank) :
    (s.routeBf s.leadDie (s.get (SEM.HOLDER n))).isSome = true := by
  have hbit := (s.held_iff n).2 hh
  have hlisted : (SEM.addr n, s.rd (SEM.addr n)) ∈ s.regs := mem_of_tabGet fun e => by
    rw [State.rd, e, resetWord_sem n hn] at hbit
    exact Bool.noConfusion hbit
  have hrange : decide (0x5000 ≤ SEM.addr n) && decide (SEM.addr n < 0x5200) := by
    rw [SEM.addr_eq hn]
    simp; omega
  refine h _ ((s.mem_inbandHolders _).2 ⟨.inl ⟨_, hlisted, ?_⟩, hr⟩)
  unfold semHolder
  rw [hrange, hbit]
  rfl

/-! ### Routes -/

/-- The registers that the lead's routes rest on: PKG_LEAD, the fences, and the links and containments of ports (R101, R360). -/
def routeReg (a : Nat) : Prop :=
  a = PKG_LEAD.addr ∨ a = PKG_FENCE_CL.addr ∨ a = PKG_FENCE_RG.addr ∨ ∃ p, a = PORT_LINK.addr p ∨ a = PORT_CONTAIN.addr p

theorem routeReg.addr {a : Nat} (h : routeReg a) : a < 0x5000 ∨ 0x10000000 ≤ a := by
  rcases h with rfl | rfl | rfl | ⟨p, rfl | rfl⟩
  iterate 3 exact .inl (by decide)
  all_goals
    simp only [PORT_LINK.addr, PORT_CONTAIN.addr, portBase, clusterBase, dieBase]
    omega

theorem State.leadRoute_congr {s t : State} (hcfg : t.cfg = s.cfg) (hreload : t.reload = s.reload) (hr : ∀ a, routeReg a → t.rd a = s.rd a) (id : Nat) :
    t.routeBf t.leadDie id = s.routeBf s.leadDie id := by
  have hsec : ∀ key o n, t.sec key o n = s.sec key o n := fun key o n => by rw [State.sec, hcfg, State.sec]
  have hlead : t.leadDie = s.leadDie := by
    unfold State.leadDie State.get
    rw [hr (PKG_LEAD.LEAD_KEEPER).addr (.inl rfl)]
  have hdark : ∀ p, t.portDark p = s.portDark p := fun p => by
    unfold State.portDark State.clusterHeld State.regionFenced State.bitOf State.get
    rw [hr PKG_FENCE_CL.CLUSTERS.addr (.inr (.inl rfl)), hr PKG_FENCE_RG.REGIONS.addr (.inr (.inr (.inl rfl)))]
  have hup : ∀ p, t.bfUp p = s.bfUp p := fun p => by
    unfold State.bfUp State.isBf State.personality State.portRec State.flag State.get
    rw [hr (PORT_LINK.LL_STATE p).addr (.inr (.inr (.inr ⟨p, .inl rfl⟩))), hr (PORT_CONTAIN.CONTAINED p).addr (.inr (.inr (.inr ⟨p, .inr rfl⟩))), hdark]
    simp only [hsec]
  have hroutable : ∀ p, t.routable p = s.routable p := fun p => by
    unfold State.routable State.reloading
    rw [hup, hreload]
  unfold State.routeBf State.routeEntry
  simp only [hlead, hsec, hroutable]

end Sys2Proof.Machine
end

