-- ==== Sys2Proof/Proofs/SemaphoreFrames.lean ====
section
/-! What an access of a semaphore keeps: the other semaphores and the routes of all in-band holders, so that the end of its command releases none. -/

namespace Sys2Proof.Machine

/-! ### What an access of a semaphore keeps -/

/-- The registers that an access of semaphore own keeps: those that the lead's routes rest on, and every other semaphore. The count of an access has none of its own. -/
def keptReg (own : Option Nat) (a : Nat) : Prop := routeReg a ∨ ∃ n < 64, own ≠ some n ∧ a = SEM.addr n

/-- t differs from s in registers outside those kept, in what leaves the package and in the state of the firmware banks, and each in-band holder has a route. -/
def semKept (own : Option Nat) (s t : State) : Prop :=
  t = { s with regs := t.regs, out := t.out, dir := t.dir, bankWrite := t.bankWrite } ∧ (∀ a, keptReg own a → t.rd a = s.rd a) ∧ t.routed

theorem semKept.leadRoute {own : Option Nat} {s t : State} (h : semKept own s t) (id : Nat) : t.routeBf t.leadDie id = s.routeBf s.leadDie id := by
  obtain ⟨h, hr, -⟩ := h
  exact State.leadRoute_congr (by rw [h]) (by rw [h]) (fun a ha => hr a (.inl ha)) id

theorem semKept.masterId {own : Option Nat} {s t : State} (h : semKept own s t) (m : Master) : t.masterId m = s.masterId m := by
  rw [h.1]
  rfl

theorem semKept.rd_other {s t : State} {n k : Nat} (h : semKept (some n) s t) (hk : k < 64) (hne : k ≠ n) : t.rd (SEM.addr k) = s.rd (SEM.addr k) :=
  h.2.1 _ (.inr ⟨k, hk, fun e => hne (Option.some.inj e).symm, rfl⟩)

theorem semKept.rank {own : Option Nat} {s t : State} (h : semKept own s t) : t.rank = s.rank := by
  rw [h.1]
  rfl

theorem semKept.of_count {s t : State} (own : Option Nat) (h : semKept none s t) : semKept own s t := by
  obtain ⟨h, hr, ht⟩ := h
  refine ⟨h, fun a ha => hr a (ha.imp_right ?_), ht⟩
  rintro ⟨n, hn, -, rfl⟩
  exact ⟨n, hn, nofun, rfl⟩

theorem semKept.setOut {own : Option Nat} {s t : State} (h : semKept own s t) (l : List Output) : semKept own s { t with out := l } :=
  ⟨congrArg (fun u : State => { u with out := l }) h.1, h.2.1, h.2.2⟩

/-- A write of a register outside those kept: where it makes an in-band master the holder of a semaphore, that master has a route. -/
theorem semKept.wr {own : Option Nat} {s t : State} (h : semKept own s t) {a : Nat} {w : Word} (ha : ¬ keptReg own a)
    (hw : ∀ id, semHolder (a, w) = some id → id / 1024 ≠ s.rank → (s.routeBf s.leadDie id).isSome = true) : semKept own s (t.wr a w) := by
  have hroute := h.leadRoute
  have hrank := h.rank
  obtain ⟨h, hr, ht⟩ := h
  have hrd : ∀ b, keptReg own b → (t.wr a w).rd b = t.rd b := fun b hb => State.rd_wr_ne t w fun e => ha (e ▸ hb)
  refine ⟨congrArg (fun u : State => { u with regs := (t.wr a w).regs }) h, fun b hb => (hrd b hb).trans (hr b hb), fun id hid => ?_⟩
  rw [State.leadRoute_congr (s := t) (t := t.wr a w) rfl rfl (fun b hb => hrd b (.inl hb)) id]
  obtain ⟨hid, hfar⟩ := (State.mem_inbandHolders _ _).1 hid
  rcases hid with ⟨x, hx, hxid⟩ | hstage
  · rcases mem_tabPut hx with rfl | hx
    · rw [hroute]
      exact hw id hxid (hrank ▸ hfar)
    · exact ht id ((State.mem_inbandHolders _ _).2 ⟨.inl ⟨x, hx, hxid⟩, hfar⟩)
  · exact ht id ((State.mem_inbandHolders _ _).2 ⟨.inr hstage, hfar⟩)

theorem not_keptReg_own {n : Nat} (hn : n < 64) : ¬ keptReg (some n) (SEM.addr n) := by
  rintro (h | ⟨k, hk, hne, h⟩)
  · have := h.addr
    rw [SEM.addr_eq hn] at this
    omega
  · rw [SEM.addr_eq hn, SEM.addr_eq hk] at h
    exact hne (congrArg some (by omega))

/-- A new word of the semaphore: the master that it makes the holder has a route. -/
theorem semKept.wrSem {s t u : State} {n : Nat} (h : semKept (some n) s t) (hn : n < 64) (hu : u = t.wr (SEM.addr n) (u.rd (SEM.addr n)))
    (hw : u.get (SEM.HELD n) = 1 → u.get (SEM.HOLDER n) / 1024 ≠ s.rank → (s.routeBf s.leadDie (u.get (SEM.HOLDER n))).isSome = true) :
    semKept (some n) s u := by
  rw [hu]
  refine h.wr (not_keptReg_own hn) fun id hid => ?_
  unfold semHolder at hid
  split at hid
  · next hc =>
    simp only [Bool.and_eq_true] at hc
    have hholder : u.get (SEM.HOLDER n) = id := Option.some.inj hid
    rw [hholder] at hw
    exact hw ((u.held_iff n).1 hc.2)
  · exact absurd hid nofun

theorem semKept.releasing {own : Option Nat} {s t : State} (h : semKept own s t) (n : Nat) : semKept own s (t.semReleasing n) := by
  unfold State.semReleasing
  split
  · rw [State.endBankWrite_eq]
    exact ⟨congrArg (fun u : State => { u with dir := t.endBankWrite.dir, bankWrite := none }) h.1, h.2⟩
  · exact h

/-! ### A semaphore after the count of an access -/

theorem semKept.rd_sem {s t : State} {n : Nat} (h : semKept none s t) (hn : n < 64) : t.rd (SEM.addr n) = s.rd (SEM.addr n) := h.2.1 _ (.inr ⟨n, hn, nofun, rfl⟩)

theorem semKept.get_sem {s t : State} {n : Nat} (h : semKept none s t) (hn : n < 64) {f : FieldRef} (hf : f.addr = SEM.addr n) : t.get f = s.get f :=
  State.get_congr (by rw [hf]; exact h.rd_sem hn)

theorem semKept.holdsSem {s t : State} {n : Nat} (h : semKept none s t) (hn : n < 64) (m : Master) : t.holdsSem m n = s.holdsSem m n := by
  unfold State.holdsSem State.flag
  rw [h.get_sem hn (f := SEM.HELD n) rfl, h.get_sem hn (f := SEM.HOLDER n) rfl, h.masterId]

theorem semKept.semWord {s t : State} {n : Nat} (h : semKept none s t) (hn : n < 64) (m : Master) : t.semWord m n = s.semWord m n := by
  rw [State.semWord, h.rd_sem hn, h.holdsSem hn, State.semWord]

/-! ### The count of an access -/

/-- The value and the selection registers of counters (Tables 17-7 and 17-9). -/
def counterReg (a : Nat) : Prop := ∃ die i n, a = selAddr die i n ∨ a = ctrAddr die i n

theorem counterReg.block {a : Nat} (h : counterReg a) : ∃ i o, 0x4000 ≤ o ∧ o < 0x4408 ∧ (a = dieBase i + o ∨ a = clusterBase i + o) := by
  obtain ⟨die, i, n, h⟩ := h
  cases die <;> rcases h with rfl | rfl
  · exact ⟨i, 0x4000 + 8 * min n 32, by omega, by omega, .inr (Nat.add_assoc ..)⟩
  · exact ⟨i, 0x4100 + 8 * min n 32, by omega, by omega, .inr (Nat.add_assoc ..)⟩
  · exact ⟨i, 0x4000 + 8 * min n 64, by omega, by omega, .inl (Nat.add_assoc ..)⟩
  · exact ⟨i, 0x4200 + 8 * min n 64, by omega, by omega, .inl (Nat.add_assoc ..)⟩

theorem counterReg.not_kept {a : Nat} (h : counterReg a) : 0x5200 ≤ a ∧ ¬ keptReg none a := by
  obtain ⟨i, o, hlow, hhigh, h⟩ := h.block
  simp only [clusterBase, dieBase] at h
  refine ⟨by omega, ?_⟩
  rintro ((rfl | rfl | rfl | ⟨p, rfl | rfl⟩) | ⟨k, hk, -, rfl⟩)
  · unfold PKG_LEAD.addr at h
    omega
  · unfold PKG_FENCE_CL.addr at h
    omega
  · unfold PKG_FENCE_RG.addr at h
    omega
  · simp only [PORT_LINK.addr, portBase, clusterBase, dieBase] at h
    omega
  · simp only [PORT_CONTAIN.addr, portBase, clusterBase, dieBase] at h
    omega
  · rw [SEM.addr_eq hk] at h
    omega

/-- What every write of a counter keeps, the advance of a counter keeps. -/
theorem State.addCounter_keeps {P : State → Prop} (hP : ∀ u a w, counterReg a → P u → P (u.wr a w)) {s : State} (h : P s) (die : Bool) (i n amount : Nat) :
    P (s.addCounter die i n amount) := by
  have sel : ∀ u w k, P u → P (u.wr (selAddr die i k) w) := fun u w k => hP u _ w ⟨die, i, k, .inl rfl⟩
  have ctr : ∀ u w k, P u → P (u.wr (ctrAddr die i k) w) := fun u w k => hP u _ w ⟨die, i, k, .inr rfl⟩
  unfold State.addCounter
  dsimp only
  split
  · split
    · exact h
    · exact ctr _ _ _ (ctr _ _ _ h)
  · split
    · exact ctr _ _ _ h
    · exact sel _ _ _ (ctr _ _ _ h)

/-- What every write of a counter keeps, the count of an event keeps. -/
theorem State.countBy_keeps {P : State → Prop} (hP : ∀ u a w, counterReg a → P u → P (u.wr a w)) {s : State} (h : P s) (f : Bool → Nat → Nat → Nat → Nat) :
    P (s.countBy f) := by
  unfold State.countBy
  refine List.foldlRecOn _ _ h fun u hu x _ => ?_
  dsimp only
  split
  · exact State.addCounter_keeps hP hu ..
  · exact hu

/-- The count of an access keeps every semaphore and every route. -/
theorem semKept.countDie {s t : State} (h : semKept none s t) (d code amount : Nat) (test : Nat → Bool) : semKept none s (t.countDie d code amount test) :=
  State.countBy_keeps (P := semKept none s) (fun u a w ha hu => hu.wr ha.not_kept.2 fun id hid => by
    rw [semHolder_of_other w (.inr ha.not_kept.1)] at hid
    exact absurd hid nofun) h _

/-! ### The end of a command -/

theorem State.dropUnrouted_routed {s : State} (h : s.routed) : s.dropUnrouted = s := by
  have hnone : s.inbandHolders.filter (fun id => (s.routeBf s.leadDie id).isNone) = [] := List.filter_eq_nil_iff.2 fun id hid => by
    rw [Option.isNone_iff_eq_none]
    exact Option.ne_none_iff_isSome.2 (h id hid)
  rw [State.dropUnrouted, hnone, List.foldl_nil]

theorem State.identityWords_rd (s : State) {a : Nat} (h : 0x5000 ≤ a) : s.identityWords.rd a = s.rd a := by
  have hset : ∀ (u : State) (f : FieldRef) (v : Nat), f.addr < 0x5000 → (u.set f v).rd a = u.rd a := fun u f v hf => State.rd_set_ne u v (by omega)
  have hwr : ∀ (u : State) (w : Word), (u.wr PKG_SERIAL.addr w).rd a = u.rd a := fun u w => State.rd_wr_ne u w (by unfold PKG_SERIAL.addr; omega)
  simp (disch := decide) only [State.identityWords, hset, hwr]

/-- Where every in-band holder has a route, the end of a command takes no semaphore from its holder. -/
theorem semKept.endStep_rd {own : Option Nat} {s t : State} (h : semKept own s t) {n : Nat} (hn : n < 64) :
    (endStep s t).rd (SEM.addr n) = t.rd (SEM.addr n) := by
  have hcycles : t.cycles = s.cycles := by rw [h.1]
  have hcount : State.countTime s t = t := by
    unfold State.countTime
    rw [hcycles, Nat.sub_self]
    rfl
  unfold endStep
  rw [State.identityWords_rd _ (by rw [SEM.addr_eq hn]; omega), State.dropUnrouted_routed h.2.2, hcount]
  rfl

end Sys2Proof.Machine
end

