-- ==== Sys2Proof/Proofs/SemaphoreCommands.lean ====
section
/-! The commands that read and write a semaphore: the towpath, the state that their access leaves, and the end of the command. -/

namespace Sys2Proof.Machine

/-! ### The towpath -/

/-- A read that reaches its block at once is counted, takes effect and is answered, where its effect starts no further access. -/
theorem State.controlRead_reaches {s : State} {m : Master} {a : Nat} (hr : s.reaches m false a = true) (ha : a % 8 = 0) (hlt : a < 2 ^ 30)
    {t u : State} {x : Nat} (ht : s.countDie (s.dieOfAddr a) 0x07 1 (fun _ => true) = t) (hx : t.readEffect m a = (u, x)) (hu : u.tow = []) :
    s.controlRead m a = u.emit (.controlAnswer m csOk x) := by
  simp only [State.reaches, Bool.and_eq_true, decide_eq_true_eq, Bool.not_eq_true', List.isEmpty_iff] at hr
  obtain ⟨⟨⟨⟨⟨hgo, hp⟩, he⟩, -⟩, hheld⟩, htow⟩ := hr
  have hc : countSame s t := ht ▸ s.countDie_countSame ..
  have hend : endSame s t := ht ▸ s.countDie_endSame ..
  have hts : t.tow = [] := by rw [hc.1]; exact htow
  have hth : t.heldAt a = false := (State.heldAt_counted a hc (hend.2 _ (not_shared_package (by decide)))).trans hheld
  have hcheck : s.checkAccess m false a = (t, true) := ht ▸ State.checkAccess_permitted hp he
  have hcond : ¬ (a % 8 ≠ 0 || decide (2 ^ 30 ≤ a)) = true := by simp [ha]; omega
  have hperf : t.performTow { master := m, addr := a, write := false, value := 0, since := t.now, reply := .plain } = u.emit (.controlAnswer m csOk x) := by
    simp only [State.performTow, hx, Bool.false_eq_true, if_false]
    cases m <;> rfl
  unfold State.controlRead State.access
  rw [if_neg hcond]
  unfold State.submit
  rw [hgo]
  dsimp only
  rw [hcheck]
  dsimp only
  rw [if_pos rfl, hts, List.nil_append, ← hperf]
  refine State.runTow_single hts hth ?_
  rw [hperf]
  exact hu

/-! ### The commands -/

theorem SEM.addr_access {n : Nat} (h : n < 64) : SEM.addr n % 8 = 0 ∧ SEM.addr n < 2 ^ 30 := by
  rw [SEM.addr_eq h]
  omega

theorem semKept.begins {s : State} (h : s.routed) : semKept none s { s with out := [] } := ⟨rfl, fun _ _ => rfl, h⟩

/-- The state after the count of the access that a command makes to semaphore n. -/
def State.semCounted (s : State) (n : Nat) : State :=
  State.countDie { s with out := [] } (s.dieOfAddr (SEM.addr n)) 0x07 1 fun _ => true

theorem semKept_semCounted {s : State} (h : s.routed) (n : Nat) : semKept none s (s.semCounted n) := (semKept.begins h).countDie ..

theorem State.semCounted_out (s : State) (n : Nat) : (s.semCounted n).out = [] := (State.countDie_touch ..).out rfl

theorem State.semCounted_tow {s : State} {m : Master} {write : Bool} {n : Nat} (h : s.reaches m write (SEM.addr n) = true) : (s.semCounted n).tow = [] := by
  simp only [State.reaches, Bool.and_eq_true, List.isEmpty_iff] at h
  exact ((State.countDie_touch ..).tow rfl).trans h.2

/-- SEMAPHORE_READ of the whole register: the access is counted, and the read is answered (R560). -/
theorem exec_semaphoreRead {s : State} {m : Master} {n : Nat} (hq : s.quiet) (hn : n < 64) (hr : s.reaches m false (SEM.addr n) = true) :
    exec (.semaphoreRead ⟨m, .whole⟩ n) s =
      finish s (((s.semCounted n).semRead m n).1.emit (.controlAnswer m 0 ((s.semCounted n).semRead m n).2)) := by
  have htow : ((s.semCounted n).semRead m n).1.tow = [] := ((State.semRead_touch ..).tow rfl).trans (State.semCounted_tow hr)
  have hread := State.controlRead_reaches (s := { s with out := [] }) hr (SEM.addr_access hn).1 (SEM.addr_access hn).2 rfl
    (State.readEffect_sem _ m hn) htow
  show execSemaphoreRead ⟨m, .whole⟩ n s = _
  unfold execSemaphoreRead sizedRead readStep
  rw [if_pos hn, if_pos rfl, beginStep_quiet hq, hread]
  rfl

/-- SEMAPHORE_WRITE: the access is counted, the write takes effect and is answered (R561). -/
theorem exec_semaphoreWrite {s : State} {m : Master} {n : Nat} (v : Word) (hq : s.quiet) (hn : n < 64) (hr : s.reaches m true (SEM.addr n) = true) :
    exec (.semaphoreWrite m n v) s = finish s (((s.semCounted n).semWrite m n).emit (.controlAnswer m 0 0)) := by
  have htow : ((s.semCounted n).semWrite m n).tow = [] := ((State.semWrite_touch ..).tow rfl).trans (State.semCounted_tow hr)
  have hwrite := State.controlWrite_reaches (s := { s with out := [] }) hr (SEM.addr_access hn).1 (SEM.addr_access hn).2 rfl
    (State.writeEffect_sem _ m (BitVec.ofNat 64 v.toNat) hn) htow
  show execSemaphoreWrite m n v s = _
  unfold execSemaphoreWrite
  dsimp only
  rw [if_pos hn, beginStep_quiet hq, hwrite]
  exact congrArg (finish s) (State.reply_done _ m)

/-- An access that the mode serves is made by a master that is present, from M2 on. -/
theorem State.gateway_go {s : State} {m : Master} {write : Bool} {a : Nat} (h : s.gateway m write a = .go) : s.masterPresent m = true ∧ ¬ s.mode < 2 := by
  by_contra hn
  have hsilent : s.gateway m write a = .silent := if_pos (by cases hm : s.masterPresent m <;> simp_all)
  rw [hsilent] at h
  exact Gateway.noConfusion h

/-- A read of a part of a register whose read has an effect is answered UR, and changes nothing (R550). -/
theorem State.partAccess_effect {s : State} {m : Master} (hm : s.masterPresent m = true) (hmode : ¬ s.mode < 2) (a : Nat) (x : AccessWidth) :
    s.partAccess m false true a x = { s with out := s.out ++ s.shortRead m } := by
  have hnone : s = { s with out := s.out ++ [] } := by rw [List.append_nil]
  cases m
  case cp n =>
    unfold State.partAccess State.shortRead
    simp only [hm, hmode, Bool.not_true, decide_false, Bool.false_or, Bool.false_eq_true, if_false]
    split
    · exact hnone
    · cases x <;> rfl
  all_goals exact hnone

/-- A read of a part of a semaphore acquires nothing, and only a control port under the PCI Express strap makes one (R550, log entry 99). -/
theorem semaphoreRead_part {s : State} {m : Master} {n : Nat} {x : AccessWidth} (hq : s.quiet) (hn : n < 64) (hr : s.reaches m false (SEM.addr n) = true)
    (hx : x ≠ .whole) : completes (.semaphoreRead ⟨m, x⟩ n) s { s with out := s.shortRead m } := by
  simp only [State.reaches, Bool.and_eq_true, decide_eq_true_eq] at hr
  obtain ⟨⟨⟨⟨⟨hgo, -⟩, -⟩, -⟩, -⟩, -⟩ := hr
  obtain ⟨hm, hmode⟩ := State.gateway_go hgo
  refine completes_of ?_
  show execSemaphoreRead ⟨m, x⟩ n s = _
  unfold execSemaphoreRead sizedRead
  rw [if_pos hn, if_neg hx, beginStep_quiet hq]
  exact congrArg (finish s) (State.partAccess_effect (s := { s with out := [] }) hm hmode _ x)

/-- A read that leaves state u ends with its answer, and with every other semaphore as it was. -/
theorem semaphoreRead_ends {s u : State} {m : Master} {n w : Nat} (hq : s.quiet) (hn : n < 64) (hr : s.reaches m false (SEM.addr n) = true)
    (hx : (s.semCounted n).semRead m n = (u, w)) (hu : semKept (some n) s u) :
    ∃ t, exec (.semaphoreRead ⟨m, .whole⟩ n) s = .next t ∧ t.rd (SEM.addr n) = u.rd (SEM.addr n) ∧ t.out = [.controlAnswer m 0 w] ∧
      ∀ k < 64, k ≠ n → t.rd (SEM.addr k) = s.rd (SEM.addr k) := by
  have hexec := exec_semaphoreRead hq hn hr
  have hout : ((s.semCounted n).semRead m n).1.out = [] := ((State.semRead_touch ..).out rfl).trans (s.semCounted_out n)
  rw [hx] at hexec hout
  have hend : semKept (some n) s (u.emit (.controlAnswer m 0 w)) := hu.setOut _
  refine ⟨_, hexec, hend.endStep_rd hn, ?_, fun k hk hne => (hend.endStep_rd hk).trans (hend.rd_other hk hne)⟩
  rw [endStep_out, State.emit, hout]
  rfl

/-- A write that leaves state u ends with every other semaphore as it was. -/
theorem semaphoreWrite_ends {s u : State} {m : Master} {n : Nat} (v : Word) (hq : s.quiet) (hn : n < 64) (hr : s.reaches m true (SEM.addr n) = true)
    (hx : (s.semCounted n).semWrite m n = u) (hu : semKept (some n) s u) :
    ∃ t, exec (.semaphoreWrite m n v) s = .next t ∧ t.rd (SEM.addr n) = u.rd (SEM.addr n) ∧ ∀ k < 64, k ≠ n → t.rd (SEM.addr k) = s.rd (SEM.addr k) := by
  have hexec := exec_semaphoreWrite v hq hn hr
  rw [hx] at hexec
  have hend : semKept (some n) s (u.emit (.controlAnswer m 0 0)) := hu.setOut _
  exact ⟨_, hexec, hend.endStep_rd hn, fun k hk hne => (hend.endStep_rd hk).trans (hend.rd_other hk hne)⟩

end Sys2Proof.Machine
end

