-- ==== Sys2Proof/Proofs/SemaphoreRules.lean ====
section
/-! The rules of the hardware semaphores (R560, R561): the statement. -/

namespace Sys2Proof.Machine

/-- The one thing that leaves the package is the answer to m that a semaphore is held, by m itself where yours is 1 (Table 13-8). -/
def State.answersHeld (t : State) (m : Master) (yours holder : Nat) : Prop :=
  ∃ w : Nat, t.out = [.controlAnswer m 0 w] ∧ w / 2 ^ 63 = 1 ∧ w / 2 ^ 62 % 2 = yours ∧ w % 2 ^ 16 = holder

/-- Every semaphore but n is in t as in s. -/
def otherSemsSame (n : Nat) (s t : State) : Prop := ∀ k < 64, k ≠ n → t.rd (SEM.addr k) = s.rd (SEM.addr k)

/-- A read of a semaphore that is held shows its holder and changes no semaphore (R560). -/
theorem semaphoreRead_held {s : State} {m : Master} {n : Nat} (hq : s.quiet) (hs : s.routed) (hn : n < 64) (hr : s.reaches m false (SEM.addr n) = true)
    (hh : s.get (SEM.HELD n) = 1) (hy : s.get (SEM.YOURS n) = 0) :
    ∃ t, exec (.semaphoreRead ⟨m, .whole⟩ n) s = .next t ∧ t.rd (SEM.addr n) = s.rd (SEM.addr n) ∧
      t.answersHeld m (if (s.holdsSem m n && m.acquires) = true then 1 else 0) (s.get (SEM.HOLDER n)) ∧ otherSemsSame n s t := by
  have hc := semKept_semCounted hs n
  obtain ⟨t, ht, hrd, hout, hothers⟩ := semaphoreRead_ends hq hn hr (State.semRead_held m ((hc.get_sem hn rfl).trans hh)) (hc.of_count _)
  rw [hc.semWord hn] at hout
  exact ⟨t, ht, hrd.trans (hc.rd_sem hn), ⟨_, hout, State.semWord_fields hh hy⟩, hothers⟩

/-- A read of a free semaphore by a master that can hold it acquires it (R560). -/
theorem semaphoreRead_free {s : State} {m : Master} {n : Nat} (hq : s.quiet) (hs : s.routed) (hn : n < 64) (hm : s.canHold m)
    (hr : s.reaches m false (SEM.addr n) = true) (hh : s.get (SEM.HELD n) = 0) (hy : s.get (SEM.YOURS n) = 0) :
    ∃ t, exec (.semaphoreRead ⟨m, .whole⟩ n) s = .next t ∧ t.get (SEM.HELD n) = 1 ∧ t.get (SEM.HOLDER n) = s.masterId m ∧
      t.get (SEM.ACQUIRES n) = min (s.get (SEM.ACQUIRES n) + 1) 0xFFFF ∧ t.get (SEM.FOREIGN_WRITES n) = s.get (SEM.FOREIGN_WRITES n) ∧
      t.answersHeld m 1 (s.masterId m) ∧ otherSemsSame n s t := by
  obtain ⟨hacq, hid, hroute⟩ := hm
  have hc := semKept_semCounted hs n
  have hmaster := hc.masterId m
  obtain ⟨hheld, hholder, hacquires, hforeign, hyours⟩ := State.semTaken_fields (s := s.semCounted n) (m := m) n (by rwa [hmaster])
  rw [hmaster] at hholder
  rw [hc.get_sem hn rfl] at hacquires hforeign hyours
  have hkept : semKept (some n) s ((s.semCounted n).semTaken m n) := (hc.of_count _).wrSem hn (State.semTaken_rewrites ..) fun _ hfar => by
    rw [hholder] at hfar ⊢
    exact hroute hfar
  obtain ⟨t, ht, hrd, hout, hothers⟩ := semaphoreRead_ends hq hn hr (State.semRead_free hacq ((hc.get_sem hn rfl).trans hh)) hkept
  have hmine : ((s.semCounted n).semTaken m n).holdsSem m n = true := (State.holdsSem_iff ..).2 ⟨hheld, hholder.trans (hkept.masterId m).symm⟩
  have hanswer := State.semWord_fields (m := m) hheld (hyours.trans hy)
  rw [hmine, hacq, hholder] at hanswer
  exact ⟨t, ht, (State.get_congr hrd).trans hheld, (State.get_congr hrd).trans hholder, (State.get_congr hrd).trans hacquires,
    (State.get_congr hrd).trans hforeign, ⟨_, hout, hanswer⟩, hothers⟩

/-- A write by the holder frees the semaphore (R561). -/
theorem semaphoreWrite_release {s : State} {m : Master} {n : Nat} (v : Word) (hq : s.quiet) (hs : s.routed) (hn : n < 64) (hm : m.acquires = true)
    (hr : s.reaches m true (SEM.addr n) = true) (hh : s.holdsSem m n = true) :
    ∃ t, exec (.semaphoreWrite m n v) s = .next t ∧ t.get (SEM.HELD n) = 0 ∧ t.get (SEM.HOLDER n) = 0 ∧
      t.get (SEM.ACQUIRES n) = s.get (SEM.ACQUIRES n) ∧ t.get (SEM.FOREIGN_WRITES n) = s.get (SEM.FOREIGN_WRITES n) ∧ otherSemsSame n s t := by
  have hc := semKept_semCounted hs n
  obtain ⟨hheld, hholder, hacquires, hforeign⟩ := ((s.semCounted n).semReleasing n).semFree_fields n
  rw [State.get_congr (State.semReleasing_rd ..), hc.get_sem hn rfl] at hacquires hforeign
  obtain ⟨t, ht, hrd, hothers⟩ := semaphoreWrite_ends v hq hn hr (State.semWrite_release hm ((hc.holdsSem hn m).trans hh))
    (((hc.of_count _).releasing n).wrSem hn (State.semFree_rewrites ..) fun h1 => absurd (hheld.symm.trans h1) (by decide))
  exact ⟨t, ht, (State.get_congr hrd).trans hheld, (State.get_congr hrd).trans hholder, (State.get_congr hrd).trans hacquires,
    (State.get_congr hrd).trans hforeign, hothers⟩

/-- A write by a master that does not hold the semaphore is counted (R561). -/
theorem semaphoreWrite_foreign {s : State} {m : Master} {n : Nat} (v : Word) (hq : s.quiet) (hs : s.routed) (hn : n < 64)
    (hr : s.reaches m true (SEM.addr n) = true) (hh : s.holdsSem m n = false) :
    ∃ t, exec (.semaphoreWrite m n v) s = .next t ∧ t.get (SEM.HELD n) = s.get (SEM.HELD n) ∧ t.get (SEM.HOLDER n) = s.get (SEM.HOLDER n) ∧
      t.get (SEM.ACQUIRES n) = s.get (SEM.ACQUIRES n) ∧ t.get (SEM.FOREIGN_WRITES n) = min (s.get (SEM.FOREIGN_WRITES n) + 1) 0xFF ∧ otherSemsSame n s t := by
  have hc := semKept_semCounted hs n
  obtain ⟨hheld, hholder, hacquires, hforeign⟩ := (s.semCounted n).bump_foreign_fields n
  rw [hc.get_sem hn rfl] at hheld hholder hacquires hforeign
  obtain ⟨t, ht, hrd, hothers⟩ := semaphoreWrite_ends v hq hn hr (State.semWrite_foreign ((hc.holdsSem hn m).trans hh))
    ((hc.of_count _).wrSem hn (State.bump_eq_wr _ (SEM.FOREIGN_WRITES n)) fun h1 hfar => by
      rw [hholder] at hfar ⊢
      exact hs.holder hn (hheld.symm.trans h1) hfar)
  exact ⟨t, ht, (State.get_congr hrd).trans hheld, (State.get_congr hrd).trans hholder, (State.get_congr hrd).trans hacquires,
    (State.get_congr hrd).trans hforeign, hothers⟩

/-- Settles O15: each access is counted and reaches its semaphore, where a read acquires or shows it and a write releases it or is counted (R560, R561), and
the end of the command releases no semaphore, since every in-band holder has a route. -/
theorem semaphoreRules : Obligations.SemaphoreRules := by
  unfold Obligations.SemaphoreRules
  intro s m n v hq hs hn hm id others answers
  have hacq : m.acquires = true := hm.1
  refine ⟨fun hr => ⟨fun x hx => semaphoreRead_part hq hn hr hx, semaphoreRead_free hq hs hn hm hr, fun hh hy hid => ?_, fun hh hy hid => ?_⟩,
    fun hr => ⟨fun hh hid => semaphoreWrite_release v hq hs hn hacq hr ((s.holdsSem_iff m n).2 ⟨hh, hid⟩), fun hf => semaphoreWrite_foreign v hq hs hn hr ?_⟩⟩
  · have h := semaphoreRead_held hq hs hn hr hh hy
    rw [(s.holdsSem_iff m n).2 ⟨hh, hid⟩, hacq, hid] at h
    exact h
  · have h := semaphoreRead_held hq hs hn hr hh hy
    have hnot : s.holdsSem m n = false := Bool.eq_false_iff.2 fun hmine => hid ((s.holdsSem_iff m n).1 hmine).2
    rw [hnot] at h
    exact h
  · refine Bool.eq_false_iff.2 fun hmine => ?_
    obtain ⟨hheld, hholder⟩ := (s.holdsSem_iff m n).1 hmine
    rcases hf with h0 | hne
    · exact absurd (h0.symm.trans hheld) (by decide)
    · exact hne hholder

end Sys2Proof.Machine
end
